-- ==== Sys2Proof/Word.lean ====
section
/-! DEFINITION. The plainest words of the Nalser: bytes, 64-bit words, word tags (R205), and tables keyed by a number. -/

namespace Sys2Proof

/-- One byte. -/
abbrev Byte := BitVec 8

/-- One 8-byte word. -/
abbrev Word := BitVec 64

/-- The tag that every 8-byte word carries (R205). No reserved tag exists: no instruction can make one. -/
inductive Tag where
  | uninit | int | float | bytes | ptr | codeptr | poison
deriving DecidableEq, Repr

/-- The 4-bit code of a tag (R205). -/
def Tag.code : Tag → BitVec 4
  | .uninit => 0x0
  | .int => 0x1
  | .float => 0x2
  | .bytes => 0x3
  | .ptr => 0x4
  | .codeptr => 0x5
  | .poison => 0x7

/-- The tag a 4-bit code names; none for a reserved code (R205). -/
def Tag.ofCode (b : BitVec 4) : Option Tag :=
  match b.toNat with
  | 0 => some .uninit
  | 1 => some .int
  | 2 => some .float
  | 3 => some .bytes
  | 4 => some .ptr
  | 5 => some .codeptr
  | 7 => some .poison
  | _ => none

/-- A word with its tag; the two are always read and written together (R222). -/
structure TWord where
  data : Word
  tag : Tag
deriving DecidableEq, Repr

/-- A table keyed by a number. What an unlisted key reads as is the reader's argument. -/
abbrev Tbl (α : Type) := List (Nat × α)

/-- The value at key `k`, or `d` where the table lists none. -/
def Tbl.get {α : Type} (t : Tbl α) (k : Nat) (d : α) : α :=
  match t with
  | [] => d
  | (j, v) :: r => if j = k then v else Tbl.get r k d

/-- The table with `v` at key `k`; keys stay in rising order when they were. -/
def Tbl.set {α : Type} (t : Tbl α) (k : Nat) (v : α) : Tbl α :=
  match t with
  | [] => [(k, v)]
  | (j, w) :: r =>
    if j = k then (k, v) :: r
    else if k < j then (k, v) :: (j, w) :: r
    else (j, w) :: Tbl.set r k v

/-- The table without key `k`. -/
def Tbl.erase {α : Type} (t : Tbl α) (k : Nat) : Tbl α :=
  match t with
  | [] => []
  | (j, w) :: r => if j = k then Tbl.erase r k else (j, w) :: Tbl.erase r k

end Sys2Proof
end

