-- ==== Sys2Proof/Syntax.lean ====
section
/-! DEFINITION. The commands of the Nalser: one constructor of `Instr` per row of spec/opcode_table.json, with the row's operands. -/

namespace Sys2Proof

/-- Logical core 0–127 (R7). -/
abbrev CoreId := Fin 128
/-- Drive port 0–1023. -/
abbrev PortId := Fin 1024
/-- Shelf 0–127. -/
abbrev ShelfId := Fin 128
/-- Tether link 0–31. -/
abbrev LinkId := Fin 32
/-- Host port 0–1. -/
abbrev HPort := Fin 2
/-- Function of a host port: 0 is PF0, 1–256 the VFs (R366). -/
abbrev FnId := Fin 257
/-- Queue pair of a function, 0–63 (R373). -/
abbrev QueueId := Fin 64
/-- Host controller L = 2h + b (R391). -/
abbrev CtlId := Fin 4
/-- Stripe engine 0–7. -/
abbrev EngineId := Fin 8
/-- LLC slice and core tile 0–135 (R262). -/
abbrev SliceId := Fin 136
/-- Memory channel 0–15. -/
abbrev ChanId := Fin 16
/-- Interrupt source 0x000–0x7FF. -/
abbrev SourceId := Fin 2048
/-- Stall 0–256. -/
abbrev StallId := Fin 257
/-- Stream context number. -/
abbrev CtxId := BitVec 16
/-- Groom pair 0–1. -/
abbrev PairId := Fin 2

/-- The access paths of the dictionary, each with its own selections and results (R464, R487). -/
inductive Path where
  | fw
  | pf (h : HPort)
  | vf (h : HPort) (n : FnId)
  | can
  | halter
deriving DecidableEq, Repr

/-- Operand sizes of the integer opcodes: .b, .h, .w, .d (R204). -/
inductive Sz where
  | b | h | w | d
deriving DecidableEq, Repr

/-- Sizes of the floating-point opcodes: .s, .d (R227). -/
inductive FSz where
  | s | d
deriving DecidableEq, Repr

/-- One operand specifier (R202), mode by mode. `reserved` stands for mode 0xF and for the reserved REG values
of modes 0x9, 0xB, 0xC and 0xE. -/
inductive Opd where
  | p (r : Fin 16)
  | x (r : BitVec 4)
  | f (r : Fin 32)
  | mem (b : Fin 16)
  | memD8 (b : Fin 16) (d : BitVec 8)
  | memD32 (b : Fin 16) (d : BitVec 32)
  | memX (b : Fin 16) (i : Fin 8) (s : Fin 4) (rsv : BitVec 3) (d : BitVec 8)
  | slot (n : Fin 16)
  | slotL (u : BitVec 8)
  | ind (b : Fin 16) (d : BitVec 8)
  | indSlot (u : BitVec 8) (d : BitVec 8)
  | pc (d : BitVec 32)
  | imm4 (v : BitVec 4)
  | imm (n : Fin 4) (v : Word)
  | reserved
deriving DecidableEq, Repr

/-- A prefix byte of an instruction (R200). `other` is one of the reserved bytes. -/
inductive Prefix where
  | near
  | far
  | vp (b : BitVec 8)
  | other (b : BitVec 8)
deriving DecidableEq, Repr

/-- Where a full-profile instruction runs, and the prefixes it carries. -/
structure At where
  core : CoreId
  pfx : List Prefix
deriving DecidableEq, Repr

/-- A branch displacement: page 0 carries 8 bits, or 32 where its opcode says so (R227). -/
inductive Disp where
  | rel8 (d : BitVec 8)
  | rel32 (d : BitVec 32)
deriving DecidableEq, Repr

/-- The operand part of a rein instruction (R253): MODE and FIELD. -/
structure Rein where
  pair : PairId
  mode : BitVec 2
  field : BitVec 24
deriving DecidableEq, Repr

/-- What a read of memory found: the line ECC's answer, or the bits of the burst that differ from those written, beat by beat for each of the ten
devices, which the decoder answers for (R295, R296). -/
inductive Ecc where
  | clean
  | corrected (device : Fin 20) (allEight : Bool)
  | uncorrectable (device : Option (Fin 20))
  | beats (errors : List (List (BitVec 4)))
deriving DecidableEq, Repr

/-- What the reads of a sector found: its data lines, and the tag line and the seal line of its tack record (R301, R304, R308). -/
structure SectorRead where
  lines : List Ecc
  tags : Ecc := .clean
  seals : Ecc := .clean
deriving DecidableEq, Repr

/-- What a DIMM's SPD says (R288, R291): its slot, whether it is an RDIMM with ECC, two 40-bit subchannels and x4 devices, monolithic or
2-high, the devices' density in Gb, its logical ranks and its highest speed in MT/s. -/
structure DimmSpd where
  chan : ChanId
  slot : Fin 2
  rdimm : Bool
  density : Nat
  ranks : Nat
  speed : Nat
deriving DecidableEq, Repr

/-- The answer to a host read (R77). -/
inductive ReadAnswer where
  | data (bytes : List Byte)
  | poisoned
  | completerAbort
deriving DecidableEq, Repr

/-- What an engine-command row does: firmware posts the descriptor to the engine's queue, or the engine carries out
its oldest started descriptor of the row's opcode. `place` and `aux` are the placement records as host memory
returned them (none: unreadable); a record in stall memory is read from the model's memory instead. -/
inductive EngStep where
  | post (descriptor : BitVec 512)
  | run (place : Option (List Word)) (aux : Option (List Word))
deriving DecidableEq, Repr

/-- One span whose check failed, with the seal that travelled and the seal computed (R55). -/
structure SpanBad where
  span : Nat
  expected : Word
  computed : Word
deriving DecidableEq, Repr

/-- A received flit: header (R102), payload bytes, CRC, and whether any bit lay in an uncorrectable codeword (R97). -/
structure Flit where
  hdr : BitVec 40
  payload : List Byte
  crc : BitVec 24
  ucw : Bool
deriving DecidableEq, Repr

/-- What a packet's traffic is, by which its unit gives it a priority (R154): Farrier repair and migration, interrupt delivery, a transfer
under a named deadline, core and host requests with their data, and background traffic. -/
inductive Traffic where
  | repair | interrupt | deadline | demand | bulk
deriving DecidableEq, Repr

/-- A request that reaches a home slice (R264): source stop, transaction, address, stall, attributes and traffic (R154). `tie` says that it
comes in the same cycle as the request commanded before it (R269, R284). -/
structure Req where
  src : BitVec 8
  txn : BitVec 16
  pa : BitVec 52
  stall : StallId
  strict : Bool
  sealAttr : Bool
  traffic : Traffic := .demand
  tie : Bool := false
deriving DecidableEq, Repr

/-- What a retired or cut-off stop is sent (R447). -/
inductive LostPacket where
  | snoop (tile : SliceId) (pa : BitVec 52)
  | request (r : Req) (old : SliceId)
  | response (stop : BitVec 8)
deriving DecidableEq, Repr

/-- A request at a memory controller; a sector write-back names its dirty sub-blocks (R301). -/
inductive McKind where
  | sectorFill
  | subFill (k : Fin 4)
  | oldSub (k : Fin 4)
  | sectorWriteBack (dirty : BitVec 4)
  | subWrite (k : Fin 4)
  | spanWrite
deriving DecidableEq, Repr

/-- A power domain (R418). -/
inductive Domain where
  | coreTile (t : SliceId)
  | slice (s : SliceId)
  | ring (die : Fin 2)
  | ioHub (n : Fin 4)
  | engine (e : EngineId)
  | channel (c : ChanId)
  | hostCtl (l : CtlId)
  | quad (q : Fin 16)
deriving DecidableEq, Repr

/-- A regulator that can lose a phase (R409, R410). -/
inductive Regulator where
  | coreTile (t : SliceId)
  | engine (e : EngineId)
  | uncore (die : Fin 2)
  | memLogic (die : Fin 2)
  | retention (die : Fin 2)
deriving DecidableEq, Repr

/-- The supply rails (R407). -/
inductive Rail where
  | vccIn | vddq | serdes0v9 | serdes1v2
deriving DecidableEq, Repr

/-- The causes whose demotion can be lifted (R426, R427). -/
inductive Demotion where
  | powerCap | thermal1 | thermal2 | droop (die : Fin 2)
deriving DecidableEq, Repr

/-- What a unit reports to the Farrier (R434, R443): the errors that no other row of the table reports, a parity error in a core's TLB or walk cache
(R328) and an error in a controller's tack cache (R300) among them. -/
inductive Report where
  | coreArray (k : CoreId)
  | coreStopped (k : CoreId)
  | sliceArray (s : SliceId)
  | directoryArray (s : SliceId)
  | engineFault (e : EngineId) (stall : StallId)
  | agentFailed (die : Fin 2)
  | unit (kind : BitVec 8) (cls : Fin 3) (ty : Fin 16) (index : BitVec 12) (stall : StallId) (core : Option CoreId)
  | spareTile (t : SliceId)
  | retrainFail (c : ChanId)
  | hostLane (quad : Fin 8) (lane : Fin 4)
  | tlbParity (k : CoreId) (walkCache : Bool) (entry : BitVec 9)
  | tackArray (c : ChanId) (line : Nat) (uncorrectable : Bool)
deriving DecidableEq, Repr

/-- The steps of a core substitution that report their end (R444). -/
inductive SubstStep where
  | halted
  | writtenBack (unreadable : List (BitVec 52))
  | scannedOut (clean : Bool)
  | powered (ok : Bool)
deriving DecidableEq, Repr

/-- The units calibrated at bring-up (R500, R507). -/
inductive CalUnit where
  | regulator (r : Regulator)
  | tetherLane (quad : Fin 16) (lane : Fin 5)
  | hostLane (quad : Fin 8) (lane : Fin 5)
  | pll
  | uncore
  | sensor (n : Nat)
deriving DecidableEq, Repr

/-- The header of a Wealar request (R469). -/
structure WealarHdr where
  tid : BitVec 6
  src : BitVec 7
  broadcast : Bool
  prio : BitVec 3
deriving DecidableEq, Repr

/-- A configuration request (R368). -/
inductive CfgReq where
  | read (off : BitVec 12)
  | write (off : BitVec 12) (val : BitVec 32)
deriving DecidableEq, Repr

/-- A non-posted request that timed out (R388). -/
inductive TimedOut where
  | engineRead (e : EngineId) (tag : Nat)
  | sqRead
deriving DecidableEq, Repr

/-- An access to a register of BAR0 (R370): where in its 8-byte unit it begins, and how many bytes it has. -/
structure BarAcc where
  low : Fin 8
  size : Nat
deriving DecidableEq, Repr

/-- A host write of a doorbell: the access, the value, and the value that a write of 8 bytes has for the doorbell behind (R370, R374). -/
structure BarValue where
  acc : BarAcc
  val : BitVec 32
  second : BitVec 32 := 0
deriving DecidableEq, Repr

/-- A GO write of a mailbox: the access and its IRQ bit (R370, R371). -/
structure BarGo where
  acc : BarAcc
  irq : Bool
deriving DecidableEq, Repr

/-- An access to a numbered place of a table in BAR0 (R370, R380, R404). -/
structure BarPlace where
  acc : BarAcc
  num : Fin 128
deriving DecidableEq, Repr

/-- A field of a training frame as received, with its complement (R94). -/
structure FrameField where
  bits : BitVec 16
  inv : BitVec 16
deriving DecidableEq, Repr

/-- A ring cycle of a lane: its number, and whether the flit sent arrives with a single-bit error (R149, R155). -/
structure RingTick where
  num : Nat
  flip : Bool
deriving DecidableEq, Repr

/-- A flit in error: its segment, and how many flits were sent after it (R149). -/
structure FlitError where
  seg : BitVec 11
  after : Fin 8
deriving DecidableEq, Repr

/-- A ring cycle of a home slice (R269, R359). -/
structure HomeTick where
  slice : SliceId
  cycle : Nat
deriving DecidableEq, Repr

/-- Where a request to a memory controller comes from, and whether it comes in the ring cycle of the one before it (R310). -/
structure McSource where
  stop : BitVec 8
  tie : Bool
deriving DecidableEq, Repr

/-- The body of a PARAM (R113). -/
structure ParamBody where
  version : BitVec 8
  role : BitVec 8
  link : BitVec 8
  identity : BitVec 128
  credits : List (BitVec 16)
  depth : BitVec 16
  seq : BitVec 10
  afterRetrain : Bool
deriving DecidableEq, Repr

/-- The queues whose head can wait at a lane output (R154–R156). -/
inductive HeadKind where
  | input (seg : BitVec 11) (vc : Fin 16)
  | inject (queue : Fin 16)
deriving DecidableEq, Repr

/-- A packet that a unit puts into a local queue of its stop: where it goes, its class, traffic and stall, its data flits, its transaction
and its contents after the routing header, as 8-byte words (R147). -/
structure LocalPkt where
  queue : Fin 16
  dest : BitVec 8
  cls : BitVec 2
  traffic : Traffic
  stall : StallId
  len : Fin 5
  txn : BitVec 16
  body : List Word
deriving DecidableEq, Repr

/-- What comes into a stop's local queues in a ring cycle: a unit's packet, a coherence packet in flight by its number, or a request that
a home slice has been sent, by its number there (R147, R264). -/
inductive LocalSrc where
  | unit (p : LocalPkt)
  | answer (queue : Fin 16) (k : Nat)
  | request (queue : Fin 16) (home : SliceId) (k : Nat)
deriving DecidableEq, Repr

/-- The atomic operations of page 4 (R236). -/
inductive AtomOp where
  | xadd | xchga | cas | aadd | aand | aor | axor
deriving DecidableEq, Repr

/-- What LOAD found in the saddlebag (R497–R499): which copy of the dictionary values was the newer valid one, and the
version of the patch copy that qualified. -/
structure PatchLoad where
  valuesCopy : Option (Fin 2)
  patch : Option (BitVec 32)
  flushValid : Bool
deriving DecidableEq, Repr

/-- The commands, one constructor per row of spec/opcode_table.json, in the table's order. -/
inductive Instr where
  /-- SQ_TAIL_DOORBELL (R374). -/
  | sqTailDoorbell (p : HPort) (fn : FnId) (q : QueueId) (v : BarValue)
  /-- CQ_HEAD_DOORBELL (R374). -/
  | cqHeadDoorbell (p : HPort) (fn : FnId) (q : QueueId) (v : BarValue)
  /-- COMMAND_FETCH (R375). -/
  | commandFetch (l : CtlId)
  /-- COMMAND_READ_COMPLETION (R376). -/
  | commandReadCompletion (l : CtlId) (cmds : List (BitVec 512))
  /-- REPLY_POLL (R377). -/
  | replyPoll (p : HPort)
  /-- CQ_COALESCE_TIMEOUT (R379). -/
  | cqCoalesceTimeout (p : HPort) (fn : FnId) (q : QueueId)
  /-- MAILBOX_READ (R372). -/
  | mailboxRead (p : HPort) (fn : FnId) (idx : BitVec 16) (sub : BitVec 8) (irq : BarGo)
  /-- MAILBOX_WRITE (R372). -/
  | mailboxWrite (p : HPort) (fn : FnId) (idx : BitVec 16) (sub : BitVec 8) (len : BitVec 9) (irq : BarGo) (data : List Byte)
  /-- SERIALIZER_SLOT (R465). -/
  | serializerSlot
  /-- DICT_WRITE (R480). -/
  | dictWrite (path : Path) (idx : BitVec 16) (sub : BitVec 8) (data : List Byte)
  /-- QP_CREATE (R373). -/
  | qpCreate (path : Path) (record : BitVec 512)
  /-- QP_DELETE (R373). -/
  | qpDelete (path : Path) (record : BitVec 512)
  /-- QP_MODIFY (R373). -/
  | qpModify (path : Path) (record : BitVec 512)
  /-- QP_DELETED (R373). -/
  | qpDeleted (p : HPort) (fn : FnId) (q : QueueId)
  /-- WINDOW_COMMIT (R382). -/
  | windowCommit (path : Path) (p : HPort)
  /-- WINDOW_COMMIT_POINT (R382). -/
  | windowCommitPoint (p : HPort)
  /-- INBOUND_WRITE_TLP (R383). -/
  | inboundWriteTlp (p : HPort) (translated : Bool) (off : Word) (data : List Byte) (ep : Bool)
  /-- INBOUND_READ_TLP (R383). -/
  | inboundReadTlp (p : HPort) (translated : Bool) (off : Word) (len : Nat)
  /-- MSIX_ACK_READ (R404). -/
  | msixAckRead (p : HPort) (v : BarPlace)
  /-- MSIX_TABLE_WRITE (R380). -/
  | msixTableWrite (p : HPort) (fn : FnId) (entry : BarPlace) (addr : Word) (data : BitVec 32) (mask : Bool)
  /-- CONFIG_REQUEST (R368). -/
  | configRequest (l : CtlId) (fn : FnId) (r : CfgReq)
  /-- FLR (R386). -/
  | flr (l : CtlId) (fn : FnId)
  /-- VF_DISABLE (R386). -/
  | vfDisable (l : CtlId)
  /-- D3HOT_ENTRY (R386). -/
  | d3hotEntry (l : CtlId) (fn : FnId)
  /-- D0_RETURN (R387). -/
  | d0Return (l : CtlId) (fn : FnId)
  /-- DRAIN_END (R386). -/
  | drainEnd (l : CtlId) (fn : FnId)
  /-- DL_FLR_EXPIRY (R386). -/
  | dlFlrExpiry (l : CtlId) (fn : FnId)
  /-- ATS_TRANSLATION_COMPLETION (R339). -/
  | atsTranslationCompletion (p : HPort) (fn : FnId) (page : Nat) (pages : Nat) (hostPage : Nat) (r w : Bool)
  /-- ATS_INVALIDATE_REQUEST (R340). -/
  | atsInvalidateRequest (p : HPort) (fn : FnId) (page : Nat) (pages : Nat) (itag : BitVec 5)
  /-- INVALIDATION_COMPLETION (R340). -/
  | invalidationCompletion (p : HPort)
  /-- HOST_READ_COMPLETION (R77). -/
  | hostReadCompletion (e : EngineId) (tag : Nat) (answer : ReadAnswer)
  /-- PERST_ASSERT (R532). -/
  | perstAssert (p : HPort)
  /-- PERST_DEASSERT (R505). -/
  | perstDeassert (p : HPort)
  /-- HOST_LINK_TRAINING_START (R505). -/
  | hostLinkTrainingStart (l : CtlId)
  /-- HOST_LINK_L0 (R505). -/
  | hostLinkL0 (l : CtlId) (rate : BitVec 8) (width : BitVec 8)
  /-- ASPM_L1_IDLE (R390). -/
  | aspmL1Idle (l : CtlId)
  /-- HOST_L1_EXIT (R420). -/
  | hostL1Exit (l : CtlId)
  /-- HOST_LANE_ERROR_WINDOW (R365). -/
  | hostLaneErrorWindow (l : CtlId) (errs : List Nat)
  /-- PCIE_COMPLETION_TIMEOUT (R388). -/
  | pcieCompletionTimeout (l : CtlId) (r : TimedOut)
  /-- ENGINE_NOP (R66). -/
  | engineNop (e : EngineId) (st : EngStep)
  /-- PUT (R69). -/
  | put (e : EngineId) (st : EngStep)
  /-- GET (R73). -/
  | get (e : EngineId) (st : EngStep)
  /-- STAGE (R78). -/
  | stage (e : EngineId) (st : EngStep)
  /-- SCRUB (R76). -/
  | scrub (e : EngineId) (st : EngStep)
  /-- REBUILD (R74). -/
  | rebuild (e : EngineId) (st : EngStep)
  /-- REENCODE (R75). -/
  | reencode (e : EngineId) (st : EngStep)
  /-- SEAL (R66). -/
  | sealSpans (e : EngineId) (st : EngStep)
  /-- VERIFY (R66). -/
  | verify (e : EngineId) (st : EngStep)
  /-- RELEASE (R71). -/
  | release (e : EngineId) (st : EngStep)
  /-- ENGINE_FENCE (R66). -/
  | engineFence (e : EngineId) (st : EngStep)
  /-- DESCRIPTOR_START (R82). -/
  | descriptorStart (e : EngineId)
  /-- STRIPE_START (R69). -/
  | stripeStart (e : EngineId)
  /-- STRIPE_CHECK_DONE (R69). -/
  | stripeCheckDone (e : EngineId) (slot : Fin 4) (bad : List SpanBad)
  /-- STAGING_POOL_SPACE (R79). -/
  | stagingPoolSpace (e : EngineId)
  /-- STAGING_TOKEN_REFILL (R79). -/
  | stagingTokenRefill (e : EngineId)
  /-- INTERLOCK_ENTRY_FREE (R80). -/
  | interlockEntryFree (bank : EngineId) (e : EngineId)
  /-- RELEASE_READBACK_DONE (R71). -/
  | releaseReadbackDone (e : EngineId) (slot : Fin 4) (bad : List SpanBad)
  /-- CONTEXT_LOAD_DONE (R61). -/
  | contextLoadDone (e : EngineId) (c : CtxId)
  /-- CTX_CREATE (R60). -/
  | ctxCreate (path : Path) (stall : BitVec 9) (cls : BitVec 2) (sealsReq : Bool) (forceBuf : Bool)
  /-- CTX_FREE (R60). -/
  | ctxFree (path : Path)
  /-- CTX_UNFENCE_FREE (R60). -/
  | ctxUnfenceFree (path : Path)
  /-- ENGINE_NO_PROGRESS (R84). -/
  | engineNoProgress (e : EngineId)
  /-- CONTEXT_SRAM_UE (R84). -/
  | contextSramUe (e : EngineId) (c : CtxId)
  /-- STAGING_SRAM_UE (R84). -/
  | stagingSramUe (e : EngineId) (slot : Fin 4) (span : Nat)
  /-- ENGINE_SRAM_CE (R84). -/
  | engineSramCe (e : EngineId)
  /-- CONTEXT_RECORD_LANDED (R85). -/
  | contextRecordLanded (c : CtxId)
  /-- SIGNAL_DETECT (R93). -/
  | signalDetect (l : LinkId)
  /-- TRAINING_FRAME (R95). -/
  | trainingFrame (l : LinkId) (lane : Fin 2) (ctl sts : FrameField)
  /-- TRAINING_TIMEOUT (R93). -/
  | trainingTimeout (l : LinkId) (culprit : Option (Fin 2))
  /-- MARKER_FLIT (R99). -/
  | markerFlit (l : LinkId) (f : Flit)
  /-- FLIT_SLOT (R112). -/
  | flitSlot (l : LinkId)
  /-- PAYLOAD_FLIT (R106). -/
  | payloadFlit (l : LinkId) (f : Flit)
  /-- NULL_FLIT (R106). -/
  | nullFlit (l : LinkId) (f : Flit)
  /-- NAK_FLIT (R107). -/
  | nakFlit (l : LinkId) (f : Flit)
  /-- NAK_REPEAT_TIMEOUT (R107). -/
  | nakRepeatTimeout (l : LinkId)
  /-- REPLAY_TIMEOUT (R108). -/
  | replayTimeout (l : LinkId)
  /-- LINK_HOLD_EXPIRY (R96). -/
  | linkHoldExpiry (l : LinkId)
  /-- PARAM (R113). -/
  | param (l : LinkId) (hdr : BitVec 40) (b : ParamBody)
  /-- PARAM_ACK (R113). -/
  | paramAck (l : LinkId) (hdr : BitVec 40)
  /-- SPARE_READY (R115). -/
  | spareReady (l : LinkId) (hdr : BitVec 40) (lane : BitVec 8) (link : BitVec 8) (spare : BitVec 8)
  /-- SPARE_SWITCH_SUPERFRAME (R115). -/
  | spareSwitchSuperframe (l : LinkId)
  /-- SPARE_READY_TIMEOUT (R115). -/
  | spareReadyTimeout (l : LinkId)
  /-- QUIET_ACK (R114). -/
  | quietAck (l : LinkId) (hdr : BitVec 40)
  /-- FAILOVER_ACK (R117). -/
  | failoverAck (l : LinkId) (hdr : BitVec 40) (failed : BitVec 8)
  /-- RETRAIN_REQ (R96). -/
  | retrainReq (l : LinkId) (hdr : BitVec 40)
  /-- FAILBACK_ACK (R118). -/
  | failbackAck (l : LinkId) (hdr : BitVec 40) (failed : BitVec 8)
  /-- LINK_CTL_REPEAT (R113). -/
  | linkCtlRepeat (l : LinkId)
  /-- SER_WINDOW (R119). -/
  | serWindow (l : LinkId) (corrected : List Nat) (ucw : Nat)
  /-- ACCEPT_IDENTITY (R121). -/
  | acceptIdentity (path : Path) (l : LinkId)
  /-- LINK_FAILBACK (R121). -/
  | linkFailback (path : Path) (l : LinkId)
  /-- FAILBACK_SEND (R118). -/
  | failbackSend (l : LinkId)
  /-- FORCE_RETRAIN (R121). -/
  | forceRetrain (path : Path) (l : LinkId)
  /-- LINK_REENABLE (R121). -/
  | linkReenable (path : Path) (l : LinkId)
  /-- LINK_DISABLE (R120). -/
  | linkDisable (l : LinkId)
  /-- PORT_COMMAND_ISSUE (R129). -/
  | portCommandIssue (p : PortId)
  /-- DL_DRIVE_EXPIRY (R129). -/
  | dlDriveExpiry (p : PortId) (tag : BitVec 8)
  /-- ABORT_TIMEOUT (R129). -/
  | abortTimeout (p : PortId) (tag : BitVec 8)
  /-- STATUS_MSG (R127). -/
  | statusMsg (l : LinkId) (p : PortId) (tag : BitVec 8) (code : BitVec 8) (blk : BitVec 40) (span : Fin 16)
  /-- SEAL_MSG (R125). -/
  | sealMsg (l : LinkId) (p : PortId) (tag : BitVec 8) (blk : Fin 16) (poison : BitVec 16) (block : BitVec 40) (seals : List Word)
  /-- DATA_MSG (R125). -/
  | dataMsg (l : LinkId) (p : PortId) (tag : BitVec 8) (blk : Fin 16) (data : List Byte)
  /-- IDENT_DATA (R130). -/
  | identData (l : LinkId) (p : PortId) (tag : BitVec 8) (present : Bool) (serial : BitVec 128) (cap : BitVec 40)
  /-- POWER_DONE (R132). -/
  | powerDone (l : LinkId) (req : BitVec 8) (ok failed : BitVec 32)
  /-- PORT_CHANGE (R130). -/
  | portChange (l : LinkId) (p : PortId) (present : Bool)
  /-- BRIDGE_ALERT (R125). -/
  | bridgeAlert (l : LinkId) (code : BitVec 16) (value : BitVec 64)
  /-- UNKNOWN_MESSAGE (R125). -/
  | unknownMessage (l : LinkId) (ty : BitVec 8) (len : Nat)
  /-- ACCEPT_DRIVE (R138). -/
  | acceptDrive (path : Path) (p : PortId)
  /-- RETIRE_PORT (R138). -/
  | retirePort (path : Path) (p : PortId)
  /-- REENABLE_PORT (R138). -/
  | reenablePort (path : Path) (p : PortId)
  /-- PORT_SHELF_WRITE (R138). -/
  | portShelfWrite (path : Path) (p : PortId) (h : BitVec 8)
  /-- PORT_SHELF_MOVE (R138). -/
  | portShelfMove (p : PortId)
  /-- SHELF_WAKE_REQUEST (R132). -/
  | shelfWakeRequest (path : Path) (h : ShelfId)
  /-- SHELF_SLEEP_REQUEST (R132). -/
  | shelfSleepRequest (path : Path) (h : ShelfId)
  /-- SHELF_WAKE_ADMIT (R132). -/
  | shelfWakeAdmit
  /-- WAKE_LIMIT_EXPIRY (R130). -/
  | wakeLimitExpiry (h : ShelfId) (p : Option PortId)
  /-- WINDOW_GUARD_REACHED (R134). -/
  | windowGuardReached (h : ShelfId)
  /-- DL_WINDOW_EXPIRY (R134). -/
  | dlWindowExpiry (h : ShelfId)
  /-- POWER_DONE_TIMEOUT (R134). -/
  | powerDoneTimeout (h : ShelfId)
  /-- WINDOW_LEN_WRITE (R134). -/
  | windowLenWrite (path : Path) (h : ShelfId) (v : BitVec 32) (elapsed : Nat)
  /-- RING_ARBITRATION (R155). -/
  | ringArbitration (seg : BitVec 11) (cycle : RingTick) (inj : List LocalSrc)
  /-- PRIORITY_AGING (R154). -/
  | priorityAging (seg : BitVec 11) (k : HeadKind)
  /-- HEAD_PROMOTION (R156). -/
  | headPromotion (seg : BitVec 11) (k : HeadKind)
  /-- FLIT_UE_RETRY (R149). -/
  | flitUeRetry (seg : FlitError)
  /-- DETOUR_INSTALLED (R163). -/
  | detourInstalled (seg : BitVec 11)
  /-- RING_GROUPS_APPLY (R158). -/
  | ringGroupsApply (n : StallId)
  /-- RING_GROUPS_WRITE (R158). -/
  | ringGroupsWrite (path : Path) (n : StallId) (v : BitVec 32)
  /-- SEGMENT_FAIL_TEST (R165). -/
  | segmentFailTest (path : Path) (code : BitVec 16)
  /-- PACKET_TO_RETIRED_STOP (R447). -/
  | packetToRetiredStop (k : LostPacket)
  /-- INTERRUPT_TAKE (R401). -/
  | interruptTake (c : CoreId)
  /-- STORE_BUFFER_WRITE (R180). -/
  | storeBufferWrite (c : CoreId)
  /-- PREFETCH_ISSUE (R186). -/
  | prefetchIssue (c : CoreId) (pa : BitVec 52) (l2 : Bool)
  /-- CORE_MODE_APPLY (R188). -/
  | coreModeApply (c : CoreId)
  /-- CORE_MODE_WRITE (R188). -/
  | coreModeWrite (path : Path) (n : StallId) (v : BitVec 32)
  /-- WALK_ENTER (R193). -/
  | walkEnter (c : CoreId)
  /-- WALK_EXIT (R193). -/
  | walkExit (c : CoreId)
  /-- NOP (R227). -/
  | nop (a : At)
  /-- WFI (R227). -/
  | wfi (a : At)
  /-- BRK (R214). -/
  | brk (a : At)
  /-- SVC (R213). -/
  | svc (a : At) (v : BitVec 8)
  /-- ERET (R220). -/
  | eret (a : At)
  /-- FENCE (R225). -/
  | fence (a : At)
  /-- FENCE_SE (R225). -/
  | fenceSe (a : At)
  /-- ISYNC (R225). -/
  | isync (a : At)
  /-- MOV (R206). -/
  | mov (a : At) (sz : Sz) (d s : Opd)
  /-- SXT (R227). -/
  | sxt (a : At) (sz : Sz) (d s : Opd)
  /-- XCHG (R227). -/
  | xchg (a : At) (d s : Opd)
  /-- ADD (R207). -/
  | add (a : At) (sz : Sz) (d s : Opd)
  /-- SUB (R207). -/
  | sub (a : At) (sz : Sz) (d s : Opd)
  /-- AND (R207). -/
  | and (a : At) (sz : Sz) (d s : Opd)
  /-- OR (R227). -/
  | or (a : At) (sz : Sz) (d s : Opd)
  /-- XOR (R227). -/
  | xor (a : At) (sz : Sz) (d s : Opd)
  /-- CMP (R227). -/
  | cmp (a : At) (sz : Sz) (d s : Opd)
  /-- TST (R227). -/
  | tst (a : At) (sz : Sz) (d s : Opd)
  /-- ADC (R227). -/
  | adc (a : At) (sz : Sz) (d s : Opd)
  /-- SHL (R227). -/
  | shl (a : At) (sz : Sz) (d s : Opd)
  /-- SHR (R227). -/
  | shr (a : At) (sz : Sz) (d s : Opd)
  /-- SAR (R227). -/
  | sar (a : At) (sz : Sz) (d s : Opd)
  /-- ROL (R227). -/
  | rol (a : At) (sz : Sz) (d s : Opd)
  /-- MUL (R227). -/
  | mul (a : At) (sz : Sz) (d s : Opd)
  /-- MULH (R227). -/
  | mulh (a : At) (sz : Sz) (d s : Opd)
  /-- DIV (R227). -/
  | div (a : At) (sz : Sz) (d s : Opd)
  /-- DIVU (R227). -/
  | divu (a : At) (sz : Sz) (d s : Opd)
  /-- NEG (R227). -/
  | neg (a : At) (sz : Sz) (d : Opd)
  /-- NOT (R227). -/
  | not (a : At) (sz : Sz) (d : Opd)
  /-- SBB (R227). -/
  | sbb (a : At) (sz : Sz) (d s : Opd)
  /-- LEA (R227). -/
  | lea (a : At) (d s : Opd)
  /-- LEAC (R227). -/
  | leac (a : At) (d s : Opd)
  /-- PUSH (R227). -/
  | push (a : At) (s : Opd)
  /-- POP (R227). -/
  | pop (a : At) (d : Opd)
  /-- BCC (R228). -/
  | bcc (a : At) (cond : BitVec 4) (hint : Bool) (disp : Disp)
  /-- BR (R227). -/
  | br (a : At) (disp : Disp)
  /-- CALL (R210). -/
  | call (a : At) (disp : BitVec 32)
  /-- CALLI (R210). -/
  | calli (a : At) (s : Opd)
  /-- BRI (R210). -/
  | bri (a : At) (s : Opd)
  /-- RET (R210). -/
  | ret (a : At)
  /-- ENTER (R227). -/
  | enter (a : At) (n : BitVec 16)
  /-- LEAVE (R227). -/
  | leave (a : At) (n : BitVec 16)
  /-- TAGR (R227). -/
  | tagr (a : At) (d s : Opd)
  /-- TTEST (R227). -/
  | ttest (a : At) (s : Opd) (t : BitVec 8)
  /-- PTRINT (R211). -/
  | ptrint (a : At) (d s : Opd)
  /-- MKPTR (R211). -/
  | mkptr (a : At) (d s : Opd)
  /-- MKCODE (R211). -/
  | mkcode (a : At) (d s : Opd)
  /-- TAGSET (R211). -/
  | tagset (a : At) (d : Opd) (t : BitVec 8)
  /-- KILL (R211). -/
  | kill (a : At) (d : Opd)
  /-- MFCR (R218). -/
  | mfcr (a : At) (d : Opd) (n : BitVec 8)
  /-- MTCR (R218). -/
  | mtcr (a : At) (n : BitVec 8) (s : Opd)
  /-- IMOVF (R227). -/
  | imovf (a : At) (d s : Opd)
  /-- FMOVI (R227). -/
  | fmovi (a : At) (d s : Opd)
  /-- MFSW (R227). -/
  | mfsw (a : At) (d : Opd)
  /-- MTSW (R198). -/
  | mtsw (a : At) (s : Opd)
  /-- FADD (R227). -/
  | fadd (a : At) (sz : FSz) (d s : Opd)
  /-- FSUB (R227). -/
  | fsub (a : At) (sz : FSz) (d s : Opd)
  /-- FMUL (R227). -/
  | fmul (a : At) (sz : FSz) (d s : Opd)
  /-- FDIV (R227). -/
  | fdiv (a : At) (sz : FSz) (d s : Opd)
  /-- FSQRT (R227). -/
  | fsqrt (a : At) (sz : FSz) (d s : Opd)
  /-- FMA (R227). -/
  | fma (a : At) (sz : FSz) (d s t : Opd)
  /-- FCMP (R227). -/
  | fcmp (a : At) (sz : FSz) (d s : Opd)
  /-- FMOV (R227). -/
  | fmov (a : At) (sz : FSz) (d s : Opd)
  /-- CVTIF (R227). -/
  | cvtif (a : At) (d s : Opd)
  /-- CVTFI (R227). -/
  | cvtfi (a : At) (d s : Opd)
  /-- CVTSD (R227). -/
  | cvtsd (a : At) (d s : Opd)
  /-- CVTDS (R227). -/
  | cvtds (a : At) (d s : Opd)
  /-- CCLEAN (R279). -/
  | cclean (a : At) (m : Opd)
  /-- CCLINV (R279). -/
  | cclinv (a : At) (m : Opd)
  /-- CDISCARD (R281). -/
  | cdiscard (a : At) (m : Opd)
  /-- CZERO (R283). -/
  | czero (a : At) (m : Opd)
  /-- CCLEAR (R283). -/
  | cclear (a : At) (m : Opd)
  /-- CRANGE_CLEAN (R280). -/
  | crangeClean (a : At)
  /-- CRANGE_CLEAN_INVALIDATE (R280). -/
  | crangeCleanInvalidate (a : At)
  /-- CRANGE_DISCARD (R280). -/
  | crangeDiscard (a : At)
  /-- TLBI_VA (R333). -/
  | tlbiVa (a : At) (m : Opd)
  /-- TLBI_VA_LOCAL (R333). -/
  | tlbiVaLocal (a : At) (m : Opd)
  /-- TLBI_ASID (R333). -/
  | tlbiAsid (a : At) (s : Opd)
  /-- TLBI_ASID_LOCAL (R333). -/
  | tlbiAsidLocal (a : At) (s : Opd)
  /-- TLBI_STALL (R333). -/
  | tlbiStall (a : At)
  /-- TLBI_STALL_LOCAL (R333). -/
  | tlbiStallLocal (a : At)
  /-- TLBI_ALL (R333). -/
  | tlbiAll (a : At)
  /-- TLBI_ALL_LOCAL (R333). -/
  | tlbiAllLocal (a : At)
  /-- TLBI_STALLN (R333). -/
  | tlbiStalln (a : At) (s : Opd)
  /-- TLBI_STALLN_LOCAL (R333). -/
  | tlbiStallnLocal (a : At) (s : Opd)
  /-- IOTLBI (R333). -/
  | iotlbi (a : At) (s : Opd)
  /-- IOTLBI_VA (R333). -/
  | iotlbiVa (a : At) (m s : Opd)
  /-- TLBI_COMPLETE (R334). -/
  | tlbiComplete (c : CoreId)
  /-- BCOPY (R230). -/
  | bcopy (a : At) (ctl : BitVec 8)
  /-- BFILL (R230). -/
  | bfill (a : At) (ctl : BitVec 8)
  /-- BCMP (R230). -/
  | bcmp (a : At) (ctl : BitVec 8)
  /-- BFIND (R230). -/
  | bfind (a : At) (ctl : BitVec 8)
  /-- VLD (R246). -/
  | vld (a : At) (d m : Opd)
  /-- VST (R246). -/
  | vst (a : At) (m s : Opd)
  /-- VGATHER (R248). -/
  | vgather (a : At) (d b i : Opd) (scale : BitVec 8)
  /-- VGATHER_FF (R250). -/
  | vgatherFf (a : At) (d b i : Opd) (scale : BitVec 8)
  /-- VSCATTER (R249). -/
  | vscatter (a : At) (b i s : Opd) (scale : BitVec 8)
  /-- VADD (R243). -/
  | vadd (a : At) (d s : Opd)
  /-- VSUB (R243). -/
  | vsub (a : At) (d s : Opd)
  /-- VAND (R243). -/
  | vand (a : At) (d s : Opd)
  /-- VOR (R243). -/
  | vor (a : At) (d s : Opd)
  /-- VXOR (R243). -/
  | vxor (a : At) (d s : Opd)
  /-- VMUL (R243). -/
  | vmul (a : At) (d s : Opd)
  /-- VSHL (R243). -/
  | vshl (a : At) (d s : Opd)
  /-- VSHR (R243). -/
  | vshr (a : At) (d s : Opd)
  /-- VCMPEQ (R244). -/
  | vcmpeq (a : At) (v s : Opd) (k : BitVec 8)
  /-- VCMPLT (R244). -/
  | vcmplt (a : At) (v s : Opd) (k : BitVec 8)
  /-- VCMPLTU (R244). -/
  | vcmpltu (a : At) (v s : Opd) (k : BitVec 8)
  /-- VFADD (R243). -/
  | vfadd (a : At) (d s : Opd)
  /-- VFSUB (R243). -/
  | vfsub (a : At) (d s : Opd)
  /-- VFMUL (R243). -/
  | vfmul (a : At) (d s : Opd)
  /-- VFMA (R243). -/
  | vfma (a : At) (d v s : Opd)
  /-- VFCMPLT (R243). -/
  | vfcmplt (a : At) (v s : Opd) (k : BitVec 8)
  /-- VGFMUL (R251). -/
  | vgfmul (a : At) (d s : Opd)
  /-- VGFMAC (R251). -/
  | vgfmac (a : At) (d v c : Opd)
  /-- VGFINV (R251). -/
  | vgfinv (a : At) (d v : Opd)
  /-- VPERM (R243). -/
  | vperm (a : At) (d v i : Opd)
  /-- VBCAST (R243). -/
  | vbcast (a : At) (d s : Opd)
  /-- VSETVL (R243). -/
  | vsetvl (a : At) (d s : Opd)
  /-- MTK (R243). -/
  | mtk (a : At) (k : BitVec 8) (s : Opd)
  /-- MFK (R243). -/
  | mfk (a : At) (d : Opd) (k : BitVec 8)
  /-- MTVS (R240). -/
  | mtvs (a : At) (n : BitVec 8) (s : Opd)
  /-- MFVS (R243). -/
  | mfvs (a : At) (d : Opd) (n : BitVec 8)
  /-- XADD (R236). -/
  | xadd (a : At) (dbl : Bool) (m s : Opd)
  /-- XCHGA (R236). -/
  | xchga (a : At) (dbl : Bool) (m s : Opd)
  /-- CAS (R236). -/
  | cas (a : At) (dbl : Bool) (m s : Opd)
  /-- AADD (R236). -/
  | aadd (a : At) (dbl : Bool) (m s : Opd)
  /-- AAND (R236). -/
  | aand (a : At) (dbl : Bool) (m s : Opd)
  /-- AOR (R236). -/
  | aor (a : At) (dbl : Bool) (m s : Opd)
  /-- AXOR (R236). -/
  | axor (a : At) (dbl : Bool) (m s : Opd)
  /-- IC_ACK (R401). -/
  | icAck (a : At) (d : Opd)
  /-- IC_EOI (R403). -/
  | icEoi (a : At) (s : Opd)
  /-- IC_SETPEND (R399). -/
  | icSetpend (a : At) (s : Opd)
  /-- IC_MODE_WRITE (R403). -/
  | icModeWrite (a : At) (s : Opd)
  /-- TTBR_WRITE (R329). -/
  | ttbrWrite (a : At) (s : Opd)
  /-- TCR_WRITE (R331). -/
  | tcrWrite (a : At) (s : Opd)
  /-- GAIT_REQ_WRITE (R423). -/
  | gaitReqWrite (a : At) (s : Opd)
  /-- PMSTATUS_WRITE (R516). -/
  | pmstatusWrite (a : At) (s : Opd)
  /-- SAMPLE_INFO_WRITE (R516). -/
  | sampleInfoWrite (a : At) (s : Opd)
  /-- PMFREEZE_WRITE (R516). -/
  | pmfreezeWrite (a : At) (s : Opd)
  /-- REIN_NOP (R254). -/
  | reinNop (r : Rein)
  /-- REIN_GETA (R254). -/
  | reinGeta (r : Rein)
  /-- REIN_GETX (R254). -/
  | reinGetx (r : Rein)
  /-- REIN_GETY (R254). -/
  | reinGety (r : Rein)
  /-- REIN_PUTA (R254). -/
  | reinPuta (r : Rein)
  /-- REIN_PUTX (R254). -/
  | reinPutx (r : Rein)
  /-- REIN_PUTY (R254). -/
  | reinPuty (r : Rein)
  /-- REIN_GETB (R254). -/
  | reinGetb (r : Rein)
  /-- REIN_PUTB (R254). -/
  | reinPutb (r : Rein)
  /-- REIN_GETW (R254). -/
  | reinGetw (r : Rein)
  /-- REIN_PUTW (R254). -/
  | reinPutw (r : Rein)
  /-- REIN_ADD (R254). -/
  | reinAdd (r : Rein)
  /-- REIN_SUB (R254). -/
  | reinSub (r : Rein)
  /-- REIN_AND (R254). -/
  | reinAnd (r : Rein)
  /-- REIN_OR (R254). -/
  | reinOr (r : Rein)
  /-- REIN_XOR (R254). -/
  | reinXor (r : Rein)
  /-- REIN_CMP (R254). -/
  | reinCmp (r : Rein)
  /-- REIN_SHL (R254). -/
  | reinShl (r : Rein)
  /-- REIN_SHR (R254). -/
  | reinShr (r : Rein)
  /-- REIN_STEPX (R254). -/
  | reinStepx (r : Rein)
  /-- REIN_STEPY (R254). -/
  | reinStepy (r : Rein)
  /-- REIN_STEPSP (R254). -/
  | reinStepsp (r : Rein)
  /-- REIN_COPY (R254). -/
  | reinCopy (r : Rein)
  /-- REIN_BCC (R256). -/
  | reinBcc (r : Rein)
  /-- REIN_CALLD (R254). -/
  | reinCalld (r : Rein)
  /-- REIN_JUMPA (R254). -/
  | reinJumpa (r : Rein)
  /-- REIN_RETD (R254). -/
  | reinRetd (r : Rein)
  /-- REIN_MFCR (R254). -/
  | reinMfcr (r : Rein)
  /-- REIN_MTCR (R254). -/
  | reinMtcr (r : Rein)
  /-- REIN_SVC (R254). -/
  | reinSvc (r : Rein)
  /-- REIN_ERET (R257). -/
  | reinEret (r : Rein)
  /-- REIN_WFI (R254). -/
  | reinWfi (r : Rein)
  /-- REIN_FENCE (R254). -/
  | reinFence (r : Rein)
  /-- REIN_BRK (R254). -/
  | reinBrk (r : Rein)
  /-- HOME_LOOKUP (R269). -/
  | homeLookup (sl : HomeTick)
  /-- RD_SHR (R268). -/
  | rdShr (r : Req)
  /-- RD_OWN (R268). -/
  | rdOwn (r : Req)
  /-- UPGRADE (R268). -/
  | upgrade (r : Req)
  /-- RD_NI (R274). -/
  | rdNi (r : Req)
  /-- RD_UC (R268). -/
  | rdUc (r : Req)
  /-- WR_UC (R268). -/
  | wrUc (r : Req) (k : Fin 4) (mask : BitVec 64) (data : BitVec 512) (tags : List Tag)
  /-- EVICT (R268). -/
  | evict (r : Req) (dirty : Bool)
  /-- DMA_RD (R268). -/
  | dmaRd (r : Req) (subs : BitVec 4)
  /-- DMA_WR (R268). -/
  | dmaWr (r : Req) (k : Fin 4) (mask : BitVec 64) (data : BitVec 512) (tags : List Tag)
  /-- SPAN_WR (R47). -/
  | spanWr (r : Req) (data : List Word) (tags : List Tag) (sealW : Word)
  /-- ZERO (R283). -/
  | zero (r : Req)
  /-- CLEAR (R283). -/
  | clear (r : Req)
  /-- M_CLEAN (R279). -/
  | mClean (r : Req)
  /-- M_CLEANINV (R279). -/
  | mCleaninv (r : Req)
  /-- M_DISCARD (R281). -/
  | mDiscard (r : Req)
  /-- ATOMIC (R275). -/
  | atomic (r : Req) (op : AtomOp) (dbl : Bool) (v : TWord) (cmp : TWord)
  /-- ATOMIC_ANY (R275). -/
  | atomicAny (r : Req) (op : AtomOp) (dbl : Bool) (v : TWord) (cmp : TWord)
  /-- SNP_SHR (R266). -/
  | snpShr (tile : SliceId) (pa : BitVec 52)
  /-- SNP_INV (R266). -/
  | snpInv (tile : SliceId) (pa : BitVec 52)
  /-- SNP_CLEAN (R266). -/
  | snpClean (tile : SliceId) (pa : BitVec 52)
  /-- GNT (R268). -/
  | gnt (stop : BitVec 8) (pa : BitVec 52)
  /-- RETRY (R274). -/
  | retry (tile : SliceId) (pa : BitVec 52)
  /-- WB_PULL (R272). -/
  | wbPull (tile : SliceId) (pa : BitVec 52)
  /-- EVICT_ACK (R272). -/
  | evictAck (tile : SliceId) (pa : BitVec 52)
  /-- DONE (R268). -/
  | done (stop : BitVec 8) (pa : BitVec 52)
  /-- ACK (R268). -/
  | ack (tile : SliceId) (pa : BitVec 52)
  /-- GONE (R270). -/
  | gone (tile : SliceId) (pa : BitVec 52)
  /-- WB_DATA (R268). -/
  | wbData (tile : SliceId) (pa : BitVec 52)
  /-- PROTOCOL_ERROR (R265). -/
  | protocolError (sl : SliceId) (op : BitVec 8)
  /-- LLC_WAYS_WRITE (R286). -/
  | llcWaysWrite (path : Path) (n : StallId) (v : BitVec 16)
  /-- WAY_LOCK_WRITE (R278). -/
  | wayLockWrite (path : Path) (w : Fin 16) (v : BitVec 32)
  /-- MC_REQUEST (R301). -/
  | mcRequest (c : ChanId) (k : McKind) (pa : BitVec 52) (stall : StallId) (pri : BitVec 2) (src : McSource)
  /-- DRAM_COMMAND_SLOT (R310). -/
  | dramCommandSlot (c : ChanId) (aged : Nat)
  /-- FIXED_SLOT (R311). -/
  | fixedSlot (c : ChanId) (slot : Fin 32) (aged : Nat)
  /-- DRAM_READ_DONE (R295). -/
  | dramReadDone (c : ChanId) (data : List Ecc) (tags seals : Ecc)
  /-- SPPR_COMPLETE (R306). -/
  | spprComplete (c : ChanId)
  /-- BANK_CLOSE_TIMEOUT (R294). -/
  | bankCloseTimeout (c : ChanId) (bank : Nat)
  /-- REFRESH_DUE (R303). -/
  | refreshDue (c : ChanId) (rank : Fin 8)
  /-- DL_REFRESH_EXPIRY (R303). -/
  | dlRefreshExpiry (c : ChanId) (rank : Fin 8)
  /-- PATROL_STEP (R304). -/
  | patrolStep (c : ChanId) (found : SectorRead)
  /-- DIMM_SENSOR_READ (R291). -/
  | dimmSensorRead (k : Fin 8) (dimm : Fin 4) (temps : List Int)
  /-- PMIC_STATUS_READ (R291). -/
  | pmicStatusRead (k : Fin 8) (faults : BitVec 4)
  /-- RANK_COPY_STEP (R307). -/
  | rankCopyStep (c : ChanId) (found : Ecc)
  /-- CHANNEL_COPY_STEP (R308). -/
  | channelCopyStep (c : ChanId) (found : SectorRead)
  /-- RETIRE_CHANNEL (R314). -/
  | retireChannel (path : Path) (c : ChanId)
  /-- SPARE_RANK_REQUEST (R314). -/
  | spareRankRequest (path : Path) (c : ChanId) (rank : Fin 8)
  /-- MEM_SLOTS_WRITE (R312). -/
  | memSlotsWrite (path : Path) (n : StallId) (v : BitVec 32)
  /-- MEM_SLOTS_APPLY (R312). -/
  | memSlotsApply (n : StallId)
  /-- GRANT_WRITE (R336). -/
  | grantWrite (path : Path) (n : StallId) (k : Fin 16) (v : Word)
  /-- IO_ROOT_WRITE (R336). -/
  | ioRootWrite (path : Path) (n : StallId) (v : Word)
  /-- GRANT_WRITE_COMPLETE (R336). -/
  | grantWriteComplete (n : StallId)
  /-- STALL_CREATE (R348). -/
  | stallCreate (path : Path) (n : StallId)
  /-- STALL_TEARDOWN (R351). -/
  | stallTeardown (path : Path) (n : StallId)
  /-- STALL_LIVE (R347). -/
  | stallLive (n : StallId)
  /-- TEARDOWN_PROGRESS (R351). -/
  | teardownProgress (n : StallId)
  /-- CORES_WRITE (R350). -/
  | coresWrite (path : Path) (n : StallId) (mask : BitVec 128)
  /-- SHARED_CORES_WRITE (R350). -/
  | sharedCoresWrite (path : Path) (n : StallId) (mask : BitVec 128)
  /-- VF_BIND_WRITE (R350). -/
  | vfBindWrite (path : Path) (n : StallId) (v : BitVec 16)
  /-- STRICT_WRITE (R358). -/
  | strictWrite (path : Path) (n : StallId) (b : Bool)
  /-- CORE_REMOVAL_TIMEOUT (R350). -/
  | coreRemovalTimeout (c : CoreId)
  /-- SLICE_END (R354). -/
  | sliceEnd (c : CoreId)
  /-- STRICT_WAY_CLEAN_DONE (R359). -/
  | strictWayCleanDone (n : StallId)
  /-- SOURCE_COALESCE_TIMEOUT (R397). -/
  | sourceCoalesceTimeout (src : SourceId)
  /-- DL_COALESCE_EXPIRY (R398). -/
  | dlCoalesceExpiry (src : SourceId)
  /-- SOURCE_CONFIG_WRITE (R395). -/
  | sourceConfigWrite (path : Path) (w : Word)
  /-- IDLE_ENTRY_TIMEOUT (R414). -/
  | idleEntryTimeout
  /-- SLEEP_ENTRY_TIMEOUT (R416). -/
  | sleepEntryTimeout
  /-- DEEP_ENTRY_TIMEOUT (R416). -/
  | deepEntryTimeout
  /-- QUIET_ACK_TIMEOUT (R415). -/
  | quietAckTimeout (l : LinkId)
  /-- POWER_REQUEST_WAKE (R430). -/
  | powerRequestWake (path : Path)
  /-- POWER_REQUEST_OFF (R416). -/
  | powerRequestOff (path : Path)
  /-- WAKE_N_FALL (R421). -/
  | wakeNFall
  /-- WAKE_TIMER_EXPIRY (R421). -/
  | wakeTimerExpiry
  /-- HALTER_ADDRESS_MATCH (R476). -/
  | halterAddressMatch (addr : BitVec 7) (cmd : BitVec 8)
  /-- HALTER_HOLD_TIMEOUT (R476). -/
  | halterHoldTimeout
  /-- DOMAIN_WAKE_DONE (R418). -/
  | domainWakeDone (d : Domain)
  /-- DEEP_EXIT_DONE (R418). -/
  | deepExitDone
  /-- DL_WAKE_EXPIRY (R419). -/
  | dlWakeExpiry (d : Domain)
  /-- GAIT_GRANT_EVAL (R424). -/
  | gaitGrantEval
  /-- GAIT_VOLTAGE_RAMPED (R425). -/
  | gaitVoltageRamped (c : CoreId)
  /-- POWER_THERMAL_SAMPLE (R426). -/
  | powerThermalSample (watts : Nat) (temps : List Int)
  /-- DEMOTION_LIFT (R426). -/
  | demotionLift (d : Demotion)
  /-- DROOP_LEVEL1 (R427). -/
  | droopLevel1 (die : Fin 2)
  /-- CLOCK_STRETCH_END (R427). -/
  | clockStretchEnd (die : Fin 2)
  /-- DROOP_LEVEL3 (R427). -/
  | droopLevel3
  /-- PWRFAIL_ASSERT (R428). -/
  | pwrfailAssert
  /-- FLUSH_SET_WRITTEN (R428). -/
  | flushSetWritten
  /-- DL_FLUSH_EXPIRY (R428). -/
  | dlFlushExpiry
  /-- PWRFAIL_DEASSERT_STABLE (R428). -/
  | pwrfailDeassertStable
  /-- BROWN_OUT (R411). -/
  | brownOut
  /-- PHASE_FAULT (R410). -/
  | phaseFault (r : Regulator)
  /-- RAIL_OUT_OF_TOLERANCE (R538). -/
  | railOutOfTolerance (r : Rail)
  /-- FAULT_REPORT (R434). -/
  | faultReport (r : Report)
  /-- LOG_SAVE (R441). -/
  | logSave
  /-- SUBSTITUTE_REQUEST (R444). -/
  | substituteRequest (path : Path) (k : CoreId)
  /-- SUBSTITUTION_STEP_DONE (R444). -/
  | substitutionStepDone (st : SubstStep)
  /-- DL_SUBST_EXPIRY (R452). -/
  | dlSubstExpiry
  /-- REHOME_ENTRY_DONE (R446). -/
  | rehomeEntryDone (unreadable : List (BitVec 52))
  /-- REPAIR_QUEUE_ADVANCE (R450). -/
  | repairQueueAdvance (action : BitVec 8)
  /-- GROOM_MISCOMPARE (R458). -/
  | groomMiscompare (g : PairId)
  /-- DL_GROOM_EXPIRY (R460). -/
  | dlGroomExpiry
  /-- STB_WDOG_WRITE (R460). -/
  | stbWdogWrite
  /-- GROOM_RETEST (R448). -/
  | groomRetest (g : PairId) (pass : Bool)
  /-- STANDBY_SELFTEST (R459). -/
  | standbySelftest (pass : Bool)
  /-- WALK_RECOVERY_START (R449). -/
  | walkRecoveryStart (path : Path)
  /-- WALK_RECOVERY_END (R449). -/
  | walkRecoveryEnd (path : Path)
  /-- WALK_RECOVERY_TIMEOUT (R449). -/
  | walkRecoveryTimeout
  /-- CAN_SEGMENT (R470). -/
  | canSegment (id : BitVec 29) (data : List Byte) (brs : Bool)
  /-- SEGMENT_TIMEOUT (R470). -/
  | segmentTimeout (src : BitVec 7) (tid : BitVec 6)
  /-- CAN_BUS_OFF (R468). -/
  | canBusOff
  /-- WEALAR_READ (R471). -/
  | wealarRead (h : WealarHdr) (idx : BitVec 16) (sub : BitVec 8)
  /-- WEALAR_WRITE (R471). -/
  | wealarWrite (h : WealarHdr) (idx : BitVec 16) (sub : BitVec 8) (data : List Byte)
  /-- WEALAR_IDENTIFY (R471). -/
  | wealarIdentify (h : WealarHdr)
  /-- WEALAR_WAKE (R471). -/
  | wealarWake (h : WealarHdr)
  /-- WEALAR_ABORT (R471). -/
  | wealarAbort (h : WealarHdr) (tid : BitVec 6)
  /-- HEARTBEAT (R473). -/
  | heartbeat
  /-- HALTER_BLOCK_WRITE (R475). -/
  | halterBlockWrite (svc : BitVec 8) (tid : BitVec 8) (body : List Byte) (pecOk : Bool)
  /-- HALTER_BLOCK_READ (R475). -/
  | halterBlockRead
  /-- HALTER_READ_BYTE (R475). -/
  | halterReadByte
  /-- SADDLEBAG_STORE (R467). -/
  | saddlebagStore
  /-- RESTORE_CANCEL (R494). -/
  | restoreCancel (path : Path)
  /-- RESTORE_CONFIG (R494). -/
  | restoreConfig (path : Path)
  /-- RESTORE_ALL (R494). -/
  | restoreAll (path : Path)
  /-- STB_RESET_END (R496). -/
  | stbResetEnd (patchOff sbDefault mfg : Bool)
  /-- ROM_SELFTEST_PASS (R496). -/
  | romSelftestPass (g : PairId)
  /-- LOAD_DONE (R498). -/
  | loadDone (patch : PatchLoad)
  /-- RAILS_STABLE (R496). -/
  | railsStable
  /-- RAILS_TIMEOUT (R507). -/
  | railsTimeout
  /-- CALIBRATION_DONE (R500). -/
  | calibrationDone (failed : List CalUnit)
  /-- MAPS_DONE (R501). -/
  | mapsDone (failedTiles : List SliceId)
  /-- COLD_SOAK_ADJUST (R502). -/
  | coldSoakAdjust (temps : List Int)
  /-- SOAK_LIMIT_EXPIRY (R502). -/
  | soakLimitExpiry
  /-- DRAM_TRAINING_DONE (R503). -/
  | dramTrainingDone (spd : List DimmSpd) (failed : List ChanId) (failedRanks : List (ChanId × Fin 8))
  /-- TACK_ZERO_DONE (R504). -/
  | tackZeroDone
  /-- UNITS_READY (R504). -/
  | unitsReady (ms : BitVec 32)
  /-- COUNTER_OVERFLOW (R515). -/
  | counterOverflow (block : Nat) (counter : Fin 8) (pc : BitVec 47)
  /-- FREEZE_WRITE (R511). -/
  | freezeWrite (path : Path) (b : Bool)
  /-- COUNTER_STATUS_WRITE (R511). -/
  | counterStatusWrite (path : Path) (block : Nat) (mask : BitVec 8)
  /-- TAP_OPEN_WRITE (R520). -/
  | tapOpenWrite (path : Path) (b : Bool)
  /-- IDCODE (R519). -/
  | idcode
  /-- SAMPLE_PRELOAD (R519). -/
  | samplePreload (shift : Option (BitVec 1146))
  /-- EXTEST (R520). -/
  | extest (shift : Option (BitVec 1146))
  /-- CLAMP (R520). -/
  | clamp
  /-- HIGHZ (R520). -/
  | highz
  /-- DBG_STATUS (R519). -/
  | dbgStatus
  /-- DBG_OD (R519). -/
  | dbgOd (d : BitVec 72)
  /-- DBG_CORE_HALT (R519). -/
  | dbgCoreHalt (k : BitVec 8)
  /-- DBG_CORE_SINGLE_STEP (R519). -/
  | dbgCoreSingleStep (k : BitVec 8)
  /-- DBG_CORE_RESUME (R519). -/
  | dbgCoreResume (k : BitVec 8)
  /-- DBG_CORE_READ_REGISTER (R519). -/
  | dbgCoreReadRegister (k : BitVec 8) (r : BitVec 16)
  /-- DBG_CORE_WRITE_REGISTER (R519). -/
  | dbgCoreWriteRegister (k : BitVec 8) (r : BitVec 16) (v : Word)
  /-- BYPASS (R519). -/
  | bypass
  /-- TEST_HOLD_END (R520). -/
  | testHoldEnd
  /-- RECEIVE_LOCK_LOSS (R100). -/
  | receiveLockLoss (l : LinkId)
  /-- HOST_LINK_DOWN (R415). -/
  | hostLinkDown (l : CtlId)
  /-- ROM_SELFTEST_FAIL (R507). -/
  | romSelftestFail (g : PairId)
  /-- FATAL_STATE_RESET (R436). -/
  | fatalStateReset
  /-- MEMORY_FILL (R269). -/
  | memoryFill (pa : BitVec 52)
deriving DecidableEq, Repr

end Sys2Proof
end

