-- ==== Sys2Proof/Config.lean ====
section
/-! DEFINITION. What an implementation fixes and the spec does not state: free values, and the image of the ROM.
Every constant here has no body, so no proof can use a value of it. -/

namespace Sys2Proof

/-- The `n`-th free value: a word the spec does not state (log entry 2). -/
opaque Config.free : Nat → BitVec 64

/-- The sign and payload bits of the NaN an operation returns, from the operation and its operand bits (R198; log entry 3). -/
opaque Config.nanPayload : Nat → List (BitVec 64) → BitVec 52

/-- Whether a compare signals invalid for a quiet NaN, and whether infinity × zero + quiet NaN does (log entry 3). -/
opaque Config.compareSignals : Bool
opaque Config.fmaNanSignals : Bool

/-- Whether tininess is detected before rounding (IEEE 754-2019 leaves it to the implementation; log entry 3). -/
opaque Config.tinyBeforeRounding : Bool

/-- The result of CVTFI where the value lies outside the integers of 64 bits (log entry 4). -/
opaque Config.cvtOutOfRange : BitVec 64 → BitVec 64

/-- The bytes of the 256 KiB ROM (R457; log entry 5). -/
opaque Config.romByte : Nat → BitVec 8

/-- The bytes of the saddlebag's flash as manufacture left it (R463; log entry 5). -/
opaque Config.flashByte : Nat → BitVec 8

/-- The ROM version (OD 0x1000.20, R477; log entry 5). -/
opaque Config.romVersion : BitVec 32

/-- The device serial (OD 0x1000.06, R492; log entry 5). -/
opaque Config.serial : BitVec 128

/-- The date of manufacture (OD 0x1000.07, R492; log entry 5). -/
opaque Config.manufactureDate : BitVec 32

/-- The hash that spreads an interlock key over the engines' banks (R80; log entry 6). -/
opaque Config.interlockBank : Nat → Nat → Fin 8

/-- The memory a board carries: the capacity of each channel in GiB, its logical ranks, and the transfer rate (R288–R290;
log entry 7). -/
opaque Config.channelGiB : Fin 513
opaque Config.channelRanks : Fin 9
opaque Config.transferRate : Fin 6401

/-- The entries of a memory controller's write queue, and the rows of a device that soft repair can replace (R306, R310; log
entry 33). -/
opaque Config.writeQueue : Nat
opaque Config.pprRows : Nat

/-- The sector of normal memory that holds span `n` of the staging pool (R16, R79; log entry 184). -/
opaque Config.poolSector : Nat → Nat

/-- The victim a random replacement chooses, from the state's counter and the number of candidates (R327, R337; log entry 2). -/
opaque Config.victim : Nat → Nat → Nat

end Sys2Proof
end

