-- ==== Sys2Proof/Machine/State.lean ====
section
/-! DEFINITION. The state of the Nalser: every register, table, queue, buffer, counter and pin the spec names, as plain data.
Each field's default is its value at reset; a table reads its default where it lists no key. -/

namespace Sys2Proof.Machine

/-- Why the machine stops with a fault. No meaning of this model raises one: the spec gives every error of the hardware an
effect on State (an exception, a record, a result code). -/
inductive Fault where
  /-- Raised by nothing; kept so that the type has a name for a stop (safe: the machine would stop where the hardware goes on). -/
  | stopped
deriving DecidableEq, Repr

/-- Why a command is refused. -/
inductive Refusal where
  /-- Raised by an arm of `exec` whose command has no meaning yet (safe: nothing is claimed of it). -/
  | notModelled (mnemonic : String)
deriving DecidableEq, Repr

/-! ## Memory -/

/-- The normal region as DRAM and its tack region hold it (R298): bytes, the tag of each 8-byte word (keyed by address / 8)
and the seal of each 256-byte span (keyed by address / 256). An unlisted byte reads 0, an unlisted tag UNINIT, an unlisted
seal 0. -/
structure Memory where
  bytes : List Host.Cell := []
  tags : Tbl Tag := []
  seals : Tbl Word := []
deriving DecidableEq, Repr

/-! ## Charger cores (R196–R220, R240, R326–R331, R400) -/

/-- One level's exception registers (R218): PL1 has numbers 0x00–0x06, PL0 0x10–0x16. -/
structure ExcBank where
  vbr : TWord := ⟨0, .uninit⟩
  epc : TWord := ⟨0, .uninit⟩
  esw : Word := 0
  ecause : Word := 0
  eaddr : Word := 0
  einfo : Word := 0
  scratch : TWord := ⟨0, .uninit⟩
  walkinfo : Word := 0
deriving DecidableEq, Repr

/-- The architectural registers of one core (R196) with what a switch record saves beside them (R354, R402). -/
structure Arch where
  p : Tbl TWord := []
  x : Tbl TWord := []
  v : Tbl TWord := []
  k : Tbl (BitVec 64) := []
  vl : BitVec 7 := 64
  vri : BitVec 6 := 0
  ffm : BitVec 64 := 0
  sw : BitVec 64 := 0
  pc : BitVec 47 := 0
  bank1 : ExcBank := {}
  bank0 : ExcBank := {}
  ttbr : Word := 0
  tcr : Word := 2
  icThresh : BitVec 4 := 0
  icStacked : Bool := false
  icStack : List (BitVec 4 × BitVec 11) := []
  icLastEoi : BitVec 11 := 0
  icStackFault : Bool := false
  gaitReq : BitVec 2 := 1
deriving DecidableEq, Repr

/-- The bytes of one word that a store writes: the word's number, the byte mask, the data and the written tag (R209). -/
structure WordWrite where
  w : Nat
  mask : BitVec 8
  data : Word
  tag : Tag
deriving DecidableEq, Repr

/-- One store waiting in a core's store buffer (R167, R180, R183): every word it writes, in ascending order. -/
structure StoreEntry where
  writes : List WordWrite
  noAlloc : Bool := false
  sealPage : Bool := true
deriving DecidableEq, Repr

/-- One TLB entry (R327): stall, ASID, G, the page VA[46:14] and the leaf. -/
structure TlbEntry where
  stall : Nat
  asid : BitVec 12
  glob : Bool
  page : Nat
  leaf : Word
deriving DecidableEq, Repr

/-- One walk-cache entry (R327): the level it resolves, the VA bits above it, and the table it points to. -/
structure WalkEntry where
  stall : Nat
  asid : BitVec 12
  level : Fin 2
  va : Nat
  next : Nat
deriving DecidableEq, Repr

/-- States of an L2 line (R266). -/
inductive L2State where
  | m | o | e | s
deriving DecidableEq, Repr

/-- What a switch record holds of a stall on a shared core (R354): its registers, and whether it had executed WFI. -/
structure SwitchRec where
  arch : Arch
  waiting : Bool
deriving DecidableEq, Repr

/-- One logical Charger core. The caches and prefetch streams list what was used last first. `frame` lists the lines of the frame window by
virtual line number, with the physical line of those that are renamed (R174), `frameAt` is the P13 that they belong to, and `frameRegs` holds the
retired frame words that are newer than the core's caches, by word number (R178). `training` lists the accesses of the instruction at work that
train the prefetchers when it retires (R186); `returnStack`, `btb` and `direction` carry the stall that made each
entry (R171). -/
structure CoreSt where
  arch : Arch := {}
  stall : Nat := 0
  started : Bool := false
  waiting : Bool := false
  stopped : Bool := false
  halted : Bool := false
  walk : Bool := false
  stepOnce : Bool := false
  switches : Tbl SwitchRec := []
  storeBuf : List StoreEntry := []
  tlb : List TlbEntry := []
  walkCache : List WalkEntry := []
  specFill : Tbl (List TWord) := []
  returnStack : List (Nat × BitVec 47) := []
  btb : List (Nat × BitVec 47 × BitVec 47) := []
  direction : List (Nat × BitVec 47) := []
  l1i : List Nat := []
  l1d : List Nat := []
  frame : List (Nat × Option Nat) := []
  frameAt : Option TWord := none
  frameRegs : Tbl TWord := []
  streamsL1 : List Nat := []
  streamsL2 : List Nat := []
  modeNow : BitVec 32 := 6
  modePending : Bool := false
  tlbiWait : Bool := false
  events : List Nat := []
  training : List (Nat × Bool) := []
deriving DecidableEq, Repr

/-! ## Caches and coherence (R260–R287) -/

/-- One L2 line of a tile. -/
structure L2Line where
  state : L2State
deriving DecidableEq, Repr

/-- A write-back buffer entry (R272). -/
structure WbEntry where
  line : Nat
  txn : BitVec 16
  dirty : Bool
  surrendered : Bool := false
deriving DecidableEq, Repr

/-- An atomic that waits for its placement: its address, operation, size, source and comparison values (R275). -/
structure AtomWait where
  pa : BitVec 52
  op : AtomOp
  dbl : Bool
  v : TWord
  cmp : TWord
deriving DecidableEq, Repr

/-- An outstanding L2 request; a maintenance operation by address marks it not-to-install (R282). An ATOMIC_ANY's holds the atomic, which is
performed at the tile where the home places it NEAR (R275); `l1` marks a miss of L1D, which an L2 prefetch is not (R167, R186). -/
structure Miss where
  line : Nat
  op : Nat
  noInstall : Bool := false
  atom : Option AtomWait := none
  l1 : Bool := true
deriving DecidableEq, Repr

/-- The coherence state of one core tile (R260, R266, R272, R273). `recent` lists its L2 lines, the one used last first; `l2Waking` says
that a full nap log is waking the L2 alone. -/
structure Tile where
  l2 : Tbl L2Line := []
  recent : List Nat := []
  l2Waking : Bool := false
  wb : List WbEntry := []
  misses : List Miss := []
  retention : Bool := false
  napLog : List (Nat × Nat) := []
  nextTxn : BitVec 16 := 0
deriving DecidableEq, Repr

/-- One LLC sector (R263): its way, valid and dirty bits per sub-block, 32 words and its seal. -/
structure Sector where
  way : Fin 16
  valid : BitVec 4
  dirty : BitVec 4
  words : List TWord
  sealW : Word
deriving DecidableEq, Repr

/-- Directory states (R267); U is an absent entry. -/
inductive DirState where
  | sh | ex | os | wbPend
deriving DecidableEq, Repr

/-- The holders a directory entry names: up to four exact tiles, or a 17-bit group vector (R267). -/
inductive Holders where
  | exact (tiles : List Nat)
  | groups (g : BitVec 17)
deriving DecidableEq, Repr

/-- A directory entry (R267). -/
structure DirEntry where
  state : DirState
  owner : Option Nat
  sharers : Holders
deriving DecidableEq, Repr

/-- The operation of a request at a home (R265). -/
inductive HomeOp where
  | rdShr | rdOwn | upgrade | rdNi | rdUc
  | wrUc (k : Fin 4) (mask : BitVec 64) (data : BitVec 512) (tags : List Tag)
  | evict (dirty : Bool)
  | dmaRd (subs : BitVec 4)
  | dmaWr (k : Fin 4) (mask : BitVec 64) (data : BitVec 512) (tags : List Tag)
  | spanWr (data : List Word) (tags : List Tag) (sealW : Word)
  | zero | clear | mClean | mCleaninv | mDiscard
  | atomic (any : Bool) (op : AtomOp) (dbl : Bool) (v cmp : TWord)
deriving DecidableEq, Repr

/-- A request in a home's input queue; `tie` says that it came in the same ring cycle as the one before it there (R269). -/
structure HomeReq where
  req : Req
  op : HomeOp
  tie : Bool := false
deriving DecidableEq, Repr

/-- A transaction in progress at a home (R268–R270): its lines, the directory state its lookup found, and what it waits for.
`gone` lists the tiles whose answer says that they hold the line no longer, `wbLines` the lines whose WB_DATA it awaits, and `near` is the
placement of an ATOMIC_ANY. -/
structure Txn where
  hr : HomeReq
  lines : List Nat
  found : Option DirState := none
  near : Bool := false
  snoops : List (Nat × Nat) := []
  wbLines : List Nat := []
  needFill : Bool := false
  filled : Bool := false
  dirty : Bool := false
  gone : List (Nat × Nat) := []
deriving DecidableEq, Repr

/-- One home slice (R263, R267–R278). `dirWay` holds the way of each directory entry; `recent` and `dirRecent` list the sectors and the
entries, the one used last first (R260). `pointer` is the last winner of an arrival's tie, `winner` the one of the ring cycle that is still
open (R269); `nextTxn` numbers the slice's own transactions (R147). -/
structure Slice where
  queue : List HomeReq := []
  sectors : Tbl Sector := []
  dir : Tbl DirEntry := []
  dirWay : Tbl Nat := []
  recent : List Nat := []
  dirRecent : List Nat := []
  busy : List Txn := []
  pointer : BitVec 8 := 0
  winner : Option (BitVec 8) := none
  nextTxn : BitVec 16 := 0
  predictor : Tbl (BitVec 2) := []
  dropped : List (BitVec 8 × BitVec 16) := []
deriving DecidableEq, Repr

/-- The kinds of packet in flight between tiles and homes (R265). A grant carries its STATE, whether data comes with it and the
sector's seal; an answer to a snoop says whether it was dirty and the eviction's transaction where it came from the buffer. -/
inductive PktKind where
  | snpShr | snpInv | snpClean
  | gnt (st : BitVec 2) (data : Bool) (sealW : Option Word)
  | retry | wbPull | evictAck
  | done
  | ack (dirty : Bool) (evicting : Option (BitVec 16))
  | gone | wbData
deriving DecidableEq, Repr

/-- A packet in flight: the stop that it goes to or comes from, its line, the data it carries for one use, and the request that it
answers or on whose behalf it moves; for an answer to DMA_RD also its sub-blocks (R147, R264). A grant says whether its data is left out of
the LLC and whether it is newer than the LLC's; a snoop and its answer carry the home's own transaction number. -/
structure Pkt where
  stop : Nat
  line : Nat
  kind : PktKind
  data : List TWord := []
  subs : BitVec 4 := 0
  ref : Option Req := none
  noAlloc : Bool := false
  dirty : Bool := false
  txn : BitVec 16 := 0
deriving DecidableEq, Repr

/-- The coherence system. `lines` holds the newest value of each line that some tile or packet holds dirty (R266); `home` the home
table where it differs from the first one (R262); `ucData` the data or result last delivered to each stop for one use; `waiting` the requests that wait at their sources for a credit of
their home (R153). -/
structure Coh where
  lines : Tbl (List TWord) := []
  tiles : Tbl Tile := []
  slices : Tbl Slice := []
  net : List Pkt := []
  waiting : List HomeReq := []
  home : Tbl Nat := []
  ucData : Tbl (List TWord) := []
deriving DecidableEq, Repr

/-! ## Memory channels (R288–R315) -/

/-- A request at a memory controller: what it moves, its sector's or line's address and its channel address, its stall, priority and
source stop, and the number of the ring cycle in which it came, counted in cycles with an arrival (R301, R310). -/
structure McReq where
  kind : McKind
  pa : Nat
  ca : Nat
  stall : Nat
  pri : Nat
  src : Nat
  cycle : Nat := 0
deriving DecidableEq, Repr

/-- A migration of a channel: of a failed rank, by lines, or of the whole channel, by sectors (R307, R308). -/
inductive Migration where
  | rank (failed : Nat) (pointer : Nat)
  | channel (pointer : Nat)
deriving DecidableEq, Repr

/-- A row under soft post-package repair (R306). -/
structure Sppr where
  rank : Nat
  bank : Nat
  row : Nat
  device : Nat
deriving DecidableEq, Repr

/-- One memory channel (R288–R315). `marked` holds each rank's marked device; `openBanks` the open row of each bank; `deviceCe`,
`deviceBanks` and `rowCe` what was corrected in each device and row; `rowsNoPpr` the rows a device could not repair; `spared` and `moved` where an
aborted sparing or retirement stopped (R309); `frameFast` whether the frame refreshes at twice the rate, `slotFree` whether the last unowned slot
is free for patrol, migration and repair, and `tackWrites` the tack lines that wait for one (R311, R315); `patrolList` the sectors of open patrol entries with the seals
that differed. -/
structure Channel where
  state : Nat := 0
  ranks : Nat := Config.channelRanks.val
  marked : Tbl Nat := []
  spare : Nat := 0
  progress : Nat := 0
  queue : List McReq := []
  arrivals : Nat := 0
  issued : List McReq := []
  lastWinner : Nat := 0
  draining : Bool := false
  openBanks : Tbl Nat := []
  postponed : Tbl Nat := []
  fastRefresh : BitVec 2 := 0
  oddFrame : Bool := false
  frameFast : Bool := false
  slotFree : Bool := false
  tackWrites : List Nat := []
  patrol : Nat := 0
  rankPass : List (Nat × Nat) := []
  patrolList : List (Nat × Word × Word) := []
  sppr : Option Sppr := none
  softRepairs : List Sppr := []
  hardRepairs : List Sppr := []
  pprUsed : Tbl Nat := []
  rowsNoPpr : Tbl (List Nat) := []
  migration : Option Migration := none
  spared : Option (Nat × Nat) := none
  moved : Nat := 0
  tackCache : List (Nat × Bool) := []
  deviceCe : Tbl Nat := []
  deviceBanks : Tbl (List Nat) := []
  rowCe : Tbl Nat := []
  inSelfRefresh : Bool := false
  poweredOff : Bool := false
deriving DecidableEq, Repr

/-- The memory system. `capacity` is the capacity of a channel's ranks in GiB `dimmRanks` their number and `rate` the transfer rate in MT/s, as populated and as the last bring-up read them (R288–R291). `chSpare` and `rkSpare` are CHANNEL_SPARE and SPARE_RANK as the last bring-up applied them (R292, R307). -/
structure McSys where
  capacity : Nat := Config.channelGiB.val
  dimmRanks : Nat := Config.channelRanks.val
  rate : Nat := Config.transferRate.val
  channels : Tbl Channel := []
  chSpare : Bool := false
  rkSpare : Bool := false
  retired : Option Nat := none
  unreadable : List Nat := []
  lostWrites : Nat := 0
  dimmTemps : Tbl Int := []
  pmic : Tbl (BitVec 4) := []
deriving DecidableEq, Repr

/-! ## Translation (R327–R341) -/

/-- One ATC entry (R339): function, untranslated page, host page and rights. -/
structure AtcEntry where
  fn : Nat
  page : Nat
  host : Nat
  r : Bool
  w : Bool
deriving DecidableEq, Repr

/-- An IOMMU translation of one die (R337). -/
structure IoEntry where
  stall : Nat
  page : Nat
  leaf : Word
deriving DecidableEq, Repr

/-- An Invalidate Request not yet completed (R340): its tag, and the reads, by engine and tag, that used what it removed. -/
structure AtsInval where
  itag : BitVec 5
  reads : List (Nat × Nat)
deriving DecidableEq, Repr

/-- The IOMMUs with their walk caches, whose entries carry ASID 0 (R337), and the device-side ATS caches. -/
structure Vm where
  iommu : Tbl (List IoEntry) := []
  ioWalk : Tbl (List WalkEntry) := []
  atc : Tbl (List AtcEntry) := []
  invalidations : Tbl (List AtsInval) := []
deriving DecidableEq, Repr

/-! ## Stalls (R345–R361) -/

/-- States of a tenant stall (R347). -/
inductive StallState where
  | free | creating | live | fenced | teardown
deriving DecidableEq, Repr

/-- A reduction of a grant, or an IO_ROOT write, that has not completed (R336). -/
inductive GrantPending where
  | grant (k : Nat) (v : Word) (path : Path)
  | ioRoot (v : Word) (path : Path)
deriving DecidableEq, Repr

/-- One stall. The entries a write reaches are dictionary values; what the spec makes a state machine is here: cores whose first
instruction has been dispatched, dedicated and shared cores that have still to leave, the step of a teardown, values in force of entries
that apply later, and the ISO_STATUS last reported. -/
structure StallSt where
  state : StallState := .free
  strictActive : Bool := false
  cleaning : Bool := false
  started : BitVec 128 := 0
  leaving : BitVec 128 := 0
  leavingShared : BitVec 128 := 0
  leavingPath : Path := .fw
  step : Nat := 0
  ringNow : BitVec 32 := 0
  ringPending : Bool := false
  slotsNow : BitVec 32 := 0
  slotsPending : Bool := false
  grantPending : List GrantPending := []
  lastIso : Nat := 0
deriving DecidableEq, Repr

/-! ## What the device puts out -/

/-- What leaves the device at one of its interfaces. -/
inductive Out where
  | msix (p : Nat) (fn : Nat) (addr : Word) (data : BitVec 32)
  | hostWrite (p : Nat) (fn : Nat) (addr : Word) (data : List Byte) (relaxed translated ep : Bool)
  | hostRead (p : Nat) (fn : Nat) (addr : Word) (len : Nat) (tag : Nat) (relaxed translated : Bool)
  | atsRequest (p : Nat) (fn : Nat) (page : Nat)
  | invalidateDone (p : Nat) (itag : BitVec 5)
  | completion (p : Nat) (data : List Byte) (ep : Bool)
  | unsupported (p : Nat)
  | completerAbort (p : Nat)
  | retryStatus (p : Nat)
  | ltr (l : Nat) (v : BitVec 32)
  | can (id : BitVec 29) (data : List Byte)
  | smbus (data : List Byte)
  | flit (l : Nat) (f : Flit)
  | trainFrame (l : Nat) (lane : Nat) (levels : List Nat) (prbs : BitVec 13)
  | dram (c : Nat) (op : Nat) (arg : Nat)
  | i3c (k : Nat) (op : Nat)
  | l1Request (l : Nat)
  | errorMessage (fn : Nat) (severity : BitVec 2)
  | deviceWrite (pa : Nat) (data : List Byte)
deriving DecidableEq, Repr

/-! ## Host endpoint (R363–R392) -/

/-- An MSI-X table entry (R380). -/
structure MsixEntry where
  addr : Word := 0
  data : BitVec 32 := 0
  mask : Bool := true
deriving DecidableEq, Repr

/-- A dictionary mailbox (R371). -/
structure Mailbox where
  index : BitVec 16 := 0
  sub : BitVec 8 := 0
  op : Bool := false
  length : BitVec 9 := 0
  irq : Bool := false
  busy : Bool := false
  result : BitVec 8 := 0
  rlength : BitVec 9 := 0
  data : List Byte := []
deriving DecidableEq, Repr

/-- Why a function drains (R386). -/
inductive DrainKind where
  | flr | vfDisable | d3hot
deriving DecidableEq, Repr

/-- Re-enables latched during a drain (R387). -/
structure Latched where
  vfEnable : Bool := false
  busMaster : Bool := false
  d0 : Bool := false
deriving DecidableEq, Repr

/-- One PCIe function. -/
structure HFn where
  cfg : Tbl (BitVec 32) := []
  msix : Tbl MsixEntry := []
  pba : BitVec 128 := 0
  mbox : Mailbox := {}
  drain : Option DrainKind := none
  latched : Latched := {}
  fenced : Bool := false
  d3hot : Bool := false
  aerCor : BitVec 32 := 0
  aerUnc : BitVec 32 := 0
  devSta : BitVec 4 := 0
  hdrLog : List (BitVec 32) := []
deriving DecidableEq, Repr

/-- A queue pair: the fields of its record (R373) and what the endpoint keeps beside them: commands fetched and not completed, completions
posted and not consumed (`held`), and commands in a read that is outstanding. -/
structure QPair where
  enable : Bool := false
  soft : Bool := false
  error : Bool := false
  sqLog2 : BitVec 5 := 0
  cqLog2 : BitVec 5 := 0
  vector : BitVec 7 := 0
  irqEn : Bool := false
  coalCount : BitVec 8 := 0
  coalTime : BitVec 16 := 0
  inboxCore : BitVec 8 := 0
  sqBase : Word := 0
  cqBase : Word := 0
  inboxBase : Word := 0
  sqHead : BitVec 16 := 0
  sqTail : BitVec 16 := 0
  cqTail : BitVec 16 := 0
  cqHead : BitVec 16 := 0
  deleting : Bool := false
  delPath : Path := .fw
  fetched : Nat := 0
  sinceMsg : Nat := 0
  unsignalled : Bool := false
  phase : Bool := true
  held : Nat := 0
  reading : Nat := 0
deriving DecidableEq, Repr

/-- An inbound window (R381). -/
structure Window where
  en : Bool := false
  rd : Bool := false
  wr : Bool := false
  wtag : Bool := false
  sizeLog2 : BitVec 6 := 0
  stall : BitVec 9 := 0
  offset : Word := 0
  target : Word := 0
deriving DecidableEq, Repr

/-- States of a host link (R391). -/
inductive HostLink where
  | down | training | l0 | recovery | l1 | l11 | l12 | off
deriving DecidableEq, Repr

/-- One host controller (R364, R375, R391). -/
structure HostCtl where
  link : HostLink := .down
  rate : BitVec 8 := 0
  width : BitVec 8 := 0
  spares : BitVec 4 := 0
  lastWinner : Nat := 0
  reads : List (Nat × Nat) := []
  laneRuns : Tbl Nat := []
  spareWaiting : List Nat := []
  badSpares : BitVec 4 := 0
deriving DecidableEq, Repr

/-- A request of the host that waits for its controller's or ring's domain (R418); `seen` is the window that an inbound access met when
its header was received (R382). -/
inductive HostTlp where
  | sqTail (p fn q : Nat) (v : BitVec 32)
  | cqHead (p fn q : Nat) (v : BitVec 32)
  | doorbells (p fn q : Nat) (tail head : BitVec 32)
  | mailbox (p : HPort) (fn : FnId) (write : Bool) (idx : BitVec 16) (sub : BitVec 8) (len : BitVec 9) (irq : Bool) (data : List Byte)
  | write (p : Nat) (seen : Option Window) (translated : Bool) (off : Word) (data : List Byte) (ep : Bool)
  | read (p : Nat) (seen : Option Window) (translated : Bool) (off : Word) (len : Nat)
  | ack (p : Nat) (v : Nat)
  | msix (p fn entry : Nat) (addr : Word) (data : BitVec 32) (mask : Bool)
deriving DecidableEq, Repr

/-- The host endpoint. Functions are keyed by 257 · port + function, queue pairs by 64 · (257 · port + function) + queue; `inbox` lists
the entries of inbox rings whose replies are awaited, oldest first. -/
structure HostEp where
  fns : Tbl HFn := []
  qps : Tbl QPair := []
  inbox : List (Nat × Nat) := []
  heldIn : List HostTlp := []
  live : Tbl Window := []
  commitPending : Tbl Path := []
  ctl : Tbl HostCtl := []
  perst : BitVec 2 := 0
  bifurcate : BitVec 2 := 0
  inboundBits : Nat := 0
  fatal : Bool := false
  heldOut : List (Nat × Nat × Out) := []
deriving DecidableEq, Repr

/-! ## Stripe engines (R57–R88) -/

/-- States of a stream context (R59). -/
inductive CtxState where
  | free | idle | active | draining | fenced | moving
deriving DecidableEq, Repr

/-- A context record (R58). -/
structure Ctx where
  state : CtxState := .free
  stall : BitVec 9 := 0
  cls : BitVec 2 := 0
  sealsReq : Bool := false
  forceBuf : Bool := false
  engine : Option EngineId := none
  spilled : Bool := false
  active : Nat := 0
  queued : Nat := 0
  stripesDone : Word := 0
  bytesDone : Word := 0
  faults : BitVec 32 := 0
  ingress : BitVec 32 := 0
  freeing : Bool := false
  landing : Option Nat := none
deriving DecidableEq, Repr

/-- Where a descriptor came from (R63, R375): a queue pair, or firmware, which posts it to the engine itself. -/
inductive DescSrc where
  | queue (key : Nat)
  | firmware
deriving DecidableEq, Repr

/-- What a fragment of a stripe in hand is doing: waiting to be written, on its way, durable or failed; or being read, good, missing. -/
inductive FragState where
  | idle | todo | sent | durable | failed | reading | good | missing
deriving DecidableEq, Repr

/-- One fragment of a stripe (R64, R66): its port and alternate, its first block, and its bytes with their seals. `poison` lists its
spans that are not good, `bad` what their checks found: point, span, expected and computed seal; `faults` the ports at which a write of
it failed; `missed` the port at which a scrub found it wanting, whose repair is not yet recorded; `sramUe` that the staging SRAM lost it
(R84). -/
structure Frag where
  port : Nat
  alt : Option Nat := none
  block : Nat
  state : FragState := .idle
  retried : Bool := false
  bytes : List Byte := []
  seals : List Word := []
  poison : List Nat := []
  bad : List (Nat × Nat × Word × Word) := []
  faults : List Nat := []
  reissued : Bool := false
  missed : Option Nat := none
  sramUe : Bool := false
deriving DecidableEq, Repr

/-- Where a stripe's bytes come from (R72). -/
inductive StripeSrc where
  | host | mem | pool | drives | buf
deriving DecidableEq, Repr

/-- Where a stripe stands (R69–R80). -/
inductive Stage where
  | lock | pull | check | place | reading | rebuilt | flying | pooled | readback
deriving DecidableEq, Repr

/-- A host read of at most 1 KiB (R77): where it goes in the stripe's data, or in its seals, and the function that makes it. -/
structure HRead where
  addr : Nat
  len : Nat
  off : Nat
  isSeal : Bool := false
  fn : Nat := 0
deriving DecidableEq, Repr

/-- A stripe in a slot, on its way, or in the staging pool (R69–R79); `need` names the data fragments that its pull brings (R72),
`poolAt` its first span in the pool (R79). -/
structure Stripe where
  uid : Nat
  cmd : Nat
  index : Nat
  src : StripeSrc
  stage : Stage
  write : Bool
  frags : List Frag := []
  todoReads : List HRead := []
  pendingReads : Nat := 0
  sealBytes : List Byte := []
  payload : List Byte := []
  tries : Nat := 0
  bad0 : Option (Word × Word) := none
  key : Option (Nat × Nat) := none
  sramTries : Nat := 0
  readFail : Bool := false
  rebuilt : Bool := false
  pooledOnce : Bool := false
  feeds : Option Nat := none
  left : Nat := 0
  need : List Nat := []
  poolAt : Nat := 0
deriving DecidableEq, Repr

/-- An accepted descriptor with what it has done so far (R63, R72, R378); `wports` lists every port at which a write of it failed (R18). -/
structure Cmd where
  id : Nat
  desc : BitVec 512
  src : DescSrc
  issuer : Nat := 0
  started : Bool := false
  checked : Bool := false
  place : List Word := []
  aux : List Word := []
  stripes : Nat := 0
  next : Nat := 0
  done : Nat := 0
  live : Nat := 0
  status : BitVec 8 := 0
  spans : List Nat := []
  ports : List Nat := []
  count0 : Nat := 0
  count1 : Nat := 0
  count2 : Nat := 0
  buf : List Byte := []
  bufSeals : List Word := []
  readNext : Nat := 0
  r21 : Bool := false
  release : List Nat := []
  silent : Bool := false
  wports : List Nat := []
deriving DecidableEq, Repr

/-- One stripe engine (R57, R82): its state (R86), descriptors not started and active, slots, stripes whose fragments have left their
slot, stripes that wait for a slot to be made again (R72), and its host reads by tag with the stripe they serve. `served` counts the starts
of each class in the scheduler's round. -/
structure Engine where
  state : Nat := 0
  queue : List Cmd := []
  active : List Cmd := []
  slots : Tbl Stripe := []
  flying : List Stripe := []
  regen : List Stripe := []
  tokens : Int := 0
  matrices : List Nat := []
  lastClass : Nat := 0
  served : Tbl Nat := []
  faultsHour : Nat := 0
  reads : List (Nat × Nat × HRead) := []
  nextTag : Nat := 0
deriving DecidableEq, Repr

/-- The engines, contexts, the interlock with the stripes that hold and await its keys, and the staging pool. `spilled` lists the
contexts whose records lie in the backing store, `loading` those that wait for it; `fwDone` holds the completions of firmware's own
descriptors, `held` the NOP and FENCE descriptors that wait for earlier ones while no engine is active (R85). -/
structure EngSys where
  engines : Tbl Engine := []
  ctxs : Tbl Ctx := []
  loading : List Nat := []
  lru : List Nat := []
  locks : List (Nat × Nat × Nat) := []
  lockWait : List (Nat × Nat × Nat) := []
  bankOwner : Tbl Nat := []
  pool : List Stripe := []
  nextUid : Nat := 0
  nextCmd : Nat := 0
  stopped : Bool := false
  fwDone : List (BitVec 512) := []
  held : List Cmd := []
deriving DecidableEq, Repr

/-! ## Tether links, ports and shelves (R89–R140) -/

/-- States of a link end (R93). -/
inductive LinkState where
  | disabled | detect | cdr | equalize | align | param | active | retrain | quiet | failed | mismatch
deriving DecidableEq, Repr

/-- A LINK_CTL request this end has sent and that is not yet answered (R113). -/
structure CtlPending where
  op : Nat
  arg : Nat
  repeats : Nat := 0
deriving DecidableEq, Repr

/-- A message waiting to be sent on a link (R104, R124): its virtual channel, its port, what is left of its 8-byte units, whether
its first unit has been sent, where in those units messages start, and the stripe whose WRITE it carries. -/
structure Msg where
  vc : Fin 4
  port : Nat
  units : List Word
  begun : Bool := false
  starts : List Nat := [0]
  uid : Option Nat := none
deriving DecidableEq, Repr

/-- One logical lane in training (R90, R95): the taps in steps of 0.025, the status answered to the far end's requests, the good frames
in a row, the frames in which the far end was ready, and the state of the PRBS13 sent on the lane (R94). -/
structure LaneTrain where
  pre : Nat := 0
  post : Nat := 0
  preStat : BitVec 2 := 0
  postStat : BitVec 2 := 0
  good : Nat := 0
  ready : Nat := 0
  prbs : BitVec 13 := 0x1FFF
deriving DecidableEq, Repr

/-- A sequenced flit kept until it is acknowledged (R105), with the logical links whose ports' messages it carries. -/
structure Sent where
  flit : Flit
  links : List Nat := []
deriving DecidableEq, Repr

/-- One Tether link end (R90–R121). `phase` is where RETRAIN stands: frames, alignment, PARAM; `nakOut` says that a bad flit has been
met and the expected one has not come; `sfOpen` that the superframe being received began with a good MARKER, `sfUcw` that it has met an
uncorrectable codeword. `readySent` says that a frame with RX_READY has been sent, `ackTold` the expected number that the last flit told the far
end, `quietNext` that the link goes QUIET at the next superframe (R114). `heldParam` is the PARAM of a MISMATCH. `spareTrain` is the spare lane
in training, `spareBoth` says that both lanes are sent (R115). `replayFrom` is the number from which the running replay started (R123), and
`failbackGone` that the link has left ACTIVE since its FAILBACK was sent (R118). -/
structure Link where
  state : LinkState := .disabled
  phase : Nat := 0
  lanes : Tbl LaneTrain := []
  goodSf : Nat := 0
  badSf : Nat := 0
  carrier : Option LinkId := none
  newIdentity : BitVec 128 := 0
  nextSeq : BitVec 10 := 0
  expSeq : BitVec 10 := 0
  accepted : Bool := false
  replay : List Sent := []
  replayAt : Option Nat := none
  replayCount : Nat := 0
  nakPending : Bool := false
  nakOut : Bool := false
  credits : Tbl Nat := []
  lastCred : Tbl (BitVec 6) := []
  freed : Tbl (BitVec 6) := []
  unreported : Tbl Nat := []
  sfCount : BitVec 32 := 0
  farSf : Option (BitVec 32) := none
  slot : Nat := 0
  ctl : List CtlPending := []
  ctlOut : List (Nat × Nat) := []
  txq : List Msg := []
  lastVc : Nat := 3
  lastPort : Tbl Nat := []
  rx : Tbl (List Word) := []
  holding : Bool := false
  fresh : Bool := true
  farDepth : Nat := 512
  trainFails : Nat := 0
  retrains : List Nat := []
  spareLane : Option Nat := none
  spareWanted : Option Nat := none
  switchAt : Option (BitVec 32) := none
  quietSent : Bool := false
  failoverOn : Option LinkId := none
  failbackPath : Option Path := none
  failbackSent : Bool := false
  serRuns : Tbl Nat := []
  serLast : List Nat := []
  serNoted : Tbl Nat := []
  ucwAgo : Nat := 10
  paramSeen : Bool := false
  paramAcked : Bool := false
  powerReq : BitVec 8 := 0
  sfOpen : Bool := false
  sfUcw : Bool := false
  readySent : Bool := false
  ackTold : BitVec 10 := 0
  quietNext : Bool := false
  heldParam : Option ParamBody := none
  spareTrain : LaneTrain := {}
  spareBoth : Bool := false
  replayFrom : BitVec 10 := 0
  failbackGone : Bool := false
deriving DecidableEq, Repr

/-- States of a drive port (R130). -/
inductive PortState where
  | absent | offline | new | asleep | waking | ready | late | failed | retired
deriving DecidableEq, Repr

/-- A drive command of a port (R125–R131): the engine, stripe and fragment it serves, its operation (1 READ, 2 WRITE, 3 TRIM,
5 IDENTIFY), and for a read what has arrived, by block. `held` marks one kept for the shelf's next window (R134). -/
structure DriveCmd where
  engine : Nat := 0
  uid : Nat := 0
  frag : Nat := 0
  op : Nat
  block : Nat := 0
  count : Nat := 1
  tag : Option (BitVec 8) := none
  outcomeGiven : Bool := false
  abortSent : Bool := false
  reissues : Nat := 0
  held : Bool := false
  data : List Byte := []
  seals : List Word := []
  gotSeals : Tbl (List Word) := []
  gotPoison : Tbl (BitVec 16) := []
  gotData : Tbl (List Byte) := []
deriving DecidableEq, Repr

/-- One drive port (R129, R130): commands that hold a tag, and commands that wait. -/
structure Port where
  state : PortState := .offline
  prior : PortState := .asleep
  serial : BitVec 128 := 0
  newSerial : BitVec 128 := 0
  capacity : Nat := 0
  cmds : List DriveCmd := []
  waiting : List DriveCmd := []
  failRun : Nat := 0
  joinReq : Option (BitVec 8) := none
  takeNext : Bool := false
  reenabled : Bool := false
  shelfMove : Option (Nat × List Path) := none
deriving DecidableEq, Repr

/-- States of a shelf (R132). -/
inductive ShelfState where
  | asleep | waking | awake | closing | sleeping
deriving DecidableEq, Repr

/-- A CONTROL request that is held for a shelf: wake (true) or sleep, and the path whose result it will set (R132). -/
structure ShelfReq where
  wake : Bool
  path : Path
deriving DecidableEq, Repr

/-- One shelf (R132–R134): the ports that hold it in WAKING, the links whose POWER_DONE it awaits with the REQ sent to each, and its
requests not yet applied. -/
structure Shelf where
  state : ShelfState := .asleep
  holders : List Nat := []
  awaiting : List (Nat × BitVec 8 × Bool) := []
  requests : List ShelfReq := []
  pastWindow : Bool := false
deriving DecidableEq, Repr

/-! ## Longe rings (R141–R166) -/

/-- A flit: its packet's header, its number in the packet (0 the header flit) and its packet's number in the order of injection, whether
it is resent on this segment (R149, R166), whether it goes first of a packet whose header is ahead of a detour (R163), the train it rides
(R157), its marks as a waiting head (R154, R156), its contents beside the routing header, and the segments it has still to travel, each
with its virtual channel (R150). -/
structure RingFlit where
  hdr : Word
  idx : Nat := 0
  seq : Nat := 0
  bad : Bool := false
  lead : Bool := false
  train : Option Nat := none
  aged : Bool := false
  promoted : Bool := false
  body : List Word := []
  path : List (Nat × Nat) := []
deriving DecidableEq, Repr

/-- What holds a virtual channel of a lane output between a packet's header and its last flit: the packet, and the flits to come (R148). -/
structure VcOwner where
  pkt : Nat
  left : Nat
deriving DecidableEq, Repr

/-- One lane segment (R148–R159): at its downstream stop the input buffers by virtual channel and the flit to be ejected; at its upstream
stop what is left of injected packets, the strict flits, the retry buffer, the flits to resend, the last ring cycle, the cycles of the
retries of the last 1 ms, and the last winners. -/
structure LaneOut where
  inBuf : Tbl (List RingFlit) := []
  eject : List RingFlit := []
  cont : Tbl (List RingFlit) := []
  owner : Tbl VcOwner := []
  strict : List RingFlit := []
  retry : List RingFlit := []
  sent : List RingFlit := []
  now : Nat := 0
  retries : List Nat := []
  lastVc : Nat := 15
  lastInj : Nat := 15
deriving DecidableEq, Repr

/-- A packet in a local queue of a stop, with the marks of its waiting head (R154, R156). -/
structure QueuedPkt where
  hdr : Word
  body : List Word
  aged : Bool := false
  promoted : Bool := false
deriving DecidableEq, Repr

/-- The rings: segments by their codes, failed segments in order, the detour table (R162, R164), the segments whose detour is installed, the local queues of the stops, the
number of packets injected, the headers of requests whose credit has not returned (R153), and the flits last ejected. -/
structure RingSys where
  lanes : Tbl LaneOut := []
  failedSegs : List Nat := []
  table : List (Nat × List Nat) := []
  detours : List Nat := []
  queues : Tbl (List QueuedPkt) := []
  injected : Nat := 0
  credits : List Word := []
  delivered : List RingFlit := []
deriving DecidableEq, Repr

/-! ## Interrupts (R393–R406) -/

/-- One interrupt source. -/
structure Source where
  cfg : Option Word := none
  count : Nat := 0
  saturated : Bool := false
  signalled : Bool := false
  inbox : BitVec 128 := 0
deriving DecidableEq, Repr

/-! ## Power, clocks and the supply (R407–R432) -/

/-- The device's power states (R413). -/
inductive PowerState where
  | run | idle | sleep | deep | off
deriving DecidableEq, Repr

/-- A power domain's state (R418). -/
inductive DomState where
  | up | down | waking | retention
deriving DecidableEq, Repr

/-- What the power controller keeps of one core (R423–R427). -/
structure CorePwr where
  grant : BitVec 2 := 1
  gait : BitVec 2 := 1
deriving DecidableEq, Repr

/-- The power controller and the supply. `gallopOrder` lists the cores that ask for Gallop in the order of their requests, `capped` what the
power cap has demoted, newest first; `overCap` says that power has to fall further, and `evals` counts gait evaluations within 1 ms. -/
structure Power where
  state : PowerState := .run
  entering : Option PowerState := none
  quietWait : List Nat := []
  deepExit : Option Nat := none
  domains : List (Domain × DomState) := []
  wakeTries : List (Domain × Nat) := []
  cores : Tbl CorePwr := []
  gallopOrder : List Nat := []
  capped : List (Nat × BitVec 2) := []
  demotions : List Demotion := []
  lost : List Regulator := []
  dead : List Regulator := []
  stretch : BitVec 2 := 0
  droopCount : Tbl Nat := []
  pwrfail : Bool := false
  flushing : Bool := false
  flushSeq : Nat := 0
  flushStopped : Bool := false
  thermtrip : Bool := false
  faultN : Bool := true
  overCap : Bool := false
  evals : Nat := 0
deriving DecidableEq, Repr

/-! ## Farrier (R433–R456) -/

/-- A fault-log entry (R437). -/
structure LogEntry where
  seq : BitVec 32
  kind : BitVec 8
  cls : BitVec 2
  saved : Bool := false
  boot : BitVec 16
  time : Word
  body : BitVec 256
deriving DecidableEq, Repr

/-- A repair running or waiting (R443, R450); `args` is what its steps need beside the resource. -/
structure Repair where
  action : BitVec 8
  resource : BitVec 16
  target : BitVec 16 := 0xFFFF
  incident : BitVec 32
  cls : BitVec 2
  stall : Nat := 0
  cause : BitVec 16 := 0
  uses : List (BitVec 16) := []
  args : List Nat := []
deriving DecidableEq, Repr

/-- A core substitution in progress (R444). -/
structure Subst where
  core : CoreId
  source : Nat
  spare : Nat
  incident : BitVec 32
  cause : BitVec 16
  halted : Bool := false
  written : Bool := false
  scanned : Bool := false
  powered : Bool := false
  saved : Option Arch := none
deriving DecidableEq, Repr

/-- A slice rehoming in progress (R446). -/
structure Rehome where
  slice : Nat
  entries : List Nat
  incident : BitVec 32
deriving DecidableEq, Repr

/-- States of a Groom pair (R448, R455). -/
inductive GroomState where
  | serving | standby | failed | retired
deriving DecidableEq, Repr

/-- The Farrier. -/
structure Farrier where
  log : List LogEntry := []
  lastSeq : BitVec 32 := 0
  seqLimit : BitVec 32 := 0
  lastIncident : BitVec 32 := 0
  incidentLimit : BitVec 32 := 0
  minute : Tbl Nat := []
  saves : Nat := 0
  running : List Repair := []
  queued : List Repair := []
  beyond : List Repair := []
  spares : List Nat := [68, 69, 70, 71, 140, 141, 142, 143]
  failedSpares : List Nat := []
  coreMap : Tbl Nat := []
  offline : BitVec 128 := 0
  walkRecovery : Bool := false
  pair0 : GroomState := .serving
  pair1 : GroomState := .standby
  failedOnce : BitVec 2 := 0
  agents : BitVec 2 := 0
  subst : Option Subst := none
  rehome : Option Rehome := none
  fatal : Bool := false
  sliceUe : Tbl Nat := []
  hours : BitVec 32 := 0
deriving DecidableEq, Repr

/-! ## Side-band and the dictionary (R457–R495) -/

/-- A dictionary access waiting in the serializer (R465, R466). `tap` marks one of DBG_OD (R519), `carried` one that a full slot has put off,
and `discard` one whose function has drained meanwhile (R392). -/
structure Access where
  path : Path
  write : Bool
  idx : Nat
  sub : Nat
  data : List Byte := []
  can : Option (WealarHdr × BitVec 8) := none
  halterTid : Option (BitVec 8) := none
  tap : Bool := false
  carried : Bool := false
  discard : Bool := false
deriving DecidableEq, Repr

/-- An inbound Wealar transfer (R470). -/
structure Transfer where
  src : BitVec 7
  tid : BitVec 6
  hdr : WealarHdr
  service : BitVec 5
  counter : BitVec 6
  length : Nat
  bytes : List Byte
deriving DecidableEq, Repr

/-- The CAN FD controller, Wealar and the halter port. `txq` holds response frames, `events` the bodies of events, that wait for the bus. -/
structure Side where
  transfers : List Transfer := []
  events : List (List Byte) := []
  txq : List (BitVec 29 × List Byte) := []
  evseq : BitVec 16 := 0
  rxKept : List (BitVec 29 × List Byte) := []
  wakeReplies : List WealarHdr := []
  busOff : Bool := false
  halterPending : Bool := false
  halterReq : List Byte := []
  halterReply : Option (List Byte) := none
  halterAddr : Nat := 0
  sclHeld : Bool := false
  halterNack : Bool := false
  wdogRunning : Bool := false
deriving DecidableEq, Repr

/-- Where bring-up stands (R496). -/
inductive BootPhase where
  | reset | rom | load | power | calibrate | maps | hostLink | coldSoak | dram | tack | units | ready
deriving DecidableEq, Repr

/-- Bring-up. `hold` says that a boot fault holds it at its phase, `heating` how many cores heat and `soak` for how many tenths of a second,
`sbDefault` lists the subindexes of 0x1000 that act at their defaults though a value is stored (R502, R507, R527). -/
structure Boot where
  phase : BootPhase := .reset
  ready : Bool := false
  hold : Bool := false
  heating : Nat := 0
  soak : Nat := 0
  patchOff : Bool := false
  sbDefault : List Nat := []
  mfg : Bool := false
  selftested : BitVec 2 := 0
  valuesSource : Nat := 0
  replaced : Nat := 0
  patchVersion : BitVec 32 := 0
deriving DecidableEq, Repr

/-- One counter of a block (R510–R512). -/
structure Counter where
  sel : BitVec 27 := 0
  value : BitVec 48 := 0
  ovf : Bool := false
deriving DecidableEq, Repr

/-- The counters; keyed by 8 · block + counter. -/
structure Pmu where
  counters : Tbl Counter := []
  freeze : Bool := false
  samplePc : Tbl Word := []
  sampleUnread : Tbl Bool := []
  sampleInfo : Tbl (BitVec 9) := []
deriving DecidableEq, Repr

/-- The instructions of the TAP (R519). -/
inductive TapInstr where
  | idcode | sample | extest | clamp | highz | dbgStatus | dbgOd | dbgCore | bypass
deriving DecidableEq, Repr

/-- The test access port. -/
structure Tap where
  ir : TapInstr := .idcode
  dr : BitVec 80 := 0
  refused : Bool := false
  hold : Bool := false
  cells : BitVec 1146 := 0
  outputs : BitVec 1146 := 0
  floating : Bool := false
deriving DecidableEq, Repr

/-! ## The rein profile (R252–R258) -/

/-- A Groom pair's registers; the two cores of a pair hold the same ones (R458). -/
structure ReinSt where
  a : Word := 0
  x : Word := 0
  y : Word := 0
  sp : Word := 0
  sw : Word := 0
  pc : Word := 0
  npc : Word := 4
  slot : Bool := false
  load : Option (Fin 3 × Word) := none
  vbr : Word := 0
  epc : Word := 0
  enpc : Word := 0
  esw : Word := 0
  ecause : Word := 0
  eaddr : Word := 0
  einfo : Word := 0
  scratch : Word := 0
  icThresh : BitVec 4 := 0
  icStacked : Bool := false
  icStack : List (BitVec 4 × BitVec 11) := []
  icLastEoi : BitVec 11 := 0
  icStackFault : Bool := false
  waiting : Bool := false
  stopped : Bool := false
deriving DecidableEq, Repr

/-- The whole machine. -/
structure State where
  /-- Commands that wait, first in first out. -/
  pending : List Instr := []
  /-- The model's own counter of free values taken (log entry 2). -/
  free : Nat := 0
  /-- Dictionary values that differ from their defaults, keyed by 256 · index + subindex (R479). -/
  od : Tbl Nat := []
  /-- Selections and results of each access path (R487). -/
  perPath : Tbl Nat := []
  /-- Saddlebag writes performed and not yet in flash (R467). -/
  bagPending : List Nat := []
  /-- Values in flash, keyed as `od`, and the words of sources, each under an index of its own (R405, R463). -/
  flash : Tbl Nat := []
  /-- Accesses waiting in the serializer (R465). -/
  serial : List Access := []
  /-- What has left the device, newest first. -/
  out : List Out := []
  mem : Memory := {}
  sram : List Host.Cell := []
  cores : Tbl CoreSt := []
  coh : Coh := {}
  mc : McSys := {}
  vm : Vm := {}
  stalls : Tbl StallSt := []
  host : HostEp := {}
  eng : EngSys := {}
  links : Tbl Link := []
  ports : Tbl Port := []
  shelves : Tbl Shelf := []
  wakeQueue : List (Nat × Bool) := []
  ring : RingSys := {}
  irq : Tbl Source := []
  pwr : Power := {}
  far : Farrier := {}
  side : Side := {}
  boot : Boot := {}
  pmu : Pmu := {}
  tap : Tap := {}
  rein : Tbl ReinSt := []
deriving DecidableEq, Repr

/-- The machine right after reset. -/
def State.reset : State := {}

end Sys2Proof.Machine
end

