-- ==== Sys2Proof/Machine/Catalog.lean ====
section
/-! DEFINITION. The catalogue of the object dictionary (R479–R492): every entry's type, rights, default, persistence and
range, from the entry tables of the owning chapters. -/

namespace Sys2Proof.Machine

/-- The type of an entry (R479). -/
inductive OdType where
  | u8 | u16 | u32 | u64 | i32 | bool | enum | str (max : Nat) | blob (n : Nat)
deriving DecidableEq, Repr

/-- The length in bytes of a type (R479); a STR's is its maximum. -/
def OdType.len (t : OdType) : Nat :=
  match t with
  | .u8 => 1 | .u16 => 2 | .u32 => 4 | .u64 => 8 | .i32 => 4 | .bool => 1 | .enum => 1
  | .str n => n
  | .blob n => n

/-- The right of one master class (R481). -/
inductive Right where
  | none | r | w | rw
deriving DecidableEq, Repr

/-- The master classes (R464). -/
inductive MasterClass where
  | h | s | t | f
deriving DecidableEq, Repr

/-- An entry of the dictionary. `ranges` lists the permitted values as inclusive ranges; an empty list permits every value. -/
structure OdEntry where
  ty : OdType
  h : Right
  s : Right
  t : Right
  f : Right
  dflt : Nat := 0
  bag : Bool := false
  ranges : List (Nat × Nat) := []
deriving DecidableEq, Repr

/-- An entry that classes H, S and F read. -/
def OdEntry.ro (ty : OdType) (d : Nat := 0) (bag : Bool := false) : OdEntry :=
  { ty := ty, h := .r, s := .r, t := .none, f := .r, dflt := d, bag := bag }

/-- An entry that every class reads. -/
def OdEntry.roAll (ty : OdType) (d : Nat := 0) (bag : Bool := false) : OdEntry :=
  { ty := ty, h := .r, s := .r, t := .r, f := .r, dflt := d, bag := bag }

/-- A clearable counter (R480): class F may write zero. -/
def OdEntry.counter (ty : OdType := .u32) : OdEntry :=
  { ty := ty, h := .r, s := .r, t := .none, f := .rw, ranges := [(0, 0)] }

/-- A saddlebag parameter that classes H, S and F read and write. -/
def OdEntry.param (ty : OdType) (d : Nat) (ranges : List (Nat × Nat) := []) : OdEntry :=
  { ty := ty, h := .rw, s := .rw, t := .none, f := .rw, dflt := d, bag := true, ranges := ranges }

/-- A saddlebag parameter that class T also reads. -/
def OdEntry.paramT (ty : OdType) (d : Nat) (ranges : List (Nat × Nat) := []) : OdEntry :=
  { ty := ty, h := .rw, s := .rw, t := .r, f := .rw, dflt := d, bag := true, ranges := ranges }

/-- A volatile entry that classes H, S and F read and write. -/
def OdEntry.vol (ty : OdType) (d : Nat := 0) (ranges : List (Nat × Nat) := []) : OdEntry :=
  { ty := ty, h := .rw, s := .rw, t := .none, f := .rw, dflt := d, ranges := ranges }

/-- A volatile entry that every class reads and writes. -/
def OdEntry.volAll (ty : OdType) (d : Nat := 0) : OdEntry :=
  { ty := ty, h := .rw, s := .rw, t := .rw, f := .rw, dflt := d }

/-- A write-only action entry. -/
def OdEntry.action (ty : OdType) (ranges : List (Nat × Nat) := []) : OdEntry :=
  { ty := ty, h := .w, s := .w, t := .none, f := .w, ranges := ranges }

/-- An action entry of class F alone. -/
def OdEntry.actionF (ty : OdType) (ranges : List (Nat × Nat) := []) : OdEntry :=
  { ty := ty, h := .none, s := .none, t := .none, f := .w, ranges := ranges }

/-- Index 0x1000 (R477, R492). -/
def odIdentity (sub : Nat) : Option OdEntry :=
  match sub with
  | 0x01 => some (.roAll (.str 16) 0x30422D363331324E5856)
  | 0x02 => some (.roAll .u32 0x21361D7C)
  | 0x03 => some (.roAll .u16 0x4230)
  | 0x04 => some (.roAll .u16 0x0100)
  | 0x05 => some (.roAll .bool)
  | 0x06 => some (.roAll (.blob 16) Config.serial.toNat true)
  | 0x07 => some (.ro .u32 Config.manufactureDate.toNat true)
  | 0x08 => some (.ro .u16 0 true)
  | 0x09 => some (.roAll .u64)
  | 0x0A => some (.ro .enum)
  | 0x0B => some { OdEntry.action .u8 [(0, 2)] with bag := true }
  | 0x0C => some (.ro .enum)
  | 0x0D => some (.ro .u32)
  | 0x10 => some (.param .u8 0x10 [(1, 125)])
  | 0x11 => some (.param .enum 2 [(0, 3)])
  | 0x12 => some (.param .enum 2 [(0, 5)])
  | 0x13 => some (.param .u16 1000 [(0, 0), (100, 60000)])
  | 0x14 => some (.param .u8 0x1D)
  | 0x15 => some (.param .u8 0)
  | 0x16 => some (.param .u8 0x5C [(0x08, 0x77)])
  | 0x20 => some (.roAll .u32 Config.romVersion.toNat)
  | 0x21 => some (.roAll .u32)
  | n => if 0x18 ≤ n ∧ n ≤ 0x1F then some .counter else none

/-- Index 0x2000 (R430). -/
def odPower (sub : Nat) : Option OdEntry :=
  match sub with
  | 0x01 => some (.roAll .enum)
  | 0x02 => some (.param .enum 3 [(0, 3)])
  | 0x03 => some (.param .u32 100 [(10, 1000000)])
  | 0x04 => some (.param .u32 50 [(1, 3600000)])
  | 0x05 => some (.param .u32 30 [(1, 86400)])
  | 0x06 => some (.action .u8 [(1, 2)])
  | 0x07 => some (.ro .enum)
  | 0x08 => some (.vol .u32)
  | 0x09 => some (.ro .enum)
  | 0x0A => some (.param .u8 0x03)
  | 0x0B => some (.ro .u16 143)
  | 0x0C => some (.param .enum 2 [(0, 2)])
  | 0x0D => some (.param .u8 32 [(0, 32)])
  | 0x0E => some (.param .u16 420 [(150, 420)])
  | 0x0F => some (.param .u8 115 [(95, 120)])
  | 0x10 => some (.ro .u16)
  | 0x11 => some (.ro .i32)
  | 0x12 => some (.ro .u8)
  | n => if 0x13 ≤ n ∧ n ≤ 0x19 then some .counter else none

/-- Indexes 0x2011–0x2014 (R431). -/
def odPowerState (sub : Nat) : Option OdEntry :=
  if 0x01 ≤ sub ∧ sub ≤ 0x0C then some .counter
  else if sub = 0x0D then some (.ro .u16) else none

/-- Index 0x3000 (R455). -/
def odFarrier (sub : Nat) : Option OdEntry :=
  match sub with
  | 0x01 => some (.ro .u32 0 true)
  | 0x02 => some (.ro .u32 0 true)
  | 0x03 => some (.vol .u32)
  | 0x04 => some (.ro (.blob 48))
  | 0x05 => some (.ro .enum)
  | 0x06 => some (.ro .u32 0 true)
  | 0x07 => some .counter
  | 0x08 => some .counter
  | 0x09 => some (.param .u8 4 [(1, 255)])
  | 0x0A => some (.param .u8 10 [(2, 100)])
  | 0x0B => some (.ro .enum)
  | 0x0C => some (.ro (.blob 18) 0 true)
  | 0x0D => some (.ro (.blob 16) 0 true)
  | 0x0E => some (.actionF .u8 [(1, 2)])
  | 0x0F => some (.ro .enum)
  | 0x10 => some (.ro .u8)
  | 0x16 => some (.ro .u8 0x04 true)
  | 0x17 => some (.ro .u8 0 true)
  | 0x18 => some (.actionF .u8)
  | 0x19 => some (.ro .u32 0 true)
  | n => if 0x11 ≤ n ∧ n ≤ 0x15 then some .counter else none

/-- Index 0x4100 + n (R345, R485). -/
def odStall (n sub : Nat) : Option OdEntry :=
  if n = 0 ∧ (0x09 ≤ sub ∧ sub ≤ 0x0D ∨ sub = 0x20 ∨ sub = 0x23 ∨ 0x30 ≤ sub) then none
  else match sub with
  | 0x01 => some (.roAll .enum)
  | 0x02 => some (.action .u8 [(1, 2)])
  | 0x03 => some (.roAll .enum)
  | 0x04 => some .counter
  | 0x05 => some { OdEntry.counter with t := .r }
  | 0x06 => some (.paramT (.blob 16) 0)
  | 0x07 => some (.paramT (.blob 16) 0)
  | 0x08 => some (.paramT .u16 1000 [(100, 50000)])
  | 0x09 => some (.paramT .u16 0)
  | 0x0A => some (.param .u64 0)
  | 0x0B => some (.param .u64 0)
  | 0x0C => some (.paramT .bool 0 [(0, 1)])
  | 0x0D => some (.roAll .u32)
  | 0x20 => some (.paramT .u32 0)
  | 0x21 => some (.paramT .u32 6)
  | 0x22 => some (.paramT .u16 0xFFFF)
  | 0x23 => some (.paramT .u32 0)
  | 0x24 => some { OdEntry.param .u64 0 with t := .rw }
  | k => if 0x30 ≤ k ∧ k ≤ 0x3F then some (.paramT .u64 0) else none

/-- Index 0x5000 (R313). -/
def odMemory (sub : Nat) : Option OdEntry :=
  match sub with
  | 0x01 => some (.ro .u32)
  | 0x02 => some (.ro .u64)
  | 0x03 => some (.ro .u16 0)
  | 0x05 => some (.param .bool 0 [(0, 1)])
  | 0x06 => some (.param .bool 0 [(0, 1)])
  | 0x07 => some (.param .u16 24 [(1, 168)])
  | 0x08 => some (.param .u16 4000 [(500, 16000)])
  | 0x09 => some (.param .u16 64 [(4, 4096)])
  | 0x0A => some (.param .u8 4 [(1, 255)])
  | _ => none

/-- Index 0x5010 + c (R314). -/
def odChannel (sub : Nat) : Option OdEntry :=
  match sub with
  | 0x01 => some (.ro .enum)
  | 0x02 => some (.ro .u8)
  | 0x03 => some (.ro (.blob 8) 0 true)
  | 0x04 => some (.ro .enum 0 true)
  | 0x05 => some (.ro .u8)
  | 0x0E => some (.action .u8)
  | 0x0F => some (.ro .enum)
  | n => if 0x06 ≤ n ∧ n ≤ 0x0D then some .counter else none

/-- Index 0x5101 + s (R285). -/
def odSlice (sub : Nat) : Option OdEntry :=
  match sub with
  | 0x01 => some (.ro .enum)
  | 0x02 => some .counter
  | 0x03 => some .counter
  | 0x04 => some (.counter .u8)
  | 0x05 => some .counter
  | 0x06 => some .counter
  | 0x07 => some .counter
  | _ => none

/-- Index 0x6000 (R120, R136). -/
def odTether (sub : Nat) : Option OdEntry :=
  match sub with
  | 0x01 => some (.ro .u32)
  | 0x02 => some (.ro .u32)
  | 0x03 => some (.param .u8 4 [(3, 8)])
  | 0x04 => some (.param .u8 16 [(1, 255)])
  | 0x05 => some (.param .u8 3 [(1, 15)])
  | 0x06 => some (.param .u8 10 [(2, 100)])
  | 0x07 => some (.param .u32 0xFFFFFFFF)
  | 0x08 => some (.param .u8 100 [(10, 250)])
  | 0x09 => some (.param .u32 8000 [(100, 60000)])
  | 0x0A => some (.param .u32 15000 [(100, 60000)])
  | 0x0B => some (.param .u16 30 [(1, 3600)])
  | 0x0C => some (.param .u8 2 [(1, 128)])
  | 0x0D => some (.param .u8 3 [(1, 15)])
  | _ => none

/-- Index 0x6010 + l (R121). -/
def odLink (l sub : Nat) : Option OdEntry :=
  match sub with
  | 0x01 => some (.ro .enum)
  | 0x02 => some (.ro .u8 l)
  | 0x03 => some (.param .u8 (if l % 2 = 0 then l + 1 else l - 1) [(0, 31), (0xFF, 0xFF)])
  | 0x04 => some (.ro .u8 (if l % 2 = 0 then 0x10 else 0x32) true)
  | 0x05 => some (.ro (.blob 16) 0 true)
  | 0x06 => some (.action .u8 [(1, 4)])
  | 0x07 => some (.ro .enum)
  | n => if 0x08 ≤ n ∧ n ≤ 0x11 then some .counter else none

/-- Index 0x6040 + q (R122). -/
def odQuad (sub : Nat) : Option OdEntry :=
  match sub with
  | 0x01 => some (.ro .enum 0 true)
  | 0x07 => some (.ro .u8 0 true)
  | n => if 0x02 ≤ n ∧ n ≤ 0x06 then some .counter else none

/-- Index 0x6100 + h (R137). -/
def odShelf (sub : Nat) : Option OdEntry :=
  match sub with
  | 0x01 => some (.ro .enum)
  | 0x02 => some (.action .u8 [(1, 2)])
  | 0x03 => some (.ro .enum)
  | 0x04 => some (.param .u32 900 [(1, 86400)])
  | 0x05 => some (.param .u16 90 [(5, 600)])
  | 0x06 => some (.ro .u16)
  | 0x07 => some (.ro .u32)
  | n => if 0x08 ≤ n ∧ n ≤ 0x0A then some .counter else none

/-- Index 0x6400 + p (R138). -/
def odPort (p sub : Nat) : Option OdEntry :=
  match sub with
  | 0x01 => some (.roAll .enum)
  | 0x02 => some (.param .u16 0 [(0, 256)])
  | 0x03 => some (.param .u8 (p / 32) [(0, 127)])
  | 0x04 => some (.ro (.blob 16) 0 true)
  | 0x05 => some (.roAll .u64)
  | 0x06 => some (.param .u8 16 [(1, 64)])
  | 0x07 => some (.action .u8 [(1, 3)])
  | 0x08 => some (.ro .enum)
  | n => if 0x09 ≤ n ∧ n ≤ 0x0F then some .counter else none

/-- Index 0x7000 (R86). -/
def odEngines (sub : Nat) : Option OdEntry :=
  match sub with
  | 0x01 => some (.ro .u8 0xFF)
  | 0x02 => some (.param .u8 8 [(1, 255)])
  | 0x03 => some (.param .u8 4 [(1, 255)])
  | 0x04 => some (.param .u8 4 [(1, 255)])
  | 0x05 => some (.param .u16 50 [(1, 128)])
  | 0x06 => some (.param .u8 3 [(1, 255)])
  | 0x08 => some (.param .u32 0)
  | _ => none

/-- Index 0x7001 + e (R86). -/
def odEngine (sub : Nat) : Option OdEntry :=
  match sub with
  | 0x01 => some (.ro .enum)
  | 0x02 => some (.ro .u16 8192)
  | 0x03 => some .counter
  | 0x04 => some .counter
  | 0x05 => some .counter
  | 0x06 => some .counter
  | _ => none

/-- Index 0x7100 (R60). -/
def odCtx (sub : Nat) : Option OdEntry :=
  match sub with
  | 0x01 => some (.volAll .u16)
  | 0x02 => some (.roAll (.blob 64))
  | 0x03 => some (.action .u32)
  | 0x04 => some (.roAll .enum)
  | _ => none

/-- Indexes 0x8000, 0x8010 + L, 0x8020 and 0x8030 + h (R391). -/
def odHost (idx sub : Nat) : Option OdEntry :=
  if idx = 0x8000 then
    match sub with
    | 0x01 => some (.param .u8 0)
    | 0x02 => some (.param .u32 0x21361D7C)
    | 0x03 => some (.param .u8 36 [(0, 0), (30, 40)])
    | 0x04 => some (.param .u16 10 [(1, 1000)])
    | 0x05 => some (.param .u16 32 [(8, 10000)])
    | 0x06 => some (.param .u32 0x8BE88BE8)
    | 0x07 => some (.param .u16 100)
    | _ => none
  else if 0x8010 ≤ idx ∧ idx ≤ 0x8013 then
    match sub with
    | 0x01 => some (.ro .enum)
    | 0x02 => some (.ro .u8)
    | 0x03 => some (.ro .u8)
    | 0x04 => some (.ro .u8 0 true)
    | n => if 0x05 ≤ n ∧ n ≤ 0x0C then some .counter else none
  else if idx = 0x8020 then
    match sub with
    | 0x01 => some (.volAll .u32)
    | 0x02 => some (.volAll (.blob 64))
    | 0x03 => some (.roAll .enum)
    | _ => none
  else if 0x8030 ≤ idx ∧ idx ≤ 0x8031 then
    match sub with
    | 0x21 => some (.action .u8 [(1, 1)])
    | 0x22 => some (.ro .u32)
    | 0x23 => some (.ro .enum)
    | n => if 0x01 ≤ n ∧ n ≤ 0x20 then some (.param (.blob 32) 0)
           else if 0x24 ≤ n ∧ n ≤ 0x26 then some .counter
           else if 0x41 ≤ n ∧ n ≤ 0x60 then some (.ro (.blob 32)) else none
  else none

/-- Index 0x9000 (R405). -/
def odIrq (sub : Nat) : Option OdEntry :=
  match sub with
  | 0x01 => some (.volAll .u16)
  | 0x02 => some { OdEntry.volAll .u64 with bag := true }
  | 0x03 => some (.roAll (.blob 32))
  | 0x04 => some (.roAll .enum)
  | 0x05 => some (.param .u16 1000 [(10, 10000)])
  | n => if 0x06 ≤ n ∧ n ≤ 0x09 then some .counter else none

/-- Indexes 0xA000–0xFFFF (R56, R165, R508, R518, R520). -/
def odHigh (idx sub : Nat) : Option OdEntry :=
  if idx = 0xA000 then
    match sub with
    | 0x01 => some (.param (.blob 33) 0)
    | 0x02 => some .counter
    | _ => none
  else if idx = 0xA010 then (if 0x01 ≤ sub ∧ sub ≤ 0x0A then some .counter else none)
  else if idx = 0xB000 then
    match sub with
    | 0x01 => some (.roAll .enum)
    | 0x02 => some (.ro .enum)
    | 0x03 => some (.ro .u16)
    | 0x04 => some (.ro .u32)
    | 0x05 => some (.ro .i32)
    | 0x06 => some (.param .u16 300 [(50, 420)])
    | 0x07 => some (.param .u32 3600 [(60, 86400)])
    | 0x08 => some (.ro .u32)
    | _ => none
  else if idx = 0xF000 then
    match sub with
    | 0x01 => some (.vol .bool 0 [(0, 1)])
    | 0x02 => some .counter
    | 0x03 => some (.ro .u16 1146)
    | _ => none
  else if idx = 0xF010 then
    match sub with
    | 0x01 => some (.ro .u16 0 true)
    | 0x02 => some (.ro (.blob 64) 0 true)
    | 0x07 => some (.actionF .u16)
    | n => if 0x03 ≤ n ∧ n ≤ 0x06 then some .counter else none
  else none

/-- The entry at an index and a subindex other than 0 (R484, R486). -/
def odEntry (idx sub : Nat) : Option OdEntry :=
  if idx = 0x1000 then odIdentity sub
  else if idx = 0x2000 then odPower sub
  else if 0x2011 ≤ idx ∧ idx ≤ 0x2014 then odPowerState sub
  else if idx = 0x3000 then odFarrier sub
  else if 0x4100 ≤ idx ∧ idx ≤ 0x4200 then odStall (idx - 0x4100) sub
  else if idx = 0x5000 then odMemory sub
  else if 0x5010 ≤ idx ∧ idx ≤ 0x501F then odChannel sub
  else if 0x5020 ≤ idx ∧ idx ≤ 0x5021 then (if 0x01 ≤ sub ∧ sub ≤ 0x07 then some .counter else none)
  else if idx = 0x5100 then
    (if sub = 0x01 then some (.ro (.blob 17) (2 ^ 136 - 1))
     else if 0x10 ≤ sub ∧ sub ≤ 0x1F then some (.paramT .u32 0) else none)
  else if 0x5101 ≤ idx ∧ idx ≤ 0x5188 then odSlice sub
  else if idx = 0x6000 then odTether sub
  else if 0x6010 ≤ idx ∧ idx ≤ 0x602F then odLink (idx - 0x6010) sub
  else if 0x6040 ≤ idx ∧ idx ≤ 0x604F then odQuad sub
  else if 0x6100 ≤ idx ∧ idx ≤ 0x617F then odShelf sub
  else if 0x6400 ≤ idx ∧ idx ≤ 0x67FF then odPort (idx - 0x6400) sub
  else if idx = 0x7000 then odEngines sub
  else if 0x7001 ≤ idx ∧ idx ≤ 0x7008 then odEngine sub
  else if idx = 0x7100 then odCtx sub
  else if 0x8000 ≤ idx ∧ idx ≤ 0x8031 then odHost idx sub
  else if idx = 0x9000 then odIrq sub
  else if 0xA000 ≤ idx then odHigh idx sub
  else none

/-- The highest subindex an index implements, which its subindex 0 holds (R483); 0 for an index that is absent. -/
def odHighest (idx : Nat) : Nat :=
  if idx = 0x1000 then 0x21 else if idx = 0x2000 then 0x19
  else if 0x2011 ≤ idx ∧ idx ≤ 0x2014 then 0x0D
  else if idx = 0x3000 then 0x19
  else if idx = 0x4100 then 0x24
  else if 0x4101 ≤ idx ∧ idx ≤ 0x4200 then 0x3F
  else if idx = 0x5000 then 0x0A
  else if 0x5010 ≤ idx ∧ idx ≤ 0x501F then 0x0F
  else if 0x5020 ≤ idx ∧ idx ≤ 0x5021 then 0x07
  else if idx = 0x5100 then 0x1F
  else if 0x5101 ≤ idx ∧ idx ≤ 0x5188 then 0x07
  else if idx = 0x6000 then 0x0D
  else if 0x6010 ≤ idx ∧ idx ≤ 0x602F then 0x11
  else if 0x6040 ≤ idx ∧ idx ≤ 0x604F then 0x07
  else if 0x6100 ≤ idx ∧ idx ≤ 0x617F then 0x0A
  else if 0x6400 ≤ idx ∧ idx ≤ 0x67FF then 0x0F
  else if idx = 0x7000 then 0x08
  else if 0x7001 ≤ idx ∧ idx ≤ 0x7008 then 0x06
  else if idx = 0x7100 then 0x04
  else if idx = 0x8000 then 0x07
  else if 0x8010 ≤ idx ∧ idx ≤ 0x8013 then 0x0C
  else if idx = 0x8020 then 0x03
  else if 0x8030 ≤ idx ∧ idx ≤ 0x8031 then 0x60
  else if idx = 0x9000 then 0x09
  else if idx = 0xA000 then 0x02 else if idx = 0xA010 then 0x0A
  else if idx = 0xB000 then 0x08
  else if idx = 0xF000 then 0x03 else if idx = 0xF010 then 0x07
  else 0

/-- The entry at any index and subindex, subindex 0 included (R483). -/
def odLookup (idx sub : Nat) : Option OdEntry :=
  if sub = 0 then
    (if odHighest idx = 0 then none else some (.roAll .u8 (odHighest idx)))
  else odEntry idx sub

end Sys2Proof.Machine
end

