-- ==== Sys2Proof/Machine/Seal.lean ====
section
/-! DEFINITION. The arithmetic of GF(2^8) and GF(2^16) and the Cinch seal (R30–R41). -/

namespace Sys2Proof.Machine

/-- Doubling in GF(2^8) under 0x11D (R34). -/
def gf8Double (a : Byte) : Byte :=
  if a.getLsbD 7 then (a <<< 1) ^^^ 0x1D else a <<< 1

/-- `n` steps of the shift-and-add product in GF(2^8). -/
def gf8MulSteps (n : Nat) (a b acc : Byte) : Byte :=
  match n with
  | 0 => acc
  | n + 1 => gf8MulSteps n (gf8Double a) (b >>> 1) (if b.getLsbD 0 then acc ^^^ a else acc)

/-- Product in GF(2^8) (R34). -/
def gf8Mul (a b : Byte) : Byte := gf8MulSteps 8 a b 0

/-- Power in GF(2^8). -/
def gf8Pow (a : Byte) (n : Nat) : Byte :=
  match n with
  | 0 => 1
  | n + 1 => gf8Mul a (gf8Pow a n)

/-- Inverse in GF(2^8), a^254; 0 has inverse 0 (R251). -/
def gf8Inv (a : Byte) : Byte := gf8Pow a 254

/-- Product in GF(2^16) = GF(2^8)[y]/(y² + y + 0x20) (R34). -/
def gf16Mul (u v : BitVec 16) : BitVec 16 :=
  let ua := u.truncate 8
  let ub := (u >>> 8).truncate 8
  let va := v.truncate 8
  let vb := (v >>> 8).truncate 8
  let t := gf8Mul ub vb
  let a := gf8Mul ua va ^^^ gf8Mul 0x20 t
  let b := gf8Mul ua vb ^^^ gf8Mul ub va ^^^ t
  b ++ a

/-- One syndrome by Horner's rule in byte order (R35). -/
def syndrome (lam : BitVec 16) (span : List Byte) : BitVec 16 :=
  span.foldl (fun s b => gf16Mul s lam ^^^ b.setWidth 16) 0

/-- The seal of 256 bytes (R35, R36). -/
def sealOf (span : List Byte) : Word :=
  syndrome 0x0154 span ++ syndrome 0x2120 span ++ syndrome 0x0120 span ++ syndrome 0x0100 span

/-- Byte `i` of a word, least significant first. -/
def wordByte (w : Word) (i : Nat) : Byte := (w >>> (8 * i)).truncate 8

/-- The eight bytes of a word, least significant first. -/
def wordBytes (w : Word) : List Byte := (List.range 8).map (wordByte w)

/-- The number whose little-endian bytes are given. -/
def natOfBytes (l : List Byte) : Nat :=
  match l with
  | [] => 0
  | b :: r => b.toNat + 256 * natOfBytes r

/-- The `n` little-endian bytes of a number. -/
def bytesOfNat (n v : Nat) : List Byte :=
  match n with
  | 0 => []
  | n + 1 => BitVec.ofNat 8 v :: bytesOfNat n (v / 256)

/-- The word of up to eight little-endian bytes. -/
def wordOfBytes (l : List Byte) : Word := BitVec.ofNat 64 (natOfBytes l)

/-- The bytes a seal covers in a word: an UNINIT word counts as zero (R32). -/
def sealBytes (t : TWord) : List Byte :=
  if t.tag = .uninit then wordBytes 0 else wordBytes t.data

/-- The seal of a span of words (R32, R35). -/
def sealOfWords (ws : List TWord) : Word := sealOf (ws.flatMap sealBytes)

/-- The seal after the words change from `old` to `new` (R41): the old seal plus the seal of the difference. -/
def sealUpdate (sl : Word) (old new : List TWord) : Word :=
  sl ^^^ sealOf (List.zipWith (fun a b => a ^^^ b) (old.flatMap sealBytes) (new.flatMap sealBytes))

/-- A seal multiplied by a byte (R39). -/
def sealScale (c : Byte) (sl : Word) : Word :=
  wordOfBytes ((wordBytes sl).map (gf8Mul c))

end Sys2Proof.Machine
end

