-- ==== Sys2Proof/Machine/Ops.lean ====
section
/-! DEFINITION. The named operations the meanings share: dictionary values and counters, memory, the machine's outputs,
interrupt sources, the fault log, and taking an exception on a Charger core. -/

namespace Sys2Proof.Machine

/-- What a meaning answers. -/
abbrev Answer := Host.Outcome State Fault Refusal

/-! ## Small helpers -/

/-- Bit `i` of a number. -/
def natBit (n i : Nat) : Bool := n.testBit i

/-- Bits [lo + w − 1 : lo] of a number. -/
def natField (n lo w : Nat) : Nat := n / 2 ^ lo % 2 ^ w

/-- The first `n` items, padded with `d`. -/
def takePad {α : Type} (n : Nat) (d : α) (l : List α) : List α :=
  (List.range n).map (fun i => l.getD i d)

/-- Items of `l` in ascending order, each once. -/
def sortNat (l : List Nat) : List Nat := (l.eraseDups).mergeSort (· ≤ ·)

/-! ## Canonical tables: keys rise, and no entry equals what an unlisted key reads as -/

/-- Store `v` at key `k` in a table that reads `d` where it lists nothing, keeping its canonical form. -/
def canonSet {α : Type} [DecidableEq α] (d : α) (t : List (Nat × α)) (k : Nat) (v : α) : List (Nat × α) :=
  match t with
  | [] => if v = d then [] else [(k, v)]
  | (j, w) :: r =>
    if k < j then (if v = d then (j, w) :: r else (k, v) :: (j, w) :: r)
    else if k = j then (if v = d then r else (k, v) :: r)
    else (j, w) :: canonSet d r k v

/-- Whether every key of a table is above `b`, the keys rise and no value is the default `d`. -/
def canonAbove {α : Type} [DecidableEq α] (d : α) (b : Option Nat) (t : List (Nat × α)) : Bool :=
  match t with
  | [] => true
  | (k, v) :: r => (match b with | none => true | some j => decide (j < k)) && decide (v ≠ d) && canonAbove d (some k) r

/-- The canonical form of a table. -/
def canon {α : Type} [DecidableEq α] (d : α) (t : List (Nat × α)) : Bool := canonAbove d none t

/-! ## Memory -/

/-- The byte at a physical address. -/
def Memory.byteAt (m : Memory) (a : Nat) : Byte := Tbl.get m.bytes a 0

/-- Memory with byte `v` at address `a`. -/
def Memory.setByte (m : Memory) (a : Nat) (v : Byte) : Memory := { m with bytes := canonSet 0 m.bytes a v }

/-- The tag of word `w` (an address divided by 8). -/
def Memory.tagAt (m : Memory) (w : Nat) : Tag := Tbl.get m.tags w .uninit

/-- Memory with tag `t` on word `w`. -/
def Memory.setTag (m : Memory) (w : Nat) (t : Tag) : Memory := { m with tags := canonSet .uninit m.tags w t }

/-- The stored seal of span `n` (an address divided by 256). -/
def Memory.sealAt (m : Memory) (n : Nat) : Word := Tbl.get m.seals n 0

/-- Memory with seal `v` on span `n`. -/
def Memory.setSeal (m : Memory) (n : Nat) (v : Word) : Memory := { m with seals := canonSet 0 m.seals n v }

/-- The canonical form of memory: every list rises and lists no default. -/
def Memory.wf (m : Memory) : Bool := canon 0 m.bytes && canon .uninit m.tags && canon 0 m.seals

/-- Memory with consecutive bytes stored from address `a`. -/
def Memory.setBytes (m : Memory) (a : Nat) (l : List Byte) : Memory :=
  match l with
  | [] => m
  | b :: r => (m.setByte a b).setBytes (a + 1) r

/-- `n` bytes from address `a`. -/
def Memory.bytesAt (m : Memory) (a n : Nat) : List Byte := (List.range n).map (fun i => m.byteAt (a + i))

/-- Word `w` with its tag. -/
def Memory.wordAt (m : Memory) (w : Nat) : TWord := ⟨wordOfBytes (m.bytesAt (8 * w) 8), m.tagAt w⟩

/-- Memory with word `w` and its tag replaced (R222). -/
def Memory.setWord (m : Memory) (w : Nat) (t : TWord) : Memory := (m.setBytes (8 * w) (wordBytes t.data)).setTag w t.tag

/-- `n` words from word `w`. -/
def Memory.wordsAt (m : Memory) (w n : Nat) : List TWord := (List.range n).map (fun i => m.wordAt (w + i))

/-- Memory with consecutive words stored from word `w`. -/
def Memory.setWords (m : Memory) (w : Nat) (l : List TWord) : Memory :=
  match l with
  | [] => m
  | t :: r => (m.setWord w t).setWords (w + 1) r

/-! ## Free values and outputs -/

/-- The next free value (log entry 2). -/
def freeValue (s : State) : Word := Config.free s.free

/-- The state after one free value has been taken. -/
def State.took (s : State) : State := { s with free := s.free + 1 }

/-- Put something out at an interface. -/
def emit (o : Out) (s : State) : State := { s with out := o :: s.out }

/-! ## Event counters of the blocks that are no cores (R510–R514) -/

def ctrKey (block i : Nat) : Nat := 8 * block + i
def State.counter (s : State) (block i : Nat) : Counter := Tbl.get s.pmu.counters (ctrKey block i) {}
def State.setCounter (s : State) (block i : Nat) (c : Counter) : State :=
  { s with pmu := { s.pmu with counters := s.pmu.counters.set (ctrKey block i) c } }

/-- How many counters a block has (R510); 0 for a reserved block. -/
def blockCounters (b : Nat) : Nat :=
  if b ≤ 0x07F then 8 else if b ≤ 0x107 then 4 else if b ≤ 0x117 then 4 else if b ≤ 0x11F then 4
  else if b ≤ 0x13F then 2 else if b ≤ 0x143 then 4 else if b ≤ 0x145 then 4 else 0

def selEvent (c : Counter) : Nat := natField c.sel.toNat 0 12
def selThresh (c : Counter) : Nat := natField c.sel.toNat 12 8
def selSample (c : Counter) : Bool := c.sel.getLsbD 25
def selEn (c : Counter) : Bool := c.sel.getLsbD 26

/-- Whether a counter counts an event now (R511, R512, R517): enabled, selected, without a threshold, at a level its mask names. -/
def counts (s : State) (c : Counter) (event : Nat) (pl : Option Nat) : Bool :=
  !s.pmu.freeze && selEn c && decide (selEvent c = event) && decide (selThresh c = 0) &&
    (match pl with | some k => c.sel.getLsbD (22 + k) | none => true)

/-- The highest of a block's plain event codes (R513). -/
def lastEvent (b : Nat) : Nat :=
  if b ≤ 0x07F then 0x0D else if b ≤ 0x117 then 4 else if b ≤ 0x13F then 3 else 4

/-- The occupancy events of a block (R513). -/
def occEvent (b e : Nat) : Bool :=
  if b ≤ 0x07F then decide (e = 0x10) || decide (e = 0x11) else decide (b ≤ 0x11F) && decide (e = 0x10)

/-- Whether what a counter counts hangs on time, which the model does not hold (R512–R514): an occupancy, core cycles, work on any path, or
an event under a threshold. -/
def timed (b : Nat) (c : Counter) : Bool :=
  let e := selEvent c
  if occEvent b e then true
  else if 1 ≤ e ∧ e ≤ lastEvent b then decide (selThresh c ≠ 0) || (decide (b ≤ 0x07F) && [0x02, 0x05, 0x0D].contains e)
  else false

/-- Whether a counter that hangs on time runs now. -/
def ticks (s : State) (b : Nat) (c : Counter) (pl : Option Nat) : Bool :=
  !s.pmu.freeze && selEn c && timed b c && (match pl with | some k => c.sel.getLsbD (22 + k) | none => true)

/-- Add `n` events to counter `i` of an uncore block, which may wrap and raises nothing; one that hangs on time grows by a free value
(log entry 158). -/
def addUncore (block i event n : Nat) (s : State) : State :=
  let c := s.counter block i
  let put (v : Nat) (t : State) : State :=
    t.setCounter block i { c with value := BitVec.ofNat 48 v, ovf := c.ovf || decide (2 ^ 48 ≤ v) }
  if ticks s block c none then put (c.value.toNat + (freeValue s).toNat % 2 ^ 48) (State.took s)
  else if counts s c event none then put (c.value.toNat + n) s
  else s

/-- Count `n` events in every counter of an uncore block that selects them (R513). -/
def countUncore (block event n : Nat) (s : State) : State :=
  if s.pmu.counters.isEmpty then s
  else (List.range (blockCounters block)).foldl (fun t i => addUncore block i event n t) s

/-- Count a TLP or another event of a host link (R513). -/
def countLink (l event n : Nat) (s : State) : State := countUncore (0x140 + l) event n s

/-- Whether a port is bifurcated since bring-up (R364). -/
def bifurcated (s : State) (p : Nat) : Bool := s.host.bifurcate.getLsbD p

/-- The link that presents a VF (R366). -/
def vfLink (s : State) (p v : Nat) : Nat := if bifurcated s p ∧ 128 < v then 2 * p + 1 else 2 * p

/-- The link of a function (R366). -/
def fnLink (s : State) (p fn : Nat) : Nat := if fn = 0 then 2 * p else vfLink s p fn

/-- Send a TLP on a host link, which counts it (R513). -/
def emitTlp (l : Nat) (o : Out) (s : State) : State := emit o (countLink l 2 1 s)

/-! ## Dictionary values -/

/-- The key of an entry. -/
def odKey (idx sub : Nat) : Nat := 256 * idx + sub

/-- The stored value of an entry, or its default. -/
def odGet (s : State) (idx sub : Nat) : Nat :=
  Tbl.get s.od (odKey idx sub) (match odEntry idx sub with | some e => e.dflt | none => 0)

/-- Store a value in an entry. -/
def odSet (idx sub v : Nat) (s : State) : State := { s with od := s.od.set (odKey idx sub) v }

/-- Add one to a counter that saturates at 0xFFFF_FFFF. -/
def odBump (idx sub : Nat) (s : State) : State := odSet idx sub (min 0xFFFFFFFF (odGet s idx sub + 1)) s

/-- Add `n` to a saturating counter. -/
def odAdd (idx sub n : Nat) (s : State) : State := odSet idx sub (min 0xFFFFFFFF (odGet s idx sub + n)) s

/-- A saddlebag value has been written and is not yet in flash (R467). -/
def noteBag (idx sub : Nat) (s : State) : State :=
  let k := odKey idx sub
  { s with bagPending := if s.bagPending.contains k then s.bagPending else s.bagPending ++ [k] }

/-- The index under which the saddlebag keeps a source's word, each word apart (R405), and the source of such a key. -/
def srcIdx (i : Nat) : Nat := 0x9000 + 0x10000 * (i + 1)
def bagSource (k : Nat) : Nat := (k / 256 - 0x9000) / 0x10000 - 1

/-- The number of an access path: class F, PF0 of each port, CAN, the halter port, each VF (R487). -/
def pathNum (p : Path) : Nat :=
  match p with
  | .fw => 0
  | .pf h => 1 + h.val
  | .can => 3
  | .halter => 4
  | .vf h n => 5 + 257 * h.val + n.val

/-- The master class of a path (R464). -/
def pathClass (p : Path) : MasterClass :=
  match p with
  | .fw => .f
  | .pf _ => .h
  | .can => .s
  | .halter => .s
  | .vf _ _ => .t

/-- The key of a path's own selection or result. -/
def pathKey (p : Path) (idx sub : Nat) : Nat := pathNum p * 16777216 + odKey idx sub

/-- A path's own selection or result (R487). -/
def pathGet (s : State) (p : Path) (idx sub : Nat) : Nat := Tbl.get s.perPath (pathKey p idx sub) 0

/-- Set a path's own selection or result. -/
def pathSet (p : Path) (idx sub v : Nat) (s : State) : State :=
  { s with perPath := s.perPath.set (pathKey p idx sub) v }

/-- Result codes that entries share (R86, R345, R391). -/
def resOk : Nat := 0
def resBusy : Nat := 1
def resDenied : Nat := 2
def resExists : Nat := 3

/-! ## Accessors of the tables of units -/

def State.core (s : State) (c : Nat) : CoreSt := Tbl.get s.cores c {}
def State.setCore (s : State) (c : Nat) (x : CoreSt) : State := { s with cores := s.cores.set c x }
def State.stall (s : State) (n : Nat) : StallSt :=
  Tbl.get s.stalls n (if n = 0 then { state := .live } else {})
def State.setStall (s : State) (n : Nat) (x : StallSt) : State := { s with stalls := s.stalls.set n x }
/-- The key of a function. -/
def fnKey (p fn : Nat) : Nat := 257 * p + fn
def State.fn (s : State) (p fn : Nat) : HFn := Tbl.get s.host.fns (fnKey p fn) {}
def State.setFn (s : State) (p fn : Nat) (x : HFn) : State :=
  { s with host := { s.host with fns := s.host.fns.set (fnKey p fn) x } }
def State.link (s : State) (l : Nat) : Link := Tbl.get s.links l {}
def State.setLink (s : State) (l : Nat) (x : Link) : State := { s with links := s.links.set l x }
def State.port (s : State) (p : Nat) : Port := Tbl.get s.ports p {}
def State.setPort (s : State) (p : Nat) (x : Port) : State := { s with ports := s.ports.set p x }
def State.shelf (s : State) (h : Nat) : Shelf := Tbl.get s.shelves h {}
def State.setShelf (s : State) (h : Nat) (x : Shelf) : State := { s with shelves := s.shelves.set h x }
def State.engine (s : State) (e : Nat) : Engine := Tbl.get s.eng.engines e {}
def State.setEngine (s : State) (e : Nat) (x : Engine) : State :=
  { s with eng := { s.eng with engines := s.eng.engines.set e x } }
def State.ctx (s : State) (c : Nat) : Ctx := Tbl.get s.eng.ctxs c {}
def State.setCtx (s : State) (c : Nat) (x : Ctx) : State :=
  { s with eng := { s.eng with ctxs := s.eng.ctxs.set c x } }
def State.channel (s : State) (c : Nat) : Channel := Tbl.get s.mc.channels c {}
def State.setChannel (s : State) (c : Nat) (x : Channel) : State :=
  { s with mc := { s.mc with channels := s.mc.channels.set c x } }
def State.ctl (s : State) (l : Nat) : HostCtl := Tbl.get s.host.ctl l {}
def State.setCtl (s : State) (l : Nat) (x : HostCtl) : State :=
  { s with host := { s.host with ctl := s.host.ctl.set l x } }
def State.tile (s : State) (t : Nat) : Tile := Tbl.get s.coh.tiles t {}
def State.setTile (s : State) (t : Nat) (x : Tile) : State :=
  { s with coh := { s.coh with tiles := s.coh.tiles.set t x } }
def State.slice (s : State) (k : Nat) : Slice := Tbl.get s.coh.slices k {}
def State.setSlice (s : State) (k : Nat) (x : Slice) : State :=
  { s with coh := { s.coh with slices := s.coh.slices.set k x } }
def State.reinOf (s : State) (g : Nat) : ReinSt := Tbl.get s.rein g {}
def State.setRein (s : State) (g : Nat) (x : ReinSt) : State := { s with rein := s.rein.set g x }
def State.corePwr (s : State) (c : Nat) : CorePwr := Tbl.get s.pwr.cores c {}
def State.setCorePwr (s : State) (c : Nat) (x : CorePwr) : State :=
  { s with pwr := { s.pwr with cores := s.pwr.cores.set c x } }

/-! ## Power domains (R418) -/

/-- The state of a domain; an unlisted domain is up. -/
def domState (s : State) (d : Domain) : DomState :=
  match s.pwr.domains.find? (fun x => decide (x.1 = d)) with
  | some x => x.2
  | none => .up

/-- Set the state of a domain. -/
def setDom (d : Domain) (v : DomState) (s : State) : State :=
  { s with pwr := { s.pwr with domains := (d, v) :: s.pwr.domains.filter (fun x => decide (x.1 ≠ d)) } }

/-! ## Stops, tiles and cores (R7, R143, R262, R445) -/

/-- The stops of the engine tiles W.1.3, W.3.6, W.5.1, W.7.4, E.1.4, E.3.1, E.5.6, E.7.3 (R141, R143). -/
def engineStops : List Nat := [11, 30, 41, 60, 84, 97, 118, 131]

/-- The stop number of core tile `t`: the `t`-th tile stop that is no engine tile. -/
def tileStop (t : Nat) : Nat :=
  ((List.range 144).filter (fun n => !engineStops.contains n)).getD t 0

/-- The core tile at a stop, where it holds one. -/
def stopTile (n : Nat) : Option Nat := (List.range 136).find? (fun t => decide (tileStop t = n))

/-- The stop onto which logical core `k` maps at first bring-up: ascending stop order over the core tiles that are no spares (R445). -/
def firstCoreStop (k : Nat) : Nat :=
  ((List.range 144).filter (fun n => !engineStops.contains n && !([68, 69, 70, 71, 140, 141, 142, 143].contains n))).getD k 0

/-- The stop of logical core `k` (R7, R445). -/
def coreStop (s : State) (k : Nat) : Nat := Tbl.get s.far.coreMap k (firstCoreStop k)

/-- The core tile of logical core `k`. -/
def coreTile (s : State) (k : Nat) : Nat := (stopTile (coreStop s k)).getD 0

/-- The stall that a core is running. -/
def coreStall (s : State) (c : Nat) : Nat := (s.core c).stall

/-! ## The bits of CORES and SHARED_CORES (R345) -/

def stallCores (s : State) (n : Nat) : Nat := odGet s (0x4100 + n) 0x06
def stallShared (s : State) (n : Nat) : Nat := odGet s (0x4100 + n) 0x07

/-- The tenant that holds core `c` in CORES, or that it has still to leave (R350, R394); 0 where there is none. -/
def coreOwner (s : State) (c : Nat) : Nat :=
  ((List.range 256).map (· + 1)).find? (fun n =>
    (natBit (stallCores s n) c && decide ((s.stall n).state ≠ .free)) || (s.stall n).leaving.getLsbD c) |>.getD 0

/-- The VF bound to stall `n`: port and function (R345). -/
def stallVf (s : State) (n : Nat) : Option (Nat × Nat) :=
  let v := odGet s (0x4100 + n) 0x09
  if n = 0 ∨ natField v 0 9 = 0 then none else some (natField v 15 1, natField v 0 9)

/-- The stall a VF is bound to: one that exists before one that is FREE (R343, R348). -/
def vfStall (s : State) (p fn : Nat) : Option Nat :=
  let bound (n : Nat) : Bool := decide (stallVf s n = some (p, fn))
  match ((List.range 256).map (· + 1)).find? (fun n => decide ((s.stall n).state ≠ .free) && bound n) with
  | some n => some n
  | none => ((List.range 256).map (· + 1)).find? bound

/-! ## Messages to the host (R379, R380) -/

/-- Whether MSI-X is enabled and not masked as a whole: bits 31 and 30 of the dword at 0x050 (R368, PCIe). -/
def msixEnabled (f : HFn) : Bool := (Tbl.get f.cfg 0x050 0).getLsbD 31
def msixFnMask (f : HFn) : Bool := (Tbl.get f.cfg 0x050 0).getLsbD 30

/-- Whether a function's messages are withheld: it drains, is fenced, or everything has stopped (R386, R388, R389, R404). -/
def fnSilent (s : State) (f : HFn) : Bool :=
  f.drain.isSome || f.d3hot || s.host.fatal

/-- Whether a TLP is a posted write. -/
def isPosted (o : Out) : Bool :=
  match o with
  | .hostWrite _ _ _ _ _ _ _ => true
  | .msix _ _ _ _ => true
  | _ => false

/-- What marks a held TLP that waits for no translation of its own. -/
def noPage : Nat := 2 ^ 52

/-- A posted write of a function that must not pass its data writes goes out behind those that wait for a translation (R23, R77). -/
def emitOrdered (p fn : Nat) (o : Out) (s : State) : State :=
  if s.host.heldOut.any (fun x => decide (x.1 = fnKey p fn) && isPosted x.2.2) then
    { s with host := { s.host with heldOut := s.host.heldOut ++ [(fnKey p fn, noPage, o)] } }
  else emitTlp (fnLink s p fn) o s

/-- What waited only for earlier posted writes of its function goes out once they have. -/
def releaseOrdered (k : Nat) (s : State) : State :=
  let r := s.host.heldOut.foldl (fun (a : Bool × List (Nat × Nat × Out) × List Out) x =>
    if x.1 ≠ k then (a.1, a.2.1 ++ [x], a.2.2)
    else if x.2.1 = noPage ∧ a.1 = false then (false, a.2.1, a.2.2 ++ [x.2.2])
    else (a.1 || isPosted x.2.2, a.2.1 ++ [x], a.2.2)) (false, [], [])
  r.2.2.foldl (fun t o => emitTlp (fnLink t (k / 257) (k % 257)) o t) { s with host := { s.host with heldOut := r.2.1 } }

/-- Send a function's MSI-X message for a vector; a masked vector sets its pending bit (R380). -/
def sendMsix (p fn v : Nat) (s : State) : State :=
  let f := s.fn p fn
  let e := Tbl.get f.msix v {}
  if fnSilent s f || !msixEnabled f then s
  else if e.mask || msixFnMask f then s.setFn p fn { f with pba := f.pba ||| (1 <<< v) }
  else emitOrdered p fn (.msix p fn e.addr e.data) s

/-! ## Interrupt sources (R393–R399) -/

/-- A source number that R393 marks reserved. -/
def srcReserved (n : Nat) : Bool :=
  (0x201 ≤ n && n ≤ 0x2FF) || (0x401 ≤ n && n ≤ 0x4FF) || (0x52C ≤ n && n ≤ 0x52F) || (0x546 ≤ n && n ≤ 0x5FF) ||
  0x800 ≤ n

/-- The configuration word a source holds at first bring-up (R395). -/
def srcDefault (n : Nat) : Word :=
  if 0x540 ≤ n ∧ n ≤ 0x545 then
    (if n = 0x542 then 0x0000023F else 0x00000231)
  else if 0x100 ≤ n ∧ n ≤ 0x200 then 0x9
  else 0

def State.source (s : State) (n : Nat) : Source := Tbl.get s.irq n {}
def State.setSource (s : State) (n : Nat) (x : Source) : State := { s with irq := s.irq.set n x }

/-- The configuration word in force. -/
def srcCfg (s : State) (n : Nat) : Word := (s.source n).cfg.getD (srcDefault n)

def srcEn (w : Word) : Bool := w.getLsbD 0
def srcLevel (w : Word) : Nat := natField w.toNat 1 4
def srcKind (w : Word) : Nat := natField w.toNat 5 2
def srcOwnerField (w : Word) : Nat := natField w.toNat 32 9
def srcCoal (w : Word) : Nat := natField w.toNat 41 8
def srcTime (w : Word) : Nat := natField w.toNat 49 14

/-- The owner stall of a source (R393, R394). -/
def srcOwner (s : State) (n : Nat) : Nat :=
  if n < 0x80 then coreOwner s n
  else if n < 0x100 then coreOwner s (n - 0x80)
  else if n ≤ 0x200 then n - 0x100
  else if 0x300 ≤ n ∧ n ≤ 0x400 then n - 0x300
  else if 0x540 ≤ n then 0
  else srcOwnerField (srcCfg s n)

/-- The logical core a source targets, where it targets one (R393, R395). -/
def srcCore (s : State) (n : Nat) : Option Nat :=
  if n < 0x80 then some n
  else if n < 0x100 then some (n - 0x80)
  else if n ≤ 0x200 then none
  else if srcKind (srcCfg s n) = 0 then some (natField (srcCfg s n).toNat 8 7)
  else none

/-- The Groom pair a source targets (R395); code 2 is the serving pair. -/
def srcPair (s : State) (n : Nat) : Option Nat :=
  if n ≤ 0x200 then none
  else if srcKind (srcCfg s n) = 1 then
    (match natField (srcCfg s n).toNat 8 2 with
     | 0 => some 0
     | 1 => some 1
     | _ => if s.far.pair0 = .serving then some 0 else if s.far.pair1 = .serving then some 1 else none)
  else none

/-- The host vector a source targets: port, function, vector (R395). -/
def srcHost (s : State) (n : Nat) : Option (Nat × Nat × Nat) :=
  let w := (srcCfg s n).toNat
  if n ≤ 0x200 then none
  else if srcKind (srcCfg s n) = 2 then some (natField w 8 1, natField w 9 9, natField w 18 7)
  else none

/-- Whether another signalled source names the same PF0 vector (R404). -/
def vectorBusy (s : State) (n : Nat) (t : Nat × Nat × Nat) : Bool :=
  s.irq.any (fun x => decide (x.1 ≠ n) && x.2.signalled && decide (srcHost s x.1 = some t))

/-- Clear the count, SATURATED and the signalled state (R397). -/
def clearSource (n : Nat) (s : State) : State :=
  let src := s.source n
  s.setSource n { src with count := 0, saturated := false, signalled := false }

/-- The first access to a domain that is down or in retention wakes it (R418). -/
def wakeDom (d : Domain) (s : State) : State :=
  if domState s d = .down ∨ domState s d = .retention then setDom d .waking s else s

/-- Wake the domain of a core's tile. -/
def wakeCore (k : Nat) (s : State) : State :=
  if h : coreTile s k < 136 then wakeDom (.coreTile ⟨coreTile s k, h⟩) s else s

/-- Wake the cores a signalled source targets, where their domains are down (R402). -/
def wakeTarget (n : Nat) (s : State) : State :=
  if 0x100 ≤ n ∧ n ≤ 0x200 then
    ((List.range 128).filter (fun k => (s.source n).inbox.getLsbD k)).foldl (fun t k => wakeCore k t) s
  else match srcCore s n with
    | none => s
    | some k => wakeCore k s

/-- A source becomes signalled (R397): a host target is sent its message, and a VF's source is acknowledged by that (R404). -/
def signalQuiet (n : Nat) (s : State) : State :=
  let src := s.source n
  if src.signalled then s else
  let s1 := s.setSource n { src with signalled := true }
  match srcHost s1 n with
  | none => wakeTarget n s1
  | some (p, fn, v) =>
    if fnSilent s1 (s1.fn p fn) || (s1.fn p fn).fenced then s1
    else if fn = 0 then (if vectorBusy s1 n (p, fn, v) then s1 else sendMsix p fn v s1)
    else clearSource n (sendMsix p fn v s1)

/-- Whether the coalescing conditions hold now (R397): the count, or no delay at all. -/
def coalesced (w : Word) (count : Nat) : Bool :=
  decide (0 < count) && (decide (srcCoal w ≤ count) || decide (srcTime w = 0))

/-- Add one event to a source's count (R397). -/
def countSource (n : Nat) (s : State) : State :=
  let src := s.source n
  if src.count < 255 then s.setSource n { src with count := src.count + 1 }
  else if src.saturated then s
  else odBump 0x9000 0x06 (s.setSource n { src with saturated := true })

/-! ## Wealar frames (R469, R470, R473) -/

/-- A frame's data padded with zeros to a CAN FD length (R470). -/
def canPad (l : List Byte) : List Byte :=
  takePad (([0, 1, 2, 3, 4, 5, 6, 7, 8, 12, 16, 20, 24, 32, 48].find? (fun n => decide (l.length ≤ n))).getD 64) 0 l

/-- A Wealar identifier (R469). -/
def wealarId (prio service dst src tid : Nat) (resp : Bool) : BitVec 29 :=
  BitVec.ofNat 29 (tid % 64 + src % 128 * 2 ^ 6 + dst % 128 * 2 ^ 13 + service % 32 * 2 ^ 20 + (if resp then 2 ^ 25 else 0) + prio % 8 * 2 ^ 26)

/-- The segments of a body (R470). -/
def wealarFrames (body : List Byte) : List (List Byte) :=
  if body.length ≤ 63 then [0 :: body]
  else
    let n := (body.length + 1) / 63
    (1 :: (bytesOfNat 2 body.length ++ body.take 61)) ::
      (List.range n).map (fun i => BitVec.ofNat 8 ((if i + 1 = n then 3 else 2) + 4 * ((i + 1) % 64)) :: (body.drop (61 + 63 * i)).take 63)

/-- The side-band setting in force: STRAP_SB_DEFAULT makes it the default until the entry is written (R477, R527). -/
def sideVal (s : State) (sub : Nat) : Nat :=
  if s.boot.sbDefault.contains sub then (match odEntry 0x1000 sub with | some e => e.dflt | none => 0) else odGet s 0x1000 sub

/-- NODE_ID (R477). -/
def nodeId (s : State) : Nat := sideVal s 0x10

/-- Whether the CAN controller sends now: a pair serves, its settings are loaded, the bus is not off, and the device is not in DEEP or OFF
(R436, R468, R473, R498). -/
def canSends (s : State) : Bool :=
  !s.side.busOff && decide (s.pwr.state ≠ .deep) && decide (s.pwr.state ≠ .off) &&
    (decide (s.far.pair0 = .serving) || decide (s.far.pair1 = .serving)) &&
    decide (s.boot.phase ≠ .reset) && decide (s.boot.phase ≠ .rom) && decide (s.boot.phase ≠ .load)

/-- Put one frame on the bus and count it (R477). -/
def canOut (id : BitVec 29) (data : List Byte) (s : State) : State := odBump 0x1000 0x19 (emit (.can id data) s)

/-- Send a frame, or keep it until the controller sends again. -/
def sendFrame (id : BitVec 29) (data : List Byte) (s : State) : State :=
  if canSends s then canOut id (canPad data) s
  else { s with side := { s.side with txq := s.side.txq ++ [(id, canPad data)] } }

/-- Send an EVENT: PRIO 1, 0 for PWRFAIL_N (R469, R473); its TID is free (log entry 2). -/
def eventOut (body : List Byte) (s : State) : State :=
  let prio := if body.take 2 = bytesOfNat 2 0x542 then 0 else 1
  canOut (wealarId prio 0x10 (sideVal s 0x15) (nodeId s) ((freeValue s).toNat % 64) false) (canPad (0 :: body)) (State.took s)

/-- Send what waits for the bus: responses, then events, oldest first. -/
def pumpCan (s : State) : State :=
  if canSends s then
    let s1 := s.side.txq.foldl (fun t x => canOut x.1 x.2 t) { s with side := { s.side with txq := [], events := [] } }
    s.side.events.foldl (fun t b => eventOut b t) s1
  else s

/-- Queue the Wealar EVENT of a raise that EVENT_MASK selects (R473). Every event generated takes an EVSEQ; a full queue drops
its oldest event. -/
def queueEvent (n : Nat) (sel : Bool) (info : List Byte) (s : State) : State :=
  let sd := s.side
  let seq := sd.evseq + 1
  let body := bytesOfNat 2 n ++ bytesOfNat 2 seq.toNat ++ takePad 8 0 info
  let q := if sel then (if sd.events.length < 16 then sd.events ++ [body] else sd.events.drop 1 ++ [body]) else sd.events
  pumpCan { s with side := { sd with evseq := seq, events := q } }

/-- The bit of EVENT_MASK that selects a source (R477); 0x540 has one for corrected records and one for the others. -/
def eventBit (n : Nat) (corrected : Bool) : Option Nat :=
  if n = 0x540 then some (if corrected then 1 else 0)
  else if n = 0x541 then some 2
  else if n = 0x542 then some 3
  else if n = 0x543 then some 4
  else none

/-- The Wealar event of a raise, for the sources that have one (R473). -/
def eventOf (n : Nat) (corrected : Bool) (info : List Byte) (s : State) : State :=
  match eventBit n corrected with
  | none => s
  | some b => queueEvent n (natBit (sideVal s 0x14) b) info s

/-- One event of a source: counted, and signalled by `sig` where the conditions hold (R397). -/
def raiseBy (sig : Nat → State → State) (n : Nat) (corrected : Bool) (info : List Byte) (s : State) : State :=
  let s1 := countSource n s
  eventOf n corrected info (if srcEn (srcCfg s1 n) && coalesced (srcCfg s1 n) (s1.source n).count then sig n s1 else s1)

/-! ## Wake events (R414, R417, R420) -/

/-- The code of a power state (R413). -/
def PowerState.code (x : PowerState) : Nat := match x with | .run => 0 | .idle => 1 | .sleep => 2 | .deep => 3 | .off => 4

/-- A transition between power states raises 0x541 (R414). -/
def setPower (x : PowerState) (s : State) : State :=
  raiseBy signalQuiet 0x541 false [BitVec.ofNat 8 x.code, BitVec.ofNat 8 (odGet s 0x2000 0x09)] { s with pwr := { s.pwr with state := x } }

/-- Whether a source ends DEEP (R420); the halter's POWER_REQUEST comes with its own address match. -/
def endsDeep (s : State) (cause : Nat) : Bool :=
  [4, 5, 6, 8].contains cause || (decide (cause = 3) && natBit (odGet s 0x2000 0x0A) 3)

/-- An entry into a power state is aborted, and counted with the cause (R417, R431). -/
def abortEntry (x : PowerState) (cause : Nat) (s : State) : State :=
  odSet (0x2010 + x.code) 0x0D (256 + cause) (odBump (0x2010 + x.code) 0x0C
    { s with pwr := { s.pwr with entering := none, quietWait := [] } })

/-- A wake event (R417, R420): it aborts an entry, ends SLEEP, or starts to end DEEP. -/
def wakeDevice (cause : Nat) (s : State) : State :=
  match s.pwr.entering with
  | some x => abortEntry x cause s
  | none =>
    match s.pwr.state with
    | .sleep => setPower .idle (odSet 0x2000 0x09 cause s)
    | .deep => if s.pwr.deepExit.isNone && endsDeep s cause then { s with pwr := { s.pwr with deepExit := some cause } } else s
    | _ => s

/-- A source becomes signalled; one that targets a core or a Groom pair is a wake event (R420). -/
def signalSource (n : Nat) (s : State) : State :=
  if (s.source n).signalled then s
  else
    let s1 := signalQuiet n s
    if (srcHost s n).isSome then s1 else wakeDevice 7 s1

/-- Evaluate the coalescing conditions of a source (R397). -/
def evalSource (n : Nat) (s : State) : State :=
  if srcEn (srcCfg s n) && coalesced (srcCfg s n) (s.source n).count then signalSource n s else s

/-- A raise of a source by hardware (R397), with its Wealar event where it has one (R473). -/
def raiseWith (n : Nat) (corrected : Bool) (info : List Byte) (s : State) : State := raiseBy signalSource n corrected info s

/-- A raise of a source without event contents. -/
def raise (n : Nat) (s : State) : State := raiseWith n false [] s

/-- A set-pending: one raise, signalled at once (R399). -/
def setPending (n : Nat) (s : State) : State :=
  if srcReserved n then s
  else let s1 := countSource n s
       if srcEn (srcCfg s1 n) then signalSource n s1 else s1

/-- Raise the inbox source of a stall on a core (R377, R393). -/
def raiseInbox (n core : Nat) (s : State) : State :=
  let i := 0x100 + n
  let src := s.source i
  raise i (s.setSource i { src with inbox := src.inbox ||| (1 <<< core) })

/-! ## The fault log (R437–R442) -/

/-- What a record names (R439). -/
structure Rec where
  kind : BitVec 8
  cls : BitVec 2
  resource : Nat := 0xF000
  target : Nat := 0xFFFF
  action : Nat := 0
  outcome : Nat := 5
  cause : Nat := 0
  stall : Nat := 0
  detail : Nat := 0
  addr : Nat := 0
deriving DecidableEq, Repr

/-- The RESOURCE code of a type and an index (R439). -/
def resource (ty idx : Nat) : Nat := 4096 * ty + idx

/-- The body of a record of kinds 0x02–0x10 (R439). -/
def recBody (r : Rec) (incident : BitVec 32) (duration : Nat) : BitVec 256 :=
  BitVec.ofNat 256 (r.resource + r.target * 2 ^ 16 + r.action * 2 ^ 32 + r.outcome * 2 ^ 40 + r.cls.toNat * 2 ^ 56 +
    r.cause * 2 ^ 64 + r.stall * 2 ^ 80 + incident.toNat * 2 ^ 96 + (duration % 2 ^ 32) * 2 ^ 128 + r.detail * 2 ^ 160 +
    r.addr * 2 ^ 192)

/-- The next incident number: from 1, wrapping to 1 (R442). -/
def nextIncident (s : State) : BitVec 32 :=
  if s.far.lastIncident = 0xFFFFFFFF then 1 else s.far.lastIncident + 1

/-- The state after an incident number has been allocated; the reserved limit keeps ahead (R442). -/
def allocIncident (s : State) : State :=
  let n := nextIncident s
  let lim := if n.toNat < s.far.incidentLimit.toNat then s.far.incidentLimit else n + 1360
  { s with far := { s.far with lastIncident := n, incidentLimit := lim } }

/-- Entries not yet in the saddlebag. -/
def unsaved (s : State) : Nat := (s.far.log.filter (fun e => !e.saved)).length

/-- The value a register of configuration space takes at reset, where that is not zero (PCIe; R388). -/
def cfgReset (off : Nat) : BitVec 32 :=
  match off with
  | 0x078 => 0x2810
  | 0x10C => 0x62030
  | 0x114 => 0x6000
  | 0x170 => 1
  | _ => 0

/-- What software has written to a register. -/
def cfgKept (f : HFn) (off : Nat) : BitVec 32 := Tbl.get f.cfg off (cfgReset off)

/-- The key of a host link's PF0 (R366). -/
def pfKey (l : Nat) : Nat := if l % 2 = 0 then fnKey (l / 2) 0 else 514 + l / 2

/-- The key of the PF0 whose mask, severity and reporting bits hold for a function: a VF uses those of the PF0 of the link that presents
it (R366; PCIe). -/
def pfOfFn (s : State) (k : Nat) : Nat :=
  if 514 ≤ k then k
  else if s.host.bifurcate.getLsbD (k / 257) ∧ 128 < k % 257 then pfKey (2 * (k / 257) + 1) else pfKey (2 * (k / 257))

/-- How an error is signalled: correctable, non-fatal or fatal (R388, PCIe). -/
inductive ErrSeverity where
  | correctable | nonFatal | fatal
deriving DecidableEq, Repr

/-- The Device Status bit of a severity, which is also its place among the error messages. -/
def ErrSeverity.number : ErrSeverity → Nat
  | .correctable => 0
  | .nonFatal => 1
  | .fatal => 2

/-- Note an error in the Device Status of the function with key `k`, and send its error message where `shown` (the status bit is not
masked) and the PF0's Device Control reports the severity (R388, PCIe; log 155). -/
def errorReport (k : Nat) (sev : ErrSeverity) (shown : Bool) (s : State) : State :=
  let f := Tbl.get s.host.fns k {}
  let pf := Tbl.get s.host.fns (pfOfFn s k) {}
  let s1 := { s with host := { s.host with fns := s.host.fns.set k { f with devSta := f.devSta ||| ((1 : BitVec 4) <<< sev.number) } } }
  if shown && (cfgKept pf 0x078).getLsbD sev.number then emitTlp (fnLink s (k / 257) (k % 257)) (.errorMessage k (BitVec.ofNat 2 sev.number)) s1 else s1

/-- A correctable error: its status bit in AER, and the report (R388, PCIe). -/
def aerCorrected (k bit : Nat) (s : State) : State :=
  let f := Tbl.get s.host.fns k {}
  errorReport k .correctable (!(cfgKept (Tbl.get s.host.fns (pfOfFn s k) {}) 0x114).getLsbD bit)
    { s with host := { s.host with fns := s.host.fns.set k { f with aerCor := f.aerCor ||| ((1 : BitVec 32) <<< bit) } } }

/-- Note an uncorrectable error in the status of a function's AER. -/
def aerNote (k bit : Nat) (s : State) : State :=
  let f := Tbl.get s.host.fns k {}
  { s with host := { s.host with fns := s.host.fns.set k { f with aerUnc := f.aerUnc ||| ((1 : BitVec 32) <<< bit) } } }

/-- An uncorrectable error: its status bit in AER, and the report, fatal where the error is so by its class or by the host's severity
register (R388, PCIe; log 155). -/
def aerUncorrected (k bit : Nat) (fatal : Bool) (s : State) : State :=
  let pf := Tbl.get s.host.fns (pfOfFn s k) {}
  errorReport k (if fatal || (cfgKept pf 0x10C).getLsbD bit then .fatal else .nonFatal) (!(cfgKept pf 0x108).getLsbD bit) (aerNote k bit s)

/-- An uncorrectable error that is reported as advisory non-fatal: its status bit, and Advisory Non-Fatal among the correctable ones
(R382, R388, PCIe). -/
def aerAdvisory (k bit : Nat) (s : State) : State := aerCorrected k 13 (aerNote k bit s)

/-- Signal an error class in AER of the function with key `k` (R9, R388): Corrected Internal Error, or Uncorrectable Internal Error with
its header log, whose severity is fatal for class 3. -/
def aerSignal (k : Nat) (cls : BitVec 2) (incident : BitVec 32) (dw1 : BitVec 32) (s : State) : State :=
  if cls = 0 then aerCorrected k 14 s
  else
    let f := Tbl.get s.host.fns k {}
    aerUncorrected k 22 (decide (cls = 3))
      { s with host := { s.host with fns := s.host.fns.set k { f with hdrLog := [incident, dw1, 0, 0] } } }

/-- The AER signalling of a record (R388): in the VF bound to the stall it names, otherwise in PF0 of both links. -/
def aerRecord (kind : BitVec 8) (cls : BitVec 2) (stall : Nat) (incident : BitVec 32) (s : State) : State :=
  let dw1 := BitVec.ofNat 32 (kind.toNat + cls.toNat * 256 + stall * 1024)
  match stallVf s stall with
  | some (p, fn) => aerSignal (fnKey p fn) cls incident dw1 s
  | none => aerSignal (fnKey 1 0) cls incident dw1 (aerSignal (fnKey 0 0) cls incident dw1 s)

/-- Add an entry to the log (R437, R441): corrected records are limited to 16 in a minute for each key and withheld while more
than 1,024 entries are unsaved. -/
def pushLog (kind : BitVec 8) (cls : BitVec 2) (stall key : Nat) (incident : BitVec 32) (body : BitVec 256) (s : State) : State :=
  let n := Tbl.get s.far.minute key 0
  if cls = 0 ∧ 16 ≤ n then odBump 0x3000 0x07 s
  else if cls = 0 ∧ 1024 < unsaved s then odBump 0x3000 0x08 s
  else
    let seq := s.far.lastSeq + 1
    let lim := if seq.toNat < s.far.seqLimit.toNat then s.far.seqLimit else seq + 1360
    let e : LogEntry := { seq := seq, kind := kind, cls := cls, boot := BitVec.ofNat 16 (odGet s 0x1000 0x08),
                          time := freeValue s, body := body }
    let s1 := (State.took s)
    let s2 := { s1 with far := { s1.far with log := s1.far.log ++ [e], lastSeq := seq, seqLimit := lim,
                                             minute := if cls = 0 then s1.far.minute.set key (n + 1) else s1.far.minute } }
    raiseWith 0x540 (decide (cls = 0)) (bytesOfNat 4 seq.toNat ++ bytesOfNat 4 incident.toNat)
      (aerRecord kind cls stall incident s2)

/-- Make a record of kinds 0x02–0x10 under an incident number (R439). -/
def recordIn (incident : BitVec 32) (r : Rec) (s : State) : State :=
  let d := (freeValue s).toNat
  pushLog r.kind r.cls r.stall r.resource incident (recBody r incident d) (State.took s)

/-- Make a record under a fresh incident number (R442). -/
def record (r : Rec) (s : State) : State := recordIn (nextIncident s) r (allocIncident s)

/-- A deadline record (kind 0x0A): its number in DETAIL (R452). -/
def recordDeadline (number : Nat) (res : Nat) (s : State) : State :=
  record { kind := 0x0A, cls := 0, resource := res, detail := number } s

/-- What a seal record names (R55). -/
structure SealRec where
  point : Nat
  cls : BitVec 2
  poisoned : Bool := false
  repaired : Bool := false
  locKind : Nat
  locator : Nat
  valid : Bool := true
  ctx : Nat := 0
  stall : Nat := 0
  computed : Word := 0
  expected : Word := 0
deriving DecidableEq, Repr

/-- The location group that limits corrected seal records (R441): a port, a channel of the address, or a context. -/
def sealKey (r : SealRec) : Nat :=
  if r.locKind = 1 then 0x10000 + natField r.locator 0 10
  else if r.locKind = 0 then 0x20000 + (natField r.locator 0 4 ^^^ natField r.locator 4 4 ^^^ natField r.locator 12 4 ^^^
    natField r.locator 20 4 ^^^ natField r.locator 28 4 ^^^ natField r.locator 36 4)
  else 0x30000 + r.ctx

/-- The body of a seal record (R55). -/
def sealBody (r : SealRec) (incident : BitVec 32) : BitVec 256 :=
  BitVec.ofNat 256 (r.locator % 2 ^ 56 + r.cls.toNat * 2 ^ 56 + (if r.poisoned then 2 ^ 58 else 0) +
    (if r.repaired then 2 ^ 59 else 0) + r.locKind * 2 ^ 60 + (if r.valid then 2 ^ 63 else 0) + r.ctx * 2 ^ 64 +
    r.stall * 2 ^ 80 + r.point * 2 ^ 92 + incident.toNat * 2 ^ 96 + r.computed.toNat * 2 ^ 128 + r.expected.toNat * 2 ^ 192)

/-- The incident number of a seal record: that of a running repair, otherwise a fresh one (R55; log entry 133). -/
def sealIncident (s : State) : BitVec 32 × State :=
  match s.far.running with
  | r :: _ => (r.incident, s)
  | [] => (nextIncident s, allocIncident s)

/-- Count a seal mismatch and record it (R55, R56); point 0x1 is counted only. -/
def recordSeal (r : SealRec) (s : State) : State :=
  let s1 := odBump 0xA010 r.point s
  if r.point = 1 then s1
  else
    let i := sealIncident s1
    pushLog 0x01 r.cls r.stall (sealKey r) i.1 (sealBody r i.1) i.2

/-! ## The status word of a core and taking an exception (R198, R213–R220) -/

/-- The privilege level in SW (R198, R212); the code 3 acts as 2. -/
def swPl (sw : BitVec 64) : Nat := min 2 (natField sw.toNat 8 2)
def swIe (sw : BitVec 64) : Bool := sw.getLsbD 10
def swExl (sw : BitVec 64) : Bool := sw.getLsbD 11
def swSs (sw : BitVec 64) : Bool := sw.getLsbD 12

/-- Replace bit `i` of a word. -/
def setBit (w : BitVec 64) (i : Nat) (b : Bool) : BitVec 64 :=
  if b then w ||| ((1 : BitVec 64) <<< i) else w &&& ~~~((1 : BitVec 64) <<< i)

/-- Replace the PL field of SW. -/
def setPl (sw : BitVec 64) (pl : Nat) : BitVec 64 :=
  (sw &&& ~~~(0x300 : BitVec 64)) ||| (BitVec.ofNat 64 (pl % 4) <<< 8)

/-- An exception to be taken (R214, R217). -/
structure Exc where
  code : Nat
  next : Bool := false
  eaddr : Nat := 0
  fetch : Bool := false
  write : Bool := false
  opnd : Nat := 0
  upper : Bool := false
  tag : Tag := .uninit
  indirect : Bool := false
  einfo : Nat := 0
  walkinfo : Option Word := none
deriving DecidableEq, Repr

/-- ECAUSE of an exception raised at level `from_` (R217). -/
def excCause (x : Exc) (from_ code : Nat) : Word :=
  BitVec.ofNat 64 (code + (if x.fetch then 2 ^ 8 else 0) + (if x.write then 2 ^ 9 else 0) + x.opnd * 2 ^ 10 +
    (if x.upper then 2 ^ 12 else 0) + x.tag.code.toNat * 2 ^ 13 + (if x.indirect then 2 ^ 17 else 0) + from_ * 2 ^ 18)

/-- The bank of a level. -/
def Arch.bank (a : Arch) (k : Nat) : ExcBank := if k = 0 then a.bank0 else a.bank1
def Arch.setBank (a : Arch) (k : Nat) (b : ExcBank) : Arch := if k = 0 then { a with bank0 := b } else { a with bank1 := b }

/-- The entry to level `k` with a code (R213): ESW, EPC, ECAUSE, EADDR, EINFO, WALKINFO, SW and PC. -/
def enterException (a : Arch) (x : Exc) (k code : Nat) (epc : BitVec 47) : Arch :=
  let b := a.bank k
  let b' : ExcBank := { b with esw := a.sw, epc := ⟨epc.setWidth 64, .codeptr⟩,
                               ecause := excCause x (swPl a.sw) code, eaddr := BitVec.ofNat 64 x.eaddr,
                               einfo := BitVec.ofNat 64 x.einfo, walkinfo := x.walkinfo.getD b.walkinfo }
  let sw := setBit (setBit (setBit (setPl a.sw k) 10 false) 11 true) 12 false
  { a.setBank k b' with sw := sw, pc := (b.vbr.data + BitVec.ofNat 64 (0x40 * code)).setWidth 47 }

/-- Whether an exception to level `k` is a double fault (R219): EXL stands at the level whose bank the core's level uses, or that
level's VBR holds no CODEPTR. -/
def doubleFault (a : Arch) (k : Nat) : Bool :=
  (swExl a.sw && decide ((if swPl a.sw = 0 then 0 else 1) = k)) || decide ((a.bank k).vbr.tag ≠ .codeptr)

/-- Take an exception on core `c` at level `k` (R213, R219). A double fault of stall 0 below PL0 is taken at PL0 with code DOUBLE;
any other stops the core, which the Farrier hears of by FAULT_REPORT. -/
def takeExceptionAt (c : Nat) (x : Exc) (k : Nat) (epc : BitVec 47) (s : State) : State :=
  let cs := s.core c
  let a := cs.arch
  if doubleFault a k then
    if cs.stall = 0 ∧ swPl a.sw ≠ 0 ∧ a.bank0.vbr.tag = .codeptr then
      s.setCore c { cs with arch := enterException a x 0 0x13 epc, waiting := false }
    else s.setCore c { cs with stopped := true }
  else s.setCore c { cs with arch := enterException a x k x.code epc, waiting := false }

/-- The level at which an exception is taken (R213): PL0 from PL0, PL1 from PL1 and PL2; SVC at PL1 in stall 0 goes to PL0. -/
def excLevel (cs : CoreSt) (x : Exc) : Nat :=
  let pl := swPl cs.arch.sw
  if pl = 0 then 0
  else if x.code = 0x0F ∧ pl = 1 ∧ cs.stall = 0 then 0
  else 1

/-- Take an exception raised by the instruction at PC, whose successor is at `npc` (R213, R214). -/
def takeException (c : Nat) (x : Exc) (npc : BitVec 47) (s : State) : State :=
  let cs := s.core c
  takeExceptionAt c x (excLevel cs x) (if x.next then npc else cs.arch.pc) s

/-- ERET's restore from level `k` (R220): SW ← ESWk with PL no more privileged than `k`, PC ← EPCk. -/
def returnFrom (a : Arch) (k : Nat) : Arch :=
  let b := a.bank k
  let pl := natField b.esw.toNat 8 2
  { a with sw := if pl < k then setPl b.esw k else b.esw, pc := b.epc.data.setWidth 47 }

end Sys2Proof.Machine
end

