-- ==== Sys2Proof/Machine/Gaits.lean ====
section
/-! DEFINITION. The power controller's gait grants (R423–R426): 0 Trot, 1 Canter, 2 Gallop. -/

namespace Sys2Proof.Machine

/-- The die of a logical core's tile. -/
def coreDie (s : State) (k : Nat) : Fin 2 := Fin.ofNat 2 (coreStop s k / 72)

/-- Whether a core's tile is powered. -/
def corePowered (s : State) (k : Nat) : Bool :=
  if h : coreTile s k < 136 then decide (domState s (.coreTile ⟨coreTile s k, h⟩) = .up) else false

/-- Whether the regulator of a core's tile runs on one phase (R410). -/
def onePhase (s : State) (k : Nat) : Bool :=
  s.pwr.lost.any (fun r => match r with | .coreTile t => decide (t.val = coreTile s k) | _ => false)

/-- Whether the uncore or memory-logic regulator of a core's die has lost more than one phase (R410). -/
def dieLimited (s : State) (k : Nat) : Bool :=
  s.pwr.dead.contains (.uncore (coreDie s k)) || s.pwr.dead.contains (.memLogic (coreDie s k))

/-- The gait a core asks for: Canter in a STRICT_ACTIVE stall, otherwise its request (R358, R424). -/
def gaitWanted (s : State) (k : Nat) : Nat :=
  if (s.stall (coreStall s k)).strictActive then 1 else (s.core k).arch.gaitReq.toNat

/-- The lowest of a core's request, MAX_GAIT, the regulator's limit and the demotions (R410, R424, R426–R428). -/
def gaitCap (s : State) (k : Nat) : Nat :=
  let d := s.pwr.demotions
  let strict := (s.stall (coreStall s k)).strictActive
  let cap (b : Bool) (g n : Nat) : Nat := if b then min g n else n
  cap (s.pwr.pwrfail || dieLimited s k) 0
    (cap (d.contains .thermal2) 0
      (cap (d.contains .thermal1 || d.contains (.droop (coreDie s k)) || onePhase s k) 1
        (cap (!strict) (match s.pwr.capped.find? (fun x => decide (x.1 = k)) with | some x => x.2.toNat | none => 2)
          (min (gaitWanted s k) (odGet s 0x2000 0x0C)))))

/-- The cores that hold Gallop and keep it, then those that a free place can serve, in the order of their requests (R424). -/
def gallopCores (s : State) : List Nat :=
  let able := s.pwr.gallopOrder.filter (fun k => decide (gaitCap s k = 2) && corePowered s k && !(s.core k).walk)
  let kept := able.filter (fun k => decide ((s.corePwr k).grant = 2))
  let rest := able.filter (fun k => decide ((s.corePwr k).grant ≠ 2))
  kept ++ rest.take (odGet s 0x2000 0x0D - kept.length)

/-- Grant one core its gait; a lower clock is switched at once, a higher one when the voltage has ramped (R425). -/
def grantGait (gallop : List Nat) (k : Nat) (s : State) : State :=
  let p := s.corePwr k
  let g : BitVec 2 := BitVec.ofNat 2 (if gaitCap s k = 2 ∧ !gallop.contains k then 1 else gaitCap s k)
  if p.grant = g ∧ (p.gait ≤ g) then s
  else s.setCorePwr k { p with grant := g, gait := if g < p.gait then g else p.gait }

/-- Evaluate every core's grant (R424). -/
def gaitEval (s : State) : State :=
  let g := gallopCores s
  (List.range 128).foldl (fun st k => if (st.core k).walk then st else grantGait g k st) s

/-- A write of GAIT_REQ (R423): 3 leaves the register unchanged; the order of Gallop requests follows the writes. -/
def writeGaitReq (k : Nat) (v : BitVec 2) (s : State) : State :=
  if v = 3 then s
  else
    let cs := s.core k
    let order := if v ≠ 2 then s.pwr.gallopOrder.filter (· ≠ k)
                 else if s.pwr.gallopOrder.contains k then s.pwr.gallopOrder else s.pwr.gallopOrder ++ [k]
    gaitEval { (s.setCore k { cs with arch := { cs.arch with gaitReq := v } }) with pwr := { s.pwr with gallopOrder := order } }

/-- GAIT_NOW (R423). -/
def gaitNow (s : State) (k : Nat) : Word :=
  if (s.core k).walk then 3
  else
    let g := (s.corePwr k).grant
    BitVec.ofNat 64 (g.toNat + (if g < (s.core k).arch.gaitReq then 4 else 0))

end Sys2Proof.Machine
end

