-- ==== Sys2Proof/Machine/Counters.lean ====
section
/-! DEFINITION. Event counters: counting, overflow and sampling, the counter window and its rights (R510–R518). -/

namespace Sys2Proof.Machine

/-- A counter wraps: OVF, and for a sampling core counter SAMPLE_PC, SAMPLE_INFO and its source (R510, R515). -/
def overflow (block i : Nat) (pc : BitVec 47) (value : BitVec 48) (s : State) : State :=
  let c := s.counter block i
  let s1 := s.setCounter block i { c with value := value, ovf := true }
  if block < 0x80 ∧ selSample c = true then
    let key := ctrKey block i
    let lost := Tbl.get s1.pmu.sampleUnread key false
    let info := Tbl.get s1.pmu.sampleInfo block 0
    let info' : BitVec 9 := info ||| BitVec.ofNat 9 (2 ^ i) ||| (if lost then 0x100 else 0)
    raise (0x080 + block)
      { s1 with pmu := { s1.pmu with samplePc := s1.pmu.samplePc.set key (pc.setWidth 64),
                                     sampleUnread := s1.pmu.sampleUnread.set key true,
                                     sampleInfo := s1.pmu.sampleInfo.set block info' } }
  else s1

/-- A counter's value grows by `n`; it may wrap. -/
def addCount (block i n : Nat) (pc : BitVec 47) (s : State) : State :=
  let c := s.counter block i
  let v := c.value.toNat + n
  if v < 2 ^ 48 then s.setCounter block i { c with value := BitVec.ofNat 48 v }
  else overflow block i pc (BitVec.ofNat 48 v) s

/-- Add `n` events to counter `i` of a block; one that hangs on time grows by a free value (log entry 158). -/
def countOne (block i event n : Nat) (pl : Option Nat) (pc : BitVec 47) (s : State) : State :=
  let c := s.counter block i
  if ticks s block c pl then addCount block i ((freeValue s).toNat % 2 ^ 48) pc { s with free := s.free + 1 }
  else if counts s c event pl then addCount block i n pc s
  else s

/-- Count `n` events in every counter of a block that selects them (R513). -/
def countEvent (block event n : Nat) (pl : Option Nat) (pc : BitVec 47) (s : State) : State :=
  if s.pmu.counters.isEmpty then s
  else (List.range (blockCounters block)).foldl (fun st i => countOne block i event n pl pc st) s

/-- Stop or restart every counter (R511). -/
def setFreeze (b : Bool) (s : State) : State := { s with pmu := { s.pmu with freeze := b } }

/-- Clear the overflow bits that `mask` names (R511). -/
def clearOvf (block : Nat) (mask : BitVec 8) (s : State) : State :=
  (List.range (blockCounters block)).foldl (fun st i =>
    if mask.getLsbD i then st.setCounter block i { st.counter block i with ovf := false } else st) s

/-- The overflow bits of a block (R511). -/
def ovfBits (s : State) (block : Nat) : Nat :=
  (List.range (blockCounters block)).foldl (fun n i => n + (if (s.counter block i).ovf then 2 ^ i else 0)) 0

/-- The SEL and VALUE registers of a core's counters at their reset values (R517). -/
def resetCounters (block : Nat) (s : State) : State :=
  (List.range (blockCounters block)).foldl (fun st i => st.setCounter block i {}) s

/-- A read of the counter window at an offset (R511); reserved places read zero. -/
def windowRead (s : State) (off : Nat) : Word :=
  let b := off / 256
  let o := off % 256
  if b = 0x3FFF then (if o = 0 then (if s.pmu.freeze then 1 else 0) else 0)
  else if o = 0x80 then BitVec.ofNat 64 (ovfBits s b)
  else if o / 16 < blockCounters b then
    (if o % 16 = 0 then (s.counter b (o / 16)).sel.setWidth 64
     else if o % 16 = 8 then (s.counter b (o / 16)).value.setWidth 64 else 0)
  else 0

/-- A write of the counter window at an offset (R511). -/
def windowWrite (off : Nat) (v : Word) (s : State) : State :=
  let b := off / 256
  let o := off % 256
  if b = 0x3FFF then (if o = 0 then setFreeze (v.getLsbD 0) s else s)
  else if o = 0x80 then clearOvf b (v.truncate 8) s
  else if o / 16 < blockCounters b then
    let c := s.counter b (o / 16)
    (if o % 16 = 0 then s.setCounter b (o / 16) { c with sel := v.truncate 27 }
     else if o % 16 = 8 then s.setCounter b (o / 16) { c with value := v.truncate 48 } else s)
  else s

/-- The base of the counter window in device register space, for stall 0 (R511). -/
def windowBase : Nat := 0x0001000004000000

/-- A read of device register space by a core (R6, R317, R511): the counter window for stall 0; every other place reads zero. -/
def deviceRead (s : State) (stall pa size : Nat) : Word :=
  if stall = 0 ∧ windowBase ≤ pa ∧ pa < windowBase + 0x400000 ∧ 4 ≤ size then
    let off := pa - windowBase
    if size = 8 then windowRead s off
    else BitVec.ofNat 64 ((windowRead s (off / 8 * 8)).toNat / 2 ^ (8 * (off % 8)) % 2 ^ 32)
  else 0

/-- A write of device register space by a core; a 4-byte write replaces half of a register. -/
def deviceWrite (stall pa size : Nat) (v : Word) (s : State) : State :=
  if stall = 0 ∧ windowBase ≤ pa ∧ pa < windowBase + 0x400000 ∧ 4 ≤ size then
    let off := pa - windowBase
    if size = 8 then windowWrite off v s
    else
      let old := windowRead s (off / 8 * 8)
      let new := if off % 8 = 0 then (old &&& ~~~(0xFFFFFFFF : Word)) ||| (v &&& 0xFFFFFFFF)
                 else (old &&& (0xFFFFFFFF : Word)) ||| (v <<< 32)
      windowWrite (off / 8 * 8) (if off % 256 / 8 = 16 then (if off % 8 = 0 then v else 0) else new) s
  else s

/-- COUNTER_OVERFLOW: a counter that runs wraps to zero (R510, R515). -/
def execCounterOverflow (block : Nat) (i : Fin 8) (pc : BitVec 47) (s : State) : Answer :=
  if i.val < blockCounters block ∧ selEn (s.counter block i) = true ∧ s.pmu.freeze = false then
    .next (overflow block i pc 0 s)
  else .next s

/-- FREEZE_WRITE: PF0's window or stall 0's (R511, R517); no other path reaches FREEZE. -/
def execFreezeWrite (path : Path) (b : Bool) (s : State) : Answer :=
  match path with
  | .fw => .next (setFreeze b s)
  | .pf _ => .next (setFreeze b s)
  | _ => .next s

/-- COUNTER_STATUS_WRITE: a write of STATUS (R511); a VF's window has no STATUS (R517). -/
def execCounterStatusWrite (path : Path) (block : Nat) (mask : BitVec 8) (s : State) : Answer :=
  match path with
  | .fw => .next (clearOvf block mask s)
  | .pf _ => .next (clearOvf block mask s)
  | _ => .next s

end Sys2Proof.Machine
end

