-- ==== Sys2Proof/Machine/CohOps.lean ====
section
/-! DEFINITION. The operations of caches, directory and homes (R260–R287) that core accesses, DMA and the packets of the
protocol share. A line is numbered by its address / 64, a sector by its address / 256, a word by its address / 8. -/

namespace Sys2Proof.Machine

/-- What a request brings to the home beside its address: its stall, what kind of agent sent it, and its page's attributes. -/
structure Attr where
  stall : Nat := 0
  agent : Nat := 0
  sealPage : Bool := true
  noAlloc : Bool := false
  strict : Bool := false
deriving DecidableEq, Repr

/-! ## The units of the stops (R141–R143) -/

/-- What a stop holds: a core tile, an engine, a memory controller, the stable-domain gateway with the west Farrier agent, the east agent, a
Tether quad, a host quad, a host-port controller or an I/O hub. -/
inductive StopUnit where
  | core (t : Nat) | engine (e : Nat) | memory (c : Nat) | gateway | eastAgent | tetherQuad (q : Nat) | hostQuad (q : Nat)
  | hostCtl (l : Nat) | ioHub (i : Nat)
deriving DecidableEq, Repr

/-- The unit of an edge stop in the north or south, by its place from the side where the Tether quads are (R142). -/
def edgeUnit (side place : Nat) : StopUnit :=
  if place < 4 then .tetherQuad (4 * side + place)
  else if place < 6 then .hostQuad (2 * side + (place - 4))
  else if place = 6 then .hostCtl side
  else .ioHub side

/-- The unit of a stop (R141, R142): sides 0 west-north, 1 west-south, 2 east-north, 3 east-south. -/
def unitOf (n : Nat) : Option StopUnit :=
  if n < 144 then
    (match engineStops.zipIdx.find? (fun x => decide (x.1 = n)) with
     | some x => some (.engine x.2)
     | none => (stopTile n).map .core)
  else if n < 152 then some (.memory (n - 144))
  else if n = 152 then some .gateway
  else if n < 161 then some (.memory (8 + (n - 153)))
  else if n = 161 then some .eastAgent
  else if n < 170 then some (edgeUnit 0 (n - 162))
  else if n < 178 then some (edgeUnit 1 (n - 170))
  else if n < 186 then some (edgeUnit 2 (185 - n))
  else if n < 194 then some (edgeUnit 3 (193 - n))
  else none

/-- Agents of R278: 0 cores, 1 engines, 2 host inbound DMA; the other units of edge stops are none of them. -/
def agentOfStop (n : Nat) : Nat :=
  match unitOf n with
  | some (.engine _) => 1
  | some (.hostCtl _) => 2
  | some (.core _) => 0
  | _ => 4

/-- The channel capacity C in bytes: the spare rank is left out (R290). -/
def chanCap (s : State) : Nat :=
  let c := s.mc.capacity * 2 ^ 30
  if s.mc.rkSpare then c - c / s.mc.dimmRanks else c

/-- The normal region of a channel in bytes (R292). -/
def chanNormal (s : State) : Nat := (if s.mc.chSpare then 27 else 29) * chanCap s / 32

/-- The bytes of normal memory: 16 × N (R292). -/
def normalBytes (s : State) : Nat := 16 * chanNormal s

/-- The channel of a sector (R293). -/
def chanOf (sec : Nat) : Nat :=
  natField sec 0 4 ^^^ natField sec 4 4 ^^^ natField sec 12 4 ^^^ natField sec 20 4 ^^^ natField sec 28 4 ^^^ natField sec 36 4

/-- Whether a sector lies in a channel whose contents are lost (R308). -/
def secLost (s : State) (sec : Nat) : Bool := s.mc.unreadable.contains (chanOf sec)

/-- The words of memory from word `w`, all in one sector; a lost channel reads POISON words (R308). -/
def memWords (s : State) (w n : Nat) : List TWord :=
  if secLost s (w / 32) then List.replicate n ⟨0, .poison⟩ else s.mem.wordsAt w n

/-- Whether a grant of stall `n` holds an address (R336). -/
def grantHolds (s : State) (n pa : Nat) : Bool :=
  (List.range 16).any (fun k =>
    let g := odGet s (0x4100 + n) (0x30 + k)
    let base := natField g 0 38 * 16384
    decide (base ≤ pa) && decide (pa < base + natField g 38 26 * 16384))

/-- The stall that owns the data at an address, as a record names it (R55): the lowest tenant whose grant holds it, otherwise stall 0. -/
def ownerOfPa (s : State) (pa : Nat) : Nat :=
  ((List.range 256).map (· + 1)).find? (fun n => decide ((s.stall n).state ≠ .free) && grantHolds s n pa) |>.getD 0

/-- Close the open patrol entry of a sector with its record (R305): POISONED says whether the poisoned copy was read. -/
def closePatrol (sec : Nat) (poisoned : Bool) (s : State) : State :=
  let ch := s.channel (chanOf sec)
  match ch.patrolList.find? (fun x => decide (x.1 = sec)) with
  | none => s
  | some e =>
    recordSeal { point := 6, cls := 1, poisoned := poisoned, locKind := 0, locator := sec, stall := ownerOfPa s (256 * sec),
                 computed := e.2.1, expected := e.2.2 }
      (s.setChannel (chanOf sec) { ch with patrolList := ch.patrolList.filter (fun x => decide (x.1 ≠ sec)) })

/-- A write to a lost channel is discarded, counted and recorded (R308, R440). -/
def countLost (sec : Nat) (s : State) : State :=
  record { kind := 0x02, cls := 1, resource := resource 2 (8 * chanOf sec), outcome := 5, cause := 8, addr := sec / 16 * 256 }
    { s with mc := { s.mc with lostWrites := s.mc.lostWrites + 1 } }

/-- Kinds of region of a physical address (R317). -/
inductive Region where
  | normal | device | absent
deriving DecidableEq, Repr

/-- The region of a physical address (R317). -/
def region (s : State) (pa : Nat) : Region :=
  if pa < normalBytes s then .normal
  else if 0x0001000000000000 ≤ pa ∧ pa ≤ 0x000100FFFFFFFFFF then .device
  else .absent

/-- The home table's index of a sector (R262), from the sector number PA[51:8]. -/
def homeIndex (sec : Nat) : Nat :=
  natField sec 0 12 ^^^ natField sec 12 12 ^^^ natField sec 24 12 ^^^ natField sec 36 8

/-- The home slice of a sector (R262). -/
def homeSlice (s : State) (sec : Nat) : Nat :=
  Tbl.get s.coh.home (homeIndex sec) (homeIndex sec % 136)

/-- The sector as its home's LLC holds it. -/
def llcSector (s : State) (sec : Nat) : Option Sector :=
  ((s.slice (homeSlice s sec)).sectors.find? (fun x => decide (x.1 = sec))).map (·.2)

/-- A list with its newest member first: what was used last (R260). -/
def newest (x : Nat) (l : List Nat) : List Nat := x :: l.filter (· ≠ x)

/-- The pseudo-LRU victim among candidates (R260): never the one used last where there is another; which of the others is open, since no
rule gives the replacement's tree, and so a free value (log entry 134). -/
def pseudoLru (recent : List Nat) (pick : Nat) (l : List Nat) : Option Nat :=
  let rest := match recent.find? (fun x => l.contains x) with | some x => l.filter (· ≠ x) | none => l
  let pool := if rest.isEmpty then l else rest
  pool[Config.victim pick pool.length % pool.length]?

/-- Put a sector into its home's LLC. -/
def putSector (sec : Nat) (x : Sector) (s : State) : State :=
  let h := homeSlice s sec
  let sl := s.slice h
  s.setSlice h { sl with sectors := sl.sectors.set sec x, recent := newest sec sl.recent }

/-- A hit on a resident sector makes it the one used last (R260). -/
def touchSector (sec : Nat) (s : State) : State :=
  if (llcSector s sec).isSome then
    let h := homeSlice s sec
    let sl := s.slice h
    s.setSlice h { sl with recent := newest sec sl.recent }
  else s

/-- Remove a sector from its home's LLC. -/
def dropSector (sec : Nat) (s : State) : State :=
  let h := homeSlice s sec
  let sl := s.slice h
  s.setSlice h { sl with sectors := sl.sectors.erase sec, recent := sl.recent.filter (· ≠ sec) }

/-- The eight words of sub-block `k`. -/
def subWords (x : Sector) (k : Nat) : List TWord := takePad 8 ⟨0, .uninit⟩ (x.words.drop (8 * k))

/-- The sector with sub-block `k` replaced. -/
def setSub (x : Sector) (k : Nat) (ws : List TWord) : Sector :=
  { x with words := takePad (8 * k) ⟨0, .uninit⟩ x.words ++ takePad 8 ⟨0, .uninit⟩ ws ++ x.words.drop (8 * k + 8) }

/-- The home's value of a line: the LLC copy where valid, otherwise memory's (R263). -/
def homeLine (s : State) (line : Nat) : List TWord :=
  match llcSector s (line / 4) with
  | some x => if x.valid.getLsbD (line % 4) then subWords x (line % 4) else memWords s (8 * line) 8
  | none => memWords s (8 * line) 8

/-- The home's value of a whole span. -/
def homeSpan (s : State) (sec : Nat) : List TWord :=
  homeLine s (4 * sec) ++ homeLine s (4 * sec + 1) ++ homeLine s (4 * sec + 2) ++ homeLine s (4 * sec + 3)

/-- The newest value of a line: what some tile or packet holds dirty, otherwise the home's (R268). -/
def readLine (s : State) (line : Nat) : List TWord :=
  match s.coh.lines.find? (fun x => decide (x.1 = line)) with
  | some x => x.2
  | none => homeLine s line

/-- The newest value of a word. -/
def readWord (s : State) (w : Nat) : TWord := (readLine s (w / 8)).getD (w % 8) ⟨0, .uninit⟩

/-- The newest value of a whole span. -/
def readSpan (s : State) (sec : Nat) : List TWord :=
  readLine s (4 * sec) ++ readLine s (4 * sec + 1) ++ readLine s (4 * sec + 2) ++ readLine s (4 * sec + 3)

/-- Whether a span's words match a seal (R32, R45); the zero span has seal zero (R33). -/
def sealMatches (ws : List TWord) (sl : Word) : Bool :=
  if ws.all (fun t => decide (t.tag = .uninit) || decide (t.data = 0)) then decide (sl = 0)
  else decide (sealOfWords ws = sl)

/-- Whether a span is poisoned (R52). -/
def spanPoisoned (ws : List TWord) : Bool := ws.any (fun t => decide (t.tag = .poison))

/-- Every word tagged POISON (R51). -/
def poisonWords (ws : List TWord) : List TWord := ws.map (fun t => ⟨if t.tag = .uninit then 0 else t.data, .poison⟩)

/-- Write a sector's words and seal to memory and its tack region (R301). -/
def memWriteSpan (sec : Nat) (ws : List TWord) (sl : Word) (s : State) : State :=
  if secLost s sec then countLost sec s
  else
    let s1 := closePatrol sec false s
    { s1 with mem := (s1.mem.setWords (32 * sec) ws).setSeal sec sl }

/-- Write a sub-block without allocation and update the seal in the tack region (R276, R41). -/
def memWriteSub (line : Nat) (ws : List TWord) (s : State) : State :=
  let old := s.mem.wordsAt (32 * (line / 4)) 32
  if secLost s (line / 4) then countLost (line / 4) s else
  let s := closePatrol (line / 4) false s
  let m1 := s.mem.setWords (8 * line) ws
  { s with mem := m1.setSeal (line / 4) (sealUpdate (s.mem.sealAt (line / 4)) old (m1.wordsAt (32 * (line / 4)) 32)) }

/-- The write-back of a sector's dirty sub-blocks, their tags and the seal (R44, R276). Over a memory copy that has been poisoned meanwhile
its rebased seal is updated for the words written (R41, R53, R302, R305). -/
def writeBackSector (sec : Nat) (x : Sector) (s : State) : State :=
  let wr (k : Nat) (m : Memory) : Memory :=
    if x.dirty.getLsbD k then m.setWords (32 * sec + 8 * k) (subWords x k) else m
  if x.dirty = 0 then s
  else if secLost s sec then countLost sec s
  else
    let s := closePatrol sec false s
    let old := s.mem.wordsAt (32 * sec) 32
    let m := wr 3 (wr 2 (wr 1 (wr 0 s.mem)))
    let sl := if spanPoisoned old then sealUpdate (s.mem.sealAt sec) old (m.wordsAt (32 * sec) 32) else x.sealW
    { s with mem := m.setSeal sec sl }

/-- Whether way `w` permits an allocation (R277, R278). -/
def wayPermits (s : State) (a : Attr) (w : Nat) : Bool :=
  let lock := odGet s 0x5100 (0x10 + w)
  natBit (odGet s (0x4100 + a.stall) 0x22) w &&
    (!natBit lock 0 ||
      (decide (natField lock 1 9 = a.stall) && natBit lock (10 + a.agent)) ||
      (decide (a.stall = 0) && natBit lock 13))

/-- The ways that permit an allocation. -/
def permittedWays (s : State) (a : Attr) : List Nat := (List.range 16).filter (wayPermits s a)

/-- The LLC set of a sector (R260). -/
def llcSet (sec : Nat) : Nat := natField sec 0 9 ^^^ natField sec 9 9

/-- The resident sectors of a set with their ways. -/
def setResidents (s : State) (sec : Nat) : List (Nat × Sector) :=
  (s.slice (homeSlice s sec)).sectors.filter (fun x => decide (llcSet x.1 = llcSet sec))

/-- The way for a new sector: an invalid one among the permitted ways, otherwise that of the pseudo-LRU sector among them (R277). -/
def chooseWay (s : State) (a : Attr) (sec : Nat) : Option (Nat × Option Nat) :=
  let ways := permittedWays s a
  let used := setResidents s sec
  match ways.find? (fun w => !used.any (fun x => decide (x.2.way.val = w))) with
  | some w => some (w, none)
  | none =>
    match pseudoLru (s.slice (homeSlice s sec)).recent s.free ((used.filter (fun x => ways.contains x.2.way.val)).map (·.1)) with
    | some v => (used.find? (fun x => decide (x.1 = v))).map (fun x => (x.2.way.val, some v))
    | none => none

/-- Remove a sector from the LLC, writing its dirty sub-blocks back (R276). -/
def evictSector (sec : Nat) (s : State) : State :=
  match llcSector s sec with
  | some x => dropSector sec (writeBackSector sec x s)
  | none => s

/-- Allocate a sector with given contents; false where no way is permitted (R277). -/
def allocSector (a : Attr) (sec : Nat) (valid dirty : BitVec 4) (ws : List TWord) (sl : Word) (s : State) : Bool × State :=
  match chooseWay s a sec with
  | none => (false, s)
  | some (w, victim) =>
    let s1 := match victim with | some v => evictSector v (State.took s) | none => s
    (true, putSector sec { way := Fin.ofNat 16 w, valid := valid, dirty := dirty, words := ws, sealW := sl } s1)

/-- Poison a span in memory and rebase its seal (R51, R53). -/
def poisonMem (sec : Nat) (s : State) : State :=
  let ws := poisonWords (s.mem.wordsAt (32 * sec) 32)
  { s with mem := (s.mem.setWords (32 * sec) ws).setSeal sec (sealOfWords ws) }

/-- Poison a span where it is held: in the LLC and in memory (R51, R53). -/
def poisonSpan (sec : Nat) (s : State) : State :=
  let s1 := poisonMem sec s
  match llcSector s1 sec with
  | some x =>
    let ws := poisonWords (homeSpan s1 sec)
    putSector sec { x with words := ws, valid := 15, sealW := sealOfWords ws } s1
  | none => s1

/-- Check the memory copy of a span before a fill delivers it (R45): a mismatch poisons the sector in LLC and memory and makes
one record at point 0x3, class deferred (R50). -/
def checkFill (sec : Nat) (s : State) : State :=
  let ws := homeSpan s sec
  let sl := match llcSector s sec with | some x => x.sealW | none => s.mem.sealAt sec
  if spanPoisoned ws || sealMatches ws sl then s
  else
    recordSeal { point := 3, cls := 1, poisoned := true, locKind := 0, locator := sec,
                 stall := ownerOfPa s (256 * sec), computed := sealOfWords ws, expected := sl } (poisonSpan sec s)

/-- Whether a request's fill is checked: its page has SEAL set, or it comes from an engine (R45). -/
def checkedReq (r : Req) : Bool := r.sealAttr || decide (agentOfStop r.src.toNat = 1)

/-- Whether a checked fill of a sector is on its way to its home (R45, R47). -/
def fillPending (s : State) (sec : Nat) : Bool :=
  (s.slice (homeSlice s sec)).busy.any (fun x => x.needFill && checkedReq x.hr.req && x.lines.any (fun l => decide (l / 4 = sec)))

/-- The counter of fills delivered with NOALLOC (R277, R285). -/
def countNoAlloc (sec : Nat) (s : State) : State := odBump (0x5101 + homeSlice s sec) 0x06 s

/-- Put a sector whose sub-blocks a fill has completed; one that the fill brought POISON words into takes the seal of its bytes as now
held (R53). -/
def rebased (sec : Nat) (y : Sector) (s : State) : State :=
  let was := match llcSector s sec with | some x => spanPoisoned x.words | none => false
  if spanPoisoned y.words ∧ !was then putSector sec { y with sealW := sealOfWords (homeSpan (putSector sec y s) sec) } s
  else putSector sec y s

/-- Read the old value of a sub-block that a resident sector does not hold from memory, which makes it valid (R44, R263): the read closes an
open patrol entry (R305), and POISON words that it brings rebase the sector's seal (R53). -/
def fetchSub (line : Nat) (s : State) : State :=
  let sec := line / 4
  let k := line % 4
  match llcSector s sec with
  | some x =>
    if x.valid.getLsbD k then s
    else
      let s1 := closePatrol sec true s
      rebased sec { (setSub x k (homeLine s1 line)) with valid := x.valid ||| BitVec.ofNat 4 (2 ^ k) } s1
  | none => s

/-- Make a line's value available at its home (R45, R263, R268): a hit changes nothing; a miss reads the whole sector with its check for a SEAL
page, one sub-block otherwise, and allocates it where a way is permitted. -/
def fillLine (a : Attr) (line : Nat) (s : State) : State :=
  let sec := line / 4
  let k := line % 4
  let bit : BitVec 4 := BitVec.ofNat 4 (2 ^ k)
  match llcSector s sec with
  | some x =>
    if x.valid.getLsbD k then touchSector sec s
    else if a.sealPage then
      let s1 := checkFill sec (closePatrol sec true s)
      (match llcSector s1 sec with
       | some y => rebased sec { y with valid := 15, words := homeSpan s1 sec } s1
       | none => s1)
    else fetchSub line s
  | none =>
    let s1 := closePatrol sec true (if a.sealPage then checkFill sec s else s)
    if a.noAlloc then countNoAlloc sec s1
    else
      let r := allocSector a sec (if a.sealPage then 15 else bit) 0 (memWords s1 (32 * sec) 32) (s1.mem.sealAt sec) s1
      if r.1 then r.2 else countNoAlloc sec s1

/-- Count events in the block of a line's home slice (R513). -/
def countHome (line event n : Nat) (s : State) : State := countUncore (0x080 + homeSlice s (line / 4)) event n s

/-- A request is looked up at its home (R513, R514). -/
def lookup (line : Nat) (s : State) : State := countHome line 1 1 s

/-- Whether a line's home holds it. -/
def homeHolds (s : State) (line : Nat) : Bool :=
  match llcSector s (line / 4) with | some x => x.valid.getLsbD (line % 4) | none => false

/-- Make a line available at its home for a request performed at one moment, whose miss counts (R513). -/
def fillHome (a : Attr) (line : Nat) (s : State) : State := fillLine a line (if homeHolds s line then s else countHome line 2 1 s)

/-- Write a line's value at its home, keeping the seal (R41, R44, R276); the check of a fill on its way comes first (R47), and the old value of a
sub-block that the home does not hold is read from memory (R44, R263, R305). -/
def homeWrite (a : Attr) (line : Nat) (ws : List TWord) (s0 : State) : State :=
  let sec := line / 4
  let k := line % 4
  let bit : BitVec 4 := BitVec.ofNat 4 (2 ^ k)
  let s1 := fetchSub line (if fillPending s0 sec then checkFill sec s0 else s0)
  let s := if (llcSector s1 sec).isSome then s1 else closePatrol sec true s1
  match llcSector s sec with
  | some x =>
    let pre := takePad (8 * k) (TWord.mk 0 .uninit) []
    let post := takePad (24 - 8 * k) (TWord.mk 0 .uninit) []
    let sl := sealUpdate x.sealW (pre ++ subWords x k ++ post) (pre ++ ws ++ post)
    let y : Sector := setSub x k ws
    putSector sec { y with valid := x.valid ||| bit, dirty := x.dirty ||| bit, sealW := sl } s
  | none =>
    let old := s.mem.wordsAt (32 * sec) 32
    let new := takePad (8 * k) ⟨0, .uninit⟩ old ++ ws ++ old.drop (8 * k + 8)
    let r := allocSector a sec bit bit new (sealUpdate (s.mem.sealAt sec) old new) s
    if r.1 then r.2 else memWriteSub line ws s

/-! ## The directory (R267) -/

def dirEntry (s : State) (line : Nat) : Option DirEntry :=
  ((s.slice (homeSlice s (line / 4))).dir.find? (fun x => decide (x.1 = line))).map (·.2)

def setDir (line : Nat) (d : DirEntry) (s : State) : State :=
  let h := homeSlice s (line / 4)
  let sl := s.slice h
  s.setSlice h { sl with dir := sl.dir.set line d, dirRecent := newest line sl.dirRecent }

def clearDir (line : Nat) (s : State) : State :=
  let h := homeSlice s (line / 4)
  let sl := s.slice h
  s.setSlice h { sl with dir := sl.dir.erase line, dirWay := sl.dirWay.erase line, dirRecent := sl.dirRecent.filter (· ≠ line) }

/-- The tiles a sharer set names; a group is its eight tiles (R267). -/
def holderTiles (h : Holders) : List Nat :=
  match h with
  | .exact l => l
  | .groups g => (List.range 136).filter (fun t => g.getLsbD (t / 8))

/-- Add a tile to a sharer set: a fifth sharer turns it into a group vector (R267). -/
def addHolder (h : Holders) (t : Nat) : Holders :=
  match h with
  | .exact l =>
    if l.contains t then h
    else if l.length < 4 then .exact (l ++ [t])
    else .groups ((l ++ [t]).foldl (fun g x => g ||| (1 <<< (x / 8))) 0)
  | .groups g => .groups (g ||| (1 <<< (t / 8)))

/-- Remove a tile from a sharer set; a group vector cannot forget one tile. -/
def removeHolder (h : Holders) (t : Nat) : Holders :=
  match h with
  | .exact l => .exact (l.filter (· ≠ t))
  | .groups g => .groups g

/-- Every holder of an entry, the owner first. -/
def allHolders (d : DirEntry) : List Nat :=
  ((match d.owner with | some o => [o] | none => []) ++ holderTiles d.sharers).eraseDups

/-- Whether a transaction for the line is in progress at its home (R269). -/
def txnBusy (s : State) (line : Nat) : Bool :=
  (s.slice (homeSlice s (line / 4))).busy.any (fun t => t.lines.contains line)

/-- Whether a packet moves rights or dirty data of the line. -/
def lineInFlight (s : State) (line : Nat) : Bool :=
  s.coh.net.any (fun p => decide (p.line = line) && (match p.kind with
    | .gnt st _ _ => decide (st ≠ 3)
    | .retry | .evictAck | .done => false
    | _ => true))

/-- The directory set of a line (R260). -/
def dirSet (line : Nat) : Nat := line % 2048

/-- The LLC ways of every stall that is STRICT_ACTIVE (R359). -/
def strictWays (s : State) (w : Nat) : Bool :=
  s.stalls.any (fun x => x.2.strictActive && natBit (odGet s (0x4100 + x.1) 0x22) w)

/-- The directory ways in which an entry for a stall may be allocated (R359). -/
def dirWays (s : State) (n : Nat) : List Nat :=
  (List.range 16).filter (fun w =>
    if (s.stall n).strictActive then natBit (odGet s (0x4100 + n) 0x22) w else !strictWays s w)

/-- Where a new directory entry goes: its way, and the entry it replaces; none where every permitted way holds a busy
entry (R260, R261, R284, R359). -/
def dirPick (s : State) (n line : Nat) : Option (Nat × Option Nat) :=
  let h := s.slice (homeSlice s (line / 4))
  let used := h.dirWay.filter (fun x => decide (dirSet x.1 = dirSet line))
  let ways := dirWays s n
  match ways.find? (fun w => !used.any (fun x => decide (x.2 = w))) with
  | some w => some (w, none)
  | none =>
    let idle := used.filter (fun x => ways.contains x.2 && !txnBusy s x.1 && !lineInFlight s x.1)
    match pseudoLru h.dirRecent s.free (idle.map (·.1)) with
    | some v => (idle.find? (fun x => decide (x.1 = v))).map (fun x => (x.2, some v))
    | none => none

/-- Whether a request for the line waits in its home's queue (R269). -/
def lineQueued (s : State) (line : Nat) : Bool :=
  (s.slice (homeSlice s (line / 4))).queue.any (fun q => decide (q.req.pa.toNat / 256 = line / 4))

/-- Whether a request of stall `n` for the line cannot be performed at one moment now: its home is busy with it or has a request for its sector
queued before it, a packet is on its way, or its directory set is full of busy entries (R269, R284). -/
def lineBusy (s : State) (n line : Nat) : Bool :=
  txnBusy s line || lineInFlight s line || lineQueued s line ||
    (match dirEntry s line with
     | some d => decide (d.state = .wbPend)
     | none => (dirPick s n line).isNone)

/-! ## The domains on an access's way (R418, R419) -/

/-- The domains that an access from a stop to a line's home needs: the rings of both dies it touches, the home's slice, and the memory
channel where the LLC does not hold the sector. -/
def pathDomains (s : State) (stop line : Nat) : List Domain :=
  let h := homeSlice s (line / 4)
  let c := chanOf (line / 4)
  [.ring (Fin.ofNat 2 (stop / 72)), .ring (Fin.ofNat 2 (tileStop h / 72))] ++
    (if hh : h < 136 then [.slice ⟨h, hh⟩] else []) ++
    (if hc : c < 16 then (if (llcSector s (line / 4)).isSome then [] else [.channel ⟨c, hc⟩]) else [])

/-- Whether every domain on an access's way is up. -/
def pathUp (s : State) (stop line : Nat) : Bool :=
  s.pwr.domains.all (fun x => decide (x.2 = .up)) || (pathDomains s stop line).all (fun d => decide (domState s d = .up))

/-- A first access wakes the domains on its way. -/
def wakePath (stop line : Nat) (s : State) : State :=
  if pathUp s stop line then s else (pathDomains s stop line).foldl (fun t d => wakeDom d t) s

/-- An access that comes from no core wakes what sleeps at its line's home (R273, R418); the access itself is performed at once, its wait
being time. -/
def wakeHome (line : Nat) (s : State) : State := wakePath (tileStop (homeSlice s (line / 4))) line s

/-! ## Tiles and snoops (R266, R272, R273) -/

def l2State (s : State) (t line : Nat) : Option L2State :=
  ((s.tile t).l2.find? (fun x => decide (x.1 = line))).map (·.2.state)

def setL2 (t line : Nat) (st : L2State) (s : State) : State :=
  let x := s.tile t
  s.setTile t { x with l2 := x.l2.set line { state := st } }

def dropL2 (t line : Nat) (s : State) : State :=
  let x := s.tile t
  s.setTile t { x with l2 := x.l2.erase line, recent := x.recent.filter (· ≠ line) }

/-- An access of the tile's own core to a line of its L2 makes it the one used last (R260). -/
def touchL2 (t line : Nat) (s : State) : State :=
  let x := s.tile t
  s.setTile t { x with recent := newest line x.recent }

/-- The logical core whose tile is `t`. -/
def tileCore (s : State) (t : Nat) : Option Nat := (List.range 128).find? (fun k => decide (coreTile s k = t))

/-- Remove a line from both L1 caches of a tile's core (R261); a frame line is renamed no longer (R178). -/
def dropL1 (t line : Nat) (s : State) : State :=
  match tileCore s t with
  | some c => let cs := s.core c
              s.setCore c { cs with l1i := cs.l1i.filter (· ≠ line), l1d := cs.l1d.filter (· ≠ line),
                                    frame := cs.frame.map (fun x => if x.2 = some line then (x.1, none) else x) }
  | none => s

/-- The new value of a word whose bytes under a mask are written with a tag: a whole word takes the tag, a part follows the
partial-store table of R209. -/
def partialTag (old wr : Tag) : Tag :=
  if old = .uninit then wr
  else if old = .poison then .poison
  else if old = wr then old
  else if old = .bytes ∨ wr = .bytes then .bytes else .int

/-- A word after the bytes that `mask` selects have been replaced (R209). -/
def overlayWord (old : TWord) (mask : BitVec 8) (data : Word) (tag : Tag) : TWord :=
  if mask = 0 then old
  else if mask = 255 then ⟨data, tag⟩
  else
    let base := if old.tag = .uninit then 0 else old.data
    let bytes := (List.range 8).map (fun i => if mask.getLsbD i then wordByte data i else wordByte base i)
    ⟨wordOfBytes bytes, partialTag old.tag tag⟩

/-- The lines a store writes, in ascending order (R183). -/
def storeLines (en : StoreEntry) : List Nat := sortNat (en.writes.map (fun w => w.w / 8))

/-- A line after a store's writes to it. -/
def applyWrites (line : Nat) (ws : List WordWrite) (old : List TWord) : List TWord :=
  ws.foldl (fun l w => if w.w / 8 = line then
    (List.range 8).map (fun i => if i = w.w % 8 then overlayWord (l.getD i ⟨0, .uninit⟩) w.mask w.data w.tag
                                 else l.getD i ⟨0, .uninit⟩) else l) old

/-! ## Frame lines (R174–R178) -/

/-- The retired words of a frame line that a core holds newer than its caches (R174, R178). -/
def frameVals (cs : CoreSt) (line : Nat) : Tbl TWord := cs.frameRegs.filter (fun x => decide (x.1 / 8 = line))

/-- A line with the words of its frame registers. -/
def putFrame (vals : Tbl TWord) (line : Nat) (old : List TWord) : List TWord :=
  (List.range 8).map (fun i => Tbl.get vals (8 * line + i) (old.getD i ⟨0, .uninit⟩))

/-- Write a frame line's retired values into the tile's cache, which holds the line in M or E (R175, R176, R178); none where it has none. -/
def flushFrame (t line : Nat) (s : State) : Option State :=
  match tileCore s t with
  | none => none
  | some c =>
    let vals := frameVals (s.core c) line
    if vals.isEmpty then none
    else
      let s1 := setL2 t line .m s
      let s2 := { s1 with coh := { s1.coh with lines := s1.coh.lines.set line (putFrame vals line (readLine s1 line)) } }
      some (s2.setCore c { s2.core c with frameRegs := (s2.core c).frameRegs.filter (fun x => decide (x.1 / 8 ≠ line)) })

/-- Before a line is snooped or leaves the tile its retired frame values are written; each such write-back counts as FRAME_SNOOP (R178,
R194). -/
def frameSnoop (t line : Nat) (s : State) : State :=
  match flushFrame t line s, tileCore s t with
  | some s1, some c => countEvent c 0x00A 1 (some (swPl (s1.core c).arch.sw)) (s1.core c).arch.pc s1
  | _, _ => s

/-- The kinds of snoop (R265). -/
inductive Snoop where
  | shr | inv | clean
deriving DecidableEq, Repr

/-- What a tile answers (R265): ACK, with data where dirty and the eviction's transaction where from the buffer, or GONE. -/
inductive SnoopAns where
  | ack (dirty : Bool) (evicting : Option (BitVec 16))
  | gone
deriving DecidableEq, Repr

/-- A tile's answer to a snoop from its L2 and its write-back buffer (R266, R272). -/
def snoopAwake (k : Snoop) (t line : Nat) (s : State) : SnoopAns × State :=
  let x := s.tile t
  match l2State s t line with
  | some st =>
    let dirty := decide (st = .m ∨ st = .o)
    (match k with
     | .shr => (.ack dirty none, setL2 t line (if st = .m ∨ st = .o then .o else .s) s)
     | .inv => (.ack dirty none, dropL1 t line (dropL2 t line s))
     | .clean => (.ack dirty none, setL2 t line (if st = .m ∨ st = .e then .e else .s) s))
  | none =>
    match x.wb.find? (fun e => decide (e.line = line) && !e.surrendered) with
    | some e =>
      (.ack e.dirty (some e.txn),
       s.setTile t { x with wb := x.wb.map (fun y => if y.line = line then { y with surrendered := true } else y) })
    | none => (.gone, s)

/-- The code of a snoop in the nap log, and back. -/
def Snoop.code (k : Snoop) : Nat := match k with | .shr => 0 | .inv => 1 | .clean => 2
def snoopOfCode (n : Nat) : Snoop := if n = 0 then .shr else if n = 1 then .inv else .clean

/-- The L2 wakes: the nap log is applied and emptied (R273). -/
def applyNap (t : Nat) (s : State) : State :=
  let x := s.tile t
  x.napLog.foldl (fun st e => (snoopAwake (snoopOfCode e.2) t e.1 st).2)
    (s.setTile t { x with retention := false, l2Waking := false, napLog := [] })

/-- A tile's answer to a snoop and the state after it (R266, R272, R273, R359): a tile of a strict stall answers GONE outside its
grants; a tile in retention answers ACK and logs the snoop, and a full log wakes its L2. -/
def snoopTile (k : Snoop) (t line : Nat) (s : State) : SnoopAns × State :=
  let x := s.tile t
  let strictOut := match tileCore s t with
    | some c => let n := coreStall s c
                (s.stall n).strictActive && !grantHolds s n (64 * line)
    | none => false
  if strictOut then (.gone, s)
  else if x.retention then
    if x.napLog.length < 64 then (.ack false none, s.setTile t { x with napLog := x.napLog ++ [(line, k.code)] })
    else snoopAwake k t line (applyNap t s)
  else snoopAwake k t line (frameSnoop t line s)

/-- Note that an EVICT of this transaction number is to be dropped (R272). -/
def noteDropped (t line : Nat) (ans : SnoopAns) (s : State) : State :=
  match ans with
  | .ack _ (some txn) =>
    let h := homeSlice s (line / 4)
    let sl := s.slice h
    s.setSlice h { sl with dropped := (BitVec.ofNat 8 (tileStop t), txn) :: sl.dropped }
  | _ => s

/-- Write the dirty value of a line into its LLC sector and stop holding it apart (R276). -/
def settleLine (a : Attr) (line : Nat) (s : State) : State :=
  match s.coh.lines.find? (fun x => decide (x.1 = line)) with
  | some x =>
    let s1 := homeWrite a line x.2 s
    { s1 with coh := { s1.coh with lines := s1.coh.lines.erase line } }
  | none => s

/-- Snoop a list of tiles, one after the other; whether any answered dirty. Each snoop counts (R513). -/
def snoopAll (k : Snoop) (ts : List Nat) (line : Nat) (s : State) : Bool × State :=
  match ts with
  | [] => (false, s)
  | t :: r =>
    let a := snoopTile k t line (countHome line 3 1 s)
    let d := match a.1 with | .ack true _ => true | _ => false
    let b := snoopAll k r line (noteDropped t line a.1 a.2)
    (d || b.1, b.2)

/-! ## Whole transactions, performed at one moment of the home's order (R46, R268) -/

/-- Make room for a new directory entry and note its way: SNP_INV to every holder that the replaced entry names, dirty answers
into the LLC, counted (R261). -/
def dirReplace (a : Attr) (line : Nat) (s : State) : State :=
  match dirPick s a.stall line with
  | none => s
  | some (w, victim) =>
    let h := homeSlice s (line / 4)
    let s1 := match victim with
      | none => s
      | some v =>
        match dirEntry s v with
        | none => clearDir v (State.took s)
        | some d =>
          let r := snoopAll .inv (allHolders d) v (State.took s)
          odBump (0x5101 + h) 0x05 (clearDir v (settleLine a v r.2))
    let sl := s1.slice h
    s1.setSlice h { sl with dirWay := sl.dirWay.set line w }

/-- The L2 line that an installation replaces: 1,024 sets of 16 ways (R260). -/
def l2Victim (s : State) (t line : Nat) : Option Nat :=
  let same := (s.tile t).l2.filter (fun x => decide (x.1 % 1024 = line % 1024))
  if same.length < 16 ∨ same.any (fun x => decide (x.1 = line)) then none
  else pseudoLru (s.tile t).recent s.free (same.map (·.1))

/-- Take a line out of a tile's L2, with its eviction performed at the home (R266, R268). -/
def evictL2 (a : Attr) (t line : Nat) (s : State) : State :=
  match l2State s t line with
  | none => s
  | some _ =>
    let s0 := lookup line ((flushFrame t line s).getD s)
    let st := l2State s0 t line
    let s1 := dropL1 t line (dropL2 t line s0)
    let s2 := if st = some .m ∨ st = some .o then settleLine a line s1 else s1
    match dirEntry s2 line with
    | none => s2
    | some d =>
      let rest := holderTiles (removeHolder d.sharers t)
      let d' : DirEntry := { d with owner := if d.owner = some t then none else d.owner, sharers := removeHolder d.sharers t }
      if d'.owner = none ∧ rest.isEmpty then clearDir line s2
      else setDir line { d' with state := if d'.owner = none then .sh else d.state } s2

/-- Install a granted line in a tile (R261, R266). -/
def installL2 (a : Attr) (t line : Nat) (st : L2State) (s : State) : State :=
  match l2Victim s t line with
  | some v => touchL2 t line (setL2 t line st (evictL2 a t v (State.took s)))
  | none => touchL2 t line (setL2 t line st s)

/-- RD_SHR to its end (R268). -/
def acquireShared (a : Attr) (t line : Nat) (s : State) : State :=
  match l2State s t line with
  | some _ => touchL2 t line s
  | none =>
    let s := lookup line s
    match dirEntry s line with
    | none =>
      let s1 := dirReplace a line (fillHome a line s)
      installL2 a t line .e (setDir line { state := .ex, owner := some t, sharers := .exact [] } s1)
    | some d =>
      if d.state = .sh then
        installL2 a t line .s (setDir line { d with sharers := addHolder d.sharers t } (fillHome a line s))
      else
        let own := match d.owner with | some o => [o] | none => []
        let r := snoopAll .shr own line s
        let sh := own.foldl addHolder d.sharers
        if r.1 then
          installL2 a t line .s (setDir line { state := .os, owner := d.owner, sharers := addHolder d.sharers t } r.2)
        else
          installL2 a t line .s (setDir line { state := .sh, owner := none, sharers := addHolder sh t } (fillHome a line r.2))

/-- RD_OWN or UPGRADE to its end (R268). -/
def acquireOwned (a : Attr) (t line : Nat) (s : State) : State :=
  match l2State s t line with
  | some .m => touchL2 t line s
  | some .e => touchL2 t line (setL2 t line .m s)
  | st =>
    let s := lookup line s
    let s1 := if (dirEntry s line).isNone then dirReplace a line s else s
    let others := match dirEntry s1 line with | some d => (allHolders d).filter (· ≠ t) | none => []
    let r := snoopAll .inv others line s1
    let s2 := if st = none ∧ !r.1 then fillHome a line r.2 else r.2
    installL2 a t line .m (setDir line { state := .ex, owner := some t, sharers := .exact [] } s2)

/-- Recall every private copy of a line into the home (R238, R268). -/
def recallLine (a : Attr) (line : Nat) (s : State) : State :=
  match dirEntry s line with
  | none => settleLine a line s
  | some d => clearDir line (settleLine a line (snoopAll .inv (allHolders d) line s).2)

/-- Bring the home's copy of a line up to date and leave the copies clean (R268: RD_UC, DMA_RD). -/
def cleanLine (a : Attr) (line : Nat) (s : State) : State :=
  match dirEntry s line with
  | none => settleLine a line s
  | some d =>
    if d.state = .ex ∨ d.state = .os then
      let own := match d.owner with | some o => [o] | none => []
      let s1 := settleLine a line (snoopAll .clean own line s).2
      if d.state = .os then setDir line { state := .sh, owner := none, sharers := own.foldl addHolder d.sharers } s1 else s1
    else s

/-- A line after a masked write (R265: DMA_WR, WR_UC). -/
def overlayLine (old : List TWord) (mask : BitVec 64) (data : BitVec 512) (tags : List Tag) : List TWord :=
  (List.range 8).map (fun i =>
    overlayWord (old.getD i ⟨0, .uninit⟩) ((mask >>> (8 * i)).truncate 8) ((data >>> (64 * i)).truncate 64) (tags.getD i .int))

/-- A write of one line at its home after the recall (R268). -/
def writeAtHome (a : Attr) (line : Nat) (f : List TWord → List TWord) (s : State) : State :=
  let s1 := recallLine a line s
  homeWrite a line (f (homeLine s1 line)) s1

/-- A DMA write of consecutive bytes with a tag (R78, R383): line by line, each under its byte mask. -/
def dmaWriteBytes (a : Attr) (pa : Nat) (bytes : List Byte) (tag : Tag) (fuel : Nat) (s : State) : State :=
  match fuel with
  | 0 => s
  | fuel + 1 =>
    if bytes.isEmpty then s
    else
      let off := pa % 64
      let n := min bytes.length (64 - off)
      let mask : BitVec 64 := BitVec.ofNat 64 ((2 ^ n - 1) * 2 ^ off)
      let data : BitVec 512 := BitVec.ofNat 512 (natOfBytes (bytes.take n) * 2 ^ (8 * off))
      let s1 := writeAtHome a (pa / 64) (fun old => overlayLine old mask data (List.replicate 8 tag)) (lookup (pa / 64) s)
      dmaWriteBytes a (pa + n) (bytes.drop n) tag fuel (wakeHome (pa / 64) s1)

/-- Bring every line of a range up to date at its home for a DMA read, each fill checked as its page asks (R45, R268). -/
def dmaFetch (a : Attr) (pa n : Nat) (s : State) : State :=
  ((List.range n).map (fun i => (pa + i) / 64)).eraseDups.foldl (fun st l => fillHome a l (cleanLine a l (lookup l (wakeHome l st)))) s

/-- A DMA read of consecutive bytes: UNINIT words read as zero (R32), and whether a word was POISON. -/
def dmaReadBytes (s : State) (pa n : Nat) : List Byte × Bool :=
  let byte (i : Nat) : TWord := readWord s ((pa + i) / 8)
  ((List.range n).map (fun i => let t := byte i
                                if t.tag = .uninit then 0 else wordByte t.data ((pa + i) % 8)),
   (List.range n).any (fun i => decide ((byte i).tag = .poison)))

/-- Write a whole span with its seal at the home (R42, R47, R265): a seal that does not match the data poisons the span and makes
one record at point 0x5; a span that comes poisoned is not tested (R52); the answer says whether it was good. -/
def spanWrite (a : Attr) (sec : Nat) (ws : List TWord) (sl : Word) (ctx : Nat) (s : State) : Bool × State :=
  let s1 := (List.range 4).foldl (fun st k => recallLine a (4 * sec + k) st) (wakeHome (4 * sec) s)
  let ok := spanPoisoned ws || sealMatches ws sl
  let ws' := if ok then ws else poisonWords ws
  let sl' := if ok then sl else sealOfWords ws'
  let s2 := match llcSector s1 sec with
    | some x => putSector sec { x with valid := 15, dirty := 15, words := ws', sealW := sl' } s1
    | none =>
      let r := allocSector a sec 15 15 ws' sl' s1
      if r.1 then r.2 else memWriteSpan sec ws' sl' s1
  if ok then (true, s2)
  else (false, recordSeal { point := 5, cls := 1, poisoned := true, locKind := 0, locator := sec, ctx := ctx,
                            stall := a.stall, computed := sealOfWords ws, expected := sl } s2)

/-- ZERO and CLEAR at the home (R283): zero data, one tag, seal zero. -/
def spanZero (a : Attr) (sec : Nat) (tag : Tag) (s : State) : State :=
  let s1 := (List.range 4).foldl (fun st k => recallLine a (4 * sec + k) st) s
  let ws := List.replicate 32 (TWord.mk 0 tag)
  match llcSector s1 sec with
  | some x => putSector sec { x with valid := 15, dirty := 15, words := ws, sealW := 0 } s1
  | none =>
    let r := allocSector a sec 15 15 ws 0 s1
    if r.1 then r.2 else memWriteSpan sec ws 0 s1

/-- The seal that a coherent read of a whole span receives with it (R46): every dirty sub-block has been settled. -/
def spanSeal (s : State) (sec : Nat) : Word :=
  match llcSector s sec with
  | some x => x.sealW
  | none => s.mem.sealAt sec

/-- Settle the four lines of a span at their home (R46). -/
def cleanSpan (a : Attr) (sec : Nat) (s : State) : State :=
  (List.range 4).foldl (fun st k => cleanLine a (4 * sec + k) st) s

/-! ## Maintenance at the home (R279–R283) -/

/-- The kinds of line maintenance. -/
inductive Maint where
  | clean | cleanInv | discard
deriving DecidableEq, Repr

/-- Whether any copy of a line above memory is dirty. -/
def lineDirty (s : State) (line : Nat) : Bool :=
  s.coh.lines.any (fun x => decide (x.1 = line)) ||
    (match llcSector s (line / 4) with | some x => x.dirty.getLsbD (line % 4) | none => false)

/-- Whether a sector lies in a locked way, and who owns the lock (R278, R281). -/
def sectorLock (s : State) (sec : Nat) : Option Nat :=
  match llcSector s sec with
  | some x => let l := odGet s 0x5100 (0x10 + x.way.val)
              if natBit l 0 then some (natField l 1 9) else none
  | none => none

/-- Write one dirty sub-block of a sector to memory with the sector's seal kept exact there (R44). -/
def flushSub (line : Nat) (s : State) : State :=
  match llcSector s (line / 4) with
  | some x =>
    if x.dirty.getLsbD (line % 4) then
      putSector (line / 4) { x with dirty := x.dirty &&& ~~~(BitVec.ofNat 4 (2 ^ (line % 4))) }
        (memWriteSub line (subWords x (line % 4)) s)
    else s
  | none => s

/-- Remove one sub-block from the LLC; the last one takes the sector with it. -/
def invalidateSub (line : Nat) (s : State) : State :=
  match llcSector s (line / 4) with
  | some x =>
    let v := x.valid &&& ~~~(BitVec.ofNat 4 (2 ^ (line % 4)))
    let d := x.dirty &&& ~~~(BitVec.ofNat 4 (2 ^ (line % 4)))
    if v = 0 then dropSector (line / 4) s else putSector (line / 4) { x with valid := v, dirty := d } s
  | none => s

/-- Drop the dirty data of a sub-block: where other sub-blocks of the sector stay dirty the seal is restored from the memory copy, otherwise the
sector goes with its seal (R281). -/
def discardSub (line : Nat) (s : State) : State :=
  let dirty := lineDirty s line
  let s0 := { s with coh := { s.coh with lines := s.coh.lines.erase line } }
  match llcSector s0 (line / 4) with
  | some x =>
    let k := line % 4
    let rest := x.dirty &&& ~~~(BitVec.ofNat 4 (2 ^ k))
    if dirty ∧ rest = 0 then dropSector (line / 4) s0
    else
      let mem := s0.mem.wordsAt (8 * line) 8
      let pre := takePad (8 * k) (TWord.mk 0 .uninit) []
      let post := takePad (24 - 8 * k) (TWord.mk 0 .uninit) []
      let sl := if x.dirty.getLsbD k then sealUpdate x.sealW (pre ++ subWords x k ++ post) (pre ++ mem ++ post) else x.sealW
      invalidateSub line (putSector (line / 4) { (setSub x k mem) with sealW := sl } s0)
  | none => s0

/-- A maintenance operation by address marks the issuing tile's outstanding misses for its line not-to-install (R282). -/
def markMisses (t line : Nat) (s : State) : State :=
  let x := s.tile t
  s.setTile t { x with misses := x.misses.map (fun m => if m.line = line then { m with noInstall := true } else m) }

/-- One line maintenance operation, snoops included (R279, R281). -/
def maintainLine (op : Maint) (a : Attr) (pl0 : Bool) (line : Nat) (s : State) : State :=
  let lock := sectorLock s (line / 4)
  let h := 0x5101 + homeSlice s (line / 4)
  let owns := match lock with | some o => decide (o = a.stall) || (decide (a.stall = 0) && pl0) | none => true
  let locked := lock.isSome
  match op with
  | .clean => flushSub line (cleanLine a line s)
  | .cleanInv =>
    let s1 := invalidateSub line (flushSub line (recallLine a line s))
    if locked then odBump h 0x02 s1 else s1
  | .discard =>
    if locked ∧ lineDirty s line ∧ !owns then odSet h 0x04 1 (odBump h 0x03 s)
    else
      let s1 := match dirEntry s line with
        | some d => clearDir line (snoopAll .inv (allHolders d) line s).2
        | none => s
      let s2 := discardSub line s1
      if locked then odBump h 0x02 s2 else s2

end Sys2Proof.Machine
end

