-- ==== Sys2Proof/Machine/Translate.lean ====
section
/-! DEFINITION. Translation: page-table walks, the TLB, the checks of every access, and the IOMMU (R316–R338). -/

namespace Sys2Proof.Machine

/-- The kinds of access that R323 tells apart. `special` is an atomic, vector, CZERO or CCLEAR access. -/
structure AccKind where
  write : Bool := false
  fetch : Bool := false
  special : Bool := false
deriving DecidableEq, Repr

/-- A translated access: its physical address and the attributes of its page (R320). -/
structure Xlat where
  pa : Nat
  side : Bool := false
  sealPage : Bool := true
  noAlloc : Bool := false
deriving DecidableEq, Repr

/-- A translation fault (R325, R326): the exception code, the reason, and the entry last read with its level. -/
structure XFault where
  code : Nat
  reason : Nat
  entry : Nat := 0
  level : Nat := 3
deriving DecidableEq, Repr

/-- WALKINFO of a fault (R326). -/
def XFault.walkinfo (f : XFault) : Word :=
  BitVec.ofNat 64 ((if f.level = 3 then 0 else f.entry / 8 * 8) + f.level * 2 ^ 52 + f.reason * 2 ^ 54)

/-- The index of a virtual address at a level (R316). -/
def vaIndex (va level : Nat) : Nat := natField va (36 - 11 * level) 11

/-- NEXT or FRAME of an entry as an address (R319, R320). -/
def entryAddr (e : Word) : Nat := natField e.toNat 14 38 * 16384

/-- Whether a stall may use a frame (R336); stall 0 is not checked. -/
def granted (s : State) (stall pa : Nat) : Bool := decide (stall = 0) || grantHolds s stall pa

/-- What a walk found: the leaf, the word it was read from and its address, and the table pointers read on the way. -/
structure WalkOk where
  leaf : Word
  word : TWord
  entry : Nat
  tables : List (Nat × Nat)
deriving DecidableEq, Repr

/-- A computation over the state that can end in a translation fault; the state's fills stay either way. -/
abbrev XM := ExceptT XFault (StateM State)

/-- How a walking unit reads an entry (R322): a core through its L2, the IOMMU at the home; each as a SEAL-set fill. -/
def walkRead (unit : Option Nat) (stall ea : Nat) (s : State) : TWord × State :=
  let a : Attr := { stall := stall }
  let s1 := match unit with
    | some t => acquireShared a t (ea / 64) s
    | none => fillHome a (ea / 64) (cleanLine a (ea / 64) (lookup (ea / 64) s))
  (readWord s1 (ea / 8), s1)

/-- A walk from a level (R322). -/
def walkFrom (unit : Option Nat) (stall va level ptr : Nat) (fuel : Nat) (seen : List (Nat × Nat)) (lastE lastL : Nat) : XM WalkOk := do
  match fuel with
  | 0 => throw { code := 8, reason := 0 }
  | fuel + 1 =>
    let s ← get
    if region s ptr ≠ .normal then throw { code := 0x0A, reason := 9, entry := lastE, level := lastL }
    if !granted s stall ptr then throw { code := 0x0A, reason := 10, entry := lastE, level := lastL }
    let ea := ptr + 8 * vaIndex va level
    let r := walkRead unit stall ea s
    set r.2
    let t := r.1
    if t.tag = .poison then throw { code := 0x0B, reason := 11, entry := ea, level := level }
    if t.tag ≠ .int ∧ t.tag ≠ .uninit then throw { code := 9, reason := 6, entry := ea, level := level }
    let e : Word := if t.tag = .uninit then 0 else t.data
    if !e.getLsbD 0 then throw { code := 8, reason := 0, entry := ea, level := level }
    if level = 2 then return { leaf := e, word := t, entry := ea, tables := seen }
    walkFrom unit stall va (level + 1) (entryAddr e) fuel (seen ++ [(level, entryAddr e)]) ea level

/-- Checks 1 to 5 of R323 on a leaf; the IOMMU ignores X and U (R337). -/
def leafCheck (s : State) (stall pl : Nat) (io : Bool) (k : AccKind) (leaf : Word) (entry level : Nat) : Option XFault :=
  let frame := entryAddr leaf
  let se := leaf.getLsbD 7
  let f (code reason : Nat) : Option XFault := some { code := code, reason := reason, entry := entry, level := level }
  if region s frame = .absent then f 8 2
  else if se ≠ decide (region s frame = .device) then f 9 4
  else if io ∧ se then f 9 4
  else if !granted s stall frame then f 9 5
  else if k.write ∧ !leaf.getLsbD 1 then f 9 3
  else if !io ∧ k.fetch ∧ (!leaf.getLsbD 2 ∨ se) then f 9 3
  else if !io ∧ pl = 2 ∧ !leaf.getLsbD 3 then f 9 3
  else if !io ∧ pl = 1 ∧ k.fetch ∧ leaf.getLsbD 3 then f 9 3
  else if k.special ∧ se then f 9 7
  else none

/-- Whether an access must set A or D (R324). -/
def needsAd (k : AccKind) (leaf : Word) : Bool := !leaf.getLsbD 5 || (k.write && !leaf.getLsbD 6)

/-- A leaf with A set, and D for a write. -/
def withAd (k : AccKind) (leaf : Word) : Word := leaf ||| 0x20 ||| (if k.write then 0x40 else 0)

/-- The FAR compare-and-swap that sets A and D in an entry at its home (R324, R238): it compares data and tag with what the walk read, and says
whether they were equal. -/
def setEntry (stall entry : Nat) (old : TWord) (v : Word) (s : State) : Bool × State :=
  let a : Attr := { stall := stall }
  let line := entry / 64
  let s1 := fillHome a line (recallLine a line (lookup line s))
  let ws := homeLine s1 line
  if ws.getD (entry / 8 % 8) ⟨0, .uninit⟩ ≠ old then (false, s1)
  else (true, homeWrite a line ((List.range 8).map (fun i => if i = entry / 8 % 8 then ⟨v, .int⟩ else ws.getD i ⟨0, .uninit⟩)) s1)

/-- The translated access of a leaf (R320). -/
def leafXlat (leaf : Word) (va : Nat) : Xlat :=
  { pa := entryAddr leaf + va % 16384, side := leaf.getLsbD 7,
    sealPage := leaf.getLsbD 8, noAlloc := decide (natField leaf.toNat 9 2 = 1) }

/-- The TLB entry that serves an access of core `c`. -/
def tlbLookup (cs : CoreSt) (va : Nat) : Option TlbEntry :=
  cs.tlb.find? (fun e => decide (e.stall = cs.stall) && decide (e.page = va / 16384) &&
    (e.glob || decide (e.asid = cs.arch.ttbr.truncate 12)))

/-- Put an entry into a TLB of 512, replacing one at random when it is full (R327). -/
def tlbInsert (l : List TlbEntry) (e : TlbEntry) (pick : Nat) : List TlbEntry :=
  let l' := l.filter (fun x => !(decide (x.stall = e.stall) && decide (x.page = e.page) && decide (x.asid = e.asid)))
  if l'.length < 512 then e :: l' else e :: l'.eraseIdx (pick % l'.length)

/-- Where a walk of core `c` starts: the deepest walk-cache entry, otherwise the root (R322, R327). -/
def walkStart (cs : CoreSt) (va : Nat) : Nat × Nat :=
  let hit (l : Fin 2) := cs.walkCache.find? (fun e => decide (e.stall = cs.stall) && decide (e.asid = cs.arch.ttbr.truncate 12) &&
    decide (e.level = l) && decide (e.va = va / 2 ^ (36 - 11 * l.val)))
  match hit 1 with
  | some e => (2, e.next)
  | none => match hit 0 with
    | some e => (1, e.next)
    | none => (0, entryAddr cs.arch.ttbr)

/-- Add what a walk read to the walk cache of 64 entries (R327). -/
def walkInsert (cs : CoreSt) (va : Nat) (tables : List (Nat × Nat)) (pick : Nat) : List WalkEntry :=
  tables.foldl (fun l t =>
    let e : WalkEntry := { stall := cs.stall, asid := cs.arch.ttbr.truncate 12, level := Fin.ofNat 2 t.1,
                           va := va / 2 ^ (36 - 11 * t.1), next := t.2 }
    if l.contains e then l else if l.length < 64 then e :: l else e :: l.eraseIdx (pick % l.length)) cs.walkCache

/-- The attributes under which a core's request reaches the home. -/
def coreAttr (cs : CoreSt) (x : Xlat) : Attr := { stall := cs.stall, agent := 0, sealPage := x.sealPage, noAlloc := x.noAlloc }

/-- The direct map of PL0 with translation off (R332). -/
def directMap (s : State) (va : Nat) (k : AccKind) : Except XFault Xlat :=
  if va.testBit 46 then
    if k.fetch then .error { code := 9, reason := 3 }
    else if k.special then .error { code := 9, reason := 7 }
    else .ok { pa := 0x0001000000000000 + va % 2 ^ 40, side := true }
  else if region s va = .normal then .ok { pa := va }
  else .error { code := 8, reason := 2 }

/-- Fill the TLB and the walk cache of core `c` (R327). -/
def fillTlb (c va : Nat) (leaf : Word) (tables : List (Nat × Nat)) (s : State) : State :=
  let cs := s.core c
  let e : TlbEntry :=
    { stall := cs.stall, asid := cs.arch.ttbr.truncate 12, glob := leaf.getLsbD 4, page := va / 16384, leaf := leaf }
  let tl := tlbInsert cs.tlb e (Config.victim s.free 512)
  let wc := walkInsert cs va tables (Config.victim s.free 64)
  (State.took s).setCore c { cs with tlb := tl, walkCache := wc }

/-- The checks after a walk, A and D included, and the TLB filled (R323, R324, R327); none where the entry has changed since the walk read
it. -/
def finishWalk (c va : Nat) (k : AccKind) (w : WalkOk) : XM (Option Xlat) := do
  let s ← get
  let cs := s.core c
  match leafCheck s cs.stall (swPl cs.arch.sw) false k w.leaf w.entry 2 with
  | some f => throw f
  | none =>
    if needsAd k w.leaf then
      if !cs.arch.tcr.getLsbD 1 then throw { code := 9, reason := 8, entry := w.entry, level := 2 }
      let r := setEntry cs.stall w.entry w.word (withAd k w.leaf) s
      if r.1 then
        set (fillTlb c va (withAd k w.leaf) w.tables r.2)
        return some (leafXlat (withAd k w.leaf) va)
      else
        set r.2
        return none
    else
      set (fillTlb c va w.leaf w.tables s)
      return some (leafXlat w.leaf va)

/-- The walking unit of a core: its L2, or the home directly in Walk, where L2 is bypassed (R192, R322). -/
def walkUnit (s : State) (c : Nat) : Option Nat := if (s.core c).walk then none else some (coreTile s c)

/-- A core's walk from a level and table (R322). Where its compare-and-swap fails it starts again from level 0 without the walk cache, and the
restart is counted (R324, R341); `fuel` bounds the restarts (log entry 178). -/
def coreWalk (c va : Nat) (k : AccKind) (start : Nat × Nat) (fuel : Nat) : XM Xlat := do
  match fuel with
  | 0 => throw { code := 8, reason := 0 }
  | fuel + 1 =>
    let s ← get
    let cs := s.core c
    let w ← walkFrom (walkUnit s c) cs.stall va start.1 start.2 3 [] 0 3
    match ← finishWalk c va k w with
    | some x => return x
    | none =>
      modify (fun t => odBump (0x5020 + coreStop t c / 72) 0x06 t)
      coreWalk c va k (0, entryAddr cs.arch.ttbr) fuel

/-- The translation of a core's access (R316, R322–R332). A hit passes checks 1 to 5 before an access that must set A or D walks again (R323,
R324). -/
def translate (c va : Nat) (k : AccKind) : XM Xlat := do
  let s ← get
  let cs := s.core c
  if 2 ^ 47 ≤ va then throw { code := 8, reason := 1 }
  if swPl cs.arch.sw = 0 ∧ !cs.arch.tcr.getLsbD 0 then
    match directMap s va k with
    | .ok x => return x
    | .error f => throw f
  else
    match tlbLookup cs va with
    | some e =>
      match leafCheck s cs.stall (swPl cs.arch.sw) false k e.leaf 0 3 with
      | some f => throw f
      | none => if needsAd k e.leaf then coreWalk c va k (walkStart cs va) 8 else return leafXlat e.leaf va
    | none => coreWalk c va k (walkStart cs va) 8

/-! ## The IOMMU (R337, R338) -/

def ioEntries (s : State) (die : Nat) : List IoEntry := Tbl.get s.vm.iommu die []

/-- Put a translation into an IOMMU of 4,096 entries in 16-way sets (R337). -/
def ioInsert (die : Nat) (e : IoEntry) (s : State) : State :=
  let l := (ioEntries s die).filter (fun x => !(decide (x.stall = e.stall) && decide (x.page = e.page)))
  let same := l.filter (fun x => decide (x.page % 256 = e.page % 256))
  let kept := if same.length < 16 then l
              else (match same[Config.victim s.free 16 % 16]? with | some v => l.erase v | none => l)
  { (State.took s) with vm := { s.vm with iommu := s.vm.iommu.set die (e :: kept) } }

/-- Where a walk of a die's IOMMU starts: the deepest entry of its walk cache, otherwise the root (R322, R337). -/
def ioWalkStart (s : State) (die stall va root : Nat) : Nat × Nat :=
  let l := Tbl.get s.vm.ioWalk die []
  let hit (v : Fin 2) := l.find? (fun e => decide (e.stall = stall) && decide (e.level = v) && decide (e.va = va / 2 ^ (36 - 11 * v.val)))
  match hit 1 with
  | some e => (2, e.next)
  | none => match hit 0 with
    | some e => (1, e.next)
    | none => (0, root)

/-- Add what a walk read to a die's walk cache of 256 entries (R337). -/
def ioWalkInsert (die stall va : Nat) (tables : List (Nat × Nat)) (s : State) : State :=
  let pick := Config.victim s.free 256
  let l := tables.foldl (fun l t =>
    let e : WalkEntry := { stall := stall, asid := 0, level := Fin.ofNat 2 t.1, va := va / 2 ^ (36 - 11 * t.1), next := t.2 }
    if l.contains e then l else if l.length < 256 then e :: l else e :: l.eraseIdx (pick % l.length)) (Tbl.get s.vm.ioWalk die [])
  { (State.took s) with vm := { s.vm with ioWalk := s.vm.ioWalk.set die l } }

/-- The checks after an I/O walk, A and D included (R323, R324, R337); none where the entry has changed since the walk read it. -/
def ioFinish (die stall va : Nat) (k : AccKind) (w : WalkOk) : XM (Option Xlat) := do
  let s ← get
  match leafCheck s stall 0 true k w.leaf w.entry 2 with
  | some f => throw f
  | none =>
    let leaf := if needsAd k w.leaf then withAd k w.leaf else w.leaf
    let r := if needsAd k w.leaf then setEntry stall w.entry w.word leaf s else (true, s)
    if r.1 then
      set (ioWalkInsert die stall va w.tables (ioInsert die { stall := stall, page := va / 16384, leaf := leaf } r.2))
      return some (leafXlat leaf va)
    else
      set r.2
      return none

/-- A walk of a die's IOMMU from a level and table, which fills its walk cache when its access passes the checks (R322, R337); it starts again
from level 0 without the walk cache where its compare-and-swap fails (R324; log entry 178). -/
def ioWalks (die stall va root : Nat) (k : AccKind) (start : Nat × Nat) (fuel : Nat) : XM Xlat := do
  match fuel with
  | 0 => throw { code := 8, reason := 0 }
  | fuel + 1 =>
    modify (odBump (0x5020 + die) 0x01)
    let w ← walkFrom none stall va start.1 start.2 3 [] 0 3
    match ← ioFinish die stall va k w with
    | some x => return x
    | none => ioWalks die stall va root k (0, root) fuel

/-- Translate an I/O virtual address for a die's engines or inbound traffic (R337, R338); a physical address of stall 0 is accessed as one of a
page with SEAL set, as R332 has it for cores. -/
def ioTranslate (die stall va : Nat) (write : Bool) : XM Xlat := do
  let s ← get
  let root := odGet s (0x4100 + stall) 0x24
  if stall = 0 ∧ root = 0 then
    match region s va with
    | .normal => return { pa := va }
    | .device => throw { code := 9, reason := 4 }
    | .absent => throw { code := 8, reason := 2 }
  else if root = 0 then throw { code := 8, reason := 0 }
  else if 2 ^ 47 ≤ va then throw { code := 8, reason := 1 }
  else
    let k : AccKind := { write := write }
    let base := natField root 14 38 * 16384
    let start := ioWalkStart s die stall va base
    let hit := (ioEntries s die).find? (fun e => decide (e.stall = stall) && decide (e.page = va / 16384))
    match hit with
    | some e =>
      match leafCheck s stall 0 true k e.leaf 0 3 with
      | some f => throw f
      | none => if needsAd k e.leaf then ioWalks die stall va base k start 8 else return leafXlat e.leaf va
    | none => ioWalks die stall va base k start 8

/-- An I/O translation with its state; a fault is counted (R341). -/
def ioLookup (die stall va : Nat) (write : Bool) (s : State) : Option Xlat × State :=
  match (ioTranslate die stall va write).run s with
  | (.ok x, s1) => (some x, s1)
  | (.error _, s1) => (none, odBump (0x5020 + die) 0x02 s1)

end Sys2Proof.Machine
end

