-- ==== Sys2Proof/Machine/Operands.lean ====
section
/-! DEFINITION. How a Charger core executes one instruction: fetch checks, operand formation, loads, stores, tag checks and
retirement (R172, R180–R183, R196–R217, R221–R223). -/

namespace Sys2Proof.Machine

/-- Why an instruction does not complete now: an exception, or a home that is busy with its line (R269). -/
inductive Stop where
  | exc (x : Exc)
  | wait
deriving DecidableEq, Repr

/-- A computation of one core instruction. Fills, translations and drained stores stay when it ends in an exception; the
architectural writes come after every check (R216). -/
abbrev CoreRun := ExceptT Stop (StateM State)

/-- The place of an instruction: its core, address, successor and level. -/
structure Env where
  c : Nat
  pc : BitVec 47
  npc : BitVec 47
  pl : Nat
deriving DecidableEq, Repr

def raiseX {α : Type} (x : Exc) : CoreRun α := throw (.exc x)

/-- Change the state. -/
def change (f : State → State) : CoreRun Unit := modify f

/-- Change the architectural registers of the core. -/
def changeArch (e : Env) (f : Arch → Arch) : CoreRun Unit :=
  modify (fun s => s.setCore e.c { s.core e.c with arch := f (s.core e.c).arch })

def getArch (e : Env) : CoreRun Arch := do return ((← get).core e.c).arch

/-! ## Registers (R196, R197) -/

def Arch.pReg (a : Arch) (r : Nat) : TWord := Tbl.get a.p r ⟨0, .uninit⟩
def Arch.setP (a : Arch) (r : Nat) (v : TWord) : Arch := { a with p := a.p.set r v }
def Arch.xReg (a : Arch) (r : Nat) : TWord := Tbl.get a.x r ⟨0, .uninit⟩
def Arch.setX (a : Arch) (r : Nat) (v : TWord) : Arch := { a with x := a.x.set r v }
def Arch.vWord (a : Arch) (r w : Nat) : TWord := Tbl.get a.v (8 * r + w) ⟨0, .uninit⟩
def Arch.setVWord (a : Arch) (r w : Nat) (v : TWord) : Arch := { a with v := a.v.set (8 * r + w) v }
def Arch.kReg (a : Arch) (r : Nat) : BitVec 64 := if r = 0 then BitVec.allOnes 64 else Tbl.get a.k r 0
def Arch.setK (a : Arch) (r : Nat) (v : BitVec 64) : Arch := if r = 0 then a else { a with k := a.k.set r v }

/-- A scalar result in F n leaves words 1–7 of V n zero and UNINIT (R197). -/
def Arch.setF (a : Arch) (r : Nat) (v : TWord) : Arch :=
  (List.range 7).foldl (fun b w => b.setVWord r (w + 1) ⟨0, .uninit⟩) (a.setVWord r 0 v)

/-! ## Encoded lengths and legality (R199–R202) -/

def szBytes (z : Sz) : Nat := match z with | .b => 1 | .h => 2 | .w => 4 | .d => 8
def fszBytes (z : FSz) : Nat := match z with | .s => 4 | .d => 8

/-- The length of an operand specifier (R202). -/
def opdLen (o : Opd) : Nat :=
  match o with
  | .memD8 _ _ => 2
  | .memD32 _ _ => 5
  | .memX _ _ _ _ _ => 3
  | .slotL _ => 2
  | .ind _ _ => 2
  | .indSlot _ _ => 3
  | .pc _ => 5
  | .imm n _ => 1 + 2 ^ n.val
  | _ => 1

/-- The length of a prefix (R200, R242). -/
def prefixLen (p : Prefix) : Nat := match p with | .vp _ => 2 | _ => 1

/-- The length of an instruction: prefixes, opcode, specifiers and raw bytes (R199). -/
def instrLen (a : At) (opcode : Nat) (ops : List Opd) (raw : Nat) : Nat :=
  (a.pfx.map prefixLen).sum + opcode + (ops.map opdLen).sum + raw

/-- A specifier without reserved bits or values (R202). -/
def opdOk (o : Opd) : Bool :=
  match o with
  | .x r => decide (r.toNat < 8)
  | .memX _ _ _ rsv _ => decide (rsv = 0)
  | .reserved => false
  | _ => true

/-- A memory operand in modes 0x4–0xB. -/
def opdMem (o : Opd) : Bool :=
  match o with
  | .mem _ | .memD8 _ _ | .memD32 _ _ | .memX _ _ _ _ _ | .slot _ | .slotL _ | .ind _ _ | .indSlot _ _ => opdOk o
  | _ => false

/-- A permitted source of an integer opcode. -/
def opdSrc (o : Opd) : Bool := opdOk o

/-- A permitted destination: neither an immediate nor PC-relative (R202). -/
def opdDst (o : Opd) : Bool :=
  match o with
  | .pc _ | .imm4 _ | .imm _ _ => false
  | _ => opdOk o

/-- A permitted source of a floating-point opcode whose source has `n` bytes (R202). -/
def opdFSrc (n : Nat) (o : Opd) : Bool :=
  match o with
  | .imm4 _ => false
  | .imm k _ => decide (2 ^ k.val = n)
  | _ => opdOk o

/-- The value of an immediate (R202). -/
def immVal (n : Fin 4) (v : Word) : Word :=
  BitVec.ofInt 64 ((v.truncate (8 * 2 ^ n.val)).toInt)

/-! ## Faults -/

/-- The exception code of a tag that a check refuses (R206, R207). -/
def tagCode (t : Tag) : Nat := match t with | .uninit => 4 | .poison => 5 | _ => 6

/-- A refused tag of an operand (R214, R217). -/
def tagExc (t : Tag) (opnd eaddr : Nat) : Exc := { code := tagCode t, eaddr := eaddr, opnd := opnd, tag := t }

/-- The exception of a translation fault (R214, R325, R326). -/
def xlatExc (f : XFault) (va opnd : Nat) (write fetch upper ind : Bool) : Exc :=
  { code := f.code, eaddr := va, fetch := fetch, write := write, opnd := opnd, upper := upper, indirect := ind,
    walkinfo := some f.walkinfo }

/-- Translate an address, turning a translation fault into an exception. -/
def xlat (c va : Nat) (k : AccKind) (mk : XFault → Exc) : CoreRun Xlat :=
  ExceptT.mk (fun s =>
    match (translate c va k).run s with
    | (.ok x, s1) => (.ok x, s1)
    | (.error f, s1) => (.error (.exc (mk f)), s1))

/-! ## Lines (R189, R192, R260, R261) -/

/-- Put a line into an L1 cache of 128 sets of 8 ways, which lists the line used last first. -/
def l1Insert (l : List Nat) (line pick : Nat) : List Nat :=
  if l.contains line then newest line l
  else
    let same := l.filter (fun x => decide (x % 128 = line % 128))
    if same.length < 8 then line :: l
    else match pseudoLru l pick same with
      | some v => line :: l.filter (fun x => decide (x ≠ v))
      | none => line :: l

/-- An event of the core, counted when the instruction retires (R194). -/
def note (e : Env) (event : Nat) : CoreRun Unit :=
  modify (fun s => let cs := s.core e.c
                   s.setCore e.c { cs with events := event :: cs.events })

/-- Whether an access of core `c` to a line's home must wait: the home is busy with it (R269), or a domain on its way is not up (R418). -/
def coreWaits (s : State) (c line : Nat) : Bool := lineBusy s (coreStall s c) line || !pathUp s (coreStop s c) line

/-- The instruction waits for a line; the domains on its way are woken. -/
def waitFor (e : Env) (line : Nat) : CoreRun Unit := do
  change (wakePath (coreStop (← get) e.c) line)
  throw .wait

/-- A load trains the prefetchers: 16 streams of the L1D's, 32 of the L2's where it missed L1D; a stream lies in one 16 KiB page (R186). -/
def trainStreams (cs : CoreSt) (x : Nat × Bool) : CoreSt :=
  let page := x.1 / 256
  { cs with streamsL1 := (newest page cs.streamsL1).take 16,
            streamsL2 := if x.2 then (newest page cs.streamsL2).take 32 else cs.streamsL2 }

/-- A load trains the prefetchers at once, or in blinker mode when it retires (R186). -/
def trainLoad (cs : CoreSt) (line : Nat) : CoreSt :=
  let x := (line, !cs.l1d.contains line)
  if cs.modeNow.getLsbD 0 then { cs with training := cs.training ++ [x] } else trainStreams cs x

/-- Bring a line to the core for reading: into L2 and L1, or at its home in Walk (R192), where only a line of the frame window (`frame`) is
held by the core. A line that its home is busy with makes the instruction wait (R269). A load's line leaves the speculative fill buffer (R187). -/
def touchLine (e : Env) (x : Xlat) (line : Nat) (fetch : Bool) (frame : Bool := false) : CoreRun Unit := do
  let s ← get
  let cs := s.core e.c
  let t := coreTile s e.c
  let a := coreAttr cs x
  if cs.walk ∧ !frame then
    if coreWaits s e.c line then waitFor e line
    set (fillHome a line (cleanLine a line (lookup line s)))
  else
    if (l2State s t line).isNone ∧ coreWaits s e.c line then waitFor e line
    change (fun s => 
      let s1 := acquireShared a t line s
      let c1 := s1.core e.c
      if cs.walk then s1
      else if fetch then s1.setCore e.c { c1 with l1i := l1Insert c1.l1i line s1.free }
      else s1.setCore e.c { trainLoad c1 line with l1d := l1Insert c1.l1d line s1.free, specFill := c1.specFill.erase line })

/-! ## The store buffer (R180–R183, R221) -/

/-- Write a store to the line its tile holds in M, or to the home in Walk (R180, R192). -/
def storeLine (c : Nat) (en : StoreEntry) (line : Nat) (s : State) : State :=
  let cs := s.core c
  let a : Attr := { stall := cs.stall, sealPage := en.sealPage, noAlloc := en.noAlloc }
  if cs.walk then writeAtHome a line (applyWrites line en.writes) (lookup line s)
  else
    let s1 := acquireOwned a (coreTile s c) line s
    { s1 with coh := { s1.coh with lines := s1.coh.lines.set line (applyWrites line en.writes (readLine s1 line)) } }

/-- Whether a core can obtain a line for writing now. -/
def lineReady (c line : Nat) (s : State) : Bool :=
  let st := if (s.core c).walk then none else l2State s (coreTile s c) line
  decide (st = some .m) || decide (st = some .e) || !coreWaits s c line

/-- Write the oldest store of a core's store buffer; none while a home is busy with one of its lines (R180). -/
def drainOne (c : Nat) (s : State) : Option State :=
  match (s.core c).storeBuf with
  | [] => some s
  | en :: r =>
    if (storeLines en).all (fun l => lineReady c l s) then
      let s1 := (storeLines en).foldl (fun st l => storeLine c en l st) s
      some (s1.setCore c { s1.core c with storeBuf := r })
    else none

/-- Write the `n` oldest stores. -/
def drainN (c n : Nat) (s : State) : Option State :=
  match n with
  | 0 => some s
  | n + 1 => match drainOne c s with
    | some s1 => drainN c n s1
    | none => none

/-- Write the whole store buffer. -/
def drainStores (c : Nat) (s : State) : Option State := drainN c (s.core c).storeBuf.length s

/-- Drain as many stores as an older-store rule asks for, or wait. -/
def drain (e : Env) (n : Nat) : CoreRun Unit := do
  match drainN e.c n (← get) with
  | some s => set s
  | none => do
    change (fun s => ((s.core e.c).storeBuf.flatMap storeLines).foldl (fun t l => wakePath (coreStop t e.c) l t) s)
    throw .wait

/-- FENCE: every older store visible (R225). -/
def fenceAll (e : Env) : CoreRun Unit := do drain e (((← get).core e.c).storeBuf.length)

/-! ## Accesses -/

/-- A translated access: its address, size, the translations of its lower and upper lines, and whether it is frame-relative and within the
frame window (R175). -/
structure Acc where
  va : Nat
  size : Nat
  lo : Xlat
  hi : Xlat
  opnd : Nat
  frame : Bool := false
deriving DecidableEq, Repr

/-- Whether an access crosses a 64-byte line (R183). -/
def crosses (va size : Nat) : Bool := decide (va / 64 ≠ (va + size - 1) / 64)

/-- The virtual words an access touches, lowest first. -/
def Acc.words (a : Acc) : List Nat := (List.range ((a.va + a.size - 1) / 8 - a.va / 8 + 1)).map (a.va / 8 + ·)

/-- Whether a virtual word lies in the upper half of a split access. -/
def Acc.upper (a : Acc) (wv : Nat) : Bool := decide (wv / 8 ≠ a.va / 64)

/-- The physical word of a virtual word. -/
def Acc.phys (a : Acc) (wv : Nat) : Nat := 8 * ((if a.upper wv then a.hi.pa else a.lo.pa) / 64) + wv % 8

/-- A partial access (R209). -/
def Acc.part (a : Acc) : Bool := decide (a.size % 8 ≠ 0) || decide (a.va % 8 ≠ 0)

/-- Translate an access, the lower half first, and check the alignment that side-effect pages ask for: a misaligned access of one is never split
(R183, R215, R223). -/
def formAcc (e : Env) (va size opnd : Nat) (k : AccKind) : CoreRun Acc := do
  let lo ← xlat e.c va k (fun f => xlatExc f va opnd k.write false false false)
  let up := 64 * (va / 64 + 1)
  if lo.side ∧ (8 < size ∨ va % size ≠ 0) then raiseX { code := 3, eaddr := va, write := k.write, opnd := opnd }
  let hi ← if crosses va size then
      (if va / 16384 = up / 16384 then pure { lo with pa := 64 * (lo.pa / 64 + 1) }
       else xlat e.c up k (fun f => xlatExc f up opnd k.write false true false))
    else pure lo
  if (lo.side || hi.side) ∧ (8 < size ∨ va % size ≠ 0) then
    raiseX { code := 3, eaddr := va, write := k.write, opnd := opnd }
  return { va := va, size := size, lo := lo, hi := hi, opnd := opnd }

/-- A word as the core sees it: its frame register, otherwise the coherent word, under its own older stores (R177, R181, R221). -/
def ownWord (s : State) (c w : Nat) : TWord :=
  ((s.core c).storeBuf.flatMap (·.writes)).foldl (fun t x => if x.w = w then overlayWord t x.mask x.data x.tag else t)
    (Tbl.get (s.core c).frameRegs w (readWord s w))

/-- The bytes of a word that an access touches. -/
def Acc.mask (a : Acc) (wv : Nat) : BitVec 8 :=
  (List.range 8).foldl (fun m i => if a.va ≤ 8 * wv + i ∧ 8 * wv + i < a.va + a.size then m ||| BitVec.ofNat 8 (2 ^ i) else m) 0

/-- The physical words an access touches, with the bytes it touches of each. -/
def Acc.touched (a : Acc) : List (Nat × BitVec 8) := a.words.map (fun wv => (a.phys wv, a.mask wv))

/-- Whether a store covers every byte of a load. -/
def entryCovers (en : StoreEntry) (ws : List (Nat × BitVec 8)) : Bool :=
  ws.all (fun x => en.writes.any (fun w => decide (w.w = x.1) && decide (x.2 &&& ~~~w.mask = 0)))

/-- Whether a store overlaps a load. -/
def entryOverlaps (en : StoreEntry) (ws : List (Nat × BitVec 8)) : Bool :=
  ws.any (fun x => en.writes.any (fun w => decide (w.w = x.1) && decide (x.2 &&& w.mask ≠ 0)))

/-- How many of the oldest stores a load waits for: none where the youngest overlapping store covers it, otherwise every overlapping one (R181). -/
def waitsFor (buf : List StoreEntry) (ws : List (Nat × BitVec 8)) : Nat :=
  let idx := (List.range buf.length).filter (fun i => match buf[i]? with | some en => entryOverlaps en ws | none => false)
  match idx.getLast? with
  | none => 0
  | some i => if (match buf[i]? with | some en => entryCovers en ws | none => false) then 0 else i + 1

/-- A load waits for the older stores that it overlaps and cannot be forwarded from, which counts as FWD_BLOCKED (R181, R194). -/
def awaitStores (e : Env) (ws : List (Nat × BitVec 8)) : CoreRun Unit := do
  let n := waitsFor ((← get).core e.c).storeBuf ws
  if n ≠ 0 then
    note e 6
    drain e n

/-- Whether a core holds a line of its frame window in frame registers (R174). -/
def renamed (cs : CoreSt) (line : Nat) : Bool := cs.frame.any (fun x => decide (x.2 = some line))

/-- The virtual lines of the frame window of 512 bytes at P13, which must hold an 8-aligned PTR (R174). -/
def frameLines (a : Arch) : List Nat :=
  let p := a.pReg 13
  let v := p.data.toNat
  if p.tag = .ptr ∧ v % 8 = 0 ∧ v + 511 < 2 ^ 47 then (List.range ((v + 511) / 64 - v / 64 + 1)).map (v / 64 + ·) else []

/-- Whether a core holds a word in a frame register: it lies within the window, in a line that is renamed (R174, R177). -/
def frameWord (cs : CoreSt) (w : Nat) : Bool :=
  let p := (cs.arch.pReg 13).data.toNat / 8
  cs.frame.any (fun x => decide (x.2 = some (w / 8)) && decide (p ≤ 8 * x.1 + w % 8) && decide (8 * x.1 + w % 8 < p + 64))

/-- Count an event of a core by itself, outside retirement. -/
def coreEvent (c event n : Nat) (s : State) : State :=
  countEvent c event n (some (swPl (s.core c).arch.sw)) (s.core c).arch.pc s

/-- A core discards the loads that it has executed ahead: their speculative fill buffer entries are dropped and counted, and a non-installing read
that is outstanding fills none (R187, R194). -/
def dropSpec (c : Nat) (s : State) : State :=
  let cs := s.core c
  let t := coreTile s c
  let x := s.tile t
  let s1 := if x.misses.any (fun m => decide (m.op = 4)) then
      s.setTile t { x with misses := x.misses.map (fun m => if m.op = 4 then { m with noInstall := true } else m) }
    else s
  if cs.specFill.isEmpty then s1
  else coreEvent c 0x00C cs.specFill.length (s1.setCore c { s1.core c with specFill := [] })

/-- A virtual line of the window is renamed as a physical line. -/
def nameLine (c vline line : Nat) (s : State) : State :=
  s.setCore c { s.core c with frame := (s.core c).frame.map (fun x => if x.1 = vline then (x.1, some line) else x) }

/-- Read a line that enters the window (R176). Where its translation faults or its home is busy, the first access that needs it reads it (log
entry 137). -/
def enterLine (c vline : Nat) (s : State) : State :=
  match (translate c (64 * vline) {}).run s with
  | (.error _, _) => s
  | (.ok x, s1) =>
    let t := coreTile s1 c
    let line := x.pa / 64
    if x.side ∨ ((l2State s1 t line).isNone ∧ coreWaits s1 c line = true) then s
    else
      let s2 := acquireShared (coreAttr (s1.core c) x) t line s1
      let c2 := s2.core c
      nameLine c vline line (if c2.walk then s2 else s2.setCore c { c2 with l1d := l1Insert c2.l1d line s2.free })

/-- Whether P13 points into a side-effect page: the window is not renamed then (R174). -/
def sideWindow (c : Nat) (s : State) : Bool :=
  match (translate c ((s.core c).arch.pReg 13).data.toNat {}).run s with
  | (.ok x, _) => x.side
  | (.error _, _) => false

/-- The lines that leave the window are written to L1D (R176); in Walk, where L2 is bypassed, they go to their homes (R192, R193). -/
def leaveLines (c : Nat) (out : List Nat) (s : State) : State :=
  let t := coreTile s c
  out.foldl (fun st l =>
    let st1 := (flushFrame t l st).getD st
    if (st1.core c).walk then evictL2 { stall := (st1.core c).stall } t l st1 else st1) s

/-- The window slides to P13 (R176): renamed lines that leave it are written to L1D, entering lines are read, and each is counted. -/
def slideFrame (c : Nat) (s : State) : State :=
  let cs := s.core c
  let p := cs.arch.pReg 13
  if cs.frameAt = some p then s
  else
    let want := if sideWindow c s then [] else frameLines cs.arch
    let out := cs.frame.filterMap (fun x => if want.contains x.1 then none else x.2)
    let new := want.filter (fun v => !cs.frame.any (fun x => decide (x.1 = v)))
    let s1 := leaveLines c out s
    let keep := want.map (fun v => (v, ((s1.core c).frame.find? (fun x => decide (x.1 = v))).bind (·.2)))
    let s2 := s1.setCore c { s1.core c with frame := keep, frameAt := some p }
    let s3 := new.foldl (fun st v => enterLine c v st) s2
    let n := out.length + new.length
    if n = 0 then s3 else coreEvent c 0x008 n s3

/-- A core leaves its frame window altogether. -/
def leaveWindow (c : Nat) (s : State) : State :=
  let s1 := leaveLines c ((s.core c).frame.filterMap (·.2)) s
  s1.setCore c { s1.core c with frame := [], frameAt := none }

/-- Whether the bytes from a virtual address lie wholly within the frame window, which slides to P13 first (R174, R175). -/
def inFrame (e : Env) (va size : Nat) : CoreRun Bool := do
  change (slideFrame e.c)
  let cs := (← get).core e.c
  let p := (cs.arch.pReg 13).data.toNat
  return !cs.frame.isEmpty && decide (p ≤ va) && decide (va + size ≤ p + 512)

/-- The lines of an access with their virtual numbers and translations, lowest first (R183). -/
def Acc.lines (a : Acc) : List (Nat × Xlat) :=
  (a.va / 64, a.lo) :: (if crosses a.va a.size then [(a.va / 64 + 1, a.hi)] else [])

/-- Read the lines of a frame-relative access: one that is not renamed is filled as by an ordinary load first (R175, R176, R178). -/
def frameLoad (e : Env) (ls : List (Nat × Xlat)) : CoreRun Unit := do
  match ls with
  | [] => return ()
  | (v, x) :: r =>
    if !renamed ((← get).core e.c) (x.pa / 64) then
      touchLine e x (x.pa / 64) false true
      change (nameLine e.c v (x.pa / 64))
    frameLoad e r

/-- The events of a load of words (R194): an access of a frame word through other addressing, and a miss of L1D, each once. -/
def noteLoad (e : Env) (words : List Nat) : CoreRun Unit := do
  let cs := (← get).core e.c
  if words.any (frameWord cs) then note e 9
  if !cs.walk ∧ words.any (fun w => !cs.l1d.contains (w / 8) && !renamed cs (w / 8)) then note e 4

/-- Load the words of an access of normal memory: frame words from the frame registers (R175, R177), others under R181 and R183. A load counts
once as one that missed L1D. -/
def loadWords (e : Env) (a : Acc) : CoreRun (List TWord) := do
  let cs := (← get).core e.c
  if a.frame then frameLoad e a.lines
  else
    awaitStores e a.touched
    noteLoad e (a.touched.map (·.1))
    touchLine e a.lo (a.lo.pa / 64) false (renamed cs (a.lo.pa / 64))
    if crosses a.va a.size then
      note e 7
      touchLine e a.hi (a.hi.pa / 64) false (renamed cs (a.hi.pa / 64))
  let s ← get
  return a.words.map (fun wv => ownWord s e.c (a.phys wv))

/-- The bytes of an access within its words. -/
def Acc.bytes (a : Acc) (ws : List TWord) : List Byte :=
  (List.range a.size).map (fun j => wordByte (ws.getD ((a.va + j) / 8 - a.va / 8) ⟨0, .uninit⟩).data ((a.va + j) % 8))

/-- The tag of a partial load (R209). -/
def partLoadTag (fp : Bool) (ws : List TWord) : Tag :=
  if ws.any (fun t => decide (t.tag = .bytes)) then .bytes
  else if fp && ws.all (fun t => decide (t.tag = .float)) then .float
  else .int

/-- A store's writes: each touched word under its mask, with the tag written (R209). -/
def Acc.writes (a : Acc) (bytes : List Byte) (tag : Nat → Tag) : List WordWrite :=
  a.words.map (fun wv =>
    { w := a.phys wv, mask := a.mask wv, tag := tag (wv - a.va / 8),
      data := wordOfBytes ((List.range 8).map (fun i =>
        if a.va ≤ 8 * wv + i then bytes.getD (8 * wv + i - a.va) 0 else 0)) })

/-- Put a store into the store buffer; a full buffer writes its oldest store first (R167, R180). In Walk the store goes to its home before the
core makes its next access (R192). -/
def pushStore (e : Env) (en : StoreEntry) : CoreRun Unit := do
  if 64 ≤ ((← get).core e.c).storeBuf.length then drain e 1
  change (fun s => s.setCore e.c { s.core e.c with storeBuf := (s.core e.c).storeBuf ++ [en] })
  if ((← get).core e.c).walk then fenceAll e

/-- The core comes to hold the lines of a frame store in M or E, and waits where it cannot (R175). -/
def ownLines (e : Env) (ls : List (Nat × Xlat)) : CoreRun Unit := do
  match ls with
  | [] => return ()
  | (v, x) :: r =>
    let line := x.pa / 64
    let s ← get
    let t := coreTile s e.c
    if l2State s t line ≠ some .m ∧ l2State s t line ≠ some .e then
      if coreWaits s e.c line then waitFor e line
      change (acquireOwned (coreAttr (s.core e.c) x) t line)
    change (nameLine e.c v line)
    ownLines e r

/-- A write goes into its frame register. -/
def frameWrite (c : Nat) (s : State) (w : WordWrite) : State :=
  let cs := s.core c
  s.setCore c { cs with frameRegs := cs.frameRegs.set w.w (overlayWord (ownWord s c w.w) w.mask w.data w.tag) }

/-- Write frame words (R175, R177): the store waits until its lines are held in M or E, and goes to the frame registers after every older store
has been written, so that the order of stores stays that of the program; words of it outside the window are written with them. -/
def frameStore (e : Env) (ls : List (Nat × Xlat)) (en : StoreEntry) : CoreRun Unit := do
  fenceAll e
  ownLines e ls
  change (fun s =>
    let cs := s.core e.c
    let rest : StoreEntry := { en with writes := en.writes.filter (fun w => !frameWord cs w.w) }
    (storeLines rest).foldl (fun st l => storeLine e.c rest l st)
      ((en.writes.filter (fun w => frameWord cs w.w)).foldl (frameWrite e.c) s))

/-- Store bytes: into frame registers, into the store buffer, or to a device after every older store is visible (R175, R177, R182, R223). -/
def storeBytes (e : Env) (a : Acc) (bytes : List Byte) (tag : Nat → Tag) : CoreRun Unit := do
  if a.lo.side then
    fenceAll e
    change (fun s => deviceWrite (s.core e.c).stall a.lo.pa a.size (wordOfBytes bytes) s)
  else
    let en : StoreEntry := { writes := a.writes bytes tag, noAlloc := a.lo.noAlloc, sealPage := a.lo.sealPage }
    let cs := (← get).core e.c
    if crosses a.va a.size then note e 7
    if a.frame then frameStore e a.lines en
    else if en.writes.any (fun w => frameWord cs w.w) then
      note e 9
      frameStore e a.lines en
    else pushStore e en

/-! ## Operands -/

/-- Where an operand is. -/
inductive Place where
  | p (r : Nat)
  | x (r : Nat)
  | f (r : Nat)
  | imm (v : Word)
  | mem (a : Acc)
deriving DecidableEq, Repr

/-- A base register: it must be PTR (R208). -/
def baseReg (e : Env) (r opnd : Nat) : CoreRun Nat := do
  let t := (← getArch e).pReg r
  if t.tag ≠ .ptr then raiseX (tagExc t.tag opnd 0)
  return t.data.toNat

/-- A sum modulo 2^64 of an address and a signed displacement. -/
def addrAdd (a : Nat) (d : Int) : Nat := (BitVec.ofNat 64 a + BitVec.ofInt 64 d).toNat

/-- A frame slot's address: P13 is a PTR, and the address 8-aligned (R202, R208). -/
def slotAddr (e : Env) (n opnd : Nat) (ind : Bool) : CoreRun Nat := do
  let b ← baseReg e 13 opnd
  let va := addrAdd b (8 * n)
  if va % 8 ≠ 0 then raiseX { code := 3, eaddr := va, opnd := opnd, indirect := ind }
  return va

/-- Read the pointer of a memory-indirect operand (R208, R222); `frame` marks one in a slot of the frame window. -/
def readPointer (e : Env) (va opnd : Nat) (frame : Bool := false) : CoreRun Nat := do
  if va % 8 ≠ 0 then raiseX { code := 3, eaddr := va, opnd := opnd, indirect := true }
  let lo ← xlat e.c va {} (fun f => xlatExc f va opnd false false false true)
  if lo.side then raiseX { tagExc .int opnd va with indirect := true }
  let ws ← loadWords e { va := va, size := 8, lo := lo, hi := lo, opnd := opnd, frame := frame }
  let t := ws.headD ⟨0, .uninit⟩
  if t.tag ≠ .ptr then raiseX { tagExc t.tag opnd va with indirect := true }
  return t.data.toNat

/-- The address of a memory operand (R202, R208). -/
def formAddr (e : Env) (opnd : Nat) (o : Opd) : CoreRun Nat := do
  match o with
  | .mem b => baseReg e b.val opnd
  | .memD8 b d => return addrAdd (← baseReg e b.val opnd) d.toInt
  | .memD32 b d => return addrAdd (← baseReg e b.val opnd) d.toInt
  | .memX b i sc _ d =>
    let a ← baseReg e b.val opnd
    let t := (← getArch e).xReg i.val
    if t.tag ≠ .int ∧ t.tag ≠ .bytes then raiseX (tagExc t.tag opnd 0)
    return addrAdd (addrAdd a (t.data.toNat * 2 ^ sc.val)) d.toInt
  | .slot n => slotAddr e n.val opnd false
  | .slotL u => slotAddr e u.toNat opnd false
  | .ind b d => do readPointer e (addrAdd (← baseReg e b.val opnd) d.toInt) opnd
  | .indSlot u d => do
    let va ← slotAddr e u.toNat opnd true
    return addrAdd (← readPointer e va opnd (← inFrame e va 8)) d.toInt
  | .pc d => return addrAdd e.npc.toNat d.toInt
  | _ => return 0

/-- Whether an operand is frame-relative (R203): modes 0x8 and 0x9, and modes 0x4–0x6 with base P13. -/
def frameRel (o : Opd) : Bool :=
  match o with
  | .slot _ | .slotL _ => true
  | .mem b | .memD8 b _ | .memD32 b _ => decide (b.val = 13)
  | _ => false

/-- Whether an operand's bytes are renamed: it is frame-relative and lies wholly within the window (R175, R203). -/
def inWindow (e : Env) (o : Opd) (va size : Nat) : CoreRun Bool := do
  if frameRel o then inFrame e va size else return false

/-- Form an operand: a register, an immediate, or memory with its access translated (R202, R208, R215). -/
def formOpd (e : Env) (opnd size : Nat) (k : AccKind) (o : Opd) : CoreRun Place := do
  match o with
  | .p r => return .p r.val
  | .x r => return .x r.toNat
  | .f r => return .f r.val
  | .imm4 v => return .imm (v.signExtend 64)
  | .imm n v => return .imm (immVal n v)
  | _ =>
    let a ← formAcc e (← formAddr e opnd o) size opnd k
    return .mem { a with frame := !a.lo.side && (← inWindow e o a.va size) }

/-- A source operand as read: its value, its tag, and the word that a partial load's own check refuses (R209). -/
structure Src where
  val : Word
  tag : Tag
  opnd : Nat := 0
  eaddr : Nat := 0
  whole : Bool := true
  bad : Option (Tag × Nat × Bool) := none
deriving DecidableEq, Repr

/-- The low `n` bytes of a word. -/
def lowBytes (n : Nat) (w : Word) : Word := BitVec.ofNat 64 (w.toNat % 2 ^ (8 * n))

/-- The first touched word that a partial load refuses (R209). -/
def partBad (a : Acc) (ws : List TWord) : Option (Tag × Nat × Bool) :=
  ((a.words.zip ws).find? (fun x => decide (x.2.tag = .uninit) || decide (x.2.tag = .poison))).map
    (fun x => (x.2.tag, 8 * x.1, a.upper x.1))

/-- Read an operand (R206, R209, R223). -/
def readPlace (e : Env) (opnd size : Nat) (fp : Bool) (pl : Place) : CoreRun Src := do
  match pl with
  | .p r => let t := (← getArch e).pReg r
            return { val := lowBytes size t.data, tag := t.tag, opnd := opnd }
  | .x r => let t := (← getArch e).xReg r
            return { val := lowBytes size t.data, tag := t.tag, opnd := opnd }
  | .f r => let t := (← getArch e).vWord r 0
            return { val := lowBytes size t.data, tag := t.tag, opnd := opnd }
  | .imm v => return { val := lowBytes size v, tag := if fp then .float else .int, opnd := opnd, whole := false }
  | .mem a =>
    if a.lo.side then
      fenceAll e
      let s ← get
      change State.took
      return { val := lowBytes size (deviceRead s (s.core e.c).stall a.lo.pa a.size), tag := .int, opnd := opnd, eaddr := a.va,
               whole := decide (size = 8) }
    else
      let ws ← loadWords e a
      let v := wordOfBytes (a.bytes ws)
      if a.part then
        return { val := v, tag := partLoadTag fp ws, opnd := opnd, eaddr := 8 * (a.va / 8), whole := false, bad := partBad a ws }
      else return { val := v, tag := (ws.headD ⟨0, .uninit⟩).tag, opnd := opnd, eaddr := a.va }

/-- Check a source's tag: a partial load's own refusals first, then the class (R206, R207, R209). -/
def checkSrc (s : Src) (ok : Tag → Bool) : CoreRun Unit := do
  match s.bad with
  | some (t, ea, up) => raiseX { tagExc t s.opnd ea with upper := up }
  | none => if !ok s.tag then raiseX (tagExc s.tag s.opnd s.eaddr)

/-- Check that a destination takes a tag: a partial store and a side-effect store refuse PTR and CODEPTR (R209, R223). -/
def checkDst (pl : Place) (opnd : Nat) (t : Tag) : CoreRun Unit := do
  match pl with
  | .mem a =>
    if (a.part ∨ a.lo.side) ∧ t ≠ .int ∧ t ≠ .float ∧ t ≠ .bytes then
      raiseX { tagExc t opnd (8 * (a.va / 8)) with write := true }
  | _ => return ()

/-- Write an operand: a register holds a narrow result zero-extended (R197); memory takes only its own bytes (R204). -/
def writePlace (e : Env) (size : Nat) (pl : Place) (v : Word) (t : Tag) : CoreRun Unit := do
  match pl with
  | .p r => changeArch e (·.setP r ⟨lowBytes size v, t⟩)
  | .x r => changeArch e (·.setX r ⟨lowBytes size v, t⟩)
  | .f r => changeArch e (·.setF r ⟨lowBytes size v, t⟩)
  | .imm _ => return ()
  | .mem a => storeBytes e a ((wordBytes v).take a.size) (fun _ => t)

/-! ## Execution of one instruction -/

/-- Whether a core executes instructions now. -/
def coreRuns (s : State) (c : Nat) : Bool :=
  let cs := s.core c
  cs.started && !cs.waiting && !cs.stopped && !cs.tlbiWait && (!cs.halted || cs.stepOnce) && !s.tap.hold &&
    (if h : coreTile s c < 136 then decide (domState s (.coreTile ⟨coreTile s c, h⟩) = .up) else true)

/-- The fetch checks of the words an instruction's bytes lie in, lowest first (R210, R215). -/
def fetchWords (e : Env) (ws : List Nat) : CoreRun Unit := do
  match ws with
  | [] => return ()
  | wv :: r =>
    let va := max e.pc.toNat (8 * wv)
    let x ← xlat e.c va { fetch := true } (fun f => xlatExc f va 0 false true false false)
    touchLine e x (x.pa / 64) true
    let t := readWord (← get) (x.pa / 8)
    if t.tag ≠ .int then
      raiseX { code := if t.tag = .poison then 5 else 6, eaddr := va, fetch := true, tag := t.tag }
    fetchWords e r

/-- The words of an instruction of a length. -/
def codeWords (pc len : Nat) : List Nat := (List.range ((pc + len - 1) / 8 - pc / 8 + 1)).map (pc / 8 + ·)

/-- Count the noted events and the retirement, and train the prefetchers with what has retired (R186, R194, R513). -/
def countRetired (e : Env) (s : State) : State :=
  let cs := s.core e.c
  let s1 := s.setCore e.c { cs.training.foldl trainStreams cs with events := [], stepOnce := false, training := [] }
  (1 :: cs.events).foldl (fun st ev => countEvent e.c ev 1 (some e.pl) e.pc st) s1

/-- Retire an instruction: PC moves on, the frame window slides where P13 has changed, and SINGLE_STEP is taken where SS was 1 (R176, R214,
R229). -/
def retire (e : Env) (ss : Bool) (npc : BitVec 47) (s : State) : State :=
  let s1 := countRetired e s
  let s2 := slideFrame e.c (s1.setCore e.c { s1.core e.c with arch := { (s1.core e.c).arch with pc := npc } })
  if ss then takeException e.c { code := 0x0E, next := true, eaddr := e.pc.toNat } npc s2 else s2

/-- An exception of an instruction: with `next`, the instruction has completed (R214, R215); what younger instructions have read ahead is
discarded (R172, R187); code 0x20 is an interrupt taken at a
resume point (R173, R213). -/
def stopWith (e : Env) (x : Exc) (s : State) : State :=
  let s1 := if x.next then countRetired e s
            else dropSpec e.c (s.setCore e.c { s.core e.c with events := [], stepOnce := false, training := [] })
  if x.code = 0x20 then takeExceptionAt e.c x (if (s1.core e.c).stall = 0 then 0 else 1) e.pc s1
  else takeException e.c x e.npc s1

/-- Any core that runs an instruction moves IDLE to RUN (R414). -/
def toRun (s : State) : State := if s.pwr.state = .idle then setPower .run s else s

/-- The place of an instruction of a length on a core. -/
def envOf (s : State) (c len : Nat) : Env :=
  let a := (s.core c).arch
  { c := c, pc := a.pc, npc := a.pc + BitVec.ofNat 47 len, pl := swPl a.sw }

/-- The checks before an instruction's operands: fetch, ILLEGAL, PRIVILEGE (R215). -/
def enterInstr (e : Env) (len : Nat) (legal : Bool) (level : Nat) : CoreRun Unit := do
  fetchWords e (codeWords e.pc.toNat (min len 24))
  if !legal ∨ 24 < len then raiseX { code := 1, eaddr := e.pc.toNat }
  if level < e.pl then raiseX { code := 2, eaddr := e.pc.toNat }

/-- Execute one instruction on a core (R172, R215, R216). A core that does not execute is unchanged; one
whose line's home is busy or asleep keeps its state and wakes what sleeps (R269, R418). -/
def runInstr (a : At) (len : Nat) (legal : Bool) (level : Nat) (body : Env → CoreRun (BitVec 47)) (s : State) : Answer :=
  let e := envOf s a.core.val len
  if coreRuns s e.c then
    match (do enterInstr e len legal level; body e : CoreRun (BitVec 47)).run s with
    | (.ok npc, s1) => .next (toRun (retire e (swSs (s.core e.c).arch.sw) npc s1))
    | (.error (.exc x), s1) => .next (toRun (stopWith e x s1))
    | (.error .wait, s1) => .next { s with pwr := { s.pwr with domains := s1.pwr.domains } }
  else .next s

end Sys2Proof.Machine
end

