-- ==== Sys2Proof/Machine/Interrupt.lean ====
section
/-! DEFINITION. Delivery of interrupts to cores and Groom pairs, and the controller registers (R400–R404). -/

namespace Sys2Proof.Machine

/-- The controller state of a target (R400, R403). -/
structure Ic where
  thresh : BitVec 4
  stacked : Bool
  stack : List (BitVec 4 × BitVec 11)
  lastEoi : BitVec 11
  fault : Bool
deriving DecidableEq, Repr

def Arch.ic (a : Arch) : Ic := ⟨a.icThresh, a.icStacked, a.icStack, a.icLastEoi, a.icStackFault⟩
def Arch.withIc (a : Arch) (i : Ic) : Arch :=
  { a with icThresh := i.thresh, icStacked := i.stacked, icStack := i.stack, icLastEoi := i.lastEoi, icStackFault := i.fault }
def ReinSt.ic (a : ReinSt) : Ic := ⟨a.icThresh, a.icStacked, a.icStack, a.icLastEoi, a.icStackFault⟩
def ReinSt.withIc (a : ReinSt) (i : Ic) : ReinSt :=
  { a with icThresh := i.thresh, icStacked := i.stacked, icStack := i.stack, icLastEoi := i.lastEoi, icStackFault := i.fault }

/-- A target of delivery. -/
inductive Tgt where
  | core (k : Nat)
  | pair (g : Nat)
deriving DecidableEq, Repr

def targetIc (s : State) (t : Tgt) : Ic :=
  match t with
  | .core k => (s.core k).arch.ic
  | .pair g => (s.reinOf g).ic

def setTargetIc (t : Tgt) (i : Ic) (s : State) : State :=
  match t with
  | .core k => s.setCore k { s.core k with arch := (s.core k).arch.withIc i }
  | .pair g => s.setRein g ((s.reinOf g).withIc i)

/-- An inbox source of R393. -/
def isInbox (n : Nat) : Bool := decide (0x100 ≤ n) && decide (n ≤ 0x200)

/-- Whether a source is targeted at a core or pair that runs its owner (R393, R401). -/
def srcTargets (s : State) (n : Nat) (t : Tgt) : Bool :=
  match t with
  | .core k =>
    (if isInbox n then (s.source n).inbox.getLsbD k else decide (srcCore s n = some k)) && decide (srcOwner s n = coreStall s k)
  | .pair g => !isInbox n && decide (srcPair s n = some g) && decide (srcOwner s n = 0)

/-- Whether a source is deliverable to a target (R401). -/
def deliverable (s : State) (t : Tgt) (n : Nat) : Bool :=
  let i := targetIc s t
  let lv := srcLevel (srcCfg s n)
  (s.source n).signalled && srcEn (srcCfg s n) && srcTargets s n t && decide (i.thresh.toNat ≤ lv) &&
    (match i.stack with
     | top :: _ => !i.stacked || decide (top.1.toNat < lv)
     | [] => true)

/-- The winning source: the highest level, then the lower number (R401). -/
def winner (s : State) (t : Tgt) : Option Nat :=
  (s.irq.map (·.1)).foldl (fun best n =>
    if deliverable s t n then
      (match best with
       | none => some n
       | some m => if srcLevel (srcCfg s m) < srcLevel (srcCfg s n) then some n else some m)
    else best) none

/-- Clear a source on its acknowledge (R397, R401): an inbox source stays signalled while another core's bit is set. -/
def acknowledge (n : Nat) (t : Tgt) (s : State) : State :=
  match t with
  | .core k =>
    if isInbox n then
      let src := s.source n
      let left := src.inbox &&& ~~~((1 : BitVec 128) <<< k)
      s.setSource n { src with count := 0, saturated := false, signalled := decide (left ≠ 0), inbox := left }
    else clearSource n s
  | .pair _ => clearSource n s

/-- A read of IC_ACK: its word and the state after it (R401, R403). -/
def icAck (t : Tgt) (s : State) : Word × State :=
  match winner s t with
  | none => (0x80000000, s)
  | some n =>
    let lv := srcLevel (srcCfg s n)
    let i := targetIc s t
    let s1 := if i.stacked then setTargetIc t { i with stack := (BitVec.ofNat 4 lv, BitVec.ofNat 11 n) :: i.stack } s else s
    (BitVec.ofNat 64 (n + (s.source n).count * 2 ^ 16 + lv * 2 ^ 24), acknowledge n t s1)

/-- A write of IC_EOI: whether it is a stack fault, and the state after it (R403). -/
def icEoi (t : Tgt) (n : BitVec 11) (s : State) : Bool × State :=
  let i := targetIc s t
  if !i.stacked then (false, s)
  else match i.stack with
    | top :: r =>
      if top.2 = n then (false, setTargetIc t { i with stack := r } s)
      else (true, odBump 0x9000 0x08 (setTargetIc t { i with lastEoi := n, fault := true } s))
    | [] => (true, odBump 0x9000 0x08 (setTargetIc t { i with lastEoi := n, fault := true } s))

/-- A write of IC_MODE: refused as a stack fault while the stack is not empty (R403). -/
def icMode (t : Tgt) (b : Bool) (s : State) : Bool × State :=
  let i := targetIc s t
  if i.stack.isEmpty then (false, setTargetIc t { i with stacked := b } s) else (true, s)

/-- IC_STATUS; the read clears bit 31 (R400). -/
def icStatus (t : Tgt) (s : State) : Word × State :=
  let i := targetIc s t
  let lv := match i.stack with | x :: _ => x.1.toNat | [] => 0
  let top := match i.stack with | x :: _ => x.2.toNat | [] => 0
  (BitVec.ofNat 64 (lv + i.stack.length * 2 ^ 4 + top * 2 ^ 9 + i.lastEoi.toNat * 2 ^ 20 + (if i.fault then 2 ^ 31 else 0)),
   setTargetIc t { i with fault := false } s)

/-- Take an interrupt on a core: code 0x20, at PL1 for a tenant and at PL0 for stall 0 (R213, R401). -/
def takeInterrupt (k : Nat) (s : State) : State :=
  let cs := s.core k
  takeExceptionAt k { code := 0x20 } (if cs.stall = 0 then 0 else 1) cs.arch.pc s

/-- INTERRUPT_TAKE: the core takes an interrupt at its instruction boundary where SW.IE is 1 and a source is deliverable; a core in WFI
goes on where one is deliverable (R173, R401, R402). -/
def execInterruptTake (c : CoreId) (s : State) : Answer :=
  let k := c.val
  let cs := s.core k
  if coreRuns (s.setCore k { cs with waiting := false }) k ∧ (winner s (.core k)).isSome then
    let s1 := s.setCore k { cs with waiting := false }
    .next (if swIe cs.arch.sw then takeInterrupt k s1 else s1)
  else .next s

end Sys2Proof.Machine
end

