-- ==== Sys2Proof/Machine/StallOps.lean ====
section
/-! DEFINITION. What the stalls' commands share: starting a stall on a core, leaving it, switching stalls on a shared core, and
ISO_STATUS (R346, R349, R350, R354, R358, R394). -/

namespace Sys2Proof.Machine

/-- The registers of a stall at its first instruction (R349). Stall 0, whose first instruction the spec does not place, starts with every
register at its reset value, at PL0 (R198, R212; log entry 98). -/
def bootArch (s : State) (n : Nat) : Arch :=
  if n = 0 then {}
  else { ({} : Arch) with ttbr := BitVec.ofNat 64 (odGet s (0x4100 + n) 0x0A) &&& 0x000FFFFFFFFFCFFF, tcr := 2, sw := setPl 0 1,
                          pc := BitVec.ofNat 47 (odGet s (0x4100 + n) 0x0B) }

/-- A core runs a stall with given registers from here on, and its tile is woken; its CORE_MODE applies and the return stack is emptied (R171,
R188, R354, R418). -/
def runStall (n k : Nat) (r : SwitchRec) (s : State) : State :=
  let s := leaveWindow k (dropSpec k s)
  let cs := s.core k
  wakeCore k (s.setCore k { cs with arch := r.arch, stall := n, started := true, waiting := r.waiting, stopped := false, returnStack := [],
                                    modeNow := BitVec.ofNat 32 (odGet s (0x4100 + n) 0x21), modePending := false })

/-- The first instruction of a stall is dispatched on a core (R349). -/
def startStall (n k : Nat) (s : State) : State :=
  let st := s.stall n
  (runStall n k { arch := bootArch s n, waiting := false } s).setStall n { st with started := st.started ||| ((1 : BitVec 128) <<< k) }

/-- The bits of a mask of cores. -/
def maskCores (m : Nat) : List Nat := (List.range 128).filter (fun k => natBit m k)

/-- A source returns to its reset configuration, with its count and signalled state cleared (R394, R395, R488). -/
def resetSource (i : Nat) (s : State) : State :=
  (if (s.source i).cfg.isSome then noteBag (srcIdx i) 0x02 s else s).setSource i {}

/-- Clear EN of a source; its count is kept. -/
def disableSource (i : Nat) (s : State) : State :=
  noteBag (srcIdx i) 0x02 (s.setSource i { s.source i with cfg := some (srcCfg s i &&& ~~~1) })

/-- The IPI and counter-event sources of a core pass to a stall, disabled (R394). -/
def passSources (k : Nat) (s : State) : State := disableSource (0x80 + k) (disableSource k s)

/-- The sources of a stall that target a core are disabled (R394). -/
def disableTargets (n k : Nat) (s : State) : State :=
  (s.irq.map (·.1)).foldl (fun t i => if 0x200 < i ∧ srcOwner t i = n ∧ srcCore t i = some k then disableSource i t else t) s

/-- The write that removed cores is complete once all have left (R350). -/
def finishLeaving (n : Nat) (s : State) : State :=
  let st := s.stall n
  if st.leaving = 0 ∧ st.leavingShared = 0 ∧ pathGet s st.leavingPath (0x4100 + n) 0x03 = resBusy then
    pathSet st.leavingPath (0x4100 + n) 0x03 resOk s
  else s

/-- A core leaves a stall: its state there is discarded (R350, R394). -/
def leaveCore (n k : Nat) (s : State) : State :=
  let st := s.stall n
  let bit : BitVec 128 := (1 : BitVec 128) <<< k
  let s0 := disableTargets n k (if st.leaving.getLsbD k then resetSource (0x80 + k) (resetSource k s) else s)
  let s1 := if (s0.core k).stall = n then leaveWindow k (dropSpec k s0) else s0
  let cs := s1.core k
  let cs1 := { cs with switches := cs.switches.erase n }
  let s2 := s1.setCore k (if cs.stall = n then { cs1 with arch := {}, stall := 0, started := false, waiting := false, stopped := false,
                                                          returnStack := [] } else cs1)
  finishLeaving n (s2.setStall n { st with leaving := st.leaving &&& ~~~bit, leavingShared := st.leavingShared &&& ~~~bit,
                                           started := st.started &&& ~~~bit })

/-- The stalls that share a core in turn, in ascending number (R354); a fenced one is skipped (R435). -/
def rotation (s : State) (k : Nat) : List Nat :=
  (List.range 257).filter (fun n =>
    (natBit (stallShared s n) k || (s.stall n).leavingShared.getLsbD k) &&
    (decide (n = 0) || decide ((s.stall n).state = .creating) || decide ((s.stall n).state = .live)))

/-- A switch of a shared core to a stall (R354): the outgoing stall's record is saved, the incoming one's loaded. -/
def switchStall (k n : Nat) (s : State) : State :=
  let cs := s.core k
  let s1 := if cs.started then s.setCore k { cs with switches := cs.switches.set cs.stall { arch := cs.arch, waiting := cs.waiting } } else s
  match (s1.core k).switches.find? (fun x => decide (x.1 = n)) with
  | some x => runStall n k x.2 (s1.setCore k { s1.core k with switches := (s1.core k).switches.erase n })
  | none => startStall n k s1

/-! ## ISO_STATUS (R346, R358) -/

/-- Whether a stall exists. -/
def stallHeld (s : State) (n : Nat) : Bool := decide (n = 0) || decide ((s.stall n).state ≠ .free)

/-- The grants of a stall that are in use: first address and length. -/
def grantsOf (s : State) (n : Nat) : List (Nat × Nat) :=
  if n = 0 then []
  else ((List.range 16).map (fun k => let v := odGet s (0x4100 + n) (0x30 + k)
                                      (natField v 0 38 * 16384, natField v 38 26 * 16384))).filter (fun x => decide (x.2 ≠ 0))

/-- Whether two ranges meet. -/
def rangesMeet (a b : Nat × Nat) : Bool := decide (a.1 < b.1 + b.2) && decide (b.1 < a.1 + a.2)

/-- The tenants that exist, other than one. -/
def otherTenants (s : State) (n : Nat) : List Nat := (s.stalls.map (·.1)).filter (fun m => decide (m ≠ n) && decide (m ≠ 0) && stallHeld s m)

def sharedPages (s : State) (n : Nat) : Bool :=
  (grantsOf s n).any (fun a => (otherTenants s n).any (fun m => (grantsOf s m).any (rangesMeet a)))

/-- The way locks whose owner is not a stall, as a mask of ways. -/
def lockedWays (s : State) (n : Nat) : Nat :=
  ((List.range 16).filter (fun w => let v := odGet s 0x5100 (0x10 + w)
                                    natBit v 0 && decide (natField v 1 9 ≠ n))).foldl (fun m w => m + 2 ^ w) 0

def waysOf (s : State) (n : Nat) : Nat := odGet s (0x4100 + n) 0x22

def waysShared (s : State) (n : Nat) : Bool :=
  decide (waysOf s n &&& lockedWays s n ≠ 0) || (decide (n ≠ 0) && decide (waysOf s n &&& waysOf s 0 ≠ 0)) ||
  (otherTenants s n).any (fun m => decide ((s.stall m).state = .live) && decide (waysOf s n &&& waysOf s m ≠ 0))

/-- Whether every core of a stall runs in blinker mode by now. -/
def blinkerOn (s : State) (n : Nat) : Bool :=
  natBit (odGet s (0x4100 + n) 0x21) 0 &&
    (List.range 128).all (fun k => decide ((s.core k).stall ≠ n) || !(s.core k).started || (!(s.core k).modePending && (s.core k).modeNow.getLsbD 0))

def isoBit (b : Bool) (i : Nat) : Nat := if b then 2 ^ i else 0

/-- ISO_STATUS without STRICT_ACTIVE (R346). -/
def isoConditions (s : State) (n : Nat) : Nat :=
  let st := s.stall n
  let pages := sharedPages s n
  let walk := s.far.walkRecovery
  isoBit pages 0 + isoBit walk 1 + isoBit (decide (stallShared s n ≠ 0) || decide (stallCores s n = 0)) 2 + isoBit (waysShared s n) 3 +
    isoBit (!blinkerOn s n) 4 + isoBit (decide (odGet s (0x4100 + n) 0x20 = 0) || st.ringPending) 5 +
    isoBit (decide (odGet s (0x4100 + n) 0x23 = 0) || st.slotsPending) 6 +
    isoBit ((decide (st.state = .live) || decide (n = 0)) && !pages && !walk) 8

/-- ISO_STATUS (R346). -/
def isoStatus (s : State) (n : Nat) : Nat := isoConditions s n + isoBit (s.stall n).strictActive 9

/-- Whether every condition of strict mode but the clean ways holds (R358). -/
def strictReady (s : State) (n : Nat) : Bool :=
  let w := isoConditions s n
  natBit w 8 && decide (odGet s (0x4100 + n) 0x0C ≠ 0) && decide (natField w 2 5 = 0)

/-- Evaluate the conditions of one stall (R346, R359, R361): a broken one clears STRICT_ACTIVE; met, the ways' cleaning starts. A change
of ISO_STATUS raises the stall's event. -/
def evalStall (n : Nat) (s : State) : State :=
  let st := s.stall n
  let ok := strictReady s n
  let s1 := s.setStall n { st with strictActive := st.strictActive && ok, cleaning := ok && !st.strictActive }
  let w := isoStatus s1 n
  if w = st.lastIso then s1 else raise (0x300 + n) (s1.setStall n { s1.stall n with lastIso := w })

/-- Evaluate every tenant that exists. -/
def evalStalls (s : State) : State :=
  ((s.stalls.map (·.1)).filter (fun n => decide (n ≠ 0) && stallHeld s n)).foldl (fun t n => evalStall n t) s

/-- A core that a stall has given up leaves it at a WFI with no interrupt pending (R350). -/
def leaveAtWfi (k : Nat) (s : State) : State :=
  let n := (s.core k).stall
  let st := s.stall n
  if n ≠ 0 ∧ (s.core k).waiting = true ∧ (st.leaving.getLsbD k || st.leavingShared.getLsbD k) = true ∧ (winner s (.core k)).isNone then evalStalls (leaveCore n k s) else s

/-- The tenants that are STRICT_ACTIVE, other than one. -/
def strictOthers (s : State) (n : Nat) : List Nat := (otherTenants s n).filter (fun m => (s.stall m).strictActive)

/-- A tenant's state changes, and its event is raised (R347, R393). -/
def setStallState (n : Nat) (x : StallState) (s : State) : State :=
  raise (0x300 + n) (s.setStall n { s.stall n with state := x })

end Sys2Proof.Machine
end

