-- ==== Sys2Proof/Machine/Flags.lean ====
section
/-! DEFINITION. The flags and results of the integer instructions (R198, R227, R228). -/

namespace Sys2Proof.Machine

/-- The flags an instruction changes; `none` leaves a flag as it was. -/
structure FlagSet where
  c : Option Bool := none
  z : Option Bool := none
  n : Option Bool := none
  v : Option Bool := none
deriving DecidableEq, Repr

/-- SW with an optional flag set. -/
def putFlag (i : Nat) (b : Option Bool) (sw : BitVec 64) : BitVec 64 :=
  match b with
  | some x => setBit sw i x
  | none => sw

/-- SW with a flag set applied (R198). -/
def FlagSet.apply (f : FlagSet) (sw : BitVec 64) : BitVec 64 :=
  putFlag 3 f.v (putFlag 2 f.n (putFlag 1 f.z (putFlag 0 f.c sw)))

def flagC (sw : BitVec 64) : Bool := sw.getLsbD 0
def flagZ (sw : BitVec 64) : Bool := sw.getLsbD 1
def flagN (sw : BitVec 64) : Bool := sw.getLsbD 2
def flagV (sw : BitVec 64) : Bool := sw.getLsbD 3
def flagT (sw : BitVec 64) : Bool := sw.getLsbD 4

/-- A condition code (R228). -/
def condition (code : Nat) (sw : BitVec 64) : Bool :=
  let c := flagC sw
  let z := flagZ sw
  let n := flagN sw
  let v := flagV sw
  match code with
  | 0 => z
  | 1 => !z
  | 2 => c
  | 3 => !c
  | 4 => n
  | 5 => !n
  | 6 => v
  | 7 => !v
  | 8 => !c && !z
  | 9 => c || z
  | 10 => n == v
  | 11 => n != v
  | 12 => !z && (n == v)
  | 13 => z || (n != v)
  | 14 => flagT sw
  | _ => !flagT sw

/-- The signed value of the low `b` bits. -/
def sInt (b : Nat) (n : Nat) : Int := if n % 2 ^ b < 2 ^ (b - 1) then (n % 2 ^ b : Nat) else (n % 2 ^ b : Nat) - (2 ^ b : Nat)

/-- The low `b` bits of an integer. -/
def wrap (b : Nat) (v : Int) : Nat := (v % (2 ^ b : Nat)).toNat

def negative (b n : Nat) : Bool := n.testBit (b - 1)

/-- Zero and negative of a result. -/
def zn (b r : Nat) : FlagSet := { z := some (decide (r % 2 ^ b = 0)), n := some (negative b r) }

/-- A result with its flags. -/
structure AluOut where
  val : Nat
  flags : FlagSet := {}
deriving DecidableEq, Repr

/-- Addition with a carry in: C is the carry out, V signed overflow. -/
def addFlags (b x y : Nat) (cin : Bool) : AluOut :=
  let t := x % 2 ^ b + y % 2 ^ b + cin.toNat
  let r := t % 2 ^ b
  { val := r, flags := { zn b r with c := some (decide (2 ^ b ≤ t)),
                                     v := some (decide (sInt b x + sInt b y + cin.toNat ≠ sInt b r)) } }

/-- Subtraction with a borrow in: C is the borrow out. -/
def subFlags (b x y : Nat) (bin : Bool) : AluOut :=
  let r := wrap b ((x % 2 ^ b : Nat) - (y % 2 ^ b : Nat) - (bin.toNat : Int))
  { val := r, flags := { zn b r with c := some (decide (x % 2 ^ b < y % 2 ^ b + bin.toNat)),
                                     v := some (decide (sInt b x - sInt b y - (bin.toNat : Int) ≠ sInt b r)) } }

/-- A logical result: C and V cleared. -/
def logicFlags (b r : Nat) : AluOut := { val := r, flags := { zn b r with c := some false, v := some false } }

/-- The integer operations of two operands (R227). -/
inductive Alu where
  | mov | add | sub | and | or | xor | adc | sbb | shl | shr | sar | rol | mul | mulh | div | divu
deriving DecidableEq, Repr

/-- A shift's result with the last bit shifted out in C; by zero C takes the free bit (log entry 8). -/
def shiftOut (b r k : Nat) (out free : Bool) : AluOut :=
  { val := r % 2 ^ b, flags := { zn b r with c := some (if k = 0 then free else out) } }

/-- The result and flags of an operation on the low `b` bits (R227). `cin` is C before it, `free` a free bit. -/
def alu (op : Alu) (b x y : Nat) (cin free : Bool) : AluOut :=
  let k := y % b
  let xs := x % 2 ^ b
  match op with
  | .mov => { val := y % 2 ^ b }
  | .add => addFlags b x y false
  | .sub => subFlags b x y false
  | .and => logicFlags b (xs &&& (y % 2 ^ b))
  | .or => logicFlags b (xs ||| (y % 2 ^ b))
  | .xor => logicFlags b (xs ^^^ (y % 2 ^ b))
  | .adc => addFlags b x y cin
  | .sbb => subFlags b x y cin
  | .shl => shiftOut b (xs * 2 ^ k % 2 ^ b) k (xs.testBit (b - k)) free
  | .shr => shiftOut b (xs / 2 ^ k) k (xs.testBit (k - 1)) free
  | .sar => shiftOut b (wrap b (sInt b xs / (2 ^ k : Nat))) k (xs.testBit (k - 1)) free
  | .rol =>
    let r := (xs * 2 ^ k % 2 ^ b) ||| (xs / 2 ^ (b - k))
    { val := r, flags := { c := some (if k = 0 then free else r.testBit 0) } }
  | .mul => let r := xs * (y % 2 ^ b) % 2 ^ b
            { val := r, flags := zn b r }
  | .mulh => let r := wrap b (sInt b x * sInt b y / (2 ^ b : Nat))
             { val := r, flags := zn b r }
  | .div => let q := Int.tdiv (sInt b x) (sInt b y)
            let r := wrap b q
            { val := r, flags := { zn b r with v := some (decide (sInt b r ≠ q)) } }
  | .divu => let r := xs / (y % 2 ^ b)
             { val := r, flags := { zn b r with v := some false } }

/-- The result tag of an integer instruction (R207). -/
def intTag (x y : Tag) : Tag := if x = .bytes ∨ y = .bytes then .bytes else .int

def isIntTag (t : Tag) : Bool := decide (t = .int) || decide (t = .bytes)
def isFpTag (t : Tag) : Bool := decide (t = .float) || decide (t = .bytes)
def anyTag (_ : Tag) : Bool := true
def comparable (t : Tag) : Bool := decide (t ≠ .uninit) && decide (t ≠ .poison)

end Sys2Proof.Machine
end

