-- ==== Sys2Proof/Machine/Control.lean ====
section
/-! DEFINITION. The control registers of a Charger core (R198, R218, R329–R331, R400, R423, R516, R517). -/

namespace Sys2Proof.Machine

/-- The levels that may read and write a control register; none where the owning table gives no access in that direction. -/
def crLevels (n : Nat) : Option (Option Nat × Option Nat) :=
  match n with
  | 0x00 | 0x01 | 0x02 | 0x06 | 0x30 | 0x31 | 0x40 | 0x43 | 0x50 | 0x78 | 0x79 => some (some 1, some 1)
  | 0x03 | 0x04 | 0x05 | 0x20 | 0x21 | 0x32 | 0x41 | 0x44 | 0x51 => some (some 1, none)
  | 0x10 | 0x11 | 0x12 | 0x13 | 0x14 | 0x15 | 0x16 | 0x7A => some (some 0, some 0)
  | 0x33 => some (some 0, none)
  | 0x42 | 0x45 => some (none, some 1)
  | _ => if 0x60 ≤ n ∧ n ≤ 0x67 then some (some 2, some 1)
         else if 0x68 ≤ n ∧ n ≤ 0x6F then some (some 1, some 1)
         else if 0x70 ≤ n ∧ n ≤ 0x77 then some (some 1, none)
         else none

def intWord (w : Word) : TWord := ⟨w, .int⟩

/-- A register of one level's exception bank (R218). -/
def bankRead (b : ExcBank) (r : Nat) : TWord :=
  match r with
  | 0 => b.vbr
  | 1 => b.epc
  | 2 => intWord b.esw
  | 3 => intWord b.ecause
  | 4 => intWord b.eaddr
  | 5 => intWord b.einfo
  | _ => b.scratch

/-- Whether a stall holds a core in CORES (R517): stall 0 holds every core that no tenant holds. -/
def holdsCore (s : State) (n c : Nat) : Bool := decide (coreOwner s c = n)

/-- Whether PL2 code of a stall may read PMC (R517, R518). -/
def pmcUser (s : State) (n : Nat) : Bool := natBit (odGet s 0xA000 0x01) n

/-- The value of a control register as MFCR reads it, and the state after the read (R218, R400, R516). -/
def crRead (e : Env) (n : Nat) (s : State) : TWord × State :=
  let cs := s.core e.c
  let a := cs.arch
  if n < 0x07 then (bankRead a.bank1 n, s)
  else if n < 0x17 then (bankRead a.bank0 (n - 0x10), s)
  else if n = 0x20 then (intWord (BitVec.ofNat 64 cs.stall), s)
  else if n = 0x21 then (intWord (BitVec.ofNat 64 e.c), s)
  else if n = 0x30 then (intWord a.ttbr, s)
  else if n = 0x31 then (intWord a.tcr, s)
  else if n = 0x32 then (intWord a.bank1.walkinfo, s)
  else if n = 0x33 then (intWord a.bank0.walkinfo, s)
  else if n = 0x40 then (intWord (a.icThresh.setWidth 64), s)
  else if n = 0x41 then (let r := icAck (.core e.c) s; (intWord r.1, r.2))
  else if n = 0x43 then (intWord (if a.icStacked then 1 else 0), s)
  else if n = 0x44 then (let r := icStatus (.core e.c) s; (intWord r.1, r.2))
  else if n = 0x50 then (intWord (a.gaitReq.setWidth 64), s)
  else if n = 0x51 then (intWord (gaitNow s e.c), s)
  else if n < 0x68 then
    (intWord (if e.pl ≠ 0 ∧ !holdsCore s cs.stall e.c then 0 else (s.counter e.c (n - 0x60)).value.setWidth 64), s)
  else if n < 0x70 then (intWord ((s.counter e.c (n - 0x68)).sel.setWidth 64), s)
  else if n < 0x78 then
    (intWord (Tbl.get s.pmu.samplePc (ctrKey e.c (n - 0x70)) 0),
     { s with pmu := { s.pmu with sampleUnread := s.pmu.sampleUnread.set (ctrKey e.c (n - 0x70)) false } })
  else if n = 0x78 then (intWord ((Tbl.get s.pmu.sampleInfo e.c 0).setWidth 64), s)
  else if n = 0x79 then (intWord (BitVec.ofNat 64 (ovfBits s e.c)), s)
  else (intWord (if s.pmu.freeze then 1 else 0), s)

/-- The tags that MTCR takes for a register: VBR and EPC CODEPTR, SCRATCH any, every other INT (R218, R329, R400, R423, R516). -/
def crTakes (n : Nat) (t : Tag) : Bool :=
  if n = 0x00 ∨ n = 0x01 ∨ n = 0x10 ∨ n = 0x11 then decide (t = .codeptr)
  else if n = 0x06 ∨ n = 0x16 then true
  else decide (t = .int)

/-- Write a register of one level's exception bank; the fields of ECAUSE are read-only (R217, R218; log entry 159). -/
def bankWrite (b : ExcBank) (r : Nat) (t : TWord) : ExcBank :=
  match r with
  | 0 => { b with vbr := t }
  | 1 => { b with epc := t }
  | 2 => { b with esw := t.data &&& 0xFFF1F }
  | 4 => { b with eaddr := t.data }
  | 5 => { b with einfo := t.data }
  | 6 => { b with scratch := t }
  | _ => b

/-- Change one core's architectural registers. -/
def State.setArch (s : State) (c : Nat) (f : Arch → Arch) : State := s.setCore c { s.core c with arch := f (s.core c).arch }

/-- TTBR with its reserved bits zero (R330). -/
def ttbrWord (v : Word) : Word := v &&& 0x000FFFFFFFFFCFFF

/-- A write of TCR: EN only at PL0 (R331). -/
def tcrWord (pl : Nat) (old v : Word) : Word := if pl = 0 then v &&& 3 else (old &&& 1) ||| (v &&& 2)

/-- A write of PMSTATUS (R516) and of SAMPLE_INFO (R516). -/
def writePmstatus (c : Nat) (v : Word) (s : State) : State := clearOvf c (v.truncate 8) s
def writeSampleInfo (c : Nat) (v : Word) (s : State) : State :=
  { s with pmu := { s.pmu with sampleInfo := s.pmu.sampleInfo.set c (v.truncate 9) } }

/-- Whether a stall may set a source pending (R399). -/
def maySetPending (s : State) (stall n : Nat) : Bool := decide (stall = 0) || decide (srcOwner s n = stall)

/-- The effect of MTCR on a control register (R218, R329, R331, R399–R403, R423, R516), and whether it raises INT_STACK (R403). -/
def crWrite (e : Env) (n : Nat) (t : TWord) (s : State) : Bool × State :=
  let v := t.data
  if n < 0x07 then (false, s.setArch e.c (fun a => { a with bank1 := bankWrite a.bank1 n t }))
  else if n < 0x17 then (false, s.setArch e.c (fun a => { a with bank0 := bankWrite a.bank0 (n - 0x10) t }))
  else if n = 0x30 then (false, s.setArch e.c (fun a => { a with ttbr := ttbrWord v }))
  else if n = 0x31 then (false, s.setArch e.c (fun a => { a with tcr := tcrWord e.pl a.tcr v }))
  else if n = 0x40 then (false, s.setArch e.c (fun a => { a with icThresh := v.truncate 4 }))
  else if n = 0x42 then icEoi (.core e.c) (v.truncate 11) s
  else if n = 0x43 then icMode (.core e.c) (v.getLsbD 0) s
  else if n = 0x45 then (false, setPending (v.truncate 11).toNat s)
  else if n = 0x50 then (false, writeGaitReq e.c (v.truncate 2) s)
  else if n < 0x68 then
    (false, s.setCounter e.c (n - 0x60) { s.counter e.c (n - 0x60) with value := v.truncate 48 })
  else if n < 0x70 then
    (false, s.setCounter e.c (n - 0x68) { s.counter e.c (n - 0x68) with sel := v.truncate 27 })
  else if n = 0x78 then (false, writeSampleInfo e.c v s)
  else if n = 0x79 then (false, writePmstatus e.c v s)
  else (false, setFreeze (v.getLsbD 0) s)

/-- Refuse a control-register access: no such access, or too low a level (R218, R517). A refused PL2 read of PMC is counted (R518). -/
def crGate (e : Env) (n : Nat) (write : Bool) : CoreRun Unit := do
  let lv := match crLevels n with
    | some (r, w) => if write then w else r
    | none => none
  match lv with
  | none => raiseX { code := 1, eaddr := e.pc.toNat }
  | some k =>
    let s ← get
    if k < e.pl then raiseX { code := 2, eaddr := e.pc.toNat }
    if !write ∧ 0x60 ≤ n ∧ n < 0x68 ∧ e.pl = 2 ∧ !pmcUser s (s.core e.c).stall then
      change (odBump 0xA000 0x02)
      raiseX { code := 2, eaddr := e.pc.toNat }

/-- SW after MTSW (R198): PL never changes, IE, EXL and SS only at PL1 and PL0. -/
def mtswWord (pl : Nat) (old v : Word) : Word :=
  let m : Word := if pl ≤ 1 then 0xFFC1F else 0xFE01F
  (old &&& ~~~m) ||| (v &&& m)

/-- Whether an MTCR to a register orders as ISYNC (R329). -/
def crSyncs (n : Nat) : Bool := decide (n = 0x30) || decide (n = 0x31)

/-- MFCR of register `n` into an operand. -/
def mfcrBody (n : Nat) (d : Opd) (e : Env) : CoreRun (BitVec 47) := do
  crGate e n false
  let pd ← formOpd e 0 8 { write := true } d
  let r := crRead e n (← get)
  checkDst pd 0 r.1.tag
  set r.2
  writePlace e 8 pd r.1.data r.1.tag
  return e.npc

/-- MTCR of an operand into register `n` (R206, R218). -/
def mtcrBody (n : Nat) (o : Opd) (e : Env) : CoreRun (BitVec 47) := do
  crGate e n true
  let ps ← formOpd e 0 8 {} o
  let y ← readPlace e 0 8 false ps
  checkSrc y (crTakes n)
  if (n = 0x00 ∨ n = 0x10) ∧ y.val.toNat % 4096 ≠ 0 then raiseX { code := 3, eaddr := y.val.toNat }
  let s ← get
  if n = 0x45 ∧ !maySetPending s (s.core e.c).stall (y.val.truncate 11).toNat then
    change (odBump 0x9000 0x09)
    raiseX { code := 2, eaddr := e.pc.toNat }
  if crSyncs n then fenceAll e
  let r := crWrite e n ⟨y.val, y.tag⟩ (← get)
  set r.2
  if r.1 then raiseX { code := 0x11, next := true }
  return e.npc

end Sys2Proof.Machine
end

