-- ==== Sys2Proof/Machine/Integer.lean ====
section
/-! DEFINITION. Page 0 of the full profile: moves, integer arithmetic, addresses and the stack (R204–R209, R227). -/

namespace Sys2Proof.Machine

/-- A register or an aligned 64-bit memory word: the operands of a tag-transparent move (R206). -/
def Place.whole (p : Place) : Bool :=
  match p with
  | .imm _ => false
  | .mem a => decide (a.size = 8) && !a.part
  | _ => true

/-- Take a free value. -/
def takeFree : CoreRun Word := do
  let s ← get
  set (State.took s)
  return freeValue s

/-- The tags an operation accepts from operand 0, given the size (R207). -/
def accepts0 (op : Alu) (n : Nat) (t : Tag) : Bool :=
  isIntTag t || (decide (n = 8) && decide (t = .ptr) && (op == .add || op == .sub || op == .and))

/-- The tags an operation accepts from operand 1, given operand 0's. -/
def accepts1 (op : Alu) (n : Nat) (t0 t : Tag) : Bool :=
  isIntTag t || (decide (n = 8) && decide (t = .ptr) && ((op == .add && t0 != .ptr) || (op == .sub && t0 == .ptr)))

/-- The result tag (R207). -/
def aluTag (t0 t1 : Tag) : Tag :=
  if t0 = .ptr ∧ t1 = .ptr then .int
  else if t0 = .ptr ∨ t1 = .ptr then .ptr
  else intTag t0 t1

/-- Whether a shift by this count leaves C to a free bit (log entry 8). -/
def needsFree (op : Alu) (b y : Nat) : Bool :=
  (op == .shl || op == .shr || op == .sar || op == .rol) && decide (y % b = 0)

/-- The condition for DIVIDE (R214). -/
def dividesByZero (op : Alu) (b y : Nat) : Bool := (op == .div || op == .divu) && decide (y % 2 ^ b = 0)

/-- The body of dst ← dst op src. -/
def aluBody (op : Alu) (n : Nat) (d s : Opd) (e : Env) : CoreRun (BitVec 47) := do
  let pd ← formOpd e 0 n { write := true } d
  let ps ← formOpd e 1 n {} s
  let x ← readPlace e 0 n false pd
  let y ← readPlace e 1 n false ps
  checkSrc x (accepts0 op n)
  checkSrc y (accepts1 op n x.tag)
  checkDst pd 0 (aluTag x.tag y.tag)
  if dividesByZero op (8 * n) y.val.toNat then raiseX { code := 0x0C }
  let fr ← if needsFree op (8 * n) y.val.toNat then takeFree else pure 0
  let a ← getArch e
  let r := alu op (8 * n) x.val.toNat y.val.toNat (flagC a.sw) (fr.getLsbD 0)
  writePlace e n pd (BitVec.ofNat 64 r.val) (aluTag x.tag y.tag)
  changeArch e (fun a => { a with sw := r.flags.apply a.sw })
  return e.npc

/-- An instruction dst ← dst op src of page 0. -/
def aluInstr (op : Alu) (a : At) (sz : Sz) (d s : Opd) (st : State) : Answer :=
  runInstr a (instrLen a 1 [d, s] 0) (a.pfx.isEmpty && opdDst d && opdSrc s) 2 (aluBody op (szBytes sz) d s) st

/-- A move: tag-transparent where both places are whole, otherwise of the class `ok` (R206, R207). -/
def moveBody (fp : Bool) (n : Nat) (d s : Opd) (e : Env) : CoreRun (BitVec 47) := do
  let pd ← formOpd e 0 n { write := true } d
  let ps ← formOpd e 1 n {} s
  let y ← readPlace e 1 n fp ps
  let clear := decide (n = 8) && pd.whole && ps.whole
  if !clear then checkSrc y (if fp then isFpTag else isIntTag)
  checkDst pd 0 y.tag
  writePlace e n pd y.val y.tag
  return e.npc

/-- MOV (R206). -/
def execMov (a : At) (sz : Sz) (d s : Opd) (st : State) : Answer :=
  runInstr a (instrLen a 1 [d, s] 0) (a.pfx.isEmpty && opdDst d && opdSrc s) 2 (moveBody false (szBytes sz) d s) st

/-- SXT: a 1-, 2- or 4-byte source sign-extended to 64 bits (R227); there is no .d form. -/
def execSxt (a : At) (sz : Sz) (d s : Opd) (st : State) : Answer :=
  runInstr a (instrLen a 1 [d, s] 0) (a.pfx.isEmpty && decide (sz ≠ .d) && opdDst d && opdSrc s) 2 (fun e => do
    let pd ← formOpd e 0 8 { write := true } d
    let ps ← formOpd e 1 (szBytes sz) {} s
    let y ← readPlace e 1 (szBytes sz) false ps
    checkSrc y isIntTag
    checkDst pd 0 (intTag y.tag y.tag)
    writePlace e 8 pd (BitVec.ofInt 64 (sInt (8 * (szBytes sz)) y.val.toNat)) (intTag y.tag y.tag)
    return e.npc) st

/-- XCHG: both operands are written (R204, R206, R216). -/
def execXchg (a : At) (d s : Opd) (st : State) : Answer :=
  runInstr a (instrLen a 1 [d, s] 0) (a.pfx.isEmpty && opdDst d && opdDst s) 2 (fun e => do
    let pd ← formOpd e 0 8 { write := true } d
    let ps ← formOpd e 1 8 { write := true } s
    let x ← readPlace e 0 8 false pd
    let y ← readPlace e 1 8 false ps
    if !(pd.whole && ps.whole) then
      checkSrc x isIntTag
      checkSrc y isIntTag
    checkDst pd 0 y.tag
    checkDst ps 1 x.tag
    writePlace e 8 pd y.val y.tag
    writePlace e 8 ps x.val x.tag
    return e.npc) st

/-- ADD (R207, R227). -/
def execAdd (a : At) (sz : Sz) (d s : Opd) (st : State) : Answer := aluInstr .add a sz d s st
/-- SUB (R207, R227). -/
def execSub (a : At) (sz : Sz) (d s : Opd) (st : State) : Answer := aluInstr .sub a sz d s st
/-- AND (R207, R227). -/
def execAnd (a : At) (sz : Sz) (d s : Opd) (st : State) : Answer := aluInstr .and a sz d s st
/-- OR (R227). -/
def execOr (a : At) (sz : Sz) (d s : Opd) (st : State) : Answer := aluInstr .or a sz d s st
/-- XOR (R227). -/
def execXor (a : At) (sz : Sz) (d s : Opd) (st : State) : Answer := aluInstr .xor a sz d s st
/-- ADC (R227). -/
def execAdc (a : At) (sz : Sz) (d s : Opd) (st : State) : Answer := aluInstr .adc a sz d s st
/-- SBB (R227). -/
def execSbb (a : At) (sz : Sz) (d s : Opd) (st : State) : Answer := aluInstr .sbb a sz d s st
/-- SHL (R227). -/
def execShl (a : At) (sz : Sz) (d s : Opd) (st : State) : Answer := aluInstr .shl a sz d s st
/-- SHR (R227). -/
def execShr (a : At) (sz : Sz) (d s : Opd) (st : State) : Answer := aluInstr .shr a sz d s st
/-- SAR (R227). -/
def execSar (a : At) (sz : Sz) (d s : Opd) (st : State) : Answer := aluInstr .sar a sz d s st
/-- ROL (R227). -/
def execRol (a : At) (sz : Sz) (d s : Opd) (st : State) : Answer := aluInstr .rol a sz d s st
/-- MUL (R227). -/
def execMul (a : At) (sz : Sz) (d s : Opd) (st : State) : Answer := aluInstr .mul a sz d s st
/-- MULH (R227). -/
def execMulh (a : At) (sz : Sz) (d s : Opd) (st : State) : Answer := aluInstr .mulh a sz d s st
/-- DIV (R227). -/
def execDiv (a : At) (sz : Sz) (d s : Opd) (st : State) : Answer := aluInstr .div a sz d s st
/-- DIVU (R227). -/
def execDivu (a : At) (sz : Sz) (d s : Opd) (st : State) : Answer := aluInstr .divu a sz d s st

/-- The body of a compare of operand 0 with operand 1: flags only (R207). -/
def compareBody (op : Alu) (n : Nat) (d s : Opd) (e : Env) : CoreRun (BitVec 47) := do
  let pd ← formOpd e 0 n {} d
  let ps ← formOpd e 1 n {} s
  let x ← readPlace e 0 n false pd
  let y ← readPlace e 1 n false ps
  checkSrc x comparable
  checkSrc y comparable
  let r := alu op (8 * n) x.val.toNat y.val.toNat false false
  changeArch e (fun a => { a with sw := r.flags.apply a.sw })
  return e.npc

/-- CMP (R207, R227). -/
def execCmp (a : At) (sz : Sz) (d s : Opd) (st : State) : Answer :=
  runInstr a (instrLen a 1 [d, s] 0) (a.pfx.isEmpty && opdSrc d && opdSrc s) 2 (compareBody .sub (szBytes sz) d s) st

/-- TST (R207, R227). -/
def execTst (a : At) (sz : Sz) (d s : Opd) (st : State) : Answer :=
  runInstr a (instrLen a 1 [d, s] 0) (a.pfx.isEmpty && opdSrc d && opdSrc s) 2 (compareBody .and (szBytes sz) d s) st

/-- An instruction of one operand that is read and written. -/
def unaryBody (n : Nat) (d : Opd) (f : Nat → AluOut) (e : Env) : CoreRun (BitVec 47) := do
  let pd ← formOpd e 0 n { write := true } d
  let x ← readPlace e 0 n false pd
  checkSrc x isIntTag
  let r := f x.val.toNat
  writePlace e n pd (BitVec.ofNat 64 r.val) (intTag x.tag x.tag)
  changeArch e (fun a => { a with sw := r.flags.apply a.sw })
  return e.npc

/-- NEG: the flags of 0 − dst (R227). -/
def execNeg (a : At) (sz : Sz) (d : Opd) (st : State) : Answer :=
  runInstr a (instrLen a 1 [d] 0) (a.pfx.isEmpty && opdDst d) 2
    (unaryBody (szBytes sz) d (fun x => subFlags (8 * (szBytes sz)) 0 x false)) st

/-- NOT: no flags (R227). -/
def execNot (a : At) (sz : Sz) (d : Opd) (st : State) : Answer :=
  runInstr a (instrLen a 1 [d] 0) (a.pfx.isEmpty && opdDst d) 2
    (unaryBody (szBytes sz) d (fun x => { val := 2 ^ (8 * (szBytes sz)) - 1 - x % 2 ^ (8 * (szBytes sz)) })) st

/-- The body of LEA and LEAC: operand 1 is formed and not accessed (R207, R227). -/
def leaBody (t : Tag) (d s : Opd) (e : Env) : CoreRun (BitVec 47) := do
  let pd ← formOpd e 0 8 { write := true } d
  let va ← formAddr e 1 s
  checkDst pd 0 t
  writePlace e 8 pd (BitVec.ofNat 64 va) t
  return e.npc

/-- LEA (R227). -/
def execLea (a : At) (d s : Opd) (st : State) : Answer :=
  runInstr a (instrLen a 1 [d, s] 0) (a.pfx.isEmpty && opdDst d && opdMem s) 2 (leaBody .ptr d s) st

/-- LEAC: operand 1 in mode 0xC (R227). -/
def execLeac (a : At) (d s : Opd) (st : State) : Answer :=
  runInstr a (instrLen a 1 [d, s] 0)
    (a.pfx.isEmpty && opdDst d && (match s with | .pc _ => true | _ => false)) 2 (leaBody .codeptr d s) st

/-! ## The stack (R208, R227) -/

/-- An address at a distance from a base register, 8-aligned (R208); operand 3 of R217. -/
def stackAddr (e : Env) (r : Nat) (d : Int) : CoreRun Nat := do
  let va := addrAdd (← baseReg e r 3) d
  if va % 8 ≠ 0 then raiseX { code := 3, eaddr := va, opnd := 3 }
  return va

/-- PUSH: P12 −= 8; [P12] ← src (R206, R227). -/
def execPush (a : At) (o : Opd) (st : State) : Answer :=
  runInstr a (instrLen a 1 [o] 0) (a.pfx.isEmpty && opdSrc o) 2 (fun e => do
    let ps ← formOpd e 0 8 {} o
    let sp ← stackAddr e 12 (-8)
    let acc ← formAcc e sp 8 3 { write := true }
    let y ← readPlace e 0 8 false ps
    if !ps.whole then checkSrc y isIntTag
    checkDst (.mem acc) 3 y.tag
    writePlace e 8 (.mem acc) y.val y.tag
    changeArch e (·.setP 12 ⟨BitVec.ofNat 64 sp, .ptr⟩)
    return e.npc) st

/-- POP: dst ← [P12]; P12 += 8 (R206, R227; log entry 9 on POP to P12). -/
def execPop (a : At) (d : Opd) (st : State) : Answer :=
  runInstr a (instrLen a 1 [d] 0) (a.pfx.isEmpty && opdDst d) 2 (fun e => do
    let pd ← formOpd e 0 8 { write := true } d
    let sp ← stackAddr e 12 0
    let acc ← formAcc e sp 8 3 {}
    let y ← readPlace e 3 8 false (.mem acc)
    if !pd.whole then checkSrc y isIntTag
    checkDst pd 0 y.tag
    changeArch e (·.setP 12 ⟨BitVec.ofNat 64 (addrAdd sp 8), .ptr⟩)
    writePlace e 8 pd y.val y.tag
    return e.npc) st

/-- ENTER: P12 −= 8; [P12] ← P13; P13 ← P12 − u16; P12 ← P13 (R227). -/
def execEnter (a : At) (n : BitVec 16) (st : State) : Answer :=
  runInstr a (instrLen a 1 [] 2) (a.pfx.isEmpty && decide (n.toNat % 8 = 0)) 2 (fun e => do
    let sp ← stackAddr e 12 (-8)
    let acc ← formAcc e sp 8 3 { write := true }
    let y := (← getArch e).pReg 13
    checkDst (.mem acc) 3 y.tag
    writePlace e 8 (.mem acc) y.data y.tag
    let fp : TWord := ⟨BitVec.ofNat 64 (addrAdd sp (-(n.toNat : Int))), .ptr⟩
    changeArch e (fun a => (a.setP 13 fp).setP 12 fp)
    return e.npc) st

/-- LEAVE: P12 ← P13 + u16; P13 ← [P12]; P12 += 8 (R227). -/
def execLeave (a : At) (n : BitVec 16) (st : State) : Answer :=
  runInstr a (instrLen a 1 [] 2) (a.pfx.isEmpty && decide (n.toNat % 8 = 0)) 2 (fun e => do
    let sp ← stackAddr e 13 n.toNat
    let acc ← formAcc e sp 8 3 {}
    let y ← readPlace e 3 8 false (.mem acc)
    changeArch e (fun a => (a.setP 13 ⟨y.val, y.tag⟩).setP 12 ⟨BitVec.ofNat 64 (addrAdd sp 8), .ptr⟩)
    return e.npc) st

end Sys2Proof.Machine
end

