-- ==== Sys2Proof/Machine/Flow.lean ====
section
/-! DEFINITION. Control flow, traps, fences, and the instructions that read and write tags, SW and control registers
(R210–R214, R218, R220, R225, R227, R228). -/

namespace Sys2Proof.Machine

/-! ## Branch prediction state (R169, R171, R192) -/

/-- A branch whose target or direction was not that predicted counts as BR_MISPRED, and what its wrong path has read ahead is discarded (R169, R187,
R194); in Walk prediction is off (R192). -/
def noteWrong (e : Env) (wrong : Bool) : CoreRun Unit := do
  if wrong ∧ !((← get).core e.c).walk then
    note e 3
    change (dropSpec e.c)

/-- The target that the branch target buffer holds for an instruction of this stall (R169, R171). -/
def btbTarget (cs : CoreSt) (pc : BitVec 47) : Option (BitVec 47) :=
  (cs.btb.find? (fun x => decide (x.1 = cs.stall) && decide (x.2.1 = pc))).map (fun x => x.2.2)

/-- The direction of a conditional branch is predicted (R169): its hint where it misses in the branch target buffer; otherwise the direction
predictor's, whose algorithm is open, so a free value (log entry 138). -/
def predictDirection (e : Env) (hint taken : Bool) : CoreRun Unit := do
  let s ← get
  let cs := s.core e.c
  let guess := if (btbTarget cs e.pc).isNone then hint else (freeValue s).getLsbD 0
  noteWrong e (guess != taken)
  if !cs.walk then
    change (fun s => (State.took s).setCore e.c { s.core e.c with
      direction := if cs.direction.contains (cs.stall, e.pc) then cs.direction else (cs.stall, e.pc) :: cs.direction })

/-- The target of an indirect branch is predicted by the branch target buffer (R169). That a branch which misses in it counts as mispredicted is
the model's choice (log entry 195). -/
def predictTarget (e : Env) (target : BitVec 47) : CoreRun Unit := do
  noteWrong e (decide (btbTarget ((← get).core e.c) e.pc ≠ some target))

/-- The target of a return is predicted by the return stack, or where it holds none of this stall by the branch target buffer (R169, R171). -/
def predictReturn (e : Env) (target : BitVec 47) : CoreRun Unit := do
  let cs := (← get).core e.c
  match cs.returnStack with
  | x :: _ => if x.1 = cs.stall then noteWrong e (decide (x.2 ≠ target)) else predictTarget e target
  | [] => predictTarget e target

/-- Record a taken branch in the branch target buffer of 8,192 entries (R167, R171). The spec does not say how it is indexed or which entry gives way
to a new one; that the whole address is matched and the oldest goes is the model's choice (log entry 194). -/
def noteTaken (e : Env) (target : BitVec 47) : CoreRun Unit :=
  change (fun s =>
    let cs := s.core e.c
    if cs.walk then s
    else s.setCore e.c { cs with btb := ((cs.stall, e.pc, target) :: cs.btb.filter (fun x => !(decide (x.1 = cs.stall) && decide (x.2.1 = e.pc)))).take 8192 })

/-- Push a return address on the return stack, which discards its oldest entry at 32 (R169). -/
def pushReturn (e : Env) : CoreRun Unit :=
  change (fun s => let cs := s.core e.c
                   if cs.walk then s else s.setCore e.c { cs with returnStack := ((cs.stall, e.npc) :: cs.returnStack).take 32 })

/-- Pop the return stack. -/
def popReturn (e : Env) : CoreRun Unit :=
  change (fun s => let cs := s.core e.c
                   if cs.walk then s else s.setCore e.c { cs with returnStack := cs.returnStack.drop 1 })

/-- The encoded length of a displacement and its value. -/
def dispBytes (d : Disp) : Nat := match d with | .rel8 _ => 1 | .rel32 _ => 4
def dispVal (d : Disp) : Int := match d with | .rel8 x => x.toInt | .rel32 x => x.toInt

/-- A branch target relative to the next instruction, in 47 bits (log entry 15). -/
def relTarget (e : Env) (d : Int) : BitVec 47 := e.npc + BitVec.ofInt 47 d

/-- BCC (R228): page 0 with rel8, page 1 with rel32. -/
def execBcc (a : At) (cond : BitVec 4) (hint : Bool) (d : Disp) (st : State) : Answer :=
  runInstr a (instrLen a (match d with | .rel8 _ => 1 | .rel32 _ => 2) [] (dispBytes d)) a.pfx.isEmpty 2 (fun e => do
    let taken := condition cond.toNat (← getArch e).sw
    predictDirection e hint taken
    if taken then
      noteTaken e (relTarget e (dispVal d))
      return relTarget e (dispVal d)
    else return e.npc) st

/-- BR (R227). -/
def execBr (a : At) (d : Disp) (st : State) : Answer :=
  runInstr a (instrLen a 1 [] (dispBytes d)) a.pfx.isEmpty 2 (fun e => do
    noteTaken e (relTarget e (dispVal d))
    return relTarget e (dispVal d)) st

/-- Push the next instruction's address as a CODEPTR (R210). -/
def pushLink (e : Env) (acc : Acc) : CoreRun Unit := do
  writePlace e 8 (.mem acc) (e.npc.setWidth 64) .codeptr
  changeArch e (·.setP 12 ⟨BitVec.ofNat 64 acc.va, .ptr⟩)
  pushReturn e

/-- CALL (R210). -/
def execCall (a : At) (d : BitVec 32) (st : State) : Answer :=
  runInstr a (instrLen a 1 [] 4) a.pfx.isEmpty 2 (fun e => do
    let sp ← stackAddr e 12 (-8)
    let acc ← formAcc e sp 8 3 { write := true }
    checkDst (.mem acc) 3 .codeptr
    pushLink e acc
    noteTaken e (relTarget e d.toInt)
    return relTarget e d.toInt) st

/-- The check of an indirect target (R210): only a CODEPTR. -/
def checkTarget (y : Src) : CoreRun Unit := do
  match y.bad with
  | some (t, ea, up) => raiseX { tagExc t y.opnd ea with upper := up }
  | none => if y.tag ≠ .codeptr then
      raiseX { code := 7, eaddr := y.val.toNat, opnd := y.opnd, tag := y.tag }

/-- CALLI (R210). -/
def execCalli (a : At) (o : Opd) (st : State) : Answer :=
  runInstr a (instrLen a 1 [o] 0) (a.pfx.isEmpty && opdSrc o) 2 (fun e => do
    let ps ← formOpd e 0 8 {} o
    let sp ← stackAddr e 12 (-8)
    let acc ← formAcc e sp 8 3 { write := true }
    let y ← readPlace e 0 8 false ps
    checkTarget y
    checkDst (.mem acc) 3 .codeptr
    pushLink e acc
    predictTarget e (y.val.truncate 47)
    noteTaken e (y.val.truncate 47)
    return y.val.truncate 47) st

/-- BRI (R210). -/
def execBri (a : At) (o : Opd) (st : State) : Answer :=
  runInstr a (instrLen a 1 [o] 0) (a.pfx.isEmpty && opdSrc o) 2 (fun e => do
    let ps ← formOpd e 0 8 {} o
    let y ← readPlace e 0 8 false ps
    checkTarget y
    predictTarget e (y.val.truncate 47)
    noteTaken e (y.val.truncate 47)
    return y.val.truncate 47) st

/-- RET (R210). -/
def execRet (a : At) (st : State) : Answer :=
  runInstr a (instrLen a 1 [] 0) a.pfx.isEmpty 2 (fun e => do
    let sp ← stackAddr e 12 0
    let acc ← formAcc e sp 8 3 {}
    let y ← readPlace e 3 8 false (.mem acc)
    checkTarget y
    changeArch e (·.setP 12 ⟨BitVec.ofNat 64 (addrAdd sp 8), .ptr⟩)
    predictReturn e (y.val.truncate 47)
    popReturn e
    noteTaken e (y.val.truncate 47)
    return y.val.truncate 47) st

/-! ## Traps, waiting and fences -/

/-- NOP (R227). -/
def execNop (a : At) (st : State) : Answer :=
  runInstr a (instrLen a 1 [] 0) a.pfx.isEmpty 2 (fun e => return e.npc) st

/-- WFI: the core waits for an interrupt (R227); one that its stall has given up leaves the stall (R350). -/
def execWfi (a : At) (st : State) : Answer :=
  match runInstr a (instrLen a 1 [] 0) a.pfx.isEmpty 1 (fun e => do
    change (fun s => s.setCore e.c { s.core e.c with waiting := true })
    return e.npc) st with
  | .next s => .next (leaveAtWfi a.core.val s)
  | r => r

/-- BRK (R214). -/
def execBrk (a : At) (st : State) : Answer :=
  runInstr a (instrLen a 1 [] 0) a.pfx.isEmpty 2 (fun e => raiseX { code := 0x0D, next := true, eaddr := e.pc.toNat }) st

/-- SVC: its value in EINFO (R213, R214). -/
def execSvc (a : At) (v : BitVec 8) (st : State) : Answer :=
  runInstr a (instrLen a 1 [] 1) a.pfx.isEmpty 2
    (fun e => raiseX { code := 0x0F, next := true, eaddr := e.pc.toNat, einfo := v.toNat }) st

/-- ERET (R220). -/
def execEret (a : At) (st : State) : Answer :=
  runInstr a (instrLen a 1 [] 0) a.pfx.isEmpty 1 (fun e => do
    let b := (← getArch e).bank e.pl
    if b.epc.tag ≠ .codeptr then raiseX { code := 7, eaddr := b.epc.data.toNat, tag := b.epc.tag }
    changeArch e (fun a => returnFrom a e.pl)
    return b.epc.data.truncate 47) st

/-- FENCE (R225). -/
def execFence (a : At) (st : State) : Answer :=
  runInstr a (instrLen a 1 [] 0) a.pfx.isEmpty 2 (fun e => do fenceAll e; return e.npc) st

/-- FENCE.SE (R225): side-effect stores are acknowledged where they are performed. -/
def execFenceSe (a : At) (st : State) : Answer :=
  runInstr a (instrLen a 1 [] 0) a.pfx.isEmpty 2 (fun e => do fenceAll e; return e.npc) st

/-- ISYNC: FENCE, and all of L1I invalidated (R225, R226, R261). -/
def execIsync (a : At) (st : State) : Answer :=
  runInstr a (instrLen a 1 [] 0) a.pfx.isEmpty 2 (fun e => do
    fenceAll e
    change (fun s => s.setCore e.c { s.core e.c with l1i := [] })
    return e.npc) st

/-! ## Tags (R205, R206, R211) -/

/-- TAGR (R206, R227). -/
def execTagr (a : At) (d s : Opd) (st : State) : Answer :=
  runInstr a (instrLen a 1 [d, s] 0) (a.pfx.isEmpty && opdDst d && opdSrc s) 2 (fun e => do
    let pd ← formOpd e 0 8 { write := true } d
    let ps ← formOpd e 1 8 {} s
    let y ← readPlace e 1 8 false ps
    checkSrc y anyTag
    writePlace e 8 pd (y.tag.code.setWidth 64) .int
    return e.npc) st

/-- TTEST (R206, R227). -/
def execTtest (a : At) (s : Opd) (t : BitVec 8) (st : State) : Answer :=
  runInstr a (instrLen a 1 [s] 1) (a.pfx.isEmpty && opdSrc s) 2 (fun e => do
    let ps ← formOpd e 0 8 {} s
    let y ← readPlace e 0 8 false ps
    checkSrc y anyTag
    changeArch e (fun a => { a with sw := setBit a.sw 4 (decide (y.tag.code = t.truncate 4)) })
    return e.npc) st

/-- The body of a move that replaces one of the accepted tags by another (R211). -/
def retagBody (ok : Tag → Bool) (t : Tag) (d s : Opd) (e : Env) : CoreRun (BitVec 47) := do
  let pd ← formOpd e 0 8 { write := true } d
  let ps ← formOpd e 1 8 {} s
  let y ← readPlace e 1 8 false ps
  checkSrc y ok
  checkDst pd 0 t
  writePlace e 8 pd y.val t
  return e.npc

/-- PTRINT (R211). -/
def execPtrint (a : At) (d s : Opd) (st : State) : Answer :=
  runInstr a (instrLen a 1 [d, s] 0) (a.pfx.isEmpty && opdDst d && opdSrc s) 2
    (retagBody (fun t => decide (t = .int) || decide (t = .ptr) || decide (t = .codeptr)) .int d s) st

/-- MKPTR (R211). -/
def execMkptr (a : At) (d s : Opd) (st : State) : Answer :=
  runInstr a (instrLen a 1 [d, s] 0) (a.pfx.isEmpty && opdDst d && opdSrc s) 1
    (retagBody (fun t => decide (t = .int)) .ptr d s) st

/-- MKCODE (R211). -/
def execMkcode (a : At) (d s : Opd) (st : State) : Answer :=
  runInstr a (instrLen a 1 [d, s] 0) (a.pfx.isEmpty && opdDst d && opdSrc s) 1
    (retagBody (fun t => decide (t = .int)) .codeptr d s) st

/-- Tag instructions take an aligned memory word (R211). -/
def checkAligned (pl : Place) : CoreRun Unit := do
  match pl with
  | .mem a => if a.va % 8 ≠ 0 then raiseX { code := 3, eaddr := a.va, write := true }
  | _ => return ()

/-- TAGSET: the value stays (R205, R211). -/
def execTagset (a : At) (d : Opd) (t : BitVec 8) (st : State) : Answer :=
  runInstr a (instrLen a 1 [d] 1) (a.pfx.isEmpty && opdDst d && (Tag.ofCode (t.truncate 4)).isSome) 0 (fun e => do
    let pd ← formOpd e 0 8 { write := true } d
    checkAligned pd
    let y ← readPlace e 0 8 false pd
    let tag := (Tag.ofCode (t.truncate 4)).getD .int
    checkDst pd 0 tag
    writePlace e 8 pd y.val tag
    return e.npc) st

/-- KILL: zero, tagged UNINIT (R211). -/
def execKill (a : At) (d : Opd) (st : State) : Answer :=
  runInstr a (instrLen a 1 [d] 0) (a.pfx.isEmpty && opdDst d) 2 (fun e => do
    let pd ← formOpd e 0 8 { write := true } d
    checkAligned pd
    checkDst pd 0 .uninit
    writePlace e 8 pd 0 .uninit
    return e.npc) st

/-! ## SW and control registers -/

/-- MFCR (R218). -/
def execMfcr (a : At) (d : Opd) (n : BitVec 8) (st : State) : Answer :=
  runInstr a (instrLen a 1 [d] 1) (a.pfx.isEmpty && opdDst d) 2 (mfcrBody n.toNat d) st

/-- MTCR (R218). -/
def execMtcr (a : At) (n : BitVec 8) (s : Opd) (st : State) : Answer :=
  runInstr a (instrLen a 1 [s] 1) (a.pfx.isEmpty && opdSrc s) 2 (mtcrBody n.toNat s) st

/-- MFCR of IC_ACK (R401). -/
def execIcAck (a : At) (d : Opd) (st : State) : Answer :=
  runInstr a (instrLen a 1 [d] 1) (a.pfx.isEmpty && opdDst d) 2 (mfcrBody 0x41 d) st
/-- MTCR to IC_EOI (R403). -/
def execIcEoi (a : At) (s : Opd) (st : State) : Answer :=
  runInstr a (instrLen a 1 [s] 1) (a.pfx.isEmpty && opdSrc s) 2 (mtcrBody 0x42 s) st
/-- MTCR to IC_SETPEND (R399). -/
def execIcSetpend (a : At) (s : Opd) (st : State) : Answer :=
  runInstr a (instrLen a 1 [s] 1) (a.pfx.isEmpty && opdSrc s) 2 (mtcrBody 0x45 s) st
/-- MTCR to IC_MODE (R403). -/
def execIcModeWrite (a : At) (s : Opd) (st : State) : Answer :=
  runInstr a (instrLen a 1 [s] 1) (a.pfx.isEmpty && opdSrc s) 2 (mtcrBody 0x43 s) st
/-- MTCR to TTBR (R329, R330). -/
def execTtbrWrite (a : At) (s : Opd) (st : State) : Answer :=
  runInstr a (instrLen a 1 [s] 1) (a.pfx.isEmpty && opdSrc s) 2 (mtcrBody 0x30 s) st
/-- MTCR to TCR (R331). -/
def execTcrWrite (a : At) (s : Opd) (st : State) : Answer :=
  runInstr a (instrLen a 1 [s] 1) (a.pfx.isEmpty && opdSrc s) 2 (mtcrBody 0x31 s) st
/-- MTCR to GAIT_REQ (R423). -/
def execGaitReqWrite (a : At) (s : Opd) (st : State) : Answer :=
  runInstr a (instrLen a 1 [s] 1) (a.pfx.isEmpty && opdSrc s) 2 (mtcrBody 0x50 s) st
/-- MTCR to PMSTATUS (R516). -/
def execPmstatusWrite (a : At) (s : Opd) (st : State) : Answer :=
  runInstr a (instrLen a 1 [s] 1) (a.pfx.isEmpty && opdSrc s) 2 (mtcrBody 0x79 s) st
/-- MTCR to SAMPLE_INFO (R516). -/
def execSampleInfoWrite (a : At) (s : Opd) (st : State) : Answer :=
  runInstr a (instrLen a 1 [s] 1) (a.pfx.isEmpty && opdSrc s) 2 (mtcrBody 0x78 s) st
/-- MTCR to PMFREEZE (R516). -/
def execPmfreezeWrite (a : At) (s : Opd) (st : State) : Answer :=
  runInstr a (instrLen a 1 [s] 1) (a.pfx.isEmpty && opdSrc s) 2 (mtcrBody 0x7A s) st

/-- MFSW: SW as INT (R227). -/
def execMfsw (a : At) (d : Opd) (st : State) : Answer :=
  runInstr a (instrLen a 1 [d] 0) (a.pfx.isEmpty && opdDst d) 2 (fun e => do
    let pd ← formOpd e 0 8 { write := true } d
    writePlace e 8 pd (← getArch e).sw .int
    return e.npc) st

/-- MTSW (R198, R207). -/
def execMtsw (a : At) (s : Opd) (st : State) : Answer :=
  runInstr a (instrLen a 1 [s] 0) (a.pfx.isEmpty && opdSrc s) 2 (fun e => do
    let ps ← formOpd e 0 8 {} s
    let y ← readPlace e 0 8 false ps
    checkSrc y (fun t => decide (t = .int))
    changeArch e (fun a => { a with sw := mtswWord e.pl a.sw y.val })
    return e.npc) st

end Sys2Proof.Machine
end

