-- ==== Sys2Proof/Machine/Upkeep.lean ====
section
/-! DEFINITION. Cache maintenance (R279–R283), translation invalidation (R333, R334), block instructions (R230–R234) and atomics
(R236–R239, R275). -/

namespace Sys2Proof.Machine

/-- An interrupt pending at a resume point is taken there (R173, R233). -/
def resumePoint (e : Env) : CoreRun Unit := do
  let s ← get
  if swIe (s.core e.c).arch.sw ∧ (winner s (.core e.c)).isSome then raiseX { code := 0x20 }

/-! ## Cache maintenance -/

/-- Wait while a home is busy with one of the lines, or asleep (R269, R418). -/
def waitLines (e : Env) (lines : List Nat) : CoreRun Unit := do
  let s ← get
  match lines.find? (fun l => coreWaits s e.c l) with
  | some l => waitFor e l
  | none => return ()

/-- Maintain the line at a translated address; nothing on a side-effect page (R279). -/
def maintainAt (op : Maint) (e : Env) (x : Xlat) : CoreRun Unit := do
  if x.side then return ()
  waitLines e [x.pa / 64]
  change (fun s => markMisses (coreTile s e.c) (x.pa / 64) s)
  change (fun s => maintainLine op (coreAttr (s.core e.c) x) (decide (e.pl = 0)) (x.pa / 64) (lookup (x.pa / 64) s))

/-- The body of CCLEAN, CCLINV and CDISCARD. -/
def maintBody (op : Maint) (o : Opd) (e : Env) : CoreRun (BitVec 47) := do
  let va ← formAddr e 0 o
  let w := decide (op = .discard)
  let x ← xlat e.c va { write := w } (fun f => xlatExc f va 0 w false false false)
  fenceAll e
  maintainAt op e x
  return e.npc

/-- CCLEAN (R279). -/
def execCclean (a : At) (m : Opd) (st : State) : Answer :=
  runInstr a (instrLen a 2 [m] 0) (a.pfx.isEmpty && opdMem m) 2 (maintBody .clean m) st
/-- CCLINV (R279). -/
def execCclinv (a : At) (m : Opd) (st : State) : Answer :=
  runInstr a (instrLen a 2 [m] 0) (a.pfx.isEmpty && opdMem m) 2 (maintBody .cleanInv m) st
/-- CDISCARD (R279, R281). -/
def execCdiscard (a : At) (m : Opd) (st : State) : Answer :=
  runInstr a (instrLen a 2 [m] 0) (a.pfx.isEmpty && opdMem m) 1 (maintBody .discard m) st

/-- The body of CZERO and CCLEAR: a span at an address whose bits [7:0] are zero (R279, R283). -/
def zeroBody (t : Tag) (o : Opd) (e : Env) : CoreRun (BitVec 47) := do
  let va ← formAddr e 0 o
  let k : AccKind := { write := true, special := true }
  let x ← xlat e.c va k (fun f => xlatExc f va 0 true false false false)
  if va % 256 ≠ 0 then raiseX { code := 3, eaddr := va, write := true }
  fenceAll e
  let sec := x.pa / 256
  waitLines e [4 * sec, 4 * sec + 1, 4 * sec + 2, 4 * sec + 3]
  change (fun s => spanZero (coreAttr (s.core e.c) x) sec t (lookup (4 * sec) s))
  return e.npc

/-- CZERO (R283). -/
def execCzero (a : At) (m : Opd) (st : State) : Answer :=
  runInstr a (instrLen a 2 [m] 0) (a.pfx.isEmpty && opdMem m) 2 (zeroBody .int m) st
/-- CCLEAR (R283). -/
def execCclear (a : At) (m : Opd) (st : State) : Answer :=
  runInstr a (instrLen a 2 [m] 0) (a.pfx.isEmpty && opdMem m) 2 (zeroBody .uninit m) st

/-- The lines of a range one by one; `n` lines remain. P14 and X0 describe the rest at every page boundary and every 64 lines (R280). -/
def rangeLoop (op : Maint) (e : Env) (n done : Nat) : CoreRun Unit := do
  match n with
  | 0 => return ()
  | n + 1 =>
    let p := (← getArch e).pReg 14
    let x0 := (← getArch e).xReg 0
    let va := p.data.toNat
    if done ≠ 0 ∧ (va % 16384 = 0 ∨ done % 64 = 0) then resumePoint e
    let w := decide (op = .discard)
    let x ← xlat e.c va { write := w } (fun f => xlatExc f va 3 w false false false)
    maintainAt op e x
    changeArch e (fun a => (a.setP 14 ⟨p.data + 64, .ptr⟩).setX 0 ⟨x0.data - 64, x0.tag⟩)
    rangeLoop op e n (done + 1)

/-- The body of CRANGE (R280). -/
def rangeBody (op : Maint) (e : Env) : CoreRun (BitVec 47) := do
  let va ← baseReg e 14 3
  let t := (← getArch e).xReg 0
  if !isIntTag t.tag then raiseX (tagExc t.tag 3 0)
  if va % 64 ≠ 0 then raiseX { code := 3, eaddr := va, opnd := 3 }
  if t.data.toNat % 64 ≠ 0 then raiseX { code := 3, eaddr := va, opnd := 3 }
  fenceAll e
  rangeLoop op e (t.data.toNat / 64) 0
  return e.npc

/-- CRANGE CLEAN (R280). -/
def execCrangeClean (a : At) (st : State) : Answer :=
  runInstr a (instrLen a 2 [] 1) a.pfx.isEmpty 2 (rangeBody .clean) st
/-- CRANGE CLEAN-INVALIDATE (R280). -/
def execCrangeCleanInvalidate (a : At) (st : State) : Answer :=
  runInstr a (instrLen a 2 [] 1) a.pfx.isEmpty 2 (rangeBody .cleanInv) st
/-- CRANGE DISCARD (R280). -/
def execCrangeDiscard (a : At) (st : State) : Answer :=
  runInstr a (instrLen a 2 [] 1) a.pfx.isEmpty 1 (rangeBody .discard) st

/-! ## Translation invalidation -/

/-- What an invalidation removes: TLB entries and walk-cache entries. -/
structure Inval where
  tlb : TlbEntry → Bool
  walk : WalkEntry → Bool

/-- Remove matching entries from one core. -/
def invalCore (i : Inval) (c : Nat) (s : State) : State :=
  let cs := s.core c
  if cs.tlb.isEmpty && cs.walkCache.isEmpty then s
  else s.setCore c { cs with tlb := cs.tlb.filter (fun x => !i.tlb x), walkCache := cs.walkCache.filter (fun x => !i.walk x) }

/-- Remove matching entries from every core, or from the issuing core alone (R333). -/
def invalidate (i : Inval) (loc : Option Nat) (s : State) : State :=
  match loc with
  | some c => invalCore i c s
  | none => (List.range 128).foldl (fun st c => invalCore i c st) s

/-- Entries of a stall for the page of an address, with an ASID or G; the stall's walk-cache entries whose range contains the address (R333). -/
def invalVa (stall : Nat) (asid : BitVec 12) (va : Nat) : Inval :=
  { tlb := fun x => decide (x.stall = stall) && decide (x.page = va / 16384) && (decide (x.asid = asid) || x.glob),
    walk := fun x => decide (x.stall = stall) && decide (x.va = va / 2 ^ (36 - 11 * x.level.val)) }

/-- Entries of a stall with an ASID; G entries stay. -/
def invalAsid (stall : Nat) (asid : BitVec 12) : Inval :=
  { tlb := fun x => decide (x.stall = stall) && decide (x.asid = asid) && !x.glob,
    walk := fun x => decide (x.stall = stall) && decide (x.asid = asid) }

/-- All entries of a stall. -/
def invalStall (stall : Nat) : Inval := { tlb := fun x => decide (x.stall = stall), walk := fun x => decide (x.stall = stall) }

/-- All entries. -/
def invalAll : Inval := { tlb := fun _ => true, walk := fun _ => true }

/-- Perform an invalidation as the oldest instruction, after the store buffer has drained; a global one is outstanding until
every unit has acknowledged (R334). -/
def performInval (e : Env) (loc : Bool) (i : Inval) : CoreRun (BitVec 47) := do
  fenceAll e
  change (fun s =>
    let s1 := invalidate i (if loc then some e.c else none) s
    if loc then s1 else s1.setCore e.c { s1.core e.c with tlbiWait := true })
  return e.npc

/-- The body of TLBI.VA. -/
def tlbiVaBody (loc : Bool) (m : Opd) (e : Env) : CoreRun (BitVec 47) := do
  let va ← formAddr e 0 m
  let cs := (← get).core e.c
  performInval e loc (invalVa cs.stall (cs.arch.ttbr.truncate 12) va)

/-- The INT source of an invalidation (R333). -/
def tlbiSrc (e : Env) (opnd : Nat) (o : Opd) : CoreRun Word := do
  let ps ← formOpd e opnd 8 {} o
  let y ← readPlace e opnd 8 false ps
  checkSrc y (fun t => decide (t = .int))
  return y.val

def tlbiAsidBody (loc : Bool) (o : Opd) (e : Env) : CoreRun (BitVec 47) := do
  let v ← tlbiSrc e 0 o
  performInval e loc (invalAsid ((← get).core e.c).stall (v.truncate 12))

def tlbiStallBody (loc : Bool) (e : Env) : CoreRun (BitVec 47) := do
  performInval e loc (invalStall ((← get).core e.c).stall)

def tlbiStallnBody (loc : Bool) (o : Opd) (e : Env) : CoreRun (BitVec 47) := do
  let v ← tlbiSrc e 0 o
  performInval e loc (invalStall (natField v.toNat 0 9))

/-- TLBI.VA, global (R333). -/
def execTlbiVa (a : At) (m : Opd) (st : State) : Answer :=
  runInstr a (instrLen a 2 [m] 0) (a.pfx.isEmpty && opdMem m) 1 (tlbiVaBody false m) st
/-- TLBI.VA, local (R333). -/
def execTlbiVaLocal (a : At) (m : Opd) (st : State) : Answer :=
  runInstr a (instrLen a 2 [m] 0) (a.pfx.isEmpty && opdMem m) 1 (tlbiVaBody true m) st
/-- TLBI.ASID, global (R333). -/
def execTlbiAsid (a : At) (o : Opd) (st : State) : Answer :=
  runInstr a (instrLen a 2 [o] 0) (a.pfx.isEmpty && opdSrc o) 1 (tlbiAsidBody false o) st
/-- TLBI.ASID, local (R333). -/
def execTlbiAsidLocal (a : At) (o : Opd) (st : State) : Answer :=
  runInstr a (instrLen a 2 [o] 0) (a.pfx.isEmpty && opdSrc o) 1 (tlbiAsidBody true o) st
/-- TLBI.STALL, global (R333). -/
def execTlbiStall (a : At) (st : State) : Answer :=
  runInstr a (instrLen a 2 [] 0) a.pfx.isEmpty 1 (tlbiStallBody false) st
/-- TLBI.STALL, local (R333). -/
def execTlbiStallLocal (a : At) (st : State) : Answer :=
  runInstr a (instrLen a 2 [] 0) a.pfx.isEmpty 1 (tlbiStallBody true) st
/-- TLBI.ALL, global (R333). -/
def execTlbiAll (a : At) (st : State) : Answer :=
  runInstr a (instrLen a 2 [] 0) a.pfx.isEmpty 0 (fun e => performInval e false invalAll) st
/-- TLBI.ALL, local (R333). -/
def execTlbiAllLocal (a : At) (st : State) : Answer :=
  runInstr a (instrLen a 2 [] 0) a.pfx.isEmpty 0 (fun e => performInval e true invalAll) st
/-- TLBI.STALLN, global (R333). -/
def execTlbiStalln (a : At) (o : Opd) (st : State) : Answer :=
  runInstr a (instrLen a 2 [o] 0) (a.pfx.isEmpty && opdSrc o) 0 (tlbiStallnBody false o) st
/-- TLBI.STALLN, local (R333). -/
def execTlbiStallnLocal (a : At) (o : Opd) (st : State) : Answer :=
  runInstr a (instrLen a 2 [o] 0) (a.pfx.isEmpty && opdSrc o) 0 (tlbiStallnBody true o) st

/-- Remove the entries of a stall from both IOMMUs, for one page or all, with the walk-cache entries whose range contains it; 0x1FF names every
stall (R333). Each is counted (R341). -/
def ioInvalidate (stall : Nat) (page : Option Nat) (all : Bool) (s : State) : State :=
  let hit (e : IoEntry) : Bool := (all || decide (e.stall = stall)) && (match page with | some p => decide (e.page = p) | none => true)
  let rm (t : Tbl (List IoEntry)) : Tbl (List IoEntry) := t.map (fun x => (x.1, x.2.filter (fun e => !hit e)))
  let hitW (e : WalkEntry) : Bool := (all || decide (e.stall = stall)) &&
    (match page with | some p => decide (e.va = p * 16384 / 2 ^ (36 - 11 * e.level.val)) | none => true)
  odBump 0x5021 0x03 (odBump 0x5020 0x03 { s with vm := { s.vm with
    iommu := rm s.vm.iommu, ioWalk := s.vm.ioWalk.map (fun x => (x.1, x.2.filter (fun e => !hitW e))) } })

/-- IOTLBI and IOTLBI.VA: PL1 for the core's own stall, otherwise PL0 (R333). -/
def iotlbiBody (page : Option Nat) (v : Word) (anyOk : Bool) (e : Env) : CoreRun (BitVec 47) := do
  let n := natField v.toNat 0 9
  let cs := (← get).core e.c
  if e.pl ≠ 0 ∧ n ≠ cs.stall then raiseX { code := 2, eaddr := e.pc.toNat }
  fenceAll e
  change (fun s =>
    let s1 := ioInvalidate n page (anyOk && decide (n = 0x1FF)) s
    s1.setCore e.c { s1.core e.c with tlbiWait := true })
  return e.npc

/-- IOTLBI (R333). -/
def execIotlbi (a : At) (o : Opd) (st : State) : Answer :=
  runInstr a (instrLen a 2 [o] 0) (a.pfx.isEmpty && opdSrc o) 1 (fun e => do
    let v ← tlbiSrc e 0 o
    iotlbiBody none v true e) st
/-- IOTLBI.VA (R333). -/
def execIotlbiVa (a : At) (m o : Opd) (st : State) : Answer :=
  runInstr a (instrLen a 2 [m, o] 0) (a.pfx.isEmpty && opdMem m && opdSrc o) 1 (fun e => do
    let va ← formAddr e 0 m
    let v ← tlbiSrc e 1 o
    iotlbiBody (some (va / 16384)) v false e) st

/-- Perform every store that a core has translated and not yet written; none while a home is busy with a line of one (R334). -/
def performTranslated (s : State) : Option State := (s.cores.map (fun x => x.1)).foldlM (fun st k => drainStores k st) s

/-- TLBI_COMPLETE: every unit acknowledges once the accesses it has translated are performed, and then the core goes on; until then
the invalidation is outstanding (R334). -/
def execTlbiComplete (c : CoreId) (s : State) : Answer :=
  if (s.core c.val).tlbiWait then
    match performTranslated s with
    | some s1 => .next (s1.setCore c.val { s1.core c.val with tlbiWait := false })
    | none => .next s
  else .next s

/-! ## Block instructions -/

/-- The control byte of a block instruction (R230). -/
def ctlBytes (ctl : BitVec 8) : Nat := 2 ^ natField ctl.toNat 0 2
def ctlBack (ctl : BitVec 8) : Bool := ctl.getLsbD 2
def ctlRun (ctl : BitVec 8) : Nat := natField ctl.toNat 3 2
def ctlOk (ctl : BitVec 8) (any : Bool) : Bool := decide (ctl.toNat < 32) && (any || decide (ctlRun ctl < 2))

/-- The step of a block instruction (R230). -/
def ctlStep (ctl : BitVec 8) : Int := if ctlBack ctl then -(ctlBytes ctl : Int) else ctlBytes ctl

/-- Move a string register on by the step; it stays PTR (R231). -/
def stepReg (e : Env) (r : Nat) (d : Int) : CoreRun Unit :=
  changeArch e (fun a => a.setP r ⟨(a.pReg r).data + BitVec.ofInt 64 d, .ptr⟩)

/-- Form the access of a string register; a block move of 8 bytes is aligned (R208, R232). -/
def stringAcc (e : Env) (r n : Nat) (write aligned : Bool) : CoreRun Acc := do
  let va ← baseReg e r 3
  let acc ← formAcc e va n 3 { write := write }
  if aligned ∧ va % 8 ≠ 0 then raiseX { code := 3, eaddr := va, write := write, opnd := 3 }
  return acc

/-- One element of BCOPY (R230, R232). -/
def bcopyElem (ctl : BitVec 8) (e : Env) : CoreRun Unit := do
  let n := ctlBytes ctl
  let src ← stringAcc e 14 n false (decide (n = 8))
  let dst ← stringAcc e 15 n true (decide (n = 8))
  let y ← readPlace e 3 n false (.mem src)
  checkSrc y anyTag
  checkDst (.mem dst) 3 y.tag
  writePlace e n (.mem dst) y.val y.tag
  stepReg e 14 (ctlStep ctl)
  stepReg e 15 (ctlStep ctl)

/-- One element of BFILL (R230, R232). -/
def bfillElem (ctl : BitVec 8) (e : Env) : CoreRun Unit := do
  let n := ctlBytes ctl
  let dst ← stringAcc e 15 n true (decide (n = 8))
  let y ← readPlace e 3 n false (.x 1)
  if n ≠ 8 ∧ y.tag ≠ .int ∧ y.tag ≠ .float ∧ y.tag ≠ .bytes then raiseX (tagExc y.tag 3 0)
  checkDst (.mem dst) 3 y.tag
  writePlace e n (.mem dst) y.val y.tag
  stepReg e 15 (ctlStep ctl)

/-- The flags of a compare. -/
def setCompare (e : Env) (n : Nat) (x y : Src) : CoreRun Unit := do
  checkSrc x comparable
  checkSrc y comparable
  changeArch e (fun a => { a with sw := (subFlags (8 * n) x.val.toNat y.val.toNat false).flags.apply a.sw })

/-- One element of BCMP (R230). -/
def bcmpElem (ctl : BitVec 8) (e : Env) : CoreRun Unit := do
  let n := ctlBytes ctl
  let s1 ← stringAcc e 14 n false false
  let s2 ← stringAcc e 15 n false false
  let x ← readPlace e 3 n false (.mem s1)
  let y ← readPlace e 3 n false (.mem s2)
  setCompare e n x y
  stepReg e 14 (ctlStep ctl)
  stepReg e 15 (ctlStep ctl)

/-- One element of BFIND (R230). -/
def bfindElem (ctl : BitVec 8) (e : Env) : CoreRun Unit := do
  let n := ctlBytes ctl
  let s1 ← stringAcc e 15 n false false
  let x ← readPlace e 3 n false (.mem s1)
  let y ← readPlace e 3 n false (.x 1)
  setCompare e n x y
  stepReg e 15 (ctlStep ctl)

/-- The last two stores become one entry where they write one aligned 64-byte block (R235). -/
def mergeBlock (c : Nat) (s : State) : State :=
  let cs := s.core c
  match cs.storeBuf.reverse with
  | y :: x :: r =>
    if storeLines x = storeLines y ∧ (storeLines x).length = 1 then
      s.setCore c { cs with storeBuf := r.reverse ++ [{ x with writes := x.writes ++ y.writes }] }
    else s
  | _ => s

/-- The repetition of R231: `n` is X0; every element boundary is a resume point (R233). With `blocks` each aligned 64-byte block stored is one
store buffer entry (R235). -/
def blockLoop (run : Nat) (elem : Env → CoreRun Unit) (blocks : Bool) (e : Env) (n : Nat) (first : Bool) : CoreRun Unit := do
  match n with
  | 0 => return ()
  | n + 1 =>
    if !first then resumePoint e
    elem e
    if blocks ∧ !first then change (mergeBlock e.c)
    changeArch e (fun a => a.setX 0 ⟨BitVec.ofNat 64 n, (a.xReg 0).tag⟩)
    let z := flagZ (← getArch e).sw
    if (run = 2 ∧ !z) ∨ (run = 3 ∧ z) then return ()
    blockLoop run elem blocks e n false

/-- The body of a block instruction (R230, R231). -/
def blockBody (ctl : BitVec 8) (elem : BitVec 8 → Env → CoreRun Unit) (stores : Bool) (e : Env) : CoreRun (BitVec 47) := do
  if ctlRun ctl = 0 then elem ctl e
  else
    let t := (← getArch e).xReg 0
    if !isIntTag t.tag then raiseX (tagExc t.tag 3 0)
    blockLoop (ctlRun ctl) (elem ctl) (stores && decide (ctlBytes ctl = 8)) e t.data.toNat true
  return e.npc

/-- BCOPY (R230). -/
def execBcopy (a : At) (ctl : BitVec 8) (st : State) : Answer :=
  runInstr a (instrLen a 2 [] 1) (a.pfx.isEmpty && ctlOk ctl false) 2 (blockBody ctl bcopyElem true) st
/-- BFILL (R230). -/
def execBfill (a : At) (ctl : BitVec 8) (st : State) : Answer :=
  runInstr a (instrLen a 2 [] 1) (a.pfx.isEmpty && ctlOk ctl false) 2 (blockBody ctl bfillElem true) st
/-- BCMP (R230). -/
def execBcmp (a : At) (ctl : BitVec 8) (st : State) : Answer :=
  runInstr a (instrLen a 2 [] 1) (a.pfx.isEmpty && ctlOk ctl true) 2 (blockBody ctl bcmpElem false) st
/-- BFIND (R230). -/
def execBfind (a : At) (ctl : BitVec 8) (st : State) : Answer :=
  runInstr a (instrLen a 2 [] 1) (a.pfx.isEmpty && ctlOk ctl true) 2 (blockBody ctl bfindElem false) st

/-! ## Atomics -/

/-- What an atomic does to its word: the word after it, the old value as the operation sees it, and its flags. -/
structure AtomRes where
  new : TWord
  old : TWord
  flags : FlagSet := {}
deriving DecidableEq, Repr

/-- The old value of an atomic: the word, or the half of it that a .w form names (R237). -/
def atomOld (dbl : Bool) (off : Nat) (w : TWord) : TWord :=
  if dbl then w else ⟨BitVec.ofNat 64 (natField w.data.toNat (8 * off) 32), if w.tag = .bytes then .bytes else .int⟩

/-- The word after a value has been stored in it. -/
def atomStore (dbl : Bool) (off : Nat) (w v : TWord) : TWord :=
  if dbl then v
  else overlayWord w (BitVec.ofNat 8 (15 * 2 ^ off)) (v.data <<< (8 * off)) v.tag

/-- The operation on values, performed indivisibly (R236, R237). -/
def atomCompute (op : AtomOp) (dbl : Bool) (off : Nat) (w src cmp : TWord) : AtomRes :=
  let b := if dbl then 64 else 32
  let old := atomOld dbl off w
  let put (v : Nat) : TWord := atomStore dbl off w ⟨BitVec.ofNat 64 v, aluTag old.tag src.tag⟩
  let x := old.data.toNat
  let y := src.data.toNat % 2 ^ b
  match op with
  | .xadd => { new := put (addFlags b x y false).val, old := old, flags := (addFlags b x y false).flags }
  | .aadd => { new := put (addFlags b x y false).val, old := old }
  | .aand => { new := put (x &&& y), old := old }
  | .aor => { new := put (x ||| y), old := old }
  | .axor => { new := put (x ^^^ y), old := old }
  | .xchga => { new := atomStore dbl off w ⟨BitVec.ofNat 64 y, src.tag⟩, old := old }
  | .cas =>
    let eq := decide (x = cmp.data.toNat % 2 ^ b) && (!dbl || decide (old.tag = cmp.tag))
    { new := if eq then atomStore dbl off w ⟨BitVec.ofNat 64 y, src.tag⟩ else w, old := old, flags := { z := some eq } }

/-- Whether an atomic is of the integer class (R237). -/
def atomInt (op : AtomOp) : Bool := !(op == .xchga) && !(op == .cas)

/-- Whether an atomic accepts the tag of its memory word (R237): the first refusal is UNINIT, POISON or the type. -/
def atomMemOk (op : AtomOp) (dbl : Bool) (t : Tag) : Bool :=
  if !dbl then decide (t ≠ .uninit) && decide (t ≠ .poison)
  else if atomInt op then isIntTag t || (decide (t = .ptr) && (op == .xadd || op == .aadd))
  else true

/-- Whether an atomic accepts the tag of its source (R209, R237). -/
def atomSrcOk (op : AtomOp) (dbl : Bool) (t : Tag) : Bool :=
  if atomInt op then isIntTag t
  else if dbl then true
  else decide (t = .int) || decide (t = .float) || decide (t = .bytes)

/-- The index of a line in the contention predictor: PA[13:6] (R275). -/
def predictorIndex (line : Nat) : Nat := line % 256

/-- The placement of an unprefixed atomic and the predictor's training (R275). -/
def predictAtomic (line : Nat) (tile : Option Nat) (s : State) : Bool × State :=
  let h := homeSlice s (line / 4)
  let sl := s.slice h
  let n := Tbl.get sl.predictor (predictorIndex line) 0
  let other := match dirEntry s line with
    | some d => (allHolders d).any (fun t => decide (some t ≠ tile))
    | none => false
  let n' : BitVec 2 := if other then (if n = 3 then 3 else n + 1) else (if n = 0 then 0 else n - 1)
  (decide (2 ≤ n.toNat), s.setSlice h { sl with predictor := sl.predictor.set (predictorIndex line) n' })

/-- Replace one word of a line. -/
def putWord (w : Nat) (v : TWord) (ws : List TWord) : List TWord :=
  (List.range 8).map (fun i => if i = w % 8 then v else ws.getD i ⟨0, .uninit⟩)

/-- Bring the word of an atomic to where it is performed: FAR, to the home after the recall, with the checked fill of a miss; NEAR, to the
tile's L2 in M and the core's L1D (R45, R238, R268). -/
def atomFetch (far : Bool) (c : Nat) (a : Attr) (line : Nat) (s : State) : State :=
  if far then fillHome a line (recallLine a line (lookup line s))
  else
    let s1 := acquireOwned a (coreTile s c) line s
    s1.setCore c { s1.core c with l1d := l1Insert (s1.core c).l1d line s1.free }

/-- Perform the write of an atomic NEAR, in the tile's copy, or FAR, at the home (R238). -/
def atomWrite (far : Bool) (a : Attr) (tile w : Nat) (v : TWord) (s : State) : State :=
  if far then writeAtHome a (w / 8) (putWord w v) s
  else
    let s1 := acquireOwned a tile (w / 8) s
    { s1 with coh := { s1.coh with lines := s1.coh.lines.set (w / 8) (putWord w v (readLine s1 (w / 8))) } }

/-- The legality of an atomic's operands and prefixes (R200, R236, R237). -/
def atomLegal (a : At) (op : AtomOp) (m s : Opd) : Bool :=
  let posted := atomInt op && !(op == .xadd)
  decide (a.pfx = [] ∨ a.pfx = [.near] ∨ a.pfx = [.far]) && opdMem m &&
    (match s with
     | .p _ => true
     | .x _ => opdOk s
     | .imm4 _ | .imm _ _ => posted
     | _ => false)

/-- The body of an atomic instruction (R236–R239). -/
def atomBody (op : AtomOp) (dbl : Bool) (a : At) (m o : Opd) (e : Env) : CoreRun (BitVec 47) := do
  let n := if dbl then 8 else 4
  let va ← formAddr e 0 m
  let x ← xlat e.c va { write := true, special := true } (fun f => xlatExc f va 0 true false false false)
  if va % n ≠ 0 then raiseX { code := 3, eaddr := va, write := true }
  let ps ← formOpd e 1 n {} o
  fenceAll e
  let line := x.pa / 64
  waitLines e [line]
  let y ← readPlace e 1 n false ps
  let s ← get
  let tile := coreTile s e.c
  let walk := (s.core e.c).walk
  let far ← if a.pfx = [.near] then pure walk
            else if a.pfx = [.far] ∨ walk then pure true
            else do
              let p := predictAtomic line (some tile) s
              set p.2
              pure p.1
  change (fun s => atomFetch far e.c (coreAttr (s.core e.c) x) line s)
  let w := readWord (← get) (x.pa / 8)
  let cmp := (← getArch e).xReg 1
  if !atomMemOk op dbl w.tag then raiseX (tagExc w.tag 0 (8 * (va / 8)))
  checkSrc y (atomSrcOk op dbl)
  if op = .cas ∧ !dbl ∧ !comparable cmp.tag then raiseX (tagExc cmp.tag 3 0)
  let r := atomCompute op dbl (va % 8) w ⟨y.val, y.tag⟩ cmp
  change (fun s => atomWrite far (coreAttr (s.core e.c) x) tile (x.pa / 8) r.new s)
  changeArch e (fun a => { a with sw := r.flags.apply a.sw })
  if op = .xadd ∨ op = .xchga then writePlace e n ps r.old.data r.old.tag
  if op = .cas then changeArch e (·.setX 1 r.old)
  return e.npc

/-- An atomic instruction of page 4. -/
def atomInstr (op : AtomOp) (a : At) (dbl : Bool) (m o : Opd) (st : State) : Answer :=
  runInstr a (instrLen a 2 [m, o] 0) (atomLegal a op m o) 2 (atomBody op dbl a m o) st

/-- XADD (R236). -/
def execXadd (a : At) (dbl : Bool) (m o : Opd) (st : State) : Answer := atomInstr .xadd a dbl m o st
/-- XCHGA (R236). -/
def execXchga (a : At) (dbl : Bool) (m o : Opd) (st : State) : Answer := atomInstr .xchga a dbl m o st
/-- CAS (R236). -/
def execCas (a : At) (dbl : Bool) (m o : Opd) (st : State) : Answer := atomInstr .cas a dbl m o st
/-- AADD (R236). -/
def execAadd (a : At) (dbl : Bool) (m o : Opd) (st : State) : Answer := atomInstr .aadd a dbl m o st
/-- AAND (R236). -/
def execAand (a : At) (dbl : Bool) (m o : Opd) (st : State) : Answer := atomInstr .aand a dbl m o st
/-- AOR (R236). -/
def execAor (a : At) (dbl : Bool) (m o : Opd) (st : State) : Answer := atomInstr .aor a dbl m o st
/-- AXOR (R236). -/
def execAxor (a : At) (dbl : Bool) (m o : Opd) (st : State) : Answer := atomInstr .axor a dbl m o st

end Sys2Proof.Machine
end

