-- ==== Sys2Proof/Machine/Coherence.lean ====
section
/-! DEFINITION. The home slices and the packets between tiles and homes, one at a time (R265–R287), the store buffer's writes and the
prefetchers (R180, R186). Core and DMA accesses perform the same transactions at one moment (CohOps). -/

namespace Sys2Proof.Machine

/-! ## Requests -/

/-- The line of a physical address. -/
def lineOf (pa : BitVec 52) : Nat := pa.toNat / 64

/-- The sector of a physical address. -/
def secOf (pa : BitVec 52) : Nat := pa.toNat / 256

/-- What a request packet brings beside its operation (R264). -/
def reqAttr (r : Req) : Attr :=
  { stall := r.stall.val, agent := agentOfStop r.src.toNat, sealPage := checkedReq r, strict := r.strict }

/-- The lines of a sector that a sub-block mask names. -/
def subLines (sec : Nat) (subs : BitVec 4) : List Nat := ((List.range 4).filter (fun k => subs.getLsbD k)).map (fun k => 4 * sec + k)

/-- The lines a request concerns (R264); an engine's read, which is answered with the sector's seal, all four (R46, R268). -/
def opLines (r : Req) (op : HomeOp) : List Nat :=
  let sec := secOf r.pa
  match op with
  | .wrUc k _ _ _ => [4 * sec + k.val]
  | .dmaWr k _ _ _ => [4 * sec + k.val]
  | .dmaRd subs => subLines sec (if agentOfStop r.src.toNat = 1 then 15 else subs)
  | .spanWr _ _ _ => [4 * sec, 4 * sec + 1, 4 * sec + 2, 4 * sec + 3]
  | .zero => [4 * sec, 4 * sec + 1, 4 * sec + 2, 4 * sec + 3]
  | .clear => [4 * sec, 4 * sec + 1, 4 * sec + 2, 4 * sec + 3]
  | _ => [lineOf r.pa]

/-- Wake a slice in retention: the request waits in its queue meanwhile (R273). -/
def wakeSlice (h : Nat) (s : State) : State :=
  if hh : h < 136 then
    let d := Domain.slice ⟨h, hh⟩
    wakeDom d s
  else s

/-- Whether a slice's domain is up. -/
def sliceUp (s : State) (h : Nat) : Bool :=
  if hh : h < 136 then decide (domState s (.slice ⟨h, hh⟩) = .up) else false

/-- Whether a packet answers a request of a stop at a home, so that its credit is still on the way back (R153). -/
def returnsCredit (s : State) (h src : Nat) (p : Pkt) : Bool :=
  decide (p.stop = src) && decide (homeSlice s (p.line / 4) = h) &&
    (match p.kind with | .gnt _ _ _ | .retry | .wbPull | .evictAck | .done => true | _ => false)

/-- The credits of a home that a source has in use: one for each request in the queue, in a transaction or answered and not yet told (R153). -/
def creditsUsed (s : State) (h src : Nat) : Nat :=
  let sl := s.slice h
  (sl.queue.filter (fun q => decide (q.req.src.toNat = src))).length +
  (sl.busy.filter (fun x => decide (x.hr.req.src.toNat = src))).length +
  (s.coh.net.filter (returnsCredit s h src)).length

/-- Whether a source may send a home a request: one of its two credits is free (R153). -/
def hasReqCredit (s : State) (h src : Nat) : Bool := decide (creditsUsed s h src < 2)

/-- The place of a source in the rotating priority of a home: the first source after the last winner ranks highest (R269). -/
def homeTurn (last : BitVec 8) (r : Req) : Nat := (r.src.toNat + 256 - last.toNat - 1) % 256

/-- The order in which requests of one source are injected in one cycle (R284): loads, then stores, then prefetches. -/
def injectRank (q : HomeReq) : Nat :=
  if q.req.traffic = .bulk then 2 else match q.op with | .rdShr | .rdNi | .rdUc => 0 | _ => 1

/-- Whether a request that comes in the same cycle as another is ordered before it (R269, R284). -/
def tieBefore (last : BitVec 8) (a b : HomeReq) : Bool :=
  if a.req.src = b.req.src then decide (injectRank a < injectRank b) else decide (homeTurn last a.req < homeTurn last b.req)

/-- A request's place among those of its cycle. -/
def insertTie (last : BitVec 8) (q : HomeReq) (l : List HomeReq) : List HomeReq :=
  match l with
  | [] => [q]
  | x :: r => if tieBefore last q x then q :: x :: r else x :: insertTie last q r

/-- The requests of a queue before the last cycle with an arrival, and those of that cycle. -/
def lastCycle (l : List HomeReq) : List HomeReq × List HomeReq :=
  let late := (l.reverse.takeWhile (fun x => x.tie)).length + 1
  (l.take (l.length - late), l.drop (l.length - late))

/-- A cycle's requests with their marks: the first opens it. -/
def markTies (l : List HomeReq) : List HomeReq :=
  match l with
  | [] => []
  | x :: r => { x with tie := false } :: r.map (fun y => { y with tie := true })

/-- A request enters the queue of a home slice, which wakes for it (R262, R269, R273); one of the same ring cycle as the one before takes its
place by the rotating priority, whose last winner is the first of a cycle with more than one (log entry 175). -/
def enterQueue (h : Nat) (q : HomeReq) (s : State) : State :=
  let sl := s.slice h
  if q.req.tie ∧ !sl.queue.isEmpty then
    let parts := lastCycle sl.queue
    let l := markTies (insertTie sl.pointer q parts.2)
    wakeSlice h (s.setSlice h { sl with queue := parts.1 ++ l, winner := l.head?.map (fun x => x.req.src) })
  else
    wakeSlice h (s.setSlice h { sl with queue := sl.queue ++ [{ q with tie := false }], pointer := sl.winner.getD sl.pointer, winner := none })

/-- The home of a waiting request. -/
def reqHome (s : State) (q : HomeReq) : Nat := homeSlice s (secOf q.req.pa)

/-- A request goes to its home slice, or waits at its source for a credit, behind the earlier ones of its source for that home (R152,
R153, R262). -/
def enqueueReq (r : Req) (op : HomeOp) (s : State) : State :=
  let h := homeSlice s (secOf r.pa)
  if hasReqCredit s h r.src.toNat && !s.coh.waiting.any (fun q => decide (q.req.src = r.src) && decide (reqHome s q = h)) then
    enterQueue h { req := r, op := op } s
  else
    let q : HomeReq := { req := r, op := op, tie := r.tie }
    let parts := lastCycle s.coh.waiting
    if r.tie ∧ !s.coh.waiting.isEmpty then
      { s with coh := { s.coh with waiting := parts.1 ++ markTies (insertTie (s.slice h).pointer q parts.2) } }
    else { s with coh := { s.coh with waiting := s.coh.waiting ++ [{ q with tie := false }] } }

/-- The waiting request that a home admits next: the oldest of the first source after the last one admitted, among those with a credit
(R153, R269). -/
def nextWaiting (s : State) (h : Nat) : Option HomeReq :=
  let turn (q : HomeReq) : Nat := homeTurn (s.slice h).pointer q.req
  match s.coh.waiting.filter (fun q => decide (reqHome s q = h) && hasReqCredit s h q.req.src.toNat) with
  | [] => none
  | q :: r => some (r.foldl (fun a b => if turn b < turn a then b else a) q)

/-- A home admits waiting requests, at most `n` (R153, R269). -/
def admitReqs (n h : Nat) (s : State) : State :=
  match n with
  | 0 => s
  | n + 1 =>
    match nextWaiting s h with
    | none => s
    | some q =>
      let s1 := enterQueue h { q with req := { q.req with tie := false } } { s with coh := { s.coh with waiting := s.coh.waiting.erase q } }
      admitReqs n h (s1.setSlice h { s1.slice h with pointer := q.req.src })

/-- A tile notes its outstanding request (R266, R271). -/
def noteMiss (r : Req) (op : Nat) (s : State) (atom : Option AtomWait := none) : State :=
  match stopTile r.src.toNat with
  | none => s
  | some t => let x := s.tile t
              s.setTile t { x with misses := x.misses ++ [{ line := lineOf r.pa, op := op, atom := atom, l1 := decide (r.traffic ≠ .bulk) }] }

/-- Whether a tile can send one more request: an L2 has 48 outstanding misses, an L1D 24 of them (R167; log entry 179). -/
def missRoom (r : Req) (s : State) : Bool :=
  match stopTile r.src.toNat with
  | none => true
  | some t =>
    let l := (s.tile t).misses
    decide (l.length < 48) && (decide (r.traffic = .bulk) || decide ((l.filter (fun m => m.l1)).length < 24))

/-- Whether a core may send a non-installing read (R187): it runs in blinker mode, and a speculative fill buffer entry is free. -/
def specRoom (r : Req) (s : State) : Bool :=
  match stopTile r.src.toNat with
  | none => true
  | some t => match tileCore s t with
    | none => true
    | some c => (s.core c).modeNow.getLsbD 0 &&
        decide ((s.core c).specFill.length + ((s.tile t).misses.filter (fun m => decide (m.op = 4))).length < 16)

/-- A maintenance request marks the issuing tile's outstanding misses for its line not-to-install (R282). -/
def markNoInstall (r : Req) (s : State) : State :=
  match stopTile r.src.toNat with
  | none => s
  | some t => markMisses t (lineOf r.pa) s

/-- An L2 line goes to the tile's write-back buffer, where it waits for the home (R266, R272). -/
def toWriteBack (t line : Nat) (txn : BitVec 16) (s : State) : State :=
  match l2State s t line with
  | none => s
  | some st =>
    let s0 := (flushFrame t line s).getD s
    let dirty := match l2State s0 t line with | some y => decide (y = .m ∨ y = .o) | none => decide (st = .m ∨ st = .o)
    let s1 := dropL1 t line (dropL2 t line s0)
    let x := s1.tile t
    s1.setTile t { x with wb := x.wb ++ [{ line := line, txn := txn, dirty := dirty }] }

/-- Whether the write-back buffer of a tile holds a line dirty. -/
def wbDirty (s : State) (t line : Nat) : Bool := (s.tile t).wb.any (fun e => decide (e.line = line) && e.dirty)

/-! ## Packets in flight -/

/-- Send a packet. -/
def sendPkt (p : Pkt) (s : State) : State := { s with coh := { s.coh with net := s.coh.net ++ [p] } }

/-- Take the first packet that satisfies `f` out of a list. -/
def takeFirst {α : Type} (f : α → Bool) (l : List α) : Option (α × List α) :=
  match l with
  | [] => none
  | x :: r => if f x then some (x, r) else (takeFirst f r).map (fun y => (y.1, x :: y.2))

/-- Take the oldest packet of a stop and a line whose kind satisfies `f`. -/
def takePkt (stop line : Nat) (f : PktKind → Bool) (s : State) : Option (Pkt × State) :=
  (takeFirst (fun p => decide (p.stop = stop) && decide (p.line = line) && f p.kind) s.coh.net).map
    (fun x => (x.1, { s with coh := { s.coh with net := x.2 } }))

/-- The data a stop receives for one use. -/
def deliverData (stop : Nat) (ws : List TWord) (s : State) : State :=
  { s with coh := { s.coh with ucData := s.coh.ucData.set stop ws } }

/-! ## Transactions at a home -/

/-- Whether some tile or packet holds a line newer than its home (R266). -/
def heldAbove (s : State) (line : Nat) : Bool := s.coh.lines.any (fun x => decide (x.1 = line))

/-- Whether the home serves a line from no LLC copy of its own: it was left unallocated (R277). -/
def unallocated (s : State) (line : Nat) : Bool :=
  !heldAbove s line && (match llcSector s (line / 4) with | some x => !x.valid.getLsbD (line % 4) | none => true)

/-- Answer a request with GNT (R268): NOALLOC where the data it carries is not allocated in the LLC, DIRTY where it is newer than the LLC's copy
(R264, R277). -/
def sendGnt (r : Req) (line : Nat) (st : BitVec 2) (data : Bool) (ws : List TWord) (sl : Option Word) (s : State) : State :=
  sendPkt { stop := r.src.toNat, line := line, kind := .gnt st data sl, data := ws, ref := some r,
            noAlloc := data && unallocated s line, dirty := data && heldAbove s line } s

/-- Answer a request with DONE. -/
def sendDone (r : Req) (ws : List TWord) (s : State) : State :=
  sendPkt { stop := r.src.toNat, line := lineOf r.pa, kind := .done, data := ws, ref := some r } s

/-- Whether an operation needs the line's data from the home (R268). -/
def wantsData (op : HomeOp) : Bool :=
  match op with
  | .rdShr | .rdOwn | .rdNi | .rdUc | .dmaRd _ | .atomic _ _ _ _ _ => true
  | _ => false

/-- Whether the home must read memory for a line: no valid copy in the LLC, and none held dirty above it (R263, R268). -/
def llcMisses (s : State) (line : Nat) : Bool := unallocated s line

/-- The snoops with which the home serves a request for one line (R267, R268, R279): their kind and their tiles. `t` is the
requesting tile. -/
def snoopsFor (op : HomeOp) (t : Option Nat) (d : Option DirEntry) : Option (Snoop × List Nat) :=
  match d with
  | none => none
  | some d =>
    let own := match d.owner with | some o => [o] | none => []
    let others := (allHolders d).filter (fun x => decide (some x ≠ t))
    match op with
    | .rdShr => if d.state = .sh then none else some (.shr, own.filter (fun x => decide (some x ≠ t)))
    | .rdOwn | .upgrade => some (.inv, others)
    | .rdNi => none
    | .rdUc | .dmaRd _ | .mClean => if d.state = .sh then none else some (.clean, own)
    | .evict _ => none
    | .wrUc _ _ _ _ | .dmaWr _ _ _ _ | .spanWr _ _ _ | .zero | .clear | .mCleaninv | .mDiscard | .atomic _ _ _ _ _ =>
      some (.inv, allHolders d)

/-- Whether an UPGRADE finds its requester listed (R268). -/
def upgradeListed (d : Option DirEntry) (t : Option Nat) : Bool :=
  match d, t with
  | some d, some t => (decide (d.state = .sh) || decide (d.state = .os)) && (allHolders d).contains t
  | _, _ => false

/-- Whether M_DISCARD leaves every copy as found (R281): a locked way that another stall owns holds the line dirty. -/
def discardSkips (s : State) (a : Attr) (line : Nat) : Bool :=
  match sectorLock s (line / 4) with
  | some o => lineDirty s line && decide (o ≠ a.stall) && decide (a.stall ≠ 0)
  | none => false

/-- The directory entry without a tile that holds the line no longer. -/
def entryWithout (d : DirEntry) (t : Nat) : DirEntry :=
  { d with owner := if d.owner = some t then none else d.owner, sharers := removeHolder d.sharers t }

/-- Put an entry back; one without holders goes, one without an owner is SH. -/
def putEntry (line : Nat) (d : DirEntry) (s : State) : State :=
  if d.owner = none ∧ (holderTiles d.sharers).isEmpty then clearDir line s
  else setDir line { d with state := if d.owner = none then .sh else d.state } s

/-- RD_SHR when its snoops are answered (R268). A dirty answer from a write-back buffer, which leaves no owner, goes to the LLC. -/
def finishShr (a : Attr) (r : Req) (t : Nat) (x : Txn) (line : Nat) (s : State) : State :=
  let data := readLine s line
  match x.found with
  | none =>
    sendGnt r line 1 true data none (setDir line { state := .ex, owner := some t, sharers := .exact [] } (dirReplace a line s))
  | some f =>
    match dirEntry s line with
    | none =>
      sendGnt r line 0 true data none (setDir line { state := .sh, owner := none, sharers := .exact [t] } (dirReplace a line s))
    | some d =>
      if d.owner = some t then sendGnt r line (if d.state = .ex then 1 else 0) true data none s
      else if f = .sh then sendGnt r line 0 true data none (setDir line { d with sharers := addHolder d.sharers t } s)
      else
        let left := match d.owner with | some o => x.gone.contains (o, line) | none => true
        if x.dirty ∧ !left then
          sendGnt r line 0 true data none (setDir line { d with state := .os, sharers := addHolder d.sharers t } s)
        else
          let own := match d.owner with | some o => if left then [] else [o] | none => []
          let s1 := settleLine a line s
          sendGnt r line 0 true data none
            (setDir line { state := .sh, owner := none, sharers := addHolder (own.foldl addHolder d.sharers) t } s1)

/-- RD_OWN or UPGRADE when every other copy is gone (R268). -/
def finishOwn (a : Attr) (r : Req) (t : Nat) (data : Bool) (line : Nat) (s : State) : State :=
  let s1 := if (dirEntry s line).isNone then dirReplace a line s else s
  sendGnt r line 2 data (if data then readLine s line else []) none
    (setDir line { state := .ex, owner := some t, sharers := .exact [] } s1)

/-- The home's copy is current and the owner's clean (R268: RD_UC, DMA_RD). -/
def finishClean (a : Attr) (x : Txn) (line : Nat) (s : State) : State :=
  let s1 := settleLine a line s
  match dirEntry s1 line with
  | none => s1
  | some d =>
    match d.owner with
    | none => s1
    | some o =>
      if x.gone.contains (o, line) then putEntry line (entryWithout d o) s1
      else if d.state = .os then
        setDir line { state := .sh, owner := none, sharers := addHolder d.sharers o } s1
      else s1

/-- The home holds the only copy: dirty data merged, the entry U (R268). -/
def finishRecall (a : Attr) (lines : List Nat) (s : State) : State :=
  lines.foldl (fun st l => clearDir l (settleLine a l st)) s

/-- Whether an atomic request's tags let it be performed (R209, R236, R237): the memory word's, the source's and the comparison value's. -/
def atomTagsOk (op : AtomOp) (dbl : Bool) (w v cmp : TWord) : Bool :=
  atomMemOk op dbl w.tag && atomSrcOk op dbl v.tag && (!(decide (op = .cas) && !dbl) || comparable cmp.tag)

/-- An atomic at the home (R238, R275): the old value it returns and the state after it. Where a tag causes a fault nothing is written (R237);
the core finds the tag in the answer. -/
def atomicAtHome (a : Attr) (pa : Nat) (op : AtomOp) (dbl : Bool) (v cmp : TWord) (s : State) : TWord × State :=
  let w := pa / 8
  let old := readWord s w
  if !atomTagsOk op dbl old v cmp then (old, s)
  else
    let r := atomCompute op dbl (pa % 8) old v cmp
    (r.old, writeAtHome a (w / 8) (putWord w r.new) s)

/-- An atomic that its home has placed NEAR, in the tile's copy in M: its old value goes to the core (R237, R275). -/
def atomicAtTile (stop : Nat) (x : AtomWait) (s : State) : State :=
  let w := x.pa.toNat / 8
  let old := readWord s w
  if !atomTagsOk x.op x.dbl old x.v x.cmp then deliverData stop [old] s
  else
    let r := atomCompute x.op x.dbl (x.pa.toNat % 8) old x.v x.cmp
    deliverData stop [r.old] { s with coh := { s.coh with lines := s.coh.lines.set (w / 8) (putWord w r.new (readLine s (w / 8))) } }

/-- An EVICT at the home (R268, R272): dropped where a snoop answer took its data, WB_PULL for a dirty line, EVICT_ACK otherwise. -/
def finishEvict (r : Req) (dirty : Bool) (line : Nat) (s : State) : State :=
  let h := homeSlice s (line / 4)
  let sl := s.slice h
  let ackNow (st : State) : State := sendPkt { stop := r.src.toNat, line := line, kind := .evictAck, ref := some r } st
  if sl.dropped.contains (r.src, r.txn) then ackNow (s.setSlice h { sl with dropped := sl.dropped.erase (r.src, r.txn) })
  else
    match dirEntry s line, stopTile r.src.toNat with
    | some d, some t =>
      if dirty ∧ d.owner = some t then
        sendPkt { stop := r.src.toNat, line := line, kind := .wbPull, ref := some r } (setDir line { d with state := .wbPend } s)
      else ackNow (putEntry line (entryWithout d t) s)
    | _, _ => ackNow s

/-- Words as a DMA read receives them: an UNINIT word is eight zero bytes (R32). -/
def dmaWords (ws : List TWord) : List TWord := ws.map (fun t => if t.tag = .uninit then ⟨0, .uninit⟩ else t)

/-- Complete a transaction whose snoops, write-back and fill have arrived (R268, R274–R283). A read of a whole span, and every engine's read,
is answered with the sector's seal (R46). DONE of a SPAN_WR that was written poisoned carries one word, which informs the engine (R50; log
entry 135). -/
def finishTxn (x : Txn) (s : State) : State :=
  let r := x.hr.req
  let a := reqAttr r
  let line := x.lines.headD (lineOf r.pa)
  let t := (stopTile r.src.toNat).getD 0
  match x.hr.op with
  | .rdShr => finishShr a r t x line s
  | .rdOwn => finishOwn a r t true line s
  | .upgrade => finishOwn a r t (!upgradeListed (dirEntry s line) (some t)) line s
  | .rdNi =>
    (match x.found with
     | some .ex | some .os | some .wbPend => sendPkt { stop := r.src.toNat, line := line, kind := .retry, ref := some r } s
     | _ => sendGnt r line 3 true (readLine s line) none s)
  | .rdUc => let s1 := finishClean a x line s
             sendGnt r line 3 true (readLine s1 line) none s1
  | .dmaRd subs =>
    let s1 := x.lines.foldl (fun st l => finishClean a x l st) s
    let own := subLines (secOf r.pa) subs
    sendPkt { stop := r.src.toNat, line := lineOf r.pa, subs := subs, ref := some r, data := dmaWords (own.flatMap (readLine s1)),
              noAlloc := own.any (unallocated s1),
              kind := .gnt 3 true (if subs = 15 ∨ a.agent = 1 then some (spanSeal s1 (secOf r.pa)) else none) } s1
  | .wrUc k m d tg => sendDone r [] (homeWrite a (4 * secOf r.pa + k.val)
      (overlayLine (readLine s (4 * secOf r.pa + k.val)) m d tg) (finishRecall a x.lines s))
  | .dmaWr k m d tg => sendDone r [] (homeWrite a (4 * secOf r.pa + k.val)
      (overlayLine (readLine s (4 * secOf r.pa + k.val)) m d tg) (finishRecall a x.lines s))
  | .spanWr d tg sl =>
    let ws := (List.range 32).map (fun i => TWord.mk (d.getD i 0) (tg.getD i .bytes))
    let w := spanWrite a (secOf r.pa) ws sl 0 (finishRecall a x.lines s)
    sendDone r (if w.1 then [] else [⟨1, .int⟩]) w.2
  | .zero => sendDone r [] (spanZero a (secOf r.pa) .int (finishRecall a x.lines s))
  | .clear => sendDone r [] (spanZero a (secOf r.pa) .uninit (finishRecall a x.lines s))
  | .mClean => sendDone r [] (maintainLine .clean a true line (finishClean a x line s))
  | .mCleaninv => sendDone r [] (maintainLine .cleanInv a true line s)
  | .mDiscard => sendDone r [] (maintainLine .discard a true line s)
  | .atomic _ op dbl v cmp =>
    if x.near then finishOwn a r t true line s
    else
      let q := atomicAtHome a r.pa.toNat op dbl v cmp (finishRecall a x.lines s)
      sendDone r [q.1] q.2
  | .evict dirty => finishEvict r dirty line s

/-- A packet's read that the LLC serves makes the sector the one used last (R260); RD_NI changes no replacement state (R274). -/
def touchServed (op : HomeOp) (lines : List Nat) (s : State) : State :=
  match op with
  | .rdShr | .rdOwn | .upgrade | .rdUc | .dmaRd _ => lines.foldl (fun st l => if heldAbove st l then st else touchSector (l / 4) st) s
  | _ => s

/-- Whether a transaction has every answer it waits for. -/
def txnReady (x : Txn) : Bool := x.snoops.isEmpty && x.wbLines.isEmpty && !x.needFill

/-- Whether a transaction that makes a directory entry waits since its full set holds busy entries alone (R284). -/
def entryWaits (x : Txn) (s : State) : Bool :=
  let line := x.lines.headD 0
  let makes := match x.hr.op with
    | .rdShr | .rdOwn | .upgrade => true
    | .atomic _ _ _ _ _ => x.near
    | _ => false
  makes && (dirEntry s line).isNone && (dirPick s x.hr.req.stall.val line).isNone

/-- Go on with a transaction (R269): wait for answers; ask memory where the data is in no cache; otherwise complete it, and the lines
are busy no longer. -/
def advanceTxn (h : Nat) (x : Txn) (s : State) : State :=
  let put (y : Txn) (st : State) : State :=
    let sl := st.slice h
    st.setSlice h { sl with busy := sl.busy ++ [y] }
  if !txnReady x then put x s
  else
    let refuse := match x.hr.op, x.found with
      | .rdNi, some .ex | .rdNi, some .os | .rdNi, some .wbPend => true
      | _, _ => false
    let upMiss := match x.hr.op with
      | .upgrade => !upgradeListed (dirEntry s (x.lines.headD 0)) (stopTile x.hr.req.src.toNat)
      | _ => false
    if (wantsData x.hr.op || upMiss) && !refuse && !x.filled && x.lines.any (llcMisses s) then
      put { x with needFill := true } (countUncore (0x080 + h) 0x002 1 s)
    else if entryWaits x s then put x s
    else finishTxn x (touchServed x.hr.op x.lines s)

/-- Change the transaction that holds a line busy and go on with it. -/
def updateTxn (line : Nat) (f : Txn → Txn) (s : State) : State :=
  let h := homeSlice s (line / 4)
  let sl := s.slice h
  match takeFirst (fun x => x.lines.contains line) sl.busy with
  | none => s
  | some (x, rest) => advanceTxn h (f x) (s.setSlice h { sl with busy := rest })

/-- The packet of a snoop. -/
def snoopKind (k : Snoop) : PktKind := match k with | .shr => .snpShr | .inv => .snpInv | .clean => .snpClean

/-- Send a snoop under a transaction number of the home's own (R147). -/
def sendSnoop (h : Nat) (r : Req) (k : Snoop) (t line : Nat) (s : State) : State :=
  let sl := s.slice h
  sendPkt { stop := tileStop t, line := line, kind := snoopKind k, ref := some r, txn := sl.nextTxn }
    (s.setSlice h { sl with nextTxn := sl.nextTxn + 1 })

/-- Start a request's processing (R268–R270, R275): the predictor places an ATOMIC_ANY once, and the snoops are sent, one to each tile of a
group (R267). -/
def startTxn (h : Nat) (q : HomeReq) (s : State) : State :=
  let lines := opLines q.req q.op
  let t := stopTile q.req.src.toNat
  let skip := decide (q.op = .mDiscard) && discardSkips s (reqAttr q.req) (lines.headD 0)
  let p := match q.op with
    | .atomic true _ _ _ _ => predictAtomic (lines.headD 0) t s
    | _ => (true, s)
  let s := p.2
  let op' := if p.1 then q.op else .rdOwn
  let per (l : Nat) : List (Snoop × Nat × Nat) :=
    match snoopsFor op' t (dirEntry s l) with
    | some (k, ts) => if skip then [] else ts.map (fun x => (k, x, l))
    | none => []
  let all := lines.flatMap per
  let st0 := (dirEntry s (lines.headD 0)).map (·.state)
  let pend := if q.op = .rdNi then [] else lines.filter (fun l => decide ((dirEntry s l).map (·.state) = some .wbPend))
  let x : Txn := { hr := q, lines := lines, found := st0, near := !p.1, snoops := all.map (fun y => (y.2.1, y.2.2)), wbLines := pend }
  let s1 := all.foldl (fun st y => sendSnoop h q.req y.1 y.2.1 y.2.2 st) s
  advanceTxn h x (countUncore (0x080 + h) 0x003 all.length (countUncore (0x080 + h) 0x001 1 s1))

/-- Whether a request needs a directory entry that its full set cannot give now (R284). -/
def dirWaits (s : State) (q : HomeReq) (line : Nat) : Bool :=
  match q.op with
  | .rdShr | .rdOwn | .upgrade =>
    (dirEntry s line).isNone && (dirPick s q.req.stall.val line).isNone
  | _ => false

/-- Whether a request waits in the strict queue of a home: the STRICT request of a stall that is STRICT_ACTIVE (R359). -/
def inStrict (s : State) (q : HomeReq) : Bool := q.req.strict && (s.stall q.req.stall.val).strictActive

/-- The STRICT_ACTIVE stall that a ring cycle is reserved for, by the cycle's number modulo 32 (R359). -/
def strictTurn (s : State) (cycle : Nat) : Option Nat :=
  (s.stalls.find? (fun x => x.2.strictActive && x.2.ringNow.getLsbD (cycle % 32))).map (fun x => x.1)

/-- The requests that a lookup in a ring cycle may start (R359): in a reserved cycle the oldest of its stall's strict queue alone, in any
other those that wait in no strict queue. -/
def mayLookUp (s : State) (cycle : Nat) (l : List HomeReq) (q : HomeReq) : Bool :=
  match strictTurn s cycle with
  | some n => decide (l.find? (fun x => inStrict s x && decide (x.req.stall.val = n)) = some q)
  | none => !inStrict s q

/-- The first request that may start and whose lines are not busy; a later request for a waiting request's line waits behind it (R269). -/
def pickReq (s : State) (may : HomeReq → Bool) (blocked : List Nat) (l : List HomeReq) : Option (HomeReq × List HomeReq) :=
  match l with
  | [] => none
  | q :: r =>
    let lines := opLines q.req q.op
    if !may q || lines.any (fun x => blocked.contains x || txnBusy s x || dirWaits s q x) then
      (pickReq s may (lines ++ blocked) r).map (fun y => (y.1, q :: y.2))
    else some (q, r)

/-- The lookup of a slice in a ring cycle (R269, R359). -/
def homeLookup (h cycle : Nat) (s : State) : State :=
  if sliceUp s h then
    let sl := s.slice h
    match pickReq s (mayLookUp s cycle sl.queue) [] sl.queue with
    | none => s
    | some (q, rest) => startTxn h q (s.setSlice h { sl with queue := rest })
  else s

/-- A transaction that waits for nothing but a directory entry goes on where one is no longer busy, before a new lookup (R269, R284). -/
def retryEntry (h : Nat) (s : State) : State :=
  match (s.slice h).busy.find? txnReady with
  | some x => updateTxn (x.lines.headD 0) (fun y => y) s
  | none => s

/-- HOME_LOOKUP (R269): a completing transaction goes first, and requests whose credits have returned enter the queue (R153, R166). -/
def execHomeLookup (sl : HomeTick) (s : State) : Answer :=
  .next (homeLookup sl.slice.val sl.cycle (admitReqs s.coh.waiting.length sl.slice.val (retryEntry sl.slice.val s)))

/-! ## The request rows: arrival at the home's queue -/

/-- RD_SHR (R268); a tile whose outstanding misses are all in use sends none (R167). -/
def execRdShr (r : Req) (s : State) : Answer := .next (if missRoom r s then enqueueReq r .rdShr (noteMiss r 1 s) else s)
/-- RD_OWN (R268). -/
def execRdOwn (r : Req) (s : State) : Answer := .next (if missRoom r s then enqueueReq r .rdOwn (noteMiss r 2 s) else s)
/-- UPGRADE (R268). -/
def execUpgrade (r : Req) (s : State) : Answer := .next (if missRoom r s then enqueueReq r .upgrade (noteMiss r 3 s) else s)
/-- RD_NI (R187, R274): the speculative read of a core in blinker mode, which waits while its fill buffer is full. -/
def execRdNi (r : Req) (s : State) : Answer :=
  .next (if missRoom r s && specRoom r s then enqueueReq r .rdNi (noteMiss r 4 s) else s)
/-- RD_UC (R268). -/
def execRdUc (r : Req) (s : State) : Answer := .next (enqueueReq r .rdUc s)
/-- WR_UC (R268). -/
def execWrUc (r : Req) (k : Fin 4) (mask : BitVec 64) (data : BitVec 512) (tags : List Tag) (s : State) : Answer :=
  .next (enqueueReq r (.wrUc k mask data tags) s)
/-- EVICT (R268, R272): the line waits in the tile's write-back buffer of 16 entries; while that is full the eviction waits (R260, R284). -/
def execEvict (r : Req) (dirty : Bool) (s : State) : Answer :=
  match stopTile r.src.toNat with
  | none => .next (enqueueReq r (.evict dirty) s)
  | some t =>
    let s1 := toWriteBack t (lineOf r.pa) r.txn s
    if 16 ≤ (s.tile t).wb.length then .next s
    else .next (enqueueReq r (.evict (if (l2State s t (lineOf r.pa)).isSome then wbDirty s1 t (lineOf r.pa) else dirty)) s1)
/-- DMA_RD (R268). -/
def execDmaRd (r : Req) (subs : BitVec 4) (s : State) : Answer := .next (enqueueReq r (.dmaRd subs) s)
/-- DMA_WR (R268). -/
def execDmaWr (r : Req) (k : Fin 4) (mask : BitVec 64) (data : BitVec 512) (tags : List Tag) (s : State) : Answer :=
  .next (enqueueReq r (.dmaWr k mask data tags) s)
/-- SPAN_WR (R47). -/
def execSpanWr (r : Req) (data : List Word) (tags : List Tag) (sl : Word) (s : State) : Answer :=
  .next (enqueueReq r (.spanWr data tags sl) s)
/-- ZERO (R283). -/
def execZero (r : Req) (s : State) : Answer := .next (enqueueReq r .zero s)
/-- CLEAR (R283). -/
def execClear (r : Req) (s : State) : Answer := .next (enqueueReq r .clear s)
/-- M_CLEAN (R279). -/
def execMClean (r : Req) (s : State) : Answer := .next (enqueueReq r .mClean (markNoInstall r s))
/-- M_CLEANINV (R279, R282). -/
def execMCleaninv (r : Req) (s : State) : Answer := .next (enqueueReq r .mCleaninv (markNoInstall r s))
/-- M_DISCARD (R281, R282). -/
def execMDiscard (r : Req) (s : State) : Answer := .next (enqueueReq r .mDiscard (markNoInstall r s))
/-- ATOMIC (R275). -/
def execAtomic (r : Req) (op : AtomOp) (dbl : Bool) (v cmp : TWord) (s : State) : Answer :=
  .next (enqueueReq r (.atomic false op dbl v cmp) s)
/-- ATOMIC_ANY (R275): the core keeps the atomic, which it performs where the home places it NEAR. -/
def execAtomicAny (r : Req) (op : AtomOp) (dbl : Bool) (v cmp : TWord) (s : State) : Answer :=
  .next (if missRoom r s then
      enqueueReq r (.atomic true op dbl v cmp) (noteMiss r 5 s (some { pa := r.pa, op := op, dbl := dbl, v := v, cmp := cmp }))
    else s)

/-! ## Snoops at a tile -/

/-- An invalidating snoop's line leaves the core's speculative fill buffer, which counts as BLINKER_DROP_SPEC (R187, R194). -/
def dropSpecFill (t line : Nat) (s : State) : State :=
  match tileCore s t with
  | some c =>
    let cs := s.core c
    if cs.specFill.any (fun x => decide (x.1 = line)) then
      countEvent c 0x00C 1 (some (swPl cs.arch.sw)) cs.arch.pc (s.setCore c { cs with specFill := cs.specFill.erase line })
    else s
  | none => s

/-- A snoop that a full nap log cannot take wakes the L2 alone and waits for it (R273). -/
def napWaits (t line : Nat) (s : State) : Bool :=
  let x := s.tile t
  x.retention && (x.l2Waking || decide (64 ≤ x.napLog.length)) && s.coh.net.any (fun p => decide (p.stop = tileStop t) && decide (p.line = line))

/-- Whether a snoop for a line has left its home: of a home's snoops to one tile at most two are sent and unanswered (R153). -/
def snoopSent (s : State) (t line : Nat) : Bool :=
  let h := homeSlice s (line / 4)
  let mine := s.coh.net.filter (fun p => decide (p.stop = tileStop t) && decide (homeSlice s (p.line / 4) = h))
  let isSnoop (p : Pkt) : Bool := match p.kind with | .snpShr | .snpInv | .snpClean => true | _ => false
  let before := (mine.filter isSnoop).takeWhile (fun p => decide (p.line ≠ line))
  let answers := mine.filter (fun p => match p.kind with | .ack _ _ | .gone => true | _ => false)
  decide (before.length + answers.length < 2)

/-- Whether a line is the lower one of the oldest store of a tile's core, a split store that waits for its upper line (R183). -/
def splitWaits (s : State) (t line : Nat) : Bool :=
  match (tileCore s t).bind (fun c => (s.core c).storeBuf.head?) with
  | some en =>
    (match (storeLines en).eraseDups with
     | [lo, hi] => decide (lo = line) && decide (l2State s t lo = some .m ∨ l2State s t lo = some .e) &&
         decide (l2State s t hi ≠ some .m) && decide (l2State s t hi ≠ some .e)
     | _ => false)
  | none => false

/-- A snoop reaches its tile (R266, R271–R273): while it waits for a credit, a grant for the line is on its way to the tile, a split store holds the
line for its upper half (R183), or the L2 wakes, it waits; otherwise the tile answers (log entry 136). -/
def snoopArrives (k : Snoop) (t line : Nat) (s : State) : State :=
  let stop := tileStop t
  if !snoopSent s t line then s
  else if splitWaits s t line then s
  else if napWaits t line s then s.setTile t { s.tile t with l2Waking := true }
  else if s.coh.net.any (fun p => decide (p.stop = stop) && decide (p.line = line) &&
      (match p.kind with | .gnt st _ _ => decide (st ≠ 3) | _ => false)) then s
  else
    match takePkt stop line (fun y => decide (y = snoopKind k)) s with
    | none => s
    | some (p, s1) =>
      let s2 := if k = .inv then dropSpecFill t line s1 else s1
      let a := snoopTile k t line s2
      sendPkt { stop := stop, line := line, kind := match a.1 with | .ack d e => .ack d e | .gone => .gone, ref := p.ref, txn := p.txn } a.2

/-- SNP_SHR (R266). -/
def execSnpShr (t : SliceId) (pa : BitVec 52) (s : State) : Answer := .next (snoopArrives .shr t.val (lineOf pa) s)
/-- SNP_INV (R266). -/
def execSnpInv (t : SliceId) (pa : BitVec 52) (s : State) : Answer := .next (snoopArrives .inv t.val (lineOf pa) s)
/-- SNP_CLEAN (R266). -/
def execSnpClean (t : SliceId) (pa : BitVec 52) (s : State) : Answer := .next (snoopArrives .clean t.val (lineOf pa) s)

/-! ## Answers at a tile -/

/-- Take the tile's oldest outstanding request for a line. -/
def takeMiss (t line : Nat) (s : State) : Option Miss × State :=
  let x := s.tile t
  match takeFirst (fun m => decide (m.line = line)) x.misses with
  | none => (none, s)
  | some (m, r) => (some m, s.setTile t { x with misses := r })

/-- The state a grant gives (R264); a tile that holds the line keeps the stronger one. -/
def grantState (st : BitVec 2) (old : Option L2State) : L2State :=
  if st = 2 ∨ old = some .m then .m
  else if st = 1 ∨ old = some .e then (if old = some .o then .o else .e)
  else if old = some .o then .o else .s

/-- Install a granted line; the line it replaces goes to the write-back buffer with its EVICT in the home's queue (R266, R272).
While the buffer is full the eviction waits, and the grant with it (R284). -/
def installGrant (t line : Nat) (st : L2State) (s : State) : Option State :=
  match l2Victim s t line with
  | none => some (touchL2 t line (setL2 t line st s))
  | some v =>
    let x := s.tile t
    if 16 ≤ x.wb.length then none
    else
      let c := tileCore s t
      let r : Req := { src := BitVec.ofNat 8 (tileStop t), txn := x.nextTxn, pa := BitVec.ofNat 52 (64 * v),
                       stall := Fin.ofNat 257 (match c with | some k => coreStall s k | none => 0), strict := false, sealAttr := true }
      let s1 := toWriteBack t v x.nextTxn (State.took s)
      let s2 := s1.setTile t { s1.tile t with nextTxn := x.nextTxn + 1 }
      some (touchL2 t line (setL2 t line st (enqueueReq r (.evict (wbDirty s1 t v)) s2)))

/-- The oldest store that waits for a line performs once when its grant arrives (R271), the stores before it first (R180). -/
def performWaiting (t line : Nat) (s : State) : State :=
  match tileCore s t with
  | none => s
  | some c =>
    let buf := (s.core c).storeBuf
    let before := (buf.takeWhile (fun en => !(storeLines en).contains line)).length
    if before < buf.length then (List.range (before + 1)).foldl (fun st _ => (drainOne c st).getD st) s else s

/-- The access that made a request performs with its grant (R266, R271, R275): a load receives its data, an atomic placed NEAR is performed in
the line, and with M the oldest store that waits is. -/
def performGranted (stop t line : Nat) (p : Pkt) (st : BitVec 2) (m : Option Miss) (s : State) : State :=
  match m.bind (fun x => x.atom) with
  | some x => if st = 2 then atomicAtTile stop x s else s
  | none =>
    let s1 := if p.data.isEmpty then s else deliverData stop p.data s
    if st = 2 then performWaiting t line s1 else s1

/-- A line that a speculative load has read is installed from its grant: bytes that differ from those held raise a machine clear, and the
fill buffer entry is free (R179, R187, R274). -/
def specInstalled (t line : Nat) (data : List TWord) (s : State) : State :=
  match tileCore s t with
  | none => s
  | some c =>
    let cs := s.core c
    match cs.specFill.find? (fun x => decide (x.1 = line)) with
    | none => s
    | some x =>
      let s1 := s.setCore c { cs with specFill := cs.specFill.erase line }
      if !data.isEmpty ∧ x.2.map (·.data) ≠ data.map (·.data) then
        countEvent c 0x00B 1 (some (swPl cs.arch.sw)) cs.arch.pc s1
      else s1

/-- A grant reaches its requester (R266, R268, R274, R282). -/
def grantArrives (stop line : Nat) (s : State) : State :=
  match takePkt stop line (fun k => match k with | .gnt _ _ _ => true | _ => false) s with
  | none => s
  | some (p, s1) =>
    match p.kind, stopTile stop with
    | .gnt 3 _ _, some t =>
      let m := takeMiss t line s1
      (match m.1, tileCore m.2 t with
       | some x, some c =>
         if x.op = 4 ∧ !x.noInstall then
           let cs := m.2.core c
           deliverData stop p.data (m.2.setCore c { cs with specFill := cs.specFill.set line p.data })
         else deliverData stop p.data m.2
       | _, _ => deliverData stop p.data m.2)
    | .gnt st _ _, some t =>
      let m := takeMiss t line s1
      (match m.1 with
       | some x => if x.noInstall then deliverData stop p.data m.2
                   else match installGrant t line (grantState st (l2State m.2 t line)) (specInstalled t line p.data m.2) with
                     | some s2 => performGranted stop t line p st (some x) s2
                     | none => s
       | none => match installGrant t line (grantState st (l2State m.2 t line)) m.2 with
                 | some s2 => performGranted stop t line p st none s2
                 | none => s)
    | _, _ => deliverData stop p.data s1

/-- GNT (R268). -/
def execGnt (stop : BitVec 8) (pa : BitVec 52) (s : State) : Answer := .next (grantArrives stop.toNat (lineOf pa) s)

/-- RETRY reaches its tile: the load waits until it is no longer speculative (R187, R274). -/
def retryArrives (t line : Nat) (s : State) : State :=
  match takePkt (tileStop t) line (fun k => decide (k = .retry)) s with
  | none => s
  | some (_, s1) => countUncore (0x080 + homeSlice s (line / 4)) 0x004 1 (takeMiss t line s1).2

/-- RETRY (R274). -/
def execRetry (t : SliceId) (pa : BitVec 52) (s : State) : Answer := .next (retryArrives t.val (lineOf pa) s)

/-- A tile's write-back buffer without its entry for a line. -/
def freeWb (t line : Nat) (s : State) : State :=
  let x := s.tile t
  s.setTile t { x with wb := x.wb.filter (fun e => decide (e.line ≠ line)) }

/-- WB_PULL reaches its tile, which sends the data and frees its buffer entry (R270, R272). -/
def pullArrives (t line : Nat) (s : State) : State :=
  match takePkt (tileStop t) line (fun k => decide (k = .wbPull)) s with
  | none => s
  | some (p, s1) => sendPkt { stop := tileStop t, line := line, kind := .wbData, ref := p.ref } (freeWb t line s1)

/-- WB_PULL (R270). -/
def execWbPull (t : SliceId) (pa : BitVec 52) (s : State) : Answer := .next (pullArrives t.val (lineOf pa) s)

/-- EVICT_ACK reaches its tile: the buffer entry is free (R272). -/
def ackArrives (t line : Nat) (s : State) : State :=
  match takePkt (tileStop t) line (fun k => decide (k = .evictAck)) s with
  | none => s
  | some (_, s1) => freeWb t line s1

/-- EVICT_ACK (R272). -/
def execEvictAck (t : SliceId) (pa : BitVec 52) (s : State) : Answer := .next (ackArrives t.val (lineOf pa) s)

/-- An ATOMIC_ANY that its home has performed FAR is outstanding no longer (R275). -/
def dropAtom (stop : Nat) (p : Pkt) (s : State) : State :=
  match p.ref, stopTile stop with
  | some r, some t =>
    let x := s.tile t
    match takeFirst (fun m => decide ((m.atom.map (fun y => y.pa)) = some r.pa)) x.misses with
    | some (_, rest) => s.setTile t { x with misses := rest }
    | none => s
  | _, _ => s

/-- DONE reaches its requester, which learns that its request was performed, with any result (R268, R275). -/
def doneArrives (stop line : Nat) (s : State) : State :=
  match takePkt stop line (fun k => decide (k = .done)) s with
  | none => s
  | some (p, s1) => deliverData stop p.data (dropAtom stop p s1)

/-- DONE (R268). -/
def execDone (stop : BitVec 8) (pa : BitVec 52) (s : State) : Answer := .next (doneArrives stop.toNat (lineOf pa) s)

/-! ## Answers at a home -/

/-- A snoop answer arrives (R268–R270, R272). -/
def answerArrives (t line : Nat) (f : PktKind → Bool) (s : State) : State :=
  match takePkt (tileStop t) line f s with
  | none => s
  | some (p, s1) =>
    let ev := match p.kind with | .ack _ (some x) => some x | _ => none
    let dirty := match p.kind with | .ack true _ => true | _ => false
    let left := match p.kind with | .ack _ none => false | _ => true
    let s2 := match ev with | some x => noteDropped t line (.ack dirty (some x)) s1 | none => s1
    updateTxn line (fun x => { x with
      snoops := x.snoops.erase (t, line),
      dirty := x.dirty || dirty,
      gone := if left then (t, line) :: x.gone else x.gone }) s2

/-- ACK (R268). -/
def execAck (t : SliceId) (pa : BitVec 52) (s : State) : Answer :=
  .next (answerArrives t.val (lineOf pa) (fun k => match k with | .ack _ _ => true | _ => false) s)
/-- GONE (R270). -/
def execGone (t : SliceId) (pa : BitVec 52) (s : State) : Answer :=
  .next (answerArrives t.val (lineOf pa) (fun k => decide (k = .gone)) s)

/-- WB_DATA reaches its home: the data goes into the LLC, the entry becomes U, or SH where sharers remain; a request that waited goes on (R268,
R270, R276). While a checked fill of the sector is in progress it waits (R47). -/
def wbDataArrives (t line : Nat) (s : State) : State :=
  match takePkt (tileStop t) line (fun k => decide (k = .wbData)) s with
  | none => s
  | some (_, s1) =>
    if fillPending s1 (line / 4) then s else
    let a : Attr := { stall := match tileCore s1 t with | some c => coreStall s1 c | none => 0 }
    let s2 := settleLine a line s1
    let s3 := match dirEntry s2 line with
      | some d => putEntry line (entryWithout d t) s2
      | none => s2
    updateTxn line (fun x => { x with wbLines := x.wbLines.erase line, gone := (t, line) :: x.gone }) s3

/-- WB_DATA (R268). -/
def execWbData (t : SliceId) (pa : BitVec 52) (s : State) : Answer := .next (wbDataArrives t.val (lineOf pa) s)

/-- A fill reaches the home, which checks it, allocates the sector and completes the waiting transaction (R45, R269, R274, R277). -/
def fillArrives (line : Nat) (s : State) : State :=
  let h := homeSlice s (line / 4)
  match (s.slice h).busy.find? (fun x => x.lines.contains line && x.needFill) with
  | none => s
  | some x =>
    let a := reqAttr x.hr.req
    let s1 := if x.hr.op = .rdNi then countNoAlloc (line / 4) (if a.sealPage then checkFill (line / 4) s else s)
              else x.lines.foldl (fun st l => fillLine a l st) s
    updateTxn line (fun y => { y with needFill := false, filled := true }) s1

/-- Whether a read of a sector is still under way at a memory controller: its data and its tack record have not both arrived (R301). -/
def readUnderWay (s : State) (sec : Nat) : Bool :=
  let reads (r : McReq) : Bool := decide (r.pa / 256 = sec) && (match r.kind with | .sectorFill | .subFill _ | .oldSub _ => true | _ => false)
  s.mc.channels.any (fun x => (x.2.queue ++ x.2.issued).any reads)

/-- MEMORY_FILL: a fill completes once the controller has its data and its tack record (R269, R301). -/
def execMemoryFill (pa : BitVec 52) (s : State) : Answer :=
  .next (if readUnderWay s (pa.toNat / 256) then s else fillArrives (lineOf pa) s)

/-- The operations of R265. -/
def knownOp (op : Nat) : Bool :=
  (decide (1 ≤ op) && decide (op ≤ 0x0C)) || (decide (0x10 ≤ op) && decide (op ≤ 0x12)) || (decide (0x20 ≤ op) && decide (op ≤ 0x22)) ||
  (decide (0x28 ≤ op) && decide (op ≤ 0x2C)) || (decide (0x30 ≤ op) && decide (op ≤ 0x32)) ||
  (decide (0x40 ≤ op) && decide (op ≤ 0x4D)) || (decide (0x50 ≤ op) && decide (op ≤ 0x5D))

/-- PROTOCOL_ERROR: a packet with an unknown operation is discarded and counted (R265, R285). -/
def execProtocolError (sl : SliceId) (op : BitVec 8) (s : State) : Answer :=
  .next (if knownOp op.toNat then s else odBump (0x5101 + sl.val) 0x07 s)

/-! ## Accesses that other units perform at one moment (R269) -/

/-- A packet reaches its tile, its requester or its home. -/
def pktArrives (p : Pkt) (s : State) : State :=
  let t := (stopTile p.stop).getD 0
  match p.kind with
  | .snpShr => snoopArrives .shr t p.line s
  | .snpInv => snoopArrives .inv t p.line s
  | .snpClean => snoopArrives .clean t p.line s
  | .gnt _ _ _ => grantArrives p.stop p.line s
  | .retry => retryArrives t p.line s
  | .wbPull => pullArrives t p.line s
  | .evictAck => ackArrives t p.line s
  | .done => doneArrives p.stop p.line s
  | .ack _ _ => answerArrives t p.line (fun k => match k with | .ack _ _ => true | _ => false) s
  | .gone => answerArrives t p.line (fun k => decide (k = .gone)) s
  | .wbData => wbDataArrives t p.line s

/-- Whether nothing is under way for a sector: no transaction, no packet and no request at its home. -/
def sectorQuiet (s : State) (sec : Nat) : Bool :=
  let sl := s.slice (homeSlice s sec)
  !sl.busy.any (fun x => x.lines.any (fun l => decide (l / 4 = sec))) && !s.coh.net.any (fun p => decide (p.line / 4 = sec)) &&
    !sl.queue.any (fun q => decide (secOf q.req.pa = sec))

/-- One round of what is under way for a sector: the L2s that full nap logs wake, its packets in their order, its fills, and its home's next
request for it. -/
def sectorRound (sec : Nat) (s : State) : State :=
  let h := homeSlice s sec
  let mine := s.coh.net.filter (fun p => decide (p.line / 4 = sec))
  let s1 := mine.foldl (fun st p => let t := (stopTile p.stop).getD 0
                                    if napWaits t p.line st then applyNap t st else st) s
  let s2 := mine.foldl (fun st p => pktArrives p st) s1
  let s3 := (List.range 4).foldl (fun st k => fillArrives (4 * sec + k) st) s2
  let sl := s3.slice h
  match pickReq s3 (fun q => decide (secOf q.req.pa = sec)) [] sl.queue with
  | none => s3
  | some (q, rest) => startTxn h q (s3.setSlice h { sl with queue := rest })

/-- What is under way for a sector comes to its end, in at most `n` rounds: an access that a unit performs at one moment is ordered after the
requests that its home has already (R269, R271, R273; log entry 176). -/
def quietSector (n sec : Nat) (s : State) : State :=
  match n with
  | 0 => s
  | n + 1 => if sectorQuiet s sec then s else quietSector n sec (sectorRound sec s)

/-- The rounds that a sector needs: eight for each request at its home. -/
def quietRounds (s : State) (sec : Nat) : Nat := 8 * ((s.slice (homeSlice s sec)).queue.length + 2)

/-- Bring the sectors of a range of `n` bytes to rest. -/
def quietRange (pa n : Nat) (s : State) : State :=
  ((List.range n).map (fun i => (pa + i) / 256)).eraseDups.foldl (fun st sec => quietSector (quietRounds st sec) sec st) s

/-- A DMA write of consecutive bytes, ordered after what is under way for its lines (R78, R269, R383). -/
def dmaWrite (a : Attr) (pa : Nat) (bytes : List Byte) (tag : Tag) (fuel : Nat) (s : State) : State :=
  dmaWriteBytes a pa bytes tag fuel (quietRange pa bytes.length s)

/-- A DMA read's fetch, ordered after what is under way for its lines (R45, R269). -/
def dmaRead (a : Attr) (pa n : Nat) (s : State) : State := dmaFetch a pa n (quietRange pa n s)

/-- A whole-span write, ordered after what is under way for its sector (R47, R269). -/
def spanStore (a : Attr) (sec : Nat) (ws : List TWord) (sl : Word) (ctx : Nat) (s : State) : Bool × State :=
  spanWrite a sec ws sl ctx (lookup (4 * sec) (quietRange (256 * sec) 1 s))

/-! ## The core's own traffic -/

/-- STORE_BUFFER_WRITE: the oldest store is written when its lines can be had (R180). -/
def execStoreBufferWrite (c : CoreId) (s : State) : Answer := .next ((drainOne c.val s).getD s)

/-- PREFETCH_ISSUE: a prefetcher that CORE_MODE enables brings a line of normal memory in the 16 KiB page of one of its streams (R186,
R188). -/
def execPrefetchIssue (c : CoreId) (pa : BitVec 52) (l2 : Bool) (s : State) : Answer :=
  let cs := s.core c.val
  let line := lineOf pa
  let on := if l2 then cs.modeNow.getLsbD 2 else cs.modeNow.getLsbD 1
  let streams := if l2 then cs.streamsL2 else cs.streamsL1
  if coreRuns s c.val ∧ !cs.walk ∧ on ∧ streams.contains (line / 256) ∧ region s pa.toNat = .normal ∧ !coreWaits s c.val line then
    let s1 := acquireShared { stall := cs.stall } (coreTile s c.val) line s
    .next (if l2 then s1
           else let c1 := s1.core c.val
                s1.setCore c.val { c1 with l1d := l1Insert c1.l1d line s1.free })
  else .next s

/-- Write every dirty line of a tile to its home and empty its caches (R193, R444), but for the lines that `keep` names. -/
def flushTile (t : Nat) (s : State) (keep : Nat → Bool := fun _ => false) : State :=
  let n := match tileCore s t with | some c => coreStall s c | none => 0
  (((s.tile t).l2.map (·.1)).filter (fun l => !keep l)).foldl (fun st l => evictL2 { stall := n } t l st) s

/-- A transaction that only cleans a line. -/
def cleanTxn (line : Nat) : Txn :=
  let r : Req := { src := 0, txn := 0, pa := 0, stall := 0, strict := false, sealAttr := true }
  { hr := { req := r, op := .mClean }, lines := [line] }

/-- Write a tile's dirty lines to their homes and keep every copy, clean (R273). -/
def cleanTile (t : Nat) (s : State) : State :=
  let n := match tileCore s t with | some c => coreStall s c | none => 0
  ((s.tile t).l2.map (·.1)).foldl (fun st0 l =>
    let st := (flushFrame t l st0).getD st0
    match l2State st t l with
    | some x =>
      if x = .m ∨ x = .o then setL2 t l (if x = .m then .e else .s) (finishClean { stall := n } (cleanTxn l) l st)
      else st
    | none => st) s

/-- Whether a tile has requests or evictions on their way. -/
def tileQuiet (s : State) (t : Nat) : Bool := (s.tile t).misses.isEmpty && (s.tile t).wb.isEmpty

/-- A core enters Walk: at an instruction boundary it writes its dirty lines to their homes, invalidates its caches, empties its
predictors and changes its clock, giving up a place in Gallop (R191, R193). Frame lines stay renamed. Traffic of its tile that is on its way
is waited for. -/
def walkEnter (k : Nat) (s : State) : State :=
  match drainStores k s with
  | none => s
  | some s1 =>
    if (s1.core k).walk ∨ !tileQuiet s1 (coreTile s1 k) then s
    else
      let s2 := flushTile (coreTile s1 k) s1 (renamed (s1.core k))
      let p := s2.corePwr k
      let s3 := s2.setCorePwr k { grant := if p.grant = 2 then 1 else p.grant, gait := if p.gait = 2 then 1 else p.gait }
      gaitEval (s3.setCore k { s3.core k with walk := true, l1i := [], l1d := [], specFill := [], returnStack := [], btb := [], direction := [] })

/-- A core applies its stall's CORE_MODE at an instruction boundary and empties its speculative fill buffer (R188). -/
def applyMode (k : Nat) (s : State) : State :=
  let cs := s.core k
  if cs.modePending then
    evalStalls ((dropSpec k s).setCore k { (dropSpec k s).core k with modeNow := BitVec.ofNat 32 (odGet s (0x4100 + cs.stall) 0x21), modePending := false })
  else s

/-- A core leaves Walk with empty caches (R193), and applies a CORE_MODE written meanwhile (R195). -/
def walkExit (k : Nat) (s : State) : State :=
  if (s.core k).walk then gaitEval (applyMode k (s.setCore k { s.core k with walk := false, l1i := [], l1d := [] })) else s

/-- WALK_ENTER. -/
def execWalkEnter (c : CoreId) (s : State) : Answer := .next (walkEnter c.val s)

/-- WALK_EXIT. -/
def execWalkExit (c : CoreId) (s : State) : Answer := .next (walkExit c.val s)

/-- CORE_MODE_APPLY (R188); a core in Walk applies it when it leaves Walk (R195). -/
def execCoreModeApply (c : CoreId) (s : State) : Answer := .next (if (s.core c.val).walk then s else applyMode c.val s)

end Sys2Proof.Machine
end

