-- ==== Sys2Proof/Machine/Dictionary.lean ====
section
/-! DEFINITION. The checks of a dictionary access (R464, R466, R480, R481, R493), what they answer, and the saddlebag's pending
writes (R467). -/

namespace Sys2Proof.Machine

/-- What an access answers (R371, R466, R471). -/
inductive Res where
  | ok | noEntry | noAccess | badLength | badValue | livePath
deriving DecidableEq, Repr

/-- The code of an answer (R371, R471). -/
def Res.code (r : Res) : Nat :=
  match r with
  | .ok => 0 | .noEntry => 1 | .noAccess => 2 | .badLength => 3 | .badValue => 4 | .livePath => 5

/-! ## Functions and their configuration (R366, R368, R386) -/

/-- The key of a function as a link presents it. -/
def linkFnKey (l fn : Nat) : Nat := if fn = 0 then pfKey l else fnKey (l / 2) fn

def State.fnAt (s : State) (k : Nat) : HFn := Tbl.get s.host.fns k {}
def State.setFnAt (s : State) (k : Nat) (x : HFn) : State := { s with host := { s.host with fns := s.host.fns.set k x } }

/-- How many VFs a link presents (R366). -/
def totalVfs (s : State) (p : Nat) : Nat := if bifurcated s p then 128 else 256

/-- The number of a VF within its link. -/
def vfWithin (s : State) (p v : Nat) : Nat := if bifurcated s p ∧ 128 < v then v - 128 else v

/-- VF Enable and NumVFs of a PF0's SR-IOV capability (R368, PCIe). -/
def vfEnableBit (f : HFn) : Bool := (Tbl.get f.cfg 0x158 0).getLsbD 0
def numVfs (f : HFn) : Nat := natField (Tbl.get f.cfg 0x160 0).toNat 0 16

/-- Whether a VF is enabled: its PF0 has VF Enable set and NumVFs reaches it. -/
def vfEnabled (s : State) (p v : Nat) : Bool :=
  let f := s.fnAt (pfKey (vfLink s p v))
  decide (1 ≤ v) && vfEnableBit f && decide (vfWithin s p v ≤ numVfs f)

/-- Whether a stall has a live data path (R344). -/
def liveDataPath (s : State) (n : Nat) : Bool :=
  decide ((s.stall n).state = .live) &&
    (s.eng.ctxs.any (fun x => decide (x.2.stall.toNat = n) &&
        (decide (x.2.state = .idle) || decide (x.2.state = .active) || decide (x.2.state = .draining) || decide (x.2.state = .moving))) ||
     (match stallVf s n with | some (p, v) => vfEnabled s p v | none => false))

/-! ## Rights -/

/-- The right of a class. -/
def OdEntry.right (e : OdEntry) (c : MasterClass) : Right := match c with | .h => e.h | .s => e.s | .t => e.t | .f => e.f

/-- Whether a right permits a read or a write. -/
def Right.permits (x : Right) (write : Bool) : Bool :=
  match x with
  | .none => false
  | .r => !write
  | .w => write
  | .rw => true

/-- The stall of a tenant path. -/
def pathStall (s : State) (p : Path) : Option Nat :=
  match p with
  | .vf h n => vfStall s h.val n.val
  | _ => none

/-- Whether a stall reaches an entry through class T at all (R481): its own index, its ports, contexts, sources and queue pairs, and
the device-wide entries. A record entry is reached where the path's selection names the stall's own. -/
def tenantReach (s : State) (n : Nat) (p : Path) (idx sub : Nat) : Bool :=
  if idx = 0x4100 + n then true
  else if 0x6400 ≤ idx ∧ idx ≤ 0x67FF then decide (odGet s idx 0x02 = n)
  else if idx = 0x7100 then decide (sub = 1 ∨ (s.ctx (pathGet s p 0x7100 1)).stall.toNat = n)
  else if idx = 0x9000 then decide (sub = 1 ∨ sub = 4 ∨ srcOwner s (pathGet s p 0x9000 1) = n)
  else if idx = 0x8020 then
    decide (sub ≠ 2) ||
      (let v := pathGet s p 0x8020 1
       match p with | .vf h fn => decide (natField v 0 9 = fn.val) && decide (natField v 9 1 = h.val) | _ => true)
  else if idx = 0x1000 then decide ((1 ≤ sub ∧ sub ≤ 6) ∨ sub = 9 ∨ sub = 0x20 ∨ sub = 0x21)
  else if idx = 0x2000 then decide (sub = 1)
  else if idx = 0x5100 then decide (0x10 ≤ sub ∧ sub ≤ 0x1F)
  else if idx = 0xB000 then decide (sub = 1)
  else false

/-- Whether a class has some right to an entry of an index, other than its subindex 0 (R483). -/
def anyRight (s : State) (p : Path) (idx : Nat) : Bool :=
  (List.range 256).any (fun sub => decide (sub ≠ 0) &&
    (match odEntry idx sub with
     | some e => ((e.right (pathClass p)).permits true || (e.right (pathClass p)).permits false) &&
       (match p with
        | .vf _ _ => (match pathStall s p with | some n => tenantReach s n p idx sub | none => false)
        | _ => true)
     | none => false))

/-- Whether a path has the right to an entry (R481, R483). -/
def hasRight (s : State) (p : Path) (write : Bool) (idx sub : Nat) (e : OdEntry) : Bool :=
  if sub = 0 then !write && anyRight s p idx
  else (e.right (pathClass p)).permits write &&
    (match p with
     | .vf _ _ => (match pathStall s p with | some n => tenantReach s n p idx sub | none => false)
     | _ => true)

/-- A selection that a tenant path may not make (R60, R391, R405). -/
def selectionDenied (s : State) (p : Path) (idx sub v : Nat) : Bool :=
  match p with
  | .vf h fn =>
    (match pathStall s p with
     | none => true
     | some n =>
       (decide (idx = 0x7100 ∧ sub = 1) && decide ((s.ctx v).stall.toNat ≠ n)) ||
       (decide (idx = 0x8020 ∧ sub = 1) && (decide (natField v 0 9 ≠ fn.val) || decide (natField v 9 1 ≠ h.val))) ||
       (decide (idx = 0x9000 ∧ sub = 1) && decide (srcOwner s v ≠ n)))
  | _ => false

/-- A value that lies outside what its entry states, beside the catalogue's ranges (R480). -/
def badField (p : Path) (idx sub v : Nat) : Bool :=
  if idx = 0x7100 ∧ sub = 3 then
    decide (natField v 0 3 = 0) || decide (3 < natField v 0 3) ||
      (decide (natField v 0 3 = 1) && (decide (256 < natField v 3 9) || decide (natField v 12 2 = 3)))
  else if idx = 0x9000 ∧ sub = 2 then
    decide (natField v 5 2 = 3) || decide (natField v 5 2 = 1 ∧ natField v 8 2 = 3) || decide (256 < natField v 32 9) ||
      decide (10000 < natField v 49 14)
  else if 0x4100 ≤ idx ∧ idx ≤ 0x4200 ∧ sub = 0x09 then decide (256 < natField v 0 9)
  else if idx = 0x5100 ∧ 0x10 ≤ sub then decide (256 < natField v 1 9)
  else if 0x5010 ≤ idx ∧ idx ≤ 0x501F ∧ sub = 0x0E then decide (natField v 0 4 ≠ 1 ∧ natField v 0 4 ≠ 2)
  else if 0x8030 ≤ idx ∧ idx ≤ 0x8031 ∧ sub ≤ 0x20 then
    natBit v 0 && (decide (natField v 64 64 % 2 ^ natField v 4 6 ≠ 0) || decide (natField v 128 14 ≠ 0) || decide (natField v 4 6 < 14) || decide (40 < natField v 4 6) || decide (256 < natField v 16 9)) ||
      (natBit v 3 && decide (pathClass p = .s))
  else if idx = 0x8000 ∧ sub = 1 then false
  else if idx = 0x8000 ∧ sub = 4 then decide (v = 0)
  else false

/-- The stalls whose live data path bars a side-band write (R60, R138, R158, R278, R286, R312, R336, R345, R391, R405, R494). -/
def guardStalls (s : State) (p : Path) (idx sub v : Nat) : List Nat :=
  if 0x4100 ≤ idx ∧ idx ≤ 0x4200 then
    (if (0x06 ≤ sub ∧ sub ≤ 0x0D) ∨ sub = 0x20 ∨ sub = 0x22 ∨ sub = 0x23 ∨ 0x30 ≤ sub then [idx - 0x4100] else [])
  else if idx = 0x5100 then ([odGet s idx sub, v].filter (fun x => natBit x 0)).map (fun x => natField x 1 9)
  else if 0x6400 ≤ idx ∧ idx ≤ 0x67FF then (if sub = 2 ∨ sub = 3 ∨ sub = 7 then [odGet s idx 0x02] else [])
  else if idx = 0x7100 ∧ sub = 3 then
    [if natField v 0 3 = 1 then natField v 3 9 else (s.ctx (pathGet s p 0x7100 1)).stall.toNat]
  else if idx = 0x8020 ∧ sub = 2 then
    (let sel := pathGet s p 0x8020 1
     if natField sel 0 9 = 0 then [0]
     else match vfStall s (natField sel 9 1) (natField sel 0 9) with | some n => [n] | none => [])
  else if 0x8030 ≤ idx ∧ idx ≤ 0x8031 ∧ sub ≤ 0x20 then [natField (odGet s idx sub) 16 9, natField v 16 9]
  else if idx = 0x9000 ∧ sub = 2 then [srcOwner s (pathGet s p 0x9000 1)]
  else if idx = 0x1000 ∧ sub = 0x0B then (s.stalls.map (·.1))
  else []

/-- The selection entries (R487). -/
def isSelection (idx sub : Nat) : Bool :=
  decide (idx = 0x3000 ∧ sub = 3) || decide (idx = 0x7100 ∧ sub = 1) || decide (idx = 0x8020 ∧ sub = 1) || decide (idx = 0x9000 ∧ sub = 1)

/-- Whether an entry's writes are performed before READY (R493). -/
def earlyWrite (idx sub : Nat) : Bool :=
  decide (idx = 0x1000) || decide (idx = 0x2000) || decide (idx = 0x3000) || decide (idx = 0xB000) || decide (idx = 0xF000) ||
    isSelection idx sub

/-- Whether a number lies in the permitted ranges of an entry. -/
def inRange (e : OdEntry) (v : Nat) : Bool :=
  e.ranges.isEmpty || e.ranges.any (fun r => decide (r.1 ≤ v) && decide (v ≤ r.2))

/-- The right of class F to a clearable entry is to write zero (R480): the catalogue's range says so. -/
def lengthOk (e : OdEntry) (n : Nat) : Bool :=
  match e.ty with
  | .str m => decide (1 ≤ n) && decide (n ≤ m)
  | t => decide (n = t.len)

/-- Whether an access comes through a VF that is fenced: its mailbox serves reads only (R389). -/
def fencedPath (s : State) (p : Path) : Bool := match p with | .vf h n => (s.fn h.val n.val).fenced | _ => false

/-- Whether TAP_OPEN may not be set: a tenant stall is not FREE, a stripe is buffered, or an engine has a descriptor (R520). -/
def tapDenied (s : State) (idx sub v : Nat) : Bool :=
  decide (idx = 0xF000 ∧ sub = 1 ∧ v = 1) &&
    (s.stalls.any (fun x => decide (x.1 ≠ 0) && decide (x.2.state ≠ .free)) || !s.eng.pool.isEmpty ||
      s.eng.engines.any (fun x => !x.2.queue.isEmpty || !x.2.active.isEmpty))

/-- The checks of R466, in their order, of a write; READY's bar (R493), a fenced VF's (R389) and TAP_OPEN's (R520) stand with the rights. -/
def checkWrite (s : State) (p : Path) (idx sub : Nat) (data : List Byte) : Res :=
  let v := natOfBytes data
  match p, pathStall s p with
  | .vf _ _, none => .noAccess
  | _, _ =>
    match odLookup idx sub with
    | none => .noEntry
    | some e =>
      if !hasRight s p true idx sub e || selectionDenied s p idx sub v || fencedPath s p || tapDenied s idx sub v then .noAccess
      else if !s.boot.ready && !earlyWrite idx sub && !e.bag then .noAccess
      else if !lengthOk e data.length then .badLength
      else if !inRange e v || badField p idx sub v then .badValue
      else if pathClass p = .s ∧ (guardStalls s p idx sub v).any (liveDataPath s) then .livePath
      else .ok

/-- The checks of R466 of a read. -/
def checkRead (s : State) (p : Path) (idx sub : Nat) : Res :=
  match p, pathStall s p with
  | .vf _ _, none => .noAccess
  | _, _ =>
    match odLookup idx sub with
    | none => .noEntry
    | some e => if hasRight s p false idx sub e then .ok else .noAccess

/-! ## Performing an access -/

/-- The key under which a path's last answer stands. -/
def answerIdx : Nat := 0xFFFF

/-- Note what an access answered. -/
def setAnswer (p : Path) (r : Res) (s : State) : State := pathSet p answerIdx 0xFF r.code s

/-- What a saddlebag write stores: a source's word, a shelf that a port moves to (R138), or the entry's value. -/
def bagValue (s : State) (k : Nat) : Nat :=
  if 0x1000000 ≤ k then (srcCfg s (bagSource k)).toNat
  else
    let v := Tbl.get s.od k 0
    if 0x6400 ≤ k / 256 ∧ k / 256 ≤ 0x67FF ∧ k % 256 = 3 then
      (match (s.port (k / 256 - 0x6400)).shelfMove with | some (h, _) => h | none => v)
    else v

/-- Every saddlebag write is completed (R416 step 7). -/
def storeBag (s : State) : State :=
  { s with flash := s.bagPending.foldl (fun t k => t.set k (bagValue s k)) s.flash, bagPending := [] }

/-- The bits of a written value that an entry holds: reserved bits ignore writes and read zero (R6, R188, R278, R320, R330, R345, R373,
R381). -/
def keptBits (idx sub v : Nat) : Nat :=
  if 0x4100 ≤ idx ∧ idx ≤ 0x4200 then
    (match sub with
     | 0x09 => v &&& 0x81FF
     | 0x0A => v &&& 0x000FFFFFFFFFCFFF
     | 0x21 => v % 8
     | 0x24 => v &&& 0x000FFFFFFFFFC000
     | _ => v)
  else if idx = 0x5100 ∧ 0x10 ≤ sub then v % 2 ^ 14
  else if idx = 0x8020 ∧ sub = 1 then v &&& 0x3F03FF
  else if 0x8030 ≤ idx ∧ idx ≤ 0x8031 ∧ 1 ≤ sub ∧ sub ≤ 0x20 then
    natField v 0 10 + natField v 16 9 * 2 ^ 16 + natField v 64 128 * 2 ^ 64
  else v

/-- Store a value in its entry, noting it for flash where it is of the saddlebag; a written side-band setting is in force (R527). -/
def storeOd (idx sub v : Nat) (s : State) : State :=
  let s0 := if idx = 0x1000 then { s with boot := { s.boot with sbDefault := s.boot.sbDefault.filter (fun x => decide (x ≠ sub)) } } else s
  let s1 := odSet idx sub (keptBits idx sub v) s0
  match odEntry idx sub with
  | some e => if e.bag then noteBag idx sub s1 else s1
  | none => s1

/-- Whether a Groom pair serves the dictionary: one has passed its self-test, the device is not in DEEP or OFF, and STRAP_MFG does not hold it
in ROM (R413, R436, R448, R496, R527). -/
def groomServes (s : State) : Bool :=
  (decide (s.far.pair0 = .serving) || decide (s.far.pair1 = .serving)) && !s.boot.mfg &&
    !([BootPhase.reset, .rom].contains s.boot.phase) && !([PowerState.deep, .off].contains s.pwr.state)

/-- Whether a MEM_SLOTS value is refused: any of bits [7:0], or a slot another stall owns (R312). -/
def slotsDenied (s : State) (n : Nat) (v : Nat) : Bool :=
  decide (v % 256 ≠ 0) ||
    (List.range 257).any (fun m => decide (m ≠ n) && decide (odGet s (0x4100 + m) 0x23 &&& v ≠ 0)) ||
    s.stalls.any (fun x => decide (x.1 ≠ n) && decide (x.2.slotsNow.toNat &&& v ≠ 0))

/-- Whether any other stall, whatever its state, holds one of some groups (R158). -/
def groupsHeld (s : State) (n v : Nat) : Bool :=
  (List.range 257).any (fun m => decide (m ≠ n) && decide (odGet s (0x4100 + m) 0x20 &&& v ≠ 0)) ||
  s.stalls.any (fun x => decide (x.1 ≠ n) && decide (x.2.ringNow.toNat &&& v ≠ 0))

/-- Whether a stall's entry refuses a value with DENIED whatever its state: its ring groups, way mask or memory slots (R158, R286, R312). -/
def valueDenied (s : State) (n sub v : Nat) : Bool :=
  match sub with
  | 0x20 => decide (v % 256 ≠ 0) || groupsHeld s n v
  | 0x22 => decide (v = 0)
  | 0x23 => slotsDenied s n v
  | _ => false

/-- A write before READY is stored for bring-up to take up (R493); a stall's entry gives the result that .03 names (R345). -/
def earlyStore (p : Path) (idx sub v : Nat) (s : State) : State :=
  let named := decide (0x06 ≤ sub ∧ sub ≤ 0x0D) || decide (0x20 ≤ sub ∧ sub ≤ 0x24) || decide (0x30 ≤ sub ∧ sub ≤ 0x3F)
  if 0x4100 ≤ idx ∧ idx ≤ 0x4200 ∧ named = true then
    (if valueDenied s (idx - 0x4100) sub v then pathSet p idx 0x03 resDenied s else pathSet p idx 0x03 resOk (storeOd idx sub v s))
  else storeOd idx sub v s

/-- A write through a path: the checks, then the entry's behaviour. Before READY a saddlebag value outside the early indexes is stored
and takes effect when its unit starts (R493). With no serving pair nothing answers (R436). -/
def odWrite (p : Path) (idx sub : Nat) (data : List Byte) (behave : State → State) (s : State) : State :=
  if !groomServes s then s
  else
    match checkWrite s p idx sub data with
    | .ok =>
      let v := natOfBytes data
      setAnswer p .ok
        (if !s.boot.ready && !earlyWrite idx sub && !(decide (idx = 0x9000 ∧ sub = 2)) then earlyStore p idx sub v s else behave s)
    | r => setAnswer p r s

/-- A write of a value that fits its entry's type. -/
def odWriteNat (p : Path) (idx sub v : Nat) (behave : State → State) (s : State) : State :=
  let n := match odLookup idx sub with | some e => e.ty.len | none => 0
  odWrite p idx sub (bytesOfNat n v) behave s

/-! ## Results of a stall's entries (R345) -/

/-- Set the result of a stall's entries on a path. -/
def stallResult (p : Path) (n r : Nat) (s : State) : State := pathSet p (0x4100 + n) 0x03 r s

end Sys2Proof.Machine
end

