-- ==== Sys2Proof/Machine/HostOps.lean ====
section
/-! DEFINITION. What the host endpoint does for engines and cores: transfers with their ATS translation, completions and their messages
(R77, R339, R376–R380, R385). -/

namespace Sys2Proof.Machine

/-! ## Outbound transfers (R77, R339) -/

/-- ATS Enable of a function: bit 31 of the dword at 0x194 (R368, PCIe). -/
def atsEnabled (f : HFn) : Bool := (Tbl.get f.cfg 0x194 0).getLsbD 31

/-- Enable Relaxed Ordering of a function: bit 4 of the dword at 0x078, which PCIe sets at reset (R368, R385). -/
def relaxedEnabled (f : HFn) : Bool := (Tbl.get f.cfg 0x078 0x2810).getLsbD 4

/-- The ATC entry of a function for a 4 KiB page (R339). -/
def atcEntry (s : State) (p fn page : Nat) : Option AtcEntry :=
  (Tbl.get s.vm.atc p []).find? (fun e => decide (e.fn = fn) && decide (e.page = page))

/-- Whether an entry gives the right. -/
def atcGives (e : AtcEntry) (write : Bool) : Bool := if write then e.w else e.r

/-- An engine's transfer to host memory (R339): translated where the ATC holds the page, otherwise held until its Translation
Completion; without ATS as it is. -/
def hostAccess (p fn : Nat) (addr : Nat) (write : Bool) (mk : Word → Bool → Out) (s : State) : State :=
  let page := addr / 4096
  if !atsEnabled (s.fn p fn) then emitTlp (fnLink s p fn) (mk (BitVec.ofNat 64 addr) false) s
  else match (atcEntry s p fn page).filter (fun e => atcGives e write) with
    | some e => emitTlp (fnLink s p fn) (mk (BitVec.ofNat 64 (e.host * 4096 + addr % 4096)) true) s
    | none =>
      let asked := s.host.heldOut.any (fun x => decide (x.1 = fnKey p fn) && decide (x.2.1 = page))
      let s1 := { s with host := { s.host with heldOut := s.host.heldOut ++ [(fnKey p fn, page, mk (BitVec.ofNat 64 addr) false)] } }
      if asked then s1 else emitTlp (fnLink s p fn) (.atsRequest p fn page) (odBump (0x5020 + p) 0x04 s1)

/-- Whether a function's writes are still sent (R386): none while it drains. -/
def fnWrites (f : HFn) : Bool := f.drain.isNone

/-- Bytes written to host memory as one posted write (R22, R77). -/
def hostWrite (p fn addr : Nat) (data : List Byte) (relaxed ep : Bool) (s : State) : State :=
  let f := s.fn p fn
  if !fnWrites f ∨ s.host.fatal then s
  else hostAccess p fn addr true (fun a t => .hostWrite p fn a data (relaxed && relaxedEnabled f) t ep) s

/-- An engine reads host memory; the answer comes back under its tag. -/
def hostRead (p fn addr len tag : Nat) (s : State) : State :=
  hostAccess p fn addr false (fun a t => .hostRead p fn a len tag (relaxedEnabled (s.fn p fn)) t) s

/-- The reads that a controller has outstanding, of engines and of its queue fetcher; it has tags for 768 (R363). -/
def nonPosted (s : State) (l : Nat) : Nat :=
  (List.range 8).foldl (fun n e => n + ((s.engine e).reads.filter (fun r => decide (fnLink s (r.2.2.fn / 257) (r.2.2.fn % 257) = l))).length)
    (s.ctl l).reads.length

/-- A controller sends its LTR message, with the values of LTR_VALUE, where the host has enabled the mechanism in Device Control 2 (R390,
PCIe; log entry 161). -/
def sendLtr (l : Nat) (s : State) : State :=
  if (cfgKept (s.fnAt (pfKey l)) 0x098).getLsbD 10 then emitTlp l (.ltr l (BitVec.ofNat 32 (odGet s 0x8000 0x06))) s else s

/-! ## Queue pairs -/

def State.qp (s : State) (k : Nat) : QPair := Tbl.get s.host.qps k {}
def State.setQp (s : State) (k : Nat) (x : QPair) : State := { s with host := { s.host with qps := s.host.qps.set k x } }

/-- The key of a queue pair, and its port, function and queue. -/
def qpKey (p fn q : Nat) : Nat := 64 * fnKey p fn + q
def qpPort (k : Nat) : Nat := k / 64 / 257
def qpFn (k : Nat) : Nat := k / 64 % 257
def qpQueue (k : Nat) : Nat := k % 64

/-- The stall whose commands a queue pair carries (R376): the VF's bound stall, stall 0 for PF0. -/
def qpStall (s : State) (k : Nat) : Nat := if qpFn k = 0 then 0 else (vfStall s (qpPort k) (qpFn k)).getD 0

/-- A completion's contents beside its queue's (R378). -/
structure Compl where
  cmdId : Nat
  status : Nat
  spans : List Nat := []
  ports : List Nat := []
  count0 : Nat := 0
  count1 : Nat := 0
  count2 : Nat := 0
deriving DecidableEq, Repr

/-- Whether FIRST_SPAN and SPAN_COUNT are set for a status (R378). -/
def hasSpans (st : Nat) : Bool := [0x02, 0x10, 0x11, 0x13, 0x14, 0x15].contains st

/-- The 512 bits of a completion (R378). -/
def complWord (c : Compl) (phase : Bool) (q sqHead : Nat) : BitVec 512 :=
  let spans := sortNat c.spans
  let ports := sortNat c.ports
  let showSpans := hasSpans c.status && !spans.isEmpty
  let showPorts := c.status = 0x12 || c.status = 0x02
  let listed := if showPorts then ports.take 16 else []
  BitVec.ofNat 512 (c.cmdId % 65536 + c.status * 2 ^ 16 + (if phase then 2 ^ 24 else 0) +
    (if showPorts ∧ 16 < ports.length then 2 ^ 25 else 0) + q * 2 ^ 32 + sqHead * 2 ^ 48 +
    (if showSpans then spans.headD 0 % 2 ^ 32 * 2 ^ 64 + spans.length % 2 ^ 32 * 2 ^ 96 else 0) +
    (if showPorts then ports.length * 2 ^ 128 else 0) +
    c.count0 % 2 ^ 32 * 2 ^ 160 + c.count1 % 2 ^ 32 * 2 ^ 192 + c.count2 % 2 ^ 32 * 2 ^ 224 +
    (listed.zipIdx.foldl (fun n x => n + x.1 * 2 ^ (256 + 16 * x.2)) 0))

/-- The bytes of a 512-bit value, least significant first. -/
def bytes64 (w : BitVec 512) : List Byte := bytesOfNat 64 w.toNat

/-- Whether a queue pair's message is due (R379). -/
def messageDue (q : QPair) : Bool :=
  q.irqEn && (decide (q.coalTime = 0) || decide (q.coalCount.toNat ≤ q.sinceMsg))

/-- Post a completion to a queue pair and signal it (R378, R379); it passes none of the function's data writes (R77). A draining function's
completions are not posted (R386). -/
def postWord (k : Nat) (ep : Bool) (body : Bool → Nat → BitVec 512) (s : State) : State :=
  let q := s.qp k
  let p := qpPort k
  let fn := qpFn k
  if !fnWrites (s.fn p fn) ∨ s.host.fatal then s
  else
    let depth := 2 ^ q.cqLog2.toNat
    let w := body q.phase q.sqHead.toNat
    let wrap := decide (q.cqTail.toNat + 1 = depth)
    let q1 := { q with cqTail := if wrap then 0 else q.cqTail + 1, phase := if wrap then !q.phase else q.phase,
                       fetched := q.fetched - 1, held := q.held + 1, sinceMsg := q.sinceMsg + 1, unsignalled := true }
    let s1 := emitOrdered p fn (.hostWrite p fn (q.cqBase + BitVec.ofNat 64 (64 * q.cqTail.toNat)) (bytes64 w) false false ep) (s.setQp k q1)
    if messageDue q1 then sendMsix p fn q.vector.toNat (s1.setQp k { q1 with sinceMsg := 0, unsignalled := false }) else s1

/-- Post a command's completion (R378). -/
def postCompletion (k : Nat) (c : Compl) (s : State) : State :=
  postWord k false (fun phase sqHead => complWord c phase (qpQueue k) sqHead) s

/-- The slots of a CQ that are taken (R375): commands fetched and not completed, and completions not consumed. -/
def cqTaken (q : QPair) : Nat :=
  q.fetched + q.reading + q.held

/-- The commands of an SQ that are not fetched. -/
def sqWaiting (q : QPair) : Nat :=
  (q.sqTail.toNat + 2 ^ q.sqLog2.toNat - (q.sqHead.toNat + q.reading)) % 2 ^ q.sqLog2.toNat

/-- Read-modify-write of a function. -/
def mapFn (p fn : Nat) (f : HFn → HFn) (s : State) : State := s.setFn p fn (f (s.fn p fn))

end Sys2Proof.Machine
end

