-- ==== Sys2Proof/Machine/PortOps.lean ====
section
/-! DEFINITION. Drive ports and shelves as the engines and the links see them: messages, handing over commands, sending them, and wake
requests (R124–R134). -/

namespace Sys2Proof.Machine

/-! ## Messages (R124, R125) -/

/-- Unit 0 of a message. -/
def msgUnit0 (ty len port tag ext : Nat) : Word :=
  BitVec.ofNat 64 (ty + len * 2 ^ 8 + port * 2 ^ 20 + tag * 2 ^ 30 + ext * 2 ^ 38)

/-- READ, WRITE and TRIM (types 1 to 3) of `count` blocks. -/
def cmdUnits (ty port tag block count : Nat) : List Word :=
  [msgUnit0 ty 2 port tag 0, BitVec.ofNat 64 (block % 2 ^ 40 + count * 2 ^ 40)]

/-- SEAL of one block; the Nalser's POISON is zero (R52). -/
def sealUnits (port tag blk block : Nat) (seals : List Word) : List Word :=
  [msgUnit0 0x10 18 port tag blk, BitVec.ofNat 64 (block % 2 ^ 40 * 2 ^ 16)] ++ takePad 16 0 seals

/-- The words of consecutive bytes. -/
def wordsOf (n : Nat) (bytes : List Byte) : List Word := (List.range n).map (fun i => wordOfBytes ((bytes.drop (8 * i)).take 8))

/-- DATA of one block. -/
def dataUnits (port tag blk : Nat) (bytes : List Byte) : List Word :=
  msgUnit0 0x11 513 port tag blk :: wordsOf 512 bytes

/-- ABORT and IDENTIFY. -/
def shortUnits (ty port tag : Nat) : List Word := [msgUnit0 ty 1 port tag 0]

/-- POWER_SET for the slots of a link. -/
def powerUnits (link level req mask : Nat) : List Word :=
  [msgUnit0 0x30 2 (32 * link) 0 (level + req * 4), BitVec.ofNat 64 mask]

/-- The link that carries the ports of logical link `l`: its own, or the target of its failover (R117, R135). -/
def carrierOf (s : State) (l : Nat) : Nat := match (s.link l).carrier with | some t => t.val | none => l

/-- Put a message into a link's queue. -/
def sendMsg (l : Nat) (vc : Fin 4) (port : Nat) (units : List Word) (s : State) (uid : Option Nat := none)
    (starts : List Nat := [0]) : State :=
  let k := s.link l
  s.setLink l { k with txq := k.txq ++ [{ vc := vc, port := port, units := units, uid := uid, starts := starts }] }

/-- Whether a link end carries messages for its ports: it is ACTIVE, or comes back to it with what it holds (R96, R114, R130). -/
def linkCarries (k : Link) : Bool := decide (k.state = .active) || decide (k.state = .retrain) || decide (k.state = .quiet)

/-- Whether the link of a port carries it. -/
def portCarried (s : State) (p : Nat) : Bool := linkCarries (s.link (carrierOf s (p / 32)))

/-! ## Ports and shelves -/

/-- The shelf in effect for a port (R138). -/
def portShelf (s : State) (p : Nat) : Nat := odGet s (0x6400 + p) 0x03

/-- The owner stall of a port (R138). -/
def portOwner (s : State) (p : Nat) : Nat := odGet s (0x6400 + p) 0x02

/-- The member ports of a shelf. -/
def shelfPorts (s : State) (h : Nat) : List Nat := (List.range 1024).filter (fun p => decide (portShelf s p = h))

/-- Whether a shelf is awake for R15 and R71. -/
def shelfAwake (s : State) (h : Nat) : Bool := decide ((s.shelf h).state = .awake)

/-- Whether the port's shelf is awake. -/
def portAwake (s : State) (p : Nat) : Bool := shelfAwake s (portShelf s p)

/-- Every port or shelf state change raises the link's event source (R138). -/
def raiseLink (l : Nat) (s : State) : State := raise (0x500 + l) s

/-- Change the state of a port. -/
def setPortState (p : Nat) (st : PortState) (s : State) : State :=
  let x := s.port p
  if x.state = st then s else raiseLink (p / 32) (s.setPort p { x with state := st })

/-- The links that carry member ports of a shelf, by their own numbers. -/
def shelfLinks (s : State) (h : Nat) : List Nat := sortNat ((shelfPorts s h).map (· / 32))

/-- Change the state of a shelf. -/
def setShelfState (h : Nat) (st : ShelfState) (s : State) : State :=
  let x := s.shelf h
  if x.state = st then s
  else (shelfLinks s h).foldl (fun t l => raiseLink l t) (s.setShelf h { x with state := st })

/-- Whether a READY port of a shelf is sent commands (R130, R134). -/
def shelfSends (x : Shelf) : Bool := decide (x.state = .awake) || (decide (x.state = .closing) && !x.pastWindow)

/-- Whether a port may send a command now (R129, R130). -/
def mayIssue (s : State) (p : Nat) (c : DriveCmd) : Bool :=
  let x := s.port p
  decide (x.cmds.length < odGet s (0x6400 + p) 0x06) && portCarried s p &&
    (decide (c.op = 5) || (decide (x.state = .ready) && shelfSends (s.shelf (portShelf s p))))

/-- The lowest free tag of a port (R129). -/
def freeTag (x : Port) : BitVec 8 :=
  BitVec.ofNat 8 (((List.range 64).find? (fun t => !x.cmds.any (fun c => decide (c.tag = some (BitVec.ofNat 8 t))))).getD 0)

/-- The messages of a command under its tag (R125, R126): for each block of a WRITE its SEAL and its DATA. -/
def sendCmd (p : Nat) (c : DriveCmd) (tag : Nat) (s : State) : State :=
  let l := carrierOf s (p / 32)
  if c.op = 5 then sendMsg l 1 p (shortUnits 5 p tag) s
  else
    let uid := if c.op = 2 then some c.uid else none
    let s1 := sendMsg l 1 p (cmdUnits c.op p tag c.block c.count) s uid
    if c.op = 2 then
      (List.range c.count).foldl (fun t b =>
        sendMsg l 2 p (sealUnits p tag b (c.block + b) ((c.seals.drop (16 * b)).take 16) ++
                       dataUnits p tag b ((c.data.drop (4096 * b)).take 4096)) t uid [0, 18]) s1
    else s1

/-- Send one command of a port (R129). -/
def issueCmd (p : Nat) (c : DriveCmd) (s : State) : State :=
  let x := s.port p
  let tag := freeTag x
  sendCmd p c tag.toNat (odBump (0x6400 + p) 0x09
    (s.setPort p { x with cmds := x.cmds ++ [{ c with tag := some tag, held := false }] }))

/-- Send IDENTIFY to a port, or keep it as its oldest waiting command (R130). -/
def identify (p : Nat) (s : State) : State :=
  let c : DriveCmd := { op := 5 }
  if mayIssue s p c then issueCmd p c s
  else let x := s.port p
       if x.waiting.any (fun w => decide (w.op = 5)) then s else s.setPort p { x with waiting := c :: x.waiting }

/-- How a port answers a command without sending it: a status code of R127, or none where the command is held or will be sent (R130). -/
def portRefusal (x : Port) : Option Nat :=
  match x.state with
  | .absent => some 0x06
  | .offline => some 0x05
  | .new => some 0x05
  | .late => some 0x05
  | .failed => some 0x05
  | .retired => some 0x05
  | .asleep => none
  | .waking => none
  | .ready => none

/-! ## Wake requests (R132) -/

/-- A wake request takes its place by arrival: CONTROL's and held work's each their own, since only CONTROL's can be cancelled. -/
def askWake (h : Nat) (work : Bool) (s : State) : State :=
  if s.wakeQueue.contains (h, work) then s else { s with wakeQueue := s.wakeQueue ++ [(h, work)] }

/-- Work that waits asks for its shelf; a WAKING or AWAKE shelf is not asked again, another keeps its place by arrival. -/
def requestWake (h : Nat) (s : State) : State :=
  let x := s.shelf h
  if x.state = .waking ∨ x.state = .awake then s
  else
    askWake h true s

/-- Whether a READY port's shelf is CLOSING past its DL_WINDOW (R134). -/
def pastClosing (s : State) (p : Nat) : Bool :=
  let h := s.shelf (portShelf s p)
  decide ((s.port p).state = .ready) && decide (h.state = .closing) && h.pastWindow

/-- Hand a command to a port, which queues it in arrival order (R129). From DL_WINDOW a command that waits at a CLOSING shelf is held and asks
for the shelf's next window (R134). -/
def handOver (p : Nat) (c : DriveCmd) (s : State) : State :=
  let x := s.port p
  let late := pastClosing s p
  let s1 := s.setPort p { x with waiting := x.waiting ++ [{ c with held := late }] }
  if late then requestWake (portShelf s p) s1 else s1

/-- Send POWER_SET on a logical link for some of its slots, under the next REQ (R133); the REQ used. -/
def powerSet (l level mask : Nat) (s : State) : BitVec 8 × State :=
  let t := carrierOf s l
  let k := s.link t
  let req := k.powerReq + 1
  (req, sendMsg t 0 (32 * l) (powerUnits l level req.toNat mask) (s.setLink t { k with powerReq := req }))

/-- The slots of a link's members of a shelf that are neither ABSENT nor RETIRED (R133). -/
def slotMask (s : State) (h l : Nat) : Nat :=
  ((shelfPorts s h).filter (fun p => decide (p / 32 = l) && decide ((s.port p).state ≠ .absent) &&
      decide ((s.port p).state ≠ .retired))).foldl (fun n p => n + 2 ^ (p % 32)) 0

/-- Whether a link is up or trains, so that what is queued on it will be sent. -/
def linkStands (k : Link) : Bool := decide (k.state ≠ .disabled) && decide (k.state ≠ .failed) && decide (k.state ≠ .mismatch)

/-- Send POWER_SET on every link of a shelf that carries its ports and await their POWER_DONE (R133, R135). A link that trains sends it once it
is ACTIVE; one that is being failed over has it sent on its target (R117, R135). -/
def powerShelf (h level : Nat) (s : State) : State :=
  let await (l : Nat) (req : BitVec 8) (t : State) : State :=
    t.setShelf h { t.shelf h with awaiting := (t.shelf h).awaiting ++ [(l, req, decide (level = 1))] }
  (shelfLinks s h).foldl (fun t l =>
    let k := t.link (carrierOf t l)
    if linkStands k then let r := powerSet l level (slotMask t h l) t; await l r.1 r.2
    else if (t.link l).failoverOn.isSome then await l k.powerReq t
    else t) s

/-- Whether every link of a shelf has answered the POWER_SET that puts it to sleep. -/
def sleepAnswered (x : Shelf) : Bool := x.awaiting.all (fun a => a.2.2)

/-- A CLOSING shelf leaves it when no command is outstanding on any member port and, before DL_WINDOW, none is waiting (R134). -/
def closingDone (s : State) (h : Nat) : Bool :=
  (shelfPorts s h).all (fun p =>
    let x := s.port p
    x.cmds.all (fun c => c.outcomeGiven) && ((s.shelf h).pastWindow || x.waiting.all (fun c => decide (c.op = 5))))

/-- A shelf is ASLEEP: its READY ports are too (R130, R132). -/
def shelfAsleep (h : Nat) (s : State) : State :=
  let s1 := setShelfState h .asleep (s.setShelf h { s.shelf h with awaiting := (s.shelf h).awaiting.filter (fun a => a.2.2), pastWindow := false })
  (shelfPorts s1 h).foldl (fun t p =>
    let x := t.port p
    if x.state = .ready then setPortState p .asleep t
    else if x.state = .offline ∧ x.prior = .ready then t.setPort p { x with prior := .asleep }
    else t) s1

/-- A CLOSING shelf with nothing left to do goes to SLEEPING (R132, R134). -/
def trySleep (h : Nat) (s : State) : State :=
  if (s.shelf h).state = .closing ∧ closingDone s h then
    let s1 := powerShelf h 0 (setShelfState h .sleeping s)
    if sleepAnswered (s1.shelf h) then shelfAsleep h s1 else s1
  else s

end Sys2Proof.Machine
end

