-- ==== Sys2Proof/Machine/EngineOps.lean ====
section
/-! DEFINITION. What the stripe engines share: descriptors and placement records, the code over GF(2^8), where a stripe in hand is, the
interlock, memory and host transfers, and the end of a command (R57–R87). -/

namespace Sys2Proof.Machine

/-! ## Descriptors and placement records (R63, R64) -/

/-- A field of a descriptor. -/
def dfld (d : BitVec 512) (lo w : Nat) : Nat := natField d.toNat lo w

def dOp (d : BitVec 512) : Nat := dfld d 0 8
def dSealBuf (d : BitVec 512) : Bool := d.getLsbD 8 && decide (dfld d 128 64 ≠ 0)
def dMemSide (d : BitVec 512) : Bool := d.getLsbD 9
def dForce (d : BitVec 512) : Bool := d.getLsbD 10
def dRelaxed (d : BitVec 512) : Bool := d.getLsbD 11
def dFence (d : BitVec 512) : Bool := d.getLsbD 12
def dCtx (d : BitVec 512) : Nat := dfld d 16 16
def dCmdId (d : BitVec 512) : Nat := dfld d 32 16
def dData (d : BitVec 512) : Nat := dfld d 64 64
def dSealAddr (d : BitVec 512) : Nat := dfld d 128 64
def dPlace (d : BitVec 512) : Nat := dfld d 192 64
def dFirst (d : BitVec 512) : Nat := dfld d 256 48
def dCount (d : BitVec 512) : Nat := dfld d 304 16
def dLength (d : BitVec 512) : Nat := dfld d 320 40
def dAux (d : BitVec 512) : Nat := dfld d 384 64
def dAuxWord (d : BitVec 512) : Nat := dfld d 448 64

/-- A geometry (R64, R67): data and parity counts and the stripe unit. -/
structure Geo where
  k : Nat
  m : Nat
  unit : Nat
deriving DecidableEq, Repr

def Geo.spans (g : Geo) : Nat := 16 * 2 ^ g.unit
def Geo.bytes (g : Geo) : Nat := 4096 * 2 ^ g.unit
/-- Payload bytes of a stripe. -/
def Geo.payload (g : Geo) : Nat := g.k * g.bytes

def geoOf (place : List Word) : Geo :=
  let h := (place.headD 0).toNat
  ⟨natField h 0 5, natField h 5 3, natField h 8 3⟩

/-- Whether a geometry is supported (R67). -/
def geoOk (g : Geo) : Bool :=
  decide (2 ≤ g.k ∧ g.k ≤ 24 ∧ 1 ≤ g.m ∧ g.m ≤ 4 ∧ g.m ≤ g.k ∧ g.k + g.m ≤ 28 ∧ g.unit ≤ 4)

def entryOf (place : List Word) (f : Nat) : Nat := (place.getD (f + 1) 0).toNat
def entPort (w : Nat) : Nat := natField w 0 10
def entAlt (w : Nat) : Option Nat := if natBit w 10 then some (natField w 11 10) else none
def entBase (w : Nat) : Nat := natField w 24 40

/-- A fragment of stripe `n` under a placement record. -/
def fragOf (place : List Word) (n f : Nat) : Frag :=
  let w := entryOf place f
  { port := entPort w, alt := entAlt w, block := entBase w + n * 2 ^ (geoOf place).unit }

/-- Every port and valid alternate port of a record (R65). -/
def placePorts (place : List Word) : List Nat :=
  (List.range ((geoOf place).k + (geoOf place).m)).flatMap (fun f =>
    entPort (entryOf place f) :: (match entAlt (entryOf place f) with | some a => [a] | none => []))

/-! ## The code (R68, R73) -/

/-- The coefficient c(j, i). -/
def coef (j i : Nat) : Byte :=
  let y := BitVec.ofNat 8 (i + 4)
  gf8Mul y (gf8Inv (BitVec.ofNat 8 j ^^^ y))

/-- The row that gives fragment `f` from the data fragments. -/
def codeRow (k f : Nat) : List Byte :=
  (List.range k).map (fun i => if f < k then (if i = f then 1 else 0) else coef (f - k) i)

/-- The sum of two rows of bytes. -/
def xorBytes (a b : List Byte) : List Byte := List.zipWith (fun x y => x ^^^ y) a b

/-- A row of bytes times a byte. -/
def scaleBytes (c : Byte) (a : List Byte) : List Byte := if c = 1 then a else a.map (gf8Mul c)

/-- Σ c_i · a_i over rows of `n` bytes. -/
def combine (n : Nat) (l : List (Byte × List Byte)) : List Byte :=
  l.foldl (fun acc x => if x.1 = 0 then acc else xorBytes acc (scaleBytes x.1 (takePad n 0 x.2))) (List.replicate n 0)

/-- The same combination of seals (R40). -/
def combineSeals (n : Nat) (l : List (Byte × List Word)) : List Word :=
  (List.range n).map (fun t => l.foldl (fun acc x => acc ^^^ sealScale x.1 (x.2.getD t 0)) 0)

/-- One column of Gauss's elimination on an augmented matrix. -/
def eliminate (m : List (List Byte)) (col : Nat) : List (List Byte) :=
  match (m.zipIdx.find? (fun x => decide (col ≤ x.2) && decide (x.1.getD col 0 ≠ 0))) with
  | none => m
  | some (prow, i) =>
    let p := scaleBytes (gf8Inv (prow.getD col 0)) prow
    let swapped := m.zipIdx.map (fun x => if x.2 = i then m.getD col [] else x.1)
    swapped.zipIdx.map (fun x => if x.2 = col then p else xorBytes x.1 (scaleBytes (x.1.getD col 0) p))

/-- The inverse of the rows of the good fragments: row `i` gives data fragment `i` from them. -/
def decodeMatrix (k : Nat) (good : List Nat) : List (List Byte) :=
  let aug := good.zipIdx.map (fun x => codeRow k x.1 ++ (List.range k).map (fun i => if i = x.2 then (1 : Byte) else 0))
  ((List.range k).foldl eliminate aug).map (fun r => r.drop k)

/-- The coefficients of fragment `f` over the good fragments. -/
def decodeCoefs (k : Nat) (good : List Nat) (f : Nat) : List Byte :=
  let inv := decodeMatrix k good
  (codeRow k f).zipIdx.foldl (fun acc x => xorBytes acc (scaleBytes x.1 (inv.getD x.2 []))) (List.replicate k 0)

/-- The seals of a fragment's bytes, span by span. -/
def sealsOf (n : Nat) (bytes : List Byte) : List Word :=
  (List.range n).map (fun t => sealOf (takePad 256 0 ((bytes.drop (256 * t)).take 256)))

/-- The parity fragments made from the data fragments, with their derived seals (R69). -/
def encodeFrags (g : Geo) (frags : List Frag) : List Frag :=
  let data := frags.take g.k
  frags.zipIdx.map (fun x =>
    if x.2 < g.k then x.1
    else
      let row := codeRow g.k x.2
      { x.1 with bytes := combine g.bytes (List.zipWith (fun c d => (c, d.bytes)) row data),
                 seals := combineSeals g.spans (List.zipWith (fun c d => (c, d.seals)) row data) })

/-- A fragment made from good ones, with its derived seals (R73). -/
def rebuildFrag (g : Geo) (frags : List Frag) (good : List Nat) (f : Nat) : Frag :=
  let x := frags.getD f { port := 0, block := 0 }
  let cs := decodeCoefs g.k good f
  let src := good.map (fun i => frags.getD i { port := 0, block := 0 })
  { x with bytes := combine g.bytes (List.zipWith (fun c d => (c, d.bytes)) cs src),
           seals := combineSeals g.spans (List.zipWith (fun c d => (c, d.seals)) cs src) }

/-! ## Commands and stripes in hand -/

/-- Change every engine. -/
def mapEngines (f : Engine → Engine) (s : State) : State :=
  { s with eng := { s.eng with engines := s.eng.engines.map (fun x => (x.1, f x.2)) } }

/-- An active command with its engine. -/
def cmdAt (s : State) (id : Nat) : Option (Nat × Cmd) :=
  (List.range 8).findSome? (fun e => ((s.engine e).active.find? (fun c => decide (c.id = id))).map (fun c => (e, c)))

/-- Replace an active command. -/
def setCmd (c : Cmd) (s : State) : State :=
  mapEngines (fun e => { e with active := e.active.map (fun x => if x.id = c.id then c else x) }) s

/-- Change an active command. -/
def modCmd (id : Nat) (f : Cmd → Cmd) (s : State) : State :=
  mapEngines (fun e => { e with active := e.active.map (fun x => if x.id = id then f x else x) }) s

/-- A stripe wherever it is. -/
def findStripe (s : State) (uid : Nat) : Option Stripe :=
  let inEngines := (List.range 8).findSome? (fun k =>
    let e := s.engine k
    ((e.slots.map (·.2)) ++ e.flying ++ e.regen).find? (fun x => decide (x.uid = uid)))
  match inEngines with
  | some x => some x
  | none => s.eng.pool.find? (fun x => decide (x.uid = uid))

/-- Replace a stripe where it is. -/
def setStripe (st : Stripe) (s : State) : State :=
  let sub (x : Stripe) : Stripe := if x.uid = st.uid then st else x
  let s1 := mapEngines (fun e => { e with slots := e.slots.map (fun x => (x.1, sub x.2)), flying := e.flying.map sub,
                                          regen := e.regen.map sub }) s
  { s1 with eng := { s1.eng with pool := s1.eng.pool.map sub } }

/-- Take a stripe from where it is; its host reads are forgotten. -/
def takeStripe (uid : Nat) (s : State) : State :=
  let keep (x : Stripe) : Bool := decide (x.uid ≠ uid)
  let s1 := mapEngines (fun e => { e with slots := e.slots.filter (fun x => keep x.2), flying := e.flying.filter keep,
                                          regen := e.regen.filter keep,
                                          reads := e.reads.filter (fun r => decide (r.2.1 ≠ uid)) }) s
  { s1 with eng := { s1.eng with pool := s1.eng.pool.filter keep } }

/-- Put a stripe into a slot, among those on their way, among those to be made again, or into the pool. -/
def putSlot (e i : Nat) (st : Stripe) (s : State) : State :=
  let x := s.engine e
  s.setEngine e { x with slots := x.slots.set i st }
def putFlying (e : Nat) (st : Stripe) (s : State) : State :=
  let x := s.engine e
  s.setEngine e { x with flying := x.flying ++ [st] }
def putRegen (e : Nat) (st : Stripe) (s : State) : State :=
  let x := s.engine e
  s.setEngine e { x with regen := x.regen ++ [st] }
def putPool (st : Stripe) (s : State) : State := { s with eng := { s.eng with pool := s.eng.pool ++ [st] } }

/-- Whether a WRITE of a stripe has still to be sent: it waits at its port, or part of it in its link's queue. -/
def unsentBytes (s : State) (uid : Nat) : Bool :=
  s.ports.any (fun x => x.2.waiting.any (fun c => decide (c.op = 2) && decide (c.uid = uid))) ||
    s.links.any (fun x => x.2.txq.any (fun m => decide (m.uid = some uid)))

/-- Whether a slot's last fragment byte has been sent (R71); a readback's slot holds the fragments of the buffered stripe it names. -/
def slotSent (s : State) (st : Stripe) : Bool := decide (st.stage = .flying) && !unsentBytes s (st.feeds.getD st.uid)

/-- The slots whose last fragment byte has been sent are free (R71): the stripe is on its way, or waits for a slot where a fragment of it
is to be made again. -/
def sweepSent (e : Nat) (s : State) : State :=
  (((s.engine e).slots.map (·.2)).filter (slotSent s)).foldl (fun t st =>
    let t1 := takeStripe st.uid t
    if st.src = .pool then t1
    else if st.frags.any (fun f => decide (f.state = .todo)) then putRegen e st t1
    else putFlying e st t1) s

/-- A free slot of an engine. -/
def freeSlot (s : State) (e : Nat) : Option Nat :=
  (List.range 4).find? (fun i => !(s.engine e).slots.any (fun x => decide (x.1 = i)))

/-- The stripe in a slot. -/
def slotStripe (s : State) (e i : Nat) : Option Stripe := ((s.engine e).slots.find? (fun x => decide (x.1 = i))).map (·.2)

/-- The engine that works on a stripe: its command's. -/
def stripeEngine (s : State) (st : Stripe) : Nat := match cmdAt s st.cmd with | some (e, _) => e | none => 0

/-- A number for a new stripe. -/
def freshUid (s : State) : Nat × State := (s.eng.nextUid, { s with eng := { s.eng with nextUid := s.eng.nextUid + 1 } })

/-- Replace fragment `f`. -/
def setFrag (st : Stripe) (f : Nat) (x : Frag) : Stripe := { st with frags := st.frags.set f x }

/-- Whether nothing of a stripe has been sent (R19). -/
def unsent (st : Stripe) : Bool :=
  st.frags.all (fun f => !f.retried && !f.reissued && f.faults.isEmpty && decide (f.state ≠ .sent) && decide (f.state ≠ .durable))

/-- Whether a stripe is written a first time: no fragment of it has been sent or refused. -/
def freshWrite (st : Stripe) : Bool := st.write && unsent st

/-! ## The interlock (R80) -/

/-- The bank of a key. -/
def bankOf (k : Nat × Nat) : Nat := (Config.interlockBank k.1 k.2).val

def bankCount (s : State) (b : Nat) : Nat := (s.eng.locks.filter (fun l => decide (bankOf (l.1, l.2.1) = b))).length

/-- Whether a key can be entered: no stripe holds it. -/
def keyFree (s : State) (k : Nat × Nat) : Bool := !s.eng.locks.any (fun l => decide ((l.1, l.2.1) = k))

/-- Enter a key for a stripe. -/
def enterKey (k : Nat × Nat) (uid : Nat) (s : State) : State :=
  { s with eng := { s.eng with locks := s.eng.locks ++ [(k.1, k.2, uid)],
                               lockWait := s.eng.lockWait.filter (fun w => decide (w.2.2 ≠ uid)) } }

/-- Leave the interlock, or its waiting line. -/
def leaveKey (uid : Nat) (s : State) : State :=
  { s with eng := { s.eng with locks := s.eng.locks.filter (fun l => decide (l.2.2 ≠ uid)),
                               lockWait := s.eng.lockWait.filter (fun w => decide (w.2.2 ≠ uid)) } }

/-- Enter the interlock or wait for it: a wait for a full bank is counted. -/
def tryKey (e : Nat) (k : Nat × Nat) (uid : Nat) (s : State) : Bool × State :=
  let wait (t : State) : State := { t with eng := { t.eng with lockWait := t.eng.lockWait ++ [(k.1, k.2, uid)] } }
  if !keyFree s k || s.eng.lockWait.any (fun w => decide ((w.1, w.2.1) = k)) then (false, wait s)
  else if 4096 ≤ bankCount s (bankOf k) then (false, wait (odBump (0x7001 + e) 0x05 s))
  else (true, enterKey k uid s)

/-! ## Ends -/

/-- The first failure sets a command's status; spans and ports at fault with that status are collected (R19, R378). -/
def addFault (st : Nat) (spans ports : List Nat) (c : Cmd) : Cmd :=
  let c1 := if c.status = 0 then { c with status := BitVec.ofNat 8 st } else c
  if c1.status.toNat = st then { c1 with spans := c1.spans ++ spans, ports := c1.ports ++ ports } else c1

/-- The status a command ends with (R83). -/
def endStatus (c : Cmd) : Nat := if c.status ≠ 0 then c.status.toNat else if c.r21 then 0x01 else 0x00

/-- The completion of a command; with NOT_DURABLE it lists every port at which a write failed (R18, R378). -/
def cmdCompl (c : Cmd) (st : Nat) : Compl :=
  { cmdId := dCmdId c.desc, status := st, spans := c.spans, ports := if st = 0x12 then c.wports else c.ports, count0 := c.count0, count1 := c.count1, count2 := c.count2 }

/-- Post the completion of a command to its queue, or hand it to firmware (R63, R378). -/
def postCmd (c : Cmd) (st : Nat) (s : State) : State :=
  if c.silent then s
  else match c.src with
    | .queue k => postCompletion k (cmdCompl c st) s
    | .firmware => { s with eng := { s.eng with fwDone := s.eng.fwDone ++ [complWord (cmdCompl c st) false (dfld c.desc 58 6) 0] } }

/-- A context after a descriptor of it has ended (R59, R60): the last one takes ACTIVE to IDLE and DRAINING to FREE. -/
def ctxEnded (x : Ctx) : Ctx :=
  if x.active = 0 ∧ x.queued = 0 then
    (match x.state with
     | .active => { x with state := .idle }
     | .draining => { engine := x.engine, spilled := x.spilled }
     | _ => x)
  else x

/-- Payload bytes that count as done. -/
def doneBytes (c : Cmd) (st : Nat) : Nat := if st ≤ 1 ∧ 1 ≤ dOp c.desc ∧ dOp c.desc ≤ 8 then dLength c.desc else 0

/-- The end of a descriptor in its context's record (R58). -/
def countEnd (c : Cmd) (st : Nat) (wasActive : Bool) (s : State) : State :=
  let n := dCtx c.desc
  let x := s.ctx n
  s.setCtx n (ctxEnded { x with active := if wasActive then x.active - 1 else x.active,
                                queued := if wasActive then x.queued else x.queued - 1,
                                bytesDone := x.bytesDone + BitVec.ofNat 64 (doneBytes c st),
                                faults := if st = 0x13 ∧ x.faults ≠ 0xFFFFFFFF then x.faults + 1 else x.faults })

/-- The commands of an engine system that satisfy a condition: queued ones and active ones. -/
def cmdsWhere (s : State) (f : Cmd → Bool) : List Cmd := (List.range 8).flatMap (fun e => (s.engine e).queue.filter f ++ (s.engine e).active.filter f)

/-- Whether an earlier descriptor of the same context is not complete (R62). -/
def earlierOpen (s : State) (c : Cmd) : Bool :=
  let before (x : Cmd) : Bool := decide (dCtx x.desc = dCtx c.desc) && decide (x.id < c.id)
  !(cmdsWhere s before).isEmpty || s.eng.held.any before

/-- Whether a descriptor starts only after every earlier one of its context (R62). -/
def fences (d : BitVec 512) : Bool := dFence d || decide (dOp d = 10)

/-- With no active engine, a NOP or FENCE completes SUCCESS, one that fences once every earlier descriptor of its context has (R85). -/
def completeHeld (s : State) : State :=
  s.eng.held.foldl (fun t c =>
    if fences c.desc && earlierOpen t c then t
    else postCmd c 0 { t with eng := { t.eng with held := t.eng.held.filter (fun x => decide (x.id ≠ c.id)) } }) s

/-- A command ends: it leaves its engine, its context counts it and its completion is posted. -/
def endCmd (c : Cmd) (st : Nat) (s : State) : State :=
  let wasActive := (cmdAt s c.id).isSome
  let s1 := mapEngines (fun e => { e with active := e.active.filter (fun x => decide (x.id ≠ c.id)),
                                          queue := e.queue.filter (fun x => decide (x.id ≠ c.id)) }) s
  completeHeld (postCmd c st (countEnd c st wasActive s1))

/-- End a command that has started all its stripes and has none in hand. -/
def finishCmd (id : Nat) (s : State) : State :=
  match cmdAt s id with
  | none => s
  | some (_, c) => if c.checked ∧ c.stripes ≤ c.next ∧ c.live = 0 ∧ c.release.isEmpty then endCmd c (endStatus c) s else s

/-- The geometry of a stripe: REENCODE writes under the record at AUX_ADDR (R75). -/
def stGeo (c : Cmd) (st : Stripe) : Geo := if dOp c.desc = 6 ∧ st.write then geoOf c.aux else geoOf c.place

/-- The spans of a command's payload. -/
def payloadSpans (c : Cmd) : Nat := (dLength c.desc + 255) / 256

/-- The spans of a stripe that belong to the payload. -/
def stripeSpans (c : Cmd) (g : Geo) (st : Stripe) : Nat := min (g.k * g.spans) (payloadSpans c - st.index * (g.k * g.spans))

/-- Count events in an engine's block (R513). -/
def countEngine (e event n : Nat) (s : State) : State := countUncore (0x118 + e) event n s

/-- A stripe completes, with any status, in its context's record (R58) and with its payload in its engine's counters (R513; log entry 207);
chunks of SEAL and VERIFY and what REENCODE reads are none. -/
def countStripe (st : Stripe) (s : State) : State :=
  match cmdAt s st.cmd with
  | none => s
  | some (e, c) =>
    if dOp c.desc = 7 ∨ dOp c.desc = 8 ∨ (dOp c.desc = 6 ∧ !st.write) then s
    else
      let n := dCtx c.desc
      let x := s.ctx n
      countEngine e 2 (stripeSpans c (stGeo c st) st / 4) (countEngine e 1 1 (s.setCtx n { x with stripesDone := x.stripesDone + 1 }))

/-- A stripe of a command is over: it leaves the interlock and every list, and its context counts it. -/
def endStripe (st : Stripe) (f : Cmd → Cmd) (s : State) : State :=
  finishCmd st.cmd (modCmd st.cmd (fun c => f { c with live := c.live - 1, done := c.done + 1 })
    (countStripe st (takeStripe st.uid (leaveKey st.uid s))))

/-- Drop the stripes of a command of which nothing has been sent (R19), but for those that `keep` names: slots, waiting lines and the pool
forget them. -/
def dropUnsent (id : Nat) (s : State) (keep : Stripe → Bool := fun _ => false) : State :=
  let all := (List.range 8).flatMap (fun k => let e := s.engine k; (e.slots.map (·.2)) ++ e.flying ++ e.regen) ++ s.eng.pool
  let gone := all.filter (fun st => decide (st.cmd = id) && unsent st && !keep st)
  let s1 := gone.foldl (fun t st => takeStripe st.uid (leaveKey st.uid t)) s
  let uids := gone.map (·.uid)
  let s2 := { s1 with ports := s1.ports.map (fun x =>
    (x.1, { x.2 with waiting := x.2.waiting.filter (fun w => decide (w.op = 5) || !uids.contains w.uid) })) }
  modCmd id (fun c => { c with live := c.live - gone.length, next := c.stripes, release := [] }) s2

/-- A failure of R19 and the like: no further stripe of the command starts sending. -/
def failCmd (id st : Nat) (spans : List Nat) (s : State) (keep : Stripe → Bool := fun _ => false) : State :=
  finishCmd id (dropUnsent id (modCmd id (addFault st spans []) s) keep)

/-- An ENGINE_FAULT event of an engine is counted (R86). -/
def countEngineFault (e : Nat) (s : State) : State :=
  let x := s.engine e
  odBump (0x7001 + e) 0x03 (s.setEngine e { x with faultsHour := x.faultsHour + 1 })

/-- A record of the fault log about an engine (R439). -/
def engineRec (e cause : Nat) (cls : BitVec 2) (stall : Nat) (s : State) : State :=
  raise (0x520 + e) (record { kind := 0x08, cls := cls, resource := resource 7 e, cause := cause, stall := stall } s)

/-! ## Memory and host transfers (R77, R78) -/

/-- The attributes of an engine's requests for a stall. -/
def engAttr (s : State) (n : Nat) : Attr := { stall := n, agent := 1, sealPage := true, strict := (s.stall n).strictActive }

/-- The attributes of an inbound access: the stall of its window, a host agent, and those of its page (R278, R320, R337). -/
def hostAttr (n : Nat) (x : Xlat) : Attr := { stall := n, agent := 2, sealPage := x.sealPage, noAlloc := x.noAlloc }

/-- What an engine's read of memory found: the bytes, the seal, and whether the span may not be used. -/
structure SpanRead where
  bytes : List Byte
  sl : Word
  bad : Bool
deriving DecidableEq, Repr

/-- A sector that an engine has read is allocated in the LLC where it was absent and its page's CACHE lets it (R268, R277, R320); the engine has
checked it itself (R45). -/
def engineFill (n sec : Nat) (noAlloc : Bool) (s : State) : State :=
  (List.range 4).foldl (fun t k => fillLine { engAttr t n with sealPage := false, noAlloc := noAlloc } (4 * sec + k) t)
    (if (List.range 4).all (fun k => homeHolds s (4 * sec + k)) then s else countHome (4 * sec) 2 1 s)

/-- An engine reads one span through its home, checked against its seal (R50 point 0x4, R78): a mismatch poisons it. -/
def memSpan (n sec : Nat) (noAlloc : Bool) (s : State) : SpanRead × State :=
  let s1 := engineFill n sec noAlloc (cleanSpan (engAttr s n) sec (lookup (4 * sec) (wakeHome (4 * sec) (quietRange (256 * sec) 1 s))))
  let ws := readSpan s1 sec
  let sl := spanSeal s1 sec
  let bytes := ws.flatMap sealBytes
  if spanPoisoned ws then (⟨bytes, sl, true⟩, s1)
  else if sealMatches ws sl then (⟨bytes, sl, false⟩, s1)
  else (⟨bytes, sl, true⟩,
        recordSeal { point := 4, cls := 1, poisoned := true, locKind := 0, locator := sec, stall := n,
                     computed := sealOfWords ws, expected := sl } (poisonSpan sec s1))

/-- The span at an I/O virtual address of a stall; none where it does not translate. -/
def ioSpan (e n va : Nat) (s : State) : Option SpanRead × State :=
  match ioLookup (e / 4) n va false s with
  | (none, s1) => (none, s1)
  | (some x, s1) => let r := memSpan n (x.pa / 256) x.noAlloc s1; (some r.1, r.2)

/-- What a read of several spans found. -/
structure IoBytes where
  bytes : List Byte := []
  fault : Bool := false
  bad : Bool := false
deriving DecidableEq, Repr

/-- `len` bytes at an I/O virtual address, span by span. -/
def ioBytes (e n va len : Nat) (s : State) : IoBytes × State :=
  let first := va / 256
  let cnt := if len = 0 then 0 else (va + len - 1) / 256 - first + 1
  let r := (List.range cnt).foldl (fun (a : IoBytes × State) i =>
    match ioSpan e n (256 * (first + i)) a.2 with
    | (none, t) => ({ a.1 with fault := true, bytes := a.1.bytes ++ List.replicate 256 0 }, t)
    | (some x, t) => ({ a.1 with bytes := a.1.bytes ++ x.bytes, bad := a.1.bad || x.bad }, t)) ({}, s)
  ({ r.1 with bytes := (r.1.bytes.drop (va % 256)).take len }, r.2)

/-- Write a whole span with its seal at an I/O virtual address: none where it does not translate, otherwise whether the home found it good,
which it tells the engine (R50 point 0x5). -/
def ioWriteSpan (e n va : Nat) (ws : List TWord) (sl : Word) (s : State) : Option Bool × State :=
  match ioLookup (e / 4) n va true s with
  | (none, s1) => (none, s1)
  | (some x, s1) => let r := spanStore (engAttr s1 n) (x.pa / 256) ws sl 0 s1; (some r.1, r.2)

/-- Write one seal at an I/O virtual address as a sub-block write tagged BYTES (R78). -/
def ioWriteSeal (e n va : Nat) (sl : Word) (s : State) : Bool × State :=
  match ioLookup (e / 4) n va true s with
  | (none, s1) => (false, s1)
  | (some x, s1) => (true, dmaWrite (engAttr s1 n) x.pa (wordBytes sl) .bytes 2 s1)

/-- Host reads of consecutive bytes: at most 1 KiB each, not across a 4 KiB boundary (R77). -/
def hostChunks (addr len off : Nat) (isSeal : Bool) (fuel : Nat) : List HRead :=
  match fuel with
  | 0 => []
  | fuel + 1 =>
    if len = 0 then []
    else
      let n := min len (min 1024 (4096 - addr % 4096))
      { addr := addr, len := n, off := off, isSeal := isSeal } :: hostChunks (addr + n) (len - n) (off + n) isSeal fuel

/-- The port and function that carry a command's host transfers (R63, R376). -/
def cmdFn (c : Cmd) : Nat × Nat :=
  match c.src with
  | .queue k => (qpPort k, qpFn k)
  | .firmware => (dfld c.desc 57 1, 0)

/-- A command's write to host memory (R22, R77); a command whose function has drained sends none (R386). -/
def cmdWrite (c : Cmd) (addr : Nat) (data : List Byte) (ep : Bool) (s : State) : State :=
  if c.silent then s else hostWrite (cmdFn c).1 (cmdFn c).2 addr data (dRelaxed c.desc) ep s

/-- Send the host reads of a stripe while the engine has fewer than 256 outstanding (R57) and the controller fewer than 768 (R363). -/
def pumpStripe (e uid : Nat) (s : State) : State :=
  match findStripe s uid with
  | none => s
  | some st =>
    match cmdAt s st.cmd with
    | none => s
    | some (_, c) =>
      let n := min (256 - (s.engine e).reads.length) (768 - nonPosted s (fnLink s (cmdFn c).1 (cmdFn c).2))
      let s1 := setStripe { st with todoReads := st.todoReads.drop n, pendingReads := st.pendingReads + (st.todoReads.take n).length } s
      (st.todoReads.take n).foldl (fun t r =>
        let x := t.engine e
        let tag := x.nextTag
        hostRead (cmdFn c).1 (cmdFn c).2 r.addr r.len tag
          (t.setEngine e { x with nextTag := tag + 1, reads := x.reads ++ [(tag, uid, { r with fn := fnKey (cmdFn c).1 (cmdFn c).2 })] })) s1

/-- Send what host reads an engine's slots still wait to send. -/
def pumpEngine (e : Nat) (s : State) : State := ((s.engine e).slots.map (·.2.uid)).foldl (fun t u => pumpStripe e u t) s

/-- Send what host reads the engines still wait to send, from the engine after the one that has had an answer on (log entry 162). -/
def pump (e : Nat) (s : State) : State := ((List.range 8).map (fun i => (e + 1 + i) % 8)).foldl (fun t k => pumpEngine k t) s

/-- A list with consecutive items replaced from a position. -/
def overlay {α : Type} (l : List α) (off : Nat) (x : List α) : List α := l.take off ++ x ++ l.drop (off + x.length)

/-! ## The staging pool (R79) -/

/-- Bytes a stripe takes in the pool. -/
def stripeBytes (st : Stripe) : Nat := (st.frags.map (fun f => f.bytes.length)).foldl (· + ·) 0

/-- Whether the buffered path is enabled. -/
def poolOn (s : State) : Bool := decide (odGet s 0x7000 0x08 ≠ 0)

/-- The spans a stripe takes in the pool: fragment, span of it, and place within the stripe. -/
def poolSpans (st : Stripe) : List (Nat × Nat × Nat) :=
  ((st.frags.zipIdx.flatMap (fun x => (List.range (x.1.bytes.length / 256)).map (fun t => (x.2, t)))).zipIdx).map (fun x => (x.1.1, x.1.2, x.2))

/-- Where `n` spans find room in the pool: the lowest place, at its start or behind a stripe, that overlaps none (log entry 184). -/
def poolHole (s : State) (n : Nat) : Option Nat :=
  let held := s.eng.pool.map (fun x => (x.poolAt, x.poolAt + stripeBytes x / 256))
  let fits (a : Nat) : Bool := decide (256 * (a + n) ≤ odGet s 0x7000 0x08 * 2 ^ 30) && held.all (fun h => decide (a + n ≤ h.1) || decide (h.2 ≤ a))
  (sortNat (0 :: held.map (·.2))).find? fits

/-- Whether the pool has room for a stripe. -/
def poolRoom (s : State) (st : Stripe) : Bool := (poolHole s (stripeBytes st / 256)).isSome

/-- A stripe is written to the pool, span by span with its seals, in stall 0's memory (R16, R71, R78, R79). -/
def writePool (st : Stripe) (s : State) : State :=
  (poolSpans st).foldl (fun t x =>
    let f := st.frags.getD x.1 { port := 0, block := 0 }
    let ws := (wordsOf 32 ((f.bytes.drop (256 * x.2.1)).take 256)).map (fun w => TWord.mk w .bytes)
    (spanStore (engAttr t 0) (Config.poolSector (st.poolAt + x.2.2)) ws (f.seals.getD x.2.1 0) 0 t).2) s

/-- What a read of a buffered stripe from the pool found: its fragments as memory holds them, and the spans that may not be used (R71, R78). -/
structure PoolRead where
  frags : List Frag
  bad : List (Nat × Nat) := []
deriving DecidableEq, Repr

/-- A buffered stripe is read from the pool, every span checked against its seal (R50 point 0x4, R71). -/
def readPool (st : Stripe) (s : State) : PoolRead × State :=
  (poolSpans st).foldl (fun (a : PoolRead × State) x =>
    let r := memSpan 0 (Config.poolSector (st.poolAt + x.2.2)) false a.2
    let f := a.1.frags.getD x.1 { port := 0, block := 0 }
    ({ frags := a.1.frags.set x.1 { f with bytes := overlay f.bytes (256 * x.2.1) r.1.bytes, seals := f.seals.set x.2.1 r.1.sl },
       bad := if r.1.bad then a.1.bad ++ [(x.1, x.2.1)] else a.1.bad }, r.2)) ({ frags := st.frags }, s)

/-- Staging traffic takes tokens of its engine; it may start while any is left. -/
def takeTokens (e n : Nat) (s : State) : State :=
  let x := s.engine e
  s.setEngine e { x with tokens := x.tokens - (n : Int) }

end Sys2Proof.Machine
end

