-- ==== Sys2Proof/Machine/EngineWork.lean ====
section
/-! DEFINITION. The course of a stripe through an engine: pulling and encoding, the path choice, the outcomes of its fragments' writes and
reads, rebuilding and delivery (R14–R26, R69–R79). -/

namespace Sys2Proof.Machine

/-- What an index that names no fragment reads as. -/
def noFrag : Frag := { port := 0, block := 0 }

/-- The span index, within the command, of span `t` of data fragment `j` of a stripe (R378). -/
def spanIndex (g : Geo) (st : Stripe) (j t : Nat) : Nat := st.index * (g.k * g.spans) + j * g.spans + t

/-- The stall a command works for: its context's. -/
def cmdStall (s : State) (c : Cmd) : Nat := (s.ctx (dCtx c.desc)).stall.toNat

/-! ## The ends of writes -/

/-- Whether nothing of a stripe is still to be sent, on its way or being read. -/
def settled (st : Stripe) : Bool :=
  st.frags.all (fun f => decide (f.state ≠ .todo) && decide (f.state ≠ .sent) && decide (f.state ≠ .reading))

/-- What a written stripe's end counts (R378): a stripe done, or a scrubbed one repaired. -/
def countWritten (op : Nat) (lost : Bool) (c : Cmd) : Cmd :=
  if op = 4 then (if lost then { c with count2 := c.count2 + 1 } else { c with count1 := c.count1 + 1 })
  else if op = 5 then { c with count0 := c.count0 + 1, count1 := c.count1 + 1 }
  else if op = 6 then { c with count0 := c.count0 + 1 }
  else c

/-- A span of a drive as a seal record names it (R55): the port, and the span of a fragment that begins at a block. -/
def driveLocator (port block t : Nat) : Nat := port + (block * 16 + t) * 1024

/-- What became of a fragment that was missing (R50, R55, R76): its class, its spans that were lost and so are deferred, those left poisoned
somewhere, whether it was rebuilt and rewritten, and the OUTCOME of a record that names no span. -/
structure LostEnd where
  cls : BitVec 2 := 0
  lost : List Nat := []
  poisoned : List Nat := []
  repaired : Bool := false
  outcome : Nat := 5
deriving DecidableEq, Repr

/-- The records of a fragment that was missing (R21, R24, R50, R76): a seal record for each span that failed a check, SEALS_VALID where this
engine computed the seals, and clear where the bridge reported the span, whatever its SEAL message held (log entry 139). Otherwise a
DRIVE record of the port with the fragment's first block as ADDRESS (log entry 140), or, where the staging SRAM lost it, an ENGINE record
(R84). -/
def recordLost (e : Nat) (c : Cmd) (x : Frag) (r : LostEnd) (s : State) : State :=
  let stall := cmdStall s c
  let port := x.missed.getD x.port
  if x.sramUe then engineRec e 5 r.cls stall s
  else if x.bad.isEmpty then
    record { kind := 0x0E, cls := r.cls, resource := resource 11 port, outcome := r.outcome, stall := stall, addr := x.block } s
  else x.bad.foldl (fun u b =>
    recordSeal { point := b.1, cls := if r.lost.contains b.2.1 then 1 else r.cls, poisoned := r.poisoned.contains b.2.1,
                 repaired := r.repaired, locKind := 1, locator := driveLocator port x.block b.2.1, valid := decide (b.1 = 7),
                 ctx := dCtx c.desc, stall := stall, expected := b.2.2.1, computed := b.2.2.2 } u) s

/-- The records of a stripe's missing fragments. -/
def recordMissing (c : Cmd) (st : Stripe) (r : Nat → Frag → LostEnd) (s : State) : State :=
  st.frags.zipIdx.foldl (fun t x => if x.1.state = .missing then recordLost (stripeEngine s st) c x.1 (r x.2 x.1) t else t) s

/-- The records of a scrub's repairs, once what their rewrites came to is known (R24, R76). -/
def recordRepairs (st : Stripe) (s : State) : State :=
  match cmdAt s st.cmd with
  | none => s
  | some (e, c) =>
    (st.frags.filter (·.missed.isSome)).foldl (fun t x =>
      let ok := decide (x.state = .durable)
      recordLost e c x { repaired := ok, outcome := if ok then 1 else 3 } t) s

/-- A stripe whose fragments are all durable or failed ends (R14, R18, R71). -/
def finishWrite (st : Stripe) (s : State) : State :=
  let op := match cmdAt s st.cmd with | some (_, c) => dOp c.desc | none => 0
  let lost := st.frags.any (fun f => decide (f.state = .failed))
  let refused := st.frags.any (fun f => decide (f.state = .failed) && !f.faults.isEmpty)
  endStripe st (fun c => countWritten op lost (if refused then addFault 0x12 [] [] c else c)) (recordRepairs st s)

/-- Store a stripe after one of its fragments has changed, and end it when all have settled. -/
def settleWrite (st : Stripe) (s : State) : State := if settled st then finishWrite st s else setStripe st s

/-- A stripe with a fragment to be made again waits for a slot; one in the pool or in a slot stays where it is (R72). -/
def requeue (st : Stripe) (s : State) : State :=
  let flying := (List.range 8).any (fun e => (s.engine e).flying.any (fun x => decide (x.uid = st.uid)))
  if flying then
    let e := stripeEngine s st
    let s1 := mapEngines (fun x => { x with flying := x.flying.filter (fun y => decide (y.uid ≠ st.uid)) }) s
    putRegen e st s1
  else setStripe st s

/-- Whether no engine makes a fragment of a stripe again: its engine was the last to retire, or its context is FENCED on one that retires (R85). -/
def engineGone (s : State) (st : Stripe) : Bool :=
  let e := (s.engine (stripeEngine s st)).state
  let fenced := match cmdAt s st.cmd with | some (_, c) => decide ((s.ctx (dCtx c.desc)).state = .fenced) | none => false
  decide (e = 2) || (decide (e = 1) && fenced)

/-- The outcome of one fragment's write (R14, R18): durable, or refused and written once more to the alternate port, a new command there,
or failed. A buffered stripe with a poisoned span sends nothing more (R19, R52). -/
def writeOutcome (uid f : Nat) (ok : Bool) (s : State) : State :=
  match findStripe s uid with
  | none => s
  | some st =>
    let x := st.frags.getD f noFrag
    let s1 := modCmd st.cmd (fun c => { c with wports := c.wports ++ [x.port] }) s
    let dead := decide (st.stage = .pooled) && st.frags.any (fun y => !y.poison.isEmpty)
    if x.state ≠ .sent then s
    else if ok then settleWrite (setFrag st f { x with state := .durable }) s
    else
      match (if dead || engineGone s st then none else x.alt) with
      | some a =>
        requeue (setFrag st f { x with port := a, alt := none, state := .todo, retried := true, reissued := false,
                                       bytes := if st.stage = .pooled then x.bytes else [], faults := x.faults ++ [x.port] }) s1
      | none => settleWrite (setFrag st f { x with state := .failed, faults := x.faults ++ [x.port] }) s1

/-- A WRITE handed back from its link is made again for the same port (R72, R131). -/
def rewriteFrag (uid f : Nat) (s : State) : State :=
  match findStripe s uid with
  | none => s
  | some st =>
    let x := st.frags.getD f noFrag
    if x.state ≠ .sent then s
    else if engineGone s st then settleWrite (setFrag st f { x with state := .failed }) s
    else requeue (setFrag st f { x with state := .todo, reissued := true, bytes := if st.stage = .pooled then x.bytes else [] }) s

/-- The drive command that writes a fragment. -/
def writeCmd (g : Geo) (uid f : Nat) (x : Frag) : DriveCmd :=
  { uid := uid, frag := f, op := 2, block := x.block, count := 2 ^ g.unit, data := x.bytes, seals := x.seals,
    reissues := if x.reissued then 1 else 0 }

/-- Hand fragments over to their ports (R71); a port that takes no command refuses at once (R130). -/
def sendFrags (g : Geo) (st : Stripe) (which : List Nat) (s : State) : State :=
  which.foldl (fun t f =>
    let x := st.frags.getD f noFrag
    match portRefusal (t.port x.port) with
    | none => handOver x.port (writeCmd g st.uid f x) t
    | some _ => writeOutcome st.uid f false t) s

/-- The fragments of a stripe that are ready to be sent. -/
def readyFrags (st : Stripe) : List Nat :=
  (List.range st.frags.length).filter (fun f => let x := st.frags.getD f noFrag; decide (x.state = .todo) && !x.bytes.isEmpty)

/-- Mark fragments as sent. -/
def markSent (st : Stripe) (which : List Nat) (keep : Bool) : Stripe :=
  { st with frags := st.frags.zipIdx.map (fun x =>
      let y := if which.contains x.2 then { x.1 with state := .sent } else x.1
      if keep then y else { y with bytes := [] }) }

/-- A stripe goes cut-through (R71): its fragments go to their ports, and its slot is kept until the last byte of them has been sent. -/
def cutThrough (g : Geo) (st : Stripe) (s : State) : State :=
  let which := readyFrags st
  sendFrags g st which (setStripe { markSent st which false with
    stage := .flying, payload := if st.src = .buf then st.payload else [], sealBytes := if st.src = .buf then st.sealBytes else [], todoReads := [] } s)

/-- A stripe that was pulled again after an uncorrectable error of the staging SRAM has passed its check: the error is corrected, counted
and recorded (R84). -/
def settleSram (e : Nat) (c : Cmd) (st : Stripe) (s : State) : State :=
  if st.sramTries = 1 then
    engineRec e 5 0 (cmdStall s c) (odBump (0x7001 + e) 0x04 (setStripe { st with sramTries := 2 } s))
  else s

/-- Whether a fragment goes to its port at once: its shelf is awake, or closing before DL_WINDOW where the fragment is a retry or a reissue
of a stripe that had taken the cut-through path (R15, R134). -/
def portTakes (s : State) (x : Frag) : Bool :=
  portAwake s x.port ||
    ((x.retried || x.reissued) && (let h := s.shelf (portShelf s x.port); decide (h.state = .closing) && !h.pastWindow))

/-- The path choice of a checked stripe (R15, R71, R79). -/
def placeStripe (e uid : Nat) (s0 : State) : State :=
  match findStripe s0 uid with
  | none => s0
  | some st0 =>
    match cmdAt s0 st0.cmd with
    | none => s0
    | some (_, c) =>
      let s := settleSram e c st0 s0
      let st := if st0.sramTries = 1 then { st0 with sramTries := 2 } else st0
      let g := stGeo c st
      let ready := (readyFrags st).map (fun f => st.frags.getD f noFrag)
      let forced := (dForce c.desc || (s.ctx (dCtx c.desc)).forceBuf) && poolOn s
      if ready.isEmpty then settleWrite st s
      else if ready.all (portTakes s) && !forced then cutThrough g st s
      else if poolOn s && poolRoom s st && decide (0 < (s.engine e).tokens) then
        let kept := { st with stage := .pooled, payload := [], sealBytes := [], poolAt := (poolHole s (stripeBytes st / 256)).getD 0 }
        takeTokens e (stripeBytes st) (writePool kept (putPool kept (takeStripe uid s)))
      else
        let counted := poolOn s && !poolRoom s st && !st.pooledOnce
        let s1 := if counted then odBump (0x7001 + e) 0x05 s else s
        setStripe { st with stage := .place, pooledOnce := st.pooledOnce || counted } s1

/-- A stripe fails before its fragments have gone (R19): nothing of it is sent, or, where it was being made again, what was still to be
sent of it is not. -/
def failStripe (st : Stripe) (status : Nat) (spans : List Nat) (s : State) : State :=
  if unsent st then failCmd st.cmd status spans (countStripe st (recordRepairs st s))
  else
    let s1 := failCmd st.cmd status spans s
    settleWrite { st with frags := st.frags.map (fun f => if f.state = .todo ∨ f.state = .reading then { f with state := .failed } else f) } s1

/-! ## Pulling (R69, R77, R78) -/

/-- The data fragments a stripe must pull: all of them, or for a retry of data fragments alone just those (R72). -/
def needed (g : Geo) (st : Stripe) : List Nat :=
  let todo := (List.range st.frags.length).filter (fun f => decide ((st.frags.getD f noFrag).state = .todo))
  if freshWrite st || todo.any (fun f => decide (g.k ≤ f)) then List.range g.k else todo

/-- The host reads of a stripe of PUT, in row groups of four spans of each fragment, and of its seals (R69, R77). -/
def putReads (c : Cmd) (g : Geo) (st : Stripe) : List HRead :=
  let base := st.index * g.payload
  let len := dLength c.desc
  let data := (List.range (g.spans / 4)).flatMap (fun r => (needed g st).flatMap (fun j =>
    let off := j * g.bytes + r * 1024
    if base + off < len then hostChunks (dData c.desc + base + off) (min 1024 (len - (base + off))) off false 3 else []))
  let first := st.index * (g.k * g.spans)
  let n := min (g.k * g.spans) (payloadSpans c - first)
  let sl := if freshWrite st && dSealBuf c.desc then hostChunks (dSealAddr c.desc + 8 * first) (8 * n) 0 true (n + 2) else []
  sl ++ data

/-- What a stripe found in stall memory: its payload, the spans that may not be used, and the first that does not translate. -/
structure MemPull where
  payload : List Byte := []
  bad : List Nat := []
  fault : Option Nat := none
deriving DecidableEq, Repr

/-- The payload of spans `which` (by their place in the stripe) from the stall's memory at `va`; bytes past `len` are zero (R30, R78). -/
def memPull (e n va base len total : Nat) (which : List Nat) (s : State) : MemPull × State :=
  which.foldl (fun (a : MemPull × State) t =>
    let off := 256 * t
    if a.1.fault.isSome ∨ len ≤ base + off then a
    else match ioSpan e n (va + base + off) a.2 with
      | (none, u) => ({ a.1 with fault := some t }, u)
      | (some x, u) =>
        let bytes := x.bytes.take (min 256 (len - (base + off)))
        ({ a.1 with payload := overlay a.1.payload off bytes, bad := if x.bad then a.1.bad ++ [t] else a.1.bad }, u))
    ({ payload := List.replicate total 0 }, s)

/-- The spans whose supplied seals differ from the computed ones. -/
def sealDiffs (supplied : List Byte) (computed : List Word) (n : Nat) : List Nat :=
  (List.range n).filter (fun t => decide (wordOfBytes ((supplied.drop (8 * t)).take 8) ≠ computed.getD t 0))

/-- Count host-supplied seals that differ (R56, R58): point 0x1, the stall's entry and the context's field. -/
def countIngress (c : Cmd) (n : Nat) (s : State) : State :=
  (List.range n).foldl (fun t _ =>
    let x := t.ctx (dCtx c.desc)
    let stall := x.stall.toNat
    odBump (0x4100 + stall) 0x05 (recordSeal { point := 1, cls := 0, locKind := 2, locator := 0 }
      (t.setCtx (dCtx c.desc) { x with ingress := if x.ingress = 0xFFFFFFFF then x.ingress else x.ingress + 1 }))) s

/-- A chunk of SEAL or VERIFY: 4,096 spans. -/
def chunkSpans : Nat := 4096

/-- The stripes before one of a command: a fault of R78 leaves them to write what they were to write. -/
def earlierStripes (st : Stripe) (x : Stripe) : Bool := decide (x.index < st.index)

/-- The end of a chunk of SEAL or VERIFY (R66, R78): the seals are written, or compared. -/
def finishSeal (e : Nat) (c : Cmd) (st : Stripe) (s : State) : State :=
  let first := st.index * chunkSpans
  let n := min chunkSpans (payloadSpans c - first)
  let seals := sealsOf n st.payload
  if dOp c.desc = 8 then
    endStripe st (fun x => let bad := sealDiffs st.sealBytes seals n
                           if bad.isEmpty then x else addFault 0x15 (bad.map (· + first)) [] x) s
  else if dMemSide c.desc then
    let r := (List.range n).foldl (fun (a : Option Nat × State) t =>
      if a.1.isSome then a
      else match ioWriteSeal e (cmdStall a.2 c) (dSealAddr c.desc + 8 * (first + t)) (seals.getD t 0) a.2 with
        | (true, u) => (none, u)
        | (false, u) => (some (first + t), u)) (none, s)
    match r.1 with
    | none => endStripe st id r.2
    | some t => failCmd st.cmd 0x14 [t] r.2 (earlierStripes st)
  else
    endStripe st id ((List.range n).foldl (fun u t =>
      cmdWrite c (dSealAddr c.desc + 8 * (first + t)) (wordBytes (seals.getD t 0)) false u) s)

/-- A stripe's data has all arrived (R69): seals are made and compared with the host's, parity is encoded, and the check runs. -/
def pullDone (e uid : Nat) (s : State) : State :=
  match findStripe s uid with
  | none => s
  | some st =>
    match cmdAt s st.cmd with
    | none => s
    | some (_, c) =>
      if dOp c.desc = 7 ∨ dOp c.desc = 8 then finishSeal e c st (settleSram e c st s)
      else
        let g := stGeo c st
        let need := st.need
        let frags := st.frags.zipIdx.map (fun x =>
          if need.contains x.2 then
            let bytes := (st.payload.drop (x.2 * g.bytes)).take g.bytes
            { x.1 with bytes := bytes, seals := sealsOf g.spans bytes }
          else x.1)
        let first := st.index * (g.k * g.spans)
        let n := min (g.k * g.spans) (payloadSpans c - first)
        let bad := if freshWrite st && dSealBuf c.desc then sealDiffs st.sealBytes ((frags.take g.k).flatMap (·.seals)) n else []
        if !bad.isEmpty then failStripe st 0x10 (bad.map (· + first)) (countIngress c bad.length s)
        else if need.length = g.k then
          setStripe { st with frags := encodeFrags g frags, stage := .check, tries := 0, bad0 := none } s
        else placeStripe e uid (setStripe { st with frags := frags } s)

/-! ## Reads (R21, R22, R73–R76) -/

/-- The good fragments, the first `k` of them. -/
def goodFrags (g : Geo) (st : Stripe) : List Nat :=
  ((List.range st.frags.length).filter (fun f => decide ((st.frags.getD f noFrag).state = .good))).take g.k

/-- Keep the inverted matrix of an erasure pattern: 16 patterns, least recently used replaced (R57, R73). -/
def noteMatrix (e : Nat) (g : Geo) (good : List Nat) (s : State) : State :=
  let code := good.foldl (fun n f => n + 2 ^ f) 0 * 256 + g.k * 8 + g.m
  let x := s.engine e
  s.setEngine e { x with matrices := (code :: x.matrices.filter (fun m => decide (m ≠ code))).take 16 }

/-- What span `t` of a stripe's payload delivers: its bytes, its seal, and whether it may not be used. R22 states that a span that is lost is
written as poison; which bytes and which seal that write carries is the model's choice (log entry 141): the bytes as read, zeros where
none arrived, with the seal of those bytes. -/
def deliverable_ (g : Geo) (st : Stripe) (t : Nat) : List Byte × Word × Bool :=
  let x := st.frags.getD (t / g.spans) noFrag
  let bytes := takePad 256 0 ((x.bytes.drop (256 * (t % g.spans))).take 256)
  let lost := decide (x.state ≠ .good) && (x.poison.contains (t % g.spans) || x.bytes.isEmpty)
  (bytes, if lost then sealOf bytes else x.seals.getD (t % g.spans) 0, lost)

/-- Deliver one span of a GET: data of the payload's length, poisoned where it is lost, and its seal (R22, R23, R49, R77). -/
def deliverHost (c : Cmd) (idx : Nat) (x : List Byte × Word × Bool) (s : State) : State :=
  let len := min 256 (dLength c.desc - 256 * idx)
  let s1 := cmdWrite c (dData c.desc + 256 * idx) (x.1.take len) x.2.2 s
  if dSealBuf c.desc then cmdWrite c (dSealAddr c.desc + 8 * idx) (wordBytes x.2.1) false s1 else s1

/-- Write one span of a STAGE into stall memory, every word tagged BYTES, or POISON where it is lost (R25, R78); none where it does not
translate, otherwise whether the home found the span good. -/
def deliverMem (e : Nat) (c : Cmd) (idx : Nat) (x : List Byte × Word × Bool) (s : State) : Option Bool × State :=
  let tag : Tag := if x.2.2 then .poison else .bytes
  let ws := (wordsOf 32 x.1).map (fun w => TWord.mk w tag)
  ioWriteSpan e (cmdStall s c) (dData c.desc + 256 * idx) ws (if x.2.2 then sealOfWords ws else x.2.1) s

/-- The data fragments of a stripe that REENCODE writes, from its payload and the seals carried over from its read (R75); padding has seal
zero. -/
def sealedFrags (g : Geo) (st : Stripe) : List Frag :=
  let seals := wordsOf (g.k * g.spans) st.sealBytes
  encodeFrags g (st.frags.zipIdx.map (fun x =>
    if x.2 < g.k then { x.1 with bytes := (st.payload.drop (x.2 * g.bytes)).take g.bytes, seals := (seals.drop (x.2 * g.spans)).take g.spans }
    else x.1))

/-- Put what a re-read stripe of REENCODE holds, with its seals, into the new stripe it serves (R72, R75). -/
def feedStripe (c : Cmd) (g : Geo) (st : Stripe) (lost : Bool) (uid : Nat) (s : State) : State :=
  match findStripe s uid with
  | none => s
  | some x =>
    let g' := geoOf c.aux
    let n := stripeSpans c g st
    let oldFirst := st.index * (g.k * g.spans)
    let newFirst := x.index * (g'.k * g'.spans)
    let into (f : List Byte → Nat → List Byte) (l : List Byte) : List Byte := (List.range n).foldl (fun p t =>
      if newFirst ≤ oldFirst + t ∧ oldFirst + t < newFirst + g'.k * g'.spans then f p t else p) l
    let x1 := { x with payload := into (fun p t => overlay p (256 * (oldFirst + t - newFirst)) (deliverable_ g st t).1) x.payload,
                       sealBytes := into (fun p t => overlay p (8 * (oldFirst + t - newFirst)) (wordBytes (deliverable_ g st t).2.1)) x.sealBytes,
                       left := x.left - 1, readFail := x.readFail || lost }
    if x1.left ≠ 0 then setStripe x1 s
    else if x1.readFail then failStripe x1 0x02 [] s
    else setStripe { x1 with frags := sealedFrags g' x1, stage := .check, tries := 0, bad0 := none } s

/-- A stripe that was read is delivered: to the host, to stall memory, or to what REENCODE writes (R22, R23, R75, R78). -/
def deliver (e : Nat) (c : Cmd) (st : Stripe) (s : State) : State :=
  let g := stGeo c st
  let n := stripeSpans c g st
  let first := st.index * (g.k * g.spans)
  let lost := (List.range n).filter (fun t => (deliverable_ g st t).2.2)
  let ports := if lost.isEmpty then [] else (st.frags.filter (fun x => decide (x.state = .missing))).map (·.port)
  let note (x : Cmd) : Cmd :=
    let y := if st.rebuilt then { x with count1 := x.count1 + 1, r21 := true } else x
    if lost.isEmpty then y else addFault 0x02 (lost.map (· + first)) ports y
  if c.silent then endStripe st id s
  else if dOp c.desc = 2 then
    endStripe st (fun x => note { x with count0 := x.count0 + 1 })
      ((List.range n).foldl (fun t i => deliverHost c (first + i) (deliverable_ g st i) t) s)
  else if dOp c.desc = 3 then
    let r := (List.range n).foldl (fun (a : Option Nat × State) i =>
      if a.1.isSome then a
      else match deliverMem e c (first + i) (deliverable_ g st i) a.2 with
        | (some true, u) => (none, u)
        | (some false, u) => (none, modCmd st.cmd (addFault 0x02 [first + i] []) u)
        | (none, u) => (some (first + i), u)) (none, s)
    match r.1 with
    | none => endStripe st (fun x => note { x with count0 := x.count0 + 1 }) r.2
    | some i => failCmd st.cmd 0x14 [i] (countStripe st r.2) (earlierStripes st)
  else
    match st.feeds with
    | some u =>
      let hears (x : Cmd) : Cmd := let y := if st.rebuilt then { x with r21 := true } else x
                                   if lost.isEmpty then y else addFault 0x02 (lost.map (· + first)) ports y
      feedStripe c g st (!lost.isEmpty) u (takeStripe st.uid (modCmd st.cmd hears s))
    | none =>
      if lost.isEmpty then
        endStripe st (fun x => { note x with buf := x.buf ++ (List.range n).flatMap (fun i => (deliverable_ g st i).1),
                                             bufSeals := x.bufSeals ++ (List.range n).map (fun i => (deliverable_ g st i).2.1),
                                             done := x.done - 1 }) s
      else failCmd st.cmd 0x02 (lost.map (· + first)) (modCmd st.cmd (addFault 0x02 [] ports) s)

/-- A stripe with fragments made from good ones waits for their cross-check (R21, R73); what is rebuilt is counted (R513). -/
def rebuildInto (e : Nat) (c : Cmd) (st : Stripe) (which : List Nat) (s : State) : State :=
  let g := stGeo c st
  let good := goodFrags g st
  let frags := which.foldl (fun fs f => fs.set f (rebuildFrag g st.frags good f)) st.frags
  setStripe { st with frags := frags, stage := .rebuilt, rebuilt := true }
    (noteMatrix e g good (countEngine e 3 (which.length * g.spans) s))

/-- The parity fragments whose bytes differ from those that the data give (R76). -/
def parityDiffs (g : Geo) (frags : List Frag) : List Nat :=
  let made := encodeFrags g frags
  (List.range (g.k + g.m)).filter (fun f => decide (g.k ≤ f) && decide ((frags.getD f noFrag).bytes ≠ (made.getD f noFrag).bytes))

/-- The port for a scrub's rewrite: the one the AUX_ADDR record names, or the same port (R24, R76). One that is refused there is written once more
to the alternate port of the PLACE_ADDR record (R18, R72; log entry 185). -/
def rewritePort (c : Cmd) (f : Nat) (x : Frag) : Frag :=
  let y := if dAux c.desc = 0 then none else entAlt (entryOf c.aux f)
  let p := y.getD x.port
  { x with port := p, alt := if x.alt = some p then none else x.alt }

/-- Fragments `which` are to be rewritten with what the stripe now holds; their repair is recorded under the port that held them. -/
def toRewrite (c : Cmd) (which : List Nat) (frags : List Frag) : List Frag :=
  frags.zipIdx.map (fun x =>
    if which.contains x.2 then { rewritePort c x.2 x.1 with state := .todo, missed := some x.1.port } else x.1)

/-- A scrub whose data is trusted but whose parity differs: the differing parity fragments `which` are made again, checked (R69) and
rewritten, with the fragments `mend` that were rebuilt (R76). Its record is of kind ENGINE, with CAUSE 0 (log entry 182). -/
def scrubParity (e : Nat) (c : Cmd) (st : Stripe) (which mend : List Nat) (s : State) : State :=
  let g := stGeo c st
  let made := encodeFrags g st.frags
  let frags := toRewrite c (mend ++ which) (st.frags.zipIdx.map (fun x => if which.contains x.2 then made.getD x.2 noFrag else x.1))
  let s1 := odAdd (0x7001 + e) 0x06 which.length s
  let s2 := engineRec e 0 0 (cmdStall s c) s1
  setStripe { st with frags := frags, stage := .check, tries := 0, bad0 := none } s2

/-- Every fragment a stripe asked for has been answered: what follows, by command (R21, R22, R73–R76). -/
def resolve (e uid : Nat) (s : State) : State :=
  match findStripe s uid with
  | none => s
  | some st =>
    match cmdAt s st.cmd with
    | none => s
    | some (_, c) =>
      let g := stGeo c st
      let enough := decide ((goodFrags g st).length = g.k)
      let miss := (List.range st.frags.length).filter (fun f => decide ((st.frags.getD f noFrag).state = .missing))
      let ports := miss.map (fun f => (st.frags.getD f noFrag).port)
      let dataSpans (fs : List Nat) : List Nat := (fs.filter (fun f => decide (f < g.k))).flatMap (fun f => (List.range g.spans).map (spanIndex g st f))
      if dOp c.desc = 4 then
        let again := (List.range st.frags.length).filter (fun f => decide ((st.frags.getD f noFrag).state = .todo))
        if !enough then
          (if again.isEmpty then
            endStripe st (fun x => addFault 0x02 (dataSpans miss) ports { x with count2 := x.count2 + 1 })
              (recordMissing c st (fun _ _ => { cls := 1 }) s)
           else failStripe st 0x02 [] (recordMissing c st (fun _ _ => { cls := 1 }) s))
        else if !again.isEmpty then rebuildInto e c st (again ++ miss) s
        else if !miss.isEmpty then rebuildInto e c st miss s
        else
          let d := parityDiffs g st.frags
          if d.isEmpty then endStripe st (fun x => { x with count0 := x.count0 + 1 }) s else scrubParity e c st d [] s
      else if dOp c.desc = 5 then
        let sel := (List.range st.frags.length).filter (fun f => decide ((st.frags.getD f noFrag).state = .todo))
        if !enough then
          (if unsent st then
            endStripe st (fun x => addFault 0x02 (dataSpans (sel ++ miss)) ports { x with count0 := x.count0 + 1 })
              (recordMissing c st (fun _ _ => { cls := 1 }) s)
           else failStripe st 0x02 [] (recordMissing c st (fun _ _ => { cls := 1 }) s))
        else
          let s1 := recordMissing c st (fun _ _ => {}) s
          rebuildInto e c st sel (if miss.isEmpty then s1 else modCmd st.cmd (fun x => { x with r21 := true }) s1)
      else
        let gone := miss.filter (fun f => decide (f < g.k))
        if gone.isEmpty then deliver e c st s
        else if enough then rebuildInto e c st gone s
        else
          let left (f : Nat) : Bool := decide (f < g.k) && decide (dOp c.desc = 2 ∨ dOp c.desc = 3)
          deliver e c st (recordMissing c st (fun f x => { cls := 1, poisoned := if left f then x.poison else [] }) s)

/-- The drive command that reads a fragment. -/
def readCmd (g : Geo) (uid f : Nat) (x : Frag) : DriveCmd :=
  { uid := uid, frag := f, op := 1, block := x.block, count := 2 ^ g.unit }

/-- A read for a command that asks for its shelves itself, at a port whose shelf sleeps, asks for that shelf too (R23, R75, R132). -/
def wakeRead (c : Cmd) (p : Nat) (s : State) : State :=
  let h := portShelf s p
  if (dOp c.desc = 2 ∨ dOp c.desc = 3 ∨ dOp c.desc = 6) ∧ ((s.shelf h).state = .asleep ∨ (s.shelf h).state = .sleeping) then requestWake h s else s

/-- Ask for the fragments a stripe still needs (R73, R74, R76): a scrub reads all, any other as many as make `k`, lowest numbers
first. A port that takes no command makes its fragment missing at once. -/
def readMore (e uid : Nat) (fuel : Nat) (s : State) : State :=
  match fuel with
  | 0 => s
  | fuel + 1 =>
    match findStripe s uid with
    | none => s
    | some st =>
      match cmdAt s st.cmd with
      | none => s
      | some (_, c) =>
        let g := stGeo c st
        let idle := (List.range st.frags.length).filter (fun f => decide ((st.frags.getD f noFrag).state = .idle))
        let busy := (st.frags.filter (fun f => decide (f.state = .reading) || decide (f.state = .good))).length
        match idle.head? with
        | some f =>
          if dOp c.desc = 4 ∨ busy < g.k then
            let x := st.frags.getD f noFrag
            (match portRefusal (s.port x.port) with
             | some _ => readMore e uid fuel (setStripe (setFrag st f { x with state := .missing }) s)
             | none => readMore e uid fuel (wakeRead c x.port <| handOver x.port (readCmd g uid f x) (setStripe (setFrag st f { x with state := .reading }) s)))
          else if st.frags.any (fun x => decide (x.state = .reading)) then s else resolve e uid s
        | none => if st.frags.any (fun x => decide (x.state = .reading)) then s else resolve e uid s

/-- What a fragment's read brought: bytes, seals and the spans that failed a check; none where the drive did not give it. -/
structure ReadGot where
  bytes : List Byte
  seals : List Word
  bad : List (Nat × Nat × Word × Word)
deriving DecidableEq, Repr

/-- The outcome of one fragment's read (R21): good, or missing. -/
def readOutcome (uid f : Nat) (r : Option ReadGot) (bad : List (Nat × Nat × Word × Word)) (s : State) : State :=
  match findStripe s uid with
  | none => s
  | some st =>
    let x := st.frags.getD f noFrag
    if x.state ≠ .reading then s
    else
      let x1 : Frag := match r with
        | some y => { x with state := if y.bad.isEmpty then .good else .missing, bytes := y.bytes, seals := y.seals, bad := y.bad,
                             poison := y.bad.map (·.2.1) }
        | none => { x with state := .missing, bad := bad }
      readMore (stripeEngine s st) uid 64 (setStripe (setFrag st f x1) s)

end Sys2Proof.Machine
end

