-- ==== Sys2Proof/Machine/Repairs.lean ====
section
/-! DEFINITION. The repairs of the Farrier: which run, which wait, and the records of their ends (R443, R450, R451). -/

namespace Sys2Proof.Machine

/-- Ring detours and Tether actions run together; repairs of any other action run one at a time (R450). -/
def runsTogether (action : BitVec 8) : Bool := decide (action = 0x04) || decide (action = 0x09) || decide (action = 0x0A)

/-- The incident under which a repair of a resource runs or waits. -/
def incidentOf (s : State) (action : BitVec 8) (res : Nat) : Option (BitVec 32) :=
  ((s.far.running ++ s.far.queued ++ s.far.beyond).find? (fun r => decide (r.action = action) && decide (r.resource.toNat = res))).map (·.incident)

/-- The incident number of a fault is allocated, where it is not one already given (R442). -/
def takeIncident (n : BitVec 32) (s : State) : State := if n = nextIncident s then allocIncident s else s

/-- Whether a repair of an action must wait for one that runs (R450). -/
def mustWait (s : State) (action : BitVec 8) : Bool :=
  !runsTogether action && s.far.running.any (fun x => decide (x.action = action))

/-- A repair is decided on (R450): whether its steps start now. It joins a repair of the same resource, of the same row for a row's repair, waits behind one of the same
action, up to 64, or is recorded as not possible and decided again once room frees. -/
def beginRepair (kind : BitVec 8) (r : Repair) (st : State) : Bool × State :=
  let s := takeIncident r.incident st
  let f := s.far
  let same (x : Repair) : Bool := decide (x.action = r.action) && decide (x.resource = r.resource) && decide (x.args = r.args)
  if (st.far.running ++ st.far.queued ++ st.far.beyond).any same then (false, st)
  else if mustWait s r.action then
    if (f.queued.filter (fun x => decide (x.action = r.action))).length < 64 then
      (false, { s with far := { f with queued := f.queued ++ [r] } })
    else
      let note : Rec :=
        { kind := kind, cls := r.cls, resource := r.resource.toNat, target := r.target.toNat, action := r.action.toNat,
          outcome := 4, cause := r.cause.toNat, stall := r.stall }
      (false, recordIn r.incident note { s with far := { f with beyond := f.beyond ++ [r] } })
  else (true, { s with far := { f with running := f.running ++ [r] } })

/-- Room has freed in the queue of an action: the oldest fault beyond it is decided again (R450). -/
def decideAgain (action : BitVec 8) (s : State) : State :=
  let f := s.far
  if 64 ≤ (f.queued.filter (fun x => decide (x.action = action))).length then s
  else match f.beyond.find? (fun x => decide (x.action = action)) with
    | none => s
    | some r => { s with far := { f with beyond := f.beyond.erase r, queued := f.queued ++ [r] } }

/-- What a repair's end records beside the repair itself. -/
structure EndNote where
  outcome : Nat := 1
  cls : BitVec 2 := 0
  detail : Nat := 0
  addr : Nat := 0
  target : Option Nat := none
deriving DecidableEq, Repr

/-- A running repair ends with its record (R439, R442). -/
def endRepair (kind : BitVec 8) (action : BitVec 8) (res : Nat) (n : EndNote) (s : State) : State :=
  match s.far.running.find? (fun r => decide (r.action = action) && decide (r.resource.toNat = res)) with
  | none => s
  | some r =>
    recordIn r.incident { kind := kind, cls := n.cls, resource := res, target := n.target.getD r.target.toNat,
                          action := action.toNat, outcome := n.outcome, cause := r.cause.toNat, stall := r.stall,
                          detail := n.detail, addr := n.addr }
      { s with far := { s.far with running := s.far.running.filter (fun x => decide (x ≠ r)) } }

/-- A repair that ends in the step that decides on it (R443). -/
def repairNow (r : Rec) (s : State) : State := record { r with outcome := 1 } s

/-- The running repairs that use a resource (R450). -/
def repairsUsing (s : State) (res : Nat) : List Repair :=
  s.far.running.filter (fun r => r.uses.any (fun u => decide (u.toNat = res)))

end Sys2Proof.Machine
end

