-- ==== Sys2Proof/Machine/EngineStart.lean ====
section
/-! DEFINITION. How work comes to an engine and leaves it: accepting and validating descriptors, starting stripes, fencing and draining
contexts, and retiring an engine (R58–R67, R82–R85, R87). -/

namespace Sys2Proof.Machine

/-! ## Accepting a descriptor (R65 steps 1 and 2, R82) -/

/-- The engine that holds a context (R58, R61). -/
def ctxEngine (s : State) (n : Nat) : Nat := match (s.ctx n).engine with | some e => e.val | none => n / 8192

/-- Whether an opcode is defined and the issuing stall may use it in this form (R66). A GET into stall memory and a STAGE into host memory
are forms that R66 does not allow; that they fail step 1 of R65, before the context is looked at, is the model's choice (log entry 142). -/
def opAllowed (d : BitVec 512) (issuer : Nat) : Bool :=
  let op := dOp d
  decide (op ≤ 10) && (decide (issuer = 0) || !([4, 5, 6, 9].contains op)) && (decide (op ≠ 2) || !dMemSide d) &&
    (decide (op ≠ 3) || dMemSide d)

/-- Whether a context accepts descriptors of the issuing stall (R59, R60, R65). -/
def ctxAccepts (x : Ctx) (issuer : Nat) : Bool :=
  (decide (x.state = .idle) || decide (x.state = .active) || (decide (x.state = .moving) && !x.freeing)) &&
    (decide (issuer = 0) || decide (x.stall.toNat = issuer))

/-- Whether any engine is active. -/
def anyEngine (s : State) : Bool := (List.range 8).any (fun e => decide ((s.engine e).state = 0))

/-- Whether the engine of a context has room for a descriptor of it (R57, R82); QUEUED, of 8 bits, counts at most 255 (R58; log entry 143). -/
def engineRoom (s : State) (n : Nat) : Bool :=
  decide ((s.engine (ctxEngine s n)).queue.length < 256) && decide ((s.ctx n).queued < 255)

/-- A context counts a completion with ENGINE_FAULT (R58). -/
def countFault (n : Nat) (s : State) : State :=
  let x := s.ctx n
  if x.faults = 0xFFFFFFFF then s else s.setCtx n { x with faults := x.faults + 1 }

/-- The status of R65 steps 1 and 2; 0 where they pass. -/
def acceptStatus (s : State) (d : BitVec 512) (issuer : Nat) : Nat :=
  if !opAllowed d issuer then 0x20 else if !ctxAccepts (s.ctx (dCtx d)) issuer then 0x21 else 0

/-- An engine accepts a descriptor, or it is completed at once where a check fails. With no active engine a data descriptor completes with
ENGINE_FAULT, and NOP and FENCE are validated and completed without one (R85). -/
def acceptDescriptor (src : DescSrc) (issuer : Nat) (d : BitVec 512) (s : State) : State :=
  let c : Cmd := { id := s.eng.nextCmd, desc := d, src := src, issuer := issuer }
  let s1 := { s with eng := { s.eng with nextCmd := s.eng.nextCmd + 1 } }
  let st := acceptStatus s d issuer
  if !anyEngine s ∧ dOp d ≠ 0 ∧ dOp d ≠ 10 then postCmd c 0x13 (countFault (dCtx d) s1)
  else if st ≠ 0 then postCmd c st s1
  else if !anyEngine s then completeHeld { s1 with eng := { s1.eng with held := s1.eng.held ++ [c] } }
  else
    let n := dCtx d
    let x := s1.ctx n
    let e := ctxEngine s1 n
    let y := s1.engine e
    let s2 := (s1.setEngine e { y with queue := y.queue ++ [c] }).setCtx n
      { x with queued := x.queued + 1, state := if x.state = .idle then .active else x.state }
    let s3 := if h : e < 8 then wakeDom (.engine ⟨e, h⟩) s2 else s2
    if x.spilled ∧ ¬s3.eng.loading.contains n then { s3 with eng := { s3.eng with loading := s3.eng.loading ++ [n] } } else s3

/-! ## Validation at the start (R65 steps 3 and 4) -/

/-- A record is whole and its geometry supported (R64, R67). -/
def placeOk (place : List Word) : Bool := geoOk (geoOf place) && decide ((geoOf place).k + (geoOf place).m < place.length)

/-- Whether a command names a second record. -/
def namesAux (d : BitVec 512) : Bool := [4, 5, 6].contains (dOp d) && decide (dAux d ≠ 0)

/-- Step 3 of R65. -/
def fieldsOk (s : State) (d : BitVec 512) (place aux : List Word) : Bool :=
  let op := dOp d
  let align := if dMemSide d then 256 else 64
  let g := geoOf place
  if 1 ≤ op ∧ op ≤ 6 then
    placeOk place && decide (dPlace d % 64 = 0) && (!namesAux d || (placeOk aux && decide (dAux d % 64 = 0))) &&
      (decide (op ≠ 6) || namesAux d) && (decide (3 < op) || decide (dData d % align = 0)) &&
      (decide (2 < op) || !dSealBuf d || decide (dSealAddr d % 8 = 0)) && decide (1 ≤ dCount d) &&
      decide ((dCount d - 1) * g.payload < dLength d) && decide (dLength d ≤ dCount d * g.payload) &&
      (decide (op ≠ 1) || dMemSide d || !(s.ctx (dCtx d)).sealsReq || dSealBuf d)
  else if op = 7 ∨ op = 8 then
    decide (dData d % align = 0) && decide (dSealAddr d ≠ 0) && decide (dSealAddr d % 8 = 0) && decide (1 ≤ dLength d)
  else if op = 9 then decide (natField (dAuxWord d) 0 10 ≤ 127)
  else true

/-- Step 4 of R65. -/
def portsOk (s : State) (c : Cmd) (place aux : List Word) : Bool :=
  let op := dOp c.desc
  decide (c.issuer = 0) || !(decide (1 ≤ op) && decide (op ≤ 6)) ||
    ((placePorts place ++ (if namesAux c.desc then placePorts aux else [])).all (fun p => decide (portOwner s p = cmdStall s c)))

/-- The status of the validation; 0 where it passes. -/
def startStatus (s : State) (c : Cmd) (place aux : List Word) : Nat :=
  if !fieldsOk s c.desc place aux then 0x20 else if !portsOk s c place aux then 0x22 else 0

/-- A placement record in stall memory: its header, and as many entries as that names; an unreadable one is empty. -/
def placeBack (e n va : Nat) (s : State) : List Word × State :=
  let h := ioBytes e n va 8 s
  let g := geoOf [wordOfBytes h.1.bytes]
  if h.1.fault || h.1.bad || !geoOk g then ([], h.2)
  else
    let r := ioBytes e n va (8 * (g.k + g.m + 1)) h.2
    if r.1.fault || r.1.bad then ([], r.2) else (wordsOf (g.k + g.m + 1) r.1.bytes, r.2)

/-- The record at an address: from the stall's memory, or as host memory returned it, where the engine's reads of it go out (R77). -/
def fetchPlace (e : Nat) (c : Cmd) (used : Bool) (addr : Nat) (given : Option (List Word)) (s : State) : List Word × State :=
  if !used then ([], s)
  else if dMemSide c.desc then placeBack e (cmdStall s c) addr s
  else
    let words := given.getD []
    (words, (hostChunks addr (8 * words.length) 0 false 3).foldl (fun t r =>
      let x := t.engine e
      hostRead (cmdFn c).1 (cmdFn c).2 r.addr r.len x.nextTag (t.setEngine e { x with nextTag := x.nextTag + 1 })) s)

/-- The stripes of a command: those it names, those its new geometry takes, or its chunks. -/
def cmdStripes (d : BitVec 512) (aux : List Word) : Nat :=
  let op := dOp d
  if 1 ≤ op ∧ op ≤ 5 then dCount d
  else if op = 6 then (dLength d + (geoOf aux).payload - 1) / (geoOf aux).payload
  else if op = 7 ∨ op = 8 then ((dLength d + 255) / 256 + chunkSpans - 1) / chunkSpans
  else 0

/-- The ports a GET or STAGE reads first. -/
def readPorts (c : Cmd) : List Nat := (List.range (geoOf c.place).k).map (fun f => entPort (entryOf c.place f))

/-- Whether a command reads as a GET or STAGE does, which waits for its shelves (R28, R75). -/
def waitsShelves (c : Cmd) : Bool := decide (dOp c.desc = 2 ∨ dOp c.desc = 3) || (decide (dOp c.desc = 6) && decide (c.readNext < dCount c.desc))

/-- A GET, STAGE or REENCODE that waits for its shelves asks for them, the lowest number first (R28, R75, R132). -/
def wakeFor (c : Cmd) (s : State) : State :=
  if waitsShelves c then
    (sortNat (((readPorts c).filter (fun p => !portAwake s p)).map (portShelf s))).foldl (fun t h => requestWake h t) s
  else s

/-- The stripes of the pool that a RELEASE of a shelf sends (R71). -/
def releaseList (s : State) (h : Nat) : List Nat :=
  (s.eng.pool.filter (fun st => st.frags.any (fun f => decide (f.state = .todo) && decide (portShelf s f.port = h)))).map (·.uid)

/-- The oldest started descriptor of an opcode that has not been validated. -/
def nextStarted (s : State) (e op : Nat) : Option Cmd := (s.engine e).active.find? (fun c => decide (dOp c.desc = op) && !c.checked)

/-- An engine carries out a descriptor: the checks, then its work begins, or it completes (R65, R66). -/
def runCmd (e op : Nat) (place aux : Option (List Word)) (s : State) : State :=
  match nextStarted s e op with
  | none => s
  | some c =>
    let uses := decide (1 ≤ op ∧ op ≤ 6)
    let r1 := fetchPlace e c uses (dPlace c.desc) place s
    let r2 := fetchPlace e c (uses && namesAux c.desc) (dAux c.desc) aux r1.2
    let st := startStatus r2.2 c r1.1 r2.1
    if st ≠ 0 then endCmd c st r2.2
    else
      let c1 := { c with checked := true, place := r1.1, aux := r2.1, stripes := cmdStripes c.desc r2.1,
                         release := if op = 9 then releaseList r2.2 (natField (dAuxWord c.desc) 0 10) else [] }
      finishCmd c.id (wakeFor c1 (setCmd c1 r2.2))

/-- An engine-command row: firmware posts a descriptor where the queue has room, or the engine carries one out. -/
def engineRow (e op : Nat) (st : EngStep) (s : State) : State :=
  match st with
  | .post d => if engineRoom s (dCtx d) || !anyEngine s then acceptDescriptor .firmware 0 d s else s
  | .run place aux => runCmd e op place aux s

/-! ## Starting stripes (R28, R69–R80) -/

/-- The interlock key of a stripe: port and block of fragment 0 of the record it is written under; a REBUILD's or a scrub rewrite's is that of the
PLACE_ADDR record, whatever AUX_ADDR names (R80; log entry 183). -/
def stripeKey (c : Cmd) (st : Stripe) : Option (Nat × Nat) :=
  let op := dOp c.desc
  let f0 (place : List Word) (n : Nat) : Nat × Nat := ((fragOf place n 0).port, (fragOf place n 0).block)
  if !st.write then none
  else if op = 6 then some (f0 c.aux (natField (dAuxWord c.desc) 0 48 + st.index))
  else if op = 1 ∨ op = 4 ∨ op = 5 then some (f0 c.place (dFirst c.desc + st.index))
  else none

/-- Where a command's payload comes from. -/
def cmdSrc (d : BitVec 512) : StripeSrc :=
  let op := dOp d
  if op = 1 ∨ op = 7 ∨ op = 8 then (if dMemSide d then .mem else .host)
  else if op = 6 then .buf
  else .drives

/-- Stripe `i` of a command as it takes its slot. -/
def newStripe (uid : Nat) (c : Cmd) (i : Nat) : Stripe :=
  let op := dOp c.desc
  let g := geoOf c.place
  let all := List.range (g.k + g.m)
  let base : Stripe := { uid := uid, cmd := c.id, index := i, src := cmdSrc c.desc, stage := .lock, write := !([2, 3, 7, 8].contains op) }
  if op = 1 then { base with frags := all.map (fun f => { fragOf c.place (dFirst c.desc + i) f with state := .todo }) }
  else if op = 2 ∨ op = 3 ∨ op = 4 then { base with frags := all.map (fragOf c.place (dFirst c.desc + i)) }
  else if op = 5 then
    let rec_ := if namesAux c.desc then c.aux else c.place
    { base with frags := all.map (fun f => if natBit (natField (dAuxWord c.desc) 0 28) f
                                           then { fragOf rec_ (dFirst c.desc + i) f with state := .todo }
                                           else fragOf c.place (dFirst c.desc + i) f) }
  else if op = 6 then
    let g' := geoOf c.aux
    { base with payload := takePad g'.payload 0 (c.buf.take g'.payload),
                sealBytes := (takePad (g'.payload / 256) 0 (c.bufSeals.take (g'.payload / 256))).flatMap wordBytes,
                frags := (List.range (g'.k + g'.m)).map (fun f => { fragOf c.aux (natField (dAuxWord c.desc) 0 48 + i) f with state := .todo }) }
  else base

/-- A stripe of REENCODE's reads, under the old geometry. -/
def oldStripe (uid : Nat) (c : Cmd) (i : Nat) (feeds : Option Nat) : Stripe :=
  let g := geoOf c.place
  { uid := uid, cmd := c.id, index := i, src := .drives, stage := .reading, write := false, feeds := feeds,
    frags := (List.range (g.k + g.m)).map (fragOf c.place (dFirst c.desc + i)) }

/-- Read the old stripes that hold a new stripe's payload again (R72). -/
def feedReads (e : Nat) (c : Cmd) (st : Stripe) (s : State) : State :=
  let g := geoOf c.place
  let g' := geoOf c.aux
  let lo := st.index * g'.payload
  let hi := min (dLength c.desc) (lo + g'.payload)
  let which := (List.range (dCount c.desc)).filter (fun i => decide (i * g.payload < hi) && decide (lo < (i + 1) * g.payload))
  let s1 := setStripe { st with stage := .pull, left := which.length, payload := List.replicate g'.payload 0,
                                sealBytes := List.replicate (g'.payload / 32) 0, readFail := false } s
  which.foldl (fun t i =>
    let u := freshUid t
    readMore e u.1 64 (putFlying e (oldStripe u.1 c i (some st.uid)) u.2)) s1

/-- What REENCODE has read becomes the data of a new stripe (R75): each span keeps its seal, padding has seal zero. -/
def fillFromBuf (c : Cmd) (st : Stripe) : Stripe :=
  { st with stage := .check, tries := 0, bad0 := none, frags := sealedFrags (geoOf c.aux) st }

/-- A stripe that holds what it needs begins (R69, R72). -/
def beginStripe (e uid : Nat) (s : State) : State :=
  match findStripe s uid with
  | none => s
  | some st =>
    match cmdAt s st.cmd with
    | none => s
    | some (_, c) =>
      let d := c.desc
      let seal_ := decide (dOp d = 7 ∨ dOp d = 8)
      let g := stGeo c st
      match st.src with
      | .host =>
        let first := st.index * chunkSpans
        let n := min chunkSpans (payloadSpans c - first)
        let len := min (256 * chunkSpans) (dLength d - 256 * first)
        let reads := if seal_ then hostChunks (dData d + 256 * first) len 0 false (len + 1) ++
                                   (if dOp d = 8 then hostChunks (dSealAddr d + 8 * first) (8 * n) 0 true (n + 2) else [])
                     else putReads c g st
        let st1 := { st with stage := .pull, todoReads := reads, pendingReads := 0, need := needed g st,
                             payload := List.replicate (if seal_ then 256 * n else g.payload) 0,
                             sealBytes := List.replicate (if seal_ then 8 * n else 8 * (g.k * g.spans)) 0 }
        if reads.isEmpty then pullDone e uid (setStripe st1 s) else pumpStripe e uid (setStripe st1 s)
      | .mem =>
        let n := cmdStall s c
        let base := if seal_ then st.index * (256 * chunkSpans) else st.index * g.payload
        let total := if seal_ then 256 * min chunkSpans (payloadSpans c - st.index * chunkSpans) else g.payload
        let which := if seal_ then List.range (total / 256) else (needed g st).flatMap (fun j => (List.range g.spans).map (fun t => j * g.spans + t))
        let r := memPull e n (dData d) base (dLength d) total which s
        let wantSeals := decide (dOp d = 8) || (!seal_ && freshWrite st && dSealBuf d)
        let spans := if seal_ then total / 256 else min (g.k * g.spans) (payloadSpans c - st.index * (g.k * g.spans))
        let q := if wantSeals then ioBytes e n (dSealAddr d + 8 * (base / 256)) (8 * spans) r.2 else ({}, r.2)
        (match r.1.fault with
         | some t => failStripe st 0x14 [base / 256 + t] q.2
         | none =>
           if q.1.fault then failStripe st 0x14 [base / 256] q.2
           else if !r.1.bad.isEmpty || q.1.bad then failStripe st 0x02 (r.1.bad.map (· + base / 256)) q.2
           else pullDone e uid (setStripe { st with stage := .pull, need := needed g st, payload := r.1.payload, sealBytes := q.1.bytes } q.2))
      | .drives =>
        let st1 := { st with stage := .reading, frags := st.frags.map (fun f =>
          if f.state = .good then { f with state := .idle, bytes := [], sramUe := false } else f) }
        readMore e uid 64 (setStripe st1 s)
      | .buf => if freshWrite st then setStripe (fillFromBuf c st) s else feedReads e c st s
      | .pool => s

/-- A stripe in its slot enters the interlock where it must and begins, or waits (R28, R80). -/
def enterAndBegin (e : Nat) (c : Cmd) (st : Stripe) (s : State) : State :=
  match stripeKey c st with
  | none => beginStripe e st.uid s
  | some k =>
    if s.eng.locks.any (fun l => decide (l.2.2 = st.uid)) then beginStripe e st.uid s
    else
      let r := tryKey e k st.uid s
      if r.1 then beginStripe e st.uid r.2 else r.2

/-- Whether a stripe of REENCODE's reads is in hand; they are read one after the other. -/
def readLive (s : State) (e : Nat) (c : Cmd) : Bool :=
  (((s.engine e).slots.map (·.2)) ++ (s.engine e).regen).any (fun x => decide (x.cmd = c.id) && !x.write)

/-- Whether REENCODE holds the payload of its next new stripe. -/
def bufReady (s : State) (e : Nat) (c : Cmd) : Bool :=
  decide ((geoOf c.aux).payload ≤ c.buf.length) || (decide (dCount c.desc ≤ c.readNext) && !readLive s e c)

/-- Whether a command has a stripe that could take a slot now. -/
def canStart (s : State) (e : Nat) (c : Cmd) : Bool :=
  let op := dOp c.desc
  c.checked &&
    (if op = 9 then !c.release.isEmpty && decide (0 < (s.engine e).tokens)
     else if op = 2 ∨ op = 3 then decide (c.next < c.stripes) && (readPorts c).all (portAwake s)
     else if op = 6 then
       decide (c.next < c.stripes) &&
         (bufReady s e c || (!readLive s e c && decide (c.readNext < dCount c.desc) && (readPorts c).all (portAwake s)))
     else decide (c.next < c.stripes))

/-- A pooled stripe that a refused fragment's alternate port can now take; staging traffic waits for tokens (R79). -/
def poolRetry (s : State) (e : Nat) : Option Stripe :=
  s.eng.pool.find? (fun st => decide (stripeEngine s st = e) && decide (0 < (s.engine e).tokens) &&
    st.frags.any (fun f => decide (f.state = .todo) && (f.retried || f.reissued) && portAwake s f.port) &&
    !((List.range 8).any (fun k => (s.engine k).slots.any (fun x => decide (x.2.feeds = some st.uid)))))

/-- A buffered stripe is read back into a slot (R71): the slot's stripe names it. -/
def startReadback (e i cmd uid : Nat) (s : State) : State :=
  let u := freshUid s
  let n := match findStripe s uid with | some st => stripeBytes st | none => 0
  takeTokens e n (putSlot e i { uid := u.1, cmd := cmd, index := 0, src := .pool, stage := .readback, write := false, feeds := some uid } u.2)

/-- A stripe takes a free slot (R69): one to be made again, a pooled one whose retry can go, or the next of the oldest command. -/
def startStripe (e i : Nat) (s : State) : State :=
  let x := s.engine e
  match x.regen with
  | st :: _ =>
    let s1 := putSlot e i { st with stage := .lock } (takeStripe st.uid s)
    (match cmdAt s st.cmd with
     | none => s1
     | some (_, c) => enterAndBegin e c st s1)
  | [] =>
    match poolRetry s e with
    | some st => startReadback e i st.cmd st.uid s
    | none =>
      match x.active.find? (canStart s e) with
      | none => x.active.foldl (fun t c => if c.checked ∧ c.next < c.stripes then wakeFor c t else t) s
      | some c =>
        let op := dOp c.desc
        let u := freshUid s
        if op = 9 then
          startReadback e i c.id (c.release.headD 0) (modCmd c.id (fun y => { y with release := y.release.drop 1, live := y.live + 1 }) s)
        else if op = 6 ∧ bufReady s e c = false then
          readMore e u.1 64 (putSlot e i (oldStripe u.1 c c.readNext none)
            (modCmd c.id (fun y => { y with readNext := y.readNext + 1, live := y.live + 1 }) u.2))
        else
          let st := newStripe u.1 c c.next
          let take (y : Cmd) : Cmd := if op = 6 then { y with buf := y.buf.drop (geoOf y.aux).payload,
                                                              bufSeals := y.bufSeals.drop ((geoOf y.aux).payload / 256) } else y
          enterAndBegin e c st (putSlot e i st (modCmd c.id (fun y => take { y with next := y.next + 1, live := y.live + 1 }) u.2))

/-- Stripes that wait in their slots for the pool or for a shelf choose their path again (R79). -/
def retryPlace (e : Nat) (s : State) : State :=
  ((s.engine e).slots.filter (fun x => decide (x.2.stage = .place))).foldl (fun t x => placeStripe e x.2.uid t) s

/-- A shelf has become awake: stripes that wait for it go on. -/
def retryAll (s : State) : State := (List.range 8).foldl (fun t e => retryPlace e t) s

/-! ## Contexts: fences and drains (R59, R84, R87, R386) -/

/-- A command ends with a failure: at once where it moves nothing yet, otherwise when what it has sent is over. -/
def abortCmd (st : Nat) (c : Cmd) (s : State) : State :=
  if c.checked then failCmd c.id st [] s else endCmd c st s

/-- What a command still has to send is not sent: no engine will make it again (R85). -/
def abandonCmd (st : Nat) (c : Cmd) (s : State) : State :=
  let mine := ((List.range 8).flatMap (fun k => let e := s.engine k; (e.slots.map (·.2)) ++ e.flying ++ e.regen) ++ s.eng.pool).filter
    (fun x => decide (x.cmd = c.id) && x.write)
  mine.foldl (fun t x => match findStripe t x.uid with | some y => failStripe y st [] t | none => t) s

/-- The device's mask of active engines. -/
def clearEngine (e : Nat) (s : State) : State :=
  odSet 0x7000 0x01 (odGet s 0x7000 0x01 &&& (255 - 2 ^ e)) (odSet (0x7001 + e) 0x01 2 (odSet (0x7001 + e) 0x02 0 s))

/-- Retirement is over once no record of the engine is on its way (R85): its bank moves, its tile is powered off. -/
def finishRetire (e : Nat) (s : State) : State :=
  let moving := s.eng.ctxs.any (fun x => decide (x.2.state = .moving) && decide (ctxEngine s x.1 = e) && x.2.landing.isSome)
  if (s.engine e).state = 1 ∧ moving = false then
    let next := ((List.range 7).map (fun i => (e + 1 + i) % 8)).find? (fun k => decide ((s.engine k).state = 0))
    let y := s.engine e
    let s1 := clearEngine e (s.setEngine e { y with state := 2 })
    let s2 := match next with
      | none => s1
      | some k => { s1 with eng := { s1.eng with bankOwner := (List.range 8).foldl (fun b i =>
                      if Tbl.get b i i = e then b.set i k else b) s1.eng.bankOwner } }
    let s3 := if h : e < 8 then setDom (.engine ⟨e, h⟩) .down s2 else s2
    raise (0x520 + e) (endRepair 0x08 0x0C (resource 7 e) {} s3)
  else s

/-- A context is FENCED; its descriptors complete with a failure: ENGINE_FAULT where its record is lost (R84), CONTEXT_DENIED where its
stall is fenced (R435). On an engine that retires, what its commands still had to send is not sent, and the retirement may be over with it (R85). -/
def fenceCtx (n st : Nat) (s : State) : State :=
  let x := s.ctx n
  if x.state = .free then s
  else
    let s1 := s.setCtx n { x with state := .fenced, landing := none, freeing := false }
    let cs := cmdsWhere s1 (fun c => decide (dCtx c.desc = n))
    let s2 := cs.foldl (fun t c => abortCmd st c t) s1
    if (s.engine (ctxEngine s n)).state = 0 then s2
    else finishRetire (ctxEngine s n) (cs.foldl (fun t c => abandonCmd st c t) s2)

/-- A function drains (R28, R87, R386): its commands post nothing more; what has not been sent is dropped. -/
def silenceFn (p fn : Nat) (s : State) : State :=
  let ofFn (c : Cmd) : Bool := match c.src with | .queue k => decide (qpPort k = p) && decide (qpFn k = fn) | .firmware => false
  let s0 := { s with eng := { s.eng with held := s.eng.held.filter (fun c => !ofFn c) } }
  (cmdsWhere s0 ofFn).foldl (fun t c =>
    let hush (y : Cmd) : Cmd := if y.id = c.id then { y with silent := true } else y
    let quiet := mapEngines (fun e => { e with active := e.active.map hush, queue := e.queue.map hush }) t
    if c.checked then finishCmd c.id (dropUnsent c.id quiet) else endCmd { c with silent := true } 0 quiet) s0

/-- Whether a function still has commands in the engines (R386). -/
def fnBusy (s : State) (p fn : Nat) : Bool :=
  !(cmdsWhere s (fun c => match c.src with | .queue k => decide (qpPort k = p) && decide (qpFn k = fn) | .firmware => false)).isEmpty

/-! ## Retirement (R61, R85) -/

/-- A stripe that was in a slot of a retired engine starts from its first stage (R28, R85). -/
def restartStripe (st : Stripe) : Stripe :=
  { st with stage := .lock, payload := if st.src = .buf then st.payload else [], sealBytes := if st.src = .buf then st.sealBytes else [],
            todoReads := [], pendingReads := 0, tries := 0, bad0 := none, rebuilt := false,
            frags := st.frags.map (fun f =>
              if f.state = .reading ∨ f.state = .good ∨ f.state = .missing then { f with state := .idle, bytes := [], seals := [], bad := [], poison := [] }
              else f) }

/-- The WRITEs of a stripe that still wait at their ports are taken back: their fragments are to be made again. -/
def recallWrites (a : List Stripe × State) (st : Stripe) : List Stripe × State :=
  let mine (c : DriveCmd) : Bool := decide (c.op = 2) && decide (c.uid = st.uid)
  let gone := a.2.ports.flatMap (fun x => (x.2.waiting.filter mine).map (·.frag))
  let frags := st.frags.zipIdx.map (fun x => if gone.contains x.2 ∧ x.1.state = .sent then { x.1 with state := .todo, bytes := [] } else x.1)
  (a.1 ++ [{ st with frags := frags }],
   { a.2 with ports := a.2.ports.map (fun x => (x.1, { x.2 with waiting := x.2.waiting.filter (fun c => !mine c) })) })

/-- The descriptors and stripes of a context go to its new engine, in arrival order (R85). A stripe that was still sending from its slot
sends nothing more from there: the fragments whose WRITE had not begun are made again on the new engine (R28; log entry 144). -/
def moveWork (n e t : Nat) (s : State) : State :=
  let a := s.engine e
  let ofCtx (c : Cmd) : Bool := decide (dCtx c.desc = n)
  let ids := (a.active.filter ofCtx).map (·.id)
  let mine (st : Stripe) : Bool := ids.contains st.cmd
  let inSlots := (a.slots.map (·.2)).filter mine
  let back := inSlots.filter (fun st => decide (st.stage = .readback))
  let sending := (inSlots.filter (fun st => decide (st.stage = .flying) && decide (st.src ≠ .pool))).foldl recallWrites ([], s)
  let todo (st : Stripe) : Bool := st.frags.any (fun f => decide (f.state = .todo))
  let again := (inSlots.filter (fun st => decide (st.src ≠ .pool) && decide (st.stage ≠ .flying)) ++ sending.1.filter todo).map restartStripe
  let a' := { a with queue := a.queue.filter (fun c => !ofCtx c), active := a.active.filter (fun c => !ofCtx c),
                     slots := a.slots.filter (fun x => !mine x.2), flying := a.flying.filter (fun x => !mine x),
                     regen := a.regen.filter (fun x => !mine x),
                     reads := a.reads.filter (fun r => !(inSlots.map (·.uid)).contains r.2.1) }
  let b := s.engine t
  let active' := (a.active.filter ofCtx).map (fun c =>
    let mineBack := (back.filter (fun st => decide (st.cmd = c.id))).filterMap (·.feeds)
    if dOp c.desc = 9 then { c with release := mineBack ++ c.release, live := c.live - mineBack.length } else c)
  let b' := { b with queue := b.queue ++ a.queue.filter ofCtx, active := b.active ++ active',
                     flying := b.flying ++ a.flying.filter mine ++ sending.1.filter (fun st => !todo st),
                     regen := b.regen ++ a.regen.filter mine ++ again }
  (sending.2.setEngine e a').setEngine t b'

/-- Records that an engine counts: those it holds, and the spilled ones that it would load. -/
def recordCount (s : State) (e : Nat) : Nat :=
  odGet s (0x7001 + e) 0x02 + (s.eng.ctxs.filter (fun x => x.2.spilled && decide (ctxEngine s x.1 = e))).length

/-- The survivor with the fewest records, ties to the lower number. -/
def fewest (counts : List (Nat × Nat)) : Nat :=
  match counts with
  | [] => 0
  | x :: r => (r.foldl (fun (b : Nat × Nat) y => if y.2 < b.2 then y else b) x).1

def bumpCount (e : Nat) (counts : List (Nat × Nat)) : List (Nat × Nat) := counts.map (fun x => if x.1 = e then (x.1, x.2 + 1) else x)

/-- An engine by its number. -/
def engineId (t : Nat) : Option EngineId := if h : t < 8 then some ⟨t, h⟩ else none

/-- One more record in an engine's context SRAM (R61, R86), of 9,472 slots. -/
def recordArrives (t : Nat) (s : State) : State :=
  if odGet s (0x7001 + t) 0x02 < 9472 then odSet (0x7001 + t) 0x02 (odGet s (0x7001 + t) 0x02 + 1) s else s

/-- A record that nothing uses takes its place on an engine, or in the backing store where the engine's slots are full (R61, R85). -/
def placeRecord (n t : Nat) (s : State) : State :=
  let full := decide (9472 ≤ odGet s (0x7001 + t) 0x02)
  let s1 := s.setCtx n { s.ctx n with engine := engineId t, spilled := full }
  if full then s1 else recordArrives t s1

/-- Where one record of a retiring engine goes (R85 step 3): a spilled one stays in the backing store, and its queued descriptors follow it
at once; a record in use moves; any other takes its place, a FENCED one with the work that its context still has (R28). -/
def assignRecord (e : Nat) (a : List (Nat × Nat) × State) (n : Nat) : List (Nat × Nat) × State :=
  let t := fewest a.1
  let x := a.2.ctx n
  let s1 :=
    if x.spilled then moveWork n e t (a.2.setCtx n { x with engine := engineId t })
    else if x.state = .free then placeRecord n t a.2
    else if x.state = .fenced then moveWork n e t (placeRecord n t a.2)
    else a.2.setCtx n { x with state := .moving, landing := some t, freeing := decide (x.state = .draining) || x.freeing }
  (bumpCount t a.1, s1)

/-- Whether a descriptor is completed without an engine where none is active (R85). -/
def needsNoEngine (c : Cmd) : Bool := decide (dOp c.desc = 0 ∨ dOp c.desc = 10)

/-- A NOP or FENCE leaves the last engine and waits for the earlier descriptors of its context (R85). -/
def holdCmd (c : Cmd) (s : State) : State :=
  let wasActive := (cmdAt s c.id).isSome
  let s1 := mapEngines (fun e => { e with active := e.active.filter (fun x => decide (x.id ≠ c.id)),
                                          queue := e.queue.filter (fun x => decide (x.id ≠ c.id)) }) s
  let s2 := countEnd c 0 wasActive s1
  { s2 with eng := { s2.eng with held := s2.eng.held ++ [c] } }

/-- The last active engine retires (R85): its readable records go to the backing store, NOP and FENCE wait for what is before them, and
every data descriptor completes with ENGINE_FAULT; what it still had to send is not sent. -/
def lastRetire (mine : List Nat) (s : State) : State :=
  let s1 := mine.foldl (fun t n => let x := t.ctx n
                                   if x.state = .fenced then t else t.setCtx n { x with spilled := true }) s
  let s2 := (cmdsWhere s1 needsNoEngine).foldl (fun t c => holdCmd c t) s1
  let cs := cmdsWhere s2 (fun _ => true)
  completeHeld (cs.foldl (fun t c => abandonCmd 0x13 c t) (cs.foldl (fun t c => abortCmd 0x13 c t) s2))

/-- The steps of a retirement begin (R85): contexts enter MOVING; the last active engine spills its records and ends its work. -/
def startRetire (e : Nat) (s : State) : State :=
  let y := s.engine e
  let s1 := odSet (0x7001 + e) 0x01 1 (s.setEngine e { y with state := 1 })
  let alive := (List.range 8).filter (fun k => decide ((s1.engine k).state = 0))
  let mine := (List.range 65536).filter (fun n => decide (ctxEngine s1 n = e))
  let s2 :=
    if alive.isEmpty then lastRetire mine s1
    else (mine.foldl (assignRecord e) (alive.map (fun k => (k, recordCount s1 k)), s1)).2
  finishRetire e s2

/-- At a bring-up whose repair map holds retired engines, their contexts are placed as a retirement places them (R61): in ascending order,
each on the survivor with the fewest records placed so far, the excess in the backing store. -/
def placeContexts (s : State) : State :=
  let gone := (List.range 8).filter (fun k => decide ((s.engine k).state ≠ 0))
  let alive := (List.range 8).filter (fun k => decide ((s.engine k).state = 0))
  let s1 := gone.foldl (fun t k => odSet (0x7001 + k) 0x02 0 t) s
  let theirs := gone.flatMap (fun k => (List.range 8192).map (8192 * k + ·))
  if alive.isEmpty then theirs.foldl (fun t n => t.setCtx n { t.ctx n with spilled := true }) s1
  else (theirs.foldl (fun (a : List (Nat × Nat) × State) n => (bumpCount (fewest a.1) a.1, placeRecord n (fewest a.1) a.2))
         (alive.map (fun k => (k, 8192)), s1)).2

/-- The Farrier retires an engine (R85, R443). -/
def retireEngine (e cause : Nat) (cls : BitVec 2) (stall : Nat) (s : State) : State :=
  if (s.engine e).state ≠ 0 then s
  else
    let r : Repair := { action := 0x0C, resource := BitVec.ofNat 16 (resource 7 e), incident := nextIncident s, cls := cls, stall := stall,
                        cause := BitVec.ofNat 16 cause,
                        uses := (List.range 8).filterMap (fun k =>
                          if k ≠ e ∧ (s.engine k).state = 0 then some (BitVec.ofNat 16 (resource 7 k)) else none) }
    let q := beginRepair 0x08 r s
    if q.1 then startRetire e q.2 else q.2

end Sys2Proof.Machine
end

