-- ==== Sys2Proof/Machine/Engine.lean ====
section
/-! DEFINITION. The commands of the stripe engines: descriptors, stripes, staging, the interlock, contexts and engine faults (R57–R88). -/

namespace Sys2Proof.Machine

/-! ## Engine commands (R66) -/

/-- NOP completes SUCCESS after validation. -/
def execEngineNop (e : EngineId) (st : EngStep) (s : State) : Answer := .next (engineRow e.val 0 st s)

/-- PUT (R69, R72). -/
def execPut (e : EngineId) (st : EngStep) (s : State) : Answer := .next (engineRow e.val 1 st s)

/-- GET (R22, R23, R73). -/
def execGet (e : EngineId) (st : EngStep) (s : State) : Answer := .next (engineRow e.val 2 st s)

/-- STAGE (R25, R78). -/
def execStage (e : EngineId) (st : EngStep) (s : State) : Answer := .next (engineRow e.val 3 st s)

/-- SCRUB (R76). -/
def execScrub (e : EngineId) (st : EngStep) (s : State) : Answer := .next (engineRow e.val 4 st s)

/-- REBUILD (R74). -/
def execRebuild (e : EngineId) (st : EngStep) (s : State) : Answer := .next (engineRow e.val 5 st s)

/-- REENCODE (R75). -/
def execReencode (e : EngineId) (st : EngStep) (s : State) : Answer := .next (engineRow e.val 6 st s)

/-- SEAL. -/
def execSealSpans (e : EngineId) (st : EngStep) (s : State) : Answer := .next (engineRow e.val 7 st s)

/-- VERIFY. -/
def execVerify (e : EngineId) (st : EngStep) (s : State) : Answer := .next (engineRow e.val 8 st s)

/-- RELEASE (R71). -/
def execRelease (e : EngineId) (st : EngStep) (s : State) : Answer := .next (engineRow e.val 9 st s)

/-- FENCE completes once every earlier descriptor of its context has (R62): it starts only then. -/
def execEngineFence (e : EngineId) (st : EngStep) (s : State) : Answer := .next (engineRow e.val 10 st s)

/-! ## The scheduler (R62, R82) -/

/-- Whether a queued descriptor may start (R61, R62): the oldest queued of its context, whose record is here, under the fence rule. -/
def eligible (s : State) (e : Nat) (c : Cmd) : Bool :=
  let x := s.ctx (dCtx c.desc)
  let oldest := !(s.engine e).queue.any (fun y => decide (dCtx y.desc = dCtx c.desc) && decide (y.id < c.id))
  oldest && decide (x.state ≠ .moving) && decide (x.state ≠ .fenced) && !x.spilled &&
    (!fences c.desc || !earlierOpen s c)

/-- The weight of a service class (R82, R86). -/
def classShare (s : State) (k : Nat) : Nat := odGet s 0x7000 (0x02 + k)

/-- The class a descriptor is served in. -/
def cmdClass (s : State) (c : Cmd) : Nat := (s.ctx (dCtx c.desc)).cls.toNat

/-- What each class has had of its weight in this round; a new round begins when no class with work has any of its weight, as the
dictionary now holds it, left (R82). -/
def servedNow (s : State) (x : Engine) (classes : List Nat) : Tbl Nat :=
  if classes.all (fun k => decide (classShare s k ≤ Tbl.get x.served k 0)) then [] else x.served

/-- What is left of the weights. -/
def creditsNow (s : State) (served : Tbl Nat) : Tbl Nat := [0, 1, 2].map (fun k => (k, classShare s k - Tbl.get served k 0))

/-- The class served next: the most credit, ties by rotating priority with the last winner lowest. -/
def pickClass (credit : Tbl Nat) (last : Nat) (classes : List Nat) : Option Nat :=
  (((List.range 3).map (fun i => (last + 1 + i) % 3)).filter (fun k => classes.contains k)).foldl (fun b k =>
    match b with
    | none => some k
    | some j => if Tbl.get credit j 0 < Tbl.get credit k 0 then some k else some j) none

/-- DESCRIPTOR_START: the scheduler starts the oldest eligible descriptor of the class whose turn it is; at most 64 are active,
and none starts while PWRFAIL_N holds or in the fatal state (R428, R436). -/
def startDescriptor (e : Nat) (s : State) : State :=
  let x := s.engine e
  let el := x.queue.filter (eligible s e)
  let classes := (el.map (cmdClass s)).eraseDups
  let served := servedNow s x classes
  if x.state ≠ 0 ∨ 64 ≤ x.active.length ∨ s.pwr.pwrfail = true ∨ s.eng.stopped = true then s
  else match pickClass (creditsNow s served) x.lastClass classes with
    | none => s
    | some k =>
      match el.find? (fun c => decide (cmdClass s c = k)) with
      | none => s
      | some c =>
        let n := dCtx c.desc
        let y := s.ctx n
        let s1 := s.setEngine e { x with queue := x.queue.filter (fun z => decide (z.id ≠ c.id)), active := x.active ++ [{ c with started := true }],
                                         lastClass := k, served := served.set k (Tbl.get served k 0 + 1) }
        let s2 := s1.setCtx n { y with queued := y.queued - 1, active := y.active + 1 }
        { s2 with eng := { s2.eng with lru := n :: s2.eng.lru.filter (fun m => decide (m ≠ n)) } }

def execDescriptorStart (e : EngineId) (s : State) : Answer :=
  if domState s (.engine e) = .up then .next (startDescriptor e.val s) else .next s

/-- STRIPE_START: a stripe takes a free slot and an interlock entry and begins (R69, R80). Slots whose last fragment byte has been sent are
free (R71). -/
def execStripeStart (e : EngineId) (s : State) : Answer :=
  if (s.engine e.val).state ≠ 0 ∨ domState s (.engine e) ≠ .up then .next s
  else
    let s1 := sweepSent e.val s
    match freeSlot s1 e.val with
    | none => .next s1
    | some i => .next (startStripe e.val i s1)

/-! ## Checks -/

/-- The span of lowest number among those that failed. -/
def lowestBad (bad : List SpanBad) : Option SpanBad :=
  bad.foldl (fun b x => match b with | none => some x | some y => if x.span < y.span then some x else some y) none

/-- The record of a parity cross-check (R70). -/
def recordCheck (c : Cmd) (st : Stripe) (cls : BitVec 2) (first : Option (Word × Word)) (s : State) : State :=
  let g := stGeo c st
  let w := first.getD (0, 0)
  recordSeal { point := 2, cls := cls, locKind := 2, locator := spanIndex g st 0 0, ctx := dCtx c.desc, stall := cmdStall s c,
               expected := w.1, computed := w.2 } s

/-- The parity comparison of a stripe is over (R19, R69, R70): its path is chosen, it is encoded again once, or it fails. -/
def parityChecked (e : Nat) (c : Cmd) (st : Stripe) (bad : List SpanBad) (s : State) : State :=
  let first := (lowestBad bad).map (fun b => (b.expected, b.computed))
  if bad.isEmpty then
    placeStripe e st.uid (if st.tries = 0 then s else odBump (0x7001 + e) 0x04 (recordCheck c st 0 st.bad0 s))
  else if st.tries = 0 then setStripe { st with tries := 1, bad0 := first } s
  else
    failStripe st 0x13 [spanIndex (stGeo c st) st 0 0] (countEngineFault e (recordCheck c st 2 st.bad0 s))

/-- Records of failed rebuild cross-checks, one for each span (R50 point 0xA, R70). R55 does not say what such a record names; the drive
location of the fragment that was rebuilt, with LOC_KIND 1, is the model's choice (log entry 145). -/
def recordRebuild (c : Cmd) (st : Stripe) (poisoned : Bool) (bad : List SpanBad) (s : State) : State :=
  let g := stGeo c st
  bad.foldl (fun t b =>
    recordSeal { point := 0xA, cls := 1, poisoned := poisoned, locKind := 1,
                 locator := driveLocator (st.frags.getD (b.span / g.spans) noFrag).port (st.frags.getD (b.span / g.spans) noFrag).block
                   (b.span % g.spans), ctx := dCtx c.desc,
                 stall := cmdStall t c, expected := b.expected, computed := b.computed } t) s

/-- The rebuild cross-check of a stripe is over (R21, R22, R50, R73–R76). Spans are numbered fragment by fragment. -/
def rebuildChecked (e : Nat) (c : Cmd) (st : Stripe) (bad : List SpanBad) (s : State) : State :=
  let g := stGeo c st
  let op := dOp c.desc
  let badOf (f : Nat) : List Nat := (bad.filter (fun b => decide (b.span / g.spans = f))).map (fun b => b.span % g.spans)
  let gets := decide (op = 2 ∨ op = 3)
  let todo (f : Nat) : Bool := decide ((st.frags.getD f noFrag).state = .todo)
  let s1 := recordRebuild c st gets bad s
  if op = 4 then
    let s2 := recordMissing c { st with frags := st.frags.zipIdx.map (fun x => if (badOf x.2).isEmpty then { x.1 with state := .idle } else x.1) }
      (fun f _ => { cls := 1, lost := badOf f }) s1
    let fixed := st.frags.zipIdx.map (fun x =>
      if x.1.state = .missing ∨ x.1.state = .todo then
        (if (badOf x.2).isEmpty then { x.1 with state := .good, poison := [] } else { x.1 with state := .failed, bytes := [], missed := none })
      else x.1)
    let mend := (List.range st.frags.length).filter (fun f =>
      let x := st.frags.getD f noFrag; (decide (x.state = .missing) || decide (x.state = .todo)) && (badOf f).isEmpty)
    let fresh := st.frags.all (fun x => decide (x.state ≠ .todo))
    let good (f : Nat) : Bool := decide ((fixed.getD f noFrag).state = .good)
    let more := if fresh && (List.range g.k).all good then (parityDiffs g fixed).filter (fun f => good f && !mend.contains f) else []
    let s3 := if bad.isEmpty then s2 else modCmd st.cmd (addFault 0x02 (bad.filterMap (fun b =>
      if b.span / g.spans < g.k then some (spanIndex g st (b.span / g.spans) (b.span % g.spans)) else none)) []) s2
    if !more.isEmpty then scrubParity e c { st with frags := fixed } more mend s3
    else
      let frags := (toRewrite c (mend.filter (fun f => !todo f)) fixed).zipIdx.map (fun x =>
        if mend.contains x.2 ∧ todo x.2 then { x.1 with state := .todo } else x.1)
      placeStripe e st.uid (setStripe { st with frags := frags, stage := .place } s3)
  else if op = 5 then
    let frags := st.frags.zipIdx.map (fun x =>
      if x.1.state = .todo ∧ ¬(badOf x.2).isEmpty then { x.1 with state := .failed, bytes := [] } else x.1)
    let s2 := if bad.isEmpty then s1 else modCmd st.cmd (addFault 0x02 (bad.filterMap (fun b =>
      if b.span / g.spans < g.k then some (spanIndex g st (b.span / g.spans) (b.span % g.spans)) else none)) []) s1
    placeStripe e st.uid (setStripe { st with frags := frags, stage := .place } s2)
  else
    let s2 := recordMissing c st (fun f x => { cls := if x.bad.isEmpty && !(badOf f).isEmpty then 1 else 0, lost := badOf f,
                                               poisoned := if gets then badOf f else [] }) s1
    let frags := st.frags.zipIdx.map (fun x =>
      if x.2 < g.k ∧ x.1.state = .missing then
        (if (badOf x.2).isEmpty then { x.1 with state := .good, bad := [], poison := [] } else { x.1 with bad := [], poison := badOf x.2 })
      else x.1)
    deliver e c { st with frags := frags } s2

/-- STRIPE_CHECK_DONE: the last comparison of the stripe in a slot has finished with the spans that failed; where REENCODE reads again for
that stripe, it is the rebuild cross-check of what was read (R21, R72). -/
def execStripeCheckDone (e : EngineId) (slot : Fin 4) (bad : List SpanBad) (s : State) : Answer :=
  match slotStripe s e.val slot.val with
  | none => .next s
  | some st =>
    match cmdAt s st.cmd with
    | none => .next s
    | some (_, c) =>
      let read := (s.engine e.val).flying.find? (fun y => decide (y.feeds = some st.uid) && decide (y.stage = .rebuilt))
      if st.stage = .check then .next (parityChecked e.val c st bad s)
      else if st.stage = .rebuilt then .next (rebuildChecked e.val c st bad s)
      else .next (match read with | some y => rebuildChecked e.val c y bad s | none => s)

/-! ## Staging (R71, R79) -/

/-- STAGING_POOL_SPACE: stripes that wait in their slots go to the pool, or on their way. -/
def execStagingPoolSpace (e : EngineId) (s : State) : Answer := .next (retryPlace e.val s)

/-- The tokens of one refill: STAGING_CAP GB/s for 1,024 cycles of the 2 GHz ring clock. -/
def refillTokens (s : State) : Int := (odGet s 0x7000 0x05 * 512 : Nat)

/-- STAGING_TOKEN_REFILL: the bucket holds at most four refills. -/
def execStagingTokenRefill (e : EngineId) (s : State) : Answer :=
  let x := s.engine e.val
  .next (retryPlace e.val (s.setEngine e.val { x with tokens := min (4 * refillTokens s) (x.tokens + refillTokens s) }))

/-- The end of a RELEASE's part in a stripe. -/
def releasePart (st : Stripe) (s : State) : State :=
  match cmdAt s st.cmd with
  | some (_, c) => if dOp c.desc = 9 then finishCmd c.id (modCmd c.id (fun y => { y with live := y.live - 1 }) s) else s
  | none => s

/-- The fragments of a pooled stripe that a readback sends: those not sent whose port's shelf is awake now (R71); none where the
shelf of the RELEASE has fallen asleep meanwhile (R87). -/
def releaseFrags (s : State) (cmd : Nat) (st : Stripe) : List Nat :=
  let asleep := match cmdAt s cmd with
    | some (_, c) => decide (dOp c.desc = 9) && !shelfAwake s (natField (dAuxWord c.desc) 0 10)
    | none => false
  if asleep then []
  else (List.range st.frags.length).filter (fun f =>
    let x := st.frags.getD f noFrag; decide (x.state = .todo) && portAwake s x.port)

/-- The sector of the pool that holds span `t` of fragment `f` of a buffered stripe. -/
def poolSector (st : Stripe) (f t : Nat) : Nat :=
  Config.poolSector (st.poolAt + match (poolSpans st).find? (fun x => decide (x.1 = f) && decide (x.2.1 = t)) with | some x => x.2.2 | none => 0)

/-- Spans of a readback that failed their check as they arrived are poisoned in the pool and recorded (R19, R50 point 0x4); those that memory
already held poisoned are recorded there. -/
def poisonPool (g : Geo) (pooled : Stripe) (bad : List SpanBad) (s : State) : State :=
  bad.foldl (fun t b =>
    let sec := poolSector pooled (b.span / g.spans) (b.span % g.spans)
    recordSeal { point := 4, cls := 1, poisoned := true, locKind := 0, locator := sec, stall := 0,
                 expected := b.expected, computed := b.computed } (poisonSpan sec t)) s

/-- Staged spans, by fragment and span of it, failed their check (R19): the stripe is not sent and its command ends ENGINE_FAULT. FIRST_SPAN and
SPAN_COUNT number spans of the payload; that a span of parity adds none to them is the model's choice (log entry 146). -/
def readbackFailed (pooled : Stripe) (bad : List (Nat × Nat)) (s : State) : State :=
  match cmdAt s pooled.cmd with
  | none => s
  | some (_, c) =>
    let g := stGeo c pooled
    let spans := bad.filterMap (fun b => if b.1 < g.k then some (spanIndex g pooled b.1 b.2) else none)
    let marked := { pooled with frags := pooled.frags.zipIdx.map (fun x =>
      { x.1 with poison := x.1.poison ++ (bad.filter (fun b => decide (b.1 = x.2))).map (·.2) }) }
    failStripe marked 0x13 spans (setStripe marked s)

/-- A buffered stripe whose read was made again after an uncorrectable error of the staging SRAM has arrived whole: the error is corrected, counted
and recorded (R84). -/
def settleReadback (e : Nat) (pooled : Stripe) (s : State) : State :=
  match cmdAt s pooled.cmd with
  | some (_, c) => settleSram e c pooled s
  | none => s

/-- RELEASE_READBACK_DONE: the stripe read back is sent where its shelf is still awake, its slot being kept until the last byte has gone, or
returns to the pool (R71, R87). -/
def execReleaseReadbackDone (e : EngineId) (slot : Fin 4) (bad : List SpanBad) (s : State) : Answer :=
  match slotStripe s e.val slot.val with
  | none => .next s
  | some st =>
    if st.stage ≠ .readback then .next s
    else
      match st.feeds.bind (findStripe s) with
      | none => .next (releasePart st (takeStripe st.uid s))
      | some pooled =>
        let g := match cmdAt s pooled.cmd with | some (_, c) => stGeo c pooled | none => ⟨0, 0, 0⟩
        let r := readPool pooled s
        let fails := r.1.bad ++ (bad.map (fun b => (b.span / g.spans, b.span % g.spans))).filter (fun b => !r.1.bad.contains b)
        if !fails.isEmpty then
          let fresh := bad.filter (fun b => !r.1.bad.contains (b.span / g.spans, b.span % g.spans))
          .next (releasePart st (readbackFailed pooled fails (poisonPool g pooled fresh (takeStripe st.uid r.2))))
        else
          let whole := { pooled with frags := r.1.frags, sramTries := if pooled.sramTries = 1 then 2 else pooled.sramTries }
          let s0 := settleReadback e.val pooled r.2
          let which := releaseFrags s0 st.cmd whole
          let s1 := if which.isEmpty then takeStripe st.uid s0 else setStripe { st with stage := .flying } s0
          .next (releasePart st (sendFrags g whole which (setStripe (markSent whole which true) s1)))

/-- INTERLOCK_ENTRY_FREE: the first stripe of the engine that waits for a key of the bank, with no earlier one for the same key, enters
it and begins (R28, R80). -/
def execInterlockEntryFree (bank e : EngineId) (s : State) : Answer :=
  let ready (w : Nat × Nat × Nat) : Bool :=
    decide (bankOf (w.1, w.2.1) = bank.val) && keyFree s (w.1, w.2.1) && decide (bankCount s bank.val < 4096) &&
      (match findStripe s w.2.2 with | some st => decide (stripeEngine s st = e.val) | none => false) &&
      decide ((s.eng.lockWait.find? (fun v => decide ((v.1, v.2.1) = (w.1, w.2.1)))) = some w)
  match s.eng.lockWait.find? ready with
  | none => .next s
  | some w => .next (beginStripe e.val w.2.2 (enterKey (w.1, w.2.1) w.2.2 s))

/-! ## Host reads (R77) -/

/-- The spans of a stripe that a host read covers. R19 does not say which spans a failed host read puts at fault: that they are all those
that the read, of up to 1 KiB, covers is the model's choice (log entry 147). -/
def readSpans (r : HRead) : List Nat :=
  let lo := if r.isSeal then r.off / 8 else r.off / 256
  let hi := if r.isSeal then (r.off + r.len + 7) / 8 else (r.off + r.len + 255) / 256
  (List.range (hi - lo)).map (· + lo)

/-- The completion of an engine's read is received on the link of its function (R513). -/
def countAnswer (e tag : Nat) (s : State) : State :=
  match (s.engine e).reads.find? (fun r => decide (r.1 = tag)) with
  | some (_, _, r) => countLink (fnLink s (r.fn / 257) (r.fn % 257)) 1 1 s
  | none => s

/-- The answer to an engine's host read (R19, R77): its bytes take their place; poisoned data or a Completer Abort fails the stripe. -/
def hostReadAnswer (e tag : Nat) (answer : ReadAnswer) (s : State) : State :=
  let x := s.engine e
  match x.reads.find? (fun r => decide (r.1 = tag)) with
  | none => s
  | some (_, uid, r) =>
    let s1 := s.setEngine e { x with reads := x.reads.filter (fun y => decide (y.1 ≠ tag)) }
    match findStripe s1 uid with
    | none => pump e s1
    | some st =>
      let first := match cmdAt s1 st.cmd with
        | some (_, c) => if dOp c.desc = 7 ∨ dOp c.desc = 8 then st.index * chunkSpans else spanIndex (stGeo c st) st 0 0
        | none => 0
      match answer with
      | .data bytes =>
        let got := takePad r.len 0 bytes
        let st1 := if r.isSeal then { st with sealBytes := overlay st.sealBytes r.off got, pendingReads := st.pendingReads - 1 }
                   else { st with payload := overlay st.payload r.off got, pendingReads := st.pendingReads - 1 }
        let s2 := pump e (setStripe st1 s1)
        if st1.pendingReads = 0 ∧ st1.todoReads = [] ∧ st1.stage = .pull then pullDone e uid s2 else s2
      | .poisoned => pump e (failStripe st 0x11 ((readSpans r).map (· + first)) s1)
      | .completerAbort => pump e (failStripe st 0x11 ((readSpans r).map (· + first)) s1)

def execHostReadCompletion (e : EngineId) (tag : Nat) (answer : ReadAnswer) (s : State) : Answer :=
  .next (hostReadAnswer e.val tag answer (countAnswer e.val tag s))

/-! ## Contexts (R58–R61) -/

/-- The records an engine holds of contexts that are not FREE. -/
def heldRecords (s : State) (e : Nat) : Nat :=
  (s.eng.ctxs.filter (fun x => decide (x.2.state ≠ .free) && !x.2.spilled && decide (ctxEngine s x.1 = e))).length

/-- The least recently used IDLE record of an engine (R61). -/
def idleVictim (s : State) (e : Nat) : Option Nat :=
  let idle := (s.eng.ctxs.filter (fun x => decide (x.2.state = .idle) && !x.2.spilled && decide (ctxEngine s x.1 = e))).map (·.1)
  match idle.find? (fun n => !s.eng.lru.contains n) with
  | some n => some n
  | none => s.eng.lru.reverse.find? (fun n => idle.contains n)

/-- Room for one record on an engine: a free slot, or the place of an IDLE record, which goes to the backing store (R61). -/
def makeRoom (e : Nat) (s : State) : Bool × State :=
  if (s.engine e).state ≠ 0 then (false, s)
  else if heldRecords s e < 9472 then (true, s)
  else match idleVictim s e with
    | none => (false, s)
    | some n => (true, s.setCtx n { s.ctx n with spilled := true })

/-- CONTEXT_LOAD_DONE: a spilled record takes its place on the engine that loads it (R61). -/
def execContextLoadDone (e : EngineId) (c : CtxId) (s : State) : Answer :=
  let n := c.toNat
  if s.eng.loading.contains n ∧ (s.ctx n).spilled ∧ ctxEngine s n = e.val then
    let r := makeRoom e.val s
    if r.1 then
      let s1 := recordArrives e.val (r.2.setCtx n { r.2.ctx n with spilled := false })
      .next { s1 with eng := { s1.eng with loading := s1.eng.loading.filter (fun m => decide (m ≠ n)) } }
    else .next s
  else .next s

/-- The context a path has selected (R60, R487). -/
def selectedCtx (s : State) (p : Path) : Nat := pathGet s p 0x7100 0x01

/-- The result of the last CTX_CONTROL write of a path. -/
def ctxResult (p : Path) (v : Nat) (s : State) : State := pathSet p 0x7100 0x04 v s

/-- A create (R60): BUSY while the previous free drains, EXISTS on any context that is not FREE, NO_SPACE without a slot. -/
def createCtx (p : Path) (stall : BitVec 9) (cls : BitVec 2) (sealsReq forceBuf : Bool) (s : State) : State :=
  let n := selectedCtx s p
  let x := s.ctx n
  if x.state = .draining then ctxResult p 1 s
  else if x.state ≠ .free then ctxResult p 2 s
  else
    let r := makeRoom (ctxEngine s n) s
    if !r.1 then ctxResult p 4 s
    else
      let s1 := r.2.setCtx n { state := .idle, stall := stall, cls := cls, sealsReq := sealsReq, forceBuf := forceBuf, engine := x.engine }
      ctxResult p 0 (if x.spilled then recordArrives (ctxEngine s n) s1 else s1)

/-- A free request on a context; whether it is denied (R60, R87). -/
def freeCtx (n : Nat) (unfence : Bool) (s : State) : Bool × State :=
  let x := s.ctx n
  let gone : Ctx := { engine := x.engine, spilled := x.spilled }
  match x.state with
  | .free => (false, s)
  | .idle => (true, s.setCtx n gone)
  | .active => (true, s.setCtx n { x with state := .draining })
  | .draining => (true, s)
  | .moving => (true, s.setCtx n { x with freeing := true })
  | .fenced =>
    if !unfence then (false, s)
    else if 0 < x.active then (true, s.setCtx n { x with state := .draining })
    else (true, s.setCtx n gone)

/-- The value written to CTX_CONTROL. -/
def ctxControl (action : Nat) (stall : BitVec 9) (cls : BitVec 2) (sealsReq forceBuf : Bool) : Nat :=
  action + stall.toNat * 8 + cls.toNat * 4096 + (if sealsReq then 16384 else 0) + (if forceBuf then 32768 else 0)

/-- CTX_CREATE: CTX_CONTROL action 1. -/
def execCtxCreate (path : Path) (stall : BitVec 9) (cls : BitVec 2) (sealsReq forceBuf : Bool) (s : State) : Answer :=
  .next (odWriteNat path 0x7100 0x03 (ctxControl 1 stall cls sealsReq forceBuf) (createCtx path stall cls sealsReq forceBuf) s)

/-- The behaviour of CTX_CONTROL actions 2 and 3. -/
def freeSelected (p : Path) (unfence : Bool) (s : State) : State :=
  let r := freeCtx (selectedCtx s p) unfence s
  ctxResult p (if r.1 then 0 else 3) r.2

/-- CTX_FREE: CTX_CONTROL action 2. -/
def execCtxFree (path : Path) (s : State) : Answer :=
  .next (odWriteNat path 0x7100 0x03 2 (freeSelected path false) s)

/-- CTX_UNFENCE_FREE: CTX_CONTROL action 3. -/
def execCtxUnfenceFree (path : Path) (s : State) : Answer :=
  .next (odWriteNat path 0x7100 0x03 3 (freeSelected path true) s)

/-! ## Engine faults and retirement (R84, R85) -/

/-- ENGINE_NO_PROGRESS: the agent requests retirement of an engine with a stripe in hand. -/
def execEngineNoProgress (e : EngineId) (s : State) : Answer :=
  let x := s.engine e.val
  if x.slots.isEmpty ∧ x.flying.isEmpty ∧ x.regen.isEmpty then .next s
  else .next (retireEngine e.val 2 0 0 s)

/-- A stripe in hand whose data the staging SRAM lost is pulled again once; the second time its command ends ENGINE_FAULT (R84). -/
def sramAgain (e : Nat) (c : Cmd) (st : Stripe) (again : Stripe → State → State) (s : State) : State :=
  if st.sramTries = 0 then again { st with sramTries := 1 } s
  else failStripe st 0x13 [spanIndex (stGeo c st) st 0 0] (countEngineFault e (engineRec e 5 2 (cmdStall s c) s))

/-- The staging SRAM lost fragments that a slot was sending: those whose WRITE has not begun are taken back, and the stripe is pulled again for
them; what the links have is not lost (R71, R84). -/
def sramFlying (e : Nat) (c : Cmd) (st : Stripe) (s : State) : State :=
  let r := recallWrites ([], s) st
  match r.1 with
  | [x] =>
    if x.frags.any (fun f => decide (f.state = .todo)) then
      sramAgain e c x (fun y t => putRegen e (restartStripe y) (takeStripe y.uid t)) r.2
    else s
  | _ => s

/-- The staging SRAM lost a stripe that a slot read back from the pool, or was sending from there: the pool is read again (R71, R84). -/
def sramPooled (e : Nat) (c : Cmd) (st pooled : Stripe) (s : State) : State :=
  if st.stage = .readback then
    (if pooled.sramTries = 0 then sramAgain e c pooled setStripe s
     else releasePart st (sramAgain e c pooled setStripe (takeStripe st.uid s)))
  else
    let r := recallWrites ([], s) pooled
    match r.1 with
    | [x] =>
      let y := { x with frags := x.frags.zipIdx.map (fun f =>
        if f.1.state = .todo then { f.1 with reissued := true, bytes := (pooled.frags.getD f.2 noFrag).bytes } else f.1) }
      sramAgain e c y (fun z t => takeStripe st.uid (setStripe z t)) r.2
    | _ => s

/-- STAGING_SRAM_UE (R84): a stripe that is pulled, sent or read back from the pool starts its pull again once, then fails; a fragment that was
read is missing, and one rebuilt in the slot is rebuilt again. A slot that waits for the interlock holds no data. -/
def execStagingSramUe (e : EngineId) (slot : Fin 4) (span : Nat) (s : State) : Answer :=
  match slotStripe s e.val slot.val with
  | none => .next s
  | some st =>
    if st.src = .pool then
      .next (match st.feeds.bind (findStripe s) with
        | none => releasePart st (takeStripe st.uid s)
        | some pooled => (match cmdAt s pooled.cmd with | some (_, d) => sramPooled e.val d st pooled s | none => s))
    else
    match cmdAt s st.cmd with
    | none => .next s
    | some (_, c) =>
      let g := stGeo c st
      if st.stage = .reading ∨ st.stage = .rebuilt then
        let f := span / g.spans
        let x := st.frags.getD f noFrag
        if x.state = .good then
          .next (readMore e.val st.uid 64 (setStripe { setFrag st f { x with state := .missing, bytes := [], sramUe := true } with stage := .reading, rebuilt := false } s))
        else if st.stage = .rebuilt ∧ (x.state = .missing ∨ x.state = .todo) then
          .next (resolve e.val st.uid (engineRec e.val 5 0 (cmdStall s c) (setStripe { st with stage := .reading, rebuilt := false } s)))
        else .next s
      else if st.stage = .lock then .next s
      else if st.stage = .flying then .next (sramFlying e.val c st s)
      else
        .next (sramAgain e.val c st (fun y t =>
          let x := t.engine e.val
          beginStripe e.val y.uid (setStripe (restartStripe y) (t.setEngine e.val { x with reads := x.reads.filter (fun r => decide (r.2.1 ≠ st.uid)) }))) s)

/-- ENGINE_SRAM_CE: corrected in place and counted. -/
def execEngineSramCe (e : EngineId) (s : State) : Answer := .next (odBump (0x7001 + e.val) 0x04 s)

/-- A moved record lands (R60, R85): the context takes the state it had, or drains where it was freed meanwhile, and its work follows. -/
def landRecord (n : Nat) (s : State) : State :=
  let x := s.ctx n
  match x.state, x.landing with
  | .moving, some t =>
    let e := ctxEngine s n
    if (s.engine t).state ≠ 0 then finishRetire e (fenceCtx n 0x13 s)
    else
      let idle := decide (x.active = 0) && decide (x.queued = 0)
      let full := decide (9472 ≤ heldRecords s t)
      let e' := engineId t
      let y : Ctx := { x with engine := e', landing := none, freeing := false, spilled := full,
                              state := if x.freeing then .draining else if idle then .idle else .active }
      let z : Ctx := if x.freeing && idle then { engine := e', spilled := full } else y
      let s1 := moveWork n e t (s.setCtx n z)
      let s2 := if full then s1 else recordArrives t s1
      let s3 := if full && decide (0 < x.queued) then { s2 with eng := { s2.eng with loading := s2.eng.loading ++ [n] } } else s2
      finishRetire e s3
  | _, _ => s

/-- CONTEXT_RECORD_LANDED. -/
def execContextRecordLanded (c : CtxId) (s : State) : Answer := .next (landRecord c.toNat s)

end Sys2Proof.Machine
end

