-- ==== Sys2Proof/Machine/HostQueues.lean ====
section
/-! DEFINITION. The commands of the host endpoint's queue pairs and mailboxes (R370–R379). -/

namespace Sys2Proof.Machine

/-! ## A request of the host arrives (R384–R389, R418) -/

/-- The domains a request of a link reaches: its controller, and the ring of the die its port lies on (R418, R419). -/
def hostDomains (l : Nat) : List Domain :=
  (if h : l < 4 then [.hostCtl ⟨l, h⟩] else []) ++ [.ring (if l < 2 then 0 else 1)]

def hostUp (s : State) (l : Nat) : Bool := (hostDomains l).all (fun d => decide (domState s d = .up))

/-- Whether a link brings TLPs. -/
def linkTrained (k : HostLink) : Bool := !([HostLink.down, .training, .off].contains k)

def inL1 (k : HostLink) : Bool := [HostLink.l1, .l11, .l12].contains k

/-- A link's state changes, and its source is raised (R391, R393). -/
def setHostLink (l : Nat) (k : HostLink) (s : State) : State :=
  if (s.ctl l).link = k then s else raise (0x528 + l) (s.setCtl l { s.ctl l with link := k })

/-- A link that leaves L1 goes to L0, through Recovery where a quad waits for its spare lane (R392). -/
def exitL1 (l : Nat) (s : State) : State :=
  if !inL1 (s.ctl l).link then s
  else
    let s1 := wakeDevice 1 ((hostDomains l).foldl (fun t d => wakeDom d t) s)
    if (s1.ctl l).spareWaiting = [] then setHostLink l .l0 s1
    else odBump (0x8010 + l) 0x08 (setHostLink l .recovery s1)

/-- A request of the host arrives: it wakes what sleeps and waits for it, or takes effect (R418, R420). -/
def arrive (l : Nat) (t : HostTlp) (act : State → State) (s : State) : State :=
  if !linkTrained (s.ctl l).link then s
  else
    let s1 := wakeDevice 1 (countLink l 1 1 (exitL1 l s))
    if hostUp s1 l then act s1
    else { ((hostDomains l).foldl (fun u d => wakeDom d u) s1) with host := { s1.host with heldIn := s1.host.heldIn ++ [t] } }

/-- Whether a function answers memory requests (R387, R388). -/
def fnAnswers (s : State) (p fn : Nat) : Bool :=
  !s.host.fatal && (decide (fn = 0) || vfEnabled s p fn) && (s.fn p fn).drain.isNone && !(s.fn p fn).d3hot

/-- An Unsupported Request, noted in a function's AER as advisory non-fatal (R382, R388, PCIe). -/
def unsupported (p fn : Nat) (s : State) : State :=
  odBump (0x8010 + fnLink s p fn) 0x09 (emitTlp (fnLink s p fn) (.unsupported p) (mapFn p fn (fun f => { f with devSta := f.devSta ||| 8 }) (aerAdvisory (fnKey p fn) 20 s)))

/-- A Completer Abort, noted in a function's AER as advisory non-fatal (R370, R382, R388, PCIe). -/
def completerAbort (p fn : Nat) (s : State) : State := emitTlp (fnLink s p fn) (.completerAbort p) (aerAdvisory (fnKey p fn) 15 s)

/-- A discarded write of a doorbell or another register (R370, R374). -/
def discardWrite (p fn : Nat) (s : State) : State := odBump (0x8010 + fnLink s p fn) 0x0A s

/-! ## Doorbells (R374) -/

/-- A doorbell value out of range: ERROR, vector 0, the controller's source and the count (R374, R393). -/
def queueError (k : Nat) (s : State) : State :=
  let l := fnLink s (qpPort k) (qpFn k)
  raise (0x528 + l) (sendMsix (qpPort k) (qpFn k) 0 (odBump (0x8010 + l) 0x0B (s.setQp k { s.qp k with error := true })))

/-- What a doorbell write meets before its value is looked at (R374, R387, R389, R505). -/
def doorbell (p fn q : Nat) (act : Nat → State → State) (s : State) : State :=
  let k := qpKey p fn q
  if !fnAnswers s p fn then unsupported p fn s
  else if !s.boot.ready || (s.fn p fn).fenced || !(s.qp k).enable || (s.qp k).deleting then discardWrite p fn s
  else act k (countLink (fnLink s p fn) 3 1 s)

/-- A new SQ tail; one at or above the depth is an error of the queue pair (R374). -/
def setSqTail (v : BitVec 32) (k : Nat) (t : State) : State :=
  let x := t.qp k
  if 2 ^ x.sqLog2.toNat ≤ natField v.toNat 0 16 then queueError k t else t.setQp k { x with sqTail := v.truncate 16 }

/-- A new CQ head; one that passes CQ_TAIL is an error of the queue pair (R374). -/
def setCqHead (v : BitVec 32) (k : Nat) (t : State) : State :=
  let x := t.qp k
  let depth := 2 ^ x.cqLog2.toNat
  let h := natField v.toNat 0 16
  let used := (h + depth - x.cqHead.toNat) % depth
  if depth ≤ h ∨ x.held < used then queueError k t
  else t.setQp k { x with cqHead := BitVec.ofNat 16 h, held := x.held - used }

def sqTail (p fn q : Nat) (v : BitVec 32) (s : State) : State := doorbell p fn q (setSqTail v) s

/-- A write of 8 bytes updates SQ_TAIL_DB first (R374). -/
def doorbells (p fn q : Nat) (tail head : BitVec 32) (s : State) : State :=
  doorbell p fn q (fun k t => setCqHead head k (setSqTail tail k t)) s

/-- Whether BAR0's registers accept an access (R370): 4 or 8 bytes, aligned. -/
def barOk (a : BarAcc) : Bool := (decide (a.size = 4) && decide (a.low.val % 4 = 0)) || (decide (a.size = 8) && decide (a.low.val = 0))

/-- An access to BAR0 (R370): one that is unaligned or of another size does what `bad` says where the function answers at all. -/
def barAccess (p fn : Nat) (a : BarAcc) (bad f : State → State) (s : State) : State :=
  if barOk a then f s
  else if !linkTrained (s.ctl (fnLink s p fn)).link then s
  else if !fnAnswers s p fn then unsupported p fn s
  else bad s

/-- A write to BAR0 (R370): one that is unaligned or of another size is discarded and counted. -/
def barWrite (p fn : Nat) (a : BarAcc) (f : State → State) (s : State) : State := barAccess p fn a (discardWrite p fn) f s

/-- SQ_TAIL_DOORBELL. -/
def execSqTailDoorbell (p : HPort) (fn : FnId) (q : QueueId) (v : BarValue) (s : State) : Answer :=
  .next (barWrite p.val fn.val v.acc
    (fun t =>
      if v.acc.size = 8 then
        arrive (fnLink s p.val fn.val) (.doorbells p.val fn.val q.val v.val v.second) (doorbells p.val fn.val q.val v.val v.second) t
      else arrive (fnLink s p.val fn.val) (.sqTail p.val fn.val q.val v.val) (sqTail p.val fn.val q.val v.val) t) s)

def cqHead (p fn q : Nat) (v : BitVec 32) (s : State) : State := doorbell p fn q (setCqHead v) s

/-- CQ_HEAD_DOORBELL. -/
def execCqHeadDoorbell (p : HPort) (fn : FnId) (q : QueueId) (v : BarValue) (s : State) : Answer :=
  .next (barWrite p.val fn.val v.acc (arrive (fnLink s p.val fn.val) (.cqHead p.val fn.val q.val v.val) (cqHead p.val fn.val q.val v.val)) s)

/-! ## Fetching commands (R375–R377) -/

def qpLink (s : State) (k : Nat) : Nat := fnLink s (qpPort k) (qpFn k)

/-- Whether a queue pair's next commands can be fetched (R375, R386, R428). -/
def canFetch (s : State) (k : Nat) : Bool :=
  let q := s.qp k
  let f := s.fn (qpPort k) (qpFn k)
  q.enable && !q.deleting && !q.error && decide (q.reading = 0) && decide (0 < sqWaiting q) && decide (cqTaken q < 2 ^ q.cqLog2.toNat) &&
    fnAnswers s (qpPort k) (qpFn k) && !f.fenced && !s.pwr.pwrfail && decide (nonPosted s (fnLink s (qpPort k) (qpFn k)) < 768)

/-- How many commands one read brings (R375): up to 8, not past the end of the SQ, each with its reserved CQ slot. -/
def fetchCount (q : QPair) : Nat :=
  min (min 8 (sqWaiting q)) (min (2 ^ q.sqLog2.toNat - q.sqHead.toNat) (2 ^ q.cqLog2.toNat - cqTaken q))

/-- The winner of a controller's rotating priority (R375). -/
def fetchWinner (s : State) (l : Nat) : Option Nat :=
  let ready := (s.host.qps.map (·.1)).filter (fun k => decide (qpLink s k = l) && canFetch s k)
  match ready.find? (fun k => decide ((s.ctl l).lastWinner < k)) with
  | some k => some k
  | none => ready.head?

def fetchCommands (l : Nat) (s : State) : State :=
  match fetchWinner s l with
  | none => s
  | some k =>
    let q := s.qp k
    let n := fetchCount q
    let c := s.ctl l
    hostRead (qpPort k) (qpFn k) (q.sqBase.toNat + 64 * q.sqHead.toNat) (64 * n) l
      ((s.setQp k { q with reading := n }).setCtl l { c with lastWinner := k, reads := c.reads ++ [(k, n)] })

/-- COMMAND_FETCH. -/
def execCommandFetch (l : CtlId) (s : State) : Answer := .next (fetchCommands l.val s)

/-- A command of a DATA queue as its descriptor: the fetcher writes ROUTE (R63, R376). -/
def routed (k : Nat) (c : BitVec 512) : BitVec 512 :=
  let route : BitVec 512 := BitVec.ofNat 512 ((qpFn k + 512 * qpPort k + 1024 * qpQueue k) * 2 ^ 48)
  (c &&& ~~~(BitVec.ofNat 512 (0xFFFF * 2 ^ 48))) ||| route

/-- Whether the engine of a command's context takes it now; a command that is completed at once needs no room (R82). -/
def engineTakes (s : State) (k : Nat) (d : BitVec 512) : Bool :=
  engineRoom s (dCtx d) || decide (acceptStatus s d (qpStall s k) ≠ 0) || !anyEngine s

/-- A command of a SOFTWARE queue is written into the inbox ring and the stall's inbox source raised, or completed with ACCESS_FAULT
(R377). -/
def deliverInbox (k i : Nat) (c : BitVec 512) (s : State) : State :=
  let q := s.qp k
  let n := qpStall s k
  let r := ioLookup (qpPort k) n (q.inboxBase.toNat + 128 * i) true s
  match r.1 with
  | none => postCompletion k { cmdId := dCmdId c, status := 0x14 } r.2
  | some x =>
    let s1 := dmaWrite (hostAttr n x) x.pa (bytes64 c) .bytes 4 r.2
    let s2 := dmaWrite (hostAttr n x) (x.pa + 64) (List.replicate 64 0) .int 4 s1
    raiseInbox n q.inboxCore.toNat { s2 with host := { s2.host with inbox := s2.host.inbox ++ [(k, i)] } }

/-- Fetched commands in SQ order; those that an engine has no room for stay in place (R375, R82). -/
def takeCommands (l k : Nat) (cmds : List (BitVec 512)) (s : State) : State :=
  match cmds with
  | [] => s
  | c :: rest =>
    let q := s.qp k
    if !q.soft && !engineTakes s k c then s
    else
      let i := q.sqHead.toNat
      let s1 := countLink l 4 1 (s.setQp k { q with sqHead := if i + 1 = 2 ^ q.sqLog2.toNat then 0 else q.sqHead + 1, fetched := q.fetched + 1 })
      takeCommands l k rest (if q.soft then deliverInbox k i c s1 else acceptDescriptor (.queue k) (qpStall s k) (routed k c) s1)

/-- The answer to the oldest outstanding SQ read of a controller; a queue pair that has stopped meanwhile takes nothing. -/
def commandsArrive (l : Nat) (cmds : List (BitVec 512)) (s : State) : State :=
  let c := s.ctl l
  match c.reads with
  | [] => s
  | (k, n) :: rest =>
    let q := s.qp k
    let s1 := pump 7 ((s.setCtl l { c with reads := rest }).setQp k { q with reading := 0 })
    if q.reading = 0 ∨ q.enable = false ∨ q.deleting = true ∨ q.error = true ∨ (s.fn (qpPort k) (qpFn k)).drain.isSome = true ∨ s.host.fatal = true then s1
    else takeCommands l k (cmds.take n) s1

/-- COMMAND_READ_COMPLETION. -/
def execCommandReadCompletion (l : CtlId) (cmds : List (BitVec 512)) (s : State) : Answer := .next (commandsArrive l.val cmds (countLink l.val 1 1 s))

/-- The reply of an inbox entry (R377): its 64 bytes, and whether a word of them is POISON. -/
def readReply (k i : Nat) (s : State) : Option (List Byte × Bool) × State :=
  let r := ioLookup (qpPort k) (qpStall s k) ((s.qp k).inboxBase.toNat + 128 * i + 64) false s
  match r.1 with
  | none => (none, r.2)
  | some x =>
    let u := dmaRead (hostAttr (qpStall s k) x) x.pa 64 r.2
    (some (dmaReadBytes u x.pa 64), u)

/-- A reply's word as the endpoint posts it: PHASE, READY, SQ_ID and SQ_HEAD replaced (R377). -/
def replyWord (bytes : List Byte) (phase : Bool) (q sqHead : Nat) : BitVec 512 :=
  let w : BitVec 512 := BitVec.ofNat 512 (natOfBytes bytes)
  (w &&& ~~~(BitVec.ofNat 512 (2 ^ 24 + 2 ^ 31 + 0x3F * 2 ^ 32 + 0xFFFF * 2 ^ 48))) |||
    BitVec.ofNat 512 ((if phase then 2 ^ 24 else 0) + q * 2 ^ 32 + sqHead * 2 ^ 48)

/-- Poll one inbox entry: a reply with READY set is posted, with EP where it carries POISON (R22, R377). -/
def pollEntry (x : Nat × Nat) (s : State) : State :=
  let r := readReply x.1 x.2 s
  match r.1 with
  | none => r.2
  | some (bytes, poison) =>
    if natBit (natOfBytes bytes) 31 then
      postWord x.1 poison (fun phase head => replyWord bytes phase (qpQueue x.1) head)
        { r.2 with host := { r.2.host with inbox := r.2.host.inbox.erase x } }
    else r.2

/-- REPLY_POLL: up to 64 outstanding entries of a port, oldest first (R377). -/
def execReplyPoll (p : HPort) (s : State) : Answer :=
  .next (((s.host.inbox.filter (fun x => decide (qpPort x.1 = p.val))).take 64).foldl (fun t x => pollEntry x t) s)

/-- CQ_COALESCE_TIMEOUT: COAL_TIME has passed since the first completion not yet signalled (R379). -/
def execCqCoalesceTimeout (p : HPort) (fn : FnId) (q : QueueId) (s : State) : Answer :=
  let k := qpKey p.val fn.val q.val
  let x := s.qp k
  if x.enable && x.irqEn && x.unsignalled then
    .next (sendMsix p.val fn.val x.vector.toNat (s.setQp k { x with sinceMsg := 0, unsignalled := false }))
  else .next s

/-! ## The dictionary mailbox (R371, R372) -/

/-- A GO write: it queues its access for the serializer, or is discarded while an access is in progress (R372, R393). -/
def mailboxGo (p : HPort) (fn : FnId) (write : Bool) (idx : BitVec 16) (sub : BitVec 8) (len : BitVec 9) (irq : Bool) (data : List Byte)
    (s : State) : State :=
  let f := s.fn p.val fn.val
  if !fnAnswers s p.val fn.val then unsupported p.val fn.val s
  else if f.mbox.busy then discardWrite p.val fn.val s
  else
    let m : Mailbox := { index := idx, sub := sub, op := write, length := len, irq := irq, busy := true, result := f.mbox.result,
                         rlength := f.mbox.rlength, data := if write then takePad 256 0 data else f.mbox.data }
    let a : Access := { path := if fn.val = 0 then .pf p else .vf p fn, write := write, idx := idx.toNat, sub := sub.toNat,
                        data := if write then takePad len.toNat 0 data else [] }
    raise 0x545 { (s.setFn p.val fn.val { f with mbox := m }) with serial := s.serial ++ [a] }

/-- MAILBOX_READ. -/
def execMailboxRead (p : HPort) (fn : FnId) (idx : BitVec 16) (sub : BitVec 8) (irq : BarGo) (s : State) : Answer :=
  .next (barWrite p.val fn.val irq.acc
    (arrive (fnLink s p.val fn.val) (.mailbox p fn false idx sub 0 irq.irq []) (mailboxGo p fn false idx sub 0 irq.irq [])) s)

/-- MAILBOX_WRITE. -/
def execMailboxWrite (p : HPort) (fn : FnId) (idx : BitVec 16) (sub : BitVec 8) (len : BitVec 9) (irq : BarGo)
    (data : List Byte) (s : State) : Answer :=
  .next (barWrite p.val fn.val irq.acc
    (arrive (fnLink s p.val fn.val) (.mailbox p fn true idx sub len irq.irq data) (mailboxGo p fn true idx sub len irq.irq data)) s)

/-! ## Queue-pair records (R373, R391) -/

/-- A record's fields (R373). -/
def recField (w : BitVec 512) (lo n : Nat) : Nat := natField w.toNat lo n

/-- The key a path's QP_SELECT names; none for a function that no port has. -/
def selectedQp (s : State) (path : Path) : Option Nat :=
  let v := pathGet s path 0x8020 0x01
  if 256 < natField v 0 9 then none else some (qpKey (natField v 9 1) (natField v 0 9) (natField v 16 6))

/-- Whether a record's fields are out of range or misaligned (R373). -/
def badRecord (w : BitVec 512) : Bool :=
  decide (recField w 4 5 < 4) || decide (16 < recField w 4 5) || decide (recField w 9 5 < 4) || decide (16 < recField w 9 5) ||
  decide (recField w 16 7 < 1) || decide (64 < recField w 16 7) || decide (10000 < recField w 32 16) ||
  decide (recField w 64 12 ≠ 0) || decide (recField w 128 12 ≠ 0) || decide (recField w 192 12 ≠ 0)

/-- Whether a logical core may receive a stall's SOFTWARE commands (R373). -/
def inboxCoreOk (s : State) (n core : Nat) : Bool :=
  decide (core < 128) && (if n = 0 then decide (coreOwner s core = 0) else natBit (stallCores s n) core || natBit (stallShared s n) core)

/-- The cases in which the creation of a queue pair is DENIED (R373). -/
def createDenied (s : State) (k : Nat) (w : BitVec 512) : Bool :=
  let fn := qpFn k
  let p := qpPort k
  (decide (fn ≠ 0) && (!vfEnabled s p fn || (vfStall s p fn).isNone)) ||
  decide (2048 ≤ (s.host.qps.filter (fun x => x.2.enable && decide (qpPort x.1 = p))).length) ||
  badRecord w || (w.getLsbD 1 && !inboxCoreOk s (qpStall s k) (recField w 48 8))

/-- A queue pair as its record creates it (R373). -/
def createdQp (w : BitVec 512) : QPair :=
  { enable := true, soft := w.getLsbD 1, sqLog2 := w.extractLsb' 4 5, cqLog2 := w.extractLsb' 9 5, vector := w.extractLsb' 16 7,
    irqEn := w.getLsbD 23, coalCount := w.extractLsb' 24 8, coalTime := w.extractLsb' 32 16, inboxCore := w.extractLsb' 48 8,
    sqBase := w.extractLsb' 64 64, cqBase := w.extractLsb' 128 64, inboxBase := w.extractLsb' 192 64 }

/-- A queue pair with the fields that a write to an enabled one may change (R373). -/
def modifiedQp (x : QPair) (w : BitVec 512) : QPair :=
  { x with vector := w.extractLsb' 16 7, irqEn := w.getLsbD 23, coalCount := w.extractLsb' 24 8, coalTime := w.extractLsb' 32 16 }

/-- The result of a QP_RECORD write on a path. -/
def qpResult (path : Path) (r : Nat) (s : State) : State := pathSet path 0x8020 0x03 r s

/-- A QP_RECORD write (R373, R391). -/
def writeRecord (path : Path) (w : BitVec 512) (s : State) : State :=
  match selectedQp s path with
  | none => qpResult path resDenied s
  | some k =>
    let x := s.qp k
    if x.deleting then qpResult path resBusy s
    else if !x.enable then
      (if !w.getLsbD 0 then qpResult path resOk s
       else if createDenied s k w then qpResult path resDenied s
       else qpResult path resOk (s.setQp k (createdQp w)))
    else if !w.getLsbD 0 then qpResult path resBusy (s.setQp k { x with deleting := true, delPath := path })
    else if recField w 16 7 < 1 ∨ 64 < recField w 16 7 ∨ 10000 < recField w 32 16 then qpResult path resDenied s
    else qpResult path resOk (s.setQp k (modifiedQp x w))

/-- QP_CREATE: a QP_RECORD write with ENABLE = 1 to a disabled queue pair. -/
def execQpCreate (path : Path) (record : BitVec 512) (s : State) : Answer :=
  .next (odWriteNat path 0x8020 0x02 record.toNat (writeRecord path record) s)

/-- QP_DELETE: a QP_RECORD write with ENABLE = 0. -/
def execQpDelete (path : Path) (record : BitVec 512) (s : State) : Answer :=
  .next (odWriteNat path 0x8020 0x02 record.toNat (writeRecord path record) s)

/-- QP_MODIFY: a QP_RECORD write with ENABLE = 1 to an enabled queue pair. -/
def execQpModify (path : Path) (record : BitVec 512) (s : State) : Answer :=
  .next (odWriteNat path 0x8020 0x02 record.toNat (writeRecord path record) s)

/-- A queue pair is removed, and the result of the write that asked for it reads OK (R373). -/
def removeQp (k : Nat) (s : State) : State :=
  let x := s.qp k
  let s1 := { s with host := { s.host with qps := s.host.qps.erase k, inbox := s.host.inbox.filter (fun y => decide (y.1 ≠ k)) } }
  if x.deleting ∧ pathGet s x.delPath 0x8020 0x03 = resBusy then qpResult x.delPath resOk s1 else s1

/-- QP_DELETED: every fetched command of a queue pair being deleted has posted its completion (R373). -/
def execQpDeleted (p : HPort) (fn : FnId) (q : QueueId) (s : State) : Answer :=
  let k := qpKey p.val fn.val q.val
  if (s.qp k).deleting ∧ (s.qp k).fetched = 0 then .next (removeQp k s) else .next s

end Sys2Proof.Machine
end

