-- ==== Sys2Proof/Machine/HostMemory.lean ====
section
/-! DEFINITION. Inbound windows, interrupt acknowledges, MSI-X tables and the device-side ATS caches (R339, R340, R380–R385, R404). -/

namespace Sys2Proof.Machine

/-! ## Windows (R381, R382) -/

/-- A window as its 32 bytes describe it (R381). -/
def windowOf (v : Nat) : Window :=
  { en := natBit v 0, rd := natBit v 1, wr := natBit v 2, wtag := natBit v 3, sizeLog2 := BitVec.ofNat 6 (natField v 4 6),
    stall := BitVec.ofNat 9 (natField v 16 9), offset := BitVec.ofNat 64 (natField v 64 64), target := BitVec.ofNat 64 (natField v 128 64) }

/-- The 32 bytes of a window, as a number. -/
def windowNat (w : Window) : Nat :=
  (if w.en then 1 else 0) + (if w.rd then 2 else 0) + (if w.wr then 4 else 0) + (if w.wtag then 8 else 0) + w.sizeLog2.toNat * 2 ^ 4 +
    w.stall.toNat * 2 ^ 16 + w.offset.toNat * 2 ^ 64 + w.target.toNat * 2 ^ 128

/-- The shadow windows of a port. -/
def shadowWindows (s : State) (p : Nat) : List Window := (List.range 32).map (fun i => windowOf (odGet s (0x8030 + p) (1 + i)))

def windowEnd (w : Window) : Nat := w.offset.toNat + 2 ^ w.sizeLog2.toNat

/-- Whether two enabled windows overlap. -/
def overlap (a b : Window) : Bool :=
  a.en && b.en && decide (a.offset.toNat < windowEnd b) && decide (b.offset.toNat < windowEnd a)

/-- Whether some window of a list overlaps a later one. -/
def anyOverlap (l : List Window) : Bool :=
  match l with
  | [] => false
  | w :: r => r.any (overlap w) || anyOverlap r

/-- The size of a port's inbound aperture; none with INBOUND_BITS 0 (R369). -/
def apertureSize (s : State) : Nat := if s.host.inboundBits = 0 then 0 else 2 ^ s.host.inboundBits

/-- The cases in which a commit is DENIED (R382). -/
def commitDenied (s : State) (p : Nat) : Bool :=
  let l := shadowWindows s p
  anyOverlap l || l.any (fun w => w.en && decide (apertureSize s < windowEnd w))

/-- The result of a COMMIT. -/
def windowResult (path : Path) (p r : Nat) (s : State) : State := pathSet path (0x8030 + p) 0x23 r s

/-- WINDOW_COMMIT (R382). -/
def execWindowCommit (path : Path) (p : HPort) (s : State) : Answer :=
  .next (odWriteNat path (0x8030 + p.val) 0x21 1 (fun t =>
    if t.host.commitPending.any (fun x => decide (x.1 = p.val)) then windowResult path p.val resBusy t
    else if commitDenied t p.val then windowResult path p.val resDenied t
    else windowResult path p.val resOk { t with host := { t.host with commitPending := t.host.commitPending.set p.val path } }) s)

/-- The shadow set of a port becomes its live set under the next generation (R382). -/
def commitWindows (p : Nat) (s : State) : State :=
  let live := ((shadowWindows s p).zipIdx).foldl (fun t x => t.set (32 * p + x.2) x.1) s.host.live
  odSet (0x8030 + p) 0x22 ((odGet s (0x8030 + p) 0x22 + 1) % 2 ^ 32)
    { s with host := { s.host with live := live, commitPending := s.host.commitPending.erase p } }

/-- WINDOW_COMMIT_POINT (R382). -/
def execWindowCommitPoint (p : HPort) (s : State) : Answer :=
  if s.host.commitPending.any (fun x => decide (x.1 = p.val)) then .next (commitWindows p.val s) else .next s

/-! ## Inbound accesses (R381–R385) -/

def liveWindows (s : State) (p : Nat) : List Window := (List.range 32).map (fun i => Tbl.get s.host.live (32 * p + i) {})

/-- The enabled window that holds all of an access; none also where the right is missing (R382). -/
def matchWindow (s : State) (p : Nat) (off : Word) (len : Nat) (write : Bool) : Option Window :=
  (liveWindows s p).find? (fun w => w.en && (if write then w.wr else w.rd) && decide (w.offset.toNat ≤ off.toNat) &&
    decide (off.toNat + len ≤ windowEnd w))

/-- A window miss: Unsupported Request, advisory non-fatal, and the count (R382). -/
def windowMiss (p : Nat) (s : State) : State := odBump (0x8030 + p) 0x24 (unsupported p 0 s)

/-- What an inbound TLP meets before the window that it met when its header was received (R382, R384, R387, R388, R505); a TLP longer than its kind may be, or one that crosses a 4 KiB
boundary, is malformed (R388, PCIe). -/
def inbound (p : Nat) (seen : Option Window) (translated : Bool) (off : Word) (len most : Nat) (act : Window → State → State) (s : State) : State :=
  if most < len ∨ 4096 < off.toNat % 4096 + len then aerUncorrected (fnKey p 0) 18 false s
  else if !s.boot.ready then odBump (0x8010 + 2 * p) 0x09 (emitTlp (2 * p) (.unsupported p) s)
  else if !fnAnswers s p 0 || translated then unsupported p 0 s
  else match seen with
    | none => windowMiss p s
    | some w => act w s

/-- The I/O address of an access through a window (R381). -/
def windowTarget (w : Window) (off : Word) : Nat := (w.target + (off - w.offset)).toNat

/-- Make every word that an access touches POISON (R383). -/
def poisonTouched (a : Attr) (pa len : Nat) (s : State) : State :=
  let lo := pa / 8
  let hi := (pa + len + 7) / 8
  ((List.range (hi / 8 + 1 - lo / 8)).map (· + lo / 8)).foldl (fun t line =>
    if hi ≤ 8 * line then t
    else writeAtHome a line (fun old => old.zipIdx.map (fun x =>
      if lo ≤ 8 * line + x.2 ∧ 8 * line + x.2 < hi then ⟨if x.1.tag = .uninit then 0 else x.1.data, .poison⟩ else x.1)) t) s

/-- An inbound write (R382, R383). -/
def inboundWrite (p : Nat) (seen : Option Window) (translated : Bool) (off : Word) (data : List Byte) (ep : Bool) (s : State) : State :=
  inbound p seen translated off data.length 512 (fun w t =>
    let n := w.stall.toNat
    let r := ioLookup p n (windowTarget w off) true t
    let u := if ep then odBump (0x8030 + p) 0x26 (aerUncorrected (fnKey p 0) 12 false r.2) else r.2
    match r.1 with
    | none => odBump (0x8030 + p) 0x25 u
    | some x =>
      let v := dmaWrite (hostAttr n x) x.pa data (if w.wtag then .int else .bytes) 9 u
      if ep then poisonTouched (hostAttr n x) x.pa data.length v else v) s

/-- INBOUND_WRITE_TLP. -/
def execInboundWriteTlp (p : HPort) (translated : Bool) (off : Word) (data : List Byte) (ep : Bool) (s : State) : Answer :=
  let seen := matchWindow s p.val off data.length true
  .next (arrive (2 * p.val) (.write p.val seen translated off data ep) (inboundWrite p.val seen translated off data ep) s)

/-- An inbound read (R382, R383): every line is brought up to date at its home, and its fill checked for a SEAL page (R45); the completion
carries EP where a word was POISON. -/
def inboundRead (p : Nat) (seen : Option Window) (translated : Bool) (off : Word) (len : Nat) (s : State) : State :=
  inbound p seen translated off len 4096 (fun w t =>
    let r := ioLookup p w.stall.toNat (windowTarget w off) false t
    match r.1 with
    | none => odBump (0x8030 + p) 0x25 (completerAbort p 0 r.2)
    | some x =>
      let u := dmaRead (hostAttr w.stall.toNat x) x.pa len r.2
      let d := dmaReadBytes u x.pa len
      emitTlp (2 * p) (.completion p d.1 d.2) u) s

/-- INBOUND_READ_TLP. -/
def execInboundReadTlp (p : HPort) (translated : Bool) (off : Word) (len : Nat) (s : State) : Answer :=
  let seen := matchWindow s p.val off len false
  .next (arrive (2 * p.val) (.read p.val seen translated off len) (inboundRead p.val seen translated off len) s)

/-! ## Interrupt acknowledges and MSI-X tables (R380, R404) -/

/-- The signalled source of a PF0 vector that an acknowledge takes: the highest level, then the lower number (R404). -/
def vectorWinner (s : State) (p v : Nat) : Option Nat :=
  (s.irq.map (·.1)).foldl (fun best n =>
    if (s.source n).signalled && decide (srcHost s n = some (p, 0, v)) then
      (match best with
       | none => some n
       | some m => if srcLevel (srcCfg s m) < srcLevel (srcCfg s n) then some n else some m)
    else best) none

/-- A read of the acknowledge region (R401, R404). -/
def ackVector (p v : Nat) (s : State) : State :=
  if !fnAnswers s p 0 then unsupported p 0 s
  else match vectorWinner s p v with
    | none => emitTlp (2 * p) (.completion p (wordBytes 0x80000000) false) s
    | some n =>
      let w : Word := BitVec.ofNat 64 (n + (s.source n).count * 2 ^ 16 + srcLevel (srcCfg s n) * 2 ^ 24)
      let s1 := emitTlp (2 * p) (.completion p (wordBytes w) false) (clearSource n s)
      if (vectorWinner s1 p v).isSome then sendMsix p 0 v s1 else s1

/-- MSIX_ACK_READ: an unaligned read, or one of another size than 4 or 8 bytes, completes with Completer Abort (R370). -/
def execMsixAckRead (p : HPort) (v : BarPlace) (s : State) : Answer :=
  .next (barAccess p.val 0 v.acc (completerAbort p.val 0) (arrive (2 * p.val) (.ack p.val v.num.val) (ackVector p.val v.num.val)) s)

/-- Send the messages that pending bits hold for vectors that are no longer masked (R380). -/
def sendPending (p fn : Nat) (s : State) : State :=
  (List.range 128).foldl (fun t v =>
    let f := t.fn p fn
    if f.pba.getLsbD v && !(Tbl.get f.msix v {}).mask && !msixFnMask f && msixEnabled f then
      sendMsix p fn v (t.setFn p fn { f with pba := f.pba &&& ~~~((1 : BitVec 128) <<< v) })
    else t) s

/-- The entries of a function's MSI-X table (R369). -/
def msixEntries (fn : Nat) : Nat := if fn = 0 then 128 else 65

def writeMsix (p fn entry : Nat) (addr : Word) (data : BitVec 32) (mask : Bool) (s : State) : State :=
  let f := s.fn p fn
  if !fnAnswers s p fn then unsupported p fn s
  else if msixEntries fn ≤ entry then s
  else sendPending p fn (s.setFn p fn { f with msix := f.msix.set entry { addr := addr, data := data, mask := mask } })

/-- MSIX_TABLE_WRITE. -/
def execMsixTableWrite (p : HPort) (fn : FnId) (entry : BarPlace) (addr : Word) (data : BitVec 32) (mask : Bool) (s : State) : Answer :=
  .next (barWrite p.val fn.val entry.acc
    (arrive (fnLink s p.val fn.val) (.msix p.val fn.val entry.num.val addr data mask) (writeMsix p.val fn.val entry.num.val addr data mask)) s)

/-- A request that waited for its domain takes effect. -/
def performTlp (t : HostTlp) (s : State) : State :=
  match t with
  | .sqTail p fn q v => sqTail p fn q v s
  | .cqHead p fn q v => cqHead p fn q v s
  | .doorbells p fn q v w => doorbells p fn q v w s
  | .mailbox p fn w idx sub len irq data => mailboxGo p fn w idx sub len irq data s
  | .write p seen tr off data ep => inboundWrite p seen tr off data ep s
  | .read p seen tr off len => inboundRead p seen tr off len s
  | .ack p v => ackVector p v s
  | .msix p fn e a d m => writeMsix p fn e a d m s

/-- The link by which a waiting request came. -/
def tlpLink (s : State) (t : HostTlp) : Nat :=
  match t with
  | .sqTail p fn _ _ | .cqHead p fn _ _ | .doorbells p fn _ _ _ | .msix p fn _ _ _ _ => fnLink s p fn
  | .mailbox p fn _ _ _ _ _ _ => fnLink s p.val fn.val
  | .write p _ _ _ _ _ | .read p _ _ _ _ | .ack p _ => 2 * p

/-- The requests whose domains are up by now take effect, in the order of their arrival. -/
def releaseTlps (s : State) : State :=
  let go := s.host.heldIn.filter (fun t => hostUp s (tlpLink s t))
  go.foldl (fun u t => performTlp t u)
    { s with host := { s.host with heldIn := s.host.heldIn.filter (fun t => !hostUp s (tlpLink s t)) } }

/-! ## The device-side ATS caches (R339, R340) -/

/-- Put an entry into a port's ATC of 1,024 entries. -/
def atcInsert (p : Nat) (e : AtcEntry) (s : State) : State :=
  let l := (Tbl.get s.vm.atc p []).filter (fun x => !(decide (x.fn = e.fn) && decide (x.page = e.page)))
  let kept := if l.length < 1024 then l
              else (match l[Config.victim s.free 1024 % 1024]? with | some v => l.erase v | none => l)
  { (State.took s) with vm := { s.vm with atc := s.vm.atc.set p (e :: kept) } }

/-- A transfer that waited for its translation is sent: translated where the completion gives the right, otherwise as it was (R339). -/
def sendHeld (page trans : Nat) (r w : Bool) (hpage : Nat) (o : Out) (s : State) : State :=
  let move (a : Word) : Word := BitVec.ofNat 64 ((trans + (hpage - page)) * 4096 + a.toNat % 4096)
  match o with
  | .hostWrite p fn a d rel _ ep => emitTlp (fnLink s p fn) (if w then .hostWrite p fn (move a) d rel true ep else o) s
  | .hostRead p fn a len tag rel _ => emitTlp (fnLink s p fn) (if r then .hostRead p fn (move a) len tag rel true else o) s
  | _ => emit o s

/-- A Translation Completion (R339): the ATC is filled, and what waited for its pages goes on. -/
def atsComplete (p fn page pages trans : Nat) (r w : Bool) (s : State) : State :=
  let s1 := if r || w then (List.range (min pages 1024)).foldl (fun t i =>
      atcInsert p { fn := fn, page := page + i, host := trans + i, r := r, w := w } t) s else s
  let mine (x : Nat × Nat × Out) : Bool := decide (x.1 = fnKey p fn) && decide (page ≤ x.2.1) && decide (x.2.1 < page + pages)
  releaseOrdered (fnKey p fn) ((s1.host.heldOut.filter mine).foldl (fun t x => sendHeld page trans r w x.2.1 x.2.2 t)
    { s1 with host := { s1.host with heldOut := s1.host.heldOut.filter (fun x => !mine x) } })

/-- ATS_TRANSLATION_COMPLETION. -/
def execAtsTranslationCompletion (p : HPort) (fn : FnId) (page pages trans : Nat) (r w : Bool) (s : State) : Answer :=
  .next (atsComplete p.val fn.val page pages trans r w (countLink (fnLink s p.val fn.val) 1 1 s))

/-- Drop a function's ATC entries that satisfy a condition. -/
def dropAtc (p fn : Nat) (c : AtcEntry → Bool) (s : State) : State :=
  { s with vm := { s.vm with atc := s.vm.atc.set p ((Tbl.get s.vm.atc p []).filter (fun x => !(decide (x.fn = fn) && c x))) } }

/-- The outstanding reads of a function whose pages lie in a range: an engine's by its number and tag, a controller's of a submission queue by 8
more than its number and the queue pair (R340, R375). -/
def readsOf (s : State) (key page pages : Nat) : List (Nat × Nat) :=
  let hits (lo hi : Nat) : Bool := decide (page ≤ hi / 4096) && decide (lo / 4096 < page + pages)
  let ofQueue (r : Nat × Nat) : Bool :=
    let q := s.qp r.1
    let a := q.sqBase.toNat + 64 * q.sqHead.toNat
    decide (fnKey (qpPort r.1) (qpFn r.1) = key) && hits a (a + 64 * r.2 - 1)
  (List.range 8).flatMap (fun e => ((s.engine e).reads.filter (fun r => decide (r.2.2.fn = key) &&
    hits r.2.2.addr r.2.2.addr)).map (fun r => (e, r.1))) ++
  (List.range 4).flatMap (fun l => ((s.ctl l).reads.filter ofQueue).map (fun r => (8 + l, r.1)))

/-- Whether a read that `readsOf` names is still outstanding. -/
def readOpen (s : State) (x : Nat × Nat) : Bool :=
  if x.1 < 8 then (s.engine x.1).reads.any (fun r => decide (r.1 = x.2)) else (s.ctl (x.1 - 8)).reads.any (fun r => decide (r.1 = x.2))

/-- ATS_INVALIDATE_REQUEST (R340): the overlapping entries of the function go; its completion follows in its order. -/
def execAtsInvalidateRequest (p : HPort) (fn : FnId) (page pages : Nat) (itag : BitVec 5) (s : State) : Answer :=
  let s1 := odBump (0x5020 + p.val) 0x05
    (dropAtc p.val fn.val (fun x => decide (page ≤ x.page) && decide (x.page < page + pages)) (countLink (fnLink s p.val fn.val) 1 1 s))
  let v : AtsInval := { itag := itag, reads := readsOf s (fnKey p.val fn.val) page pages }
  .next { s1 with vm := { s1.vm with invalidations := s1.vm.invalidations.set p.val (Tbl.get s1.vm.invalidations p.val [] ++ [v]) } }

/-- INVALIDATION_COMPLETION (R340): sent for the oldest request once the reads that used a removed entry are over. -/
def execInvalidationCompletion (p : HPort) (s : State) : Answer :=
  match Tbl.get s.vm.invalidations p.val [] with
  | [] => .next s
  | v :: rest =>
    if v.reads.any (readOpen s) then .next s
    else .next (emitTlp (2 * p.val) (.invalidateDone p.val v.itag) { s with vm := { s.vm with invalidations := s.vm.invalidations.set p.val rest } })

end Sys2Proof.Machine
end

