-- ==== Sys2Proof/Machine/HostLinks.lean ====
section
/-! DEFINITION. Host links, configuration space, and the reset of functions (R363–R368, R386–R390, R505). -/

namespace Sys2Proof.Machine

/-! ## Configuration space (R366–R368; the registers inside each structure are PCIe's) -/

/-- The writable bits of PF0's inbound BAR, low and high half. -/
def inboundMask (s : State) (high : Bool) : BitVec 32 :=
  let m := 2 ^ 64 - apertureSize s
  if apertureSize s = 0 then 0 else BitVec.ofNat 32 (if high then m / 2 ^ 32 else m % 2 ^ 32 / 16 * 16)

/-- The bits of a register that a configuration write changes. -/
def cfgMask (s : State) (pf : Bool) (off : Nat) : BitVec 32 :=
  if pf then
    match off with
    | 0x004 => 0x546
    | 0x00C => 0xFF
    | 0x010 => 0xFF000000
    | 0x014 => 0xFFFFFFFF
    | 0x018 => inboundMask s false
    | 0x01C => inboundMask s true
    | 0x03C => 0xFF
    | 0x050 => 0xC0000000
    | 0x078 => 0x7FFF
    | 0x080 => 0xFFF
    | 0x098 => 0xFFFF
    | 0x108 => 0x7FFFFFF
    | 0x10C => 0x7FFFFFF
    | 0x114 => 0xF1C1
    | 0x118 => 0x140
    | 0x158 => 0x19
    | 0x160 => 0xFFFF
    | 0x170 => 0xFFFFFFFF
    | 0x174 => 0xFFFF0000
    | 0x178 => 0xFFFFFFFF
    | 0x194 => 0x801F0000
    | 0x1A4 => 0x3
    | 0x288 => 0xE3FFFF0C
    | 0x28C => 0xFF
    | 0x294 => 0x1FFF1FFF
    | _ => 0
  else
    match off with
    | 0x004 => 0x4
    | 0x050 => 0xC0000000
    | 0x194 => 0x801F0000
    | _ => 0

/-- The bits of a register that the device gives: identifiers, the chain of capabilities, sizes and status (R366–R368). -/
def cfgFixed (s : State) (l fn : Nat) (off : Nat) : BitVec 32 :=
  let pf := decide (fn = 0)
  let f := s.fnAt (linkFnKey l fn)
  let vfs := totalVfs s (l / 2)
  let wide := if bifurcated s (l / 2) then 8 else 16
  let serial := Config.serial.toNat
  match off with
  | 0x000 => if pf then 0x21361D7C else 0xFFFFFFFF
  | 0x004 => 0x100000
  | 0x008 => 0x018000B0
  | 0x010 => if pf then 0x4 else 0
  | 0x018 => if pf ∧ apertureSize s ≠ 0 then 0xC else 0
  | 0x02C => BitVec.ofNat 32 (odGet s 0x8000 0x02)
  | 0x034 => if pf then 0x40 else 0x50
  | 0x040 => if pf then 0x00035001 else 0
  | 0x044 => if pf ∧ f.d3hot then 3 else 0
  | 0x050 => if pf then 0x007F7011 else 0x00407011
  | 0x054 => if pf then 0x100000 else 0x2000
  | 0x058 => if pf then 0x110000 else 0x3000
  | 0x070 => 0x00020010
  | 0x074 => 0x10008002
  | 0x07C => BitVec.ofNat 32 (5 + wide * 16 + 2 * 1024 + l * 2 ^ 24)
  | 0x080 => if pf then BitVec.ofNat 32 (((s.ctl l).rate.toNat % 16) * 2 ^ 16 + ((s.ctl l).width.toNat % 64) * 2 ^ 20) else 0
  | 0x094 => 0x30816
  | 0x09C => 0x3E
  | 0x078 => BitVec.ofNat 32 (f.devSta.toNat * 2 ^ 16)
  | 0x100 => 0x14020001
  | 0x104 => f.aerUnc
  | 0x110 => f.aerCor
  | 0x118 => 0xA0
  | 0x11C => f.hdrLog.getD 0 0
  | 0x120 => f.hdrLog.getD 1 0
  | 0x124 => f.hdrLog.getD 2 0
  | 0x128 => f.hdrLog.getD 3 0
  | 0x140 => if pf then 0x1501000E else 0x1901000E
  | 0x150 => if pf then 0x19010010 else 0
  | 0x154 => if pf then 0x2 else 0
  | 0x15C => if pf then BitVec.ofNat 32 (vfs * 65537) else 0
  | 0x164 => if pf then 0x00010001 else 0
  | 0x168 => if pf then 0x21370000 else 0
  | 0x16C => if pf then 0x17 else 0
  | 0x174 => if pf then 0x4 else 0
  | 0x190 => if pf then 0x1A01000F else 0x0001000F
  | 0x194 => 0x20
  | 0x1A0 => if pf then 0x1C010019 else 0
  | 0x1C0 => if pf then 0x1D010025 else 0
  | 0x1C4 => if pf then 0x1 else 0
  | 0x1D0 => if pf then 0x20010026 else 0
  | 0x200 => if pf then 0x24010027 else 0
  | 0x240 => if pf then 0x2801002A else 0
  | 0x280 => if pf then 0x2901001E else 0
  | 0x284 => if pf then 0x1C else 0
  | 0x290 => if pf then 0x2A010018 else 0
  | 0x2A0 => if pf then 0x00010003 else 0
  | 0x2A4 => if pf then BitVec.ofNat 32 serial else 0
  | 0x2A8 => if pf then BitVec.ofNat 32 (serial / 2 ^ 32) else 0
  | _ => 0

/-- A read of configuration space. -/
def cfgRead (s : State) (l fn off : Nat) : BitVec 32 :=
  cfgFixed s l fn off ||| (cfgKept (s.fnAt (linkFnKey l fn)) off &&& cfgMask s (decide (fn = 0)) off)

/-- Change a function by its key. -/
def mapFnAt (k : Nat) (f : HFn → HFn) (s : State) : State := s.setFnAt k (f (s.fnAt k))

/-- Set or clear a bit of what a function keeps of a register. -/
def cfgBit (k off i : Nat) (b : Bool) (s : State) : State :=
  mapFnAt k (fun f =>
    let v := cfgKept f off
    { f with cfg := f.cfg.set off (if b then v ||| ((1 : BitVec 32) <<< i) else v &&& ~~~((1 : BitVec 32) <<< i)) }) s

/-! ## Drains (R386, R387) -/

/-- Whether queue pairs and the mailbox belong to a link's function; PF0 of a half B shares those of half A (log entry 39). -/
def ownsQueues (l fn : Nat) : Bool := decide (fn ≠ 0) || decide (l % 2 = 0)

/-- The enabled VFs of a link. -/
def linkVfs (s : State) (l : Nat) : List Nat :=
  (List.range 257).filter (fun v => decide (v ≠ 0) && decide (vfLink s (l / 2) v = l) && vfEnabled s (l / 2) v)

/-- The VFs of a link that drain. -/
def drainingVfs (s : State) (l : Nat) : List Nat :=
  (List.range 257).filter (fun v => decide (v ≠ 0) && decide (vfLink s (l / 2) v = l) && (s.fn (l / 2) v).drain.isSome)

/-- The access path of a function's mailbox. -/
def isFnPath (p fn : Nat) (x : Path) : Bool :=
  match x with
  | .pf h => decide (fn = 0) && decide (h.val = p)
  | .vf h n => decide (n.val = fn) && decide (h.val = p)
  | _ => false

/-- The selections of a VF's path return to 0 (R487). -/
def clearSelections (p fn : Nat) (s : State) : State :=
  if h : p < 2 ∧ fn < 257 ∧ fn ≠ 0 then
    let x : Path := .vf ⟨p, h.1⟩ ⟨fn, h.2.1⟩
    pathSet x 0x3000 0x03 0 (pathSet x 0x7100 0x01 0 (pathSet x 0x8020 0x01 0 (pathSet x 0x9000 0x01 0 s)))
  else s

/-- Sources that stayed signalled while a function drained send their messages (R404). -/
def resendSources (p fn : Nat) (s : State) : State :=
  (s.irq.map (·.1)).foldl (fun t n =>
    match srcHost t n with
    | some (q, g, _) =>
      if q = p ∧ g = fn ∧ (t.source n).signalled then signalQuiet n (t.setSource n { t.source n with signalled := false }) else t
    | none => t) s

/-- What a re-enable latched during a drain does when it ends (R387). -/
def applyLatched (l fn : Nat) (x : Latched) (s : State) : State :=
  let k := linkFnKey l fn
  let s1 := if x.busMaster then cfgBit k 0x004 2 true s else s
  let s2 := if x.d0 then mapFnAt k (fun f => { ({} : HFn) with fenced := f.fenced }) s1 else s1
  if x.vfEnable then cfgBit k 0x158 0 true s2 else s2

/-- VF Enable latched in PF0 applies once none of the link's functions drains. -/
def applyVfEnable (l : Nat) (s : State) : State :=
  let k := pfKey l
  if (s.fnAt k).latched.vfEnable ∧ (s.fnAt k).drain = none ∧ drainingVfs s l = [] then
    mapFnAt k (fun f => { f with latched := { f.latched with vfEnable := false } }) (cfgBit k 0x158 0 true s)
  else s

/-- A drain ends (R386 step 4, R389): queue pairs go, and the function's registers return to their reset values. -/
def endDrain (l fn : Nat) (s : State) : State :=
  let p := l / 2
  let k := linkFnKey l fn
  match (s.fnAt k).drain with
  | none => s
  | some kind =>
    let keys := if ownsQueues l fn then (s.host.qps.map (·.1)).filter (fun q => decide (qpPort q = p) && decide (qpFn q = fn)) else []
    let s1 := keys.foldl (fun t q => removeQp q t) s
    let f := s1.fnAt k
    let n := (vfStall s1 p fn).getD 0
    let free := decide ((s1.stall n).state = .free) || decide ((s1.stall n).state = .live)
    let fenced := f.fenced && !(decide (kind = .flr) && free)
    let g : HFn := if kind = .d3hot then { f with drain := none, msix := [], pba := 0, mbox := {}, latched := {}, d3hot := true }
                   else { ({} : HFn) with fenced := fenced }
    let s2 := resendSources p fn (applyLatched l fn { f.latched with vfEnable := false } (clearSelections p fn (s1.setFnAt k g)))
    let s3 := if f.latched.vfEnable then mapFnAt k (fun x => { x with latched := { x.latched with vfEnable := true } }) s2 else s2
    applyVfEnable l s3

/-- A drain of a function starts (R386 steps 1 to 3); before READY it ends at once (R505). -/
def startDrain (kind : DrainKind) (l fn : Nat) (s : State) : State :=
  let p := l / 2
  let k := linkFnKey l fn
  if (s.fnAt k).drain.isSome then s
  else
    let s1 := mapFnAt k (fun f => { f with drain := some kind, latched := {} }) s
    let s2 := if ownsQueues l fn then
        let s2 := dropAtc p fn (fun _ => true) (silenceFn p fn s1)
        let mine (q : Nat) : Bool := decide (qpPort q = p) && decide (qpFn q = fn)
        { s2 with host := { s2.host with inbox := s2.host.inbox.filter (fun x => !mine x.1),
                                         heldOut := s2.host.heldOut.filter (fun x => !(decide (x.1 = fnKey p fn) && isPosted x.2.2)) },
                  serial := s2.serial.map (fun a => if isFnPath p fn a.path then { a with discard := true } else a) }
      else s1
    if s.boot.ready then s2 else endDrain l fn s2

/-- Clearing VF Enable drains every VF of the link (R386). -/
def disableVfs (l : Nat) (s : State) : State :=
  let vs := linkVfs s l
  let s1 := cfgBit (pfKey l) 0x158 0 false s
  vs.foldl (fun t v => startDrain .vfDisable l v t) s1

/-- FLR (R386): of PF0 it clears VF Enable as well. -/
def startFlr (l fn : Nat) (s : State) : State :=
  if fn = 0 then startDrain .flr l 0 (disableVfs l s) else startDrain .flr l fn s

/-- Whether a link presents a function: PF0, or one of its VFs that is enabled or drains. -/
def presented (s : State) (l fn : Nat) : Bool :=
  decide (fn = 0) || (decide (vfLink s (l / 2) fn = l) && (vfEnabled s (l / 2) fn || (s.fn (l / 2) fn).drain.isSome))

/-- FLR. -/
def execFlr (l : CtlId) (fn : FnId) (s : State) : Answer :=
  if presented s l.val fn.val then .next (startFlr l.val fn.val s) else .next s

/-- VF_DISABLE. -/
def execVfDisable (l : CtlId) (s : State) : Answer := .next (disableVfs l.val s)

/-- Entry to D3hot; only PF0 has a Power Management capability (R368, R386). -/
def enterD3 (l fn : Nat) (s : State) : State :=
  if fn ≠ 0 ∨ (s.fnAt (linkFnKey l fn)).d3hot = true then s else startDrain .d3hot l fn s

def execD3hotEntry (l : CtlId) (fn : FnId) (s : State) : Answer := .next (enterD3 l.val fn.val s)

/-- A return to D0 resets the function's state, or is latched while it drains (R387). -/
def returnD0 (l fn : Nat) (s : State) : State :=
  let k := linkFnKey l fn
  let f := s.fnAt k
  if f.drain.isSome then mapFnAt k (fun x => { x with latched := { x.latched with d0 := true } }) s
  else if f.d3hot then s.setFnAt k { ({} : HFn) with fenced := f.fenced }
  else s

def execD0Return (l : CtlId) (fn : FnId) (s : State) : Answer := .next (returnD0 l.val fn.val s)

/-- Whether a function has host reads outstanding (R386 step 3). -/
def fnReads (s : State) (p fn : Nat) : Bool :=
  (List.range 8).any (fun e => (s.engine e).reads.any (fun r => decide (r.2.2.fn = fnKey p fn))) ||
  (List.range 4).any (fun l => (s.ctl l).reads.any (fun x => decide (qpPort x.1 = p) && decide (qpFn x.1 = fn)))

/-- DRAIN_END: a drain waits for the function's outstanding host reads; a fatal error stops it (R386, R392). -/
def execDrainEnd (l : CtlId) (fn : FnId) (s : State) : Answer :=
  if s.host.fatal ∨ (ownsQueues l.val fn.val && fnReads s (l.val / 2) fn.val) = true then .next s
  else .next (endDrain l.val fn.val s)

/-- DL_FLR_EXPIRY: the Farrier ends the drain at once; one record is made and the expiry counted (R386, R391, R452). -/
def execDlFlrExpiry (l : CtlId) (fn : FnId) (s : State) : Answer :=
  if (s.fnAt (linkFnKey l.val fn.val)).drain.isNone ∨ s.host.fatal then .next s
  else .next (endDrain l.val fn.val (recordDeadline 9 0xF000 (odBump (0x8010 + l.val) 0x0C s)))

/-! ## Configuration requests (R368, R387) -/

/-- A configuration write to a function that does not drain. -/
def cfgWrite (l fn off : Nat) (v : BitVec 32) (s : State) : State :=
  let k := linkFnKey l fn
  let pf := decide (fn = 0)
  let f := s.fnAt k
  let m := cfgMask s pf off
  let m' := if off = 0x160 ∧ vfEnableBit f then 0 else m
  let w := (cfgKept f off &&& ~~~m') ||| (v &&& m')
  let kept := if m = 0 then s else s.setFnAt k { f with cfg := f.cfg.set off w }
  if off = 0x044 ∧ pf then (if v.extractLsb' 0 2 = 3 then enterD3 l fn s else if v.extractLsb' 0 2 = 0 then returnD0 l fn s else s)
  else if off = 0x104 then s.setFnAt k { f with aerUnc := f.aerUnc &&& ~~~v }
  else if off = 0x110 then s.setFnAt k { f with aerCor := f.aerCor &&& ~~~v }
  else if off = 0x078 then
    let cleared := mapFnAt k (fun x => { x with devSta := x.devSta &&& ~~~(v.extractLsb' 16 4) }) kept
    (if v.getLsbD 15 then startFlr l fn cleared else cleared)
  else if off = 0x158 ∧ pf then
    (if vfEnableBit f ∧ v.getLsbD 0 = false then disableVfs l kept
     else if v.getLsbD 0 ∧ vfEnableBit f = false ∧ drainingVfs s l ≠ [] then
       mapFnAt k (fun x => { x with latched := { x.latched with vfEnable := true } }) (cfgBit k 0x158 0 false kept)
     else kept)
  else if off = 0x194 then (if w.getLsbD 31 then kept else dropAtc (l / 2) fn (fun _ => true) kept)
  else if off = 0x050 then sendPending (l / 2) fn kept
  else if off = 0x098 ∧ pf ∧ v.getLsbD 10 ∧ (cfgKept f off).getLsbD 10 = false then sendLtr l kept
  else kept

/-- A re-enable written to a function that drains is latched (R387). -/
def latchWrite (k off : Nat) (v : BitVec 32) (s : State) : State :=
  mapFnAt k (fun f =>
    if off = 0x158 ∧ v.getLsbD 0 then { f with latched := { f.latched with vfEnable := true } }
    else if off = 0x004 ∧ v.getLsbD 2 then { f with latched := { f.latched with busMaster := true } }
    else if off = 0x044 ∧ v.extractLsb' 0 2 = 0 then { f with latched := { f.latched with d0 := true } }
    else f) s

/-- A configuration request is served, or retried while the function drains (R368, R387, R388). -/
def configRequest (l fn : Nat) (r : CfgReq) (s : State) : State :=
  let k := linkFnKey l fn
  let p := l / 2
  if !linkTrained (s.ctl l).link then s
  else if !presented s l fn then odBump (0x8010 + l) 0x09 (emitTlp l (.unsupported p) s)
  else if (s.fnAt k).drain.isSome then
    (match r with
     | .read _ => emitTlp l (.retryStatus p) s
     | .write off v => emitTlp l (.retryStatus p) (latchWrite k (off.toNat / 4 * 4) v s))
  else match r with
    | .read off => emitTlp l (.completion p (bytesOfNat 4 (cfgRead s l fn (off.toNat / 4 * 4)).toNat) false) s
    | .write off v =>
      if s.host.fatal then odBump (0x8010 + l) 0x09 (emitTlp l (.unsupported p) s)
      else emitTlp l (.completion p [] false) (cfgWrite l fn (off.toNat / 4 * 4) v s)

/-- CONFIG_REQUEST. -/
def execConfigRequest (l : CtlId) (fn : FnId) (r : CfgReq) (s : State) : Answer := .next (configRequest l.val fn.val r (exitL1 l.val (countLink l.val 1 1 s)))

/-! ## Links (R364, R365, R390, R505, R532) -/

/-- The number of a phase of bring-up (R496). -/
def BootPhase.code (x : BootPhase) : Nat :=
  match x with
  | .reset => 0 | .rom => 1 | .load => 2 | .power => 3 | .calibrate => 4 | .maps => 5 | .hostLink => 6 | .coldSoak => 7 | .dram => 8
  | .tack => 9 | .units => 10 | .ready => 11

/-- Whether a controller is in use: half B only of a bifurcated port (R364). -/
def ctlUsed (s : State) (l : Nat) : Bool := decide (l % 2 = 0) || bifurcated s (l / 2)

/-- PERST_ASSERT: the port's links are reset; in DEEP only once the device has left it (R532, R538). -/
def execPerstAssert (p : HPort) (s : State) : Answer :=
  let s1 := { s with host := { s.host with perst := s.host.perst ||| ((1 : BitVec 2) <<< p.val) } }
  if s.pwr.state = .deep ∨ s.pwr.state = .off then .next s1
  else .next ([2 * p.val, 2 * p.val + 1].foldl (fun t l => if (t.ctl l).link = .off then t else setHostLink l .down t) s1)

/-- PERST_DEASSERT. -/
def execPerstDeassert (p : HPort) (s : State) : Answer :=
  .next { s with host := { s.host with perst := s.host.perst &&& ~~~((1 : BitVec 2) <<< p.val) } }

/-- HOST_LINK_TRAINING_START: a controller released by bring-up and not held by PERST starts training (R505). -/
def execHostLinkTrainingStart (l : CtlId) (s : State) : Answer :=
  if 6 ≤ s.boot.phase.code ∧ s.host.perst.getLsbD (l.val / 2) = false ∧ ctlUsed s l.val = true ∧ (s.ctl l.val).link = .down ∧
     s.pwr.state ≠ .deep ∧ s.pwr.state ≠ .off ∧ s.tap.hold = false then .next (setHostLink l.val .training s)
  else .next s

/-- The host quad that is the `k`-th of a controller (R364). -/
def ctlQuad (l k : Nat) : Nat := 4 * (l / 2) + 2 * (l % 2) + k

/-- The controller of a host quad (R364). -/
def quadCtl (s : State) (quad : Nat) : Nat := if bifurcated s (quad / 4) ∧ 2 ≤ quad % 4 then 2 * (quad / 4) + 1 else 2 * (quad / 4)

/-- A host lane is mapped onto its quad's spare (R365): the link goes through Recovery, or does so at its next exit to L0. -/
def hostLaneSteps (quad lane : Nat) (s : State) : State :=
  let l := quadCtl s quad
  let k := quad - ctlQuad l 0
  let c1 := s.ctl l
  let s1 := odSet (0x8010 + l) 0x04 ((c1.spares ||| ((1 : BitVec 4) <<< k)).toNat)
    (s.setCtl l { c1 with spares := c1.spares ||| ((1 : BitVec 4) <<< k), laneRuns := c1.laneRuns.set (4 * k + lane) 0,
                          spareWaiting := c1.spareWaiting ++ [resource 6 (5 * quad + lane)] })
  if (s1.ctl l).link = .l0 then odBump (0x8010 + l) 0x08 (setHostLink l .recovery s1) else s1

/-- A host lane is spared (R365), or waits for another such repair (R450). Where the quad's spare is in use or bad, the link goes through Recovery,
in which it trains at a narrower width. -/
def startHostLane (quad lane : Nat) (s : State) : State :=
  let l := quadCtl s quad
  let k := quad - ctlQuad l 0
  let c := s.ctl l
  let res := resource 6 (5 * quad + lane)
  if c.spares.getLsbD k || c.badSpares.getLsbD k then
    let s1 := s.setCtl l { c with laneRuns := c.laneRuns.set (4 * k + lane) 0 }
    if c.link = .l0 then odBump (0x8010 + l) 0x08 (setHostLink l .recovery s1) else s1
  else
    let q := beginRepair 0x07 { action := 0x0B, resource := BitVec.ofNat 16 res, target := BitVec.ofNat 16 (resource 6 (5 * quad + 4)),
                                incident := nextIncident s, cls := 0 } s
    if q.1 then hostLaneSteps quad lane q.2 else q.2

/-- HOST_LINK_L0: training or Recovery ends in L0; the lanes spared on the way are repaired (R365, R391, R505). -/
def execHostLinkL0 (l : CtlId) (rate width : BitVec 8) (s : State) : Answer :=
  let c := s.ctl l.val
  if c.link = .training ∨ c.link = .recovery then
    let s1 := odSet (0x8010 + l.val) 0x02 rate.toNat (odSet (0x8010 + l.val) 0x03 width.toNat
      (s.setCtl l.val { c with rate := rate, width := width, spareWaiting := [] }))
    .next (c.spareWaiting.foldl (fun t res => endRepair 0x07 0x0B res {} t) (setHostLink l.val .l0 s1))
  else .next s

/-- Whether a link is idle (R390): no transfer outstanding and no doorbell unprocessed. -/
def linkIdle (s : State) (l : Nat) : Bool :=
  let mine (k : Nat) : Bool := decide (qpLink s k = l)
  (s.ctl l).reads.isEmpty && s.host.heldIn.isEmpty &&
  s.host.heldOut.all (fun x => decide (fnLink s (x.1 / 257) (x.1 % 257) ≠ l)) &&
  !((s.host.qps.map (·.1)).any (fun k => mine k && (s.qp k).enable && !(s.qp k).error && !(s.qp k).deleting && decide (0 < sqWaiting (s.qp k)))) &&
  (List.range 8).all (fun e => (s.engine e).reads.all (fun r => decide (fnLink s (r.2.2.fn / 257) (r.2.2.fn % 257) ≠ l)))

/-- ASPM_L1_IDLE: with ASPM L1 enabled an idle link requests L1, and enters the substate that the host's settings allow (R390). -/
def execAspmL1Idle (l : CtlId) (s : State) : Answer :=
  let f := s.fnAt (pfKey l.val)
  let sub := cfgKept f 0x288
  if (s.ctl l.val).link = .l0 ∧ (cfgKept f 0x080).getLsbD 1 = true ∧ linkIdle s l.val = true then
    .next (setHostLink l.val (if sub.getLsbD 2 then .l12 else if sub.getLsbD 3 then .l11 else .l1) (emit (.l1Request l.val) s))
  else .next s

/-- HOST_L1_EXIT (R418, R420). -/
def execHostL1Exit (l : CtlId) (s : State) : Answer := .next (exitL1 l.val s)

/-- One lane's errors of a second: three in a row above HOST_LANE_LIMIT spare it (R365). -/
def laneErrors (l lane n : Nat) (s : State) : State :=
  let c := s.ctl l
  let run := if odGet s 0x8000 0x07 < n then Tbl.get c.laneRuns lane 0 + 1 else 0
  let s1 := s.setCtl l { c with laneRuns := c.laneRuns.set lane run }
  if 3 ≤ run then startHostLane (ctlQuad l (lane / 4)) (lane % 4) s1 else s1

/-- HOST_LANE_ERROR_WINDOW (R365). -/
def execHostLaneErrorWindow (l : CtlId) (errs : List Nat) (s : State) : Answer :=
  let s1 := odAdd (0x8010 + l.val) 0x05 (errs.foldl (· + ·) 0) s
  .next ((errs.take 16).zipIdx.foldl (fun t x => laneErrors l.val x.2 x.1 t) s1)

/-- HOST_LINK_DOWN: the root port disables the link, or it fails (R415). -/
def execHostLinkDown (l : CtlId) (s : State) : Answer :=
  if linkTrained (s.ctl l.val).link then .next (setHostLink l.val .down s) else .next s

/-- A completion timeout is noted in the AER of the function that issued the request (R388, PCIe). -/
def noteTimeout (p fn : Nat) (s : State) : State := aerUncorrected (fnKey p fn) 14 false s

/-- PCIE_COMPLETION_TIMEOUT (R388): an engine's read fails under R77; the commands of an SQ read stay where they are. -/
def execPcieCompletionTimeout (l : CtlId) (r : TimedOut) (s : State) : Answer :=
  match r with
  | .engineRead e tag =>
    (match (s.engine e.val).reads.find? (fun x => decide (x.1 = tag)) with
     | none => .next s
     | some x => .next (hostReadAnswer e.val tag .completerAbort (noteTimeout (x.2.2.fn / 257) (x.2.2.fn % 257) s)))
  | .sqRead =>
    let c := s.ctl l.val
    (match c.reads with
     | [] => .next s
     | (k, _) :: rest =>
       .next (noteTimeout (qpPort k) (qpFn k) ((s.setCtl l.val { c with reads := rest }).setQp k { s.qp k with reading := 0 })))

end Sys2Proof.Machine
end

