-- ==== Sys2Proof/Machine/Ports.lean ====
section
/-! DEFINITION. The commands of drive ports and shelves: sending commands, what the bridge answers, port requests and shelf windows
(R124–R139). -/

namespace Sys2Proof.Machine

/-! ## Outcomes -/

/-- A drive command ends without what it was to bring: its fragment is refused or missing (R127, R129). -/
def driveLost (c : DriveCmd) (bad : List (Nat × Nat × Word × Word)) (s : State) : State :=
  if c.op = 1 then readOutcome c.uid c.frag none bad s
  else if c.op = 2 then writeOutcome c.uid c.frag false s
  else s

/-- The waiting commands of a port that no longer takes any end at once (R130). -/
def flushWaiting (p : Nat) (s : State) : State :=
  let x := s.port p
  match portRefusal x with
  | none => s
  | some _ =>
    let gone := x.waiting.filter (fun c => decide (c.op ≠ 5))
    gone.foldl (fun t c => driveLost c [] t) (s.setPort p { x with waiting := x.waiting.filter (fun c => decide (c.op = 5)) })

/-- The result of a shelf's CONTROL on a path (R137). -/
def shelfResult (path : Path) (h v : Nat) (s : State) : State := pathSet path (0x6100 + h) 0x03 v s

/-- Drop the held CONTROL requests of a shelf of one kind, answering each path. -/
def answerHeld (h : Nat) (wake : Bool) (v : Nat) (s : State) : State :=
  let x := s.shelf h
  (x.requests.filter (fun r => decide (r.wake = wake))).foldl (fun t r => shelfResult r.path h v t)
    (s.setShelf h { x with requests := x.requests.filter (fun r => decide (r.wake ≠ wake)) })

/-- CLOSING begins (R134). -/
def startClosing (h : Nat) (s : State) : State :=
  let x := s.shelf h
  trySleep h (setShelfState h .closing (s.setShelf h { x with pastWindow := false }))

/-- The shelf is AWAKE: a window opens; a sleep request that was held applies at once (R132, R139), and waiting stripes go on. -/
def openShelf (h : Nat) (s : State) : State :=
  let x := s.shelf h
  let s1 := odBump (0x6100 + h) 0x08 (setShelfState h .awake (s.setShelf h { x with holders := [], pastWindow := false }))
  if (s1.shelf h).requests.any (fun r => !r.wake) then startClosing h (answerHeld h false 0 s1) else retryAll s1

/-- A WAKING shelf is AWAKE once every port that held it has left WAKING (R132). -/
def tryOpen (h : Nat) (s : State) : State :=
  let x := s.shelf h
  if x.state = .waking ∧ x.holders.all (fun p => decide ((s.port p).state ≠ .waking)) then openShelf h s else s

/-- A port takes a state in which it may hold no commands; a shelf that waited for it alone opens (R132). -/
def dropPort (p : Nat) (st : PortState) (s : State) : State :=
  let s1 := setPortState p st s
  tryOpen (portShelf s1 p) (trySleep (portShelf s1 p) (flushWaiting p s1))

/-- Count one of the consecutive failures of a port; at PORT_FAIL_LIMIT it is FAILED (R130). -/
def countFail (p : Nat) (s : State) : State :=
  let x := s.port p
  let s1 := s.setPort p { x with failRun := x.failRun + 1 }
  if odGet s 0x6000 0x0D ≤ x.failRun + 1 then
    (if x.state = .retired ∧ !x.takeNext then s1 else dropPort p .failed s1)
  else s1

/-- A port misses its wake, or a POWER_DONE failed it (R130). -/
def makeLate (p : Nat) (s : State) : State :=
  odBump (0x6100 + portShelf s p) 0x09 (dropPort p .late s)

/-- A POWER_DONE at level 0 failed a port's slot or did not report it: the port is LATE (R130, R134), and one that is OFFLINE comes back so.
That this takes a port from READY, ASLEEP and WAKING alone is the model's choice (log entry 197). -/
def missSleep (p : Nat) (s : State) : State :=
  let x := s.port p
  let up (st : PortState) : Bool := decide (st = .ready) || decide (st = .asleep) || decide (st = .waking)
  if up x.state then makeLate p s
  else if x.state = .offline ∧ up x.prior then odBump (0x6100 + portShelf s p) 0x09 (s.setPort p { x with prior := .late })
  else s

/-- Send ABORT for a tag (R129). -/
def sendAbort (p tag : Nat) (s : State) : State := sendMsg (carrierOf s (p / 32)) 1 p (shortUnits 4 p tag) s

/-- The command that holds a tag. -/
def tagCmd (x : Port) (tag : BitVec 8) : Option DriveCmd := x.cmds.find? (fun c => decide (c.tag = some tag))

/-- Free a tag. -/
def freeTagOf (p : Nat) (tag : BitVec 8) (s : State) : State :=
  let x := s.port p
  s.setPort p { x with cmds := x.cmds.filter (fun c => decide (c.tag ≠ some tag)) }

/-- Change the command that holds a tag. -/
def modTag (p : Nat) (tag : BitVec 8) (f : DriveCmd → DriveCmd) (s : State) : State :=
  let x := s.port p
  s.setPort p { x with cmds := x.cmds.map (fun c => if c.tag = some tag then f c else c) }

/-- What a read brought (R20, R21): its bytes and seals, with the spans marked by the bridge (point 0x9) or failing the engine's check
(point 0x7); none where a block did not come. -/
def readGot (c : DriveCmd) : Option ReadGot :=
  let have_ (b : Nat) : Bool := c.gotData.any (fun x => decide (x.1 = b)) && c.gotSeals.any (fun x => decide (x.1 = b))
  if !(List.range c.count).all have_ then none
  else
    let bytes := (List.range c.count).flatMap (fun b => takePad 4096 0 (Tbl.get c.gotData b []))
    let seals := (List.range c.count).flatMap (fun b => takePad 16 0 (Tbl.get c.gotSeals b []))
    let bad := (List.range (16 * c.count)).filterMap (fun t =>
      let expected := seals.getD t 0
      if (Tbl.get c.gotPoison (t / 16) 0).getLsbD (t % 16) then some (9, t, 0, 0)
      else
        let computed := sealOf (takePad 256 0 ((bytes.drop (256 * t)).take 256))
        if computed = expected then none else some (7, t, expected, computed))
    some { bytes := bytes, seals := seals, bad := bad }

/-! ## Sending (R129) -/

/-- PORT_COMMAND_ISSUE: the oldest waiting command that may go takes the lowest free tag and its messages are queued. -/
def issueNext (p : Nat) (s : State) : State :=
  let x := s.port p
  match x.waiting.find? (mayIssue s p) with
  | none => s
  | some c => issueCmd p c (s.setPort p { x with waiting := x.waiting.erase c })

def execPortCommandIssue (p : PortId) (s : State) : Answer := .next (issueNext p.val s)

/-- DL_DRIVE_EXPIRY (R129): ABORT is sent and the command takes its outcome; an IDENTIFY is sent again (R130). -/
def driveExpiry (p : Nat) (tag : BitVec 8) (s : State) : State :=
  match tagCmd (s.port p) tag with
  | none => s
  | some c =>
    if c.abortSent then s
    else
      let s1 := sendAbort p tag.toNat (modTag p tag (fun y => { y with abortSent := true, outcomeGiven := true }) s)
      if c.outcomeGiven then s1
      else
        let s2 := driveLost c [] (odBump (0x6400 + p) 0x0A s1)
        let s3 := if c.op = 5 then identify p s2 else s2
        trySleep (portShelf s3 p) (countFail p s3)

def execDlDriveExpiry (p : PortId) (tag : BitVec 8) (s : State) : Answer := .next (driveExpiry p.val tag s)

/-- ABORT_TIMEOUT: an unanswered ABORT leaves the port FAILED and the tag in use (R129). -/
def execAbortTimeout (p : PortId) (tag : BitVec 8) (s : State) : Answer :=
  match tagCmd (s.port p.val) tag with
  | none => .next s
  | some c =>
    if c.abortSent then .next (dropPort p.val .failed s) else .next s

/-! ## What the bridge answers (R125, R127) -/

/-- A bad message counts against the link on which it came (R125). -/
def badMessage (l : Nat) (s : State) : State := odBump (0x6010 + l) 0x10 s

/-- The outcome of a command that its STATUS ends (R127). Any answer but NOT_READY ends the run of failures of its port (R130). That NO_DRIVE
leaves a RETIRED port RETIRED is the model's choice (log entry 190). -/
def statusOutcome (p : Nat) (c : DriveCmd) (code : Nat) (blk span : Nat) (s0 : State) : State :=
  let s := if code = 5 then s0 else s0.setPort p { s0.port p with failRun := 0 }
  let e := match findStripe s c.uid with | some st => stripeEngine s st | none => 0
  let ctx := match findStripe s c.uid with
    | some st => (match cmdAt s st.cmd with | some (_, y) => dCtx y.desc | none => 0)
    | none => 0
  let stall := (s.ctx ctx).stall.toNat
  if code = 0 then
    if c.op = 1 then readOutcome c.uid c.frag (readGot c) [] s
    else if c.op = 2 then writeOutcome c.uid c.frag true s
    else s
  else if code = 1 then
    driveLost c [] (recordSeal { point := 8, cls := 0, locKind := 1, locator := driveLocator p blk span, valid := false, ctx := ctx,
                                 stall := stall } (odBump (0x6400 + p) 0x0C s))
  else if code = 2 ∨ code = 7 then driveLost c [] (countEngineFault e s)
  else if code = 3 then driveLost c [] (odBump (0x6400 + p) 0x0B s)
  else if code = 4 then driveLost c [(9, (blk - c.block) * 16 + span, 0, 0)] (odBump (0x6400 + p) 0x0D s)
  else if code = 5 then countFail p (driveLost c [] s)
  else if code = 6 then driveLost c [] (if (s.port p).state = .retired then s else dropPort p .absent s)
  else driveLost c [] s

/-- STATUS_MSG: the tag is freed and the command takes its outcome; one whose outcome was given is late (R127, R129). R127 lists no code above
0x09; that such a STATUS is a bad message and leaves its command outstanding is the model's choice (log entry 189). -/
def statusMsg (l p : Nat) (tag code : BitVec 8) (blk span : Nat) (s : State) : State :=
  match tagCmd (s.port p) tag with
  | none => s
  | some c =>
    if carrierOf s (p / 32) ≠ l then s
    else if 9 < code.toNat then badMessage l s
    else
      let s1 := freeTagOf p tag s
      let s2 := if c.outcomeGiven then (if code.toNat < 8 then odBump (0x6400 + p) 0x0F s1 else s1)
                else statusOutcome p c code.toNat blk span s1
      trySleep (portShelf s2 p) s2

def execStatusMsg (l : LinkId) (p : PortId) (tag code : BitVec 8) (blk : BitVec 40) (span : Fin 16) (s : State) : Answer :=
  .next (statusMsg l.val p.val tag code blk.toNat span.val s)

/-- SEAL_MSG: one block's stored seals and POISON bits, for a READ whose outcome is open (R125, R128). -/
def execSealMsg (l : LinkId) (p : PortId) (tag : BitVec 8) (blk : Fin 16) (poison : BitVec 16) (_block : BitVec 40) (seals : List Word)
    (s : State) : Answer :=
  match tagCmd (s.port p.val) tag with
  | none => .next s
  | some c =>
    if carrierOf s (p.val / 32) ≠ l.val ∨ c.op ≠ 1 ∨ c.outcomeGiven ∨ c.count ≤ blk.val then .next s
    else
      let marks := ((List.range 16).filter (fun i => poison.getLsbD i)).length
      .next (modTag p.val tag (fun y => { y with gotSeals := y.gotSeals.set blk.val seals, gotPoison := y.gotPoison.set blk.val poison })
        (odAdd (0x6400 + p.val) 0x0D marks s))

/-- DATA_MSG: one block's data (R125); its spans are checked against their seals (R20, R21). -/
def execDataMsg (l : LinkId) (p : PortId) (tag : BitVec 8) (blk : Fin 16) (data : List Byte) (s : State) : Answer :=
  match tagCmd (s.port p.val) tag with
  | none => .next s
  | some c =>
    if carrierOf s (p.val / 32) ≠ l.val ∨ c.op ≠ 1 ∨ c.outcomeGiven ∨ c.count ≤ blk.val then .next s
    else .next (modTag p.val tag (fun y => { y with gotData := y.gotData.set blk.val data }) s)

/-! ## Identity (R130, R133) -/

/-- A port joins a wake on its own, and does not hold its shelf in WAKING (R133). -/
def joinWake (p : Nat) (s : State) : State :=
  let r := powerSet (p / 32) 1 (2 ^ (p % 32)) s
  let s1 := setPortState p .waking r.2
  let h := portShelf s1 p
  let s2 := s1.setShelf h { s1.shelf h with holders := (s1.shelf h).holders.filter (fun q => decide (q ≠ p)) }
  s2.setPort p { s2.port p with joinReq := some r.1 }

/-- Whether the port's shelf is WAKING or AWAKE. -/
def shelfUp (s : State) (p : Nat) : Bool :=
  let x := (s.shelf (portShelf s p)).state
  decide (x = .waking) || decide (x = .awake)

/-- The port takes an identity as its recorded one. -/
def recordSerial (p : Nat) (serial : BitVec 128) (s : State) : State :=
  let x := s.port p
  storeOd (0x6400 + p) 0x04 serial.toNat (s.setPort p { x with serial := serial })

/-- What the identity reported means for the port (R130). A port that was ABSENT before it went OFFLINE takes the drive reported as an ABSENT
port does. -/
def identified (p : Nat) (present : Bool) (serial : BitVec 128) (cap : Nat) (s : State) : State :=
  let x := s.port p
  let s0 := s.setPort p { x with failRun := 0, capacity := if present then cap else 0, reenabled := false, takeNext := false }
  let known := odGet s (0x6400 + p) 0x04
  if x.state = .retired ∧ !x.takeNext then s0
  else if !present then dropPort p .absent s0
  else if x.state = .retired then
    let s1 := setPortState p .asleep (recordSerial p serial s0)
    if shelfUp s1 p then joinWake p s1 else s1
  else if known ≠ 0 ∧ known ≠ serial.toNat then
    let y := s0.port p
    dropPort p .new (s0.setPort p { y with newSerial := serial })
  else
    let s1 := if known = 0 then recordSerial p serial s0 else s0
    match x.state with
    | .absent => setPortState p .asleep s1
    | .offline => setPortState p (if x.prior = .absent then .asleep else x.prior) s1
    | .failed => if x.reenabled then setPortState p (if portAwake s1 p then .ready else .asleep) s1 else s1
    | _ => s1

/-- IDENT_DATA: the bridge answers IDENTIFY. That one whose outcome was given counts in .0F beside the late statuses is the model's choice
(log entry 191). -/
def execIdentData (l : LinkId) (p : PortId) (tag : BitVec 8) (present : Bool) (serial : BitVec 128) (cap : BitVec 40) (s : State) : Answer :=
  match tagCmd (s.port p.val) tag with
  | none => .next s
  | some c =>
    if carrierOf s (p.val / 32) ≠ l.val ∨ c.op ≠ 5 then .next s
    else
      let s1 := freeTagOf p.val tag s
      let s2 := if c.outcomeGiven then odBump (0x6400 + p.val) 0x0F s1 else identified p.val present serial cap.toNat s1
      .next (trySleep (portShelf s2 p.val) s2)

/-- The messages of a removed drive's commands that have not begun are not sent (R139); an ABORT (type 4) is, for its answer frees the tag
(R129). -/
def dropQueued (p : Nat) (s : State) : State :=
  let l := carrierOf s (p / 32)
  let k := s.link l
  s.setLink l { k with txq := k.txq.filter (fun m => decide (m.port ≠ p) || m.begun || (decide (m.vc ≠ 1) && decide (m.vc ≠ 2)) ||
                           decide (natField (m.units.headD 0).toNat 0 8 = 4)) }

/-- PORT_CHANGE: an insertion at an ABSENT port is identified; a removal takes a port that is not RETIRED to ABSENT and ends its
commands with NO_DRIVE (R130, R139). -/
def portChange (p : Nat) (present : Bool) (s : State) : State :=
  let x := s.port p
  if present then (if x.state = .absent then identify p s else s)
  else if x.state = .retired then s
  else
    let open_ := x.cmds.filter (fun c => !c.outcomeGiven)
    let s1 := s.setPort p { x with cmds := x.cmds.map (fun c => { c with outcomeGiven := true }), capacity := 0, joinReq := none,
                                   waiting := x.waiting.filter (fun c => decide (c.op ≠ 5)) }
    dropPort p .absent (open_.foldl (fun t c => driveLost c [] t) (setPortState p .absent (dropQueued p s1)))

def execPortChange (l : LinkId) (p : PortId) (present : Bool) (s : State) : Answer :=
  if carrierOf s (p.val / 32) ≠ l.val then .next s else .next (portChange p.val present s)

/-- BRIDGE_ALERT: counted, raised and recorded (R125). -/
def execBridgeAlert (l : LinkId) (code : BitVec 16) (value : BitVec 64) (s : State) : Answer :=
  .next (record { kind := 0x0E, cls := 0, resource := resource 5 l.val, cause := code.toNat, addr := value.toNat }
    (raiseLink l.val (odBump (0x6010 + l.val) 0x11 s)))

/-- The messages a bridge sends, with their lengths (R125). -/
def bridgeMessages : List (Nat × Nat) := [(0x10, 18), (0x11, 513), (0x20, 2), (0x21, 4), (0x31, 2), (0x32, 1), (0x33, 2)]

/-- UNKNOWN_MESSAGE: discarded and counted against the link. Types that the table of R125 gives to the other direction count as bad messages
too, whatever their length, which is the model's choice (log entry 152). -/
def execUnknownMessage (l : LinkId) (ty : BitVec 8) (len : Nat) (s : State) : Answer :=
  if bridgeMessages.contains (ty.toNat, len) then .next s else .next (badMessage l.val s)

/-! ## Port requests (R130, R138) -/

/-- The result of the last write to .03 or .07 of a port's entries on a path. -/
def portResult (path : Path) (p v : Nat) (s : State) : State := pathSet path (0x6400 + p) 0x08 v s

/-- The result of a request: a move that waits is no longer the last write of that path (R138). -/
def requestResult (path : Path) (p v : Nat) (s : State) : State :=
  let x := s.port p
  portResult path p v (s.setPort p { x with shelfMove := x.shelfMove.map (fun m => (m.1, m.2.filter (fun q => decide (q ≠ path)))) })

/-- Request 1: accept the drive at a NEW or RETIRED port. -/
def acceptDrive (path : Path) (p : Nat) (s : State) : State :=
  let x := s.port p
  match x.state with
  | .new => requestResult path p 0 (setPortState p .asleep (recordSerial p x.newSerial s))
  | .retired =>
    let s1 := recordSerial p 0 s
    requestResult path p 0 (identify p (s1.setPort p { s1.port p with takeNext := true }))
  | _ => requestResult path p 2 s

def execAcceptDrive (path : Path) (p : PortId) (s : State) : Answer :=
  .next (odWriteNat path (0x6400 + p.val) 0x07 1 (acceptDrive path p.val) s)

/-- Request 2: retire the port; commands already sent run to their end. -/
def retirePort (path : Path) (p : Nat) (s : State) : State :=
  let x := s.port p
  if x.state = .retired then requestResult path p 2 s
  else requestResult path p 0 (dropPort p .retired (s.setPort p { x with joinReq := none, takeNext := false }))

def execRetirePort (path : Path) (p : PortId) (s : State) : Answer :=
  .next (odWriteNat path (0x6400 + p.val) 0x07 2 (retirePort path p.val) s)

/-- Request 3: re-enable a LATE or FAILED port (R130, R133). -/
def reenablePort (path : Path) (p : Nat) (s : State) : State :=
  let x := s.port p
  match x.state with
  | .late => requestResult path p 0 (if shelfUp s p then joinWake p s else setPortState p .asleep s)
  | .failed => requestResult path p 0 (identify p (s.setPort p { x with reenabled := true, failRun := 0 }))
  | _ => requestResult path p 2 s

def execReenablePort (path : Path) (p : PortId) (s : State) : Answer :=
  .next (odWriteNat path (0x6400 + p.val) 0x07 3 (reenablePort path p.val) s)

/-- A write of a port's shelf: it waits until both shelves are ASLEEP, beside those of other paths that it replaces (R138). -/
def writeShelf (path : Path) (p h : Nat) (s : State) : State :=
  let x := s.port p
  let others := (match x.shelfMove with | some m => m.2 | none => []).filter (fun q => decide (q ≠ path))
  portResult path p 1 (noteBag (0x6400 + p) 0x03 (s.setPort p { x with shelfMove := some (h, path :: others) }))

def execPortShelfWrite (path : Path) (p : PortId) (h : BitVec 8) (s : State) : Answer :=
  .next (odWriteNat path (0x6400 + p.val) 0x03 h.toNat (writeShelf path p.val h.toNat) s)

/-- PORT_SHELF_MOVE: the pending move takes effect while both shelves are ASLEEP; every path whose last write waits for it reads OK. -/
def execPortShelfMove (p : PortId) (s : State) : Answer :=
  let x := s.port p.val
  match x.shelfMove with
  | none => .next s
  | some (h, paths) =>
    if (s.shelf h).state = .asleep ∧ (s.shelf (portShelf s p.val)).state = .asleep then
      .next (paths.foldl (fun t path => portResult path p.val 0 t) (odSet (0x6400 + p.val) 0x03 h (s.setPort p.val { x with shelfMove := none })))
    else .next s

/-! ## Shelves (R132–R134) -/

/-- The member ports of a shelf on a logical link whose slots a mask names. -/
def slotsOf (s : State) (h l : Nat) (mask : BitVec 32) : List Nat :=
  (shelfPorts s h).filter (fun p => decide (p / 32 = l) && mask.getLsbD (p % 32))

/-- POWER_DONE for a shelf's POWER_SET (R130, R132, R134). -/
def shelfPowerDone (h l : Nat) (req : BitVec 8) (up : Bool) (ok failed : BitVec 32) (s : State) : State :=
  let x := s.shelf h
  let s1 := s.setShelf h { x with awaiting := x.awaiting.filter (fun a => decide (a.1 ≠ l) || decide (a.2.1 ≠ req)) }
  if up then
    let s2 := (slotsOf s1 h l ok).foldl (fun t p => if (t.port p).state = .waking then setPortState p .ready t else t) s1
    let s3 := (slotsOf s2 h l (failed &&& ~~~ok)).foldl (fun t p => if (t.port p).state = .waking then makeLate p t else t) s2
    tryOpen h s3
  else
    let s2 := (slotsOf s1 h l failed).foldl (fun t p => missSleep p t) s1
    if sleepAnswered (s2.shelf h) ∧ (s2.shelf h).state = .sleeping then shelfAsleep h s2 else s2

/-- POWER_DONE: for the shelf, or the port, whose POWER_SET carried the REQ; another is a bad message (R139). That the answer to a port's own
POWER_SET is such another once the port has been removed, retired or LATE is the model's choice (log entry 192). -/
def powerDone (l : Nat) (req : BitVec 8) (ok failed : BitVec 32) (s : State) : State :=
  let shelf := (List.range 128).findSome? (fun h =>
    ((s.shelf h).awaiting.find? (fun a => decide (carrierOf s a.1 = l) && decide (a.2.1 = req))).map (fun a => (h, a.1, a.2.2)))
  match shelf with
  | some (h, ll, up) => shelfPowerDone h ll req up ok failed s
  | none =>
    match s.ports.find? (fun x => decide (x.2.joinReq = some req) && decide (carrierOf s (x.1 / 32) = l)) with
    | some (p, x) =>
      let s1 := s.setPort p { x with joinReq := none }
      if x.state ≠ .waking then s1
      else if failed.getLsbD (p % 32) then makeLate p s1
      else if ok.getLsbD (p % 32) then setPortState p .ready s1
      else s1
    | none => badMessage l s

def execPowerDone (l : LinkId) (req : BitVec 8) (ok failed : BitVec 32) (s : State) : Answer := .next (powerDone l.val req ok failed s)

/-- CONTROL = 1 (R132): a held sleep request is cancelled; the request waits for admission, or has no effect. -/
def wakeRequest (path : Path) (h : Nat) (s : State) : State :=
  let s1 := answerHeld h false 2 s
  let x := s1.shelf h
  if x.state = .waking ∨ x.state = .awake then shelfResult path h 0 s1
  else
    let s2 := s1.setShelf h { x with requests := x.requests ++ [{ wake := true, path := path }] }
    shelfResult path h 1 (askWake h false s2)

def execShelfWakeRequest (path : Path) (h : ShelfId) (s : State) : Answer :=
  .next (odWriteNat path (0x6100 + h.val) 0x02 1 (wakeRequest path h.val) s)

/-- CONTROL = 2 (R132). -/
def sleepRequest (path : Path) (h : Nat) (s : State) : State :=
  let x := s.shelf h
  match x.state with
  | .awake => shelfResult path h 0 (startClosing h s)
  | .waking => shelfResult path h 1 (s.setShelf h { x with requests := x.requests ++ [{ wake := false, path := path }] })
  | _ =>
    let s1 := answerHeld h true 2 s
    shelfResult path h 0 { s1 with wakeQueue := s1.wakeQueue.filter (fun r => decide (r ≠ (h, false))) }

def execShelfSleepRequest (path : Path) (h : ShelfId) (s : State) : Answer :=
  .next (odWriteNat path (0x6100 + h.val) 0x02 2 (sleepRequest path h.val) s)

/-- The shelves in WAKING. -/
def wakingShelves (s : State) : Nat := ((List.range 128).filter (fun h => decide ((s.shelf h).state = .waking))).length

/-- A wake is admitted (R132, R133): the shelf enters WAKING with its ASLEEP and LATE ports, and POWER_SET goes out. -/
def admitWake (h : Nat) (s : State) : State :=
  let s1 := answerHeld h true 0 { s with wakeQueue := s.wakeQueue.filter (fun r => decide (r.1 ≠ h)) }
  let ports := (shelfPorts s1 h).filter (fun p => decide ((s1.port p).state = .asleep) || decide ((s1.port p).state = .late))
  let s2 := ports.foldl (fun t p => setPortState p .waking t) (setShelfState h .waking s1)
  let s3 := powerShelf h 1 (s2.setShelf h { s2.shelf h with holders := ports, awaiting := [] })
  tryOpen h s3

/-- SHELF_WAKE_ADMIT: the first shelf of the queue that is ASLEEP, while fewer than WAKE_CONCURRENCY are in WAKING;
no wake is admitted while PWRFAIL_N is asserted (R428). -/
def execShelfWakeAdmit (s : State) : Answer :=
  if odGet s 0x6000 0x0C ≤ wakingShelves s ∨ s.pwr.pwrfail = true then .next s
  else match s.wakeQueue.find? (fun r => decide ((s.shelf r.1).state = .asleep)) with
    | none => .next s
    | some r => .next (admitWake r.1 s)

/-- WAKE_LIMIT_EXPIRY: ports still WAKING are LATE and the shelf is AWAKE; a port that joined on its own is LATE (R130, R133). -/
def execWakeLimitExpiry (h : ShelfId) (p : Option PortId) (s : State) : Answer :=
  match p with
  | none =>
    let x := s.shelf h.val
    if x.state ≠ .waking then .next s
    else
      let slow := x.holders.filter (fun q => decide ((s.port q).state = .waking))
      .next (tryOpen h.val (slow.foldl (fun t q => makeLate q t) s))
  | some q =>
    let x := s.port q.val
    if x.joinReq.isSome ∧ x.state = .waking then .next (makeLate q.val (s.setPort q.val { x with joinReq := none })) else .next s

/-- WINDOW_GUARD_REACHED: the shelf enters CLOSING (R134). -/
def execWindowGuardReached (h : ShelfId) (s : State) : Answer :=
  if (s.shelf h.val).state = .awake then .next (startClosing h.val s) else .next s

/-- DL_WINDOW_EXPIRY: no further command goes to the shelf; commands that wait at its ports ask for its next window (R134). -/
def windowExpiry (h : Nat) (s : State) : State :=
  let x := s.shelf h
  if x.state ≠ .closing ∨ x.pastWindow then s
  else
    let s1 := odBump (0x6100 + h) 0x0A (s.setShelf h { x with pastWindow := true })
    let held := (shelfPorts s1 h).any (fun p => (s1.port p).waiting.any (fun c => decide (c.op ≠ 5)))
    let s2 := (shelfPorts s1 h).foldl (fun t p =>
      let y := t.port p
      if y.waiting.isEmpty then t
      else t.setPort p { y with waiting := y.waiting.map (fun c => { c with held := decide (c.op ≠ 5) }) }) s1
    trySleep h (if held then requestWake h s2 else s2)

def execDlWindowExpiry (h : ShelfId) (s : State) : Answer := .next (windowExpiry h.val s)

/-- POWER_DONE_TIMEOUT: the shelf is recorded, treated as ASLEEP, and its unreported ports are LATE (R134). -/
def execPowerDoneTimeout (h : ShelfId) (s : State) : Answer :=
  let x := s.shelf h.val
  if x.state ≠ .sleeping then .next s
  else
    let links := (x.awaiting.filter (fun a => !a.2.2)).map (·.1)
    let quiet := (shelfPorts s h.val).filter (fun p => links.contains (p / 32))
    let s1 := record { kind := 0x06, cls := 0, resource := resource 12 h.val } s
    .next (shelfAsleep h.val (quiet.foldl (fun t p => missSleep p t) s1))

/-- WINDOW_LEN_WRITE: in AWAKE, DL_WINDOW is computed anew from the opening time, `elapsed` seconds ago (R134). -/
def writeWindow (h v elapsed : Nat) (s : State) : State :=
  let s1 := storeOd (0x6100 + h) 0x04 v s
  if (s1.shelf h).state = .awake ∧ v ≤ elapsed + odGet s1 0x6000 0x0B then startClosing h s1 else s1

def execWindowLenWrite (path : Path) (h : ShelfId) (v : BitVec 32) (elapsed : Nat) (s : State) : Answer :=
  .next (odWriteNat path (0x6100 + h.val) 0x04 v.toNat (writeWindow h.val v.toNat elapsed) s)

end Sys2Proof.Machine
end

