-- ==== Sys2Proof/Machine/LinkOps.lean ====
section
/-! DEFINITION. What the Tether links share: flits and their CRC, headers, states of a link end, handing messages back, failover and
lane sparing (R88–R123, R131, R135). -/

namespace Sys2Proof.Machine

/-! ## Flits (R101–R103) -/

/-- One bit of the CRC-24: the register shifts left and the polynomial is added where the bit that leaves differs. -/
def crc24Bit (r : BitVec 24) (b : Bool) : BitVec 24 := if r.getLsbD 23 != b then (r <<< 1) ^^^ 0x864CFB else r <<< 1

/-- One byte, most significant bit first. -/
def crc24Byte (r : BitVec 24) (x : Byte) : BitVec 24 := (List.range 8).foldl (fun a i => crc24Bit a (x.getLsbD (7 - i))) r

/-- The CRC of a flit's bytes 0–124 (R103). -/
def crc24 (bytes : List Byte) : BitVec 24 := bytes.foldl crc24Byte 0xFFFFFF

/-- The bytes that a flit's CRC covers. -/
def flitBytes (hdr : BitVec 40) (payload : List Byte) : List Byte := bytesOfNat 5 hdr.toNat ++ takePad 120 0 payload

/-- Whether a flit is good: outside every uncorrectable codeword, and its CRC fits (R97, R103). -/
def flitGood (f : Flit) : Bool := !f.ucw && decide (f.crc = crc24 (flitBytes f.hdr f.payload))

/-- The header of a flit (R102). -/
def flitHdr (ty vc boundary seq : Nat) (ack : BitVec 10) (ackValid : Bool) (credVc : Nat) (cred : BitVec 6) : BitVec 40 :=
  BitVec.ofNat 40 (ty + vc * 2 ^ 3 + boundary * 2 ^ 5 + seq * 2 ^ 9 + ack.toNat * 2 ^ 19 + (if ackValid then 2 ^ 29 else 0) +
    credVc * 2 ^ 30 + cred.toNat * 2 ^ 32)

def hdrVc (h : BitVec 40) : Nat := natField h.toNat 3 2
def hdrSeq (h : BitVec 40) : BitVec 10 := BitVec.ofNat 10 (natField h.toNat 9 10)
def hdrAck (h : BitVec 40) : BitVec 10 := BitVec.ofNat 10 (natField h.toNat 19 10)
def hdrAckValid (h : BitVec 40) : Bool := h.getLsbD 29
def hdrCredVc (h : BitVec 40) : Nat := natField h.toNat 30 2
def hdrCred (h : BitVec 40) : BitVec 6 := BitVec.ofNat 6 (natField h.toNat 32 6)

/-- A finished flit. -/
def mkFlit (hdr : BitVec 40) (payload : List Byte) : Flit :=
  { hdr := hdr, payload := takePad 120 0 payload, crc := crc24 (flitBytes hdr payload), ucw := false }

/-! ## Headers received (R106, R107, R110) -/

/-- What an ACK releases: every flit up to the one it names. -/
def ackReplay (ack : BitVec 10) (l : List Sent) : List Sent :=
  match l.findIdx? (fun f => decide (hdrSeq f.flit.hdr = ack)) with
  | some i => l.drop (i + 1)
  | none => l

/-- Take the ACK and credit fields of a good flit. -/
def takeHeader (h : BitVec 40) (k : Link) : Link :=
  let left := if hdrAckValid h then ackReplay (hdrAck h) k.replay else k.replay
  let passed := k.replay.length - left.length
  let vc := hdrCredVc h
  let n := (hdrCred h - Tbl.get k.lastCred vc 0).toNat
  { k with replay := left, replayCount := if passed = 0 then k.replayCount else 0,
           replayAt := match k.replayAt with
             | some i => if left.isEmpty then none else some (i - passed)
             | none => none,
           credits := k.credits.set vc (Tbl.get k.credits vc 0 + n), lastCred := k.lastCred.set vc (hdrCred h) }

/-- A bad or out-of-order flit: the first one raises a NAK (R107). -/
def nakOnce (k : Link) : Link := if k.nakOut then k else { k with nakOut := true, nakPending := true }

/-- A bad flit is counted (R121). -/
def badFlit (l : Nat) (s : State) : State := odBump (0x6010 + l) 0x08 (s.setLink l (nakOnce (s.link l)))

/-! ## States of a link end (R93, R96) -/

/-- Change the state of a link end; every change raises its source (R119). Leaving ACTIVE during a FAILBACK abandons it (R118). -/
def setLinkState (l : Nat) (st : LinkState) (s : State) : State :=
  let k := s.link l
  if k.state = st then s
  else raiseLink l (s.setLink l { k with state := st, failbackGone := k.failbackGone || (decide (k.state = .active) && k.failbackSent) })

/-! ## Training frames (R93–R95) -/

/-- The bits of a field in the order in which they are sent (R94): the least significant first. -/
def fieldBits (v : BitVec 16) : List Bool := (List.range 16).map (fun i => v.getLsbD i)

/-- The level of a bit in a training frame, which is sent in PAM2 (R94). -/
def pam2 (b : Bool) : Nat := if b then 3 else 0

/-- One step of the PRBS13 (x¹³ + x¹² + x² + x + 1). R94 gives no seed and does not say which bit of the register is sent; the feedback bit,
which is bit 0 after the step, is the model's choice (log entry 186). -/
def prbsStep (r : BitVec 13) : BitVec 13 :=
  (r <<< 1) ||| (if (r.getLsbD 12 != r.getLsbD 11) != (r.getLsbD 1 != r.getLsbD 0) then 1 else 0)

/-- The PRBS13 after the 928 symbols of a frame that carry it; it runs on from frame to frame. -/
def prbsRun (r : BitVec 13) : BitVec 13 := (List.range 928).foldl (fun x _ => prbsStep x) r

/-- The bits of those 928 symbols. -/
def prbsBits (r : BitVec 13) : List Bool :=
  ((List.range 928).foldl (fun (a : List Bool × BitVec 13) _ => let x := prbsStep a.2; (x.getLsbD 0 :: a.1, x)) ([], r)).1.reverse

/-- The 1,024 symbols of a training frame on a lane (R94): the marker, the control field with its complement, the status field with its, and
the PRBS13. -/
def frameLevels (ctl sts : BitVec 16) (prbs : BitVec 13) : List Nat :=
  List.replicate 16 3 ++ List.replicate 16 0 ++
    (([ctl, ~~~ctl, sts, ~~~sts].flatMap fieldBits) ++ prbsBits prbs).map pam2

/-- The status field this end sends on a lane (R95). -/
def ownStatus (phys lane : Nat) (x : LaneTrain) (ready : Bool) (countdown : Nat) : BitVec 16 :=
  BitVec.ofNat 16 (x.preStat.toNat + x.postStat.toNat * 4 + (if ready then 16 else 0) + countdown * 32 + phys * 512 + lane * 4096)

/-- The physical lane of a logical lane (R121). -/
def physLane (s : State) (l lane : Nat) : Nat := natField (odGet s (0x6010 + l) 0x04) (4 * lane) 3

/-- The lanes as training begins: only the PRBS13 runs on. -/
def freshLanes (k : Link) : Tbl LaneTrain := k.lanes.map (fun x => (x.1, ({ prbs := x.2.prbs } : LaneTrain)))

/-- A training frame on both logical lanes (R93, R95): control INIT in DETECT and hold otherwise; the Nalser's receivers count as adapted
when EQ begins (log entry 61). -/
def sendFrames (l countdown : Nat) (s : State) : State :=
  let k := s.link l
  let ctl : BitVec 16 := if k.state = .detect then 0x20 else 0
  let ready := decide (k.state ≠ .detect) && decide (k.state ≠ .cdr)
  let frame (t : State) (lane : Nat) : State :=
    let x := Tbl.get k.lanes lane {}
    emit (.trainFrame l lane (frameLevels ctl (ownStatus (physLane s l lane) lane x ready countdown) x.prbs) x.prbs)
      (t.setLink l { t.link l with lanes := (t.link l).lanes.set lane { x with prbs := prbsRun x.prbs } })
  let s1 := [0, 1].foldl frame s
  s1.setLink l { s1.link l with readySent := k.readySent || ready }

/-- The countdown (R95): the frames with COUNTDOWN 15, 14 … 0 in consecutive frames on both lanes. They leave in one step (log entry 196). -/
def sendCountdown (l : Nat) (s : State) : State := (List.range 16).foldl (fun t i => sendFrames l (15 - i) t) s

/-- The logical links whose ports a link carries. -/
def carriedLinks (s : State) (l : Nat) : List Nat := (List.range 32).filter (fun j => decide (carrierOf s j = l))

/-- The ports of a logical link. -/
def linkPorts (l : Nat) : List Nat := (List.range 32).map (fun i => 32 * l + i)

/-- Shelves stop waiting for POWER_DONE from a logical link, whose slots count as not reported: at level 0 its ports are LATE (R134, R135). -/
def dropAwaiting (l : Nat) (s : State) : State :=
  (List.range 128).foldl (fun t h =>
    let x := t.shelf h
    if x.awaiting.any (fun a => decide (a.1 = l)) then
      let t1 := t.setShelf h { x with awaiting := x.awaiting.filter (fun a => decide (a.1 ≠ l)) }
      let silent := if x.awaiting.any (fun a => decide (a.1 = l) && !a.2.2) then (shelfPorts t1 h).filter (fun p => decide (p / 32 = l)) else []
      let t2 := silent.foldl (fun u p => missSleep p u) t1
      if x.state = .sleeping ∧ sleepAnswered (t2.shelf h) then shelfAsleep h t2 else tryOpen h t2
    else t) s

/-- One port goes to OFFLINE, a RETIRED one apart, and its commands end as if DL_DRIVE had expired (R130, R135). An IDENTIFY is sent again: to
the others when the link is ACTIVE again, so that only a RETIRED port's is kept. -/
def portOffline (p : Nat) (t : State) : State :=
  let x := t.port p
  let prior : PortState := match x.state with
    | .offline => x.prior
    | .waking => .asleep
    | st => st
  let lost := x.cmds.filter (fun c => !c.outcomeGiven) ++ x.waiting.filter (fun c => decide (c.op ≠ 5))
  let t1 := t.setPort p { x with cmds := [], prior := prior, joinReq := none, waiting := [] }
  let t2 := if x.state ≠ .retired then setPortState p .offline t1 else if x.takeNext then identify p t1 else t1
  let t3 := lost.foldl (fun u c => driveLost c [] u) t2
  trySleep (portShelf t3 p) t3

/-- The ports of a logical link go to OFFLINE (R130, R135). -/
def portsOffline (l : Nat) (s : State) : State := dropAwaiting l ((linkPorts l).foldl (fun t p => portOffline p t) s)

/-- Every command of a logical link's ports that has no STATUS is handed back (R128, R131): it is issued again once, its tag is free. A port
that takes no command answers what waits at it (R130); from DL_WINDOW a CLOSING shelf's commands are held and ask for its next window, and the
shelf sleeps once none is outstanding (R134). -/
def handBack (l : Nat) (s : State) : State :=
  (linkPorts l).foldl (fun t p =>
    let x := t.port p
    let again (c : DriveCmd) : Bool := !c.outcomeGiven && decide (c.reissues = 0)
    let late := pastClosing t p
    let reads := (x.cmds.filter (fun c => again c && decide (c.op ≠ 2))).map (fun c =>
      { c with tag := none, reissues := 1, held := late && decide (c.op ≠ 5), gotSeals := [], gotPoison := [], gotData := [] })
    let writes := x.cmds.filter (fun c => again c && decide (c.op = 2))
    let lost := x.cmds.filter (fun c => !c.outcomeGiven && decide (c.reissues ≠ 0))
    let t1 := t.setPort p { x with cmds := [], waiting := reads ++ x.waiting }
    let t2 := odAdd (0x6400 + p) 0x0E (reads.length + writes.length) (if reads.any (·.held) then requestWake (portShelf t1 p) t1 else t1)
    let t3 := writes.foldl (fun u c => rewriteFrag c.uid c.frag u) t2
    let t4 := flushWaiting p (lost.foldl (fun u c => if c.op = 5 then identify p u else driveLost c [] u) t3)
    trySleep (portShelf t4 p) t4) s

/-- A POWER_SET that was not answered is sent again with a new REQ on the link that now carries the ports (R135). -/
def resendPower (l : Nat) (s : State) : State :=
  let again (h : Nat) (t : State) (a : Nat × BitVec 8 × Bool) : State :=
    if a.1 ≠ l then t
    else
      let r := powerSet l (if a.2.2 then 1 else 0) (slotMask t h l) t
      let x := r.2.shelf h
      r.2.setShelf h { x with awaiting := x.awaiting.map (fun b => if b = a then (l, r.1, a.2.2) else b) }
  let shelves := (List.range 128).foldl (fun t h => (t.shelf h).awaiting.foldl (again h) t) s
  (linkPorts l).foldl (fun t p =>
    if (t.port p).joinReq.isSome then
      let r := powerSet l 1 (2 ^ (p % 32)) t
      r.2.setPort p { r.2.port p with joinReq := some r.1 }
    else t) shelves

/-- Messages of a logical link leave a link's queue. -/
def dropMessages (k : Link) (l : Nat) : Link := { k with txq := k.txq.filter (fun m => decide (m.port / 32 ≠ l)) }

/-! ## Link control (R113) -/

/-- Queue a LINK_CTL flit; a request is kept until it is answered. -/
def sendCtl (l op arg : Nat) (request : Bool) (s : State) : State :=
  let k := s.link l
  s.setLink l { k with ctlOut := k.ctlOut ++ [(op, arg)],
                       ctl := if request then k.ctl.filter (fun c => decide (c.op ≠ op ∨ c.arg ≠ arg)) ++ [{ op := op, arg := arg }] else k.ctl }

/-- A request has been answered. -/
def answered (op : Nat) (k : Link) : Link := { k with ctl := k.ctl.filter (fun c => decide (c.op ≠ op)) }

/-- The Nalser's credits (R109). -/
def ownCredits : List Nat := [16, 64, 448, 64]

/-- The payload of a LINK_CTL flit. -/
def ctlPayload (l op arg : Nat) (k : Link) : List Byte :=
  let b (n : Nat) : Byte := BitVec.ofNat 8 n
  if op = 0x01 then
    [b 1, b 1, b 0, b l] ++ bytesOfNat 16 Config.serial.toNat ++ ownCredits.flatMap (bytesOfNat 2) ++ bytesOfNat 2 512 ++
      bytesOfNat 2 (k.expSeq.toNat + (if k.state = .retrain then 2 ^ 15 else 0))
  else if op = 0x03 then [b 3, b arg, b l, b 4]
  else if op = 0x05 then [b 5, b (arg % 2), b l, b 4] ++ bytesOfNat 4 (arg / 2)
  else if op = 0x08 ∨ op = 0x0B then [b op, b arg]
  else [b op]

/-- A LINK_CTL flit is accepted in sequence; while PARAM is exchanged it is taken whatever its number (log entry 60). -/
def acceptCtl (l : Nat) (h : BitVec 40) (s : State) : Bool × State :=
  let k := takeHeader h (s.link l)
  let inSeq := decide (hdrSeq h = k.expSeq)
  if inSeq then (true, s.setLink l { k with expSeq := k.expSeq + 1, accepted := true, nakOut := false })
  else if k.state = .param ∨ k.state = .retrain ∨ k.state = .mismatch then (true, s.setLink l k)
  else (false, s.setLink l (nakOnce k))

/-! ## Lanes (R91, R115, R116) -/

/-- Whether a quad's spare is free: SPARE_STATE 0, and no sparing under way on either link. -/
def spareFree (s : State) (q : Nat) : Bool :=
  decide (odGet s (0x6040 + q) 0x01 = 0) && (s.link (2 * q)).spareLane.isNone && (s.link (2 * q + 1)).spareLane.isNone

/-- A quad's spare is FAILED, and so is its physical lane (R115, R122). -/
def failQuadSpare (q : Nat) (s : State) : State :=
  storeOd (0x6040 + q) 0x07 (odGet s (0x6040 + q) 0x07 ||| 16) (storeOd (0x6040 + q) 0x01 2 s)

/-- The lane map with a logical lane on the spare. -/
def mapSpare (l lane : Nat) (s : State) : State :=
  let q := l / 2
  let m := odGet s (0x6010 + l) 0x04
  let old := physLane s l lane
  let m' := if lane = 0 then m / 8 * 8 + 4 else m % 16 + 4 * 16
  storeOd (0x6040 + q) 0x07 (odGet s (0x6040 + q) 0x07 ||| 2 ^ old) (storeOd (0x6040 + q) 0x01 1 (storeOd (0x6010 + l) 0x04 m' s))

/-- The repair that spares a lane (R443). -/
def laneRepair (s : State) (l lane : Nat) : Repair :=
  { action := 0x09, resource := BitVec.ofNat 16 (resource 4 (l / 2 * 5 + physLane s l lane)),
    target := BitVec.ofNat 16 (resource 4 (l / 2 * 5 + 4)), incident := nextIncident s, cls := 0,
    uses := [BitVec.ofNat 16 (resource 4 (l / 2 * 5 + 4))] }

/-- The incident of a running repair of a resource, or of one that uses it (R442, R450). -/
def repairIncident (res : Nat) (s : State) : Option (BitVec 32) :=
  (s.far.running.find? (fun r => decide (r.resource.toNat = res) || r.uses.contains (BitVec.ofNat 16 res))).map (·.incident)

/-- A record of link or lane trouble (R119), under the incident of the fault that it is part of where there is one (R123). -/
def linkRecordIn (inc : Option (BitVec 32)) (res action outcome : Nat) (s : State) : State :=
  let r : Rec := { kind := 0x06, cls := 0, resource := res, action := action, outcome := outcome }
  match inc with
  | some i => recordIn i r s
  | none => record r s

def linkRecord (res action outcome : Nat) (s : State) : State := linkRecordIn none res action outcome s

/-- Spare a lane of a link that runs on (R115), whose training on the spare starts anew, or note that no spare is free. -/
def spareRunning (l lane : Nat) (s : State) : State :=
  if (s.link l).spareLane.isSome then s
  else if spareFree s (l / 2) then
    let r := beginRepair 0x06 (laneRepair s l lane) s
    if r.1 then sendCtl l 0x03 lane true (r.2.setLink l { r.2.link l with spareLane := some lane, switchAt := none, spareTrain := { prbs := (r.2.link l).spareTrain.prbs } }) else r.2
  else linkRecord (resource 4 (l / 2 * 5 + physLane s l lane)) 0x09 4 s

/-- Spare a lane while the link trains (R116). -/
def spareTraining (l lane : Nat) (s : State) : State :=
  let r := beginRepair 0x06 (laneRepair s l lane) s
  let res := resource 4 (l / 2 * 5 + physLane s l lane)
  let s1 := mapSpare l lane r.2
  if r.1 then endRepair 0x06 0x09 res {} s1 else s1

/-! ## Leaving ACTIVE and failing (R96, R117, R119) -/

/-- Training begins anew: DETECT, with control INIT. What the link holds is kept until LINK_HOLD. -/
def toDetect (l : Nat) (s : State) : State :=
  let k := s.link l
  sendFrames l 15 (setLinkState l .detect (s.setLink l
    { k with lanes := freshLanes k, goodSf := 0, badSf := 0, farSf := none, sfOpen := false, sfUcw := false, readySent := false,
             paramSeen := false, paramAcked := false, phase := 0, quietSent := false, quietNext := false,
             ctl := k.ctl.filter (fun c => decide (c.op ≠ 1)) }))

/-- The last failback request of a link ends with a result (R118, R121). -/
def failbackResult (j v : Nat) (s : State) : State :=
  match (s.link j).failbackPath with
  | none => s
  | some path => pathSet path (0x6010 + j) 0x07 v (s.setLink j { s.link j with failbackPath := none, failbackSent := false, failbackGone := false })

/-- Whether a link may be failed over to its target (R117). -/
def failoverTarget (s : State) (l : Nat) : Option LinkId :=
  let t := odGet s (0x6010 + l) 0x03
  if h : t < 32 then
    let id := odGet s (0x6010 + l) 0x05
    let own := (carriedLinks s t).all (fun j => decide (j = t)) && decide (carrierOf s t = t) &&
      (List.range 32).all (fun j => decide ((s.link j).failoverOn ≠ some ⟨t, h⟩))
    if t ≠ l ∧ t / 16 = l / 16 ∧ (s.link t).state = .active ∧ own ∧ id ≠ 0 ∧ id = odGet s (0x6010 + t) 0x05 then some ⟨t, h⟩ else none
  else none

/-- The repair that fails a link over (R443). -/
def linkRepair (s : State) (l t : Nat) : Repair :=
  { action := 0x0A, resource := BitVec.ofNat 16 (resource 5 l), target := BitVec.ofNat 16 (resource 5 t), incident := nextIncident s,
    cls := 0, uses := [BitVec.ofNat 16 (resource 5 t)] }

/-- A failover under way from or to a link has failed: the ports go offline (R123). -/
def failoverFails (j : Nat) (outcome : Nat) (s : State) : State :=
  match (s.link j).failoverOn with
  | none => s
  | some t =>
    let s1 := s.setLink j { s.link j with failoverOn := none }
    let s2 := s1.setLink t.val { s1.link t.val with ctl := (s1.link t.val).ctl.filter (fun c => decide (c.op ≠ 8 ∨ c.arg ≠ j)),
                                                    ctlOut := (s1.link t.val).ctlOut.filter (fun c => decide (c ≠ (8, j))) }
    portsOffline j (endRepair 0x06 0x0A (resource 5 j) { outcome := outcome } s2)

/-- A sparing under way on a link that stops is over (R115). -/
def stopSparing (l : Nat) (s : State) : State :=
  match (s.link l).spareLane with
  | none => s
  | some lane =>
    endRepair 0x06 0x09 (resource 4 (l / 2 * 5 + physLane s l lane)) { outcome := 2 }
      (s.setLink l { s.link l with spareLane := none, switchAt := none, spareBoth := false })

/-- The links whose failover onto a link is under way. -/
def failingOver (s : State) (l : Nat) : List Nat := (List.range 32).filter (fun j => decide ((s.link j).failoverOn.map (·.val) = some l))

/-- A link that stops takes with it what other links have on it: a failover onto it fails, and ports of another link that it carries go
offline, with a failback of them denied (R117, R118, R123, R135). -/
def dropGuests (l : Nat) (s : State) : State :=
  let s1 := (failingOver s l).foldl (fun t j => failoverFails j 2 t) s
  ((carriedLinks s1 l).filter (fun j => decide (j ≠ l))).foldl (fun t j => portsOffline j (failbackResult j 2 t)) s1

/-- A link fails: it is failed over where that is possible; otherwise its ports go offline (R117, R119). One that was itself the target of a
failover under way is not failed over: its ports go offline, and both faults carry one incident number (R123). A failback of its own ports
whose FAILBACK was sent ends with that exchange (R118). -/
def failLink (l : Nat) (s : State) : State :=
  if (s.link l).state = .failed ∨ (s.link l).state = .disabled then s
  else
    let k := s.link l
    let inc := repairIncident (resource 5 l) s
    let target := if (failingOver s l).isEmpty then fun t => failoverTarget t l else fun _ => none
    let s1 := stopSparing l s
    let s2 := dropGuests l (setLinkState l .failed (s1.setLink l { s1.link l with phase := 0, quietNext := false, ctl := [], ctlOut := [] }))
    if carrierOf s2 l ≠ l then linkRecordIn inc (resource 5 l) 0 5 (if k.failbackSent then s2 else failbackResult l 2 s2)
    else match target s2 with
      | none => portsOffline l (linkRecordIn inc (resource 5 l) 0x0A 4 s2)
      | some t =>
        let r := beginRepair 0x06 (linkRepair s2 l t.val) s2
        sendCtl t.val 0x08 l true (r.2.setLink l { r.2.link l with failoverOn := some t })

/-- The worse lane of a link by its last window (R119). -/
def worstLane (k : Link) : Nat := if k.serLast.getD 0 0 < k.serLast.getD 1 0 then 1 else 0

/-- An end leaves ACTIVE for RETRAIN and sends training frames at once, with its coefficients saved (R96); `counted` entries count toward
RETRAIN_LIMIT in 10 s (R119). When the Nalser itself would send RETRAIN_REQ, which the table of R113 lets both ends send, is not stated; that
it never does, since the frames tell the far end, is the model's choice (log entry 148). -/
def enterRetrain (l : Nat) (counted : Bool) (s : State) : State :=
  let k := s.link l
  let s1 := odBump (0x6010 + l) 0x0D (sendFrames l 15 (setLinkState l .retrain (s.setLink l
    { k with phase := 0, lanes := k.lanes.map (fun x => (x.1, { x.2 with good := 0, ready := 0, preStat := 0, postStat := 0 })),
             goodSf := 0, badSf := 0, farSf := none, sfOpen := false, sfUcw := false, readySent := false, paramSeen := false,
             paramAcked := false, holding := true, fresh := false, quietSent := false, quietNext := false, nakOut := false, nakPending := false, sfCount := 0, slot := 0,
             retrains := if counted then 0 :: k.retrains else k.retrains })))
  if counted ∧ odGet s 0x6000 0x05 < (s1.link l).retrains.length then
    (if spareFree s1 (l / 2) then s1.setLink l { s1.link l with spareWanted := some (worstLane k) } else failLink l s1)
  else s1

/-- A training failure (R93, R119): four in a row spare the lane that failed, or fail the link. -/
def trainingFailure (l : Nat) (culprit : Option Nat) (s : State) : State :=
  let k := s.link l
  let s1 := odBump (0x6010 + l) 0x0E (s.setLink l { k with trainFails := k.trainFails + 1 })
  if 4 ≤ k.trainFails + 1 then
    (match culprit with
     | some lane =>
       if spareFree s1 (l / 2) then toDetect l (spareTraining l lane (s1.setLink l { s1.link l with trainFails := 0 })) else failLink l s1
     | none => failLink l s1)
  else
    match k.spareWanted with
    | some lane =>
      if k.state = .retrain ∧ spareFree s1 (l / 2) then
        toDetect l (spareTraining l lane (s1.setLink l { s1.link l with spareWanted := none }))
      else toDetect l s1
    | none => toDetect l s1

/-- The exchange of PARAM begins (R93, R113); after a reset the sequence and credit state start anew (R96). -/
def startParam (l : Nat) (s : State) : State :=
  let k := s.link l
  let k1 := if k.fresh then { k with nextSeq := 0, expSeq := 0, accepted := false, replay := [], replayAt := none, replayCount := 0,
                                     lastCred := [], freed := [], unreported := [], rx := [] } else k
  let s1 := s.setLink l { k1 with phase := 2, ctlOut := k1.ctlOut.filter (fun c => decide (c.1 ≠ 1)) }
  sendCtl l 0x01 0 true (if k.state = .align then setLinkState l .param s1 else s1)

/-- Both PARAMs are settled: the link is ACTIVE, a sparing that waited begins, and its ports are identified (R93, R123, R130). -/
def tryActive (l : Nat) (s : State) : State :=
  let k := s.link l
  if k.paramSeen ∧ k.paramAcked ∧ (k.state = .param ∨ k.state = .retrain) then
    let s1 := setLinkState l .active (s.setLink l { k with phase := 0, trainFails := 0, holding := false, fresh := false, spareWanted := none,
                                                           replayAt := if k.replay.isEmpty then none else some 0,
                                                           replayFrom := match k.replay with | x :: _ => hdrSeq x.flit.hdr | [] => k.replayFrom })
    let s2 := match k.spareWanted with | some lane => spareRunning l lane s1 | none => s1
    ((carriedLinks s2 l).flatMap linkPorts).foldl (fun t p => if (t.port p).state = .retired then t else identify p t) s2
  else s

/-- A failback is abandoned (R118): once its exchange has ended, FAILOVER is sent for the link on its target, and what is unacknowledged
is handed back. -/
def abandonFailback (j t : Nat) (s : State) : State :=
  let s1 := failbackResult j 2 (s.setLink t (dropMessages (s.link t) j))
  resendPower j (handBack j (sendCtl t 0x08 j true s1))

end Sys2Proof.Machine
end

