-- ==== Sys2Proof/Machine/Links.lean ====
section
/-! DEFINITION. The commands of the Tether links: training, flits, replay, link control, sparing and failover (R88–R123). -/

namespace Sys2Proof.Machine

/-! ## Training (R93–R95) -/

/-- SIGNAL_DETECT: DETECT goes to CDR; frames that wake a QUIET link take it to RETRAIN and are a wake event (R114, R420). -/
def execSignalDetect (l : LinkId) (s : State) : Answer :=
  match (s.link l.val).state with
  | .detect => .next (setLinkState l.val .cdr (s.setLink l.val { s.link l.val with lanes := freshLanes (s.link l.val) }))
  | .quiet => .next (wakeDevice 2 (enterRetrain l.val false s))
  | _ => .next s

/-- A coefficient request (R90, R95): one step, or "at limit"; it is applied once, and hold returns the status to "not updated". The
reserved request code 3 is answered as hold is, which is the model's choice (log entry 149). -/
def stepTap (req : Nat) (v top : Nat) (stat : BitVec 2) : Nat × BitVec 2 :=
  if req = 0 then (v, 0)
  else if stat ≠ 0 then (v, stat)
  else if req = 1 then (if v < top then (v + 1, 1) else (v, 3))
  else if req = 2 then (if 0 < v then (v - 1, 1) else (v, 2))
  else (v, 0)

/-- The requests in a control field, carried out: INIT, PRESET, or a step of each tap. R95 does not say which status answers INIT and
PRESET; "updated" for both taps is the model's choice (log entry 149). -/
def coefficients (ctl : BitVec 16) (x : LaneTrain) : LaneTrain :=
  if ctl.getLsbD 5 then { x with pre := 0, post := 0, preStat := 1, postStat := 1 }
  else if ctl.getLsbD 4 then { x with pre := 2, post := 6, preStat := 1, postStat := 1 }
  else
    let a := stepTap (natField ctl.toNat 0 2) x.pre 8 x.preStat
    let b := stepTap (natField ctl.toNat 2 2) x.post 12 x.postStat
    { x with pre := a.1, preStat := a.2, post := b.1, postStat := b.2 }

/-- A training frame on the spare lane of a running link (R115 step 2): its coefficients are set as in training. That a frame answers each one
received, and that the spare's receiver counts as adapted after 8 good frames, are the model's choice (log entry 187). -/
def spareFrame (l lane : Nat) (ctl sts : BitVec 16) (s : State) : State :=
  let k := s.link l
  if natField sts.toNat 13 1 ≠ 1 ∨ natField sts.toNat 9 3 ≠ 4 ∨ natField sts.toNat 12 1 ≠ lane then s
  else
    let y := coefficients ctl { k.spareTrain with good := min 8 (k.spareTrain.good + 1),
                                                  ready := if sts.getLsbD 4 then min 8 (k.spareTrain.ready + 1) else 0 }
    emit (.trainFrame l lane (frameLevels 0 (ownStatus 4 lane y (decide (y.good = 8)) 15) y.prbs) y.prbs)
      (s.setLink l { k with spareTrain := { y with prbs := prbsRun y.prbs } })

/-- A training frame on a lane (R93, R95). The frame on logical lane 1 is answered by this end's next frame on both lanes (log entry 61);
once a frame with RX_READY has been sent and the far end's has been seen for 8 frames, the frames of the countdown follow, and superframes
after them. -/
def trainingFrame (l lane : Nat) (ctl sts : BitVec 16) (s : State) : State :=
  let k := s.link l
  let training := decide (k.state = .cdr) || decide (k.state = .equalize) || (decide (k.state = .retrain) && decide (k.phase = 0))
  if k.state = .quiet then wakeDevice 2 (enterRetrain l false s)
  else if k.state = .active ∧ k.spareLane = some lane ∧ k.switchAt = none then spareFrame l lane ctl sts s
  else if !training then s
  else if natField sts.toNat 13 1 ≠ 1 then s
  else if natField sts.toNat 9 3 ≠ physLane s l lane ∨ natField sts.toNat 12 1 ≠ lane then trainingFailure l (some lane) s
  else
    let x0 := Tbl.get k.lanes lane {}
    let x1 := coefficients ctl { x0 with good := min 8 (x0.good + 1), ready := if sts.getLsbD 4 then min 8 (x0.ready + 1) else 0 }
    let lanes := k.lanes.set lane x1
    let both (f : LaneTrain → Bool) : Bool := f (Tbl.get lanes 0 {}) && f (Tbl.get lanes 1 {})
    let count := decide (lane = 1) && decide (k.state ≠ .cdr) && k.readySent && both (fun y => decide (y.ready = 8))
    let s0 := s.setLink l { k with lanes := lanes }
    let s1 := if count then sendCountdown l s0 else if lane = 1 then sendFrames l 15 s0 else s0
    if k.state = .cdr ∧ both (fun y => decide (8 ≤ y.good)) then setLinkState l .equalize s1
    else if count then
      let s2 := s1.setLink l { s1.link l with slot := 0, sfCount := 0, goodSf := 0, farSf := none, sfOpen := false, sfUcw := false, phase := 1 }
      if k.state = .equalize then setLinkState l .align s2 else s2
    else s1

/-- TRAINING_FRAME: a frame whose fields disagree with their complements is ignored (R94). -/
def execTrainingFrame (l : LinkId) (lane : Fin 2) (ctl sts : FrameField) (s : State) : Answer :=
  .next (if ctl.inv = ~~~ctl.bits ∧ sts.inv = ~~~sts.bits then trainingFrame l.val lane.val ctl.bits sts.bits s else s)

/-- TRAINING_TIMEOUT: the state's time is over; a training failure is recorded (R93). -/
def execTrainingTimeout (l : LinkId) (culprit : Option (Fin 2)) (s : State) : Answer :=
  match (s.link l.val).state with
  | .cdr => .next (trainingFailure l.val (culprit.map (·.val)) s)
  | .equalize => .next (trainingFailure l.val (culprit.map (·.val)) s)
  | .align => .next (trainingFailure l.val (culprit.map (·.val)) s)
  | .param => .next (trainingFailure l.val (culprit.map (·.val)) s)
  | .retrain => .next (trainingFailure l.val (culprit.map (·.val)) s)
  | _ => .next s

/-! ## Markers (R99, R100) -/

/-- An ACTIVE end loses lock (R96, R100). -/
def lockLoss (l : Nat) (s : State) : State := if (s.link l).state = .active then enterRetrain l true s else s

/-- Whether a MARKER's contents fit: the bridge's role, the link number and the lane map. -/
def markerFits (s : State) (l : Nat) (f : Flit) : Bool :=
  decide ((f.payload.getD 4 0).toNat = 1) && decide ((f.payload.getD 5 0).toNat = l) &&
    decide ((f.payload.getD 6 0).toNat = odGet s (0x6010 + l) 0x04)

/-- Whether the number of an unsequenced flit shows that a flit was lost (R106). -/
def seqAhead (seq expected : BitVec 10) : Bool := let d := (seq - expected).toNat; decide (0 < d) && decide (d < 512)

/-- MARKER_FLIT: alignment counts whole superframes in a row that began with a good MARKER, had consecutive SF_COUNT and met no
uncorrectable codeword; an ACTIVE end loses lock on the second one without a good MARKER (R93, R100). A MARKER whose SEQ is ahead is handled
as a bad flit (R106). After a jump of SF_COUNT the next count is compared with the one expected before it, which is the model's choice (log
entry 150). -/
def markerFlit (l : Nat) (f : Flit) (s : State) : State :=
  let k := s.link l
  let aligning := decide (k.state = .align) || (decide (k.state = .retrain) && decide (k.phase = 1))
  let sf := BitVec.ofNat 32 (natOfBytes (f.payload.take 4))
  let next := match k.farSf with | some x => decide (sf = x + 1) | none => true
  let sound := flitGood f && !(decide (k.state = .active) && seqAhead (hdrSeq f.hdr) k.expSeq)
  let good := sound && markerFits s l f && next
  if aligning then
    let n := if k.sfOpen && !k.sfUcw && !f.ucw then k.goodSf + 1 else 0
    let s1 := s.setLink l { k with goodSf := if good then n else 0, farSf := if flitGood f then some sf else none,
                                   sfOpen := flitGood f && markerFits s l f, sfUcw := f.ucw }
    if good ∧ 3 ≤ n then startParam l s1 else s1
  else if k.state = .active ∨ k.state = .param ∨ k.state = .retrain ∨ k.state = .mismatch then
    if good then
      let k1 := takeHeader f.hdr k
      s.setLink l { k1 with farSf := some sf, badSf := 0 }
    else
      let s1 := (if sound then s else badFlit l s)
      let s2 := s1.setLink l { s1.link l with badSf := k.badSf + 1, farSf := match k.farSf with | some x => some (x + 1) | none => none }
      if 2 ≤ k.badSf + 1 then lockLoss l s2 else s2
  else s

def execMarkerFlit (l : LinkId) (f : Flit) (s : State) : Answer := .next (markerFlit l.val f s)

/-- RECEIVE_LOCK_LOSS (R89, R100). -/
def execReceiveLockLoss (l : LinkId) (s : State) : Answer := .next (lockLoss l.val s)

/-! ## Sending (R104, R105, R110, R112) -/

/-- The unacknowledged flits the Nalser may have: no more than its own replay depth of 512, and never more than 511 (R105). -/
def outstandingLimit : Nat := min 512 511

/-- Whether a DATA message may start: no CMD message of its port is before it in the queue (R126). -/
def mayStart (q : List Msg) (m : Msg) : Bool :=
  decide (m.vc ≠ 2) ||
    !((q.takeWhile (fun x => decide (x ≠ m))).any (fun x => decide (x.vc = 1) && decide (x.port = m.port)))

/-- The message a channel sends from: one that has begun, otherwise that of the next port by rotating priority (R126). -/
def nextMsg (k : Link) (vc : Nat) : Option Msg :=
  let mine := k.txq.filter (fun m => decide (m.vc.val = vc))
  match mine.find? (·.begun) with
  | some m => some m
  | none =>
    let last := Tbl.get k.lastPort vc 1023
    let turn (m : Msg) : Nat := (m.port + 2048 - last - 1) % 1024
    (mine.filter (mayStart k.txq)).foldl (fun b m => match b with
      | none => some m
      | some y => if turn m < turn y then some m else some y) none

/-- What a flit takes from a channel's stream: its units, the offset of the first message start among them, and the logical links whose
ports it serves. -/
structure Taken where
  units : List Word := []
  start : Option Nat := none
  links : List Nat := []
deriving DecidableEq, Repr

/-- Take up to `n` units of a channel's stream, and the link after it. -/
def takeUnits (vc n : Nat) (a : Taken) (fuel : Nat) (k : Link) : Taken × Link :=
  match fuel with
  | 0 => (a, k)
  | fuel + 1 =>
    if n = 0 then (a, k)
    else match nextMsg k vc with
      | none => (a, k)
      | some m =>
        let got := m.units.take n
        let left := m.units.drop n
        let st := match a.start, m.starts.find? (fun i => decide (i < got.length)) with
          | some x, _ => some x
          | none, some i => some (a.units.length + i)
          | none, none => none
        let m1 := { m with units := left, begun := true, starts := (m.starts.filter (fun i => decide (got.length ≤ i))).map (· - got.length) }
        let q := if left.isEmpty then k.txq.erase m else k.txq.map (fun x => if x = m then m1 else x)
        takeUnits vc (n - got.length) { units := a.units ++ got, start := st, links := a.links ++ [m.port / 32] } fuel
          { k with txq := q, lastPort := k.lastPort.set vc m.port }

/-- The header of the flit sent in this slot, apart from its kind. -/
def slotHdr (k : Link) (ty vc boundary : Nat) (seq : BitVec 10) : BitVec 40 :=
  let cv := k.slot % 4
  flitHdr ty vc boundary seq.toNat (k.expSeq - 1) k.accepted cv (Tbl.get k.freed cv 0)

/-- Advance to the next slot; buffers held back from the credit count are reported next (R110). From superframe N − 2 of a switch to the
spare, both lanes are sent (R115). -/
def nextSlot (k : Link) : Link :=
  let cv := k.slot % 4
  let held := Tbl.get k.unreported cv 0
  let n := min 63 held
  let sf := if k.slot = 1284 then k.sfCount + 1 else k.sfCount
  { k with slot := if k.slot = 1284 then 0 else k.slot + 1, sfCount := sf, ackTold := k.expSeq,
           spareBoth := k.spareBoth || decide (k.switchAt = some (sf + 2)),
           freed := k.freed.set cv (Tbl.get k.freed cv 0 + BitVec.ofNat 6 n), unreported := k.unreported.set cv (held - n) }

/-- Send a flit that takes no number. -/
def sendPlain (l : Nat) (f : Flit) (k : Link) (s : State) : State := emit (.flit l f) (s.setLink l (nextSlot k))

/-- Send a sequenced flit and keep it for replay. -/
def sendSequenced (l : Nat) (ty vc boundary : Nat) (payload : List Byte) (links : List Nat) (k : Link) (s : State) : State :=
  let f := mkFlit (slotHdr k ty vc boundary k.nextSeq) payload
  emit (.flit l f) (s.setLink l (nextSlot { k with nextSeq := k.nextSeq + 1, replay := k.replay ++ [⟨f, links⟩] }))

/-- The MARKER of a superframe (R99). -/
def markerPayload (s : State) (l : Nat) (k : Link) : List Byte :=
  bytesOfNat 4 k.sfCount.toNat ++ [0, BitVec.ofNat 8 l, BitVec.ofNat 8 (odGet s (0x6010 + l) 0x04), BitVec.ofNat 8 (odGet s (0x6040 + l / 2) 0x01)]

/-- The channel that sends a PAYLOAD now: CTL first, then CMD, DATA and RSP by rotating priority; each needs a credit (R112). -/
def payloadVc (k : Link) : Option Nat :=
  let can (vc : Nat) : Bool := (nextMsg k vc).isSome && decide (0 < Tbl.get k.credits vc 0)
  if can 0 then some 0
  else ((List.range 3).map (fun i => (k.lastVc + i) % 3 + 1)).find? can

/-- A flit kept for replay as it is sent again: its ACK and credit fields are those of now. -/
def resend (k : Link) (f : Flit) : Flit :=
  mkFlit (slotHdr k (natField f.hdr.toNat 0 3) (hdrVc f.hdr) (natField f.hdr.toNat 5 4) (hdrSeq f.hdr)) f.payload

/-- Count a flit in a Tether link's block (R513; log entry 206). -/
def countTether (l event : Nat) (s : State) : State := countUncore (0x120 + l) event 1 s

/-- FLIT_SLOT: the flit of this slot, chosen in the order of R112. -/
def flitSlot (l : Nat) (s : State) : State :=
  let k := s.link l
  let sends := decide (k.state = .align) || decide (k.state = .param) || decide (k.state = .active) || decide (k.state = .mismatch) ||
    (decide (k.state = .retrain) && decide (1 ≤ k.phase))
  let ctlOk := decide (k.state = .param) || decide (k.state = .active) || (decide (k.state = .retrain) && decide (k.phase = 2))
  let active := decide (k.state = .active)
  let room := decide (k.replay.length < outstandingLimit)
  let null := sendPlain l (mkFlit (slotHdr k 0 0 0xF k.nextSeq) []) k s
  let holdsQuiet := decide ((k.ctlOut.headD (0, 0)).1 = 6) && (!k.replay.isEmpty || decide (k.ackTold ≠ k.expSeq))
  if k.state = .quiet ∧ !k.txq.isEmpty then enterRetrain l false s
  else if !sends then s
  else if k.slot = 0 then sendPlain l (mkFlit (slotHdr k 2 0 0xF k.nextSeq) (markerPayload s l k)) k s
  else if active && k.nakPending then
    let k1 := { k with nakPending := false }
    odBump (0x6010 + l) 0x0A (sendPlain l (mkFlit (slotHdr k1 3 0 0xF k1.nextSeq) []) k1 s)
  else if active && k.replayAt.isSome then
    let i := k.replayAt.getD 0
    match k.replay[i]? with
    | some f =>
      let k1 := { k with replayAt := if i + 1 < k.replay.length then some (i + 1) else none }
      sendPlain l (resend k f.flit) k1 (countTether l 3 s)
    | none => sendPlain l (mkFlit (slotHdr k 0 0 0xF k.nextSeq) []) { k with replayAt := none } s
  else if ctlOk && room && !k.ctlOut.isEmpty && !holdsQuiet then
    let c := k.ctlOut.headD (0, 0)
    sendSequenced l 4 0 0xF (ctlPayload l c.1 c.2 k) [] { k with ctlOut := k.ctlOut.drop 1 } s
  else if active && room then
    match payloadVc k with
    | some vc =>
      let r := takeUnits vc 15 {} 16 k
      let k1 := { r.2 with credits := k.credits.set vc (Tbl.get k.credits vc 0 - 1), lastVc := if vc = 0 then k.lastVc else vc }
      sendSequenced l 1 vc (r.1.start.getD 0xF) (r.1.units.flatMap wordBytes) r.1.links k1 (countTether l 1 s)
    | none => null
  else null

/-! ## Receiving (R106–R111) -/

/-- What is left of a channel's stream once its whole messages have gone to the port layer; a zero unit where a message would begin is
fill, as is the rest of its payload (R104). -/
def dropMessages_ (units : List Word) (fuel : Nat) : List Word :=
  match fuel with
  | 0 => units
  | fuel + 1 =>
    match units with
    | [] => []
    | u :: _ =>
      if u = 0 then []
      else
        let n := natField u.toNat 8 12
        if n = 0 then [] else if n ≤ units.length then dropMessages_ (units.drop n) fuel else units

/-- A freed buffer is reported in the credit count, of which at most 63 may be unreported (R110). -/
def freeBuffer (vc : Nat) (k : Link) : Link := { k with unreported := k.unreported.set vc (Tbl.get k.unreported vc 0 + 1) }

/-- PAYLOAD_FLIT: accepted when good and in sequence; otherwise it is bad or out of order (R106, R107, R111). -/
def payloadFlit (l : Nat) (f : Flit) (s : State) : State :=
  if (s.link l).state ≠ .active then s
  else if !flitGood f then badFlit l s
  else
    let s := countTether l 2 s
    let k := takeHeader f.hdr (s.link l)
    if hdrSeq f.hdr ≠ k.expSeq then s.setLink l (nakOnce k)
    else
      let vc := hdrVc f.hdr
      let stream := Tbl.get k.rx vc [] ++ wordsOf 15 (takePad 120 0 f.payload)
      s.setLink l (freeBuffer vc { k with expSeq := k.expSeq + 1, accepted := true, nakOut := false,
                                          rx := k.rx.set vc (dropMessages_ stream 16) })

def execPayloadFlit (l : LinkId) (f : Flit) (s : State) : Answer := .next (payloadFlit l.val f s)

/-- The states in which flits are received as such. -/
def receives (k : Link) : Bool :=
  decide (k.state = .active) || decide (k.state = .param) || decide (k.state = .mismatch) || (decide (k.state = .retrain) && decide (k.phase = 2))

/-- Whether a flit that takes no number is bad, or shows by its number that a flit was lost, which is handled as a bad flit (R103, R106). -/
def plainBad (k : Link) (f : Flit) : Bool := !flitGood f || (decide (k.state = .active) && seqAhead (hdrSeq f.hdr) k.expSeq)

/-- NULL_FLIT: its ACK and credit fields are taken; a number ahead of the expected one shows a lost flit. During alignment an
uncorrectable codeword spoils its superframe (R93). -/
def nullFlit (l : Nat) (f : Flit) (s : State) : State :=
  let k := s.link l
  if k.state = .align ∨ (k.state = .retrain ∧ k.phase = 1) then s.setLink l { k with sfUcw := k.sfUcw || f.ucw }
  else if !receives k then s
  else if plainBad k f then badFlit l s
  else s.setLink l (takeHeader f.hdr k)

def execNullFlit (l : LinkId) (f : Flit) (s : State) : Answer := .next (nullFlit l.val f s)

/-- A replay begins at the oldest unacknowledged flit (R107, R108): the fourth one without progress retrains the link, which is recorded
(R119). That RETRAIN begins when the fourth replay starts, before it has been sent and gone unacknowledged, is the model's choice (log entry
151). -/
def startReplay (l : Nat) (s : State) : State :=
  let k := s.link l
  match k.replay with
  | [] => s
  | x :: _ =>
    let s1 := odBump (0x6010 + l) 0x0B (s.setLink l { k with replayAt := some 0, replayFrom := hdrSeq x.flit.hdr, replayCount := k.replayCount + 1 })
    if 4 ≤ k.replayCount + 1 then linkRecord (resource 5 l) 0 5 (enterRetrain l true s1) else s1

/-- NAK_FLIT: what its ACK names is released and the rest replayed; one that names the point already being replayed is ignored (R123). -/
def nakFlit (l : Nat) (f : Flit) (s : State) : State :=
  if (s.link l).state ≠ .active then s
  else if plainBad (s.link l) f then badFlit l s
  else
    let k := takeHeader f.hdr (s.link l)
    let s1 := s.setLink l k
    if k.replayAt.isSome ∧ hdrAck f.hdr + 1 = k.replayFrom then s1 else startReplay l s1

def execNakFlit (l : LinkId) (f : Flit) (s : State) : Answer := .next (nakFlit l.val f s)

/-- NAK_REPEAT_TIMEOUT. -/
def execNakRepeatTimeout (l : LinkId) (s : State) : Answer :=
  let k := s.link l.val
  if k.nakOut ∧ k.state = .active then .next (s.setLink l.val { k with nakPending := true }) else .next s

/-- REPLAY_TIMEOUT (R108). -/
def execReplayTimeout (l : LinkId) (s : State) : Answer :=
  let k := s.link l.val
  if k.replay.isEmpty ∨ k.state ≠ .active then .next s else .next (startReplay l.val (odBump (0x6010 + l.val) 0x0C s))

/-- LINK_HOLD_EXPIRY (R96): the buffers are emptied, sequence and credit state start anew at the next PARAM, and messages go back to the
port layer. -/
def holdExpiry (l : Nat) (s : State) : State :=
  let k := s.link l
  if !k.holding ∨ k.state = .active then s
  else
    let s1 := s.setLink l { k with holding := false, fresh := true, replay := [], replayAt := none, replayCount := 0, txq := [], rx := [] }
    (carriedLinks s1 l).foldl (fun t j => resendPower j (handBack j t)) s1

def execLinkHoldExpiry (l : LinkId) (s : State) : Answer := .next (holdExpiry l.val s)

/-! ## Link control (R113–R118) -/

/-- The credits of a PARAM meet R109. -/
def creditsOk (c : List (BitVec 16)) : Bool :=
  decide (c.length = 4) && ((List.zip [8, 32, 256, 32] c).all (fun x => decide (x.1 ≤ x.2.toNat) && decide (x.2.toNat ≤ 4095)))

/-- What an accepted PARAM gives: its credits to a link that starts anew, or what the far end expects next after a RETRAIN (R96, R109). -/
def takeParam (b : ParamBody) (k : Link) : Link :=
  let k1 := if k.fresh then { k with credits := b.credits.zipIdx.map (fun x => (x.2, x.1.toNat)) }
            else if b.afterRetrain then { k with replay := ackReplay (b.seq - 1) k.replay } else k
  { k1 with paramSeen := true, farDepth := b.depth.toNat, heldParam := none }

/-- PARAM (R96, R113): accepted, refused as a training failure, or a mismatch of identity. -/
def paramReceived (l : Nat) (h : BitVec 40) (b : ParamBody) (s : State) : State :=
  if !receives (s.link l) then s
  else
    let r := acceptCtl l h s
    let k := r.2.link l
    if !r.1 then r.2
    else if k.state = .active then sendCtl l 0x02 0 false r.2
    else if b.version ≠ 1 ∨ b.role ≠ 1 ∨ creditsOk b.credits = false then
      (if k.state = .mismatch then r.2 else trainingFailure l none r.2)
    else
      let known := odGet s (0x6010 + l) 0x05
      if known ≠ 0 ∧ known ≠ b.identity.toNat then
        let s1 := setLinkState l .mismatch (r.2.setLink l { k with newIdentity := b.identity, heldParam := some b })
        (carriedLinks s1 l).foldl (fun t j => portsOffline j t) s1
      else
        let s1 := if known = 0 then storeOd (0x6010 + l) 0x05 b.identity.toNat r.2 else r.2
        tryActive l (sendCtl l 0x02 0 false (s1.setLink l (takeParam b (s1.link l))))

def execParam (l : LinkId) (hdr : BitVec 40) (b : ParamBody) (s : State) : Answer := .next (paramReceived l.val hdr b s)

/-- PARAM_ACK: this end's PARAM is settled. -/
def execParamAck (l : LinkId) (hdr : BitVec 40) (s : State) : Answer :=
  if !receives (s.link l.val) then .next s
  else
    let r := acceptCtl l.val hdr s
    let k := r.2.link l.val
    if r.1 ∧ k.ctl.any (fun c => decide (c.op = 1)) then .next (tryActive l.val (r.2.setLink l.val (answered 1 { k with paramAcked := true }))) else .next r.2

/-- RETRAIN_REQ: an ACTIVE end enters RETRAIN (R96). -/
def execRetrainReq (l : LinkId) (hdr : BitVec 40) (s : State) : Answer :=
  if (s.link l.val).state ≠ .active then .next s
  else let r := acceptCtl l.val hdr s
       .next (if r.1 then enterRetrain l.val true r.2 else r.2)

/-- SPARE_READY: SPARE_SWITCH is sent for superframe SF_COUNT + 16 (R115). -/
def execSpareReady (l : LinkId) (hdr : BitVec 40) (lane link spare : BitVec 8) (s : State) : Answer :=
  if !receives (s.link l.val) then .next s
  else
    let r := acceptCtl l.val hdr s
    let k := r.2.link l.val
    if r.1 ∧ k.spareLane = some lane.toNat ∧ link.toNat = l.val ∧ spare = 4 ∧ k.switchAt = none then
      let n := k.sfCount + 16
      .next (sendCtl l.val 0x05 (lane.toNat % 2 + 2 * n.toNat) false (r.2.setLink l.val (answered 3 { k with switchAt := some n })))
    else .next r.2

/-- SPARE_SWITCH_SUPERFRAME: the lane is on the spare, with the coefficients set there, and its old lane is failed (R115); a link that
retrains then trains with the spare, which was ready (R123). -/
def execSpareSwitchSuperframe (l : LinkId) (s : State) : Answer :=
  let k := s.link l.val
  match k.spareLane, k.switchAt with
  | some lane, some _ =>
    let res := resource 4 (l.val / 2 * 5 + physLane s l.val lane)
    let k1 := { k with spareLane := none, switchAt := none, spareBoth := false, lanes := k.lanes.set lane k.spareTrain }
    .next (endRepair 0x06 0x09 res {} (mapSpare l.val lane (s.setLink l.val k1)))
  | _, _ => .next s

/-- SPARE_READY_TIMEOUT: the spare is FAILED and the link stays on its lane (R115). -/
def execSpareReadyTimeout (l : LinkId) (s : State) : Answer :=
  let k := s.link l.val
  match k.spareLane, k.switchAt with
  | some lane, none =>
    let res := resource 4 (l.val / 2 * 5 + physLane s l.val lane)
    .next (endRepair 0x06 0x09 res { outcome := 3 } (failQuadSpare (l.val / 2)
      (s.setLink l.val (answered 3 { k with spareLane := none }))))
  | _, _ => .next s

/-- FAILOVER_ACK (R117, R131, R135): the failed link's ports travel on this link, and what was handed back is issued again. -/
def failoverDone (t j : Nat) (s : State) : State :=
  let s0 := s.setLink t { s.link t with ctl := (s.link t).ctl.filter (fun c => decide (c.op ≠ 8 ∨ c.arg ≠ j)) }
  match (s0.link j).failoverOn with
  | none => s0
  | some tt =>
    if tt.val ≠ t then s0
    else
      let k := s0.link j
      let s1 := s0.setLink j { k with failoverOn := none, carrier := some tt, txq := [], replay := [], replayAt := none, holding := false, fresh := true }
      let s2 := odBump (0x6010 + j) 0x0F (endRepair 0x06 0x0A (resource 5 j) {} s1)
      resendPower j (handBack j s2)

def execFailoverAck (l : LinkId) (hdr : BitVec 40) (failed : BitVec 8) (s : State) : Answer :=
  if !receives (s.link l.val) then .next s
  else let r := acceptCtl l.val hdr s
       .next (if r.1 then failoverDone l.val failed.toNat r.2 else r.2)

/-- FAILBACK_ACK (R118): new messages go on the ports' own link; a failback whose link has left ACTIVE is abandoned. -/
def failbackDone (t j : Nat) (s : State) : State :=
  let s0 := s.setLink t { s.link t with ctl := (s.link t).ctl.filter (fun c => decide (c.op ≠ 0x0B ∨ c.arg ≠ j)) }
  if !(s0.link j).failbackSent ∨ carrierOf s0 j ≠ t then s0
  else if (s0.link j).state ≠ .active ∨ (s0.link j).failbackGone then abandonFailback j t s0
  else
    let s1 := failbackResult j 0 (s0.setLink t (dropMessages (s0.link t) j))
    resendPower j (handBack j (odBump (0x6010 + j) 0x0F (s1.setLink j { s1.link j with carrier := none })))

def execFailbackAck (l : LinkId) (hdr : BitVec 40) (failed : BitVec 8) (s : State) : Answer :=
  if !receives (s.link l.val) then .next s
  else let r := acceptCtl l.val hdr s
       .next (if r.1 then failbackDone l.val failed.toNat r.2 else r.2)

/-- LINK_CTL_REPEAT: the oldest unanswered request is sent again, for up to 1 ms; a failover or failback that stays unanswered is over. R118
gives the outcome of an unanswered FAILBACK only for a link that has left ACTIVE; that one whose link stays ACTIVE ends DENIED, with the ports
left where they are and no FAILOVER sent, is the model's choice (log entry 188). -/
def ctlRepeat (l : Nat) (s : State) : State :=
  let k := s.link l
  match k.ctl with
  | [] => s
  | c :: r =>
    if c.repeats < 9 then
      s.setLink l { k with ctl := r ++ [{ c with repeats := c.repeats + 1 }], ctlOut := k.ctlOut ++ [(c.op, c.arg)] }
    else
      let s1 := s.setLink l { k with ctl := r, quietSent := if c.op = 6 then false else k.quietSent }
      if c.op = 8 then failoverFails c.arg 3 s1
      else if c.op = 0x0B then (if (s1.link c.arg).state = .active ∧ !(s1.link c.arg).failbackGone then failbackResult c.arg 2 s1 else abandonFailback c.arg l s1)
      else s1

def execLinkCtlRepeat (l : LinkId) (s : State) : Answer := .next (ctlRepeat l.val s)

/-! ## Windows and escalation (R119) -/

/-- Corrected symbols of one lane in a window above the limit: 10^−SER_EXP of 5.6 × 10⁹ symbols. -/
def serHigh (s : State) (n : Nat) : Bool := decide (5600000000 < n * 10 ^ odGet s 0x6000 0x03)

/-- One lane's window: three high ones in a row spare it, or are recorded once an hour where no spare is free. -/
def laneWindow (l lane n : Nat) (s : State) : State :=
  let k := s.link l
  let s1 := odAdd (0x6040 + l / 2) (0x02 + physLane s l lane) n s
  if !serHigh s n then s1.setLink l { k with serRuns := k.serRuns.set lane 0 }
  else
    let run := Tbl.get k.serRuns lane 0 + 1
    let s2 := s1.setLink l { k with serRuns := k.serRuns.set lane run }
    if run < 3 then s2
    else if (s2.link l).state ≠ .active then s2.setLink l { s2.link l with spareWanted := some lane }
    else if spareFree s2 (l / 2) then spareRunning l lane s2
    else if Tbl.get k.serNoted lane 0 = 0 ∧ k.spareLane = none then spareRunning l lane (s2.setLink l { s2.link l with serNoted := k.serNoted.set lane 3600 })
    else s2

/-- SER_WINDOW: lane error ratios and uncorrectable codewords of the last second. -/
def serWindow (l : Nat) (corrected : List Nat) (ucw : Nat) (s : State) : State :=
  let k := s.link l
  let recent := (k.retrains.map (· + 1)).filter (fun a => decide (a < 10))
  let s0 := odAdd (0x6010 + l) 0x09 ucw
    (s.setLink l { k with serLast := corrected, serNoted := k.serNoted.map (fun x => (x.1, x.2 - 1)), retrains := recent, ucwAgo := min 10 (k.ucwAgo + 1) })
  let s1 := (List.range 2).foldl (fun t lane => laneWindow l lane (corrected.getD lane 0) t) s0
  if ucw ≤ odGet s1 0x6000 0x04 ∨ (s1.link l).state ≠ .active then s1
  else if k.ucwAgo < 9 then spareRunning l (worstLane (s1.link l)) (s1.setLink l { s1.link l with ucwAgo := 0 })
  else linkRecord (resource 5 l) 0 5 (enterRetrain l false (s1.setLink l { s1.link l with ucwAgo := 0 }))

def execSerWindow (l : LinkId) (corrected : List Nat) (ucw : Nat) (s : State) : Answer := .next (serWindow l.val corrected ucw s)

/-! ## Link requests (R121) -/

/-- The result of a path's last request on a link. -/
def linkResult (path : Path) (l v : Nat) (s : State) : State := pathSet path (0x6010 + l) 0x07 v s

/-- A request while an earlier one is in progress has no effect and reads BUSY. -/
def linkRequest (path : Path) (l : Nat) (fits : Bool) (f : State → State) (s : State) : State :=
  if (s.link l).failbackPath.isSome then linkResult path l 1 s
  else if fits then linkResult path l 0 (f s) else linkResult path l 2 s

/-- Request 1: the far end's new identity becomes the recorded one, its PARAM is accepted, and PARAM is exchanged again. -/
def acceptIdentity (l : Nat) (s : State) : State :=
  let k := s.link l
  let s1 := storeOd (0x6010 + l) 0x05 k.newIdentity.toNat s
  let k1 := match k.heldParam with | some b => takeParam b k | none => k
  sendCtl l 0x01 0 true (sendCtl l 0x02 0 false (setLinkState l .param (s1.setLink l k1)))

def execAcceptIdentity (path : Path) (l : LinkId) (s : State) : Answer :=
  .next (odWriteNat path (0x6010 + l.val) 0x06 1
    (fun t => linkRequest path l.val (decide ((t.link l.val).state = .mismatch)) (acceptIdentity l.val) t) s)

/-- Request 2: FAILBACK; its result reads BUSY until the exchange ends. -/
def askFailback (path : Path) (l : Nat) (s : State) : State :=
  if (s.link l).failbackPath.isSome then linkResult path l 1 s
  else if (s.link l).state = .active ∧ carrierOf s l ≠ l then
    linkResult path l 1 (s.setLink l { s.link l with failbackPath := some path, failbackSent := false })
  else linkResult path l 2 s

def execLinkFailback (path : Path) (l : LinkId) (s : State) : Answer :=
  .next (odWriteNat path (0x6010 + l.val) 0x06 2 (askFailback path l.val) s)

/-- FAILBACK_SEND: the target carries nothing unacknowledged for the ports, and FAILBACK is sent on it (R118); a link that is no longer ACTIVE
is denied it. -/
def execFailbackSend (l : LinkId) (s : State) : Answer :=
  let k := s.link l.val
  let t := carrierOf s l.val
  let x := s.link t
  if k.failbackPath.isSome ∧ k.failbackSent = false ∧ k.state ≠ .active then .next (failbackResult l.val 2 s)
  else if k.failbackPath.isSome ∧ k.failbackSent = false ∧ t ≠ l.val ∧ x.replay.all (fun f => !f.links.contains l.val) ∧
      x.txq.all (fun m => decide (m.port / 32 ≠ l.val)) then
    .next (sendCtl t 0x0B l.val true (s.setLink l.val { k with failbackSent := true, failbackGone := false }))
  else .next s

/-- Request 3: RETRAIN. -/
def execForceRetrain (path : Path) (l : LinkId) (s : State) : Answer :=
  .next (odWriteNat path (0x6010 + l.val) 0x06 3
    (fun t => linkRequest path l.val (decide ((t.link l.val).state = .active)) (enterRetrain l.val false) t) s)

/-- What a link that starts over has lost: its replay buffer, its queue and its counts of failures. -/
def restartLink (k : Link) : Link :=
  let k1 := { k with replay := [], replayAt := none, txq := [], holding := false, fresh := true }
  { k1 with trainFails := 0, retrains := [] }

/-- Request 4: a FAILED link trains from DETECT. -/
def execLinkReenable (path : Path) (l : LinkId) (s : State) : Answer :=
  .next (odWriteNat path (0x6010 + l.val) 0x06 4
    (fun t => linkRequest path l.val (decide ((t.link l.val).state = .failed))
      (fun u => toDetect l.val (u.setLink l.val (restartLink (u.link l.val)))) t) s)

/-- LINK_DISABLE: a link whose LINK_ENABLE bit is clear, once it has nothing unacknowledged or LINK_HOLD has passed (R120, R135). It does
not fail over: a failover of it under way is over. -/
def execLinkDisable (l : LinkId) (s : State) : Answer :=
  let k := s.link l.val
  if natBit (odGet s 0x6000 0x07) l.val ∨ k.state = .disabled then .next s
  else
    let s1 := failoverFails l.val 2 (stopSparing l.val s)
    let k1 := { s1.link l.val with replay := [], replayAt := none, txq := [], rx := [], holding := false, fresh := true }
    let s2 := dropGuests l.val (setLinkState l.val .disabled (s1.setLink l.val { k1 with ctl := [], ctlOut := [], phase := 0 }))
    .next (if carrierOf s2 l.val = l.val then portsOffline l.val s2 else s2)

end Sys2Proof.Machine
end

