-- ==== Sys2Proof/Machine/SideOps.lean ====
section
/-! DEFINITION. Responses over Wealar and the halter port (R469–R476). -/

namespace Sys2Proof.Machine

/-- Services of R471. -/
def svcRead : Nat := 1
def svcWrite : Nat := 2
def svcIdentify : Nat := 3
def svcWake : Nat := 4
def svcAbort : Nat := 5

/-- Whether a request gets a response: a broadcast one only of READ, IDENTIFY and WAKE (R469). -/
def answersService (h : WealarHdr) (service : Nat) : Bool := !h.broadcast || [svcRead, svcIdentify, svcWake].contains service

/-- Send a response over CAN FD under a node number (R469, R470): the request's TID and PRIO come back. -/
def wealarRespond (node : Nat) (h : WealarHdr) (service : Nat) (body : List Byte) (s : State) : State :=
  if answersService h service then
    (wealarFrames body).foldl (fun t f => sendFrame (wealarId h.prio.toNat service h.src.toNat node h.tid.toNat true) f t) s
  else s

/-- Answer SEGMENT_ERROR and count it (R470, R477). -/
def segmentError (h : WealarHdr) (service : Nat) (s : State) : State :=
  if answersService h service then odBump 0x1000 0x1C (wealarRespond (nodeId s) h service [7] s) else s

/-- Every inbound segmented transfer ends with SEGMENT_ERROR (R478). -/
def endTransfers (s : State) : State :=
  s.side.transfers.foldl (fun t x => segmentError x.hdr x.service.toNat t) { s with side := { s.side with transfers := [] } }

/-- IDENTIFY's body after RESULT (R471). -/
def identifyBody (s : State) : List Byte :=
  [BitVec.ofNat 8 (nodeId s)] ++ bytesOfNat 2 0x4230 ++ bytesOfNat 16 Config.serial.toNat ++ [BitVec.ofNat 8 s.pwr.state.code]

end Sys2Proof.Machine
end

