-- ==== Sys2Proof/Machine/LineEcc.lean ====
section
/-! DEFINITION. The code of a memory line: RS(10,8) over GF(2^8) (R295, R296). -/

namespace Sys2Proof.Machine

/-- Multiply by x in GF(2^8) under 0x11D. -/
def gfTimesX (a : BitVec 8) : BitVec 8 := if a.getLsbD 7 then (a <<< 1) ^^^ 0x1D else a <<< 1

/-- 0x02 to the power `n`. -/
def gfPow (n : Nat) : BitVec 8 := (List.range n).foldl (fun a _ => gfTimesX a) 1

/-- The product of two elements. -/
def gfMul (a b : BitVec 8) : BitVec 8 :=
  ((List.range 8).foldl (fun (x : BitVec 8 × BitVec 8) i => (if b.getLsbD i then x.1 ^^^ x.2 else x.1, gfTimesX x.2)) (0, a)).1

/-- The syndromes of a codeword of ten symbols, device 0's as the highest coefficient: its values at the roots 0x01 and 0x02 of the
generator (log entry 160). -/
def syndromes (w : List (BitVec 8)) : BitVec 8 × BitVec 8 :=
  (w.foldl (fun a b => a ^^^ b) 0, w.foldl (fun a b => gfTimesX a ^^^ b) 0)

/-- The check symbols that devices 8 and 9 carry for eight bytes: with them both syndromes are zero. -/
def checkSymbols (w : List (BitVec 8)) : BitVec 8 × BitVec 8 :=
  let s := syndromes (w ++ [0, 0])
  -- p8 + p9 = s.1 and 2 p8 + p9 = s.2, so 3 p8 = s.1 + s.2; the inverse of 3 is 0xF4
  let p8 := gfMul (s.1 ^^^ s.2) 0xF4
  (p8, s.1 ^^^ p8)

/-- What the decoder finds in one codeword. -/
inductive WordErr where
  | none
  | device (d : Nat)
  | several
deriving DecidableEq, Repr

/-- Decode one codeword: one wrong symbol is located; with a marked device only that one's may be wrong (R295, R296). -/
def decodeWord (mark : Option Nat) (w : List (BitVec 8)) : WordErr :=
  let s := syndromes w
  let at' (d : Nat) : Bool := decide (s.2 = gfMul s.1 (gfPow (9 - d)))
  if s.1 = 0 ∧ s.2 = 0 then .none
  else match mark with
    | some m => if at' m then .device m else .several
    | Option.none => match (List.range 10).find? at' with
      | some d => if s.1 = 0 then .several else .device d
      | Option.none => .several

/-- The burst of a line of 64 bytes: device `d`'s 16 beats of four bits. Codeword `b` has bytes 8b to 8b + 7 in devices 0–7 and its check
symbols in devices 8 and 9; a symbol's low half is beat 2b, its high half beat 2b + 1 (R295). -/
def lineBurst (bytes : List Byte) : List (List (BitVec 4)) :=
  let words := (List.range 8).map (fun b =>
    let w := (List.range 8).map (fun d => bytes.getD (8 * b + d) 0)
    let p := checkSymbols w
    w ++ [p.1, p.2])
  (List.range 10).map (fun d => words.flatMap (fun w => [(w.getD d 0).extractLsb' 0 4, (w.getD d 0).extractLsb' 4 4]))

/-- The codewords of a burst (R295). -/
def burstWords (burst : List (List (BitVec 4))) : List (List (BitVec 8)) :=
  (List.range 8).map (fun b => (List.range 10).map (fun d =>
    let beats := burst.getD d []
    beats.getD (2 * b + 1) 0 ++ beats.getD (2 * b) 0))

/-- A burst as it is read, with the bits that differ turned over. -/
def addBeats (burst errors : List (List (BitVec 4))) : List (List (BitVec 4)) :=
  burst.zipIdx.map (fun x => x.1.zipIdx.map (fun y => y.1 ^^^ (errors.getD x.2 []).getD y.2 0))

/-- Decode a line of subchannel `sub`, given each codeword's symbols: it is corrected only when every codeword that needs it locates the same
device (R295). Devices are counted over both subchannels. -/
def decodeLine (sub : Nat) (mark : Option Nat) (words : List (List (BitVec 8))) : Ecc :=
  let found := (words.take 8).map (fun w => decodeWord (mark.map (· % 10)) (w.take 10 ++ List.replicate (10 - w.length) 0))
  let devs := found.filterMap (fun x => match x with | .device d => some d | _ => Option.none)
  if found.contains .several then .uncorrectable Option.none
  else match devs with
    | [] => .clean
    | d :: r => if r.all (· = d) then .corrected (Fin.ofNat 20 (10 * sub + d)) (decide (devs.length = 8)) else .uncorrectable Option.none

end Sys2Proof.Machine
end

