-- ==== Sys2Proof/Machine/Memory.lean ====
section
/-! DEFINITION. The memory channels: requests and their order, line ECC, refresh, patrol, repair, sparing and retirement
(R288–R315). Memory's contents change when a home reads and writes them; these commands schedule the channel's work and apply what its
reads find. -/

namespace Sys2Proof.Machine

/-! ## Addresses -/

/-- The channel address of a physical address (R293). -/
def caOf (pa : Nat) : Nat := pa / 4096 * 256 + pa % 256

/-- The sector, PA[51:8], that sector `k` of channel `c` holds (R293). -/
def secOfChan (c k : Nat) : Nat := 16 * k + (c ^^^ chanOf (16 * k))

/-- The survivor channels of a retired channel, ascending (R308). -/
def survivors (f : Nat) : List Nat := (List.range 16).filter (fun x => decide (x ≠ f))

/-- The start of the reserve of each channel, where CHANNEL_SPARE gives it one (R292). -/
def reserveBase (s : State) : Nat := 27 * chanCap s / 32

/-- How many sectors of channel `f` have moved to its survivors; those that an aborted retirement moved stay there (R308, R309). -/
def movedSectors (s : State) (f : Nat) : Nat :=
  if s.mc.retired = some f then chanNormal s / 256
  else match (s.channel f).migration with
    | some (.channel ptr) => ptr
    | _ => (s.channel f).moved

/-- The channel and channel address where sector `k` of channel `c` is now (R293, R308). -/
def sectorPlace (s : State) (c k : Nat) : Nat × Nat :=
  if k < movedSectors s c then ((survivors c).getD (k % 15) 0, reserveBase s + k / 15 * 256) else (c, 256 * k)

/-- The channel and channel address of a physical address (R293, R308). -/
def placeOf (s : State) (pa : Nat) : Nat × Nat :=
  let x := sectorPlace s (chanOf (pa / 256)) (caOf pa / 256)
  (x.1, x.2 + pa % 256)

/-- The sector of normal memory that a channel address holds: one of the channel's own, or one that a retired channel has left in the
reserve (R293, R308). -/
def sectorAt (s : State) (c ca : Nat) : Option Nat :=
  if ca < chanNormal s then (if ca / 256 < movedSectors s c then none else some (secOfChan c (ca / 256)))
  else match (List.range 16).find? (fun f => decide (f ≠ c) && decide (0 < movedSectors s f)) with
    | some f =>
      let k := (ca - reserveBase s) / 256 * 15 + (survivors f).idxOf c
      if s.mc.chSpare ∧ ca < 29 * chanCap s / 32 ∧ k < movedSectors s f then some (secOfChan f k) else none
    | none => none

/-- Where a channel address lies: rank, subchannel, bank group, bank and row (R294). -/
structure DramLoc where
  rank : Nat
  sub : Nat
  group : Nat
  bank : Nat
  row : Nat
deriving DecidableEq, Repr

/-- The place of a channel address in a channel of `r` active ranks (R294). -/
def locOf (r ca : Nat) : DramLoc :=
  let q := ca / 4096
  { rank := q % r, sub := natField ca 6 1, group := natField ca 7 3, bank := natField ca 10 2, row := q / r / 128 }

/-- The rank whose lines below a pointer lie in the spare, and the pointer: of a sparing that runs, or of one that was aborted (R307, R309). -/
def sparedBelow (ch : Channel) : Option (Nat × Nat) :=
  match ch.migration with
  | some (.rank f ptr) => some (f, ptr)
  | _ => ch.spared

/-- Where a channel address is now: a line of a rank that is being spared lies in the spare once it has been copied (R307). -/
def locNow (ch : Channel) (ca : Nat) : DramLoc :=
  let l := locOf ch.ranks ca
  match sparedBelow ch with
  | some (f, ptr) => if l.rank = f ∧ ca / 64 < ptr then { l with rank := ch.ranks } else l
  | none => l

/-- A bank's number within its channel. -/
def DramLoc.bankNo (l : DramLoc) : Nat := 64 * l.rank + 32 * l.sub + 4 * l.group + l.bank

/-- The resource code of a rank (R439). -/
def rankRes (c r : Nat) : Nat := resource 2 (8 * c + r)

/-- DETAIL of an ECC record (R440). -/
def eccDetail (l : DramLoc) (device : Option Nat) : Nat :=
  device.getD 0 + (if device.isSome then 32 else 0) + l.group * 64 + l.bank * 512 + l.row % 2 ^ 21 * 2048

/-- An ECC record (R440). -/
def eccRec (c ca : Nat) (cls : BitVec 2) (cause : Nat) (device : Option Nat) (s : State) : Rec :=
  let l := locNow (s.channel c) ca
  { kind := 0x02, cls := cls, resource := rankRes c l.rank, cause := cause, detail := eccDetail l device, addr := ca }

/-- Add one to a counter of a channel's entries (R314). -/
def bumpChan (c sub : Nat) (s : State) : State := odBump (0x5010 + c) sub s

/-- Change one channel. -/
def mapChan (c : Nat) (f : Channel → Channel) (s : State) : State := s.setChannel c (f (s.channel c))

/-- Change a channel; a change of its state or of whether it migrates raises its source (R393). -/
def changeChan (c : Nat) (f : Channel → Channel) (s : State) : State :=
  let x := s.channel c
  let s1 := mapChan c f s
  if (f x).state = x.state ∧ (f x).migration.isSome = x.migration.isSome then s1 else raise (0x530 + c) s1

/-- Something the channel does at its pins. -/
def dramOut (c op arg : Nat) (s : State) : State := emit (.dram c op arg) s

/-! ## The tack region and its cache (R298–R302) -/

/-- The start of a channel's tack region (R298). -/
def tackBase (s : State) : Nat := 29 * chanCap s / 32

/-- The tack lines of a channel's sector: its tag line and its seal line, numbered from the start of the region (R298). -/
def tagLine (k : Nat) : Nat := 3 * (k / 8) + k % 8 / 4
def sealLine (k : Nat) : Nat := 3 * (k / 8) + 2

/-- The 64 bytes of tack line `n` of a channel: a tag line has two tags a byte, sixteen bytes a sector; a seal line has eight seals. The records
of the tack region's own sectors stay zero (R298). -/
def tackBytes (s : State) (c n : Nat) : List Byte :=
  let g := n / 3
  let sector (j : Nat) : Option Nat := sectorAt s c (256 * (8 * g + j))
  if n % 3 = 2 then (List.range 8).flatMap (fun j => wordBytes (match sector j with | some sec => s.mem.sealAt sec | none => 0))
  else (List.range 4).flatMap (fun j => match sector (4 * (n % 3) + j) with
    | some sec => (List.range 16).map (fun m => (s.mem.wordAt (32 * sec + 2 * m + 1)).tag.code ++ (s.mem.wordAt (32 * sec + 2 * m)).tag.code)
    | none => List.replicate 16 0)

/-- The 64 bytes that a channel's line holds: data, or tack lines; the reserve holds nothing where no sector has moved to it (R292, R298). -/
def lineBytes (s : State) (c ca : Nat) : List Byte :=
  if tackBase s ≤ ca then tackBytes s c ((ca - tackBase s) / 64)
  else match sectorAt s c ca with
    | some sec => (s.mem.wordsAt (32 * sec + ca % 256 / 64 * 8) 8).flatMap (fun w => wordBytes w.data)
    | none => List.replicate 64 0

/-- Poison the sector of normal memory at a channel address (R54, R297, R302). -/
def poisonAt (c ca : Nat) (s : State) : State := match sectorAt s c ca with | some sec => poisonMem sec s | none => s

/-- Whether any stall holds memory slots: every channel runs in fixed-slot mode (R311). -/
def fixedMode (s : State) : Bool := s.stalls.any (fun x => decide (x.2.slotsNow ≠ 0))

/-- A dirty tack line leaves the cache: it is written at once, and in fixed-slot mode in a slot that no stall owns (R301, R311). -/
def writeTack (c line : Nat) (s : State) : State :=
  if fixedMode s then mapChan c (fun x => { x with tackWrites := x.tackWrites ++ [line] }) s else dramOut c 3 line s

/-- Use a tack line: a hit, or a miss that reads it and evicts another, by set of 1,024 and way of 16; `tackCache` lists the lines, the one
used last first (R300; log entry 134). -/
def touchTack (c line : Nat) (dirty : Bool) (s : State) : State :=
  let ch := s.channel c
  match ch.tackCache.find? (fun x => decide (x.1 = line)) with
  | some x => s.setChannel c { ch with tackCache := (line, x.2 || dirty) :: ch.tackCache.filter (fun y => decide (y.1 ≠ line)) }
  | none =>
    let same := ch.tackCache.filter (fun y => decide (y.1 % 1024 = line % 1024))
    let victim := if same.length < 16 then none
      else (pseudoLru (same.map (·.1)) s.free (same.map (·.1))).bind (fun v => same.find? (fun y => decide (y.1 = v)))
    let rest := match victim with | some v => ch.tackCache.filter (fun y => decide (y.1 ≠ v.1)) | none => ch.tackCache
    let s1 := countUncore (0x108 + c) 0x003 1 (bumpChan c 0x0C (State.took s))
    let s2 := dramOut c 4 line (s1.setChannel c { s1.channel c with tackCache := (line, dirty) :: rest })
    match victim with | some (v, true) => writeTack c v s2 | _ => s2

/-- Use the tack lines of a sector: its tag line, and its seal line where `seals` says so (R301). -/
def touchRecord (c k : Nat) (seals dirty : Bool) (s : State) : State :=
  let s1 := touchTack c (tagLine k) dirty s
  if seals then touchTack c (sealLine k) dirty s1 else s1

/-- The sectors that a tack line serves: four of a tag line, eight of a seal line (R302). -/
def tackSectors (n : Nat) : List Nat :=
  if n % 3 = 2 then (List.range 8).map (fun j => n / 3 * 8 + j) else (List.range 4).map (fun j => n / 3 * 8 + n % 3 * 4 + j)

/-! ## Marks, sparing and retirement -/

/-- The device of a rank that is marked; none where none is (R296). -/
def markOf (ch : Channel) (rank : Nat) : Option Nat :=
  match Tbl.get ch.marked rank 0 with
  | 0 => none
  | n + 1 => some n

/-- Whether a migration runs in any channel (R314). -/
def anyMigration (s : State) : Bool := s.mc.channels.any (fun x => x.2.migration.isSome)

/-- Whether the survivors' reserves are in use: a channel has been retired into them, or an aborted retirement has left sectors there (R308, R309). -/
def reserveUsed (s : State) : Bool := s.mc.retired.isSome || s.mc.channels.any (fun x => decide (0 < x.2.moved))

/-- Abort a channel's migration (R309, R451): what was copied stays copied, and the lines not copied stay at the source in erasure mode. -/
def abortMigration (c : Nat) (s : State) : State :=
  match (s.channel c).migration with
  | some (.rank f ptr) =>
    endRepair 0x02 0x07 (rankRes c f) { outcome := 2, cls := 1 }
      (changeChan c (fun x => { x with migration := none, state := 1, spared := some (f, ptr) }) s)
  | some (.channel ptr) =>
    endRepair 0x02 0x08 (resource 3 c) { outcome := 2, cls := 1 }
      (changeChan c (fun x => { x with migration := none, state := 1, moved := ptr }) s)
  | none => s

/-- The channel whose migration a fault at a channel address strikes: in the spare rank, or in a survivor's reserve (R309). -/
def struckBy (s : State) (c ca : Nat) : Option Nat :=
  let ch := s.channel c
  match ch.migration with
  | some (.rank _ _) => if (locNow ch ca).rank = ch.ranks then some c else none
  | _ =>
    if s.mc.chSpare ∧ reserveBase s ≤ ca ∧ ca < tackBase s then
      (List.range 16).find? (fun f => decide (f ≠ c) && (match (s.channel f).migration with | some (.channel _) => true | _ => false))
    else none

/-- A fault at a channel address: a migration that it strikes is aborted, and the fault is recorded under that repair's incident (R309, R450). -/
def strikeMigration (c ca : Nat) (s : State) : BitVec 32 × State :=
  match struckBy s c ca with
  | none => (nextIncident s, s)
  | some f =>
    let of (r : Repair) : Bool :=
      (decide (r.action = 0x07) && decide (r.resource.toNat % 4096 / 8 = f)) || (decide (r.action = 0x08) && decide (r.resource.toNat = resource 3 f))
    (((s.far.running.find? of).map (·.incident)).getD (nextIncident s), abortMigration f (odBump 0x3000 0x14 s))

/-- The copying of a rank begins (R307). -/
def sparingSteps (c rank : Nat) (s : State) : State :=
  changeChan c (fun x => { x with migration := some (.rank rank (64 * rank)), state := 2, spare := 2, progress := 0 }) s

/-- The copying of a channel begins, or goes on where an aborted one stopped (R308). A sparing that runs in the channel ends with it (log entry 180). -/
def retirementSteps (c : Nat) (s : State) : State :=
  changeChan c (fun x => { x with migration := some (.channel x.moved), state := 2, progress := 0 })
    (match (s.channel c).migration with
     | some (.rank _ _) => abortMigration c (odBump 0x3000 0x14 s)
     | _ => s)

/-- Soft repair of a row begins: rank, bank, row, device (R306). -/
def spprSteps (c : Nat) (args : List Nat) (s : State) : State :=
  let p : Sppr := { rank := args.getD 0 0, bank := args.getD 1 0, row := args.getD 2 0, device := args.getD 3 0 }
  let key := 20 * p.rank + p.device
  mapChan c (fun x => { x with sppr := some p, pprUsed := x.pprUsed.set key (Tbl.get x.pprUsed key 0 + 1) }) s

/-- Rank sparing starts, or waits behind another (R307, R450). -/
def startSparing (c rank : Nat) (s : State) : State :=
  let ch := s.channel c
  if ch.spare ≠ 1 ∨ ch.migration.isSome then s
  else
    let r : Repair := { action := 0x07, resource := BitVec.ofNat 16 (rankRes c rank), target := BitVec.ofNat 16 (rankRes c ch.ranks),
                        incident := nextIncident s, cls := 0, cause := 6, uses := [BitVec.ofNat 16 (rankRes c ch.ranks)] }
    let b := beginRepair 0x02 r s
    if b.1 then sparingSteps c rank b.2 else b.2

/-- Channel retirement starts, or waits; with no reserve left the channel's sectors become unreadable (R308). -/
def startRetirement (c : Nat) (s : State) : State :=
  let ch := s.channel c
  if ch.state = 3 then s
  else if !s.mc.chSpare ∨ (reserveUsed s ∧ ch.moved = 0) then
    { s with mc := { s.mc with unreadable := sortNat (c :: s.mc.unreadable) } }
  else if (match ch.migration with | some (.channel _) => true | _ => false) then s
  else
    let r : Repair := { action := 0x08, resource := BitVec.ofNat 16 (resource 3 c), incident := nextIncident s, cls := 0, cause := 7,
                        uses := (survivors c).map (fun x => BitVec.ofNat 16 (resource 3 x)) }
    let b := beginRepair 0x02 r s
    if b.1 then retirementSteps c b.2 else b.2

/-- A device is marked failed (R296): erasure decoding from now on, recorded, and sparing starts where a spare rank is free. A failed device in a
spare or a reserve aborts the migration it strikes (R309). -/
def markDevice (c rank device ca : Nat) (s : State) : State :=
  let ch := s.channel c
  if (markOf ch rank).isSome then s
  else
    let q := strikeMigration c ca s
    let s1 := changeChan c (fun x => { x with marked := x.marked.set rank (device + 1), state := if x.state = 0 then 1 else x.state })
      (takeIncident q.1 q.2)
    startSparing c rank (recordIn q.1 { eccRec c ca 0 3 (some device) s1 with action := 0x06, outcome := 1 } s1)

/-- A row of a channel, as its bank and row number. -/
def rowNo (l : DramLoc) : Nat := l.bankNo * 2 ^ 24 + l.row

/-- Start soft repair of a row, or wait for another; a device without PPR resource records the row, and its second such row marks the
device (R306). -/
def startSppr (c ca device : Nat) (s : State) : State :=
  let ch := s.channel c
  let l := locNow ch ca
  let key := 20 * l.rank + device
  let rows := Tbl.get ch.rowsNoPpr key []
  if Config.pprRows ≤ Tbl.get ch.pprUsed key 0 then
    if rows.contains (rowNo l) then s
    else
      let s1 := mapChan c (fun x => { x with rowsNoPpr := x.rowsNoPpr.set key (rows ++ [rowNo l]) }) s
      let s2 := record { eccRec c ca 0 5 (some device) s1 with action := 0x05, outcome := 4 } s1
      if 1 ≤ rows.length then markDevice c l.rank device ca s2 else s2
  else
    let r : Repair := { action := 0x05, resource := BitVec.ofNat 16 (rankRes c l.rank), incident := nextIncident s, cls := 0, cause := 4,
                        args := [l.rank, l.bankNo, l.row, device] }
    let b := beginRepair 0x02 r s
    if b.1 then spprSteps c r.args b.2 else b.2

/-- A corrected line (R296, R306, R314): a row at ROW_CE_LIMIT asks for its repair each time until the repair is made. -/
def correctedLine (c ca device : Nat) (all8 : Bool) (s : State) : State :=
  let ch := s.channel c
  let l := locNow ch ca
  let key := 20 * l.rank + device
  let rowKey := rowNo l * 20 + device
  let banks := sortNat (l.bankNo :: Tbl.get ch.deviceBanks key [])
  let n := Tbl.get ch.deviceCe key 0 + 1
  let m := Tbl.get ch.rowCe rowKey 0 + 1
  let s1 := mapChan c (fun x => { x with deviceCe := x.deviceCe.set key n, deviceBanks := x.deviceBanks.set key banks,
                                         rowCe := x.rowCe.set rowKey m }) (bumpChan c 0x06 s)
  let s2 := if all8 ∨ (odGet s 0x5000 0x09 ≤ n ∧ 2 ≤ banks.length) then markDevice c l.rank device ca s1 else s1
  if odGet s 0x5000 0x0A ≤ m then startSppr c ca device s2 else s2

/-- What an uncorrectable line leads to: in a rank without a marked device its row is repaired; a second device of a marked rank without a free
spare retires the channel (R306, R308). -/
def repairUe (c ca : Nat) (device : Option Nat) (s : State) : State :=
  let ch := s.channel c
  match markOf ch (locNow ch ca).rank with
  | none => startSppr c ca (device.getD 0) s
  | some _ => if ch.spare ≠ 1 ∧ s.mc.chSpare then startRetirement c s else s

/-- An uncorrectable line of the normal region poisons its span and makes a record (R297, R54); it aborts a migration that it strikes (R309). -/
def uncorrectableLine (c ca : Nat) (device : Option Nat) (s : State) : State :=
  let q := strikeMigration c ca (bumpChan c 0x07 s)
  let s2 := poisonAt c ca (takeIncident q.1 q.2)
  repairUe c ca device (recordIn q.1 (eccRec c ca 1 1 device s2) s2)

/-- An uncorrectable tack line `n`: the sectors it serves become POISON, their seals rebased. It has one record, at its own place, and each
sector one under the same incident (R302). -/
def poisonTack (c n : Nat) (device : Option Nat) (inc : BitVec 32) (s : State) : State :=
  let s1 := (tackSectors n).foldl (fun st j => poisonAt c (256 * j) st) (bumpChan c 0x08 s)
  (tackSectors n).foldl (fun st j => recordIn inc (eccRec c (256 * j) 1 2 none st) st)
    (recordIn inc (eccRec c (tackBase s + 64 * n) 1 2 device s1) s1)

/-- A tack line of DRAM is uncorrectable: as any line, and its sectors are poisoned (R301, R302, R309). -/
def tackUe (c n : Nat) (device : Option Nat) (s : State) : State :=
  let ca := tackBase s + 64 * n
  let q := strikeMigration c ca s
  repairUe c ca device (poisonTack c n device q.1 (takeIncident q.1 q.2))

/-- The decoder's answer for a line at a channel address: bits turned over in its burst are decoded, and in a rank with a marked device an error in
any other device is uncorrectable (R295, R296). -/
def lineFound (s : State) (c ca : Nat) (e : Ecc) : Ecc :=
  let l := locNow (s.channel c) ca
  let mark := markOf (s.channel c) l.rank
  let found := match e with
    | .beats w => decodeLine l.sub mark (burstWords (addBeats (lineBurst (lineBytes s c ca)) w))
    | x => x
  match found, mark with
  | .corrected d all8, some m => if m = d.val then .corrected d all8 else .uncorrectable (some d)
  | x, _ => x

/-- A line has been corrected: in its marked device, or in one that has none marked (R296, R314). -/
def lineCorrected (c ca device : Nat) (all8 : Bool) (s : State) : State :=
  if (markOf (s.channel c) (locNow (s.channel c) ca).rank).isSome then bumpChan c 0x06 s else correctedLine c ca device all8 s

/-- What the decoder of a line found (R295–R297). -/
def lineRead (c ca : Nat) (e : Ecc) (s : State) : State :=
  match lineFound s c ca e with
  | .corrected d all8 => lineCorrected c ca d.val all8 s
  | .uncorrectable d => uncorrectableLine c ca (d.map (·.val)) s
  | _ => s

/-- What the decoder of a tack line found (R301, R302): line `n` of the region, a tag line or a seal line. -/
def tackRead (c n : Nat) (e : Ecc) (s : State) : State :=
  match lineFound s c (tackBase s + 64 * n) e with
  | .corrected d all8 => lineCorrected c (tackBase s + 64 * n) d.val all8 s
  | .uncorrectable d => tackUe c n (d.map (·.val)) s
  | _ => s

/-- What the reads of a sector's tack record found (R301, R302). -/
def recordRead (c k : Nat) (tags seals : Ecc) (s : State) : State := tackRead c (sealLine k) seals (tackRead c (tagLine k) tags s)

/-- An error in the tack cache itself, protected for each 8 B: a single bit is corrected and counted, more are an uncorrectable tack line; a line
that the cache does not hold has none (R300, R302; log entry 202). -/
def reportTackCache (c line : Nat) (ue : Bool) (s : State) : State :=
  if (s.channel c).tackCache.all (fun x => decide (x.1 ≠ line)) then s
  else if ue then poisonTack c line none (nextIncident s) (allocIncident s)
  else bumpChan c 0x06 s

/-! ## Requests and their order (R301, R310, R311) -/

/-- Whether a request writes. -/
def mcWrites (k : McKind) : Bool :=
  match k with
  | .sectorWriteBack _ | .subWrite _ | .spanWrite => true
  | _ => false

/-- The sub-blocks whose data lines a request moves (R301). -/
def mcSubs (k : McKind) : List Nat :=
  match k with
  | .sectorFill | .spanWrite => [0, 1, 2, 3]
  | .sectorWriteBack d => (List.range 4).filter (fun i => d.getLsbD i)
  | .subFill i | .oldSub i | .subWrite i => [i.val]

/-- Whether a request uses its sector's seal line (R301). -/
def mcSeals (k : McKind) : Bool := match k with | .oldSub _ => false | _ => true

/-- The drain state after the queue has changed: writes drain from 3/4 of their entries until 1/4 remain (R310). -/
def drainState (ch : Channel) : Bool :=
  let w := (ch.queue.filter (fun r => mcWrites r.kind)).length
  if 3 * Config.writeQueue ≤ 4 * w then true
  else if 4 * w ≤ Config.writeQueue then false
  else ch.draining

/-- A request joins a channel's queue, in the ring cycle of the one before it or in a new one (R310). -/
def queueReq (c : Nat) (tie : Bool) (r : McReq) (s : State) : State :=
  mapChan c (fun x =>
    let n := if tie then x.arrivals else x.arrivals + 1
    let y := { x with arrivals := n, queue := x.queue ++ [{ r with cycle := n }] }
    { y with draining := drainState y }) s

/-- MC_REQUEST: a request arrives at the controller of its sector; the first one for a sector with an open patrol entry closes it (R301,
R305), and a first access wakes the channel (R418). `tie` says that it comes in the same ring cycle as the one before it (R310). -/
def execMcRequest (c : ChanId) (k : McKind) (pa : BitVec 52) (stall : StallId) (pri : BitVec 2) (src : McSource) (s : State) : Answer :=
  let place := placeOf s pa.toNat
  if place.1 ≠ c.val then .next s
  else
    let s1 := wakeDom (.channel c) (closePatrol (pa.toNat / 256) (!mcWrites k) s)
    .next (queueReq c.val src.tie { kind := k, pa := pa.toNat, ca := place.2, stall := stall.val, pri := pri.toNat, src := src.stop.toNat } s1)

/-- The place of a request (R294, R307). -/
def reqLoc (ch : Channel) (r : McReq) : DramLoc := locNow ch r.ca

/-- Whether a request hits its bank's open row. -/
def rowHit (ch : Channel) (r : McReq) : Bool :=
  decide (Tbl.get ch.openBanks (reqLoc ch r).bankNo 0 = (reqLoc ch r).row + 1)

/-- Whether a request may be issued now: a bank under soft repair serves its row alone, from the save buffer, and the line that a
migration copies waits (R306, R307). -/
def mcEligible (ch : Channel) (r : McReq) : Bool :=
  let l := reqLoc ch r
  (match ch.sppr with
   | some p => decide (l.bankNo ≠ p.bank) || decide (l.row = p.row)
   | none => true) &&
  (match ch.migration with
   | some (.rank f ptr) => decide (l.rank ≠ f) || decide (r.ca / 64 ≠ ptr)
   | some (.channel ptr) => decide (r.ca / 256 ≠ ptr)
   | none => true)

/-- Whether request `x`, at place `i`, goes before request `y`, at place `j` (R310): waited 4 µs, priority, row hit, age, and within one
ring cycle rotating priority over source stops, the last winner lowest. -/
def mcBefore (ch : Channel) (aged : Nat) (x y : McReq × Nat) : Bool :=
  let ax := decide (x.2 < aged)
  let ay := decide (y.2 < aged)
  if ax ≠ ay then ax
  else if x.1.pri ≠ y.1.pri then decide (y.1.pri < x.1.pri)
  else if rowHit ch x.1 ≠ rowHit ch y.1 then rowHit ch x.1
  else if x.1.cycle = y.1.cycle ∧ x.1.src ≠ y.1.src then
    decide ((x.1.src + 256 - ch.lastWinner - 1) % 256 < (y.1.src + 256 - ch.lastWinner - 1) % 256)
  else decide (x.2 < y.2)

/-- The request that a slot issues among those that `ok` admits (R310): one that has waited 4 µs, else reads before writes, unless the write queue
drains. -/
def mcPick (ch : Channel) (aged : Nat) (ok : McReq → Bool) : Option Nat :=
  let all := (ch.queue.zipIdx).filter (fun x => mcEligible ch x.1 && ok x.1)
  let old := all.filter (fun x => decide (x.2 < aged))
  let want := all.filter (fun x => decide (mcWrites x.1.kind = ch.draining))
  let pool := if !old.isEmpty then old else if want.isEmpty then all else want
  (pool.foldl (fun best x => match best with
    | none => some x
    | some b => if mcBefore ch aged x b then some x else some b) none).map (·.2)

/-- Issue request `i` (R301): its tack lines with it, its row open; a read's data returns by DRAM_READ_DONE. -/
def mcIssue (c i : Nat) (close : Bool) (s : State) : State :=
  let ch := s.channel c
  match ch.queue[i]? with
  | none => s
  | some r =>
    let l := reqLoc ch r
    let k := r.ca / 256
    let hit := rowHit ch r
    let ch1 := { ch with queue := ch.queue.eraseIdx i, lastWinner := r.src,
                         issued := if mcWrites r.kind then ch.issued else ch.issued ++ [r],
                         openBanks := if close then [] else ch.openBanks.set l.bankNo (l.row + 1) }
    let s1 := s.setChannel c { ch1 with draining := drainState ch1 }
    let s3 := touchRecord c k (mcSeals r.kind) (mcWrites r.kind) s1
    let s4 := countUncore (0x108 + c) (if mcWrites r.kind then 0x002 else 0x001) (mcSubs r.kind).length s3
    let s5 := if hit then s4 else countUncore (0x108 + c) 0x004 1 s4
    dramOut c (if mcWrites r.kind then 1 else 0) r.ca s5

/-- Issue one refresh of a rank (R303). -/
def issueRefresh (c rank : Nat) (s : State) : State :=
  dramOut c 2 rank (mapChan c (fun x => { x with
    postponed := x.postponed.set rank (Tbl.get x.postponed rank 0 - 1),
    openBanks := x.openBanks.filter (fun b => decide (b.1 / 64 ≠ rank)) }) s)

/-- The rank whose refresh can no longer be postponed (R303). -/
def refreshForced (ch : Channel) : Option Nat := (List.range 8).find? (fun r => decide (4 ≤ Tbl.get ch.postponed r 0))

/-- A rank with a postponed refresh. -/
def refreshWaiting (ch : Channel) : Option Nat := (List.range 8).find? (fun r => decide (0 < Tbl.get ch.postponed r 0))

/-- The stall that owns a slot. -/
def slotOwner (s : State) (k : Nat) : Option Nat := (s.stalls.find? (fun x => x.2.slotsNow.getLsbD k)).map (·.1)

/-- A tack line that waits to be written is written; with none the slot is free for patrol, migration and repair (R311). -/
def mcIdle (c : Nat) (s : State) : State :=
  match (s.channel c).tackWrites with
  | v :: rest => dramOut c 3 v (mapChan c (fun x => { x with tackWrites := rest }) s)
  | [] => mapChan c (fun x => { x with slotFree := true }) s

/-- One slot's choice under R310: a refresh that may not wait, then a request, then a postponed refresh where nothing is queued. -/
def mcSlot (c aged : Nat) (s : State) : State :=
  let ch := s.channel c
  match refreshForced ch with
  | some r => issueRefresh c r s
  | none =>
    match mcPick ch aged (fun _ => true) with
    | some i => mcIssue c i false s
    | none => (match refreshWaiting ch with | some r => issueRefresh c r s | none => mcIdle c s)

/-- Whether a channel works: neither in self-refresh nor powered off. -/
def chanRuns (ch : Channel) : Bool := !ch.inSelfRefresh && !ch.poweredOff

/-- DRAM_COMMAND_SLOT (R310); `aged` requests, the oldest, have waited 4 µs. -/
def execDramCommandSlot (c : ChanId) (aged : Nat) (s : State) : Answer :=
  .next (if fixedMode s ∨ !chanRuns (s.channel c.val) then s else mcSlot c.val aged s)

/-- The operations that an owned slot carries (R311). -/
def ownedKind (k : McKind) : Bool := match k with | .sectorFill | .sectorWriteBack _ => true | _ => false

/-- An owned slot carries its stall's first operation, in arrival order; with none it stays idle (R311). -/
def ownedSlot (c n : Nat) (s : State) : State :=
  let ch := s.channel c
  match ch.queue.findIdx? (fun r => decide (r.stall = n) && ownedKind r.kind) with
  | some i => if (ch.queue[i]?.map (mcEligible ch)).getD false then mcIssue c i true s else s
  | none => s

/-- A slot that no stall owns: a refresh where the frame gives one slot and frame to refresh, else the other traffic, to ranks that are not due
their refresh first (R303, R311). -/
def openSlot (c slot aged : Nat) (s : State) : State :=
  let ch := s.channel c
  let refresh := if slot < 8 ∧ (ch.oddFrame || ch.frameFast) then refreshWaiting ch else none
  match refresh with
  | some r => issueRefresh c r s
  | none =>
    let ok (r : McReq) : Bool :=
      !(ownedKind r.kind && decide ((s.stall r.stall).slotsNow ≠ 0)) && decide (Tbl.get ch.postponed (reqLoc ch r).rank 0 < 4)
    match mcPick ch aged ok with
    | some i => mcIssue c i true s
    | none => mcIdle c s

/-- FIXED_SLOT: every bank is closed at the end of the slot; a frame takes the refresh rate that stands when it begins (R311, R315). -/
def execFixedSlot (c : ChanId) (slot : Fin 32) (aged : Nat) (s : State) : Answer :=
  if !fixedMode s ∨ !chanRuns (s.channel c.val) then .next s
  else
    let s0 := mapChan c.val (fun x => { x with slotFree := false }) s
    let s1 := match slotOwner s slot.val with | some n => ownedSlot c.val n s0 | none => openSlot c.val slot.val aged s0
    .next (mapChan c.val (fun x =>
      let y := { x with openBanks := [] }
      if slot.val = 31 then { y with oddFrame := !y.oddFrame, frameFast := decide (y.fastRefresh ≠ 0) } else y) s1)

/-- DRAM_READ_DONE: the oldest issued read returns; its data lines and its tack lines are decoded, the seal line where the request reads it
(R295–R297, R301, R302). -/
def execDramReadDone (c : ChanId) (data : List Ecc) (tags seals : Ecc) (s : State) : Answer :=
  let ch := s.channel c.val
  match ch.issued with
  | [] => .next s
  | r :: rest =>
    let k := r.ca / 256
    let s1 := ((mcSubs r.kind).zip data).foldl (fun st x => lineRead c.val (256 * k + 64 * x.1) x.2 st)
      (s.setChannel c.val { ch with issued := rest })
    .next (if mcSeals r.kind then recordRead c.val k tags seals s1 else tackRead c.val (tagLine k) tags s1)

/-- BANK_CLOSE_TIMEOUT: a bank closes 200 ns after its last access, unless an access to its row is queued (R294). -/
def execBankCloseTimeout (c : ChanId) (bank : Nat) (s : State) : Answer :=
  let ch := s.channel c.val
  let held := ch.queue.any (fun r => decide ((reqLoc ch r).bankNo = bank) && rowHit ch r)
  .next (if held then s else s.setChannel c.val { ch with openBanks := ch.openBanks.filter (fun b => decide (b.1 ≠ bank)) })

/-! ## Refresh (R303) -/

/-- REFRESH_DUE: postponed while fewer than four are, otherwise issued; issued at once in a rank under soft repair, whose hold it extends (R315). -/
def execRefreshDue (c : ChanId) (rank : Fin 8) (s : State) : Answer :=
  let ch := s.channel c.val
  let n := Tbl.get ch.postponed rank.val 0
  let held := match ch.sppr with | some p => decide (p.rank = rank.val) | none => false
  .next (if !chanRuns ch then s
         else if held then dramOut c.val 2 rank.val s
         else if n < 4 then s.setChannel c.val { ch with postponed := ch.postponed.set rank.val (n + 1) }
         else dramOut c.val 2 rank.val s)

/-- DL_REFRESH_EXPIRY: with a refresh outstanding it is issued at once, the event recorded, and a patrol pass of the rank starts. -/
def execDlRefreshExpiry (c : ChanId) (rank : Fin 8) (s : State) : Answer :=
  let ch := s.channel c.val
  if !chanRuns ch ∨ Tbl.get ch.postponed rank.val 0 = 0 then .next s
  else
    let s1 := issueRefresh c.val rank.val (mapChan c.val (fun x => { x with rankPass := x.rankPass ++ [(rank.val, 0)] }) s)
    .next (recordDeadline 1 (rankRes c.val rank.val) (bumpChan c.val 0x0B s1))

/-- DIMM_SENSOR_READ: a DIMM's sensors; refresh runs at twice the rate from 85 °C until every sensor is below 80 °C (R291, R303). -/
def execDimmSensorRead (k : Fin 8) (dimm : Fin 4) (temps : List Int) (s : State) : Answer :=
  let c := 2 * k.val + dimm.val / 2
  let bit : BitVec 2 := if dimm.val % 2 = 0 then 1 else 2
  let ch := s.channel c
  let fast := if temps.any (fun t => decide (85 ≤ t)) then ch.fastRefresh ||| bit
              else if temps.all (fun t => decide (t < 80)) then ch.fastRefresh &&& ~~~bit else ch.fastRefresh
  let s1 := s.setChannel c { ch with fastRefresh := fast }
  .next (match temps with
    | [] => s
    | t :: r => { s1 with mc := { s1.mc with dimmTemps := s1.mc.dimmTemps.set (4 * k.val + dimm.val) (r.foldl max t) } })

/-- PMIC_STATUS_READ: a fault flag of a DIMM's regulator is recorded and its channel's source raised (R291, R393, R438); bit d of the flags is
DIMM d of the bus, the first two on the even channel (log entry 163). -/
def execPmicStatusRead (k : Fin 8) (faults : BitVec 4) (s : State) : Answer :=
  let s1 := { s with mc := { s.mc with pmic := s.mc.pmic.set k.val faults } }
  .next ([0, 1].foldl (fun t i =>
    let c := 2 * k.val + i
    if natField faults.toNat (2 * i) 2 = 0 then t else raise (0x530 + c) (record { kind := 0x09, cls := 0, resource := resource 3 c } t)) s1)

/-! ## Patrol scrub (R304, R305) -/

/-- Whether the patrol and the copies may use the channel now: in fixed-slot mode a slot that nothing else takes; outside it the patrol, of priority
BULK, waits for the requests that are queued (R304, R310, R311; log entry 181). -/
def stepMay (s : State) (c : Nat) (bulk : Bool) : Bool :=
  let ch := s.channel c
  if fixedMode s then ch.slotFree else !(bulk && (mcPick ch 0 (fun _ => true)).isSome)

/-- A step takes its slot; a rank that is due its refresh has it first (R303, R311). -/
def takeStep (c rank : Nat) (s : State) : State :=
  let s1 := mapChan c (fun x => { x with slotFree := false }) s
  if 4 ≤ Tbl.get (s.channel c).postponed rank 0 then issueRefresh c rank s1 else s1

/-- Check the seal of a sector over its memory copy; a mismatch poisons the copy and opens a patrol entry (R304, R305). -/
def patrolSector (c sec : Nat) (s : State) : State :=
  let ws := s.mem.wordsAt (32 * sec) 32
  let sl := s.mem.sealAt sec
  if spanPoisoned ws || sealMatches ws sl then s
  else
    let ch := s.channel c
    let s1 := if ch.patrolList.length < 64 then s
              else match ch.patrolList with
                | old :: _ => bumpChan c 0x0D (closePatrol old.1 true s)
                | [] => s
    mapChan c (fun x => { x with patrolList := x.patrolList ++ [(sec, sealOfWords ws, sl)] }) (poisonMem sec s1)

/-- Whether a line is the one a migration copies: the patrol skips it (R315). -/
def atPointer (ch : Channel) (line : Nat) : Bool :=
  match ch.migration with
  | some (.rank f ptr) => decide ((locOf ch.ranks (64 * line)).rank = f) && decide (line = ptr)
  | some (.channel ptr) => decide (line / 4 = ptr)
  | none => false

/-- Read one line for the patrol: a corrected line is written back at once; after a sector's last line its tack record is read and its seal
checked; the lines of the reserve and the tack region are checked by ECC alone (R302, R304). -/
def patrolLine (c line : Nat) (r : SectorRead) (s0 : State) : State :=
  if atPointer (s0.channel c) line then s0
  else
    let s := takeStep c (locNow (s0.channel c) (64 * line)).rank s0
    let found := r.lines.headD .clean
    let s1 := if tackBase s ≤ 64 * line then tackRead c (line - tackBase s / 64) found s else lineRead c (64 * line) found s
    let s2 := match lineFound s c (64 * line) found with | .corrected _ _ => dramOut c 1 (64 * line) s1 | _ => s1
    if line % 4 = 3 ∧ 64 * line < chanNormal s then
      (match sectorAt s2 c (64 * line) with
       | some sec => patrolSector c sec (recordRead c (line / 4) r.tags r.seals (touchRecord c (line / 4) true false s2))
       | none => s2)
    else s2

/-- The line at a place of a rank's pass, and how many it has (R294). -/
def rankLine (ranks rank i : Nat) : Nat := (i / 64 * ranks + rank) * 64 + i % 64

/-- PATROL_STEP: the next line in ascending order; a rank's own pass goes first (R303, R304). -/
def execPatrolStep (c : ChanId) (found : SectorRead) (s : State) : Answer :=
  let ch := s.channel c.val
  let lines := chanCap s / 64
  if !chanRuns ch ∨ !stepMay s c.val true then .next s
  else match ch.rankPass with
    | (rank, i) :: rest =>
      let next := if (i + 1) * ch.ranks < lines then (rank, i + 1) :: rest else rest
      .next (patrolLine c.val (rankLine ch.ranks rank i) found (s.setChannel c.val { ch with rankPass := next }))
    | [] =>
      let s1 := patrolLine c.val ch.patrol found (s.setChannel c.val { ch with patrol := if ch.patrol + 1 < lines then ch.patrol + 1 else 0 })
      .next (if ch.patrol + 1 < lines then s1 else bumpChan c.val 0x09 s1)

/-! ## Repairs that run in steps (R306–R309) -/

/-- SPPR_COMPLETE: the row is written back, its count of corrected lines starts again, and the repair enters the repair map (R306). In fixed-slot mode
it takes a slot that no stall owns (R311). -/
def execSpprComplete (c : ChanId) (s : State) : Answer :=
  let ch := s.channel c.val
  match ch.sppr with
  | none => .next s
  | some p =>
    if !stepMay s c.val false then .next s else
    let detail := p.device + 32 + natField p.bank 2 3 * 64 + natField p.bank 0 2 * 512 + p.row % 2 ^ 21 * 2048
    .next (endRepair 0x02 0x05 (rankRes c.val p.rank) { detail := detail }
      (bumpChan c.val 0x0A (s.setChannel c.val { ch with
        sppr := none, slotFree := false, softRepairs := ch.softRepairs ++ [p],
        rowCe := ch.rowCe.erase ((p.bank * 2 ^ 24 + p.row) * 20 + p.device) })))

/-- What a migration reads: corrected, or copied poisoned and recorded once (R307, R308, R315). -/
def copiedLine (c ca : Nat) (found : Ecc) (s : State) : State :=
  match lineFound s c ca found with
  | .uncorrectable d =>
    let s0 := bumpChan c 0x07 s
    record (eccRec c ca 1 1 (d.map (·.val)) s0) (poisonAt c ca s0)
  | .corrected _ _ => bumpChan c 0x06 s
  | _ => s

/-- A table by rank after the spare, rank `n`, has taken rank `f`'s number: `unit` keys belong to each rank. -/
def renumber {α : Type} (f n unit : Nat) (t : Tbl α) : Tbl α :=
  (t.filter (fun x => decide (x.1 / unit = n))).foldl (fun (u : Tbl α) x => u.set (f * unit + x.1 % unit) x.2)
    (t.filter (fun x => decide (x.1 / unit ≠ f) && decide (x.1 / unit ≠ n)))

/-- The spare has taken the number of rank `f`: what the channel counts, marks and has repaired is now that of the spare's devices (R296, R306, R307). -/
def spareServes (f : Nat) (x : Channel) : Channel :=
  let n := x.ranks
  let rows (l : List Sppr) : List Sppr :=
    (l.filter (fun p => decide (p.rank ≠ f))).map (fun p => if p.rank = n then { p with rank := f, bank := 64 * f + p.bank % 64 } else p)
  let marked := renumber f n 1 x.marked
  { x with migration := none, spared := none, progress := 100, marked := marked, state := if marked.isEmpty then 0 else 1,
           deviceCe := renumber f n 20 x.deviceCe, deviceBanks := renumber f n 20 x.deviceBanks,
           rowCe := renumber f n (64 * 2 ^ 24 * 20) x.rowCe, pprUsed := renumber f n 20 x.pprUsed,
           rowsNoPpr := renumber f n 20 x.rowsNoPpr, postponed := renumber f n 1 x.postponed,
           softRepairs := rows x.softRepairs, hardRepairs := rows x.hardRepairs }

/-- RANK_COPY_STEP (migrations pause while the power fails, R456): one line is copied, corrected, or poisoned where it cannot be; at the end the spare takes the rank's number (R307). -/
def execRankCopyStep (c : ChanId) (found : Ecc) (s : State) : Answer :=
  let ch := s.channel c.val
  match ch.migration with
  | some (.rank f ptr) =>
    if s.pwr.pwrfail ∨ !stepMay s c.val false then .next s else
    let total := chanCap s / 64
    let s0 := takeStep c.val ch.ranks (takeStep c.val f s)
    let s1 := if tackBase s ≤ 64 * ptr then tackRead c.val (ptr - tackBase s / 64) found s0 else copiedLine c.val (64 * ptr) found s0
    let rest := ((List.range (ch.ranks * 64)).map (· + ptr + 1)).find? (fun l => decide ((locOf ch.ranks (64 * l)).rank = f))
    (match rest with
     | some n =>
       if n < total then
         .next (mapChan c.val (fun x => { x with migration := some (.rank f n), progress := 100 * n / total }) s1)
       else
         .next (endRepair 0x02 0x07 (rankRes c.val f) {} (changeChan c.val (spareServes f) s1))
     | none => .next s1)
  | _ => .next s

/-- Requests that wait for a sector as it moves go to its survivor, at its new place (R308). -/
def forwardSector (c k : Nat) (s : State) : State :=
  let ch := s.channel c
  let of (r : McReq) : Bool := decide (r.ca / 256 = k)
  let place := ((survivors c).getD (k % 15) 0, reserveBase s + k / 15 * 256)
  mapChan place.1 (fun x => { x with queue := x.queue ++ (ch.queue.filter of).map (fun r => { r with ca := place.2 + r.pa % 256 }) })
    (s.setChannel c { ch with queue := ch.queue.filter (fun r => !of r) })

/-- Read sector `k` of a channel for its move: its tack record, whose errors poison it at the source, and its four lines, which arrive poisoned where
they cannot be read (R308, R315). -/
def copiedSector (c k : Nat) (r : SectorRead) (s : State) : State :=
  let s1 := takeStep c (locNow (s.channel c) (256 * k)).rank s
  let s2 := recordRead c k r.tags r.seals (touchRecord c k true false s1)
  ((List.range 4).zip r.lines).foldl (fun st x => copiedLine c (256 * k + 64 * x.1) x.2 st) s2

/-- The copy of sector `k` of channel `c` is sent to its survivor, at priority URGENT (R154, R308). -/
def sendCopy (c k : Nat) (s : State) : State :=
  let x := ((survivors c).getD (k % 15) 0, reserveBase s + k / 15 * 256)
  queueReq x.1 false { kind := .spanWrite, pa := 256 * secOfChan c k, ca := x.2, stall := 0, pri := 3, src := if c < 8 then 144 + c else 145 + c } s

/-- CHANNEL_COPY_STEP (paused likewise): one sector moves to its survivor's reserve; at the end the channel is retired and powered off (R308). -/
def execChannelCopyStep (c : ChanId) (found : SectorRead) (s : State) : Answer :=
  let ch := s.channel c.val
  match ch.migration with
  | some (.channel ptr) =>
    if s.pwr.pwrfail ∨ !stepMay s c.val false then .next s else
    let total := chanNormal s / 256
    let s1 := forwardSector c.val ptr (sendCopy c.val ptr (copiedSector c.val ptr found s))
    if ptr + 1 < total then
      .next (mapChan c.val (fun x => { x with migration := some (.channel (ptr + 1)), progress := 100 * (ptr + 1) / total }) s1)
    else
      let s2 := changeChan c.val (fun x => { x with migration := none, state := 3, progress := 100, moved := 0, poweredOff := true }) s1
      .next (endRepair 0x02 0x08 (resource 3 c.val) {} { s2 with mc := { s2.mc with retired := some c.val } })
  | _ => .next s

/-! ## The firmware's requests (R314) -/

/-- Whether a request to retire a channel is refused (R314). -/
def retireDenied (s : State) : Bool := !s.mc.chSpare || reserveUsed s || anyMigration s

/-- Whether a request to spare a rank is refused (R314). -/
def spareDenied (s : State) (c : Nat) : Bool := !s.mc.rkSpare || decide ((s.channel c).spare ≠ 1) || anyMigration s

/-- The behaviour of OD 0x5010 + c.0E (R314): 1 retires the channel, 2 spares the rank named in bits [7:4]; the result is in .0F. -/
def writeChanAction (c : Nat) (v : Nat) (p : Path) (s : State) : State :=
  if natField v 0 4 = 1 then
    (if retireDenied s then pathSet p (0x5010 + c) 0x0F resDenied s else pathSet p (0x5010 + c) 0x0F resOk (startRetirement c s))
  else
    (if spareDenied s c ∨ (s.channel c).ranks ≤ v / 16 then pathSet p (0x5010 + c) 0x0F resDenied s
     else pathSet p (0x5010 + c) 0x0F resOk (startSparing c (v / 16) s))

/-! ## Memory slots (R312) -/

/-- MEM_SLOTS_APPLY: a change takes effect at a frame boundary once the stall's queued operations have drained (R312). -/
def execMemSlotsApply (n : StallId) (s : State) : Answer :=
  let st := s.stall n.val
  let busy := s.mc.channels.any (fun x => x.2.queue.any (fun r => decide (r.stall = n.val)))
  .next (if st.slotsPending ∧ !busy then
    evalStalls (s.setStall n.val { st with slotsNow := BitVec.ofNat 32 (odGet s (0x4100 + n.val) 0x23), slotsPending := false }) else s)

end Sys2Proof.Machine
end

