-- ==== Sys2Proof/Machine/Stalls.lean ====
section
/-! DEFINITION. The life of tenant stalls and the entries that assign resources to them (R158, R188, R277, R278, R286, R312, R336,
R345–R354, R358–R361, R435). -/

namespace Sys2Proof.Machine

/-! ## Shared steps -/

/-- A write to an entry that a stall in TEARDOWN or FENCED does not take (R345). -/
def unlessEnding (path : Path) (n : Nat) (act : State → State) (s : State) : State :=
  if (s.stall n).state = .teardown ∨ (s.stall n).state = .fenced then stallResult path n resBusy s else act s

/-- Store an entry of a stall, with its result and the conditions that may follow from it. -/
def storeStall (path : Path) (n sub v : Nat) (s : State) : State := evalStalls (stallResult path n resOk (storeOd (0x4100 + n) sub v s))

/-- TLBI.STALLN and IOTLBI for a stall (R333, R336). -/
def invalidateStall (n : Nat) (s : State) : State := ioInvalidate n none false (invalidate (invalStall n) none s)

/-- Clear every span of a range of normal memory (R352). -/
def clearRange (a len : Nat) (s : State) : State :=
  (List.range (len / 256)).foldl (fun t i =>
    let sec := a / 256 + i
    if 256 * sec < normalBytes t then spanZero { agent := 1, noAlloc := true } sec .uninit (lookup (4 * sec) t) else t) s

/-- The frames of a range that lie in none of a list of ranges are cleared, frame by frame. -/
def clearFrames (a len : Nat) (kept : List (Nat × Nat)) (s : State) : State :=
  (List.range (len / 16384)).foldl (fun t i =>
    let f := a + 16384 * i
    if kept.any (fun x => decide (x.1 ≤ f) && decide (f < x.1 + x.2)) then t else clearRange f 16384 t) s

/-! ## Creation (R347–R349, R353) -/

/-- Cores taken twice (R348): CORES of one stall in CORES or SHARED_CORES of another, or SHARED_CORES in another's CORES. -/
def coresClash (s : State) (n cores shared : Nat) : Bool :=
  (0 :: otherTenants s n).any (fun m => decide (m ≠ n) &&
    (decide (cores &&& (stallCores s m ||| stallShared s m ||| (s.stall m).leaving.toNat ||| (s.stall m).leavingShared.toNat) ≠ 0) ||
      decide (shared &&& (stallCores s m ||| (s.stall m).leaving.toNat) ≠ 0)))

/-- The third check of a create (R348). -/
def grantsBad (s : State) (n : Nat) : Bool :=
  let g := grantsOf s n
  let root := natField (odGet s (0x4100 + n) 0x0A) 14 38 * 16384
  g.isEmpty || g.any (fun x => decide (normalBytes s < x.1 + x.2)) || !g.any (fun x => decide (x.1 ≤ root) && decide (root < x.1 + x.2))

/-- Whether ranges meet a grant of a STRICT_ACTIVE stall (R361). -/
def meetsStrict (s : State) (n : Nat) (l : List (Nat × Nat)) : Bool :=
  (strictOthers s n).any (fun m => (grantsOf s m).any (fun g => l.any (rangesMeet g)))

/-- Whether a way mask meets that of a STRICT_ACTIVE stall (R361). -/
def waysMeetStrict (s : State) (n ways : Nat) : Bool := (strictOthers s n).any (fun m => decide (ways &&& waysOf s m ≠ 0))

/-- The checks of a create after that of STATE, in their order; all give DENIED (R348), as does an allotment that names an offline core (R445;
log entry 166). -/
def createStallDenied (s : State) (n : Nat) : Bool :=
  (decide (stallCores s n = 0) && decide (stallShared s n = 0)) || coresClash s n (stallCores s n) (stallShared s n) || grantsBad s n ||
  (match stallVf s n with | some v => (otherTenants s n).any (fun m => decide (stallVf s m = some v)) | none => false) ||
  waysMeetStrict s n (waysOf s n) || meetsStrict s n (grantsOf s n) ||
  decide ((stallCores s n ||| stallShared s n) &&& s.far.offline.toNat ≠ 0)

/-- An accepted create (R347, R349, R394): the sources of its cores pass to the stall, its first instruction is dispatched on each
dedicated core, and TAP_OPEN returns to 0 (R520). -/
def beginStall (n : Nat) (s : State) : State :=
  let cores := maskCores (stallCores s n)
  let s1 := setStallState n .creating (s.setStall n { s.stall n with started := 0, step := 0, lastIso := 0 })
  evalStalls (cores.foldl (fun t k => startStall n k t) (cores.foldl (fun t k => passSources k t) (odSet 0xF000 0x01 0 s1)))

/-- CONTROL = 1 (R347, R348, R353). -/
def createStall (path : Path) (n : Nat) (s : State) : State :=
  if n = 0 then stallResult path n resDenied s
  else match (s.stall n).state with
    | .teardown => stallResult path n resBusy (odBump (0x4100 + n) 0x04 s)
    | .free => if createStallDenied s n then stallResult path n resDenied s else stallResult path n resOk (beginStall n s)
    | _ => stallResult path n resExists s

/-- STALL_CREATE. -/
def execStallCreate (path : Path) (n : StallId) (s : State) : Answer :=
  .next (odWriteNat path (0x4100 + n.val) 0x02 1 (createStall path n.val) s)

/-- STALL_LIVE: the first instruction has been dispatched on every allotted core (R347). -/
def execStallLive (n : StallId) (s : State) : Answer :=
  let st := s.stall n.val
  let need := stallCores s n.val ||| stallShared s n.val
  if n.val ≠ 0 ∧ st.state = .creating ∧ (maskCores need).all (fun k => st.started.getLsbD k) = true then
    .next (evalStalls (setStallState n.val .live s))
  else .next s

/-! ## Teardown and fences (R351, R352, R435) -/

/-- The contexts of a stall that are not FREE. -/
def stallCtxs (s : State) (n : Nat) : List Nat :=
  (s.eng.ctxs.filter (fun x => decide (x.2.stall.toNat = n) && decide (x.2.state ≠ .free))).map (·.1)

/-- Step 1 of a teardown: STRICT_ACTIVE clears and every context is freed (R351, R362). -/
def beginTeardown (n : Nat) (s : State) : State :=
  let s1 := setStallState n .teardown (s.setStall n { s.stall n with step := 1, strictActive := false, cleaning := false })
  evalStalls ((stallCtxs s1 n).foldl (fun t c => (freeCtx c (decide ((t.ctx c).state = .fenced)) t).2) s1)

/-- CONTROL = 2 (R347, R351). -/
def teardownStall (path : Path) (n : Nat) (s : State) : State :=
  if n = 0 then stallResult path n resDenied s
  else match (s.stall n).state with
    | .live => stallResult path n resOk (beginTeardown n s)
    | .fenced => stallResult path n resOk (beginTeardown n s)
    | .free => stallResult path n resDenied s
    | _ => stallResult path n resBusy s

/-- STALL_TEARDOWN. -/
def execStallTeardown (path : Path) (n : StallId) (s : State) : Answer :=
  .next (odWriteNat path (0x4100 + n.val) 0x02 2 (teardownStall path n.val) s)

/-- A core stops running a stall, and its state is discarded with the predictor entries of the stall (R171, R351 step 3). -/
def dropStallCore (n k : Nat) (s0 : State) : State :=
  let s := if (s0.core k).stall = n ∧ n ≠ 0 then leaveWindow k (dropSpec k s0) else s0
  let cs := s.core k
  let cs1 := { cs with switches := cs.switches.erase n, btb := cs.btb.filter (fun b => decide (b.1 ≠ n)),
                       direction := cs.direction.filter (fun b => decide (b.1 ≠ n)),
                       returnStack := cs.returnStack.filter (fun b => decide (b.1 ≠ n)) }
  s.setCore k (if cs.stall = n ∧ n ≠ 0 then { cs1 with arch := {}, stall := 0, started := false, waiting := false, stopped := false,
                                                       returnStack := [] } else cs1)

/-- The subindexes a teardown returns to their defaults (R351 step 6). -/
def teardownSubs : List Nat := [0x06, 0x07, 0x09, 0x0A, 0x0B, 0x0C, 0x20, 0x21, 0x22, 0x23, 0x24] ++ (List.range 16).map (· + 0x30)

/-- An entry returns to its default. -/
def resetEntry (idx sub : Nat) (s : State) : State :=
  match odEntry idx sub with
  | some e => storeOd idx sub e.dflt s
  | none => s

/-- Steps 3 to 6 of a teardown (R351), once every access already translated has been performed (R334). -/
def endTeardown (n : Nat) (s : State) : State :=
  let s1 := (List.range 128).foldl (fun t k => dropStallCore n k t) s
  let s2 := invalidateStall n s1
  let s3 := (grantsOf s2 n).foldl (fun t g => clearRange g.1 g.2 t) s2
  let s4 := (List.range 1024).foldl (fun t p => if portOwner t p = n then storeOd (0x6400 + p) 0x02 0 t else t) s3
  let s5 := (List.range 16).foldl (fun t w =>
    let v := odGet t 0x5100 (0x10 + w)
    if natBit v 0 ∧ natField v 1 9 = n then storeOd 0x5100 (0x10 + w) 0 t else t) s4
  let mine := (s5.irq.map (·.1)).filter (fun i => decide (srcOwner s5 i = n))
  let s6 := teardownSubs.foldl (fun t sub => resetEntry (0x4100 + n) sub t) (mine.foldl (fun t i => resetSource i t) s5)
  let s7 := setStallState n .free (s6.setStall n {})
  evalStalls s7

/-- TEARDOWN_PROGRESS: the step that is waited for is over, and the next runs (R351). -/
def teardownStep (n : Nat) (s : State) : State :=
  let st := s.stall n
  if st.state ≠ .teardown then s
  else match st.step with
    | 1 =>
      if !(stallCtxs s n).isEmpty then s
      else
        let s1 := s.setStall n { st with step := 2 }
        (match stallVf s n with
         | some (p, v) => if vfEnabled s p v then startDrain .vfDisable (vfLink s p v) v s1 else s1
         | none => s1)
    | 2 =>
      (match stallVf s n with
       | some (p, v) => if (s.fn p v).drain.isSome then s else (performTranslated s).elim s (endTeardown n)
       | none => (performTranslated s).elim s (endTeardown n))
    | _ => s

def execTeardownProgress (n : StallId) (s : State) : Answer := .next (teardownStep n.val s)

/-- A tenant stall is fenced (R435): its cores stop, its contexts and its VF are fenced. A stall in TEARDOWN stays there (R362). -/
def fenceStall (n : Nat) (s : State) : State :=
  if n = 0 ∨ ¬((s.stall n).state = .creating ∨ (s.stall n).state = .live) then s
  else
    let s1 := setStallState n .fenced (s.setStall n { s.stall n with strictActive := false, cleaning := false })
    let s2 := (List.range 128).foldl (fun t k => if (t.core k).stall = n then t.setCore k { t.core k with stopped := true } else t) s1
    let s3 := (stallCtxs s2 n).foldl (fun t c => fenceCtx c 0x21 t) s2
    let s4 := match stallVf s3 n with
      | some (p, v) => mapFn p v (fun f => { f with fenced := true }) s3
      | none => s3
    evalStalls s4

/-! ## Cores (R350, R354, R445) -/

/-- Cores that leave a stall: each at its next WFI, or at once where it waits in one (R350). -/
def removeCores (path : Path) (n : Nat) (shared : Bool) (gone : Nat) (s : State) : State :=
  if gone = 0 then s
  else
    let st := s.stall n
    let m : BitVec 128 := BitVec.ofNat 128 gone
    let s1 := s.setStall n { st with leaving := if shared then st.leaving else st.leaving ||| m,
                                     leavingShared := if shared then st.leavingShared ||| m else st.leavingShared, leavingPath := path }
    let s2 := raise (0x300 + n) (stallResult path n resBusy s1)
    (maskCores gone).foldl (fun t k => if (t.core k).stall = n ∧ (t.core k).started = true then leaveAtWfi k t else leaveCore n k t) s2

/-- Stall 0 starts on cores that are its own and run nothing, once the device is ready (R350; log entry 98). -/
def startIdle (cores : List Nat) (s : State) : State :=
  cores.foldl (fun t k => if t.boot.ready && !(t.core k).started && !t.far.offline.getLsbD k then startStall 0 k t else t) s

/-- A core that is named again before it has left no longer leaves (R350; log entry 203). -/
def keepCores (n : Nat) (shared : Bool) (v : Nat) (s : State) : State :=
  let st := s.stall n
  let m : BitVec 128 := BitVec.ofNat 128 v
  s.setStall n { st with leaving := if shared then st.leaving else st.leaving &&& ~~~m,
                         leavingShared := if shared then st.leavingShared &&& ~~~m else st.leavingShared }

/-- The behaviour of CORES and SHARED_CORES (R345, R348, R350, R361, R394, R445). -/
def writeCores (path : Path) (n : Nat) (shared : Bool) (v : Nat) (s : State) : State :=
  let sub := if shared then 0x07 else 0x06
  let old := odGet s (0x4100 + n) sub
  unlessEnding path n (fun s =>
    if v &&& s.far.offline.toNat ≠ 0 then stallResult path n resDenied s
    else if n ≠ 0 ∧ (s.stall n).state = .free then storeStall path n sub v s
    else if coresClash s n (if shared then stallCores s n else v) (if shared then v else stallShared s n) then stallResult path n resDenied s
    else
      let s1 := keepCores n shared v (storeStall path n sub v s)
      let added := v &&& (2 ^ 128 - 1 - old)
      let gone := old &&& (2 ^ 128 - 1 - v)
      let s2 := if shared then s1
                else if n = 0 then startIdle (maskCores added) s1
                else (maskCores added).foldl (fun t k => startStall n k (passSources k t)) s1
      if n = 0 then s2 else evalStalls (removeCores path n shared gone s2)) s

/-- CORES_WRITE. -/
def execCoresWrite (path : Path) (n : StallId) (mask : BitVec 128) (s : State) : Answer :=
  .next (odWriteNat path (0x4100 + n.val) 0x06 mask.toNat (writeCores path n.val false mask.toNat) s)

/-- SHARED_CORES_WRITE. -/
def execSharedCoresWrite (path : Path) (n : StallId) (mask : BitVec 128) (s : State) : Answer :=
  .next (odWriteNat path (0x4100 + n.val) 0x07 mask.toNat (writeCores path n.val true mask.toNat) s)

/-- CORE_REMOVAL_TIMEOUT: a core that has not executed WFI within 100 ms is stopped, and one record is made (R350). -/
def execCoreRemovalTimeout (c : CoreId) (s : State) : Answer :=
  match (s.stalls.map (·.1)).find? (fun n => (s.stall n).leaving.getLsbD c.val || (s.stall n).leavingShared.getLsbD c.val) with
  | none => .next s
  | some n => .next (record { kind := 0x03, cls := 0, resource := resource 13 c.val, stall := n, detail := c.val } (leaveCore n c.val s))

/-- SLICE_END: a shared core goes to the next stall of its rotation, once its retired stores, those of the frame window among them, are
written (R178, R354). -/
def sliceEnd (k : Nat) (s : State) : State :=
  let l := rotation s k
  let cur := (s.core k).stall
  let next := match l.find? (fun n => decide (cur < n)) with
    | some n => some n
    | none => l.head?
  if (s.core k).halted ∨ s.far.offline.getLsbD k = true then s
  else match next with
    | none => s
    | some n =>
      if n = cur ∧ (s.core k).started = true then s
      else (drainStores k s).elim s (fun t => evalStalls (switchStall k n t))

def execSliceEnd (c : CoreId) (s : State) : Answer :=
  if coreOwner s c.val ≠ 0 then .next s else .next (sliceEnd c.val s)

/-! ## Grants and I/O roots (R336, R350, R352) -/

/-- The range a grant's value names. -/
def grantRange (v : Nat) : Nat × Nat := (natField v 0 38 * 16384, natField v 38 26 * 16384)

/-- Whether one range holds another. -/
def rangeIn (a b : Nat × Nat) : Bool := decide (a.2 = 0) || (decide (b.1 ≤ a.1) && decide (a.1 + a.2 ≤ b.1 + b.2))

/-- A write that waits for its invalidations; a second one meanwhile has no effect (R336). -/
def deferGrant (path : Path) (n : Nat) (g : GrantPending) (same : GrantPending → Bool) (s : State) : State :=
  let st := s.stall n
  if st.grantPending.any same then stallResult path n resBusy s
  else stallResult path n resBusy (s.setStall n { st with grantPending := st.grantPending ++ [g] })

/-- The behaviour of a memory grant (R336, R350, R361). -/
def writeGrant (path : Path) (n k v : Nat) (s : State) : State :=
  let old := grantRange (odGet s (0x4100 + n) (0x30 + k))
  let new := grantRange v
  if (s.stall n).state ≠ .free ∧ new.2 ≠ 0 ∧ meetsStrict s n [new] = true then stallResult path n resDenied s
  else if rangeIn old new then storeStall path n (0x30 + k) v s
  else deferGrant path n (.grant k (BitVec.ofNat 64 v) path) (fun g => match g with | .grant j _ _ => decide (j = k) | _ => false) s

/-- GRANT_WRITE. -/
def execGrantWrite (path : Path) (n : StallId) (k : Fin 16) (v : Word) (s : State) : Answer :=
  .next (odWriteNat path (0x4100 + n.val) (0x30 + k.val) v.toNat (writeGrant path n.val k.val v.toNat) s)

/-- The behaviour of IO_ROOT (R336). -/
def writeIoRoot (path : Path) (n v : Nat) (s : State) : State :=
  if odGet s (0x4100 + n) 0x24 = v then storeStall path n 0x24 v s
  else deferGrant path n (.ioRoot (BitVec.ofNat 64 v) path) (fun g => match g with | .ioRoot _ _ => true | _ => false) s

/-- IO_ROOT_WRITE. -/
def execIoRootWrite (path : Path) (n : StallId) (v : Word) (s : State) : Answer :=
  .next (odWriteNat path (0x4100 + n.val) 0x24 v.toNat (writeIoRoot path n.val v.toNat) s)

/-- The result of a write of a grant or IO_ROOT that is complete (R336, R345): while a later one through the same path is not, or where a later
write of the stall's entries gave another result, .03 stays. -/
def grantDone (path : Path) (n : Nat) (rest : List GrantPending) (s : State) : State :=
  let later := rest.any (fun g => match g with | .grant _ _ p => decide (p = path) | .ioRoot _ p => decide (p = path))
  if later ∨ pathGet s path (0x4100 + n) 0x03 ≠ resBusy then s else stallResult path n resOk s

/-- The oldest deferred write of a stall completes (R336, R352): invalidations, clearing, then the new value and its result. -/
def completeGrant (n : Nat) (s : State) : State :=
  let st := s.stall n
  match st.grantPending with
  | [] => s
  | g :: rest =>
    let s1 := invalidateStall n (s.setStall n { st with grantPending := rest })
    let s2 := match g with
      | .grant k v path =>
        let old := grantRange (odGet s1 (0x4100 + n) (0x30 + k))
        let others := ((List.range 16).filter (fun j => decide (j ≠ k))).map (fun j => grantRange (odGet s1 (0x4100 + n) (0x30 + j)))
        let s2 := if st.state = .free then s1 else clearFrames old.1 old.2 (grantRange v.toNat :: others) s1
        grantDone path n rest (storeOd (0x4100 + n) (0x30 + k) v.toNat s2)
      | .ioRoot v path => grantDone path n rest (storeOd (0x4100 + n) 0x24 v.toNat s1)
    evalStalls s2

/-- GRANT_WRITE_COMPLETE: the invalidations complete once every access already translated has been performed (R334, R336, R362). -/
def execGrantWriteComplete (n : StallId) (s : State) : Answer :=
  .next (if (s.stall n.val).grantPending.isEmpty then s else (performTranslated s).elim s (completeGrant n.val))

/-! ## The other entries of a stall -/

/-- The behaviour of VF_BIND (R348, R350). -/
def writeVfBind (path : Path) (n v : Nat) (s : State) : State :=
  unlessEnding path n (fun s =>
    if (s.stall n).state = .free then storeStall path n 0x09 v s
    else if (match stallVf s n with | some (p, f) => vfEnabled s p f | none => false) then stallResult path n resBusy s
    else if natField v 0 9 ≠ 0 ∧ (otherTenants s n).any (fun m => decide (stallVf s m = some (natField v 15 1, natField v 0 9))) = true then
      stallResult path n resDenied s
    else storeStall path n 0x09 v s) s

/-- VF_BIND_WRITE. -/
def execVfBindWrite (path : Path) (n : StallId) (v : BitVec 16) (s : State) : Answer :=
  .next (odWriteNat path (0x4100 + n.val) 0x09 v.toNat (writeVfBind path n.val v.toNat) s)

/-- The behaviour of BOOT_TTBR, BOOT_PC and STRICT (R345). -/
def writeBoot (path : Path) (n sub v : Nat) (s : State) : State := unlessEnding path n (storeStall path n sub v) s

/-- STRICT_WRITE (R358). -/
def execStrictWrite (path : Path) (n : StallId) (b : Bool) (s : State) : Answer :=
  .next (odWriteNat path (0x4100 + n.val) 0x0C (if b then 1 else 0) (writeBoot path n.val 0x0C (if b then 1 else 0)) s)

/-- The sectors that lie in a stall's ways, with the slices that hold them. -/
def waySectors (s : State) (ways : Nat) : List Nat :=
  (s.coh.slices.flatMap (fun x => x.2.sectors)).filterMap (fun y => if natBit ways y.2.way.val then some y.1 else none)

/-- STRICT_WAY_CLEAN_DONE: the sectors of the stall's ways have been cleaned and invalidated; STRICT_ACTIVE is set (R359). -/
def execStrictWayCleanDone (n : StallId) (s : State) : Answer :=
  let st := s.stall n.val
  if st.cleaning then
    let s1 := (waySectors s (waysOf s n.val)).foldl (fun t sec => evictSector sec t) s
    .next (evalStalls (s1.setStall n.val { s1.stall n.val with cleaning := false, strictActive := true }))
  else .next s

/-- The behaviour of CORE_MODE (R188): reserved bits are not kept; each core that runs the stall applies the value at its next boundary. -/
def writeCoreMode (path : Path) (n v : Nat) (s : State) : State :=
  let s1 := storeOd (0x4100 + n) 0x21 (v % 8) s
  let s2 := (List.range 128).foldl (fun t k =>
    if (t.core k).stall = n ∧ (t.core k).started = true then t.setCore k { t.core k with modePending := true } else t) s1
  evalStalls (stallResult path n resOk s2)

/-- CORE_MODE_WRITE. -/
def execCoreModeWrite (path : Path) (n : StallId) (v : BitVec 32) (s : State) : Answer :=
  .next (odWriteNat path (0x4100 + n.val) 0x21 v.toNat (writeCoreMode path n.val v.toNat) s)

/-- The behaviour of RING_GROUPS (R158). -/
def writeRingGroups (path : Path) (n v : Nat) (s : State) : State :=
  if valueDenied s n 0x20 v then stallResult path n resDenied s
  else
    let s1 := storeOd (0x4100 + n) 0x20 v s
    evalStalls (stallResult path n resOk (s1.setStall n { s1.stall n with ringPending := true }))

/-- RING_GROUPS_WRITE. -/
def execRingGroupsWrite (path : Path) (n : StallId) (v : BitVec 32) (s : State) : Answer :=
  .next (odWriteNat path (0x4100 + n.val) 0x20 v.toNat (writeRingGroups path n.val v.toNat) s)

/-- The behaviour of MEM_SLOTS (R312). -/
def writeMemSlots (path : Path) (n v : Nat) (s : State) : State :=
  if valueDenied s n 0x23 v then stallResult path n resDenied s
  else
    let s1 := storeOd (0x4100 + n) 0x23 v s
    evalStalls (stallResult path n resOk (s1.setStall n { s1.stall n with slotsPending := true }))

/-- MEM_SLOTS_WRITE. -/
def execMemSlotsWrite (path : Path) (n : StallId) (v : BitVec 32) (s : State) : Answer :=
  .next (odWriteNat path (0x4100 + n.val) 0x23 v.toNat (writeMemSlots path n.val v.toNat) s)

/-- The behaviour of LLC_WAYS (R286, R361). -/
def writeLlcWays (path : Path) (n v : Nat) (s : State) : State :=
  let held := decide (n = 0) || decide ((s.stall n).state = .creating) || decide ((s.stall n).state = .live)
  if v = 0 ∨ (held && waysMeetStrict s n v) = true then stallResult path n resDenied s else storeStall path n 0x22 v s

/-- LLC_WAYS_WRITE. -/
def execLlcWaysWrite (path : Path) (n : StallId) (v : BitVec 16) (s : State) : Answer :=
  .next (odWriteNat path (0x4100 + n.val) 0x22 v.toNat (writeLlcWays path n.val v.toNat) s)

/-- The behaviour of a way lock (R278, R361): one that takes a way of a STRICT_ACTIVE stall for another owner is DENIED. -/
def writeWayLock (path : Path) (w v : Nat) (s : State) : State :=
  let owner := natField v 1 9
  let strict := (s.stalls.map (·.1)).any (fun m => decide (m ≠ owner) && (s.stall m).strictActive && natBit (waysOf s m) w)
  if natBit v 0 ∧ strict = true then stallResult path owner resDenied s else evalStalls (storeOd 0x5100 (0x10 + w) (v % 2 ^ 14) s)

/-- WAY_LOCK_WRITE. -/
def execWayLockWrite (path : Path) (w : Fin 16) (v : BitVec 32) (s : State) : Answer :=
  .next (odWriteNat path 0x5100 (0x10 + w.val) v.toNat (writeWayLock path w.val v.toNat) s)

/-- RETIRE_CHANNEL (R314). -/
def execRetireChannel (path : Path) (c : ChanId) (s : State) : Answer :=
  .next (odWriteNat path (0x5010 + c.val) 0x0E 1 (writeChanAction c.val 1 path) s)

/-- SPARE_RANK_REQUEST (R314). -/
def execSpareRankRequest (path : Path) (c : ChanId) (rank : Fin 8) (s : State) : Answer :=
  .next (odWriteNat path (0x5010 + c.val) 0x0E (2 + 16 * rank.val) (writeChanAction c.val (2 + 16 * rank.val) path) s)

/-! ## Interrupt sources (R393–R398, R405) -/

/-- SOURCE_COALESCE_TIMEOUT: COAL_TIME has passed since the source's oldest uncounted-for event (R397). -/
def execSourceCoalesceTimeout (src : SourceId) (s : State) : Answer :=
  let x := s.source src.val
  if srcEn (srcCfg s src.val) = true ∧ 0 < x.count ∧ x.signalled = false then .next (signalSource src.val s) else .next s

/-- DL_COALESCE_EXPIRY: a source still not signalled at its deadline is signalled, counted and recorded (R398, R452). -/
def execDlCoalesceExpiry (src : SourceId) (s : State) : Answer :=
  let x := s.source src.val
  if srcEn (srcCfg s src.val) = true ∧ 0 < x.count ∧ x.signalled = false then
    .next (recordDeadline 8 0xF000 (odBump 0x9000 0x07 (signalSource src.val s)))
  else .next s

/-- The owner a source has under a configuration word (R393). -/
def ownerUnder (s : State) (i : Nat) (w : Word) : Nat := if 0x500 ≤ i ∧ i < 0x540 then srcOwnerField w else srcOwner s i

/-- The targets that a configuration word may not name (R396). -/
def targetDenied (s : State) (i : Nat) (w : Word) : Bool :=
  let owner := ownerUnder s i w
  let v := w.toNat
  if i ≤ 0x200 then false
  else match srcKind w with
    | 0 =>
      let k := natField v 8 7
      if owner = 0 then decide (coreOwner s k ≠ 0) else !(natBit (stallCores s owner) k || natBit (stallShared s owner) k)
    | 1 => decide (owner ≠ 0)
    | 2 =>
      let vec := natField v 18 7
      if owner = 0 then decide (natField v 9 9 ≠ 0) || !(decide (vec = 0) || decide (65 ≤ vec))
      else decide (stallVf s owner ≠ some (natField v 8 1, natField v 9 9)) || decide (vec ≠ 0)
    | _ => true

/-- A signalled source goes to a new target (R406): a host target is sent its message, a core is woken. -/
def retarget (i : Nat) (s : State) : State :=
  if (srcHost s i).isSome then signalQuiet i (s.setSource i { s.source i with signalled := false }) else wakeTarget i s

/-- The bits of a configuration word that are kept: reserved ones, of TARGET by the kind, read zero, and OWNER only where it is configurable
(R6, R393, R395). -/
def cfgWord (i : Nat) (w : Word) : Word :=
  let m : Word := 0x7FFFFE000000007F ||| (match srcKind w with | 0 => 0x7F00 | 1 => 0x300 | _ => 0x1FFFF00)
  w &&& (if 0x500 ≤ i ∧ i < 0x540 then m ||| 0x1FF00000000 else m)

/-- The behaviour of the selected source's word (R395, R396, R405). -/
def writeSource (path : Path) (w : Word) (s : State) : State :=
  let i := pathGet s path 0x9000 0x01 % 2048
  let old := srcCfg s i
  let res (r : Nat) (t : State) : State := pathSet path 0x9000 0x04 r t
  let tenant := decide (pathClass path = .t)
  if (srcReserved i && srcEn w) || (tenant && (decide (srcKind w ≠ srcKind old) || decide (srcOwnerField w ≠ srcOwnerField old))) ||
      targetDenied s i w then res resDenied s
  else
    let s1 := noteBag (srcIdx i) 0x02 (s.setSource i { s.source i with cfg := some (cfgWord i w) })
    res resOk (if !(s1.source i).signalled then evalSource i s1
               else if srcEn (srcCfg s1 i) && decide (srcHost s1 i ≠ srcHost s i ∨ srcCore s1 i ≠ srcCore s i) then retarget i s1 else s1)

/-- SOURCE_CONFIG_WRITE. -/
def execSourceConfigWrite (path : Path) (w : Word) (s : State) : Answer := .next (odWriteNat path 0x9000 0x02 w.toNat (writeSource path w) s)

end Sys2Proof.Machine
end

