-- ==== Sys2Proof/Machine/FarrierOps.lean ====
section
/-! DEFINITION. What the Farrier's rows share: the actions of the error classes, overlapping repairs, core substitution, slice
rehoming and the Groom pairs (R433–R452). -/

namespace Sys2Proof.Machine

/-! ## Classes (R434–R436) -/

/-- Fence a tenant stall under an incident, with its record (R434, R435). One that is not CREATING or LIVE is not fenced again (R362). -/
def fenceUnder (inc : BitVec 32) (n : Nat) (s : State) : State :=
  if n ≠ 0 ∧ ((s.stall n).state = .creating ∨ (s.stall n).state = .live) then
    recordIn inc { kind := 0x0B, cls := 2, resource := resource 10 n, action := 0x0F, outcome := 1, stall := n } (fenceStall n s)
  else s

/-- Whether a core runs stall 0 now. -/
def runsStall0 (s : State) (k : Nat) : Bool :=
  decide ((s.core k).stall = 0) && (s.core k).started && !(s.core k).stopped

/-- MACHINE_CHECK: to the core where the error arose if it runs stall 0, otherwise to the lowest that does (R434). -/
def machineCheck (core : Option Nat) (s : State) : State :=
  let first := (List.range 128).find? (runsStall0 s)
  let k := match core with | some k => if runsStall0 s k then some k else first | none => first
  match k with
  | none => s
  | some k =>
    let x : Exc := { code := 0x12 }
    takeExceptionAt k x (excLevel (s.core k) x) (s.core k).arch.pc s

/-- An uncorrected-contained error strikes a stall (R434). -/
def containedAt (inc : BitVec 32) (n : Nat) (core : Option Nat) (s : State) : State :=
  if n = 0 then machineCheck core s else fenceUnder inc n s

/-- Signal fatal in every function beside the two PF0s in which the record itself is signalled (R388, R436). -/
def fatalSignals (inc : BitVec 32) (dw1 : BitVec 32) (s : State) : State :=
  let keys := sortNat ([pfKey 1, pfKey 3] ++ (s.host.fns.map (·.1)).filter (fun k => decide (k ≠ pfKey 0) && decide (k ≠ pfKey 2)))
  keys.foldl (fun t k => aerSignal k 3 inc dw1 t) s

/-- The device-fatal state: the last Groom pair is lost (R436). The main unit saves what is not yet in flash. -/
def deviceFatal (g : Nat) (inc : BitVec 32) (s : State) : State :=
  let s1 := recordIn inc { kind := 0x0C, cls := 3, resource := resource 9 g, action := 0x0E, outcome := 4 } s
  let s2 := fatalSignals inc (BitVec.ofNat 32 (0x0C + 3 * 256)) s1
  let s3 := { s2 with host := { s2.host with fatal := true }, eng := { s2.eng with stopped := true }, pwr := { s2.pwr with faultN := false } }
  storeBag { s3 with far := { s3.far with fatal := true, log := s3.far.log.map (fun e => { e with saved := true }) } }

/-! ## Overlapping faults (R450, R451) -/

/-- The agent of a die has failed (R433). -/
def agentLost (s : State) (die : Nat) : Bool := s.far.agents.getLsbD die

/-- The die of a stop (R143). -/
def dieOf (stop : Nat) : Nat := stop / 72

/-- The running substitution is over: the core goes offline (R445, R451). -/
def coreOffline (k cause : Nat) (inc : BitVec 32) (s : State) : State :=
  let st := coreStall s k
  let s1 := s.setCore k { s.core k with stopped := true }
  let s2 := { s1 with far := { s1.far with offline := s1.far.offline ||| ((1 : BitVec 128) <<< k) } }
  let s3 := recordIn inc { kind := 0x03, cls := 2, resource := resource 0 (coreStop s k), action := 0x02, outcome := 1, cause := cause,
                           stall := st, detail := k } s2
  containedAt inc st none s3

/-- A spare tile has failed. -/
def spareFailed (stop : Nat) (s : State) : State :=
  { s with far := { s.far with spares := s.far.spares.filter (fun x => decide (x ≠ stop)),
                               failedSpares := if s.far.failedSpares.contains stop then s.far.failedSpares else s.far.failedSpares ++ [stop] } }

/-- Abort the running substitution (R451). -/
def abortSubst (s : State) : State :=
  match s.far.subst with
  | none => s
  | some x =>
    let s1 := endRepair 0x03 0x01 (resource 0 x.source) { outcome := 2, cls := 2, detail := x.core.val, target := some (resource 0 x.spare) } s
    coreOffline x.core.val x.cause.toNat x.incident { s1 with far := { s1.far with subst := none } }

/-- Abort the running rehoming (R451): unwritten dirty sectors of the entry in progress become POISON in memory; the rest waits. -/
def abortRehome (r : Repair) (s : State) : State :=
  match s.far.rehome with
  | none => s
  | some x =>
    let mine : List (Nat × Sector) := match x.entries with
      | [] => []
      | i :: _ => ((s.slice x.slice).sectors.filter (fun y => decide (homeIndex y.1 = i))).filter (fun y => decide (y.2.dirty ≠ 0))
    let s1 := mine.foldl (fun t y => dropSector y.1 (poisonMem y.1 t)) s
    let s2 := endRepair 0x04 0x03 r.resource.toNat { outcome := 2, cls := 1 } { s1 with far := { s1.far with rehome := none } }
    { s2 with far := { s2.far with queued := s2.far.queued ++ [r] } }

/-- Abort a retirement: contexts that have not moved are FENCED, and their stalls with them (R85, R451). -/
def abortRetire (r : Repair) (s : State) : State :=
  let e := r.resource.toNat % 4096
  let left := (s.eng.ctxs.filter (fun x => decide (x.2.state = .moving) && decide (ctxEngine s x.1 = e))).map (·.1)
  let stalls := sortNat (left.map (fun n => (s.ctx n).stall.toNat))
  let s1 := left.foldl (fun t n => fenceCtx n 0x13 t) s
  let s2 := stalls.foldl (fun t n => containedAt r.incident n none t) s1
  finishRetire e (endRepair 0x08 0x0C r.resource.toNat { outcome := 2, cls := 2 } s2)

/-- Abort a running repair with the outcome of its kind (R451); each is counted (R455). -/
def abortRepair (r : Repair) (s0 : State) : State :=
  let s := odBump 0x3000 0x14 s0
  match r.action.toNat with
  | 0x01 => abortSubst s
  | 0x03 => abortRehome r s
  | 0x07 => abortMigration (r.resource.toNat % 4096 / 8) s
  | 0x08 => abortMigration (r.resource.toNat % 4096) s
  | 0x0A => failoverFails (r.resource.toNat % 4096) 2 s
  | 0x0C => abortRetire r s
  | _ => s

/-- A fault strikes a resource (R450): the incident number it takes, after the repairs that use the resource have been aborted. -/
def strike (res : Nat) (s : State) : BitVec 32 × State :=
  match s.far.running.find? (fun r => decide (r.resource.toNat = res)) with
  | some r => (r.incident, s)
  | none =>
    match repairsUsing s res with
    | [] => (nextIncident s, s)
    | r :: more => (r.incident, (r :: more).foldl (fun t x => abortRepair x t) s)

/-! ## Core substitution (R444, R445) -/

/-- The row of a tile stop, and its column counted across both dies (R141, R143). -/
def stopRow (n : Nat) : Nat := n % 72 / 8
def stopCol (n : Nat) : Nat := 8 * (n / 72) + n % 8

def natDist (a b : Nat) : Nat := (a - b) + (b - a)

/-- The uncontended header time between two stops without its fixed part: hops, a turn's 3 cycles, the bridge's 4 (R145). -/
def headerTime (a b : Nat) : Nat :=
  let h := natDist (stopCol a) (stopCol b)
  let v := natDist (stopRow a) (stopRow b)
  h + v + (if h ≠ 0 ∧ v ≠ 0 then 3 else 0) + (if dieOf a ≠ dieOf b then 4 else 0)

/-- The nearer of two spares, ties to the lower stop. -/
def nearer (from_ : Nat) (b : Option Nat) (n : Nat) : Option Nat :=
  match b with
  | none => some n
  | some m => if headerTime from_ n < headerTime from_ m ∨ (headerTime from_ n = headerTime from_ m ∧ n < m) then some n else some m

/-- The spare a substitution takes: on the failing tile's die, otherwise on the other (R445). -/
def pickSpare (s : State) (stop : Nat) : Option Nat :=
  match (s.far.spares.filter (fun n => decide (dieOf n = dieOf stop))).foldl (nearer stop) none with
  | some n => some n
  | none => s.far.spares.foldl (nearer stop) none

/-- The domain of the core tile at a stop. -/
def tileDom (stop : Nat) : Option Domain :=
  match stopTile stop with
  | some t => if h : t < 136 then some (.coreTile ⟨t, h⟩) else none
  | none => none

def setTileDom (stop : Nat) (v : DomState) (s : State) : State :=
  match tileDom stop with | some d => setDom d v s | none => s

/-- Reserve a spare and begin its power-up (R444 step 2). -/
def reserveSpare (stop : Nat) (s : State) : State :=
  setTileDom stop .waking { s with far := { s.far with spares := s.far.spares.filter (fun x => decide (x ≠ stop)) } }

/-- The steps of a substitution begin, or the core goes offline where no spare is left (R444, R445). -/
def substSteps (k cause : Nat) (inc : BitVec 32) (s : State) : State :=
  let src := coreStop s k
  match pickSpare s src with
  | none =>
    coreOffline k cause inc (endRepair 0x03 0x01 (resource 0 src) { outcome := 4, cls := 2, detail := k, target := some 0xFFFF } s)
  | some sp =>
    let uses := [BitVec.ofNat 16 (resource 0 sp)]
    let s1 := reserveSpare sp s
    if h : k < 128 then
      { s1 with far := { s1.far with
          subst := some { core := ⟨k, h⟩, source := src, spare := sp, incident := inc, cause := BitVec.ofNat 16 cause },
          running := s1.far.running.map (fun r => if r.action = 0x01 then { r with target := BitVec.ofNat 16 (resource 0 sp), uses := uses } else r) } }
    else s1

/-- A substitution of a core is decided on (R444, R450); one that is offline already is left as it is. -/
def startSubst (k cause : Nat) (inc : BitVec 32) (s : State) : State :=
  let src := coreStop s k
  let rec0 : Rec := { kind := 0x03, cls := 0, resource := resource 0 src, action := 0x01, outcome := 4, cause := cause, stall := coreStall s k, detail := k }
  if s.far.offline.getLsbD k then s
  else if agentLost s (dieOf src) then recordIn inc rec0 (takeIncident inc s)
  else if (pickSpare s src).isNone then coreOffline k cause inc (takeIncident inc s)
  else
    let r : Repair := { action := 0x01, resource := BitVec.ofNat 16 (resource 0 src), incident := inc, cls := 0, stall := coreStall s k,
                        cause := BitVec.ofNat 16 cause, args := [k] }
    let b := beginRepair 0x03 r s
    if b.1 then substSteps k cause inc b.2 else b.2

/-- Change the running substitution. -/
def modSubst (f : Subst → Subst) (s : State) : State := { s with far := { s.far with subst := s.far.subst.map f } }

/-- Once every step is done the state is loaded into the spare, which resumes (R444 steps 5 and 6). -/
def finishSubst (s : State) : State :=
  match s.far.subst with
  | none => s
  | some x =>
    match x.saved with
    | none => s
    | some a =>
      if x.halted ∧ x.written ∧ x.scanned ∧ x.powered then
        let k := x.core.val
        let cs := s.core k
        let held := decide ((s.stall cs.stall).state = .fenced) && decide (cs.stall ≠ 0)
        let c1 : CoreSt := { cs with arch := a, stopped := held, tlb := [], walkCache := [], specFill := [], returnStack := [], btb := [],
                                     l1i := [], l1d := [], frame := [], frameAt := none, frameRegs := [], direction := [], streamsL1 := [], streamsL2 := [] }
        let s1 := setTileDom x.spare .up (setTileDom x.source .down (s.setCore k c1))
        let s2 := { s1 with far := { s1.far with coreMap := s1.far.coreMap.set k x.spare, subst := none } }
        odBump 0x3000 0x13 (endRepair 0x03 0x01 (resource 0 x.source) { detail := k, target := some (resource 0 x.spare) } s2)
      else s

/-- The dirty lines of a failing tile that cannot be read are poisoned at their homes with a deferred record (R51, R444). -/
def poisonLine (inc : BitVec 32) (tile : Nat) (stop : Nat) (line : Nat) (s : State) : State :=
  match l2State s tile line with
  | none => s
  | some st =>
    let s1 := evictL2 {} tile line (quietRange (64 * line) 1 s)
    if st = .m ∨ st = .o then
      recordIn inc { kind := 0x03, cls := 1, resource := resource 0 stop, addr := 64 * line } (poisonSpan (line / 4) s1)
    else s1

/-- Every line of a tile goes to its home (R444 step 4). -/
def emptyTile (tile : Nat) (s : State) : State :=
  ((s.tile tile).l2.map (·.1)).foldl (fun t l => evictL2 {} tile l t) s

/-! ## Slice rehoming (R446) -/

/-- The slice that the home table gives an index (R262). -/
def homeEntry (s : State) (i : Nat) : Nat := Tbl.get s.coh.home i (i % 136)

/-- The active slice with the fewest entries, ties to the lower; `but` is left out. -/
def fewestSlice (s : State) (but : Nat) : Option Nat :=
  let counts := (List.range 4096).foldl (fun (a : Tbl Nat) i => let k := homeEntry s i
                                                               a.set k (Tbl.get a k 0 + 1)) []
  let live := (List.range 136).filter (fun k => decide (k ≠ but) && decide (odGet s (0x5101 + k) 0x01 = 0))
  live.foldl (fun b k => match b with
    | none => some k
    | some m => if Tbl.get counts k 0 < Tbl.get counts m 0 then some k else some m) none

/-- The entries of a slice, ascending. -/
def sliceEntries (s : State) (n : Nat) : List Nat := (List.range 4096).filter (fun i => decide (homeEntry s i = n))

/-- Rehoming begins: the slice enters REHOMING (R446 step 1). -/
def rehomeSteps (n : Nat) (inc : BitVec 32) (s : State) : State :=
  let s1 := odSet (0x5101 + n) 0x01 1 s
  { s1 with far := { s1.far with rehome := some { slice := n, entries := sliceEntries s n, incident := inc } } }

/-- A slice is to be rehomed (R443, R450). -/
def startRehome (n : Nat) (inc : BitVec 32) (s : State) : State :=
  let stop := tileStop n
  let live := (List.range 136).filter (fun k => decide (k ≠ n) && decide (odGet s (0x5101 + k) 0x01 = 0))
  if odGet s (0x5101 + n) 0x01 ≠ 0 ∧ (sliceEntries s n).isEmpty = true then s
  else if agentLost s (dieOf stop) ∨ live.isEmpty = true then
    recordIn inc { kind := 0x04, cls := 0, resource := resource 0 stop, action := 0x03, outcome := 4 } (takeIncident inc s)
  else
    let r : Repair := { action := 0x03, resource := BitVec.ofNat 16 (resource 0 stop), incident := inc, cls := 0,
                        uses := live.map (fun k => BitVec.ofNat 16 (resource 0 (tileStop k))), args := [n] }
    let b := beginRepair 0x04 r s
    if b.1 then rehomeSteps n inc b.2 else b.2

/-- A directory entry comes to its new home: into its way where that is free in its set, otherwise as a new entry of the stall that the
way serves (R359, R446; log entry 204). -/
def takeDir (w line : Nat) (d : DirEntry) (s : State) : State :=
  let h := homeSlice s (line / 4)
  let sl := s.slice h
  if sl.dirWay.any (fun x => decide (dirSet x.1 = dirSet line) && decide (x.2 = w)) then
    let n := ((s.stalls.map (·.1)).find? (fun n => (s.stall n).strictActive && natBit (odGet s (0x4100 + n) 0x22) w)).getD 0
    setDir line d (dirReplace { stall := n } line s)
  else setDir line d (s.setSlice h { sl with dirWay := sl.dirWay.set line w })

/-- One home-table entry moves to its new home: dirty sectors to memory, directory entries and waiting requests to the new slice (R446 step 2). -/
def moveEntry (n i target : Nat) (unreadable : List Nat) (inc : BitVec 32) (s : State) : State :=
  let mine := (s.slice n).sectors.filter (fun y => decide (homeIndex y.1 = i))
  let s1 := mine.foldl (fun t y =>
    if decide (y.2.dirty ≠ 0) && unreadable.contains y.1 then
      recordIn inc { kind := 0x04, cls := 1, resource := resource 0 (tileStop n), addr := 256 * y.1 } (dropSector y.1 (poisonMem y.1 t))
    else evictSector y.1 t) s
  let a := s1.slice n
  let b := s1.slice target
  let of (line : Nat) : Bool := decide (homeIndex (line / 4) = i)
  let ofReq (q : HomeReq) : Bool := of (q.req.pa.toNat / 64)
  let a' := { a with dir := a.dir.filter (fun x => !of x.1), dirWay := a.dirWay.filter (fun x => !of x.1), queue := a.queue.filter (fun q => !ofReq q) }
  let b' := { b with queue := b.queue ++ a.queue.filter ofReq }
  let s2 := (s1.setSlice n a').setSlice target b'
  (a.dir.filter (fun x => of x.1)).foldl (fun t x => takeDir (Tbl.get a.dirWay x.1 0) x.1 x.2 t)
    { s2 with coh := { s2.coh with home := s2.coh.home.set i target } }

/-- The slice is RETIRED once its last entry has moved (R446 step 3). -/
def retireSlice (n : Nat) (s : State) : State :=
  let s1 := odSet 0x5100 0x01 (odGet s 0x5100 0x01 &&& (2 ^ 136 - 1 - 2 ^ n)) (odSet (0x5101 + n) 0x01 2 s)
  let s2 := if h : n < 136 then setDom (.slice ⟨n, h⟩) .down s1 else s1
  endRepair 0x04 0x03 (resource 0 (tileStop n)) {} { s2 with far := { s2.far with rehome := none } }

/-! ## Groom pairs (R448) -/

def pairState (s : State) (g : Nat) : GroomState := if g = 0 then s.far.pair0 else s.far.pair1

def setPair (g : Nat) (x : GroomState) (s : State) : State :=
  { s with far := if g = 0 then { s.far with pair0 := x } else { s.far with pair1 := x } }

/-- A pair starts from ROM: its registers as at reset (R448, R459). -/
def pairFromRom (g : Nat) (s : State) : State := s.setRein g {}

/-- A pair fails (R448): the standby serves in its place; the loss of the last pair is R436. A pair that had failed before is retired. -/
def failPair (g : Nat) (inc : BitVec 32) (s0 : State) : State :=
  let was := pairState s0 g
  if s0.far.fatal ∨ was = .failed ∨ was = .retired then s0
  else
    let s := takeIncident inc s0
    let next : GroomState := if s.far.failedOnce.getLsbD g then .retired else .failed
    let s1 := setPair g next s
    let s2 := { s1 with far := { s1.far with failedOnce := s1.far.failedOnce ||| ((1 : BitVec 2) <<< g) } }
    let s3 := s2.setRein g { s2.reinOf g with stopped := true }
    let other := 1 - g
    if was = .standby then recordIn inc { kind := 0x0C, cls := 0, resource := resource 9 g } s3
    else if pairState s3 other = .standby then
      recordIn inc { kind := 0x0C, cls := 0, resource := resource 9 g, target := resource 9 other, action := 0x0E, outcome := 1 }
        (endTransfers (pairFromRom other (setPair other .serving s3)))
    else deviceFatal g inc s3

/-- The pair that serves. -/
def servingPair (s : State) : Option Nat :=
  if s.far.pair0 = .serving then some 0 else if s.far.pair1 = .serving then some 1 else none

/-! ## Status (R454, R455) -/

/-- Farrier repairs that run (R455). -/
def repairsRunning (s : State) : Nat := min 255 (s.far.running.length + (if s.far.walkRecovery then 1 else 0))

/-- Farrier repairs that run beside the migrations and row repairs of memory, which an entry into SLEEP or below counts against the memory controller
(R315, R415). -/
def otherRepairs (s : State) : Nat :=
  (s.far.running.filter (fun r => !(([0x05, 0x07, 0x08] : List (BitVec 8)).contains r.action))).length + (if s.far.walkRecovery then 1 else 0)

/-- SERVICE_STATE (R454). -/
def serviceState (s : State) : Nat :=
  let engines := ((List.range 8).filter (fun e => decide ((s.engine e).state = 0))).length
  let lostCh := s.mc.unreadable.length
  let p0 := s.far.pair0
  let p1 := s.far.pair1
  if s.far.offline ≠ 0 ∨ p0 = .retired ∨ p1 = .retired ∨ engines < 6 ∨ 0 < lostCh ∨ 24 ≤ s.ring.detours.length then 2
  else if s.far.spares.isEmpty ∨ p0 = .failed ∨ p1 = .failed ∨ engines < 8 ∨ s.mc.retired.isSome ∨ s.far.agents ≠ 0 then 1
  else 0

end Sys2Proof.Machine
end

