-- ==== Sys2Proof/Machine/Farrier.lean ====
section
/-! DEFINITION. The Farrier's rows: reports, the log, repairs, Groom pairs and Walk recovery (R433–R456). -/

namespace Sys2Proof.Machine

/-! ## Reports (R434, R443) -/

/-- A core has stopped on a double fault (R219): stall 0's core is substituted, a tenant's stall is fenced. -/
def reportStopped (k : Nat) (s : State) : State :=
  let n := coreStall s k
  let q := strike (resource 0 (coreStop s k)) s
  if n = 0 then startSubst k 2 q.1 q.2
  else
    let s1 := recordIn q.1 { kind := 0x03, cls := 2, resource := resource 0 (coreStop s k), cause := 2, stall := n, detail := k }
      (takeIncident q.1 q.2)
    containedAt q.1 n (some k) s1

/-- An uncorrectable error in a slice's arrays: SLICE_UE_LIMIT of them rehome it (R443). -/
def reportSlice (n : Nat) (s : State) : State :=
  let q := strike (resource 0 (tileStop n)) s
  let c := Tbl.get s.far.sliceUe n 0 + 1
  let s1 := recordIn q.1 { kind := 0x04, cls := 1, resource := resource 0 (tileStop n) } (takeIncident q.1 q.2)
  let s2 := { s1 with far := { s1.far with sliceUe := s1.far.sliceUe.set n c } }
  if odGet s 0x3000 0x09 ≤ c then startRehome n q.1 s2 else s2

/-- An ENGINE_FAULT event: recorded, contained for its stall, and counted toward RETIRE_LIMIT (R84, R85). -/
def reportEngine (e n : Nat) (s : State) : State :=
  let q := strike (resource 7 e) s
  let s1 := recordIn q.1 { kind := 0x08, cls := 2, resource := resource 7 e, cause := 4, stall := n } (takeIncident q.1 q.2)
  let s2 := containedAt q.1 n none s1
  if odGet s 0x7000 0x06 ≤ (s.engine e).faultsHour then retireEngine e 3 0 0 s2 else s2

/-- A spare tile is struck (R445, R450, R456): during its own power-up the next spare is tried; later its substitution is aborted. -/
def reportSpare (stop : Nat) (s : State) : State :=
  match s.far.subst with
  | some x =>
    if x.spare ≠ stop then spareFailed stop s
    else if x.powered then spareFailed stop (abortRepair { action := 0x01, resource := 0, incident := x.incident, cls := 2 } s)
    else substSteps x.core.val x.cause.toNat x.incident (spareFailed stop s)
  | none => spareFailed stop s

/-- A parity error in a core's TLB or walk cache drops the entry, so that the walk runs again from memory, and is counted as corrected (R328, R341,
R434). -/
def reportParity (k : Nat) (walkCache : Bool) (i : Nat) (s : State) : State :=
  let cs := s.core k
  record { kind := 0x03, cls := 0, resource := resource 0 (coreStop s k), stall := cs.stall, detail := k }
    (odBump (0x5020 + coreStop s k / 72) 0x07
      (s.setCore k (if walkCache then { cs with walkCache := cs.walkCache.eraseIdx i } else { cs with tlb := cs.tlb.eraseIdx i })))

/-- What a unit reports, by its kind (R433, R434, R443). -/
def report (r : Report) (s : State) : State :=
  match r with
  | .coreArray k => let q := strike (resource 0 (coreStop s k)) s
                    startSubst k.val 1 q.1 q.2
  | .coreStopped k => if (s.core k.val).stopped then reportStopped k.val s else s
  | .sliceArray n => reportSlice n.val s
  | .directoryArray n => let q := strike (resource 0 (tileStop n)) s
                         startRehome n.val q.1 q.2
  | .engineFault e n => reportEngine e.val n.val s
  | .agentFailed d =>
    record { kind := 0x0F, cls := 0 } { s with far := { s.far with agents := s.far.agents ||| ((1 : BitVec 2) <<< d.val) } }
  | .unit kind cls ty index stall core =>
    let res := resource ty.val index.toNat
    let q := strike res s
    let s1 := recordIn q.1 { kind := kind, cls := BitVec.ofNat 2 cls.val, resource := res, stall := stall.val } (takeIncident q.1 q.2)
    if cls.val = 2 then containedAt q.1 stall.val (core.map (·.val)) s1 else s1
  | .spareTile t => reportSpare (tileStop t) s
  | .retrainFail c => startRetirement c.val (strike (resource 3 c.val) s).2
  | .hostLane quad lane => startHostLane quad.val lane.val s
  | .tlbParity k w i => reportParity k.val w i.toNat s
  | .tackArray c line ue => reportTackCache c.val line ue s

/-- FAULT_REPORT: nothing is heard once the last Groom pair is lost (R434, R436). A report aborts an entry into a low-power state (R417, R456). -/
def execFaultReport (r : Report) (s : State) : Answer :=
  if s.far.fatal then .next s else .next (report r s)

/-- CONTEXT_SRAM_UE: the record is lost; a context that is not FREE is FENCED, its stall is fenced, and the engine is retired (R84, R434). -/
def execContextSramUe (e : EngineId) (c : CtxId) (s : State) : Answer :=
  let n := c.toNat
  let x := s.ctx n
  if ctxEngine s n ≠ e.val ∨ x.spilled then .next s
  else if x.state = .free then .next (retireEngine e.val 1 0 0 (s.setCtx n { engine := x.engine }))
  else 
    let inc := nextIncident s
    .next (containedAt inc x.stall.toNat none (takeIncident inc (retireEngine e.val 1 2 x.stall.toNat (fenceCtx n 0x13 s))))

/-! ## The log (R441) -/

/-- Copy every staged entry to the saddlebag, which keeps the newest 349,525 (R441). -/
def saveLog (s : State) : State :=
  let l := s.far.log.map (fun e => { e with saved := true })
  { s with far := { s.far with log := l.drop (l.length - 349525) } }

/-- LOG_SAVE: the second's copy; sixty make the minute of the rate limit (R441). -/
def execLogSave (s : State) : Answer :=
  let s1 := saveLog s
  let n := s1.far.saves + 1
  .next { s1 with far := { s1.far with saves := n % 60, minute := if n % 60 = 0 then [] else s1.far.minute } }

/-! ## Core substitution -/

/-- The behaviour of OD 0x3000.18 (R455). -/
def writeSubstitute (path : Path) (v : Nat) (s : State) : State :=
  let k := v % 128
  let running := match s.far.subst with | some x => decide (x.core.val = k) | none => false
  if s.far.offline.getLsbD k then pathSet path 0x3000 0x0F resDenied s
  else if running then pathSet path 0x3000 0x0F resBusy s
  else
    let q := strike (resource 0 (coreStop s k)) s
    startSubst k 5 q.1 (pathSet path 0x3000 0x0F resOk q.2)

/-- SUBSTITUTE_REQUEST. -/
def execSubstituteRequest (path : Path) (k : CoreId) (s : State) : Answer :=
  .next (odWriteNat path 0x3000 0x18 k.val (writeSubstitute path k.val) s)

/-- One step of a substitution ends (R444). Lines are written back and state scanned out only from a halted core; a halt waits for the
stores the core has retired. -/
def substStep (st : SubstStep) (x : Subst) (s : State) : State :=
  let k := x.core.val
  match st with
  | .halted =>
    match drainStores k s with
    | none => s
    | some s1 => modSubst (fun y => { y with halted := true }) (s1.setCore k { s1.core k with stopped := true })
  | .writtenBack bad =>
    if x.halted then
      let tile := coreTile s k
      let s1 := bad.foldl (fun t a => poisonLine x.incident tile x.source (a.toNat / 64) t) s
      finishSubst (modSubst (fun y => { y with written := true }) (emptyTile tile s1))
    else s
  | .scannedOut clean =>
    if !x.halted then s
    else if clean then finishSubst (modSubst (fun y => { y with scanned := true, saved := some (s.core k).arch }) s)
    else abortSubst s
  | .powered ok =>
    if ok then finishSubst (modSubst (fun y => { y with powered := true }) s)
    else substSteps k x.cause.toNat x.incident (modSubst (fun y => { y with powered := false }) (spareFailed x.spare s))

/-- SUBSTITUTION_STEP_DONE. -/
def execSubstitutionStepDone (st : SubstStep) (s : State) : Answer :=
  match s.far.subst with
  | none => .next s
  | some x => .next (substStep st x s)

/-- DL_SUBST_EXPIRY (R451, R452). -/
def execDlSubstExpiry (s : State) : Answer :=
  match s.far.subst with
  | none => .next s
  | some x =>
    let s1 := odBump 0x3000 0x14 (odBump 0x3000 0x11 s)
    .next (abortSubst (recordIn x.incident { kind := 0x0A, cls := 2, resource := resource 0 x.source, detail := 4 } s1))

/-! ## Rehoming and the repair queue -/

/-- Whether a transaction of a home-table entry is in progress at its slice (R446, R287). -/
def entryBusy (s : State) (n i : Nat) : Bool :=
  (s.slice n).busy.any (fun t => t.lines.any (fun l => decide (homeIndex (l / 4) = i)))

/-- REHOME_ENTRY_DONE: the next entry in order has been moved; after the last the slice retires (R446). -/
def execRehomeEntryDone (unreadable : List (BitVec 52)) (s : State) : Answer :=
  match s.far.rehome with
  | none => .next s
  | some x =>
    match x.entries with
    | [] => .next (retireSlice x.slice s)
    | i :: rest =>
      if entryBusy s x.slice i then .next s
      else
        let s1 := match fewestSlice s x.slice with
          | some t => moveEntry x.slice i t (unreadable.map (fun (a : BitVec 52) => a.toNat / 256)) x.incident s
          | none => s
        let s2 := { s1 with far := { s1.far with rehome := some { x with entries := rest } } }
        .next (if rest.isEmpty then retireSlice x.slice s2 else s2)

/-- The steps of a repair that has waited begin. -/
def startSteps (r : Repair) (s : State) : State :=
  let i := r.resource.toNat % 4096
  match r.action.toNat with
  | 0x01 => substSteps (r.args.getD 0 0) r.cause.toNat r.incident s
  | 0x03 => rehomeSteps (r.args.getD 0 0) r.incident s
  | 0x05 => spprSteps (i / 8) r.args s
  | 0x07 => if (s.channel (i / 8)).spare = 1 then sparingSteps (i / 8) (i % 8) s else endRepair 0x02 0x07 r.resource.toNat { outcome := 4 } s
  | 0x08 => if s.mc.retired.isNone then retirementSteps i s else endRepair 0x02 0x08 r.resource.toNat { outcome := 4 } s
  | 0x0B => hostLaneSteps (i / 5) (i % 5) s
  | 0x0C => startRetire i s
  | _ => s

/-- REPAIR_QUEUE_ADVANCE: the oldest queued repair of an action starts where none of it runs (R450). -/
def execRepairQueueAdvance (action : BitVec 8) (s : State) : Answer :=
  if mustWait s action then .next s
  else match s.far.queued.find? (fun r => decide (r.action = action)) with
    | none => .next s
    | some r =>
      .next (startSteps r (decideAgain action { s with far := { s.far with running := s.far.running ++ [r], queued := s.far.queued.erase r } }))

/-! ## Groom pairs (R448, R458–R460) -/

/-- GROOM_MISCOMPARE. -/
def execGroomMiscompare (g : PairId) (s : State) : Answer := .next (failPair g.val (nextIncident s) s)

/-- DL_GROOM_EXPIRY: the watchdog is suspended in DEEP (R452, R460). -/
def execDlGroomExpiry (s : State) : Answer :=
  match servingPair s with
  | none => .next s
  | some g =>
    if s.side.wdogRunning ∧ s.pwr.state ≠ .deep then
      let inc := nextIncident s
      let s1 := recordIn inc { kind := 0x0A, cls := 0, resource := resource 9 g, detail := 7 } (allocIncident (odBump 0x3000 0x12 s))
      .next (failPair g inc s1)
    else .next s

/-- STB_WDOG_WRITE: any value restarts DL_GROOM (R460). -/
def restartWdog (s : State) : State := if s.pwr.state = .deep then s else { s with side := { s.side with wdogRunning := true } }

def execStbWdogWrite (s : State) : Answer := .next (restartWdog s)

/-- A failed pair's self-test (R448): passing it becomes standby, or serving if no other serves; failing again it is retired. -/
def retestPair (g : Nat) (pass : Bool) (s : State) : State :=
  if pairState s g ≠ .failed ∨ s.far.fatal then s
  else if pass then pairFromRom g (setPair g (if (servingPair s).isNone then .serving else .standby) s)
  else record { kind := 0x0C, cls := 0, resource := resource 9 g, outcome := 3 } (setPair g .retired s)

/-- GROOM_RETEST. -/
def execGroomRetest (g : PairId) (pass : Bool) (s : State) : Answer := .next (retestPair g.val pass s)

/-- A day of service has passed: the 24 hours of SLICE_UE_LIMIT and of a device's and a row's corrected errors start again (R296, R306, R443;
log entry 36). -/
def dayPasses (s : State) : State :=
  { s with far := { s.far with sliceUe := [] },
           mc := { s.mc with channels := s.mc.channels.map (fun x => (x.1, { x.2 with deviceCe := [], deviceBanks := [], rowCe := [] })) } }

/-- The hour passes: hours in service, the hour of RETIRE_LIMIT, and every 24th the day (R85, R443, R455). -/
def hourPasses (s : State) : State :=
  let s0 := { s with far := { s.far with hours := s.far.hours + 1 } }
  let s1 := if s0.far.hours.toNat % 24 = 0 then dayPasses s0 else s0
  (List.range 8).foldl (fun t e => t.setEngine e { t.engine e with faultsHour := 0 }) s1

/-- STANDBY_SELFTEST: once every hour; a failure marks the standby pair failed (R459). -/
def execStandbySelftest (pass : Bool) (s : State) : Answer :=
  let s1 := hourPasses s
  let g := if s.far.pair0 = .standby then some 0 else if s.far.pair1 = .standby then some 1 else none
  match g with
  | some g => .next (if pass then s1 else failPair g (nextIncident s1) s1)
  | none => .next s1

/-! ## Walk recovery (R449) -/

/-- Walk recovery starts or ends, with its record (R346, R361, R449). -/
def setWalkRecovery (b : Bool) (s : State) : State :=
  let s1 := { s with far := { s.far with walkRecovery := b } }
  evalStalls (record { kind := 0x10, cls := 0, action := 0x10, outcome := if b then 0 else 1 } s1)

/-- The behaviour of OD 0x3000.0E. -/
def writeWalk (path : Path) (v : Nat) (s : State) : State :=
  if decide (v = 1) = s.far.walkRecovery then pathSet path 0x3000 0x0F resDenied s
  else setWalkRecovery (decide (v = 1)) (pathSet path 0x3000 0x0F resOk s)

/-- WALK_RECOVERY_START. -/
def execWalkRecoveryStart (path : Path) (s : State) : Answer := .next (odWriteNat path 0x3000 0x0E 1 (writeWalk path 1) s)

/-- WALK_RECOVERY_END. -/
def execWalkRecoveryEnd (path : Path) (s : State) : Answer := .next (odWriteNat path 0x3000 0x0E 2 (writeWalk path 2) s)

/-- WALK_RECOVERY_TIMEOUT. -/
def execWalkRecoveryTimeout (s : State) : Answer := .next (if s.far.walkRecovery then setWalkRecovery false s else s)

end Sys2Proof.Machine
end

