-- ==== Sys2Proof/Machine/ReinOps.lean ====
section
/-! DEFINITION. What the rein instructions share: the Groom cores' memory map, exceptions, delay slots and operands (R252–R258, R461, R462). -/

namespace Sys2Proof.Machine

/-- An exception of a rein instruction (R214, R257); with `next`, the instruction has completed. -/
structure RExc where
  code : Nat
  next : Bool := false
  eaddr : Nat := 0
  fetch : Bool := false
  write : Bool := false
  upper : Bool := false
  tag : Tag := .uninit
  einfo : Nat := 0
deriving DecidableEq, Repr

/-- What stops a rein instruction: an exception, or a home that is busy with its line. -/
inductive RStop where
  | exc (x : RExc)
  | wait
deriving DecidableEq, Repr

/-- A rein instruction in progress. -/
abbrev RM (α : Type) := ExceptT RStop (StateM State) α

def rRaise {α : Type} (x : RExc) : RM α := throw (.exc x)

/-! ## The memory map (R461) -/

/-- Regions of the Groom cores' map; a gateway address carries its physical address. -/
inductive RRegion where
  | rom | sram | regs | bag
  | gateway (pa : Nat)
deriving DecidableEq, Repr

/-- The region of a rein address; none outside the map, and none where the gateway reaches an absent physical address (R317, R461). -/
def rRegion (s : State) (a : Nat) : Option RRegion :=
  if a < 0x40000 then some .rom
  else if 0x100000 ≤ a ∧ a < 0x180000 then some .sram
  else if 0x200000 ≤ a ∧ a < 0x210000 then some .regs
  else if 0x1000000 ≤ a ∧ a < 0x5000000 then some .bag
  else if 2 ^ 63 ≤ a ∧ a < 2 ^ 63 + 2 ^ 52 then
    (if region s (a - 2 ^ 63) = .absent then none else some (.gateway (a - 2 ^ 63)))
  else none

/-- Whether an access of a region has side effects (R317, R461). -/
def rSide (s : State) (r : RRegion) : Bool :=
  match r with
  | .regs => true
  | .gateway pa => decide (region s pa = .device)
  | _ => false

/-- Check one address against the map (R461): its region, or the exception. -/
def rCheck (a : Nat) (fetch write upper : Bool) : RM RRegion := do
  match rRegion (← get) a with
  | none => rRaise { code := 8, eaddr := a, fetch := fetch, write := write, upper := upper }
  | some r =>
    let ok := match r with
      | .rom => !write
      | .sram => true
      | .regs => !fetch
      | .bag => !write && !fetch
      | .gateway _ => !fetch
    if ok then return r else rRaise { code := 9, eaddr := a, fetch := fetch, write := write, upper := upper }

/-- Check an access: both halves where it crosses a 64-byte line, and the alignment that side effects ask for (R223, R462). -/
def rAccess (a size : Nat) (write : Bool) : RM Unit := do
  let lo ← rCheck a false write false
  let up := (64 * (a / 64 + 1)) % 2 ^ 64
  if crosses a size then
    let hi ← rCheck up false write true
    if rSide (← get) hi ∧ a % size ≠ 0 then rRaise { code := 3, eaddr := a, write := write }
  if rSide (← get) lo ∧ a % size ≠ 0 then rRaise { code := 3, eaddr := a, write := write }

/-- One byte that needs no side effect: ROM, stable SRAM, the saddlebag's identity region, normal memory; its tag is that of the word.
Other bytes of the saddlebag are free (log entry 78). -/
def rByte (s : State) (a : Nat) : Byte × Tag :=
  match rRegion s a with
  | some .rom => (Config.romByte a, .int)
  | some .sram => (Tbl.get s.sram (a - 0x100000) 0, .int)
  | some .bag =>
    let o := a - 0x1000000
    (if o < 0x100000 then Config.flashByte o else (freeValue { s with free := s.free + o % 64 }).truncate 8, .int)
  | some (.gateway pa) =>
    let t := readWord s (pa / 8)
    (if t.tag = .uninit then 0 else wordByte t.data (pa % 8), t.tag)
  | _ => (0, .int)

/-- The agent that gateway accesses are made for: stall 0 (R461). -/
def rAttr : Attr := { stall := 0, agent := 0 }

/-- A word of the gateway is busy at its home, or a domain on its way is not up (R269, R418). -/
def rBusy (s : State) (a size : Nat) : Bool :=
  [a, a + size - 1].any (fun x => match rRegion s x with
    | some (.gateway pa) => decide (region s pa = .normal) && (lineBusy s 0 (pa / 64) || !pathUp s 0 (pa / 64))
    | _ => false)

/-- The gateway access waits, and wakes what sleeps on its way. -/
def rWait (a size : Nat) : RM Unit := do
  modify (fun s => [a, a + size - 1].foldl (fun t x => match rRegion t x with
    | some (.gateway pa) => if region t pa = .normal then wakePath 0 (pa / 64) t else t
    | _ => t) s)
  throw .wait

/-- Clean the private copies of the lines that a gateway read touches (R265: RD_UC). -/
def rTouch (a size : Nat) (s : State) : State :=
  [a, a + size - 1].foldl (fun t x => match rRegion t x with
    | some (.gateway pa) => if region t pa = .normal then cleanLine rAttr (pa / 64) (lookup (pa / 64) t) else t
    | _ => t) s

/-- Load `size` bytes (R258, R461). A stable register other than those the spec names, and the saddlebag outside its identity region,
read a free value (log entry 78). -/
def rLoad (a size : Nat) : RM Word := do
  rAccess a size false
  let s ← get
  match rRegion s a with
  | some .regs =>
    modify State.took
    return BitVec.ofNat 64 ((freeValue s).toNat % 2 ^ (8 * size))
  | some (.gateway pa) =>
    if region s pa = .device then return BitVec.ofNat 64 ((deviceRead s 0 pa size).toNat % 2 ^ (8 * size))
    else
      if rBusy s a size then rWait a size
      set (rTouch a size s)
      let s1 ← get
      let bs := (List.range size).map (fun i => rByte s1 (a + i))
      match ((List.range size).zip bs).find? (fun x => decide (x.2.2 = .poison)) with
      | some x =>
        rRaise { code := 5, eaddr := (a + x.1) / 8 * 8, tag := .poison, upper := decide ((a + x.1) / 64 ≠ a / 64) }
      | none => return wordOfBytes (bs.map (·.1))
  | _ =>
    let bs := (List.range size).map (fun i => rByte s (a + i))
    if (match rRegion s a with | some .bag => true | _ => false) then modify (fun t => { t with free := t.free + 64 })
    return wordOfBytes (bs.map (·.1))

/-- Store bytes that the map lets through (R258, R461): a store of normal memory writes the tag INT; a write of STB_WDOG restarts the
watchdog; what other stable registers do is not stated. -/
def rPut (a : Nat) (bs : List Byte) (s : State) : State :=
  match rRegion s a with
  | some .sram => (List.range bs.length).foldl (fun t i => { t with sram := canonSet 0 t.sram (a - 0x100000 + i) (bs.getD i 0) }) s
  | some .regs => if a = 0x200000 then restartWdog s else s
  | some (.gateway pa) =>
    if region s pa = .device then deviceWrite 0 pa bs.length (wordOfBytes bs) s
    else dmaWriteBytes rAttr pa bs .int 3 s
  | _ => s

/-- Store `size` bytes of a register. -/
def rStore (a size : Nat) (v : Word) : RM Unit := do
  rAccess a size true
  if rBusy (← get) a size then rWait a size
  modify (rPut a ((wordBytes v).take size))

/-! ## Registers and exceptions (R252, R257) -/

/-- Numbers of COPY and of load delays: 0 A, 1 X, 2 Y, 3 SP (R254). -/
def ReinSt.reg (g : ReinSt) (n : Nat) : Word :=
  match n with | 0 => g.a | 1 => g.x | 2 => g.y | _ => g.sp

def ReinSt.setReg (g : ReinSt) (n : Nat) (v : Word) : ReinSt :=
  match n with | 0 => { g with a := v } | 1 => { g with x := v } | 2 => { g with y := v } | _ => { g with sp := v }

/-- A delayed load writes its register (R255). -/
def ReinSt.land (g : ReinSt) (l : Option (Fin 3 × Word)) : ReinSt :=
  match l with | some (n, v) => g.setReg n.val v | none => g

/-- Control goes to an address. -/
def ReinSt.jump (g : ReinSt) (pc npc : Word) : ReinSt :=
  { g with pc := pc &&& ~~~(3 : Word), npc := npc &&& ~~~(3 : Word), slot := decide (npc ≠ pc + 4) }

/-- A rein exception (R257): ESW, EPC, ENPC, ECAUSE, EADDR and EINFO are written and the handler is entered; with EXL set the pair stops
and fails. -/
def rTake (g : Nat) (x : RExc) (epc enpc : Word) (s : State) : State :=
  let r := s.reinOf g
  if swExl r.sw then failPair g (nextIncident s) (s.setRein g { r with stopped := true })
  else
    let entry := r.vbr + BitVec.ofNat 64 (0x40 * x.code)
    let cause := BitVec.ofNat 64 (x.code + (if x.fetch then 2 ^ 8 else 0) + (if x.write then 2 ^ 9 else 0) + (if x.upper then 2 ^ 12 else 0) +
      x.tag.code.toNat * 2 ^ 13)
    let r1 : ReinSt := { r with esw := r.sw, epc := epc, enpc := enpc, ecause := cause, eaddr := BitVec.ofNat 64 x.eaddr,
                                einfo := BitVec.ofNat 64 x.einfo, sw := setBit (setBit r.sw 10 false) 11 true, waiting := false }
    s.setRein g (r1.jump entry (entry + 4))

/-- Whether a pair executes instructions: it is not failed or retired, has not stopped, and the device is not in DEEP or OFF (R413, R448). -/
def pairRuns (s : State) (g : Nat) : Bool :=
  (decide (pairState s g = .serving) || decide (pairState s g = .standby)) && !(s.reinOf g).stopped && !s.far.fatal &&
    decide (s.pwr.state ≠ .deep) && decide (s.pwr.state ≠ .off) && decide (s.boot.phase ≠ .reset)

/-- Whether a pair takes an interrupt before its next instruction: IE is 1, a source is deliverable, and no slot is due (R255–R257, R401). -/
def rInterrupt (s : State) (g : Nat) : Bool :=
  let r := s.reinOf g
  (winner s (.pair g)).isSome && swIe r.sw && !r.slot && r.load.isNone

/-- What a rein instruction does to control: the next two addresses and whether the next instruction is a branch delay slot. -/
structure RNext where
  pc : Word
  npc : Word
  slot : Bool := false
deriving DecidableEq, Repr

/-- The flow of an instruction that does not branch. -/
def rSeq (r : ReinSt) : RNext := { pc := r.npc, npc := r.npc + 4, slot := false }

/-- A delayed branch: the slot, then the target (R256). -/
def rBranch (r : ReinSt) (target : Word) : RNext := { pc := r.npc, npc := target, slot := true }

/-- What an encoding uses of the general registers beside memory: those it reads or writes, as numbers 0–3 (R255). -/
abbrev Uses := List Nat

/-- The base register of a mode (R253). -/
def rBase (mode : Nat) : Nat := mode

/-- The registers an operand mode reads. -/
def modeUses (m : BitVec 2) : Uses := if m = 0 then [] else [rBase m.toNat]

/-- FIELD as a signed number. -/
def rDisp (i : Rein) : Word := i.field.signExtend 64

/-- The address of a memory operand. -/
def rAddr (i : Rein) (r : ReinSt) : Nat := (r.reg (rBase i.mode.toNat) + rDisp i).toNat

/-- A source operand: the immediate, or memory (R253). -/
def rOperand (i : Rein) (size : Nat) (r : ReinSt) : RM Word :=
  if i.mode = 0 then pure (rDisp i) else rLoad (rAddr i r) size

/-- Change a pair's registers. -/
def rSet (g : Nat) (f : ReinSt → ReinSt) : RM Unit := modify (fun s => s.setRein g (f (s.reinOf g)))

/-- A delayed load: the register is written at the end of the next instruction (R255). An immediate is written at once. -/
def rDelay (i : Rein) (n : Fin 3) (v : Word) : RM Unit :=
  rSet i.pair.val (fun r => if i.mode = 0 then r.setReg n.val v else { r with load := some (n, v) })

/-- Set C, Z, N and V of the rein status word from a result (R252). -/
def rFlags (i : Rein) (f : FlagSet) : RM Unit := rSet i.pair.val (fun r => { r with sw := f.apply r.sw })

/-- The end of a rein instruction (R255, R256): the load of the instruction before lands, and control moves on. -/
def rRetire (g : Nat) (old : Option (Fin 3 × Word)) (n : RNext) (s : State) : State :=
  let r := s.reinOf g
  s.setRein g { r.land old with pc := n.pc &&& ~~~(3 : Word), npc := n.npc &&& ~~~(3 : Word), slot := n.slot }

/-- Execute one rein instruction (R252–R258): the fetch check; ILLEGAL for an encoding that is not legal, for a branch in a slot and for a
register whose load is still due; then its effect. An interrupt that is deliverable at the boundary is taken in its place. -/
def runRein (i : Rein) (legal branch : Bool) (uses : Uses) (body : ReinSt → RM RNext) (s : State) : Answer :=
  let g := i.pair.val
  let r := s.reinOf g
  if !pairRuns s g then .next s
  else if rInterrupt s g then .next (rTake g { code := 0x20 } r.pc r.npc s)
  else if r.waiting && (winner s (.pair g)).isNone then .next s
  else
    let s0 := s.setRein g { r with waiting := false, load := none }
    let due := match r.load with | some (n, _) => uses.contains n.val | none => false
    let go : RM RNext := do
      let _ ← rCheck r.pc.toNat true false false
      if !legal || due || (branch && r.slot) then rRaise { code := 1, eaddr := r.pc.toNat }
      body { r with load := none }
    match go.run s0 with
    | (.ok n, s1) => .next (rRetire g r.load n s1)
    | (.error .wait, s1) => .next { s with pwr := { s.pwr with domains := s1.pwr.domains } }
    | (.error (.exc x), s1) =>
      let s2 := s1.setRein g ((s1.reinOf g).land r.load)
      .next (if x.next then rTake g x r.npc (r.npc + 4) s2 else rTake g x r.pc r.npc s2)

/-- A legal encoding with an operand in modes 0–3: the modes table of R254 permits all. -/
def anyMode (_ : Rein) : Bool := true
/-- A memory operand is required: modes 1–3. -/
def memMode (i : Rein) : Bool := decide (i.mode ≠ 0)
/-- Mode 0 with a whole immediate. -/
def immMode (i : Rein) : Bool := decide (i.mode = 0)
/-- Mode 0 with a subfield of `w` bits; the other bits are reserved (R253). -/
def subField (i : Rein) (w : Nat) : Bool := decide (i.mode = 0) && decide (i.field.toNat < 2 ^ w)

end Sys2Proof.Machine
end

