-- ==== Sys2Proof/Machine/Rein.lean ====
section
/-! DEFINITION. The rein instructions (R252–R258). -/

namespace Sys2Proof.Machine

/-- NOP. -/
def execReinNop (i : Rein) (s : State) : Answer := runRein i (subField i 0) false [] (fun r => pure (rSeq r)) s

/-! ## Loads and stores (R254, R255) -/

/-- A load opcode: `size` bytes into register `n`. -/
def rGet (i : Rein) (n : Fin 3) (size : Nat) (r : ReinSt) : RM RNext := do
  let v ← rOperand i size r
  rDelay i n v
  return rSeq r

/-- A store opcode: the low `size` bytes of a register. -/
def rPutReg (i : Rein) (n size : Nat) (r : ReinSt) : RM RNext := do
  rStore (rAddr i r) size (r.reg n)
  return rSeq r

/-- GETA. -/
def execReinGeta (i : Rein) (s : State) : Answer := runRein i (anyMode i) false (0 :: modeUses i.mode) (rGet i 0 8) s

/-- GETX. -/
def execReinGetx (i : Rein) (s : State) : Answer := runRein i (anyMode i) false (1 :: modeUses i.mode) (rGet i 1 8) s

/-- GETY. -/
def execReinGety (i : Rein) (s : State) : Answer := runRein i (anyMode i) false (2 :: modeUses i.mode) (rGet i 2 8) s

/-- GETB. -/
def execReinGetb (i : Rein) (s : State) : Answer := runRein i (memMode i) false (0 :: modeUses i.mode) (rGet i 0 1) s

/-- GETW. -/
def execReinGetw (i : Rein) (s : State) : Answer := runRein i (memMode i) false (0 :: modeUses i.mode) (rGet i 0 4) s

/-- PUTA: mode 0 takes ILLEGAL. -/
def execReinPuta (i : Rein) (s : State) : Answer := runRein i (memMode i) false (0 :: modeUses i.mode) (rPutReg i 0 8) s

/-- PUTX: mode 0 takes ILLEGAL. -/
def execReinPutx (i : Rein) (s : State) : Answer := runRein i (memMode i) false (1 :: modeUses i.mode) (rPutReg i 1 8) s

/-- PUTY: mode 0 takes ILLEGAL. -/
def execReinPuty (i : Rein) (s : State) : Answer := runRein i (memMode i) false (2 :: modeUses i.mode) (rPutReg i 2 8) s

/-- PUTB: mode 0 takes ILLEGAL. -/
def execReinPutb (i : Rein) (s : State) : Answer := runRein i (memMode i) false (0 :: modeUses i.mode) (rPutReg i 0 1) s

/-- PUTW: mode 0 takes ILLEGAL. -/
def execReinPutw (i : Rein) (s : State) : Answer := runRein i (memMode i) false (0 :: modeUses i.mode) (rPutReg i 0 4) s

/-! ## Arithmetic (R227, R254) -/

/-- A ← A op operand, with the flags of R227. -/
def rAlu (i : Rein) (op : Alu) (r : ReinSt) : RM RNext := do
  let y ← rOperand i 8 r
  let z := alu op 64 r.a.toNat y.toNat false false
  rSet i.pair.val (fun g => { g with a := BitVec.ofNat 64 z.val })
  rFlags i z.flags
  return rSeq r

/-- ADD. -/
def execReinAdd (i : Rein) (s : State) : Answer := runRein i (anyMode i) false (0 :: modeUses i.mode) (rAlu i .add) s

/-- SUB. -/
def execReinSub (i : Rein) (s : State) : Answer := runRein i (anyMode i) false (0 :: modeUses i.mode) (rAlu i .sub) s

/-- AND. -/
def execReinAnd (i : Rein) (s : State) : Answer := runRein i (anyMode i) false (0 :: modeUses i.mode) (rAlu i .and) s

/-- OR. -/
def execReinOr (i : Rein) (s : State) : Answer := runRein i (anyMode i) false (0 :: modeUses i.mode) (rAlu i .or) s

/-- XOR. -/
def execReinXor (i : Rein) (s : State) : Answer := runRein i (anyMode i) false (0 :: modeUses i.mode) (rAlu i .xor) s

/-- CMP: the flags of A − operand. -/
def execReinCmp (i : Rein) (s : State) : Answer :=
  runRein i (anyMode i) false (0 :: modeUses i.mode) (fun r => do
    let y ← rOperand i 8 r
    rFlags i (alu .sub 64 r.a.toNat y.toNat false false).flags
    return rSeq r) s

/-- A shift of A by FIELD[5:0]; by zero C takes a free bit (log entry 8). -/
def rShift (i : Rein) (op : Alu) (r : ReinSt) : RM RNext := do
  let k := i.field.toNat % 64
  let free := (freeValue (← get)).getLsbD 0
  if k = 0 then modify State.took
  let z := alu op 64 r.a.toNat k false free
  rSet i.pair.val (fun g => { g with a := BitVec.ofNat 64 z.val })
  rFlags i z.flags
  return rSeq r

/-- SHL. -/
def execReinShl (i : Rein) (s : State) : Answer := runRein i (subField i 6) false [0] (rShift i .shl) s

/-- SHR. -/
def execReinShr (i : Rein) (s : State) : Answer := runRein i (subField i 6) false [0] (rShift i .shr) s

/-- A base register += FIELD; STEPX and STEPY set Z and N. -/
def rStep (i : Rein) (n : Nat) (flags : Bool) (r : ReinSt) : RM RNext := do
  let v := r.reg n + rDisp i
  rSet i.pair.val (fun g => g.setReg n v)
  if flags then rFlags i (zn 64 v.toNat)
  return rSeq r

/-- STEPX. -/
def execReinStepx (i : Rein) (s : State) : Answer := runRein i (immMode i) false [1] (rStep i 1 true) s

/-- STEPY. -/
def execReinStepy (i : Rein) (s : State) : Answer := runRein i (immMode i) false [2] (rStep i 2 true) s

/-- STEPSP. -/
def execReinStepsp (i : Rein) (s : State) : Answer := runRein i (immMode i) false [3] (rStep i 3 false) s

/-- COPY: FIELD[3:0] destination, FIELD[7:4] source. -/
def execReinCopy (i : Rein) (s : State) : Answer :=
  let d := natField i.field.toNat 0 4
  let y := natField i.field.toNat 4 4
  runRein i (subField i 8 && decide (d < 4) && decide (y < 4)) false [d, y] (fun r => do
    rSet i.pair.val (fun g => g.setReg d (r.reg y))
    return rSeq r) s

/-! ## Control (R256) -/

/-- DISP of Bcc and CALLD: target = branch address + 4 + 4 × DISP (R253). -/
def rTarget (i : Rein) (r : ReinSt) : Word := r.pc + 4 + 4 * ((i.field.setWidth 21).signExtend 64)

/-- The condition of Bcc: bits [24:21]; 14 is ALWAYS (R253). -/
def rCond (i : Rein) : Nat := 8 * (i.mode.toNat % 2) + natField i.field.toNat 21 3

/-- Where a Bcc goes (R256): an annulled slot is passed over; with ALWAYS and ANNUL it is passed over although the branch is taken. -/
def rBcc (taken annul always : Bool) (target : Word) (r : ReinSt) : RNext :=
  if taken then
    (if annul && always then { pc := target, npc := target + 4 } else rBranch r target)
  else if annul then { pc := r.npc + 4, npc := r.npc + 8 }
  else { pc := r.npc, npc := r.npc + 4, slot := true }

/-- Bcc. -/
def execReinBcc (i : Rein) (s : State) : Answer :=
  let c := rCond i
  runRein i (decide (c ≠ 15)) true [] (fun r =>
    pure (rBcc (decide (c = 14) || condition c r.sw) (i.mode.getLsbD 1) (decide (c = 14)) (rTarget i r) r)) s

/-- CALLD: SP −= 8, [SP] ← branch address + 8. -/
def execReinCalld (i : Rein) (s : State) : Answer :=
  runRein i (subField i 21) true [3] (fun r => do
    let sp := r.sp - 8
    rStore sp.toNat 8 (r.pc + 8)
    rSet i.pair.val (fun g => { g with sp := sp })
    return rBranch r (rTarget i r)) s

/-- JUMPA: a target that is not 4-byte aligned takes ALIGN. -/
def execReinJumpa (i : Rein) (s : State) : Answer :=
  runRein i (subField i 0) true [0] (fun r => do
    if r.a.toNat % 4 ≠ 0 then rRaise { code := 3, eaddr := r.a.toNat }
    return rBranch r r.a) s

/-- RETD: to [SP], then SP += 8. -/
def execReinRetd (i : Rein) (s : State) : Answer :=
  runRein i (subField i 0) true [3] (fun r => do
    let t ← rLoad r.sp.toNat 8
    rSet i.pair.val (fun g => { g with sp := r.sp + 8 })
    return rBranch r t) s

/-! ## Control registers (R218, R254, R400) -/

/-- Whether a control register may be read and written by rein code, which runs at PL0 (R218, R254; log entry 159). -/
def rCrRights (n : Nat) : Bool × Bool :=
  match n with
  | 0x10 | 0x11 | 0x12 | 0x13 | 0x14 | 0x15 | 0x16 | 0x17 | 0x40 | 0x43 => (true, true)
  | 0x41 | 0x44 => (true, false)
  | 0x42 | 0x45 => (false, true)
  | _ => (false, false)

/-- The value of a control register and the state after the read. -/
def rCrRead (g n : Nat) (s : State) : Word × State :=
  let r := s.reinOf g
  match n with
  | 0x10 => (r.vbr, s)
  | 0x11 => (r.epc, s)
  | 0x12 => (r.esw, s)
  | 0x13 => (r.ecause, s)
  | 0x14 => (r.eaddr, s)
  | 0x15 => (r.einfo, s)
  | 0x16 => (r.scratch, s)
  | 0x17 => (r.enpc, s)
  | 0x40 => (r.icThresh.setWidth 64, s)
  | 0x41 => icAck (.pair g) s
  | 0x43 => ((if r.icStacked then 1 else 0), s)
  | _ => icStatus (.pair g) s

/-- The fields of the rein status word (R252). -/
def rSwMask : Word := 0xC0F

/-- A write of a control register, and whether it raises INT_STACK (R403). -/
def rCrWrite (g n : Nat) (v : Word) (s : State) : Bool × State :=
  let r := s.reinOf g
  match n with
  | 0x10 => (false, s.setRein g { r with vbr := v })
  | 0x11 => (false, s.setRein g { r with epc := v })
  | 0x12 => (false, s.setRein g { r with esw := v &&& rSwMask })
  | 0x13 => (false, s)
  | 0x14 => (false, s.setRein g { r with eaddr := v })
  | 0x15 => (false, s.setRein g { r with einfo := v })
  | 0x16 => (false, s.setRein g { r with scratch := v })
  | 0x17 => (false, s.setRein g { r with enpc := v })
  | 0x40 => (false, s.setRein g { r with icThresh := v.truncate 4 })
  | 0x42 => icEoi (.pair g) (v.truncate 11) s
  | 0x43 => icMode (.pair g) (v.getLsbD 0) s
  | _ => (false, setPending (v.truncate 11).toNat s)

/-- MFCR: A ← control register FIELD[7:0]. -/
def execReinMfcr (i : Rein) (s : State) : Answer :=
  let n := natField i.field.toNat 0 8
  runRein i (subField i 8 && (rCrRights n).1) false [0] (fun r => do
    let q := rCrRead i.pair.val n (← get)
    set q.2
    rSet i.pair.val (fun g => { g with a := q.1 })
    return rSeq r) s

/-- MTCR: control register FIELD[7:0] ← A; VBR is aligned to 4 KiB. -/
def execReinMtcr (i : Rein) (s : State) : Answer :=
  let n := natField i.field.toNat 0 8
  runRein i (subField i 8 && (rCrRights n).2) false [0] (fun r => do
    if n = 0x10 ∧ r.a.toNat % 4096 ≠ 0 then rRaise { code := 3, eaddr := r.a.toNat }
    let q := rCrWrite i.pair.val n r.a (← get)
    set q.2
    if q.1 then rRaise { code := 0x11, next := true }
    return rSeq r) s

/-! ## Traps, waiting and fences -/

/-- SVC: its value in EINFO. -/
def execReinSvc (i : Rein) (s : State) : Answer :=
  runRein i (subField i 8) false [] (fun r =>
    rRaise { code := 0x0F, next := true, eaddr := r.pc.toNat, einfo := natField i.field.toNat 0 8 }) s

/-- ERET: SW is restored; EPC executes, then ENPC (R257). -/
def execReinEret (i : Rein) (s : State) : Answer :=
  runRein i (subField i 0) false [] (fun r => do
    rSet i.pair.val (fun g => { g with sw := g.esw &&& rSwMask })
    return { pc := r.epc, npc := r.enpc, slot := decide (r.enpc ≠ r.epc + 4) }) s

/-- WFI: the pair waits for an interrupt. -/
def execReinWfi (i : Rein) (s : State) : Answer :=
  runRein i (subField i 0) false [] (fun r => do
    rSet i.pair.val (fun g => { g with waiting := true })
    return rSeq r) s

/-- FENCE: the rein profile executes in order. -/
def execReinFence (i : Rein) (s : State) : Answer := runRein i (subField i 0) false [] (fun r => pure (rSeq r)) s

/-- BRK. -/
def execReinBrk (i : Rein) (s : State) : Answer :=
  runRein i (subField i 0) false [] (fun r => rRaise { code := 0x0D, next := true, eaddr := r.pc.toNat }) s

end Sys2Proof.Machine
end

