-- ==== Sys2Proof/Machine/Packets.lean ====
section
/-! DEFINITION. The headers of coherence packets (R147, R264, R265). -/

namespace Sys2Proof.Machine

/-- The protocol fields of a header flit (R264). -/
structure ProtoHdr where
  op : Nat
  addr : Nat
  submask : Nat := 0
  evicting : Bool := false
  dirty : Bool := false
  sealW : Option Word := none
  noAlloc : Bool := false
  state : Nat := 0
  refTxn : Nat := 0
  refSrc : Nat := 0
  tags : Nat := 0
  operand : Nat := 0
  operand2 : Nat := 0
  optag : Nat := 0
  optag2 : Nat := 0
deriving DecidableEq, Repr

/-- The 448 bits of a header flit above the routing header, with every field in its place (R264). -/
def ProtoHdr.bits (h : ProtoHdr) : Nat :=
  let flag (b : Bool) (i : Nat) : Nat := if b then 2 ^ i else 0
  h.op + h.addr / 8 % 2 ^ 49 * 2 ^ 8 + h.submask * 2 ^ 57 + flag h.evicting 61 + flag h.dirty 62 + flag h.sealW.isSome 63 +
  flag h.noAlloc 64 + h.state * 2 ^ 65 + h.refTxn * 2 ^ 72 + h.refSrc * 2 ^ 88 + (h.sealW.getD 0).toNat * 2 ^ 96 + h.tags * 2 ^ 160 +
  h.operand * 2 ^ 288 + h.operand2 * 2 ^ 352 + h.optag * 2 ^ 416 + h.optag2 * 2 ^ 420

/-- A number as 8-byte words, the lowest first. -/
def bitWords (n v : Nat) : List Word := (List.range n).map (fun i => BitVec.ofNat 64 (v / 2 ^ (64 * i)))

/-- The tags of words of the sub-blocks from `k` on, in their places (R264). -/
def tagBits (k : Nat) (tags : List Tag) : Nat := tags.zipIdx.foldl (fun n x => n + x.1.code.toNat * 2 ^ (32 * k + 4 * x.2)) 0

/-- The page-4 opcode of an atomic (R236). -/
def atomCode (op : AtomOp) (dbl : Bool) : Nat :=
  (match op with | .xadd => 0 | .xchga => 2 | .cas => 4 | .aadd => 6 | .aand => 8 | .aor => 10 | .axor => 12) + (if dbl then 1 else 0)

/-- A request's protocol fields (R264, R265). -/
def reqProto (q : HomeReq) : ProtoHdr :=
  let line := q.req.pa.toNat / 64 * 64
  let sec := q.req.pa.toNat / 256 * 256
  let plain (op : Nat) : ProtoHdr := { op := op, addr := line, submask := 2 ^ (line / 64 % 4) }
  match q.op with
  | .rdShr => plain 0x01
  | .rdOwn => plain 0x02
  | .upgrade => plain 0x03
  | .rdNi => { plain 0x04 with noAlloc := true }
  | .rdUc => plain 0x05
  | .wrUc k m _ tg => { op := 0x06, addr := sec + 64 * k.val, submask := 2 ^ k.val, operand := m.toNat, tags := tagBits k.val tg }
  | .evict d => { plain 0x07 with dirty := d }
  | .dmaRd subs => { op := 0x08, addr := sec, submask := subs.toNat }
  | .dmaWr k m _ tg => { op := 0x09, addr := sec + 64 * k.val, submask := 2 ^ k.val, operand := m.toNat, tags := tagBits k.val tg }
  | .spanWr _ tg sl => { op := 0x0A, addr := sec, submask := 15, sealW := some sl, tags := tagBits 0 tg }
  | .zero => { op := 0x0B, addr := sec, submask := 15 }
  | .clear => { op := 0x0C, addr := sec, submask := 15 }
  | .mClean => plain 0x10
  | .mCleaninv => plain 0x11
  | .mDiscard => plain 0x12
  | .atomic any op dbl v cmp =>
    { op := (if any then 0x50 else 0x40) + atomCode op dbl, addr := q.req.pa.toNat, operand := v.data.toNat, optag := v.tag.code.toNat,
      operand2 := cmp.data.toNat, optag2 := cmp.tag.code.toNat }

/-- The data words that follow a request's header. -/
def reqData (q : HomeReq) : List Word :=
  match q.op with
  | .wrUc _ _ d _ => bitWords 8 d.toNat
  | .dmaWr _ _ d _ => bitWords 8 d.toNat
  | .spanWr d _ _ => d
  | _ => []

/-- The operation, and whether the packet carries its line's data (R265). -/
def PktKind.op (k : PktKind) : Nat × Bool :=
  match k with
  | .snpShr => (0x20, false) | .snpInv => (0x21, false) | .snpClean => (0x22, false)
  | .gnt _ data _ => (0x28, data)
  | .retry => (0x29, false) | .wbPull => (0x2A, false) | .evictAck => (0x2B, false) | .done => (0x2C, false)
  | .ack dirty _ => (0x30, dirty) | .gone => (0x31, false) | .wbData => (0x32, true)

/-- Whether a packet goes from a tile to a home. -/
def PktKind.toHome (k : PktKind) : Bool := match k with | .ack _ _ | .gone | .wbData => true | _ => false

/-- The class of a packet that is no request: SNP for a snoop, DAT where it carries data, RSP otherwise (R265). -/
def PktKind.cls (k : PktKind) : BitVec 2 :=
  match k with
  | .snpShr | .snpInv | .snpClean => 1
  | _ => if k.op.2 then 3 else 2

/-- The words that a packet carries: its own, or its line's newest value. -/
def pktWords (s : State) (p : Pkt) : List TWord := if p.kind.op.2 then (if p.data = [] then readLine s p.line else p.data) else []

/-- A packet's protocol fields (R264, R265). -/
def pktProto (s : State) (p : Pkt) : ProtoHdr :=
  let ws := pktWords s p
  let subs := if p.subs = 0 then (1 : BitVec 4) <<< (p.line % 4) else p.subs
  let places := ((List.range 4).filter (fun k => subs.getLsbD k)).zipIdx
  let ref : Nat × Nat := match p.ref with | some r => (r.txn.toNat, r.src.toNat) | none => (0, 0)
  let base : ProtoHdr :=
    { op := p.kind.op.1, addr := if p.subs = 0 then 64 * p.line else p.line / 4 * 256, submask := subs.toNat,
      refTxn := ref.1, refSrc := ref.2,
      tags := places.foldl (fun n x => n + tagBits x.1 (((ws.drop (8 * x.2)).take 8).map (·.tag))) 0 }
  match p.kind with
  | .gnt st _ sl => { base with state := st.toNat, sealW := sl, noAlloc := p.noAlloc, dirty := p.dirty }
  | .ack d ev =>
    { base with dirty := d, evicting := ev.isSome, refTxn := match ev with | some x => x.toNat | none => p.txn.toNat,
                refSrc := tileStop (homeSlice s (p.line / 4)) }
  | .gone => { base with refTxn := p.txn.toNat, refSrc := tileStop (homeSlice s (p.line / 4)) }
  | .wbData => { base with dirty := true }
  | .done => { base with operand := ((p.data.headD ⟨0, .bytes⟩).data).toNat, optag := ((p.data.headD ⟨0, .bytes⟩).tag).code.toNat }
  | _ => base

/-- What traffic a request and its data are (R154): the gateway's and the east agent's is Farrier repair; an engine's streaming is background
unless its transfer is under a named deadline; a core's prefetch is background, every other request demand. -/
def reqTraffic (r : Req) : Traffic :=
  match unitOf r.src.toNat with
  | some .gateway | some .eastAgent => .repair
  | some (.engine _) => if r.traffic = .deadline then .deadline else .bulk
  | _ => match r.traffic with
    | .bulk => .bulk
    | .deadline => .deadline
    | _ => .demand

/-- Whether a packet belongs to a transaction of its home's own: a snoop and its answer (R147). -/
def PktKind.ofSnoop (k : PktKind) : Bool :=
  match k with | .snpShr | .snpInv | .snpClean | .ack _ _ | .gone => true | _ => false

/-- A packet of the coherence protocol as its unit puts it into a local queue: its source, and the packet (R147, R154). -/
def pktLocal (s : State) (q : Fin 16) (p : Pkt) : Nat × LocalPkt :=
  let home := tileStop (homeSlice s (p.line / 4))
  let ws := pktWords s p
  let r := p.ref
  (if p.kind.toHome then p.stop else home,
   { queue := q, dest := BitVec.ofNat 8 (if p.kind.toHome then home else p.stop), cls := p.kind.cls,
     traffic := (r.map reqTraffic).getD .demand,
     stall := (r.map (·.stall)).getD 0, len := Fin.ofNat 5 (ws.length / 8), txn := if p.kind.ofSnoop then p.txn else (r.map (·.txn)).getD 0,
     body := bitWords 7 (pktProto s p).bits ++ ws.map (·.data) })

/-- A request to a home as its unit puts it into a local queue. -/
def reqLocal (s : State) (q : Fin 16) (x : HomeReq) : Nat × LocalPkt :=
  let d := reqData x
  (x.req.src.toNat,
   { queue := q, dest := BitVec.ofNat 8 (tileStop (reqHome s x)), cls := 0, traffic := reqTraffic x.req, stall := x.req.stall,
     len := Fin.ofNat 5 (d.length / 8), txn := x.req.txn, body := bitWords 7 (reqProto x).bits ++ d })

end Sys2Proof.Machine
end

