-- ==== Sys2Proof/Machine/RingOps.lean ====
section
/-! DEFINITION. The Longe rings: stops, segments, routes, detours and the choice of a lane output (R140–R166). -/

namespace Sys2Proof.Machine

/-! ## Stops and segments (R140–R144, R160, R161) -/

/-- The rings of a stop with its position on each: 0–8 H, 9–16 VW, 17–24 VE (R140, R143). -/
def stopPlaces (n : Nat) : List (Nat × Nat) :=
  if n < 144 then [(stopRow n, stopCol n + 1), ((if n < 72 then 9 else 17) + n % 8, stopRow n + 1)]
  else if n < 153 then [(n - 144, 0)]
  else if n < 162 then [(n - 153, 17)]
  else if n < 170 then [(9 + n - 162, 0)]
  else if n < 178 then [(9 + n - 170, 10)]
  else if n < 186 then [(17 + n - 178, 0)]
  else [(17 + n - 186, 10)]

/-- The die of a stop, those of the edges among them (R142, R143). -/
def stopDie (n : Nat) : Nat :=
  if n < 144 then n / 72 else if n < 153 then 0 else if n < 162 then 1 else if n < 178 then 0 else 1

/-- Count an event of the rings at a stop, in the block of its die (R510, R513). -/
def countRing (stop event : Nat) (s : State) : State := countUncore (0x144 + stopDie stop) event 1 s

/-- The stop at a position of a ring. -/
def placeStop (ring pos : Nat) : Nat :=
  if ring ≤ 8 then
    (if pos = 0 then 144 + ring else if pos = 17 then 153 + ring
     else if pos ≤ 8 then 8 * ring + (pos - 1) else 72 + 8 * ring + (pos - 9))
  else if ring ≤ 16 then
    (if pos = 0 then 162 + (ring - 9) else if pos = 10 then 170 + (ring - 9) else 8 * (pos - 1) + (ring - 9))
  else (if pos = 0 then 178 + (ring - 17) else if pos = 10 then 186 + (ring - 17) else 72 + 8 * (pos - 1) + (ring - 17))

/-- The highest position of a ring. -/
def lastPos (ring : Nat) : Nat := if ring ≤ 8 then 17 else 10

/-- The code of the segment from a position to the next one, upward or downward (R160). -/
def segCode (ring p q : Nat) : Nat := ring + (if p < q then 0 else 32) + 64 * min p q

/-- The parts of a segment code. -/
def segRing (c : Nat) : Nat := c % 32
def segDown (c : Nat) : Bool := decide (c / 32 % 2 = 1)
def segLow (c : Nat) : Nat := c / 64 % 32

/-- The pairs of a side link's edge, by the lower row or column (R161). -/
def sidePair (edge low : Nat) : Bool :=
  if edge ≤ 26 then decide (low < 8) && decide (low % 2 = 0) || decide (low = 7) else decide (low < 8) && decide (low % 2 = 0)

/-- The stop of an edge at a row or column: edges 25 west, 26 east, 27–30 west-north, west-south, east-north, east-south (R160). -/
def edgeStop (edge i : Nat) : Nat :=
  match edge with
  | 25 => 144 + i | 26 => 153 + i | 27 => 162 + i | 28 => 170 + i | 29 => 178 + i | _ => 186 + i

/-- Whether a code names a segment of the device. -/
def segValid (c : Nat) : Bool :=
  if segRing c ≤ 24 then decide (segLow c < lastPos (segRing c))
  else decide (segRing c ≤ 30) && sidePair (segRing c) (segLow c)

/-- The stop a segment leaves and the stop it reaches. -/
def segFrom (c : Nat) : Nat :=
  let i := if segDown c then segLow c + 1 else segLow c
  if segRing c ≤ 24 then placeStop (segRing c) i else edgeStop (segRing c) i

def segTo (c : Nat) : Nat :=
  let i := if segDown c then segLow c else segLow c + 1
  if segRing c ≤ 24 then placeStop (segRing c) i else edgeStop (segRing c) i

/-! ## Routes (R150, R151) -/

/-- The segments along a ring between two positions. -/
def leg (ring p q : Nat) : List Nat :=
  if p < q then (List.range (q - p)).map (fun i => segCode ring (p + i) (p + i + 1))
  else (List.range (p - q)).map (fun i => segCode ring (p - i) (p - i - 1))

/-- The first of a stop's rings that another stop shares, with both positions. -/
def sharedRing (a b : Nat) : Option (Nat × Nat × Nat) :=
  (stopPlaces a).findSome? (fun x => (stopPlaces b).findSome? (fun y => if x.1 = y.1 then some (x.1, x.2, y.2) else none))

def isHEdge (n : Nat) : Bool := decide (144 ≤ n) && decide (n < 162)
def isVEdge (n : Nat) : Bool := decide (162 ≤ n)

/-- One leg between two stops of one ring. -/
def oneLeg (a b vc : Nat) : List (Nat × Nat) :=
  match sharedRing a b with
  | some (r, p, q) => (leg r p q).map (fun c => (c, vc))
  | none => []

/-- The H ring and V ring of a stop. -/
def hRing (n : Nat) : Option Nat := ((stopPlaces n).find? (fun x => decide (x.1 ≤ 8))).map (·.1)
def vRing (n : Nat) : Option Nat := ((stopPlaces n).find? (fun x => decide (9 ≤ x.1))).map (·.1)

/-- The tile where an H ring meets a V ring. -/
def crossing (h v : Nat) : Nat := if v ≤ 16 then 8 * h + (v - 9) else 72 + 8 * h + (v - 17)

/-- The route between two stops without detours (R150). -/
def route (a b : Nat) : List (Nat × Nat) :=
  if a = b then []
  else if (sharedRing a b).isSome then oneLeg a b 0
  else if isVEdge a ∧ isVEdge b then
    let row := if (stopPlaces a).any (fun x => decide (x.2 = 0)) then 0 else 8
    match vRing a, vRing b with
    | some v, some w =>
      let m := crossing row v
      let n := crossing row w
      oneLeg a m 1 ++ oneLeg m n 1 ++ oneLeg n b 2
    | _, _ => []
  else if isHEdge a ∧ isHEdge b then
    let col := if a < 153 then 9 else 24
    match hRing a, hRing b with
    | some h, some k =>
      let m := crossing h col
      let n := crossing k col
      oneLeg a m 0 ++ oneLeg m n 0 ++ oneLeg n b 2
    | _, _ => []
  else if isHEdge b ∨ isVEdge a then
    match hRing b, vRing a with
    | some h, some v => let m := crossing h v
                        oneLeg a m 1 ++ oneLeg m b 1
    | _, _ => []
  else
    match hRing a, vRing b with
    | some h, some v => let m := crossing h v
                        oneLeg a m 0 ++ oneLeg m b 0
    | _, _ => []

/-! ## Detours (R161–R164) -/

/-- The paired row or column of an edge stop (R161). -/
def pairOf (edge i : Nat) : Nat := if edge ≤ 26 ∧ i = 8 then 7 else if i % 2 = 0 then i + 1 else i - 1

/-- The side link from one row or column of an edge to another. -/
def sideSeg (edge i j : Nat) : Nat := edge + (if i < j then 0 else 32) + 64 * min i j

/-- The edge of an H or V ring's end, with the ring's row or column. -/
def edgeOf (ring : Nat) (low : Bool) : Nat × Nat :=
  if ring ≤ 8 then (if low then 25 else 26, ring)
  else if ring ≤ 16 then (if low then 27 else 28, ring - 9)
  else (if low then 29 else 30, ring - 17)

/-- The ring of the same kind at another row or column. -/
def siblingRing (ring i : Nat) : Nat := if ring ≤ 8 then i else if ring ≤ 16 then 9 + i else 17 + i

/-- Detours round a segment between two tiles by a jog ring: across, along, and back (R162). -/
def jog (ring p q jogRing : Nat) : List Nat :=
  let a := placeStop ring p
  let b := placeStop jogRing p
  let c := placeStop jogRing q
  let d := placeStop ring q
  (oneLeg a b 0 ++ oneLeg b c 0 ++ oneLeg c d 0).map (·.1)

/-- The detours R162 gives a failed segment, in order of preference. -/
def detourChoices (c : Nat) : List (List Nat) :=
  let ring := segRing c
  let p := if segDown c then segLow c + 1 else segLow c
  let q := if segDown c then segLow c else segLow c + 1
  if 25 ≤ ring then []
  else
    let atLow := decide (min p q = 0)
    let atHigh := decide (max p q = lastPos ring)
    if atLow || atHigh then
      let e := edgeOf ring atLow
      let j := pairOf e.1 e.2
      let other := siblingRing ring j
      let tile := if atLow then 1 else lastPos ring - 1
      let edgeP := if atLow then 0 else lastPos ring
      let back := (oneLeg (placeStop other tile) (placeStop ring tile) 0).map (·.1)
      let back' := (oneLeg (placeStop ring tile) (placeStop other tile) 0).map (·.1)
      if p = edgeP then [sideSeg e.1 e.2 j :: segCode other edgeP tile :: back]
      else [back' ++ [segCode other tile edgeP, sideSeg e.1 j e.2]]
    else if ring ≤ 8 then
      (if ring = 8 then [jog ring p q 7] else if ring = 0 then [jog ring p q 1] else [jog ring p q (ring + 1), jog ring p q (ring - 1)])
    else
      let i := if ring ≤ 16 then ring - 9 else ring - 17
      [jog ring p q (siblingRing ring (if i % 2 = 0 then i + 1 else i - 1))]

/-- A route with detours put in: VC3 from the first detour on (R150, R162). -/
def expandWith (detour : Nat → Option (List Nat)) (path : List (Nat × Nat)) (on : Bool) : List (Nat × Nat) :=
  match path with
  | [] => []
  | (c, vc) :: r =>
    match detour c with
    | some d => d.map (fun x => (x, 3)) ++ expandWith detour r true
    | none => (c, if on then 3 else vc) :: expandWith detour r on

/-- The detour that a table gives a segment. -/
def tableDetour (t : List (Nat × List Nat)) (c : Nat) : Option (List Nat) := (t.find? (fun x => decide (x.1 = c))).map (·.2)

/-- The steps from segment to segment that a path makes in VC3. -/
def vc3Path (path : List (Nat × Nat)) : List (Nat × Nat) :=
  let v := (path.filter (fun x => decide (x.2 = 3))).map (·.1)
  v.zip (v.drop 1)

/-- The VC3 dependencies of a table's detours (R162): the steps in VC3 of every route that begins with a failed segment. Routes that meet the
segment later go on from there as one of these does. -/
def vc3Steps (t : List (Nat × List Nat)) : List (Nat × Nat) :=
  (t.flatMap (fun x => (List.range 194).flatMap (fun b =>
    let p := route (segFrom x.1) b
    if p.head?.map (·.1) = some x.1 then vc3Path (expandWith (tableDetour t) p false) else []))).eraseDups

/-- Steps that lead on to another step. -/
def pruneSteps (l : List (Nat × Nat)) : List (Nat × Nat) := l.filter (fun x => l.any (fun y => decide (y.1 = x.2)))

/-- Whether steps form no cycle: taking off those that lead nowhere, again and again, leaves none. -/
def noCycle (l : List (Nat × Nat)) : Bool := ((List.range (l.length + 1)).foldl (fun x _ => pruneSteps x) l).isEmpty

/-- The detours of the first 32 failed segments, in the order of their failures: each takes the first choice of R162 that meets no failed segment
and forms no cycle of VC3 with those before it (R162, R164). That a segment whose every choice would form a cycle has no detour is the model's
choice (log entry 156). -/
def detourTable (failed : List Nat) : List (Nat × List Nat) :=
  (failed.take 32).foldl (fun t c =>
    match (detourChoices c).find? (fun d => d.all (fun x => !failed.contains x) && noCycle (vc3Steps (t ++ [(c, d)]))) with
    | some d => t ++ [(c, d)]
    | none => t) []

/-- The detour of a failed segment (R162, R164). -/
def detourFor (s : State) (c : Nat) : Option (List Nat) := tableDetour s.ring.table c

/-- Whether a segment has failed and has no detour (R164). -/
def deadSeg (s : State) (c : Nat) : Bool := s.ring.failedSegs.contains c && (detourFor s c).isNone

/-- A packet's route with the installed detours put in (R150, R162). -/
def expand (s : State) (path : List (Nat × Nat)) (on : Bool) : List (Nat × Nat) :=
  expandWith (fun c => if s.ring.detours.contains c then detourFor s c else none) path on

/-! ## Where packets are delivered (R142, R164) -/

/-- The stop of the Farrier agent of a stop's die (R142). -/
def agentStop (n : Nat) : Nat :=
  if n < 72 ∨ (144 ≤ n ∧ n < 153) ∨ (162 ≤ n ∧ n < 178) then 152 else 161

/-- Whether a stop's logic is retired and its bypass engaged (R145, R161): an engine that is retired, or a tile with neither a core nor a
home. -/
def bypassed (s : State) (n : Nat) : Bool :=
  match unitOf n with
  | some (.engine e) => decide ((s.engine e).state = 2)
  | some (.core t) => (tileCore s t).isNone && decide (odGet s (0x5101 + t) 0x01 = 2) && !s.far.spares.contains n
  | _ => false

/-- Where a packet for a stop is delivered (R164). -/
def deliverTo (s : State) (n : Nat) : Nat := if bypassed s n then agentStop n else n

/-- A path that a failed segment without a detour cuts goes from that segment's upstream stop to the agent of the destination's die instead; none
where that is cut off too (R164; log entry 200). -/
def cutPath (s : State) (dest : Nat) (path : List (Nat × Nat)) : Option (List (Nat × Nat)) :=
  match path.find? (fun x => deadSeg s x.1) with
  | none => some path
  | some x =>
    let away := expand s (route (segFrom x.1) (agentStop dest)) true
    if away.any (fun y => deadSeg s y.1) then none else some (path.takeWhile (fun y => !deadSeg s y.1) ++ away)

/-! ## Headers (R147, R151, R154) -/

def State.lane (s : State) (c : Nat) : LaneOut := Tbl.get s.ring.lanes c {}
def State.setLane (s : State) (c : Nat) (x : LaneOut) : State := { s with ring := { s.ring with lanes := s.ring.lanes.set c x } }

/-- Fields of a header (R147). -/
def hDest (h : Word) : Nat := natField h.toNat 0 8
def hSrc (h : Word) : Nat := natField h.toNat 8 8
def hClass (h : Word) : Nat := natField h.toNat 16 2
def hVc (h : Word) : Nat := natField h.toNat 18 2
def hPri (h : Word) : Nat := natField h.toNat 20 2
def hStall (h : Word) : Nat := natField h.toNat 22 9
def hLen (h : Word) : Nat := min 4 (natField h.toNat 31 3)
def hStrict (h : Word) : Bool := h.getLsbD 35
def hTxn (h : Word) : Nat := natField h.toNat 48 16

/-- The header with its VC field set (R151). -/
def withVc (h : Word) (vc : Nat) : Word := (h &&& ~~~((3 : Word) <<< 18)) ||| ((BitVec.ofNat 64 (vc % 4)) <<< 18)

/-- The header with DETOUR set (R162). -/
def withDetour (h : Word) : Word := h ||| ((1 : Word) <<< 34)

/-- The priority that a unit gives a packet (R154): SNP and RSP packets are COHERENCE, unless they are URGENT. -/
def packetPri (cls : BitVec 2) (t : Traffic) : Nat :=
  match t with
  | .repair | .interrupt | .deadline => 3
  | .demand => if cls = 1 ∨ cls = 2 then 2 else 1
  | .bulk => if cls = 1 ∨ cls = 2 then 2 else 0

/-- The routing header that the injecting unit makes (R147): it sets PRI and STALL, and STRICT for a stall in strict mode (R159, R358). -/
def packetHeader (s : State) (src : Nat) (p : LocalPkt) : Word :=
  BitVec.ofNat 64 (p.dest.toNat + src * 2 ^ 8 + p.cls.toNat * 2 ^ 16 + packetPri p.cls p.traffic * 2 ^ 20 + p.stall.val * 2 ^ 22 +
    p.len.val * 2 ^ 31 + (if (s.stall p.stall.val).strictActive then 2 ^ 35 else 0) + p.txn.toNat * 2 ^ 48)

/-- The local queues of a stop. -/
def queueKey (stop q : Nat) : Nat := 16 * stop + q
def State.ringQueue (s : State) (stop q : Nat) : List QueuedPkt := Tbl.get s.ring.queues (queueKey stop q) []
def State.setRingQueue (s : State) (stop q : Nat) (l : List QueuedPkt) : State :=
  { s with ring := { s.ring with queues := s.ring.queues.set (queueKey stop q) l } }

/-- What enters a local queue, with its source stop. -/
def localPacket (s : State) (stop : Nat) (x : LocalSrc) : Option (Nat × LocalPkt) :=
  match x with
  | .unit p => some (stop, p)
  | .answer q k => (s.coh.net[k]?).map (pktLocal s q)
  | .request q h k => ((s.slice h.val).queue[k]?).map (reqLocal s q)

/-- A unit puts a packet into a local queue of its stop (R147); one for no other stop goes nowhere. -/
def queuePacket (stop : Nat) (x : LocalSrc) (s : State) : State :=
  match localPacket s stop x with
  | none => s
  | some (src, p) =>
    if src ≠ stop ∨ p.dest.toNat = stop ∨ (unitOf p.dest.toNat).isNone = true then s
    else s.setRingQueue stop p.queue.val (s.ringQueue stop p.queue.val ++ [{ hdr := packetHeader s src p, body := p.body }])

/-! ## Reservations (R153) -/

/-- How many requests of a source may be outstanding at a stop, by class: none where R153 reserves nothing, and no request of a source that its
table does not list for the queue. -/
def creditLimit (src dest cls : Nat) : Option Nat :=
  let from_ (l : List (Bool × Nat)) : Option Nat := some (((l.find? (·.1)).map (·.2)).getD 0)
  let u := unitOf src
  let core := match u with | some (.core _) => true | _ => false
  let engine := match u with | some (.engine _) => true | _ => false
  let host := match u with | some (.hostCtl _) => true | _ => false
  let hub := match u with | some (.ioHub _) => true | _ => false
  let gate := decide (u = some .gateway)
  let east := decide (u = some .eastAgent)
  match unitOf dest with
  | some (.core _) => if cls = 0 then from_ [(core || engine || host || hub || gate || east, 2)] else if cls = 1 then from_ [(core, 2)] else none
  | some (.memory _) => if cls = 0 ∨ cls = 3 then from_ [(core || gate || east, 4)] else none
  | some (.tetherQuad _) => if cls = 3 then from_ [(engine, 16)] else none
  | some (.hostCtl _) => if cls = 0 ∨ cls = 3 then from_ [(engine, 32), (core || hub || gate, 4)] else none
  | some (.ioHub _) => if cls = 0 then some 4 else none
  | _ => none

/-- The request that a response or its data answers, which holds its credit until then (R153). -/
def answersTo (s : State) (h : Word) : Option Word :=
  if hClass h = 2 ∨ hClass h = 3 then
    s.ring.credits.find? (fun x => decide (hSrc x = hDest h) && decide (hDest x = hSrc h) && decide (hTxn x = hTxn h))
  else none

/-- Whether two classes draw on one queue at a stop: REQ and SNP have one each at a tile, REQ and DAT share one elsewhere (R153). -/
def sameQueue (dest a b : Nat) : Bool := match unitOf dest with | some (.core _) => decide (a = b) | _ => true

/-- Whether a source holds a reservation for a packet that it would send (R153): an answer goes into the buffer that its request allocated. -/
def hasCredit (s : State) (h : Word) : Bool :=
  match creditLimit (hSrc h) (hDest h) (hClass h) with
  | none => true
  | some n => (answersTo s h).isSome || decide ((s.ring.credits.filter (fun x => decide (hSrc x = hSrc h) && decide (hDest x = hDest h) &&
      sameQueue (hDest h) (hClass x) (hClass h))).length < n)

/-- A packet takes its reservation as it is injected. -/
def takeCredit (h : Word) (s : State) : State :=
  match creditLimit (hSrc h) (hDest h) (hClass h) with
  | none => s
  | some _ => if (answersTo s h).isSome then s else { s with ring := { s.ring with credits := s.ring.credits ++ [h] } }

/-- A response, or data, returns the credit of the request of its transaction (R153). -/
def returnCredit (h : Word) (s : State) : State :=
  match answersTo s h with
  | some x => { s with ring := { s.ring with credits := s.ring.credits.erase x } }
  | none => s

/-! ## Lanes (R148, R152, R157, R159) -/

/-- The virtual-channel buffer of a flit on its next segment: class and VC. -/
def flitVc (f : RingFlit) : Nat := 4 * hClass f.hdr + (match f.path with | (_, vc) :: _ => vc % 4 | [] => 0)

/-- The next segment of a flit. -/
def nextSeg (f : RingFlit) : Option Nat := f.path.head?.map (·.1)

/-- Whether two segments follow each other on one lane; otherwise a packet that goes from one to the other turns. -/
def sameLane (p c : Nat) : Bool := decide (segRing p = segRing c) && decide (segDown p = segDown c) && decide (segRing c ≤ 24)

/-- The flits that wait or are held at a lane. -/
def laneFlits (l : LaneOut) : List RingFlit :=
  l.inBuf.flatMap (·.2) ++ l.eject ++ l.cont.flatMap (·.2) ++ l.strict ++ l.retry

/-- Every flit on the rings. -/
def ringFlits (s : State) : List RingFlit := s.ring.lanes.flatMap (fun x => laneFlits x.2)

/-- A source of flits for a lane output: an input buffer, the rest of an injected packet, or a local queue. -/
inductive FlitSrc where
  | input (seg vc : Nat)
  | cont (vc : Nat)
  | inject (q : Nat)
deriving DecidableEq, Repr

/-- A flit that may be sent: its rank (3 through, 4 turning, 5 injected), priority and source. -/
structure Cand where
  rank : Nat
  pri : Nat
  vc : Nat
  src : FlitSrc
  flit : RingFlit
deriving DecidableEq, Repr

/-- The segments that reach a stop. -/
def incoming (stop : Nat) : List Nat :=
  let along := (stopPlaces stop).flatMap (fun x =>
    (if x.2 = 0 then [] else [segCode x.1 (x.2 - 1) x.2]) ++ (if x.2 = lastPos x.1 then [] else [segCode x.1 (x.2 + 1) x.2]))
  let side := (List.range 31).flatMap (fun e => if 25 ≤ e then
    ((List.range 9).flatMap (fun i => let j := pairOf e i
                                      [sideSeg e i j, sideSeg e j i])).filter (fun c => decide (segTo c = stop) && segValid c) else [])
  along ++ side.eraseDups

/-- The train that passes a segment's upstream stop in a cycle (R157); side links keep the time of their lower row or column. -/
def trainNow (c cycle : Nat) : Nat :=
  let x := if segDown c then segLow c + 1 else segLow c
  let tau := if segRing c ≤ 8 then (if segDown c then (if x ≤ 8 then 21 - x else 17 - x) else (if x ≤ 8 then x else x + 4))
             else (if segDown c then 10 - x else x)
  (cycle + 256 - tau % 256) % 256

/-- The group of the train that passes in a cycle (R157). -/
def trainGroup (c cycle : Nat) : Nat := trainNow c cycle % 32

/-- The stall that a group is reserved to (R158). -/
def groupStall (s : State) (g : Nat) : Option Nat :=
  (s.stalls.find? (fun x => x.2.ringNow.getLsbD g)).map (·.1)

/-- Whether the strict buffer of a lane can take a flit: it holds one packet of the stall (R159; log entry 157). -/
def strictRoom (s : State) (c : Nat) (f : RingFlit) : Bool :=
  (s.lane c).strict.all (fun g => g.train.isSome || decide (hStall g.hdr ≠ hStall f.hdr) || decide (g.seq = f.seq))

/-- Whether a flit's next buffer has room: it is ejected there, goes through on its train, finds the strict buffer free, or its channel's
buffer holds fewer than three flits (R148, R153, R159). -/
def hasRoom (s : State) (f : RingFlit) : Bool :=
  match f.path with
  | (c, _) :: (n, _) :: _ =>
    if hStrict f.hdr then sameLane c n || strictRoom s n f else decide ((Tbl.get (s.lane c).inBuf (flitVc f) []).length < 3)
  | _ => true

/-- Whether a packet on a detour may be ejected: no flit is on the rings of an earlier packet of its class, source and destination (R152). -/
def inOrder (s : State) (f : RingFlit) : Bool :=
  if f.idx = 0 ∧ f.path.length = 1 ∧ f.hdr.getLsbD 34 = true then
    !(ringFlits s).any (fun g => decide (g.seq < f.seq) && decide (hSrc g.hdr = hSrc f.hdr) && decide (hDest g.hdr = hDest f.hdr) &&
      decide (hClass g.hdr = hClass f.hdr))
  else true

/-- Whether a channel of a lane output is free for a flit (R148): its packet holds the channel and this is the next of its flits, or
nobody holds it and the flit is a header or goes first of a packet whose header is ahead (R163). -/
def mayTake (s : State) (c : Nat) (f : RingFlit) : Bool :=
  match (s.lane c).owner.find? (fun o => decide (o.1 = flitVc f) && decide (0 < o.2.left)) with
  | some o => decide (f.idx ≠ 0) && decide (o.2.pkt = f.seq) && decide (f.idx + o.2.left = hLen f.hdr + 1)
  | none => decide (f.idx = 0) ||
      (f.lead && !(ringFlits s).any (fun g => decide (g.seq = f.seq) && decide (g.idx < f.idx) && g.path.any (fun x => decide (x.1 = c))))

/-- The rank of a flit from an input buffer: through, or turning; once its header is on the lane a flit ranks with those that go through (R155). -/
def inputRank (p c : Nat) (f : RingFlit) : Nat := if sameLane p c ∨ (f.idx ≠ 0 ∧ f.lead = false) then 3 else 4

/-- The candidates of a lane output from the input buffers of its upstream stop. -/
def inputCands (s : State) (c : Nat) : List Cand :=
  (incoming (segFrom c)).flatMap (fun p =>
    (s.lane p).inBuf.filterMap (fun b => match b.2 with
      | f :: _ =>
        if nextSeg f = some c then some { rank := inputRank p c f, pri := hPri f.hdr, vc := flitVc f, src := .input p b.1, flit := f } else none
      | [] => none))

/-- A queued packet's header flit, with its route (R150, R162, R164); one that can reach neither its destination nor the agent waits. -/
def injectFlit (s : State) (q : QueuedPkt) : RingFlit :=
  let plain := route (hSrc q.hdr) (deliverTo s (hDest q.hdr))
  let far := expand s plain false
  let path := (cutPath s (hDest q.hdr) far).getD far
  let vc := match plain with | (_, v) :: _ => v | [] => 0
  { hdr := withVc (if path = plain then q.hdr else withDetour q.hdr) vc, seq := s.ring.injected, aged := q.aged, promoted := q.promoted,
    body := q.body.take 7, path := path }

/-- The head of a stop's local queue that would go out by a lane: its queue, and its header flit. -/
def queueHeads (s : State) (c : Nat) : List (Nat × RingFlit) :=
  (List.range 16).filterMap (fun i => match s.ringQueue (segFrom c) i with
    | q :: _ => let f := injectFlit s q
                if nextSeg f = some c ∧ hasCredit s f.hdr = true then some (i, f) else none
    | [] => none)

/-- The data flits of a packet whose header is injected. -/
def dataFlits (f : RingFlit) (body : List Word) : List RingFlit :=
  (List.range (hLen f.hdr)).map (fun i =>
    { f with idx := i + 1, aged := false, promoted := false, body := (body.drop (7 + 8 * i)).take 8 })

/-- Every candidate of a lane output, with aged priorities and promoted ranks (R154–R156). -/
def candidates (s : State) (c cycle : Nat) : List Cand :=
  let conts := (s.lane c).cont.filterMap (fun b => match b.2 with
    | f :: _ => some { rank := 3, pri := hPri f.hdr, vc := b.1, src := .cont b.1, flit := f : Cand }
    | [] => none)
  let injs := (queueHeads s c).filterMap (fun x =>
    if hStrict x.2.hdr then none else some { rank := 5, pri := hPri x.2.hdr, vc := flitVc x.2, src := .inject x.1, flit := x.2 : Cand })
  ((inputCands s c ++ conts ++ injs).filter (fun x => mayTake s c x.flit && hasRoom s x.flit && inOrder s x.flit)).map (fun x =>
    { x with pri := if x.flit.aged && decide (x.pri ≤ 1) then x.pri + 1 else x.pri,
             rank := if x.flit.promoted && decide (cycle % 2 = 0) then 3 else x.rank })

/-- The order of rotation: how far a number lies behind the last winner. -/
def turnOf (last n size : Nat) : Nat := (n + size - last - 1) % size

/-- The better of two candidates of one rank (R155): local queues rotate by their numbers, the others by their channels. -/
def betterCand (ln : LaneOut) (a b : Cand) : Cand :=
  let key (x : Cand) : Nat := match x.rank, x.src with
    | 5, .inject i => turnOf ln.lastInj i 16
    | _, _ => turnOf ln.lastVc x.vc 16
  if a.pri < b.pri then b else if b.pri < a.pri then a else if key b < key a then b else a

/-- The winner among candidates: the lowest rank, then by priority and rotation (R155). -/
def pickCand (ln : LaneOut) (l : List Cand) : Option Cand :=
  [3, 4, 5].findSome? (fun r => match l.filter (fun x => decide (x.rank = r)) with
    | [] => none
    | x :: xs => some (xs.foldl (betterCand ln) x))

/-- A flit arrives at the end of its next segment: it waits to be ejected, rides on or waits in the next strict buffer, or waits in an input
buffer (R148, R157, R159). -/
def arriveFlit (c : Nat) (f : RingFlit) (s : State) : State :=
  let g := { f with path := f.path.drop 1, bad := false, aged := false, promoted := false }
  let ln := s.lane c
  match g.path with
  | [] => s.setLane c { ln with eject := ln.eject ++ [g] }
  | (n, _) :: _ =>
    if hStrict f.hdr then
      s.setLane n { s.lane n with strict := (s.lane n).strict ++ [{ g with train := if sameLane c n then f.train else none }] }
    else s.setLane c { ln with inBuf := ln.inBuf.set (flitVc f) (Tbl.get ln.inBuf (flitVc f) [] ++ [g]) }

/-- A flit that has arrived and been checked is ejected (R153): a header returns a credit; one whose stop has engaged its bypass goes on to
the Farrier agent of the die (R164). -/
def ejectFlit (c : Nat) (f : RingFlit) (s : State) : State :=
  let here := segTo c
  let path := expand s (route here (deliverTo s here)) false
  match path with
  | (n, vc) :: _ =>
    let g := { f with path := path, lead := false }
    if hStrict f.hdr then s.setLane n { s.lane n with strict := (s.lane n).strict ++ [{ g with train := none }] }
    else
      let ln := s.lane n
      let v := 4 * hClass f.hdr + vc % 4
      s.setLane n { ln with cont := ln.cont.set v (Tbl.get ln.cont v [] ++ [g]) }
  | [] =>
    let s1 : State := { s with ring := { s.ring with delivered := (s.ring.delivered ++ [f]).drop ((s.ring.delivered.length + 1) - 64) } }
    if f.idx = 0 then returnCredit f.hdr s1 else s1

/-- The flits that have arrived at the end of a segment are ejected. -/
def ejectAll (c : Nat) (s : State) : State :=
  let l := s.lane c
  l.eject.foldl (fun t f => ejectFlit c f t) (s.setLane c { l with eject := [] })

/-- Put a flit on a segment in a cycle: its header shows the segment's VC, it is kept in the retry buffer of eight, and it arrives, with a
single-bit error corrected and counted (R149, R151). A packet is counted where it first takes VC3 (R165), and so is each of its flits (R513). -/
def putFlit (c cycle : Nat) (flip : Bool) (f : RingFlit) (s : State) : State :=
  let vc := match f.path with | (_, v) :: _ => v | [] => 0
  let g := { f with hdr := withVc f.hdr vc, train := if hStrict f.hdr then (match f.train with | some t => some t | none => some (trainNow c cycle)) else none }
  let ln := s.lane c
  let l := ln.sent ++ [g]
  let s1 := s.setLane c { ln with sent := l.drop (l.length - 8) }
  let s2 := if (f.idx = 0 ∨ f.lead = true) ∧ vc = 3 ∧ hVc f.hdr ≠ 3 then odBump 0xF010 0x06 s1 else s1
  let s3 := if vc = 3 ∧ hVc f.hdr ≠ 3 then countRing (segFrom c) 3 s2 else s2
  arriveFlit c g (if flip then odBump 0xF010 0x03 s3 else s3)

/-- Take a flit from its source. -/
def takeFlit (c : Nat) (x : Cand) (s : State) : State :=
  match x.src with
  | .input p v =>
    let l := s.lane p
    s.setLane p { l with inBuf := l.inBuf.set v ((Tbl.get l.inBuf v []).drop 1) }
  | .cont v =>
    let l := s.lane c
    s.setLane c { l with cont := l.cont.set v ((Tbl.get l.cont v []).drop 1) }
  | .inject i =>
    match s.ringQueue (segFrom c) i with
    | q :: r =>
      let s1 := takeCredit x.flit.hdr (s.setRingQueue (segFrom c) i r)
      let s2 : State := { s1 with ring := { s1.ring with injected := s1.ring.injected + 1 } }
      let l := s2.lane c
      s2.setLane c { l with cont := l.cont.set x.vc (Tbl.get l.cont x.vc [] ++ dataFlits x.flit q.body) }
    | [] => s

/-- Note the winner: rotation, and the channel's owner (R148, R155). -/
def noteWinner (c : Nat) (x : Cand) (s : State) : State :=
  let l := s.lane c
  let o : VcOwner := { pkt := x.flit.seq, left := hLen x.flit.hdr - x.flit.idx }
  let inj := match x.src with | .inject i => i | _ => l.lastInj
  s.setLane c { l with owner := l.owner.set x.vc o, lastVc := if x.rank = 5 then l.lastVc else x.vc, lastInj := inj }

/-- A strict packet of a local queue that may enter the strict buffer of a lane, with its place and its header flit: it waits behind packets of
its own stall alone (R159). -/
def strictHead (s : State) (c : Nat) (l : List QueuedPkt) : Option (Nat × QueuedPkt × RingFlit) :=
  l.zipIdx.findSome? (fun x =>
    let f := injectFlit s x.1
    if hStrict f.hdr && decide (nextSeg f = some c) && hasCredit s f.hdr && strictRoom s c f &&
        (l.take x.2).all (fun y => decide (hStall y.hdr ≠ hStall f.hdr)) then some (x.2, x.1, f) else none)

/-- Injected packets of strict mode that fit in the strict buffer of a lane enter it (R159). -/
def injectStrict (c : Nat) (s : State) : State :=
  match (List.range 16).findSome? (fun i => (strictHead s c (s.ringQueue (segFrom c) i)).map (fun x => (i, x))) with
  | none => s
  | some (i, k, q, f) =>
    let s1 := takeCredit f.hdr (s.setRingQueue (segFrom c) i ((s.ringQueue (segFrom c) i).eraseIdx k))
    let s2 : State := { s1 with ring := { s1.ring with injected := s1.ring.injected + 1 } }
    let l := s2.lane c
    s2.setLane c { l with strict := l.strict ++ { f with aged := false, promoted := false } :: dataFlits f q.body }

/-- The strict flit for the train that passes a lane output: the one that rides it, or the next one of the stall to which its group is
reserved (R155, R157, R159). -/
def strictFlit (s : State) (c cycle : Nat) : Option RingFlit :=
  let l := (s.lane c).strict
  match l.find? (fun f => decide (f.train = some (trainNow c cycle)) && hasRoom s f && inOrder s f) with
  | some f => some f
  | none =>
    match groupStall s (trainGroup c cycle) with
    | some n => (l.find? (fun f => decide (f.train = none) && decide (hStall f.hdr = n))).filter (fun f => hasRoom s f && inOrder s f)
    | none => none

/-! ## Failed segments (R149, R162–R164) -/

/-- Replace a failed segment in a path: VC3 to the destination, or only round the segment for a packet whose header has passed (R163). -/
def rewritePath (c : Nat) (d : List Nat) (back : Bool) (path : List (Nat × Nat)) : List (Nat × Nat) :=
  match path with
  | [] => []
  | (x, vc) :: r => if x = c then d.map (fun y => (y, 3)) ++ (if back then r else r.map (fun y => (y.1, 3))) else (x, vc) :: rewritePath c d back r

/-- Whether a flit has a segment before it. -/
def goesBy (c : Nat) (f : RingFlit) : Bool := f.path.any (fun x => decide (x.1 = c))

/-- Whether the header of a flit's packet has passed a segment that the flit has before it, among all flits `l` (R163). -/
def headerPassed (l : List RingFlit) (c : Nat) (f : RingFlit) : Bool :=
  !l.any (fun g => decide (g.seq = f.seq) && decide (g.idx = 0) && goesBy c g)

/-- A flit takes the detour: its whole packet where its header had not passed, otherwise the rest of the packet, which rejoins its VC. -/
def rewriteFlit (l : List RingFlit) (c : Nat) (d : List Nat) (f : RingFlit) : RingFlit :=
  if goesBy c f then
    let back := headerPassed l c f
    let first := !l.any (fun g => decide (g.seq = f.seq) && decide (g.idx < f.idx) && goesBy c g)
    { f with hdr := withDetour f.hdr, lead := back && first, bad := false, path := rewritePath c d back f.path }
  else f

/-- A flit that has a segment without a detour before it goes to the agent (R164); none where it cannot. -/
def cutFlit (s : State) (l : List RingFlit) (c : Nat) (f : RingFlit) : Option RingFlit :=
  if goesBy c f then
    let first := headerPassed l c f && !l.any (fun g => decide (g.seq = f.seq) && decide (g.idx < f.idx) && goesBy c g)
    (cutPath s (hDest f.hdr) f.path).map (fun p => { f with hdr := withDetour f.hdr, lead := first, bad := false, path := p })
  else some f

/-- What becomes of the flits of a lane. -/
def moveLane (f : RingFlit → Option RingFlit) (l : LaneOut) : LaneOut :=
  { l with inBuf := l.inBuf.map (fun b => (b.1, b.2.filterMap f)), cont := l.cont.map (fun b => (b.1, b.2.filterMap f)),
           strict := l.strict.filterMap f, retry := l.retry.filterMap f }

/-- A channel is free again where its packet has no flit left that travels by the lane (R148). -/
def freeOwners (l : List RingFlit) (c : Nat) (x : LaneOut) : LaneOut :=
  { x with owner := x.owner.map (fun o => (o.1, if l.any (fun f => decide (f.seq = o.2.pkt) && goesBy c f) then o.2 else { o.2 with left := 0 })) }

/-- A flit joins the lane that it travels by next: a strict one its strict flits, to wait for a train, any other the flits that go on there. -/
def joinLane (f : RingFlit) (s : State) : State :=
  match f.path with
  | (n, _) :: _ =>
    let y := s.lane n
    if hStrict f.hdr then s.setLane n { y with strict := y.strict ++ [{ f with train := none }] }
    else s.setLane n { y with cont := y.cont.set (flitVc f) (Tbl.get y.cont (flitVc f) [] ++ [f]) }
  | [] => s

/-- Flits packet by packet, in the order in which the packets first appear: the flits of one packet stay together in its channel (R148). -/
def byPacket (l : List RingFlit) : List RingFlit := (l.map (·.seq)).eraseDups.flatMap (fun q => l.filter (fun f => decide (f.seq = q)))

/-- The flits on the rings take other paths on account of a segment: at its upstream stop those to be resent first, then those held (R163),
packet by packet (log entry 201). -/
def moveFlits (c : Nat) (f : RingFlit → Option RingFlit) (s : State) : State :=
  let s1 : State := { s with ring := { s.ring with lanes := s.ring.lanes.map (fun x => (x.1, moveLane f x.2)) } }
  let l := s1.lane c
  let s2 := s1.setLane c { l with retry := [], cont := [], strict := [] }
  (byPacket (l.retry ++ l.cont.flatMap (·.2) ++ l.strict)).foldl (fun t g => joinLane g t) s2

/-- The flits that a segment without a detour cuts off go to the agent of their destination's die, and channels that wait for their packets are
free (R164). -/
def cutFlits (c : Nat) (s : State) : State :=
  let s1 := moveFlits c (cutFlit s (ringFlits s) c) s
  let all := ringFlits s1
  { s1 with ring := { s1.ring with lanes := s1.ring.lanes.map (fun x => (x.1, freeOwners all x.1 x.2)) } }

/-- The units behind a stop are retired by their actions (R164, R443); a gateway, an agent and the host's and I/O hubs' units have none. -/
def retireStop (n : Nat) (inc : BitVec 32) (s : State) : State :=
  match unitOf n with
  | some (.engine e) => retireEngine e 0 0 0 s
  | some (.core t) => startRehome t inc (match tileCore s t with | some k => startSubst k 0 inc s | none => spareFailed n s)
  | some (.memory c) => startRetirement c s
  | some (.tetherQuad q) => failLink (2 * q + 1) (failLink (2 * q) s)
  | _ => s

/-- The stops that a segment without a detour cuts off from some source (R164). -/
def cutOff (c : Nat) : List Nat :=
  (List.range 194).filter (fun d => (List.range 194).any (fun a => (route a d).any (fun x => decide (x.1 = c))))

/-- A detour that can no longer be: a running installation ends, recorded as not possible, and a table entry goes (R164, R166). -/
def loseDetour (c : Nat) (s : State) : State :=
  let s1 : State := { s with ring := { s.ring with detours := s.ring.detours.erase c } }
  endRepair 0x05 0x04 (resource 1 c) { outcome := 4 } s1

/-- A segment is declared failed (R149, R162, R164): its detour is begun, or the stops it cuts off are retired and the flits bound for it go to
the agents. Detours that a second failure breaks take their other jog row, or fall under R164 too, under one incident (R166). That failed side
links, and failed segments that found no detour, count among the 32 that the table holds is the model's choice (log entry 193). -/
def segFailed (c : Nat) (s : State) : State :=
  if s.ring.failedSegs.contains c ∨ segValid c = false then s
  else
    let q := strike (resource 1 c) s
    let inc := match s.far.running.find? (fun r => decide (r.action = 0x04)) with | some r => r.incident | none => q.1
    let failed := q.2.ring.failedSegs ++ [c]
    let s1 := { q.2 with ring := { q.2.ring with failedSegs := failed, table := detourTable failed } }
    let rec0 : Rec := { kind := 0x05, cls := 0, resource := resource 1 c }
    let lost := q.2.ring.failedSegs.filter (fun x => (detourFor q.2 x).isSome && (detourFor s1 x).isNone)
    let side := decide (25 ≤ segRing c)
    let mine := detourFor s1 c
    let s2 :=
      if side then recordIn inc rec0 (takeIncident inc s1)
      else match mine with
        | some d =>
          (beginRepair 0x05 { action := 0x04, resource := BitVec.ofNat 16 (resource 1 c), incident := inc, cls := 0,
                              uses := d.map (fun x => BitVec.ofNat 16 (resource 1 x)) } s1).2
        | none => recordIn inc { rec0 with action := 0x04, outcome := 4 } (takeIncident inc s1)
    let dead := (if mine.isNone && !side then [c] else []) ++ lost
    let s3 := dead.foldl (fun t x => cutFlits x t) (lost.foldl (fun t x => loseDetour x t) s2)
    (sortNat (dead.flatMap cutOff)).foldl (fun t n => retireStop n inc t) s3

end Sys2Proof.Machine
end

