-- ==== Sys2Proof/Machine/Rings.lean ====
section
/-! DEFINITION. The rows of the Longe rings (R148–R166, R447). -/

namespace Sys2Proof.Machine

/-- Whether a candidate turns: it comes from another lane's end (R145). -/
def turns (c : Nat) (x : Cand) : Bool := match x.src with | .input p _ => !sameLane p c | _ => false

/-- A flit that leaves its source's stop is injected, and a header that goes from one lane to another is a turn of its packet; both count
in the block of the stop's die (R513; log entry 206). -/
def countSent (c : Nat) (f : RingFlit) (turn : Bool) (s : State) : State :=
  let stop := segFrom c
  if hSrc f.hdr = stop then countRing stop 1 s
  else if turn && decide (f.idx = 0) then countRing stop 2 s
  else s

/-- One cycle of a lane output (R155): a retry flit, the strict flit of the train, an empty slot where the train's group is reserved, or the
winner of the candidates. -/
def ringSend (c cycle : Nat) (flip : Bool) (s : State) : State :=
  let ln := s.lane c
  match ln.retry with
  | f :: r => putFlit c cycle flip f (s.setLane c { ln with retry := r })
  | [] =>
    match strictFlit s c cycle with
    | some f => putFlit c cycle flip f (countSent c f (decide (f.train = none)) (s.setLane c { ln with strict := ln.strict.erase f }))
    | none =>
      if (groupStall s (trainGroup c cycle)).isSome then s
      else match pickCand ln (candidates s c cycle) with
        | none => s
        | some x => putFlit c cycle flip x.flit (countSent c x.flit (turns c x) (noteWinner c x (takeFlit c x s)))

/-- The flits that have come to a stop by its segments in earlier cycles are ejected: a credit that returns is counted before a request of the
same cycle (R166). -/
def ejectAt (stop cycle : Nat) (s : State) : State :=
  (incoming stop).foldl (fun t p => if (t.lane p).now = cycle then t else ejectAll p t) s

/-- RING_ARBITRATION: one cycle of a lane. What its stop's units send enters the local queues, the flits that arrived at its end and at its stop
are ejected and return their credits (R153, R166), and its output sends one flit (R155); `flip` says that it arrives with a single-bit error (R149). -/
def ringCycle (c cycle : Nat) (flip : Bool) (inj : List LocalSrc) (s : State) : State :=
  if segValid c = false then s
  else
    let s0 := inj.foldl (fun t x => queuePacket (segFrom c) x t) s
    let s1 := ejectAt (segFrom c) cycle (ejectAll c s0)
    let s2 := s1.setLane c { s1.lane c with now := cycle }
    if s2.ring.failedSegs.contains c then s2 else ringSend c cycle flip (injectStrict c s2)

def execRingArbitration (seg : BitVec 11) (cycle : RingTick) (inj : List LocalSrc) (s : State) : Answer :=
  .next (ringCycle seg.toNat cycle.num cycle.flip inj s)

/-- The header that heads an input buffer and goes by a lane next. -/
def bufferHead (s : State) (c p v : Nat) : Option RingFlit :=
  if (incoming (segFrom c)).contains p then
    (Tbl.get (s.lane p).inBuf v []).head?.filter (fun f => decide (nextSeg f = some c) && decide (f.idx = 0))
  else none

/-- Change the flit at the head of an input buffer. -/
def mapHead (p v : Nat) (g : RingFlit → RingFlit) (s : State) : State :=
  let l := s.lane p
  match Tbl.get l.inBuf v [] with
  | f :: r => s.setLane p { l with inBuf := l.inBuf.set v (g f :: r) }
  | [] => s

/-- Change the packet at the head of a local queue. -/
def mapQueued (stop q : Nat) (g : QueuedPkt → QueuedPkt) (s : State) : State :=
  match s.ringQueue stop q with
  | x :: r => s.setRingQueue stop q (g x :: r)
  | [] => s

/-- PRIORITY_AGING (R154): a head of PRI 0 or 1 that has waited 1,024 ring cycles is marked until it moves. -/
def execPriorityAging (seg : BitVec 11) (k : HeadKind) (s : State) : Answer :=
  let c := seg.toNat
  match k with
  | .input p v =>
    (match bufferHead s c p.toNat v.val with
     | some f => .next (if hPri f.hdr ≤ 1 then mapHead p.toNat v.val (fun x => { x with aged := true }) s else s)
     | none => .next s)
  | .inject q =>
    (match (s.ringQueue (segFrom c) q.val).head? with
     | some x => .next (if nextSeg (injectFlit s x) = some c ∧ hPri x.hdr ≤ 1 then
         mapQueued (segFrom c) q.val (fun y => { y with aged := true }) s else s)
     | none => .next s)

/-- A promotion is counted (R156, R165, R513). -/
def promotion (c : Nat) (s : State) : State := odBump 0xF010 0x05 (countRing (segFrom c) 4 s)

/-- HEAD_PROMOTION: turning and injection heads only; each promotion is counted (R156, R165). -/
def execHeadPromotion (seg : BitVec 11) (k : HeadKind) (s : State) : Answer :=
  let c := seg.toNat
  match k with
  | .input p v =>
    (match bufferHead s c p.toNat v.val with
     | some f => .next (if sameLane p.toNat c ∨ f.promoted = true then s
                        else promotion c (mapHead p.toNat v.val (fun x => { x with promoted := true }) s))
     | none => .next s)
  | .inject q =>
    (match (s.ringQueue (segFrom c) q.val).head? with
     | some x => .next (if nextSeg (injectFlit s x) = some c ∧ x.promoted = false then
         promotion c (mapQueued (segFrom c) q.val (fun y => { y with promoted := true }) s) else s)
     | none => .next s)

/-- Take a flit that was sent on a segment back from the end of the place where it arrived; none where it has gone on. -/
def unsend (c : Nat) (f : RingFlit) (s : State) : Option State :=
  let same (g : RingFlit) : Bool := decide (g.seq = f.seq) && decide (g.idx = f.idx)
  let ln := s.lane c
  match f.path.drop 1 with
  | [] => if (ln.eject.getLast?.map same).getD false then some (s.setLane c { ln with eject := ln.eject.dropLast }) else none
  | (n, _) :: _ =>
    if hStrict f.hdr then
      let m := s.lane n
      if m.strict.any same then some (s.setLane n { m with strict := m.strict.filter (fun g => !same g) }) else none
    else
      let b := Tbl.get ln.inBuf (flitVc f) []
      if (b.getLast?.map same).getD false then some (s.setLane c { ln with inBuf := ln.inBuf.set (flitVc f) b.dropLast }) else none

/-- FLIT_UE_RETRY: a flit with an uncorrectable error, with those sent after it, is discarded and resent (R149). An error on a resent flit, or the
sixteenth retry on the segment within 1 ms (2,000,000 ring cycles), fails the segment. -/
def execFlitUeRetry (seg : FlitError) (s : State) : Answer :=
  let c := seg.seg.toNat
  let after := seg.after
  let l := s.lane c
  let back := l.sent.drop (l.sent.length - (after.val + 1))
  match back, back.reverse.foldl (fun t f => t.bind (unsend c f)) (some s) with
  | f :: r, some s1 =>
    if back.length ≠ after.val + 1 then .next s
    else
      let l1 := s1.lane c
      let times := l.now :: l.retries.filter (fun x => decide (l.now - x < 2000000))
      let s2 := odBump 0xF010 0x04 (s1.setLane c { l1 with sent := l.sent.take (l.sent.length - back.length), retries := times,
                                                           retry := (f :: r).map (fun g => { g with bad := true }) ++ l1.retry })
      .next (if f.bad ∨ 16 ≤ times.length then segFailed c s2 else s2)
  | _, _ => .next s

/-- The flits of packets that wait to go by a segment that has failed go by its detour (R163). -/
def takeDetour (c : Nat) (d : List Nat) (s : State) : State :=
  let all := ringFlits s
  moveFlits c (fun f => some (rewriteFlit all c d f)) { s with ring := { s.ring with detours := s.ring.detours ++ [c] } }

/-- DETOUR_INSTALLED (R162, R163). -/
def execDetourInstalled (seg : BitVec 11) (s : State) : Answer :=
  let c := seg.toNat
  match s.far.running.find? (fun r => decide (r.action = 0x04) && decide (r.resource.toNat = resource 1 c)), detourFor s c with
  | some _, some d => .next (endRepair 0x05 0x04 (resource 1 c) {} (takeDetour c d s))
  | _, _ => .next s

/-- RING_GROUPS_APPLY: the written groups take effect once the stall's strict flits have drained (R158). -/
def execRingGroupsApply (n : StallId) (s : State) : Answer :=
  let st := s.stall n.val
  let busy := (ringFlits s).any (fun f => hStrict f.hdr && decide (hStall f.hdr = n.val))
  if st.ringPending ∧ busy = false then
    .next (evalStalls (s.setStall n.val { st with ringNow := BitVec.ofNat 32 (odGet s (0x4100 + n.val) 0x20), ringPending := false }))
  else .next s

/-- The behaviour of OD 0xF010.07 (R165). -/
def writeSegFail (v : Nat) (s : State) : State := segFailed (v % 2048) s

/-- SEGMENT_FAIL_TEST. -/
def execSegmentFailTest (path : Path) (code : BitVec 16) (s : State) : Answer :=
  .next (odWriteNat path 0xF010 0x07 code.toNat (writeSegFail code.toNat) s)

/-- A packet that reaches a Farrier agent is counted and makes a PROTOCOL record (R447). -/
def resolved (stop : Nat) (s : State) : State :=
  odBump 0x3000 0x15 (record { kind := 0x0F, cls := 0, resource := if stop < 144 then resource 0 stop else 0xF000 } s)

/-- PACKET_TO_RETIRED_STOP, which needs the die's agent (R433): a snoop is answered GONE, a request goes to the new home, a response is discarded (R447). -/
def execPacketToRetiredStop (k : LostPacket) (s : State) : Answer :=
  let at_ := match k with | .snoop t _ => tileStop t.val | .request _ old => tileStop old.val | .response stop => stop.toNat
  if agentLost s (stopDie at_) then .next s
  else match k with
  | .snoop t pa =>
    let line := lineOf pa
    (match takePkt (tileStop t.val) line (fun x => match x with | .snpShr | .snpInv | .snpClean => true | _ => false) s with
     | some (p, s1) => .next (resolved (tileStop t.val) (sendPkt { stop := tileStop t.val, line := line, kind := .gone, ref := p.ref } s1))
     | none => .next s)
  | .request r old =>
    let sl := s.slice old.val
    let home := homeSlice s (r.pa.toNat / 256)
    (match takeFirst (fun q => decide (q.req = r)) sl.queue with
     | some (q, rest) =>
       if home = old.val then .next s
       else
         let s1 := s.setSlice old.val { sl with queue := rest }
         .next (resolved (tileStop old.val) (s1.setSlice home { s1.slice home with queue := (s1.slice home).queue ++ [q] }))
     | none => .next s)
  | .response stop =>
    (match takeFirst (fun (p : Pkt) => decide (p.stop = stop.toNat) && (match p.kind with | .gnt _ _ _ | .done | .retry | .evictAck | .wbPull => true | _ => false)) s.coh.net with
     | some (_, rest) => .next (resolved stop.toNat { s with coh := { s.coh with net := rest } })
     | none => .next s)

end Sys2Proof.Machine
end

