-- ==== Sys2Proof/Machine/PowerOps.lean ====
section
/-! DEFINITION. Entry into the power states, the restart that bring-up follows, PWRFAIL_N, and the demotions of gaits (R407–R432). -/

namespace Sys2Proof.Machine

/-! ## The entry checks (R412, R414, R415) -/

/-- The load on the stable regulator in DEEP, in units of 0.1 mA (R412). -/
def deepLoad (s : State) : Nat :=
  let b (i n : Nat) : Nat := if natBit (odGet s 0x2000 0x0A) i then n else 0
  120 + b 0 8 + b 1 15 + b 2 90 + b 3 85

/-- Whether no engine descriptor is queued or active and every stripe slot is empty. -/
def enginesEmpty (s : State) : Bool :=
  (List.range 8).all (fun e => (s.engine e).queue.isEmpty && (s.engine e).active.isEmpty && (s.engine e).slots.all (fun x => slotSent s x.2)) &&
    s.eng.held.isEmpty

/-- Whether every tenant stall is FREE. -/
def tenantsFree (s : State) : Bool := s.stalls.all (fun x => decide (x.1 = 0) || decide (x.2.state = .free))

/-- Whether a queue pair has a doorbell whose commands have not been fetched. -/
def doorbellWaits (q : QPair) : Bool := q.enable && !q.error && !q.deleting && decide (0 < sqWaiting q)

/-- Whether the host's side allows SLEEP (R415). -/
def hostQuiet (s : State) : Bool :=
  (List.range 4).all (fun l => [HostLink.l1, .l11, .l12, .down, .off].contains (s.ctl l).link) &&
  s.host.heldIn.isEmpty && s.host.inbox.isEmpty && !(s.host.qps.any (fun x => doorbellWaits x.2)) && s.host.fns.all (fun x => x.2.drain.isNone)

/-- Whether the host's side allows DEEP and OFF. -/
def hostDown (s : State) : Bool := (List.range 4).all (fun l => [HostLink.down, .off].contains (s.ctl l).link)

/-- The checks of an entry in order, by refuser code (R415). -/
def entryChecks (s : State) (x : PowerState) : List (Nat × Bool) :=
  let low := !(decide (x = .idle))
  let cold := decide (x = .sleep) || decide (x = .deep)
  [(1, decide ((if low then otherRepairs s else repairsRunning s) = 0)),
   (2, !low || (s.serial.isEmpty && !s.pwr.flushing)),
   (3, !low || enginesEmpty s),
   (4, !low || (List.range 128).all (fun h => decide ((s.shelf h).state = .asleep))),
   (5, !low || (!anyMigration s && s.mc.channels.all (fun c => c.2.sppr.isNone))),
   (6, !cold || s.mc.dimmTemps.all (fun t => decide (10 ≤ t.2))),
   (7, if x = .sleep then hostQuiet s else !low || hostDown s),
   (8, !decide (x = .deep) || decide (deepLoad s ≤ 220)),
   (9, !decide (x = .off) || (tenantsFree s && s.eng.pool.isEmpty))]

/-- The refuser of an entry: the first check that fails. -/
def refuser (s : State) (x : PowerState) : Option Nat := ((entryChecks s x).find? (fun c => !c.2)).map (·.1)

/-- An entry is refused: counted under the refuser's code (R415, R431). -/
def refuseEntry (x : PowerState) (code : Nat) (s : State) : State :=
  odSet (0x2010 + x.code) 0x0D code (odBump (0x2010 + x.code) (0x01 + code) s)

/-- An entry attempt: its checks, then the entry's steps (R415, R431). -/
def attemptEntry (x : PowerState) (enter : State → State) (s : State) : State :=
  let s1 := odBump (0x2010 + x.code) 0x01 s
  match refuser s1 x with
  | some c => refuseEntry x c s1
  | none => enter s1

/-- Whether an autonomous entry may be attempted: POWER_FLOOR permits it, and bring-up is over (R414, R497). -/
def entryPermitted (s : State) (x : PowerState) : Bool := s.boot.ready && s.pwr.entering.isNone && decide (x.code ≤ odGet s 0x2000 0x02)

/-- Whether a core is in WFI or runs nothing. -/
def coreIdle (s : State) (k : Nat) : Bool :=
  let c := s.core k
  !c.started || c.waiting || c.stopped || !corePowered s k

/-! ## SLEEP, DEEP and OFF (R416) -/

/-- A domain that is up goes to retention, or down. -/
def downDom (v : DomState) (d : Domain) (s : State) : State := if domState s d = .up then setDom d v s else s

/-- A core keeps its registers and nothing else that its tile's L2 and nap log do not hold: the first-level caches, the TLB, the walk cache
and the predictors are empty once the domain has been down (R328, R418; log entry 164). -/
def dropSmallCaches (k : Nat) (s : State) : State :=
  s.setCore k { s.core k with tlb := [], walkCache := [], l1i := [], l1d := [], specFill := [], btb := [], returnStack := [], direction := [],
                              streamsL1 := [], streamsL2 := [] }

/-- A powered core tile writes back its dirty lines and its domain goes down, with L2 in retention (R273); what the core has retired is
written first. -/
def retainTile (s : State) (t : SliceId) : State :=
  if domState s (.coreTile t) = .up then
    let s0 := match tileCore s t.val with
      | some k => dropSmallCaches k ((drainStores k s).getD s)
      | none => s
    let s1 := cleanTile t.val s0
    setDom (.coreTile t) .retention (s1.setTile t.val { s1.tile t.val with retention := true })
  else s

/-- A channel writes back its tack cache and enters self-refresh (R303). -/
def retainChannel (s : State) (c : ChanId) : State :=
  downDom .down (.channel c) (mapChan c.val (fun x =>
    if x.poweredOff then x else { x with tackCache := x.tackCache.map (fun t => (t.1, false)), inSelfRefresh := true }) s)

/-- Steps 2–6 of SLEEP entry. -/
def sleepSteps (s : State) : State :=
  let s1 := (List.finRange 136).foldl retainTile s
  let s2 := (List.finRange 16).foldl retainChannel s1
  let s3 := (List.finRange 8).foldl (fun t e => downDom .retention (.engine e) t) s2
  let s4 := (List.finRange 4).foldl (fun t l => downDom .retention (.hostCtl l) t) s3
  let s5 := (List.finRange 136).foldl (fun t k => downDom .retention (.slice k) t) s4
  (List.finRange 2).foldl (fun t d => downDom .down (.ring d) t) s5

/-- SLEEP is reached. -/
def finishSleep (s : State) : State :=
  setPower .sleep (sleepSteps { s with pwr := { s.pwr with entering := none, quietWait := [] } })

/-- Step 1 of SLEEP entry: QUIET_REQ on every ACTIVE link; with none, the entry goes on at once. -/
def startSleep (s : State) : State :=
  let links := (List.range 32).filter (fun l => decide ((s.link l).state = .active))
  let ask (t : State) (l : Nat) : State :=
    let u := if (t.link l).quietSent then t else sendCtl l 6 0 true t
    u.setLink l { u.link l with quietSent := true }
  let s1 := links.foldl ask s
  if links.isEmpty then finishSleep s1 else { s1 with pwr := { s1.pwr with entering := some .sleep, quietWait := links } }

/-- Steps 7–10: DEEP is entered from SLEEP. -/
def finishDeep (s : State) : State :=
  let s1 := saveLog (storeBag s)
  setPower .deep ((List.finRange 4).foldl (fun t l => setDom (.hostCtl l) .down t) s1)

/-! ## Going down, and what the next bring-up finds (R411, R416, R426, R436, R441, R442, R488, R490) -/

/-- A device record (R490): a saddlebag entry that no class may write. -/
def deviceRecord (k : Nat) : Bool :=
  match odEntry (k / 256) (k % 256) with
  | some e => e.bag && !(e.h.permits true) && !(e.s.permits true) && !(e.t.permits true) && !(e.f.permits true)
  | none => false

/-- Status entries that the repair map gives again: retired slices and engines (R85, R446, R501). -/
def mapStatus (k v : Nat) : Bool :=
  let i := k / 256
  (decide (0x5101 ≤ i ∧ i ≤ 0x5188 ∧ k % 256 = 1) && decide (v = 2)) || decide (k = 0x700001) ||
    (decide (0x7001 ≤ i ∧ i ≤ 0x7008 ∧ k % 256 = 1) && decide (v = 2))

/-- What the repair map keeps of a channel (R296, R306–R308): its marks are applied again, and its soft repairs as hard ones. -/
def keepChannel (x : Channel) : Channel :=
  { state := if x.state = 3 then 3 else if x.migration.isSome then 2 else if x.marked.isEmpty then 0 else 1,
    hardRepairs := x.hardRepairs ++ x.softRepairs, marked := x.marked, spare := x.spare, pprUsed := x.pprUsed,
    rowsNoPpr := x.rowsNoPpr, migration := x.migration, spared := x.spared, moved := x.moved, poweredOff := x.poweredOff }

/-- What the saddlebag keeps of the Farrier; unsaved entries leave a gap in the numbering (R441, R442). -/
def keepFarrier (f : Farrier) : Farrier :=
  let all := f.log.all (fun e => e.saved)
  let pair (x : GroomState) : GroomState := if x = .failed ∨ x = .retired then x else .standby
  { log := f.log.filter (fun e => e.saved), lastSeq := if all then f.lastSeq else f.seqLimit, seqLimit := f.seqLimit,
    lastIncident := if all then f.lastIncident else f.incidentLimit, incidentLimit := f.incidentLimit,
    spares := f.spares, failedSpares := f.failedSpares, coreMap := f.coreMap, offline := f.offline, pair0 := pair f.pair0,
    pair1 := pair f.pair1, failedOnce := f.failedOnce, agents := f.agents, hours := f.hours }

/-- A port keeps the serial recorded for it, its retirement and a move to another shelf that has not been made (R130, R138). -/
def keepPort (x : Port) : Port :=
  { state := if x.state = .retired then .retired else .offline, serial := x.serial }

/-- The device as it stands before bring-up: every domain has been powered down, and what flash does not hold is lost. FLAGS tell why. -/
def restart (flags : Nat) (s : State) : State :=
  let lostFlush := s.pwr.flushStopped || s.pwr.flushing
  let od : Tbl Nat := s.od.filter (fun x => deviceRecord x.1 || mapStatus x.1 x.2)
  let mc : McSys := { capacity := s.mc.capacity, dimmRanks := s.mc.dimmRanks, rate := s.mc.rate, channels := s.mc.channels.map (fun x => (x.1, keepChannel x.2)), retired := s.mc.retired, unreadable := s.mc.unreadable }
  let engines := (s.eng.engines.filter (fun x => decide (x.2.state = 2))).map (fun x => (x.1, ({ state := 2 } : Engine)))
  { pending := s.pending, free := s.free, out := s.out, flash := s.flash,
    od := od.set (odKey 0x2000 0x12) (flags + if lostFlush then 4 else 0),
    mc := mc, coh := { home := s.coh.home }, ring := { failedSegs := s.ring.failedSegs, table := s.ring.table, detours := s.ring.detours },
    eng := { engines := engines, bankOwner := s.eng.bankOwner },
    ports := s.ports.map (fun x => (x.1, keepPort x.2)),
    host := { perst := s.host.perst, ctl := s.host.ctl.map (fun x => (x.1, ({ spares := x.2.spares } : HostCtl))) },
    pwr := { lost := s.pwr.lost, dead := s.pwr.dead, flushSeq := s.pwr.flushSeq, flushStopped := lostFlush, thermtrip := s.pwr.thermtrip },
    far := keepFarrier s.far, tap := { s.tap with hold := false, floating := false } }

/-- OFF: everything but the WAKE_N circuit is off. -/
def turnOff (flags : Nat) (s : State) : State :=
  let s1 := restart flags s
  { s1 with pwr := { s1.pwr with state := .off } }

/-- OFF entry: the saddlebag is complete, then every regulator is turned off; the transition raises its source first (R414, R416). -/
def finishOff (s : State) : State := turnOff 0 (saveLog (storeBag (setPower .off s)))

/-- The behaviour of POWER_REQUEST (R414, R430). -/
def writePowerRequest (path : Path) (v : Nat) (s : State) : State :=
  let answer (n : Nat) (t : State) : State := pathSet path 0x2000 0x07 n t
  if v = 1 then wakeDevice 8 (answer resOk s)
  else if s.pwr.entering.isSome then answer resBusy s
  else if !s.boot.ready then answer resDenied s
  else
    let s1 := odBump 0x2014 0x01 s
    match refuser s1 .off with
    | some c => answer resDenied (refuseEntry .off c s1)
    | none => finishOff (answer resOk s1)

/-! ## Power failure (R427, R428, R432) -/

/-- PWRFAIL_N has asserted, or something is handled as that: acted on in RUN, IDLE and SLEEP, where it aborts an entry (R432; log
entry 165). Leaving DEEP, it waits until SLEEP is reached; before READY no flush set is written. -/
def powerFails (s : State) : State :=
  if s.pwr.pwrfail then s
  else match s.pwr.state with
    | .off => s
    | .deep => if s.pwr.deepExit.isSome then { s with pwr := { s.pwr with pwrfail := true } } else s
    | _ =>
      let s0 := match s.pwr.entering with
        | some x => abortEntry x 0 s
        | none => s
      let s1 := { s0 with pwr := { s0.pwr with pwrfail := true, flushing := s0.boot.ready },
                          boot := { s0.boot with heating := 0 } }
      if s.boot.ready then gaitEval (raiseWith 0x542 false [] s1) else s1

/-- What a power failure met while the device left DEEP does once it is in SLEEP. -/
def powerFailsNow (s : State) : State :=
  if s.pwr.pwrfail ∧ !s.pwr.flushing then gaitEval (raiseWith 0x542 false [] { s with pwr := { s.pwr with flushing := true } }) else s

/-! ## Demotions (R426) -/

/-- An I32 as the dictionary holds it. -/
def i32Nat (x : Int) : Nat := (BitVec.ofInt 32 x).toNat
/-- A number of the dictionary read as an I32. -/
def natI32 (n : Nat) : Int := (BitVec.ofNat 32 n).toInt

/-- The hottest junction sensor. -/
def hottest (s : State) : Int := natI32 (odGet s 0x2000 0x11)

/-- Whether the cause of a demotion is present. -/
def causePresent (s : State) (d : Demotion) : Bool :=
  match d with
  | .powerCap => s.pwr.overCap
  | .thermal1 => decide ((odGet s 0x2000 0x0F : Int) ≤ hottest s)
  | .thermal2 => decide ((odGet s 0x2000 0x0F : Int) + 5 ≤ hottest s)
  | .droop die => decide (20 < Tbl.get s.pwr.droopCount die.val 0)

/-- A demotion is raised, as a thermal or as a power event. -/
def raiseDemotion (d : Demotion) (s : State) : State :=
  match d with
  | .thermal1 | .thermal2 => raiseWith 0x543 false (bytesOfNat 4 (odGet s 0x2000 0x11)) s
  | _ => raiseWith 0x541 false [BitVec.ofNat 8 s.pwr.state.code, BitVec.ofNat 8 (odGet s 0x2000 0x09)] s

/-- Enter a demotion that applies to all its cores at once. -/
def demote (d : Demotion) (s : State) : State :=
  if s.pwr.demotions.contains d then s
  else
    let s1 := raiseDemotion d { s with pwr := { s.pwr with demotions := d :: s.pwr.demotions } }
    match d with
    | .thermal1 | .thermal2 => odBump 0x2000 0x19 s1
    | _ => s1

/-- The core that the power cap demotes next, and its new gait: the Gallop core granted last, then the highest Canter core (R426). -/
def nextCapped (s : State) : Option (Nat × BitVec 2) :=
  let free (k : Nat) : Bool := !(s.stall (coreStall s k)).strictActive && corePowered s k && !(s.core k).walk
  match s.pwr.gallopOrder.reverse.find? (fun k => decide ((s.corePwr k).grant = 2) && free k) with
  | some k => some (k, 1)
  | none =>
    match (List.range 128).reverse.find? (fun k => decide ((s.corePwr k).grant = 1) && free k && (s.core k).started) with
    | some k => some (k, 0)
    | none => none

/-- One step of the power cap: one core is demoted in each sample until power is 5 W under the cap (log entry 96). -/
def capStep (s : State) : State :=
  if !s.pwr.overCap then s
  else match nextCapped s with
    | none => s
    | some x =>
      let p := { s.pwr with capped := x :: s.pwr.capped,
                            demotions := if s.pwr.demotions.contains .powerCap then s.pwr.demotions else .powerCap :: s.pwr.demotions }
      gaitEval (odBump 0x2000 0x18 (raiseDemotion .powerCap { s with pwr := p }))

/-- A thermal trip: all domains except the WAKE_N circuit go off at once (R426). -/
def thermalTrip (s : State) : State := turnOff 2 { s with pwr := { s.pwr with thermtrip := true } }

/-- Package power and the junction sensors are measured (R426). -/
def powerSample (watts : Nat) (temps : List Int) (s : State) : State :=
  let s1 := odSet 0x2000 0x10 (min 65535 watts) s
  let hot : Option Int := temps.foldl (fun b t => match b with | none => some t | some m => some (max m t)) none
  let s2 := match hot with | some t => odSet 0x2000 0x11 (i32Nat t) s1 | none => s1
  if decide (130 ≤ hottest s2) && hot.isSome then thermalTrip s2
  else
    let cap := odGet s2 0x2000 0x0E
    let above := if cap < watts then true else if watts + 5 ≤ cap then false else s2.pwr.overCap
    let s3 := { s2 with pwr := { s2.pwr with overCap := above } }
    let s4 := if causePresent s3 .thermal1 then demote .thermal1 s3 else s3
    let s5 := if causePresent s4 .thermal2 then demote .thermal2 s4 else s4
    capStep (gaitEval s5)

/-- A demotion is lifted: the newest of those whose cause is absent, and of the power cap its newest core (R426; log entry 96). -/
def liftDemotion (d : Demotion) (s : State) : State :=
  if decide (s.pwr.demotions.find? (fun x => !causePresent s x) ≠ some d) then s
  else
    let drop : State := { s with pwr := { s.pwr with demotions := s.pwr.demotions.filter (fun x => decide (x ≠ d)) } }
    match d with
    | .powerCap =>
      let rest := s.pwr.capped.drop 1
      gaitEval (if rest.isEmpty then { drop with pwr := { drop.pwr with capped := [] } } else { s with pwr := { s.pwr with capped := rest } })
    | _ => gaitEval drop

end Sys2Proof.Machine
end

