-- ==== Sys2Proof/Machine/Power.lean ====
section
/-! DEFINITION. The commands of the power controller, the clocks and the supply (R407–R432), and QUIET_ACK (R114). -/

namespace Sys2Proof.Machine

/-! ## Entries (R414–R417) -/

/-- A link of a SLEEP entry is quiet; the last one lets the entry go on. -/
def linkQuiet (l : Nat) (s : State) : State :=
  if s.pwr.entering = some .sleep ∧ s.pwr.quietWait.contains l = true then
    let rest := s.pwr.quietWait.filter (fun x => decide (x ≠ l))
    let s1 := { s with pwr := { s.pwr with quietWait := rest } }
    if rest.isEmpty then finishSleep s1 else s1
  else s

/-- FLIT_SLOT: at the superframe boundary after QUIET_ACK the link goes to electrical idle (R114); otherwise the slot's flit is sent. -/
def execFlitSlot (l : LinkId) (s : State) : Answer :=
  let k := s.link l.val
  if k.quietNext ∧ k.slot = 0 ∧ k.state = .active then .next (linkQuiet l.val (setLinkState l.val .quiet (s.setLink l.val { k with quietNext := false })))
  else .next (flitSlot l.val s)

/-- QUIET_ACK: both ends stop at the next superframe boundary (R114). -/
def quietAck (l : Nat) (hdr : BitVec 40) (s : State) : State :=
  if !receives (s.link l) then s
  else
    let r := acceptCtl l hdr s
    let k := r.2.link l
    if r.1 ∧ k.quietSent ∧ k.state = .active then
      r.2.setLink l (answered 6 { k with quietSent := false, quietNext := true })
    else r.2

def execQuietAck (l : LinkId) (hdr : BitVec 40) (s : State) : Answer := .next (quietAck l.val hdr s)

/-- QUIET_ACK_TIMEOUT: refuser TETHER_LINKS ends the entry (R415). -/
def execQuietAckTimeout (l : LinkId) (s : State) : Answer :=
  if s.pwr.entering = some .sleep ∧ s.pwr.quietWait.contains l.val = true then
    let s1 := s.pwr.quietWait.foldl (fun t j => t.setLink j (answered 6 { t.link j with quietSent := false })) s
    .next (refuseEntry .sleep 10 { s1 with pwr := { s1.pwr with entering := none, quietWait := [] } })
  else .next s

/-- IDLE_ENTRY_TIMEOUT. -/
def execIdleEntryTimeout (s : State) : Answer :=
  if s.pwr.state = .run ∧ entryPermitted s .idle = true ∧ (List.range 128).all (coreIdle s) = true then
    .next (attemptEntry .idle (setPower .idle) s)
  else .next s

/-- SLEEP_ENTRY_TIMEOUT. -/
def execSleepEntryTimeout (s : State) : Answer :=
  if s.pwr.state = .idle ∧ entryPermitted s .sleep = true then .next (attemptEntry .sleep startSleep s) else .next s

/-- DEEP_ENTRY_TIMEOUT. -/
def execDeepEntryTimeout (s : State) : Answer :=
  if s.pwr.state = .sleep ∧ entryPermitted s .deep = true then .next (attemptEntry .deep finishDeep s) else .next s

/-- POWER_REQUEST_WAKE. -/
def execPowerRequestWake (path : Path) (s : State) : Answer := .next (odWriteNat path 0x2000 0x06 1 (writePowerRequest path 1) s)

/-- POWER_REQUEST_OFF. -/
def execPowerRequestOff (path : Path) (s : State) : Answer := .next (odWriteNat path 0x2000 0x06 2 (writePowerRequest path 2) s)

/-! ## Wake sources (R420, R421) -/

/-- WAKE_N_FALL: OFF is left by bring-up; during bring-up it has no effect (R421, R509). -/
def execWakeNFall (s : State) : Answer :=
  if s.pwr.state = .off then .next { s with pwr := { s.pwr with state := .run } }
  else if !s.boot.ready ∨ s.far.fatal then .next s
  else .next (wakeDevice 5 s)

/-- WAKE_TIMER_EXPIRY: WAKE_AT has counted down to zero. -/
def execWakeTimerExpiry (s : State) : Answer :=
  if odGet s 0x2000 0x08 = 0 ∨ s.pwr.state = .off then .next s else .next (wakeDevice 6 (odSet 0x2000 0x08 0 s))

/-- Whether the halter port is idle: it holds no transaction, and no request of it waits or is unread (R477; log entry 167). -/
def halterIdle (s : State) : Bool := !s.side.sclHeld && !s.side.halterPending && s.side.halterReply.isNone

/-- The address in force at the halter port: a written HALTER_ADDR applies once the port is idle (R477). -/
def halterAddr (s : State) : Nat := if halterIdle s then sideVal s 0x16 else s.side.halterAddr

/-- HALTER_ADDRESS_MATCH: SCL is held until the port takes the transaction. In DEEP, DEEP_STB_LOAD bit 2 lets a Read Byte of command 0x03
be answered without a wake (R476). -/
def execHalterAddressMatch (addr : BitVec 7) (cmd : BitVec 8) (s : State) : Answer :=
  if addr.toNat ≠ halterAddr s then .next s
  else
    let s1 := { s with side := { s.side with sclHeld := true, halterNack := false, halterAddr := addr.toNat } }
    if s.pwr.state = .deep ∧ natBit (odGet s 0x2000 0x0A) 2 = true ∧ cmd = 3 then .next s1 else .next (wakeDevice 4 s1)

/-- HALTER_HOLD_TIMEOUT: SCL is released and the next byte is NACKed (R476). -/
def execHalterHoldTimeout (s : State) : Answer :=
  if s.side.sclHeld then .next { s with side := { s.side with sclHeld := false, halterNack := true } } else .next s

/-! ## Domains (R418, R419) -/

/-- What a domain does once it is up. -/
def domainUp (d : Domain) (s : State) : State :=
  match d with
  | .coreTile t => if (s.tile t.val).retention then applyNap t.val s else s
  | .channel c => mapChan c.val (fun x => { x with inSelfRefresh := false }) s
  | .hostCtl _ | .ring _ => releaseTlps s
  | _ => s

/-- DOMAIN_WAKE_DONE: a domain is up; a core tile's L2 that a full nap log woke by itself applies its log (R273). -/
def execDomainWakeDone (d : Domain) (s : State) : Answer :=
  if domState s d = .waking then
    let s1 := setDom d .up { s with pwr := { s.pwr with wakeTries := s.pwr.wakeTries.filter (fun x => decide (x.1 ≠ d)) } }
    .next (domainUp d s1)
  else .next (match d with
    | .coreTile t =>
      if (s.tile t.val).l2Waking then
        applyNap t.val { s with pwr := { s.pwr with wakeTries := s.pwr.wakeTries.filter (fun x => decide (x.1 ≠ d)) } }
      else s
    | _ => s)

/-- DEEP_EXIT_DONE: the device is in SLEEP; the watchdog restarts, a power failure met on the way is acted on, and the wake event is then
handled as in SLEEP (R414, R418, R432, R460). -/
def execDeepExitDone (s : State) : Answer :=
  match s.pwr.state, s.pwr.deepExit with
  | .deep, some cause =>
    let s1 := setPower .sleep (odSet 0x2000 0x09 cause { s with pwr := { s.pwr with deepExit := none } })
    .next (pumpCan (powerFailsNow (wakeDevice cause (restartWdog s1))))
  | _, _ => .next s

/-- The resource a domain's records name (R439). -/
def domResource (d : Domain) : Nat :=
  match d with
  | .coreTile t => resource 0 (tileStop t.val)
  | .slice k => resource 0 (tileStop k.val)
  | .engine e => resource 7 e.val
  | .channel c => resource 3 c.val
  | _ => 0xF000

/-- A unit whose wake has failed twice is treated as failed (R419, R443). -/
def domainFailed (d : Domain) (s : State) : State :=
  let s1 := recordDeadline 3 (domResource d) s
  let q := strike (domResource d) s1
  match d with
  | .coreTile t =>
    (match tileCore s t.val with
     | some k => startSubst k 4 q.1 q.2
     | none => spareFailed (tileStop t.val) s1)
  | .slice k => startRehome k.val q.1 q.2
  | .engine e => retireEngine e.val 0 0 0 s1
  | .channel c => startRetirement c.val s1
  | _ => s1

/-- DL_WAKE_EXPIRY: the first expiry restarts the wake, the second fails the unit; Tether quads are exempt (R419). -/
def execDlWakeExpiry (d : Domain) (s : State) : Answer :=
  let quad := match d with | .quad _ => true | _ => false
  let l2Alone := match d with | .coreTile t => (s.tile t.val).l2Waking | _ => false
  if (domState s d ≠ .waking ∧ !l2Alone) ∨ quad = true then .next s
  else
    let s1 := odBump 0x2000 0x17 s
    if s.pwr.wakeTries.any (fun x => decide (x.1 = d)) then
      .next (domainFailed d { s1 with pwr := { s1.pwr with wakeTries := s1.pwr.wakeTries.filter (fun x => decide (x.1 ≠ d)) } })
    else .next { s1 with pwr := { s1.pwr with wakeTries := (d, 1) :: s1.pwr.wakeTries } }

/-! ## Gaits and demotions (R424–R427) -/

/-- GAIT_GRANT_EVAL: every 100 µs; ten make the millisecond in which droops are counted. -/
def execGaitGrantEval (s : State) : Answer :=
  let n := (s.pwr.evals + 1) % 10
  .next (gaitEval { s with pwr := { s.pwr with evals := n, droopCount := if n = 0 then [] else s.pwr.droopCount } })

/-- GAIT_VOLTAGE_RAMPED: the core's clock switches to the granted gait (R425). -/
def execGaitVoltageRamped (c : CoreId) (s : State) : Answer :=
  let p := s.corePwr c.val
  .next (if p.gait < p.grant then s.setCorePwr c.val { p with gait := p.grant } else s)

/-- Whether power and temperature are measured: in DEEP only where DEEP_STB_LOAD bit 1 asks for it (R412). -/
def samples (s : State) : Bool :=
  decide (s.pwr.state ≠ .off) && (decide (s.pwr.state ≠ .deep) || natBit (odGet s 0x2000 0x0A) 1)

/-- POWER_THERMAL_SAMPLE. -/
def execPowerThermalSample (watts : Nat) (temps : List Int) (s : State) : Answer :=
  .next (if samples s then powerSample watts temps s else s)

/-- DEMOTION_LIFT. -/
def execDemotionLift (d : Demotion) (s : State) : Answer := .next (liftDemotion d s)

/-- DROOP_LEVEL1: counted, and the die's clocks are stretched; more than 20 in a millisecond are level 2 (R427). -/
def execDroopLevel1 (die : Fin 2) (s : State) : Answer :=
  let n := Tbl.get s.pwr.droopCount die.val 0 + 1
  let s1 := odBump 0x2000 0x13 { s with pwr := { s.pwr with stretch := s.pwr.stretch ||| ((1 : BitVec 2) <<< die.val),
                                                            droopCount := s.pwr.droopCount.set die.val n } }
  .next (if 20 < n then gaitEval (demote (.droop die) s1) else s1)

/-- CLOCK_STRETCH_END. -/
def execClockStretchEnd (die : Fin 2) (s : State) : Answer :=
  .next { s with pwr := { s.pwr with stretch := s.pwr.stretch &&& ~~~((1 : BitVec 2) <<< die.val) } }

/-- DROOP_LEVEL3: counted, and handled as a PWRFAIL_N assertion. -/
def execDroopLevel3 (s : State) : Answer := .next (powerFails (odBump 0x2000 0x14 s))

/-! ## The supply (R407–R411, R428, R538) -/

/-- PWRFAIL_ASSERT: ignored in DEEP and OFF (R428). -/
def execPwrfailAssert (s : State) : Answer :=
  if s.pwr.state = .off ∨ (s.pwr.state = .deep ∧ s.pwr.deepExit.isNone) then .next s else .next (powerFails (odBump 0x2000 0x15 s))

/-- FLUSH_SET_WRITTEN: the copy and its header are written; records and dictionary values are saved. -/
def execFlushSetWritten (s : State) : Answer :=
  if s.pwr.flushing then
    let s1 := saveLog (storeBag s)
    .next { s1 with pwr := { s1.pwr with flushing := false, flushSeq := s1.pwr.flushSeq + 1, flushStopped := false } }
  else .next s

/-- DL_FLUSH_EXPIRY: saving stops; the header is not written. -/
def execDlFlushExpiry (s : State) : Answer :=
  if s.pwr.flushing then .next (odBump 0x2000 0x16 { s with pwr := { s.pwr with flushing := false, flushStopped := true } }) else .next s

/-- PWRFAIL_DEASSERT_STABLE: fetching and wakes resume, and grants return to R424. -/
def execPwrfailDeassertStable (s : State) : Answer :=
  if s.pwr.pwrfail then .next (gaitEval { s with pwr := { s.pwr with pwrfail := false } }) else .next s

/-- BROWN_OUT: everything else goes down as in OFF, and bring-up starts over (R411). -/
def execBrownOut (s : State) : Answer := .next (restart 1 s)

/-- The resource of a regulator (R439). -/
def regResource (r : Regulator) : Nat :=
  match r with
  | .coreTile t => resource 8 (tileStop t.val)
  | .engine e => resource 8 (engineStops.getD e.val 0)
  | .uncore d => resource 8 (144 + d.val)
  | .memLogic d => resource 8 (146 + d.val)
  | .retention d => resource 8 (148 + d.val)

/-- What a shed phase does to a regulator's load: `again` says that one was lost before (R410). -/
def shedEffect (r : Regulator) (again : Bool) (s : State) : State :=
  match r with
  | .coreTile t =>
    if again then
      let q := strike (resource 0 (tileStop t.val)) s
      (match tileCore s t.val with
       | some k => startSubst k 3 q.1 q.2
       | none => spareFailed (tileStop t.val) s)
    else gaitEval s
  | .engine e => if again then s else retireEngine e.val 0 0 0 s
  | .uncore _ | .memLogic _ => gaitEval s
  | .retention _ => s

/-- The Farrier sheds a failed phase, with a record (R410, R443). -/
def shedPhase (r : Regulator) (s : State) : State :=
  let again := s.pwr.lost.contains r
  let p := s.pwr
  let p1 := if again then { p with dead := if p.dead.contains r then p.dead else r :: p.dead } else { p with lost := r :: p.lost }
  shedEffect r again (repairNow { kind := 0x09, cls := 0, resource := regResource r, action := 0x0D } { s with pwr := p1 })

/-- PHASE_FAULT. -/
def execPhaseFault (r : Regulator) (s : State) : Answer := .next (shedPhase r s)

/-- RAIL_OUT_OF_TOLERANCE: VCC_IN is the droop detectors' concern; another rail is handled as a PWRFAIL_N assertion and recorded, in RUN,
IDLE and SLEEP (R538). -/
def execRailOutOfTolerance (r : Rail) (s : State) : Answer :=
  if r = .vccIn ∨ s.pwr.state = .deep ∨ s.pwr.state = .off then .next s
  else .next (powerFails (record { kind := 0x0D, cls := 0 } s))

end Sys2Proof.Machine
end

