-- ==== Sys2Proof/Machine/Access.lean ====
section
/-! DEFINITION. What a dictionary access reads, what a write of each entry does, and the serializer that performs the accesses
(R465–R467, R479–R495). -/

namespace Sys2Proof.Machine

/-! ## Values that entries read -/

/-- Bits `i` of a list of indexes. -/
def bitsOf (l : List Nat) : Nat := l.foldl (fun n i => n ||| 2 ^ i) 0

/-- A word made of fields, each with its lowest bit. -/
def packNat (l : List (Nat × Nat)) : Nat := l.foldl (fun n x => n + x.1 * 2 ^ x.2) 0

def boolNat (b : Bool) : Nat := if b then 1 else 0

/-- A context's record (R58). -/
def ctxNat (s : State) (n : Nat) : Nat :=
  let x := s.ctx n
  packNat [(x.state.ctorIdx, 0), (x.stall.toNat, 3), (x.cls.toNat, 12), (boolNat x.sealsReq, 14), (boolNat x.forceBuf, 15),
           (ctxEngine s n, 16), (boolNat x.spilled, 19), (x.active, 32), (x.queued, 40), (x.stripesDone.toNat, 64),
           (x.bytesDone.toNat, 128), (x.faults.toNat, 192), (x.ingress.toNat, 224)]

/-- A queue pair's record (R373). -/
def qpNat (x : QPair) : Nat :=
  packNat [(boolNat x.enable, 0), (boolNat x.soft, 1), (boolNat x.error, 2), (x.sqLog2.toNat, 4), (x.cqLog2.toNat, 9), (x.vector.toNat, 16),
           (boolNat x.irqEn, 23), (x.coalCount.toNat, 24), (x.coalTime.toNat, 32), (x.inboxCore.toNat, 48), (x.sqBase.toNat, 64),
           (x.cqBase.toNat, 128), (x.inboxBase.toNat, 192), (x.sqHead.toNat, 256), (x.sqTail.toNat, 272), (x.cqTail.toNat, 288),
           (x.cqHead.toNat, 304)]

/-- A source's state (R405). -/
def srcNat (s : State) (i : Nat) : Nat :=
  let x := s.source i
  packNat [(x.count, 0), (boolNat x.signalled, 8), (boolNat x.saturated, 9), (x.inbox.toNat, 128)]

/-- A fault-log entry of 48 bytes (R437). -/
def logNat (e : LogEntry) : Nat :=
  packNat [(e.seq.toNat, 0), (e.kind.toNat, 32), (e.cls.toNat, 40), (boolNat e.saved, 42), (e.boot.toNat, 48), (e.time.toNat, 64),
           (e.body.toNat, 128)]

/-- The entry that a path's LOG_SELECT names (R455). -/
def selectedLog (s : State) (p : Path) : Option LogEntry :=
  s.far.log.find? (fun e => decide (e.seq.toNat = pathGet s p 0x3000 0x03))

/-- The links in a state. -/
def linksIn (s : State) (st : LinkState) : Nat := bitsOf ((List.range 32).filter (fun l => decide ((s.link l).state = st)))

def readIdentity (s : State) (sub : Nat) : Option Nat :=
  match sub with
  | 0x05 => some (boolNat s.boot.ready)
  | 0x09 => some (freeValue s).toNat
  | 0x0A => some s.boot.valuesSource
  | 0x0D => some (min 65535 s.bagPending.length + s.boot.replaced % 65536 * 65536)
  | 0x21 => some s.boot.patchVersion.toNat
  | _ => none

def readFarrier (s : State) (p : Path) (sub : Nat) : Option Nat :=
  match sub with
  | 0x01 => some (match s.far.log.getLast? with | some e => e.seq.toNat | none => 0)
  | 0x02 => some (match s.far.log.head? with | some e => e.seq.toNat | none => 0)
  | 0x04 => some (match selectedLog s p with | some e => logNat e | none => 0)
  | 0x05 => some (if (selectedLog s p).isSome then 0 else 1)
  | 0x06 => some s.far.lastIncident.toNat
  | 0x0B => some (serviceState s)
  | 0x0C => some (bitsOf s.far.spares)
  | 0x0D => some s.far.offline.toNat
  | 0x10 => some (repairsRunning s)
  | 0x16 => some (s.far.pair0.ctorIdx + 4 * s.far.pair1.ctorIdx)
  | 0x17 => some s.far.agents.toNat
  | 0x19 => some s.far.hours.toNat
  | _ => none

def readChannel (s : State) (c sub : Nat) : Option Nat :=
  let ch := s.channel c
  match sub with
  | 0x01 => some ch.state
  | 0x02 => some ch.ranks
  | 0x03 => some (packNat (ch.marked.map (fun x => (x.2, 8 * x.1))))
  | 0x04 => some ch.spare
  | 0x05 => some ch.progress
  | _ => none

/-- The active slices, one bit each (R285): those that are not RETIRED. -/
def activeSlices (s : State) : Nat :=
  (List.range 136).foldl (fun n k => if odGet s (0x5101 + k) 0x01 = 2 then n else n + 2 ^ k) 0

/-- The time left to a shelf's DL_WINDOW in ms (R137): none outside AWAKE and CLOSING and once it has passed; else a time that the model does
not keep, which is a free value of no more than WINDOW_LEN (log entry 198). -/
def windowLeft (s : State) (h : Nat) : Nat :=
  let x := s.shelf h
  if (x.state = .awake ∨ x.state = .closing) ∧ x.pastWindow = false then (freeValue s).toNat % (odGet s (0x6100 + h) 0x04 * 1000 + 1) else 0

/-- The status that an entry computes from the state of its unit; none for an entry that holds a stored value. -/
def statusNat (s : State) (p : Path) (idx sub : Nat) : Option Nat :=
  if idx = 0x1000 then readIdentity s sub
  else if idx = 0x2000 then (if sub = 1 then some s.pwr.state.code else if sub = 0x0B then some (deepLoad s)
     else if sub = 0x08 ∧ odGet s 0x2000 0x08 ≠ 0 then some (1 + (freeValue s).toNat % odGet s 0x2000 0x08) else none)
  else if idx = 0x3000 then readFarrier s p sub
  else if 0x4100 ≤ idx ∧ idx ≤ 0x4200 then
    (if sub = 1 then some (s.stall (idx - 0x4100)).state.ctorIdx else if sub = 0x0D then some (isoStatus s (idx - 0x4100)) else none)
  else if idx = 0x5100 then (if sub = 1 then some (activeSlices s) else none)
  else if idx = 0x5000 then (if sub = 1 then some (16 * chanCap s / 2 ^ 30) else if sub = 2 then some (normalBytes s) else if sub = 3 then some s.mc.rate else none)
  else if 0x5010 ≤ idx ∧ idx ≤ 0x501F then readChannel s (idx - 0x5010) sub
  else if idx = 0x6000 then (if sub = 1 then some (linksIn s .active) else if sub = 2 then some (linksIn s .failed) else none)
  else if 0x6010 ≤ idx ∧ idx ≤ 0x602F then
    (if sub = 1 then some (s.link (idx - 0x6010)).state.ctorIdx else if sub = 2 then some (carrierOf s (idx - 0x6010)) else none)
  else if 0x6100 ≤ idx ∧ idx ≤ 0x617F then
    (let h := idx - 0x6100
     if sub = 1 then some (s.shelf h).state.ctorIdx
     else if sub = 6 then some (shelfPorts s h).length
     else if sub = 7 then some (windowLeft s h)
     else none)
  else if 0x6400 ≤ idx ∧ idx ≤ 0x67FF then
    (let x := s.port (idx - 0x6400)
     if sub = 1 then some x.state.ctorIdx else if sub = 4 then some x.serial.toNat else if sub = 5 then some x.capacity else none)
  else if idx = 0x7100 then (if sub = 2 then some (ctxNat s (pathGet s p 0x7100 1)) else none)
  else if 0x8010 ≤ idx ∧ idx ≤ 0x8013 then
    (let c := s.ctl (idx - 0x8010)
     if sub = 1 then some c.link.ctorIdx else if sub = 2 then some c.rate.toNat else if sub = 3 then some c.width.toNat
     else if sub = 4 then some c.spares.toNat else none)
  else if idx = 0x8020 then
    (if sub = 2 then (match selectedQp s p with | some k => some (qpNat (s.qp k)) | none => some 0) else none)
  else if 0x8030 ≤ idx ∧ idx ≤ 0x8031 ∧ 0x41 ≤ sub then some (windowNat (Tbl.get s.host.live (32 * (idx - 0x8030) + (sub - 0x41)) {}))
  else if idx = 0x9000 then
    (let i := pathGet s p 0x9000 1 % 2048
     if sub = 2 then some (srcCfg s i).toNat else if sub = 3 then some (srcNat s i) else none)
  else if idx = 0xB000 then (if sub = 1 then some s.boot.phase.code else none)
  else if idx = 0xF010 then
    (if sub = 1 then some (min 32 s.ring.failedSegs.length)
     else if sub = 2 then some (packNat ((s.ring.failedSegs.take 32).zipIdx.map (fun x => (x.1, 16 * x.2))))
     else none)
  else none

/-- The entries that each path holds for itself (R487): selections and results. -/
def perPathEntry (idx sub : Nat) : Bool :=
  isSelection idx sub || decide (idx = 0x1000 ∧ sub = 0x0C) || decide (idx = 0x2000 ∧ sub = 7) || decide (idx = 0x3000 ∧ sub = 0x0F) ||
  (decide (0x4100 ≤ idx ∧ idx ≤ 0x4200) && decide (sub = 3)) || (decide (0x5010 ≤ idx ∧ idx ≤ 0x501F) && decide (sub = 0x0F)) ||
  (decide (0x6010 ≤ idx ∧ idx ≤ 0x602F) && decide (sub = 7)) || (decide (0x6100 ≤ idx ∧ idx ≤ 0x617F) && decide (sub = 3)) ||
  (decide (0x6400 ≤ idx ∧ idx ≤ 0x67FF) && decide (sub = 8)) || decide (idx = 0x7100 ∧ sub = 4) || decide (idx = 0x8020 ∧ sub = 3) ||
  (decide (0x8030 ≤ idx ∧ idx ≤ 0x8031) && decide (sub = 0x23)) || decide (idx = 0x9000 ∧ sub = 4)

/-- The number an entry reads as. -/
def entryNat (s : State) (p : Path) (idx sub : Nat) : Nat :=
  if sub = 0 then odHighest idx
  else if perPathEntry idx sub then pathGet s p idx sub
  else (statusNat s p idx sub).getD (odGet s idx sub)

/-- The bytes of an entry's value, least significant first (R479); a STR has no terminator. -/
def entryBytes (s : State) (p : Path) (idx sub : Nat) : List Byte :=
  match odLookup idx sub with
  | none => []
  | some e =>
    let b := bytesOfNat e.ty.len (entryNat s p idx sub)
    match e.ty with
    | .str _ => b.filter (fun x => decide (x ≠ 0))
    | _ => b

/-! ## What a write does -/

/-- The behaviour of LINK_ENABLE: a DISABLED link whose bit is set trains from DETECT (R93, R120). -/
def writeLinkEnable (v : Nat) (s : State) : State :=
  (List.range 32).foldl (fun t l => if natBit v l && decide ((t.link l).state = .disabled) && t.boot.ready then toDetect l t else t) (storeOd 0x6000 0x07 v s)

/-- The behaviour of a link's request entry (R121). -/
def writeLinkRequest (path : Path) (l v : Nat) (s : State) : State :=
  match v with
  | 1 => linkRequest path l (decide ((s.link l).state = .mismatch)) (acceptIdentity l) s
  | 2 => askFailback path l s
  | 3 => linkRequest path l (decide ((s.link l).state = .active)) (enterRetrain l false) s
  | _ => linkRequest path l (decide ((s.link l).state = .failed)) (fun u => toDetect l (u.setLink l (restartLink (u.link l)))) s

/-- The behaviour of a port's action entry (R138). -/
def writePortAction (path : Path) (p v : Nat) (s : State) : State :=
  match v with
  | 1 => acceptDrive path p s
  | 2 => retirePort path p s
  | _ => reenablePort path p s

/-- The behaviour of CTX_CONTROL (R60). -/
def writeCtxControl (path : Path) (v : Nat) (s : State) : State :=
  match natField v 0 3 with
  | 1 => createCtx path (BitVec.ofNat 9 (natField v 3 9)) (BitVec.ofNat 2 (natField v 12 2)) (natBit v 14) (natBit v 15) s
  | 2 => freeSelected path false s
  | _ => freeSelected path true s

/-- The behaviour of COMMIT (R382). -/
def writeCommit (path : Path) (p : Nat) (s : State) : State :=
  if s.host.commitPending.any (fun x => decide (x.1 = p)) then windowResult path p resBusy s
  else if commitDenied s p then windowResult path p resDenied s
  else windowResult path p resOk { s with host := { s.host with commitPending := s.host.commitPending.set p path } }

/-- The behaviour of RESTORE (R494): stored, and applied at the next bring-up; 0 cancels one not yet applied. -/
def writeRestore (path : Path) (v : Nat) (s : State) : State := pathSet path 0x1000 0x0C resOk (storeOd 0x1000 0x0B v s)

/-- The behaviour of a stall's entries (R345). -/
def writeStallEntry (path : Path) (n sub v : Nat) (s : State) : State :=
  match sub with
  | 0x02 => if v = 1 then createStall path n s else teardownStall path n s
  | 0x06 => writeCores path n false v s
  | 0x07 => writeCores path n true v s
  | 0x09 => writeVfBind path n v s
  | 0x0A => writeBoot path n 0x0A v s
  | 0x0B => writeBoot path n 0x0B v s
  | 0x0C => writeBoot path n 0x0C v s
  | 0x20 => writeRingGroups path n v s
  | 0x21 => writeCoreMode path n v s
  | 0x22 => writeLlcWays path n v s
  | 0x23 => writeMemSlots path n v s
  | 0x24 => writeIoRoot path n v s
  | k => if 0x30 ≤ k ∧ k ≤ 0x3F then writeGrant path n (k - 0x30) v s else if k = 0x08 then storeStall path n k v s else storeOd (0x4100 + n) k v s

/-- What a permitted write of an entry does: the entry's own behaviour, or the value is stored. The time a shelf's window has been open is
not an operand of a plain write, and is a free value (log entry 2). -/
def dictBehave (path : Path) (idx sub v : Nat) (s : State) : State :=
  if isSelection idx sub then pathSet path idx sub (keptBits idx sub v) s
  else if 0x4100 ≤ idx ∧ idx ≤ 0x4200 then writeStallEntry path (idx - 0x4100) sub v s
  else if idx = 0x1000 ∧ sub = 0x0B then writeRestore path v s
  else if idx = 0x2000 ∧ sub = 0x06 then writePowerRequest path v s
  else if idx = 0x3000 ∧ sub = 0x0E then writeWalk path v s
  else if idx = 0x3000 ∧ sub = 0x18 then writeSubstitute path v s
  else if 0x5010 ≤ idx ∧ idx ≤ 0x501F ∧ sub = 0x0E then writeChanAction (idx - 0x5010) v path s
  else if idx = 0x5100 ∧ 0x10 ≤ sub then writeWayLock path (sub - 0x10) v s
  else if idx = 0x6000 ∧ sub = 0x07 then writeLinkEnable v s
  else if 0x6010 ≤ idx ∧ idx ≤ 0x602F ∧ sub = 0x06 then writeLinkRequest path (idx - 0x6010) v s
  else if 0x6100 ≤ idx ∧ idx ≤ 0x617F ∧ sub = 0x02 then
    (if v = 1 then wakeRequest path (idx - 0x6100) s else sleepRequest path (idx - 0x6100) s)
  else if 0x6100 ≤ idx ∧ idx ≤ 0x617F ∧ sub = 0x04 then writeWindow (idx - 0x6100) v ((freeValue s).toNat % 2 ^ 32) (State.took s)
  else if 0x6400 ≤ idx ∧ idx ≤ 0x67FF ∧ sub = 0x03 then writeShelf path (idx - 0x6400) v s
  else if 0x6400 ≤ idx ∧ idx ≤ 0x67FF ∧ sub = 0x07 then writePortAction path (idx - 0x6400) v s
  else if idx = 0x7100 ∧ sub = 0x03 then writeCtxControl path v s
  else if idx = 0x8000 ∧ sub = 0x06 then
    ((List.range 4).filter (fun l => ctlUsed s l && linkTrained (s.ctl l).link)).foldl (fun t l => sendLtr l t) (storeOd 0x8000 0x06 v s)
  else if idx = 0x8020 ∧ sub = 0x02 then writeRecord path (BitVec.ofNat 512 v) s
  else if 0x8030 ≤ idx ∧ idx ≤ 0x8031 ∧ sub = 0x21 then writeCommit path (idx - 0x8030) s
  else if idx = 0x9000 ∧ sub = 0x02 then writeSource path (BitVec.ofNat 64 v) s
  else if idx = 0xF010 ∧ sub = 0x07 then writeSegFail v s
  else storeOd idx sub v s

/-! ## Performing an access, and its answer (R371, R372, R466, R471, R475) -/

/-- What an access answers, with the bytes a read returns. -/
def accessAnswer (s : State) (a : Access) : Res × List Byte :=
  if a.write then (checkWrite s a.path a.idx a.sub a.data, [])
  else match checkRead s a.path a.idx a.sub with
    | .ok => (.ok, entryBytes s a.path a.idx a.sub)
    | r => (r, [])

/-- A mailbox access is over (R371, R372). -/
def answerMailbox (p fn : Nat) (write : Bool) (r : Res) (bytes : List Byte) (s : State) : State :=
  let f := s.fn p fn
  if !f.mbox.busy then s
  else
    let m := { f.mbox with busy := false, result := BitVec.ofNat 8 r.code, rlength := BitVec.ofNat 9 bytes.length,
                           data := if write then f.mbox.data else takePad 256 0 bytes }
    let s1 := s.setFn p fn { f with mbox := m }
    if m.irq then sendMsix p fn 0 s1 else s1

/-- A response body: RESULT, then the value. -/
def respBody (r : Nat) (bytes : List Byte) : List Byte := BitVec.ofNat 8 r :: bytes

/-- A halter request is answered; a body that the port cannot carry is answered BAD_LENGTH (R475). -/
def answerHalter (body : List Byte) (s : State) : State :=
  let b := if 253 < body.length then [BitVec.ofNat 8 Res.badLength.code] else body
  { s with side := { s.side with halterPending := false, halterReply := some (s.side.halterReq ++ b) } }

/-- The answer of an access goes to where it came from. A Wealar response leaves under the node number that its request met (R477, R478). -/
def deliverAnswer (a : Access) (node : Nat) (r : Res) (bytes : List Byte) (s : State) : State :=
  if a.discard then s
  else if a.tap then
    { s with tap := { s.tap with dr := BitVec.ofNat 80 (natOfBytes (bytes.take 8) + r.code * 2 ^ 64) } }
  else match a.can with
    | some (h, svc) => wealarRespond node h svc.toNat (respBody r.code bytes) (if r = .livePath then odBump 0x1000 0x1E s else s)
    | none =>
      if a.halterTid.isSome then answerHalter (respBody r.code bytes) (if r = .livePath then odBump 0x1000 0x1E s else s)
      else match a.path with
        | .pf h => answerMailbox h.val 0 a.write r bytes s
        | .vf h n => answerMailbox h.val n.val a.write r bytes s
        | _ => s

/-- Perform one access whole (R482): a write takes effect when it is performed (R467). -/
def performAccess (s : State) (a : Access) : State :=
  let x := accessAnswer s a
  let s1 := if a.write then odWrite a.path a.idx a.sub a.data (dictBehave a.path a.idx a.sub (natOfBytes a.data)) s
            else setAnswer a.path x.1 (State.took s)
  deliverAnswer a (nodeId s) x.1 x.2 s1

/-! ## The serializer (R465) -/

/-- The place of a path in a slot's order. -/
def pathOrder (p : Path) : Nat :=
  match p with
  | .fw => 1
  | .pf h => 2 + h.val
  | .vf h n => 4 + 257 * h.val + n.val
  | .can => 1000
  | .halter => 1001

/-- An access's place: those put off by a full slot come first. -/
def accessOrder (a : Access) : Nat := if a.carried then 0 else pathOrder a.path

/-- A slot performs at most 48 accesses in order; the rest go to the head of the following slot. -/
def serializerSlot (s : State) : State :=
  let l := s.serial.mergeSort (fun a b => accessOrder a ≤ accessOrder b)
  (l.take 48).foldl performAccess { s with serial := (l.drop 48).map (fun a => { a with carried := true }) }

/-- An access arrives at the serializer; source 0x545 is raised while accesses wait (R393, R465). -/
def queueAccess (a : Access) (s : State) : State := raise 0x545 { s with serial := s.serial ++ [a] }

/-- DICT_WRITE: a write is performed through a path (R466, R467, R480). -/
def execDictWrite (path : Path) (idx : BitVec 16) (sub : BitVec 8) (data : List Byte) (s : State) : Answer :=
  .next (odWrite path idx.toNat sub.toNat data (dictBehave path idx.toNat sub.toNat (natOfBytes data)) s)

end Sys2Proof.Machine
end

