-- ==== Sys2Proof/Machine/BringupOps.lean ====
section
/-! DEFINITION. What the phases of bring-up share: boot faults, loading from the saddlebag, the repair maps and the start of the units
(R496–R507). -/

namespace Sys2Proof.Machine

/-! ## Phases (R496, R509) -/

/-- Whether bring-up stands in a phase and goes on: not in OFF or the fatal state, not held by a boot fault, a test hold or PWRFAIL_N. -/
def inPhase (x : BootPhase) (s : State) : Bool :=
  decide (s.boot.phase = x) && decide (s.pwr.state ≠ .off) && !s.far.fatal && !s.boot.hold && !s.tap.hold && !s.pwr.pwrfail

/-- The next phase begins; the phase READY makes READY 1 where no test holds the device. -/
def toPhase (x : BootPhase) (s : State) : State :=
  { s with boot := { s.boot with phase := x, ready := decide (x = .ready) && !s.tap.hold } }

/-! ## Boot faults (R507) -/

/-- A boot fault is noted: its bit, and its code where it is the first. -/
def noteBootFault (code : Nat) (s : State) : State :=
  let s1 := odSet 0xB000 0x03 (odGet s 0xB000 0x03 ||| 2 ^ code) s
  if odGet s1 0xB000 0x02 = 0 then odSet 0xB000 0x02 code s1 else s1

/-- A boot fault of class corrected, with its record. -/
def bootFault (code : Nat) (kind : BitVec 8) (res : Nat) (s : State) : State :=
  record { kind := kind, cls := 0, resource := res } (noteBootFault code s)

/-- Signal fatal in PF0 of every second host link that has reached L0 (R436): the record has signalled it in the first of each port. -/
def fatalLinks (s : State) : State :=
  ([1, 3].filter (fun l => linkTrained (s.ctl l).link)).foldl (fun t l => aerUncorrected (pfKey l) 22 true t) s

/-- A boot fault that holds bring-up at its phase: uncorrected-fatal, and FAULT_N is driven low (R436, R532). -/
def bootHold (code : Nat) (kind : BitVec 8) (res : Nat) (s : State) : State :=
  let s1 := record { kind := kind, cls := 3, resource := res } (noteBootFault code s)
  fatalLinks { s1 with boot := { s1.boot with hold := true }, pwr := { s1.pwr with faultN := false } }

/-! ## STB_RESET and ROM (R448, R459, R496, R527) -/

/-- A pair that is neither failed nor retired waits for its self-test. -/
def pairWaits (x : GroomState) : GroomState := if x = .serving then .standby else x

/-- STB_RESET is over: the straps are sampled, THERMTRIP_N is released and every pair starts from ROM. -/
def endStbReset (patchOff sbDefault mfg : Bool) (s : State) : State :=
  let b : Boot := { phase := .rom, patchOff := patchOff, sbDefault := if sbDefault then [0x10, 0x11, 0x12, 0x13, 0x14, 0x15, 0x16] else [], mfg := mfg }
  pairFromRom 1 (pairFromRom 0 { s with boot := b, pwr := { s.pwr with thermtrip := false },
                                        far := { s.far with pair0 := pairWaits s.far.pair0, pair1 := pairWaits s.far.pair1 } })

/-- Whether a pair runs the self-test of this bring-up and has not ended it. -/
def selftestRuns (g : Nat) (s : State) : Bool :=
  decide (s.boot.phase ≠ .reset) && decide (s.pwr.state ≠ .off) && !s.far.fatal && !s.boot.selftested.getLsbD g &&
    decide (pairState s g ≠ .retired)

def noteSelftest (g : Nat) (s : State) : State :=
  { s with boot := { s.boot with selftested := s.boot.selftested ||| ((1 : BitVec 2) <<< g) } }

/-- A pair passes: the first to do so serves and LOAD begins, unless STRAP_MFG holds bring-up in ROM; a later one stands by. -/
def selftestPass (g : Nat) (s0 : State) : State :=
  let s := noteSelftest g s0
  let s1 := setPair g (if (servingPair s).isNone then .serving else .standby) s
  if inPhase .rom s1 ∧ !s1.boot.mfg then toPhase .load s1 else s1

/-- Whether the other pair can still serve: it serves or stands by, or its own self-test has not ended. -/
def otherServes (g : Nat) (s : State) : Bool :=
  decide (pairState s (1 - g) = .serving) || decide (pairState s (1 - g) = .standby) || selftestRuns (1 - g) s

/-- A pair fails: one that had failed before is retired. With no other pair this is the fatal state (R436, R448). -/
def selftestFail (g : Nat) (s0 : State) : State :=
  let s := noteSelftest g s0
  let next : GroomState := if s.far.failedOnce.getLsbD g then .retired else .failed
  let s1 := setPair g next { s with far := { s.far with failedOnce := s.far.failedOnce ||| ((1 : BitVec 2) <<< g) } }
  let s2 := s1.setRein g { s1.reinOf g with stopped := true }
  if otherServes g s2 then bootFault 5 0x0C (resource 9 g) s2
  else
    let inc := nextIncident s2
    deviceFatal g inc (takeIncident inc (noteBootFault 5 s2))

/-! ## LOAD (R411, R426, R428, R491, R494, R498, R499) -/

/-- Whether a stored value passes its entry's type and range check. -/
def storedOk (x : Nat × Nat) : Bool :=
  match odEntry (x.1 / 256) (x.1 % 256) with
  | some e => e.bag && decide (x.2 < 256 ^ e.ty.len) && inRange e x.2 && !badField .fw (x.1 / 256) (x.1 % 256) x.2
  | none => false

/-- Whether a RESTORE of a value keeps a stored entry. -/
def restoreKeeps (r k : Nat) : Bool := deviceRecord k || (decide (r = 1) && decide (odKey 0x1000 0x10 ≤ k ∧ k ≤ odKey 0x1000 0x16))

/-- Every source returns to its reset configuration. -/
def dropSources (s : State) : State := { s with irq := s.irq.filterMap (fun x => if x.2.cfg.isSome then none else some x) }

/-- A pending RESTORE is applied: what it does not keep leaves the stored values. -/
def applyRestore (s : State) : State :=
  let r := Tbl.get s.flash (odKey 0x1000 0x0B) 0
  if r = 0 then s
  else
    let kept : Tbl Nat := s.flash.filter (fun x => restoreKeeps r x.1)
    dropSources { s with flash := kept, boot := { s.boot with valuesSource := 2 } }

/-- The dictionary's stored values take effect; one that fails its check takes its default and is counted. -/
def loadValues (copy : Option (Fin 2)) (s : State) : State :=
  match copy with
  | none => bootFault 2 0x0C 0xF000 (dropSources { s with flash := [], boot := { s.boot with valuesSource := 3 } })
  | some c =>
    let s1 := applyRestore { s with boot := { s.boot with valuesSource := c.val } }
    let good := s1.flash.filter (fun x => storedOk x && !deviceRecord x.1)
    let words := s1.flash.filter (fun x => decide (0x1000000 ≤ x.1))
    let bad := (s1.flash.filter (fun x => decide (x.1 < 0x1000000) && !storedOk x)).length
    let irq : Tbl Source := words.foldl (fun (t : Tbl Source) x =>
      t.set (bagSource x.1) { Tbl.get t (bagSource x.1) {} with cfg := some (BitVec.ofNat 64 x.2) }) s1.irq
    let od : Tbl Nat := good.foldl (fun (t : Tbl Nat) x => t.set x.1 x.2) s1.od
    { s1 with od := od, irq := irq, boot := { s1.boot with replaced := min 65535 (s1.boot.replaced + bad) } }

/-- The firmware patch: the copy that qualifies runs, otherwise ROM alone. -/
def loadPatch (patch : Option (BitVec 32)) (s : State) : State :=
  if s.boot.patchOff then s
  else match patch with
    | some v => { s with boot := { s.boot with patchVersion := v } }
    | none => bootFault 1 0x0C (resource 9 ((servingPair s).getD 0)) s

/-- The records of what the last run ended with: a brown-out, a thermal trip, an incomplete power-fail save (R439, R452). -/
def lastRunRecords (s : State) : State :=
  let f := odGet s 0x2000 0x12
  let s1 := if natBit f 0 then record { kind := 0x0D, cls := 3, resource := resource 8 150, cause := 1 } s else s
  let s2 := if natBit f 1 then record { kind := 0x0D, cls := 3, cause := 2 } s1 else s1
  let s3 := if natBit f 2 then record { kind := 0x0D, cls := 0, cause := 3 } s2 else s2
  if s3.pwr.flushStopped then recordDeadline 2 0xF000 { s3 with pwr := { s3.pwr with flushStopped := false } } else s3

/-- The ranks of a channel of `n` as SPARE_RANK gives them: the highest is the spare (R307). -/
def latchRanks (n : Nat) (rk : Bool) (x : Channel) : Channel :=
  if rk ∧ 2 ≤ n then { x with ranks := n - 1, spare := if x.spare = 0 then 1 else x.spare }
  else { x with ranks := n, spare := if x.spare = 1 then 0 else x.spare }

/-- The settings that take effect at bring-up (R292, R307, R364, R383). -/
def latchSettings (s : State) : State :=
  let rk := decide (odGet s 0x5000 0x06 = 1)
  let s1 := { s with mc := { s.mc with chSpare := decide (odGet s 0x5000 0x05 = 1), rkSpare := rk },
                     host := { s.host with bifurcate := BitVec.ofNat 2 (odGet s 0x8000 0x01), inboundBits := odGet s 0x8000 0x03 } }
  (List.range 16).foldl (fun t c => mapChan c (latchRanks s.mc.dimmRanks rk) t) s1

/-- LOAD in its order: the flush set, the patch, the values, the repair map; BOOT counts on. -/
def loadAll (p : PatchLoad) (s : State) : State :=
  let s1 := odSet 0x1000 0x08 ((odGet s 0x1000 0x08 + 1) % 65536) s
  let s2 := if p.flushValid then s1 else odSet 0x2000 0x12 (odGet s1 0x2000 0x12 ||| 4) s1
  let s3 := loadValues p.valuesCopy (loadPatch p.patch (lastRunRecords s2))
  pumpCan (restartWdog (toPhase .power (latchSettings s3)))

/-! ## CALIBRATE (R410, R500, R507) -/

/-- A Tether lane that fails calibration is marked failed in its quad; one that a link uses is spared, where the spare is good and free. -/
def failTetherLane (q lane : Nat) (bad : List CalUnit) (s : State) : State :=
  let s1 := if lane = 4 then failQuadSpare q s else storeOd (0x6040 + q) 0x07 (odGet s (0x6040 + q) 0x07 ||| 2 ^ lane) s
  let users := [2 * q, 2 * q + 1].flatMap (fun l => (List.range 2).filterMap (fun i => if physLane s1 l i = lane then some (l, i) else none))
  match users with
  | [] => s1
  | (l, i) :: _ =>
    let spareBad := bad.any (fun u => match u with | .tetherLane a b => decide (a.val = q) && decide (b.val = 4) | _ => false)
    if spareFree s1 q ∧ !natBit (odGet s1 (0x6040 + q) 0x07) 4 ∧ !spareBad then mapSpare l i s1
    else setLinkState l .failed s1

/-- A host lane that fails calibration is spared; with no spare its link is unavailable. A spare that fails is given out to no lane. -/
def failHostLane (quad lane : Nat) (bad : List CalUnit) (s : State) : State :=
  let l := quadCtl s quad
  let k := quad - ctlQuad l 0
  let c := s.ctl l
  let spareBad := bad.any (fun u => match u with | .hostLane a b => decide (a.val = quad) && decide (b.val = 4) | _ => false)
  if lane = 4 then s.setCtl l { c with badSpares := c.badSpares ||| ((1 : BitVec 4) <<< k) }
  else if c.spares.getLsbD k ∨ spareBad then s.setCtl l { c with link := .off }
  else odSet (0x8010 + l) 0x04 ((c.spares ||| ((1 : BitVec 4) <<< k)).toNat) (s.setCtl l { c with spares := c.spares ||| ((1 : BitVec 4) <<< k) })

/-- A unit has failed its calibration three times. -/
def calFault (bad : List CalUnit) (s : State) (u : CalUnit) : State :=
  match u with
  | .regulator r => shedPhase r (noteBootFault 4 s)
  | .tetherLane q lane => failTetherLane q.val lane.val bad (bootFault 4 0x06 (resource 4 (5 * q.val + lane.val)) s)
  | .hostLane q lane => failHostLane q.val lane.val bad (bootFault 4 0x07 (resource 6 (5 * q.val + lane.val)) s)
  | .pll => bootHold 4 0x0D 0xF000 s
  | .uncore => bootHold 4 0x09 0xF000 s
  | .sensor _ => bootFault 4 0x0D 0xF000 s

/-- Calibration is over: MAPS begins unless a fault holds bring-up. -/
def calibrated (bad : List CalUnit) (s : State) : State :=
  let s1 := bad.foldl (calFault bad) s
  if s1.boot.hold then s1 else toPhase .maps s1

/-! ## MAPS and HOST_LINK (R364, R445, R501, R505) -/

/-- An interrupted migration is completed by its target mapping; a marked device leaves its channel in erasure mode (R296, R501). -/
def settleChannel (c : Nat) (s : State) : State :=
  let x := s.channel c
  match x.migration with
  | some (.rank f _) => s.setChannel c (spareServes f { x with spare := 2 })
  | some (.channel _) =>
    let s1 := s.setChannel c { x with migration := none, state := 3, progress := 100, poweredOff := true }
    { s1 with mc := { s1.mc with retired := some c } }
  | none => if x.state = 0 ∧ !x.marked.isEmpty then s.setChannel c { x with state := 1 } else s

/-- Units that the maps leave out are not powered: spare tiles, retired slices, engines and channels. -/
def powerMapped (s : State) : State :=
  let s1 := (s.far.spares ++ s.far.failedSpares).foldl (fun t n => setTileDom n .down t) s
  let s2 := (List.finRange 136).foldl (fun t k => if odGet s (0x5101 + k.val) 0x01 = 2 then setDom (.slice k) .down t else t) s1
  let s3 := (List.finRange 8).foldl (fun t e => if (s.engine e.val).state = 2 then setDom (.engine e) .down t else t) s2
  (List.finRange 16).foldl (fun t c => if (s.channel c.val).poweredOff then setDom (.channel c) .down t else t) s3

/-- A tile that fails its self-test is given a substitute with no state to move, or its core goes offline (R445, R501). -/
def failTile (s : State) (t : SliceId) : State :=
  let stop := tileStop t.val
  let s1 := setTileDom stop .down (bootFault 6 0x03 (resource 0 stop) s)
  match tileCore s1 t.val with
  | none => spareFailed stop s1
  | some k =>
    match pickSpare s1 stop with
    | none => { s1 with far := { s1.far with offline := s1.far.offline ||| ((1 : BitVec 128) <<< k) } }
    | some sp =>
      setTileDom sp .up { s1 with far := { s1.far with spares := s1.far.spares.filter (fun x => decide (x ≠ sp)),
                                                       coreMap := s1.far.coreMap.set k sp } }

/-- Half B of a port that is not bifurcated is powered off (R364). -/
def offHalves (s : State) : State :=
  [1, 3].foldl (fun t l => if ctlUsed t l then t else t.setCtl l { t.ctl l with link := .off }) s

/-- The maps are applied and the tiles tested, spares before the cores that may need them. HOST_LINK and the phase after it begin. -/
def mapsDone (failed : List SliceId) (s : State) : State :=
  let s1 := powerMapped ((List.range 16).foldl (fun t c => settleChannel c t) s)
  let isSpare (t : SliceId) : Bool := (tileCore s1 t.val).isNone
  let s2 := (failed.filter isSpare ++ failed.filter (fun t => !isSpare t)).foldl failTile s1
  toPhase (if s2.mc.dimmTemps.any (fun x => decide (x.2 < 0)) then .coldSoak else .dram) (offHalves s2)

/-! ## COLD_SOAK (R502) -/

/-- Cores that can heat: those that are mapped. -/
def activeCores (s : State) : Nat := ((List.range 128).filter (fun k => !s.far.offline.getLsbD k)).length

/-- The number of heating cores is adjusted; how many the power goal asks for is a free value (log entry 2), fewer than before at
TJ_THROTTLE. -/
def adjustHeat (s : State) : State :=
  let want := (freeValue s).toNat % (activeCores s + 1)
  let n := if (odGet s 0x2000 0x0F : Int) ≤ hottest s then min want (s.boot.heating - 1) else want
  (State.took { s with boot := { s.boot with heating := n } })

/-- Every 100 ms: the sensors are read, and the phase ends once every one is at 0 °C or more. -/
def soakStep (temps : List Int) (s : State) : State :=
  let n := s.boot.soak + 1
  let s1 := odSet 0xB000 0x08 (n / 10) { s with boot := { s.boot with soak := n } }
  match temps with
  | [] => adjustHeat s1
  | t :: r =>
    let cold := r.foldl min t
    let s2 := odSet 0xB000 0x05 (i32Nat cold) s1
    if 0 ≤ cold then toPhase .dram { s2 with boot := { s2.boot with heating := 0 } } else adjustHeat s2

/-! ## DRAM and TACK (R289, R299, R307, R308, R503) -/

/-- A channel that fails training is mapped out with no copy, where a reserve is free; otherwise bring-up holds. -/
def failTraining (s : State) (c : ChanId) : State :=
  if s.mc.chSpare ∧ s.mc.retired.isNone then
    let s1 := mapChan c.val (fun x => { x with state := 3, progress := 100, poweredOff := true, migration := none }) s
    bootFault 9 0x02 (resource 3 c.val) (setDom (.channel c) .down { s1 with mc := { s1.mc with retired := some c.val } })
  else bootHold 9 0x02 (resource 3 c.val) s

/-- A rank that fails training is replaced by the spare rank where it is free; otherwise its channel has failed. -/
def failRank (s : State) (x : ChanId × Fin 8) : State :=
  let ch := s.channel x.1.val
  if ch.state = 3 then s
  else if s.mc.rkSpare ∧ ch.spare = 1 then s.setChannel x.1.val (spareServes x.2.val { ch with spare := 2 })
  else failTraining s x.1

/-- Whether the controllers support a DIMM (R288). -/
def dimmOk (d : DimmSpd) : Bool :=
  d.rdimm && [16, 24, 32].contains d.density && [1, 2, 4].contains d.ranks && decide (4800 ≤ d.speed)

/-- Whether the population is one that the SPDs may show: every channel has as many DIMMs as every other, one or two, the first of them in slot 0,
all of one rank count and density (R288, R289). -/
def populationOk (spd : List DimmSpd) : Bool :=
  let slots (c : ChanId) : List Nat := (spd.filter (fun d => decide (d.chan = c))).map (fun d => d.slot.val)
  let n := (slots 0).length
  spd.all dimmOk && spd.all (fun d => spd.all (fun e => decide (d.ranks = e.ranks) && decide (d.density = e.density))) &&
    (List.finRange 16).all (fun c => decide (slots c = [0] ∨ sortNat (slots c) = [0, 1]) && decide ((slots c).length = n))

/-- The highest speed grade, no higher than DDR5-6400, that every DIMM supports (R288, R289). -/
def popRate (spd : List DimmSpd) : Nat :=
  if spd.all (fun d => decide (6400 ≤ d.speed)) then 6400 else if spd.all (fun d => decide (5600 ≤ d.speed)) then 5600 else 4800

/-- What the SPDs say of a channel: its ranks, its capacity in GiB (sixteen x4 devices of data a rank) and the transfer rate (R288–R291). -/
def readSpd (spd : List DimmSpd) (s : State) : State :=
  let mine := spd.filter (fun d => decide (d.chan = 0))
  let ranks := (mine.map (fun d => d.ranks)).sum
  let s1 := { s with mc := { s.mc with dimmRanks := ranks, capacity := (mine.map (fun d => 2 * d.density * d.ranks)).sum, rate := popRate spd } }
  (List.range 16).foldl (fun t c => mapChan c (latchRanks ranks s.mc.rkSpare) t) s1

/-- Training is over: the SPDs have been read, and TACK begins unless a fault holds bring-up (R289, R291, R503). -/
def dramTrained (spd : List DimmSpd) (failed : List ChanId) (ranks : List (ChanId × Fin 8)) (s0 : State) : State :=
  if !populationOk spd then bootHold 8 0x02 0xF000 s0
  else
    let s := readSpd spd s0
    let s1 := ranks.foldl failRank (failed.foldl (fun t c => if (t.channel c.val).state = 3 then t else failTraining t c) s)
    if s1.boot.hold then s1 else toPhase .tack s1

/-- The tack region is zero: every word reads UNINIT and every seal is zero; no byte of the normal region is written (R299). -/
def zeroTack (s : State) : State := { s with mem := { s.mem with tags := [], seals := [] } }

/-! ## UNITS (R138, R350, R381, R395, R504) -/

/-- Training of the enabled links starts, each from DETECT; the other links stay DISABLED, and one without its lanes FAILED. -/
def startLinks (s : State) : State :=
  (List.range 32).foldl (fun t l => if natBit (odGet s 0x6000 0x07) l && decide ((t.link l).state = .disabled) then toDetect l t else t) s

/-- The ring groups and memory slots that the saddlebag holds are reserved (R158, R312). -/
def startGroups (s : State) : State :=
  ((List.range 257).filter (fun n => decide (odGet s (0x4100 + n) 0x20 ≠ 0) || decide (odGet s (0x4100 + n) 0x23 ≠ 0))).foldl
    (fun t n => t.setStall n { t.stall n with
      ringNow := BitVec.ofNat 32 (odGet s (0x4100 + n) 0x20), ringPending := false,
      slotsNow := BitVec.ofNat 32 (odGet s (0x4100 + n) 0x23), slotsPending := false }) s

/-- The units are started in their order; READY becomes 1 and is raised. -/
def startUnits (ms : BitVec 32) (s0 : State) : State :=
  let s := startGroups s0
  let irq : Tbl Source := s.irq.map (fun x => (x.1, ({ cfg := x.2.cfg } : Source)))
  let s1 : State := { s with irq := irq, eng := { s.eng with ctxs := [], stopped := false } }
  let s2 := commitWindows 1 (commitWindows 0 (startLinks (placeContexts s1)))
  let s3 := toPhase .ready s2
  let s4 := raiseWith 0x541 false [BitVec.ofNat 8 s3.pwr.state.code, BitVec.ofNat 8 (odGet s3 0x2000 0x09)] (odSet 0xB000 0x04 ms.toNat s3)
  startIdle (maskCores (stallCores s4 0)) s4

end Sys2Proof.Machine
end

