-- ==== Sys2Proof/Machine/Bringup.lean ====
section
/-! DEFINITION. The commands of bring-up (R436, R496–R509). Each acts only in its phase. -/

namespace Sys2Proof.Machine

/-- STB_RESET_END (R496, R527). -/
def execStbResetEnd (patchOff sbDefault mfg : Bool) (s : State) : Answer :=
  .next (if inPhase .reset s then endStbReset patchOff sbDefault mfg s else s)

/-- ROM_SELFTEST_PASS (R448, R496). -/
def execRomSelftestPass (g : PairId) (s : State) : Answer :=
  .next (if selftestRuns g.val s then selftestPass g.val s else s)

/-- ROM_SELFTEST_FAIL (R448, R507). -/
def execRomSelftestFail (g : PairId) (s : State) : Answer :=
  .next (if selftestRuns g.val s then selftestFail g.val s else s)

/-- LOAD_DONE (R498). -/
def execLoadDone (p : PatchLoad) (s : State) : Answer := .next (if inPhase .load s then loadAll p s else s)

/-- RAILS_STABLE (R496). -/
def execRailsStable (s : State) : Answer := .next (if inPhase .power s then toPhase .calibrate s else s)

/-- RAILS_TIMEOUT: recorded once; bring-up keeps waiting (R507). -/
def execRailsTimeout (s : State) : Answer :=
  .next (if inPhase .power s && !natBit (odGet s 0xB000 0x03) 3 then bootFault 3 0x0D 0xF000 s else s)

/-- CALIBRATION_DONE (R500, R507). -/
def execCalibrationDone (failed : List CalUnit) (s : State) : Answer :=
  .next (if inPhase .calibrate s then calibrated failed s else s)

/-- MAPS_DONE (R501). -/
def execMapsDone (failedTiles : List SliceId) (s : State) : Answer :=
  .next (if inPhase .maps s then mapsDone failedTiles s else s)

/-- COLD_SOAK_ADJUST (R502). -/
def execColdSoakAdjust (temps : List Int) (s : State) : Answer :=
  .next (if inPhase .coldSoak s then soakStep temps s else s)

/-- SOAK_LIMIT_EXPIRY: boot fault SOAK is recorded once and heating continues (R502). -/
def execSoakLimitExpiry (s : State) : Answer :=
  .next (if inPhase .coldSoak s && !natBit (odGet s 0xB000 0x03) 7 then bootFault 7 0x0D 0xF000 s else s)

/-- DRAM_TRAINING_DONE (R503). -/
def execDramTrainingDone (spd : List DimmSpd) (failed : List ChanId) (failedRanks : List (ChanId × Fin 8)) (s : State) : Answer :=
  .next (if inPhase .dram s then dramTrained spd failed failedRanks s else s)

/-- TACK_ZERO_DONE (R299, R504). -/
def execTackZeroDone (s : State) : Answer := .next (if inPhase .tack s then toPhase .units (zeroTack s) else s)

/-- UNITS_READY (R504). -/
def execUnitsReady (ms : BitVec 32) (s : State) : Answer := .next (if inPhase .units s then startUnits ms s else s)

/-- FATAL_STATE_RESET: WAKE_N has been low for 1 s in the fatal state, and bring-up starts (R436). -/
def execFatalStateReset (s : State) : Answer := .next (if s.far.fatal then restart 0 s else s)

end Sys2Proof.Machine
end

