-- ==== Sys2Proof/Machine/Fp.lean ====
section
/-! DEFINITION. Floating point under IEEE 754-2019 (R198, R227): exact integer arithmetic followed by one rounding. -/

namespace Sys2Proof.Machine

/-- A binary format: precision and exponent width. -/
structure Fmt where
  p : Nat
  w : Nat
deriving DecidableEq, Repr

def fmtS : Fmt := { p := 24, w := 8 }
def fmtD : Fmt := { p := 53, w := 11 }
def fmtOf (z : FSz) : Fmt := match z with | .s => fmtS | .d => fmtD

def Fmt.bits (f : Fmt) : Nat := f.p + f.w
def Fmt.bias (f : Fmt) : Int := ((2 ^ (f.w - 1) : Nat) : Int) - 1
/-- The exponent of the lowest subnormal bit. -/
def Fmt.low (f : Fmt) : Int := 2 - f.bias - (f.p : Int)

/-- A value: NaN (and whether it signals), infinity, or ± m × 2^e. -/
inductive FVal where
  | nan (signals : Bool)
  | inf (neg : Bool)
  | fin (neg : Bool) (m : Nat) (e : Int)
deriving DecidableEq, Repr

/-- The value of a bit pattern. -/
def unpack (f : Fmt) (v : Nat) : FVal :=
  let frac := natField v 0 (f.p - 1)
  let ex := natField v (f.p - 1) f.w
  let s := v.testBit (f.bits - 1)
  if ex = 2 ^ f.w - 1 then (if frac = 0 then .inf s else .nan (!frac.testBit (f.p - 2)))
  else if ex = 0 then .fin s frac f.low
  else .fin s (2 ^ (f.p - 1) + frac) (f.low + ex - 1)

/-- The exceptions an operation signals (R198). -/
structure FFlags where
  invalid : Bool := false
  divZero : Bool := false
  overflow : Bool := false
  underflow : Bool := false
  inexact : Bool := false
deriving DecidableEq, Repr

def FFlags.or (a b : FFlags) : FFlags :=
  { invalid := a.invalid || b.invalid, divZero := a.divZero || b.divZero, overflow := a.overflow || b.overflow,
    underflow := a.underflow || b.underflow, inexact := a.inexact || b.inexact }

/-- The bits of FPF, SW[19:15], invalid lowest (R198; log entry 23). -/
def FFlags.sw (f : FFlags) : BitVec 64 :=
  BitVec.ofNat 64 ((if f.invalid then 2 ^ 15 else 0) + (if f.divZero then 2 ^ 16 else 0) + (if f.overflow then 2 ^ 17 else 0) +
    (if f.underflow then 2 ^ 18 else 0) + (if f.inexact then 2 ^ 19 else 0))

/-- A result's bits with the exceptions it signals. -/
structure FRes where
  bits : Nat
  flags : FFlags := {}
deriving DecidableEq, Repr

def signBit (f : Fmt) (s : Bool) : Nat := if s then 2 ^ (f.bits - 1) else 0
def infBits (f : Fmt) (s : Bool) : Nat := signBit f s + (2 ^ f.w - 1) * 2 ^ (f.p - 1)
def maxBits (f : Fmt) (s : Bool) : Nat := infBits f s - 1

/-- The quiet NaN an operation returns (log entry 3). -/
def nanBits (f : Fmt) (op : Nat) (args : List Nat) : Nat :=
  let n := (Config.nanPayload op (args.map (BitVec.ofNat 64))).toNat
  signBit f (n.testBit 51) + (2 ^ f.w - 1) * 2 ^ (f.p - 1) + 2 ^ (f.p - 2) + n % 2 ^ (f.p - 2)

def nanRes (f : Fmt) (op : Nat) (args : List Nat) (invalid : Bool) : FRes :=
  { bits := nanBits f op args, flags := { invalid := invalid } }

/-- The number of bits of a number. -/
def bitLen (m : Nat) : Nat := if m = 0 then 0 else m.log2 + 1

/-- Round m × 2^e (plus a part below, where `sticky`) to a multiple of 2^q under a rounding mode; whether it was inexact. -/
def roundTo (rm : Nat) (s : Bool) (m : Nat) (e q : Int) (sticky : Bool) : Nat × Bool :=
  if q ≤ e then (m * 2 ^ (e - q).toNat, sticky)
  else
    let d := (q - e).toNat
    let lower := m % 2 ^ d
    let mant := m / 2 ^ d
    let half := 2 ^ (d - 1)
    let inexact := decide (lower ≠ 0) || sticky
    let up := match rm with
      | 0 => decide (half < lower) || (decide (half = lower) && (sticky || decide (mant % 2 = 1)))
      | 1 => false
      | 2 => !s && inexact
      | _ => s && inexact
    (if up then mant + 1 else mant, inexact)

/-- Whether a rounded result counts as tiny (log entry 3). -/
def tiny (f : Fmt) (rm : Nat) (s : Bool) (m : Nat) (e : Int) (sticky : Bool) : Bool :=
  let least := f.low + f.p - 1
  if Config.tinyBeforeRounding then decide (e + bitLen m - 1 < least)
  else
    let q := e + bitLen m - f.p
    let r := roundTo rm s m e q sticky
    decide (q + bitLen r.1 - 1 < least)

/-- The result nearest to ± m × 2^e in a format. -/
def roundPack (f : Fmt) (rm : Nat) (s : Bool) (m : Nat) (e : Int) (sticky : Bool) : FRes :=
  if m = 0 then { bits := signBit f s }
  else
    let q := max (e + bitLen m - f.p) f.low
    let r := roundTo rm s m e q sticky
    let c := bitLen r.1
    let mant := if c = f.p + 1 then r.1 / 2 else r.1
    let q' := if c = f.p + 1 then q + 1 else q
    let ex := q' - f.low + 1
    if 2 ^ f.w - 1 ≤ ex ∧ f.p ≤ c then
      { bits := if rm = 0 ∨ (rm = 2 ∧ !s) ∨ (rm = 3 ∧ s) then infBits f s else maxBits f s,
        flags := { overflow := true, inexact := true } }
    else
      let bits := if mant < 2 ^ (f.p - 1) then mant else (ex.toNat * 2 ^ (f.p - 1) + (mant - 2 ^ (f.p - 1)))
      { bits := signBit f s + bits, flags := { inexact := r.2, underflow := r.2 && tiny f rm s m e sticky } }

/-- The sum of two finite values, exactly. -/
def exactAdd (rm : Nat) (s1 : Bool) (m1 : Nat) (e1 : Int) (s2 : Bool) (m2 : Nat) (e2 : Int) : Bool × Nat × Int :=
  let e := min e1 e2
  let v1 : Int := (if s1 then -1 else 1) * ((m1 * 2 ^ (e1 - e).toNat : Nat) : Int)
  let v2 : Int := (if s2 then -1 else 1) * ((m2 * 2 ^ (e2 - e).toNat : Nat) : Int)
  let v := v1 + v2
  let s := if v = 0 then (if s1 = s2 then s1 else decide (rm = 3)) else decide (v < 0)
  (s, v.natAbs, e)

def isNan (v : FVal) : Bool := match v with | .nan _ => true | _ => false
def isSnan (v : FVal) : Bool := match v with | .nan s => s | _ => false

/-- Addition. -/
def fAdd (f : Fmt) (rm a b : Nat) : FRes :=
  let x := unpack f a
  let y := unpack f b
  if isNan x || isNan y then nanRes f 0 [a, b] (isSnan x || isSnan y)
  else match x, y with
    | .inf s, .inf t => if s = t then { bits := infBits f s } else nanRes f 0 [a, b] true
    | .inf s, _ => { bits := infBits f s }
    | _, .inf t => { bits := infBits f t }
    | .fin s m e, .fin t n g => let r := exactAdd rm s m e t n g
                                roundPack f rm r.1 r.2.1 r.2.2 false
    | _, _ => nanRes f 0 [a, b] true

/-- The value with its sign changed. -/
def fNeg (f : Fmt) (a : Nat) : Nat := if a.testBit (f.bits - 1) then a - 2 ^ (f.bits - 1) else a + 2 ^ (f.bits - 1)

/-- Subtraction. -/
def fSub (f : Fmt) (rm a b : Nat) : FRes :=
  if isNan (unpack f b) then
    nanRes f 1 [a, b] (isSnan (unpack f a) || isSnan (unpack f b))
  else fAdd f rm a (fNeg f b)

/-- Multiplication. -/
def fMul (f : Fmt) (rm a b : Nat) : FRes :=
  let x := unpack f a
  let y := unpack f b
  if isNan x || isNan y then nanRes f 2 [a, b] (isSnan x || isSnan y)
  else match x, y with
    | .inf s, .inf t => { bits := infBits f (s != t) }
    | .inf s, .fin t n _ => if n = 0 then nanRes f 2 [a, b] true else { bits := infBits f (s != t) }
    | .fin s m _, .inf t => if m = 0 then nanRes f 2 [a, b] true else { bits := infBits f (s != t) }
    | .fin s m e, .fin t n g => roundPack f rm (s != t) (m * n) (e + g) false
    | _, _ => nanRes f 2 [a, b] true

/-- Division. -/
def fDiv (f : Fmt) (rm a b : Nat) : FRes :=
  let x := unpack f a
  let y := unpack f b
  if isNan x || isNan y then nanRes f 3 [a, b] (isSnan x || isSnan y)
  else match x, y with
    | .inf _, .inf _ => nanRes f 3 [a, b] true
    | .inf s, .fin t _ _ => { bits := infBits f (s != t) }
    | .fin s _ _, .inf t => { bits := signBit f (s != t) }
    | .fin s m e, .fin t n g =>
      if n = 0 then
        (if m = 0 then nanRes f 3 [a, b] true else { bits := infBits f (s != t), flags := { divZero := true } })
      else
        let k := 2 * f.p + 2 + bitLen n
        roundPack f rm (s != t) (m * 2 ^ k / n) (e - g - k) (decide (m * 2 ^ k % n ≠ 0))
    | _, _ => nanRes f 3 [a, b] true

/-- The integer square root by bits from `2^i` down. -/
def isqrtFrom (i x r : Nat) : Nat :=
  match i with
  | 0 => r
  | i + 1 => isqrtFrom i x (if (r + 2 ^ i) * (r + 2 ^ i) ≤ x then r + 2 ^ i else r)

/-- Square root. -/
def fSqrt (f : Fmt) (rm a : Nat) : FRes :=
  match unpack f a with
  | .nan s => nanRes f 4 [a] s
  | .inf s => if s then nanRes f 4 [a] true else { bits := infBits f false }
  | .fin s m e =>
    if m = 0 then { bits := a }
    else if s then nanRes f 4 [a] true
    else
      let k := 2 * f.p + 2 + (if (e % 2 = 0) then 0 else 1)
      let x := m * 2 ^ k
      let r := isqrtFrom (bitLen x / 2 + 1) x 0
      roundPack f rm false r ((e - k) / 2) (decide (r * r ≠ x))

/-- c + a × b with one rounding. -/
def fMulAdd (f : Fmt) (rm c a b : Nat) : FRes :=
  let x := unpack f a
  let y := unpack f b
  let z := unpack f c
  let zeroInf := match x, y with
    | .inf _, .fin _ n _ => decide (n = 0)
    | .fin _ m _, .inf _ => decide (m = 0)
    | _, _ => false
  if isNan x || isNan y || isNan z then
    nanRes f 5 [c, a, b] (isSnan x || isSnan y || isSnan z || (zeroInf && Config.fmaNanSignals))
  else if zeroInf then nanRes f 5 [c, a, b] true
  else
    let ps := (match x with | .inf s => s | .fin s _ _ => s | _ => false) != (match y with | .inf s => s | .fin s _ _ => s | _ => false)
    match x, y, z with
    | .fin _ m e, .fin _ n g, .fin t k h =>
      let r := exactAdd rm ps (m * n) (e + g) t k h
      roundPack f rm r.1 r.2.1 r.2.2 false
    | .fin _ _ _, .fin _ _ _, .inf t => { bits := infBits f t }
    | _, _, .inf t => if t = ps then { bits := infBits f t } else nanRes f 5 [c, a, b] true
    | _, _, _ => { bits := infBits f ps }

/-- The order of two values. -/
inductive FOrd where
  | lt | eq | gt | un
deriving DecidableEq, Repr

/-- A comparison and whether it signals invalid. -/
def fCompare (f : Fmt) (a b : Nat) : FOrd × Bool :=
  let x := unpack f a
  let y := unpack f b
  if isNan x || isNan y then (.un, isSnan x || isSnan y || Config.compareSignals)
  else
    let o : FOrd := match x, y with
      | .inf s, .inf t => if s = t then .eq else if s then .lt else .gt
      | .inf s, _ => if s then .lt else .gt
      | _, .inf t => if t then .gt else .lt
      | .fin s m e, .fin t n g =>
        let k := min e g
        let v1 : Int := (if s then -1 else 1) * ((m * 2 ^ (e - k).toNat : Nat) : Int)
        let v2 : Int := (if t then -1 else 1) * ((n * 2 ^ (g - k).toNat : Nat) : Int)
        if v1 < v2 then .lt else if v1 = v2 then .eq else .gt
      | _, _ => .un
    (o, false)

/-- A 64-bit integer as a double (CVTIF). -/
def fOfInt (rm : Nat) (v : Int) : FRes := roundPack fmtD rm (decide (v < 0)) v.natAbs 0 false

/-- A double rounded toward zero to a 64-bit integer (CVTFI; log entry 4). -/
def fToInt (a : Nat) : FRes :=
  let out : FRes := { bits := (Config.cvtOutOfRange (BitVec.ofNat 64 a)).toNat, flags := { invalid := true } }
  match unpack fmtD a with
  | .fin s m e =>
    let t := if 0 ≤ e then m * 2 ^ e.toNat else m / 2 ^ (-e).toNat
    let exact := decide (0 ≤ e) || decide (m % 2 ^ (-e).toNat = 0)
    let v : Int := if s then -(t : Int) else t
    if -(2 ^ 63 : Int) ≤ v ∧ v < 2 ^ 63 then { bits := wrap 64 v, flags := { inexact := !exact } } else out
  | _ => out

/-- A conversion between the formats (CVTSD, CVTDS). -/
def fConvert (g f : Fmt) (rm a : Nat) : FRes :=
  match unpack g a with
  | .nan s => nanRes f 6 [a] s
  | .inf s => { bits := infBits f s }
  | .fin s m e => roundPack f rm s m e false

/-! ## The scalar instructions -/

/-- The rounding mode in SW (R198). -/
def swRm (sw : BitVec 64) : Nat := natField sw.toNat 13 2

/-- SW with sticky floating-point flags added (R198). -/
def addFpf (f : FFlags) (sw : BitVec 64) : BitVec 64 := sw ||| f.sw

/-- The result tag of the floating-point class (R207). -/
def fpTag (ts : List Tag) : Tag := if ts.any (fun t => decide (t = .bytes)) then .bytes else .float

/-- The body of dst ← f(operands): the sources are read, and dst too where `readDst` holds. -/
def fpBody (n m : Nat) (readDst : Bool) (d : Opd) (ss : List Opd) (f : Nat → List Nat → FRes) (e : Env) : CoreRun (BitVec 47) := do
  let pd ← formOpd e 0 n { write := true } d
  let ps ← (ss.zipIdx 1).mapM (fun x => formOpd e x.2 m {} x.1)
  let x ← if readDst then (do return [← readPlace e 0 n true pd]) else pure []
  let ys ← (ps.zipIdx 1).mapM (fun y => readPlace e y.2 m true y.1)
  let all := x ++ ys
  all.forM (fun y => checkSrc y isFpTag)
  let sw := (← getArch e).sw
  let r := f (swRm sw) (all.map (·.val.toNat))
  let t := fpTag (all.map (·.tag))
  writePlace e n pd (BitVec.ofNat 64 r.bits) t
  changeArch e (fun a => { a with sw := addFpf r.flags a.sw })
  return e.npc

def arg (l : List Nat) (i : Nat) : Nat := l.getD i 0

/-- An instruction dst ← dst op src. -/
def fpInstr (a : At) (sz : FSz) (d s : Opd) (readDst : Bool) (f : Nat → List Nat → FRes) (st : State) : Answer :=
  runInstr a (instrLen a 1 [d, s] 0) (a.pfx.isEmpty && opdDst d && opdFSrc (fszBytes sz) s) 2
    (fpBody (fszBytes sz) (fszBytes sz) readDst d [s] f) st

/-- FADD (R227). -/
def execFadd (a : At) (sz : FSz) (d s : Opd) (st : State) : Answer :=
  fpInstr a sz d s true (fun rm l => fAdd (fmtOf sz) rm (arg l 0) (arg l 1)) st
/-- FSUB (R227). -/
def execFsub (a : At) (sz : FSz) (d s : Opd) (st : State) : Answer :=
  fpInstr a sz d s true (fun rm l => fSub (fmtOf sz) rm (arg l 0) (arg l 1)) st
/-- FMUL (R227). -/
def execFmul (a : At) (sz : FSz) (d s : Opd) (st : State) : Answer :=
  fpInstr a sz d s true (fun rm l => fMul (fmtOf sz) rm (arg l 0) (arg l 1)) st
/-- FDIV (R227). -/
def execFdiv (a : At) (sz : FSz) (d s : Opd) (st : State) : Answer :=
  fpInstr a sz d s true (fun rm l => fDiv (fmtOf sz) rm (arg l 0) (arg l 1)) st
/-- FSQRT: dst ← √src (R227). -/
def execFsqrt (a : At) (sz : FSz) (d s : Opd) (st : State) : Answer :=
  fpInstr a sz d s false (fun rm l => fSqrt (fmtOf sz) rm (arg l 0)) st

/-- FMA: dst ← dst + src × src, one rounding (R227). -/
def execFma (a : At) (sz : FSz) (d s t : Opd) (st : State) : Answer :=
  runInstr a (instrLen a 1 [d, s, t] 0)
    (a.pfx.isEmpty && opdDst d && opdFSrc (fszBytes sz) s && opdFSrc (fszBytes sz) t) 2
    (fpBody (fszBytes sz) (fszBytes sz) true d [s, t] (fun rm l => fMulAdd (fmtOf sz) rm (arg l 0) (arg l 1) (arg l 2))) st

/-- FCMP: Z equal, N less, V unordered, C cleared (R227). -/
def execFcmp (a : At) (sz : FSz) (d s : Opd) (st : State) : Answer :=
  runInstr a (instrLen a 1 [d, s] 0) (a.pfx.isEmpty && opdFSrc (fszBytes sz) d && opdFSrc (fszBytes sz) s) 2 (fun e => do
    let pd ← formOpd e 0 (fszBytes sz) {} d
    let ps ← formOpd e 1 (fszBytes sz) {} s
    let x ← readPlace e 0 (fszBytes sz) true pd
    let y ← readPlace e 1 (fszBytes sz) true ps
    checkSrc x isFpTag
    checkSrc y isFpTag
    let r := fCompare (fmtOf sz) x.val.toNat y.val.toNat
    let fl : FlagSet := { c := some false, z := some (decide (r.1 = .eq)), n := some (decide (r.1 = .lt)), v := some (decide (r.1 = .un)) }
    changeArch e (fun a => { a with sw := addFpf { invalid := r.2 } (fl.apply a.sw) })
    return e.npc) st

/-- FMOV: .d is tag-transparent where both places are whole (R206, R207). -/
def execFmov (a : At) (sz : FSz) (d s : Opd) (st : State) : Answer :=
  runInstr a (instrLen a 1 [d, s] 0) (a.pfx.isEmpty && opdDst d && opdFSrc (fszBytes sz) s) 2
    (moveBody true (fszBytes sz) d s) st

/-- The body of a conversion: source class, sizes and result tag (R207). -/
def cvtBody (n m : Nat) (fp : Bool) (ok : Tag → Bool) (t : Tag) (d s : Opd) (f : Nat → Nat → FRes) (e : Env) : CoreRun (BitVec 47) := do
  let pd ← formOpd e 0 n { write := true } d
  let ps ← formOpd e 1 m {} s
  let y ← readPlace e 1 m fp ps
  checkSrc y ok
  let r := f (swRm (← getArch e).sw) y.val.toNat
  writePlace e n pd (BitVec.ofNat 64 r.bits) (if y.tag = .bytes then .bytes else t)
  changeArch e (fun a => { a with sw := addFpf r.flags a.sw })
  return e.npc

/-- CVTIF: 64-bit integer to double (R207, R227). -/
def execCvtif (a : At) (d s : Opd) (st : State) : Answer :=
  runInstr a (instrLen a 1 [d, s] 0) (a.pfx.isEmpty && opdDst d && opdSrc s) 2
    (cvtBody 8 8 false isIntTag .float d s (fun rm v => fOfInt rm (sInt 64 v))) st
/-- CVTFI: double to 64-bit integer, toward zero (R207, R227). -/
def execCvtfi (a : At) (d s : Opd) (st : State) : Answer :=
  runInstr a (instrLen a 1 [d, s] 0) (a.pfx.isEmpty && opdDst d && opdFSrc 8 s) 2
    (cvtBody 8 8 true isFpTag .int d s (fun _ v => fToInt v)) st
/-- CVTSD: single to double (R207, R227). -/
def execCvtsd (a : At) (d s : Opd) (st : State) : Answer :=
  runInstr a (instrLen a 1 [d, s] 0) (a.pfx.isEmpty && opdDst d && opdFSrc 4 s) 2
    (cvtBody 8 4 true isFpTag .float d s (fun rm v => fConvert fmtS fmtD rm v)) st
/-- CVTDS: double to single (R207, R227). -/
def execCvtds (a : At) (d s : Opd) (st : State) : Answer :=
  runInstr a (instrLen a 1 [d, s] 0) (a.pfx.isEmpty && opdDst d && opdFSrc 8 s) 2
    (cvtBody 4 8 true isFpTag .float d s (fun rm v => fConvert fmtD fmtS rm v)) st
/-- IMOVF: the bits of an integer, tagged FLOAT (R207, R227). -/
def execImovf (a : At) (d s : Opd) (st : State) : Answer :=
  runInstr a (instrLen a 1 [d, s] 0) (a.pfx.isEmpty && opdDst d && opdSrc s) 2
    (cvtBody 8 8 false isIntTag .float d s (fun _ v => { bits := v })) st
/-- FMOVI: the bits of a float, tagged INT (R207, R227). -/
def execFmovi (a : At) (d s : Opd) (st : State) : Answer :=
  runInstr a (instrLen a 1 [d, s] 0) (a.pfx.isEmpty && opdDst d && opdFSrc 8 s) 2
    (cvtBody 8 8 true isFpTag .int d s (fun _ v => { bits := v })) st

end Sys2Proof.Machine
end

