-- ==== Sys2Proof/Machine/Side.lean ====
section
/-! DEFINITION. The commands of the side-band paths and the saddlebag: Wealar over CAN FD, the halter port, the serializer's slot and
RESTORE (R463–R478, R494). -/

namespace Sys2Proof.Machine

/-! ## Services (R471) -/

/-- Whether the side-band settings have been loaded (R498). -/
def bagLoaded (s : State) : Bool := !([BootPhase.reset, .rom, .load].contains s.boot.phase)

/-- Whether a pair serves CAN FD requests now: not before LOAD has ended, and not in DEEP or OFF. -/
def canServes (s : State) : Bool := groomServes s && bagLoaded s

/-- CAN requests that wait in the serializer (R472). -/
def canWaits (s : State) : Nat := (s.serial.filter (fun a => a.can.isSome)).length

/-- A dictionary request over CAN FD: QUEUE_FULL where 8 wait already (R472). -/
def canAccess (h : WealarHdr) (write : Bool) (idx sub : Nat) (data : List Byte) (s : State) : State :=
  let svc := if write then svcWrite else svcRead
  if 8 ≤ canWaits s then odBump 0x1000 0x1D (wealarRespond (nodeId s) h svc [6] s)
  else queueAccess { path := .can, write := write, idx := idx, sub := sub, data := data, can := some (h, BitVec.ofNat 8 svc) } s

/-- IDENTIFY. -/
def canIdentify (h : WealarHdr) (s : State) : State := wealarRespond (nodeId s) h svcIdentify (0 :: identifyBody s) s

/-- WAKE: answered once the device is out of DEEP. -/
def canWake (h : WealarHdr) (s : State) : State :=
  let s1 := wakeDevice 3 s
  if s1.pwr.state = .deep then { s1 with side := { s1.side with wakeReplies := s1.side.wakeReplies ++ [h] } }
  else wealarRespond (nodeId s1) h svcWake [0, BitVec.ofNat 8 s1.pwr.state.code] s1

/-- ABORT: the named transfer of the same source ends without an answer. -/
def canAbort (h : WealarHdr) (tid : BitVec 6) (s : State) : State :=
  wealarRespond (nodeId s) h svcAbort [0]
    { s with side := { s.side with transfers := s.side.transfers.filter (fun t => !(decide (t.src = h.src) && decide (t.tid = tid))) } }

/-- A request body is complete (R471): a body too short for its service is answered BAD_LENGTH, an unknown service BAD_SERVICE; events and
heartbeats of other nodes are not answered. -/
def canService (h : WealarHdr) (svc : Nat) (body : List Byte) (s : State) : State :=
  let idx := natOfBytes (body.take 2)
  let sub := natOfBytes ((body.drop 2).take 1)
  let short := wealarRespond (nodeId s) h svc [3] s
  match svc with
  | 1 => if body.length < 3 then short else canAccess h false idx sub [] s
  | 2 => if body.length < 3 then short else canAccess h true idx sub (body.drop 3) s
  | 3 => canIdentify h s
  | 4 => canWake h s
  | 5 => if body.isEmpty then short else canAbort h (BitVec.ofNat 6 (natOfBytes (body.take 1))) s
  | 0x10 => s
  | 0x11 => s
  | _ => wealarRespond (nodeId s) h svc [8] s

/-! ## Segments (R470) -/

/-- The body of a single frame: the zero bytes that pad a WRITE's frame to a CAN FD length are dropped by its entry's length. -/
def singleBody (svc : Nat) (data : List Byte) : List Byte :=
  let body := data.drop 1
  match odLookup (natOfBytes (body.take 2)) (natOfBytes ((body.drop 2).take 1)) with
  | some e =>
    let n := 3 + e.ty.len
    if svc = 2 ∧ n < body.length ∧ (canPad (data.take (n + 1))).length = data.length ∧ (body.drop n).all (fun b => decide (b = 0)) = true then
      body.take n
    else body
  | none => body

/-- The transfer of a source and TID ends with SEGMENT_ERROR, where there is one. -/
def endTransfer (src : BitVec 7) (tid : BitVec 6) (s : State) : State :=
  match s.side.transfers.find? (fun t => decide (t.src = src) && decide (t.tid = tid)) with
  | none => s
  | some x => segmentError x.hdr x.service.toNat { s with side := { s.side with transfers := s.side.transfers.erase x } }

/-- A first segment: at most 1,024 bytes, and at most 4 transfers. -/
def firstSegment (h : WealarHdr) (svc : BitVec 5) (data : List Byte) (s0 : State) : State :=
  let s := endTransfer h.src h.tid s0
  let n := natOfBytes ((data.drop 1).take 2)
  let bytes := (data.drop 3).take 61
  if 1024 < n ∨ 4 ≤ s.side.transfers.length ∨ natField (data.headD 0).toNat 2 6 ≠ 0 ∨ n ≤ 61 then segmentError h svc.toNat s
  else
    let t : Transfer := { src := h.src, tid := h.tid, hdr := h, service := svc, counter := 0, length := n, bytes := bytes }
    { s with side := { s.side with transfers := s.side.transfers ++ [t] } }

/-- A middle or last segment: its counter follows, and its length fits: a middle segment leaves bytes of the body to come, and a last one
holds the rest and what pads its frame (log entry 205). -/
def nextSegment (h : WealarHdr) (last : Bool) (data : List Byte) (s : State) : State :=
  match s.side.transfers.find? (fun t => decide (t.src = h.src) && decide (t.tid = h.tid)) with
  | none => s
  | some x =>
    let got := data.drop 1
    let left := x.length - x.bytes.length
    let fits := if last then decide (left ≤ got.length) && decide (left ≤ 63) && decide ((canPad (data.take (left + 1))).length = data.length)
                else decide (got.length ≤ 63) && decide (got.length < left)
    if BitVec.ofNat 6 (natField (data.headD 0).toNat 2 6) ≠ x.counter + 1 ∨ fits = false then endTransfer h.src h.tid s
    else
      let rest := s.side.transfers.erase x
      if last then canService x.hdr x.service.toNat (x.bytes ++ got.take left) { s with side := { s.side with transfers := rest } }
      else { s with side := { s.side with transfers := rest ++ [{ x with counter := x.counter + 1, bytes := x.bytes ++ got.take 63 }] } }

/-- The fields of an identifier (R469). -/
def idHdr (id : BitVec 29) : WealarHdr :=
  { tid := id.extractLsb' 0 6, src := id.extractLsb' 6 7, broadcast := decide (id.extractLsb' 13 7 = 0), prio := id.extractLsb' 26 3 }
def idDst (id : BitVec 29) : Nat := (id.extractLsb' 13 7).toNat
def idService (id : BitVec 29) : BitVec 5 := id.extractLsb' 20 5
def idResp (id : BitVec 29) : Bool := id.getLsbD 25

/-- A frame is taken from the receive buffer. -/
def takeFrame (s : State) (f : BitVec 29 × List Byte) : State :=
  let h := idHdr f.1
  let svc := idService f.1
  match natField (f.2.headD 0).toNat 0 2 with
  | 0 => canService h svc.toNat (singleBody svc.toNat f.2) (endTransfer h.src h.tid s)
  | 1 => firstSegment h svc f.2 s
  | 2 => nextSegment h false f.2 s
  | _ => nextSegment h true f.2 s

/-- A frame is received: counted, and its source raised (R393, R477). -/
def frameReceived (s : State) : State := raise 0x544 (odBump 0x1000 0x18 s)

/-- A frame waits in the 16-frame receive buffer. -/
def keepFrame (id : BitVec 29) (data : List Byte) (s : State) : State :=
  if s.side.rxKept.length < 16 then frameReceived { s with side := { s.side with rxKept := s.side.rxKept ++ [(id, data)] } } else s

/-- A request that one frame carries, received where a pair serves: it ends SLEEP, and a controller that takes a frame is not bus-off (R420,
R468). -/
def oneFrame (act : State → State) (s : State) : State :=
  if canServes s then act (wakeDevice 3 (pumpCan (frameReceived { s with side := { s.side with busOff := false } }))) else s

/-- A frame for this node arrives (R468, R469, R474, R509): in DEEP it wakes the device where DEEP_STB_LOAD bit 3 has the controller listen,
reliably only without bit rate switching; before LOAD has ended it waits. A controller that takes a frame is not bus-off. -/
def canSegment (id : BitVec 29) (data : List Byte) (brs : Bool) (s : State) : State :=
  if idResp id ∨ (idDst id ≠ 0 ∧ idDst id ≠ nodeId s) ∨ s.pwr.state = .off ∨ s.far.fatal = true ∨ s.boot.mfg = true then s
  else if s.pwr.state = .deep then
    (if !natBit (odGet s 0x2000 0x0A) 3 then s
     else if brs && (freeValue s).getLsbD 0 then State.took s
     else wakeDevice 3 (keepFrame id data (if brs then State.took s else s)))
  else if !canServes s then keepFrame id data s
  else oneFrame (fun t => takeFrame t (id, data)) s

/-- CAN_SEGMENT. -/
def execCanSegment (id : BitVec 29) (data : List Byte) (brs : Bool) (s : State) : Answer := .next (canSegment id data brs s)

/-- SEGMENT_TIMEOUT: the next segment has not followed within 100 ms. -/
def execSegmentTimeout (src : BitVec 7) (tid : BitVec 6) (s : State) : Answer := .next (endTransfer src tid s)

/-- CAN_BUS_OFF: counted; nothing is sent until the controller has recovered (R468). -/
def execCanBusOff (s : State) : Answer := .next (odBump 0x1000 0x1B { s with side := { s.side with busOff := true } })

/-! ## Wealar requests -/

def execWealarRead (h : WealarHdr) (idx : BitVec 16) (sub : BitVec 8) (s : State) : Answer :=
  .next (oneFrame (canAccess h false idx.toNat sub.toNat []) s)

def execWealarWrite (h : WealarHdr) (idx : BitVec 16) (sub : BitVec 8) (data : List Byte) (s : State) : Answer :=
  .next (oneFrame (canAccess h true idx.toNat sub.toNat data) s)

def execWealarIdentify (h : WealarHdr) (s : State) : Answer := .next (oneFrame (canIdentify h) s)

/-- WEALAR_WAKE: in DEEP it is heard where DEEP_STB_LOAD bit 3 is set (R420). -/
def execWealarWake (h : WealarHdr) (s : State) : Answer :=
  .next (if decide (s.pwr.state = .deep) && natBit (odGet s 0x2000 0x0A) 3 then canWake h (frameReceived s) else oneFrame (canWake h) s)

def execWealarAbort (h : WealarHdr) (tid : BitVec 6) (s : State) : Answer := .next (oneFrame (canAbort h tid) s)

/-- HEARTBEAT: broadcast every HB_PERIOD_MS in RUN, IDLE and SLEEP (R473); its TID is free. -/
def execHeartbeat (s : State) : Answer :=
  if canServes s ∧ sideVal s 0x13 ≠ 0 then
    let body := [BitVec.ofNat 8 s.pwr.state.code, BitVec.ofNat 8 (serviceState s)] ++ bytesOfNat 2 (odGet s 0x1000 0x08) ++
      bytesOfNat 4 s.far.hours.toNat ++ bytesOfNat 2 s.side.evseq.toNat
    .next (sendFrame (wealarId 6 0x11 0 (nodeId s) ((freeValue s).toNat % 64) false) (0 :: body) (State.took s))
  else .next s

/-! ## The serializer's slot -/

/-- What arrived while the device was in DEEP, or before LOAD had ended, is served (R474, R509). -/
def serveKept (s : State) : State :=
  if canServes s then
    let s1 := s.side.rxKept.foldl takeFrame { s with side := { s.side with rxKept := [], wakeReplies := [] } }
    s.side.wakeReplies.foldl (fun t h => canWake h t) s1
  else s

/-- SERIALIZER_SLOT (R465). -/
def execSerializerSlot (s : State) : Answer := .next (if groomServes s then serializerSlot (serveKept s) else s)

/-! ## The halter port (R475, R476) -/

/-- Whether the port takes transactions. -/
def halterServes (s : State) : Bool := groomServes s && bagLoaded s

/-- The port takes the transaction, and SCL is released. -/
def releaseScl (s : State) : State := { s with side := { s.side with sclHeld := false, halterNack := false } }

/-- A request of the halter port. ABORT names no transfer here: the port has none. -/
def halterService (svc : Nat) (tid : BitVec 8) (body : List Byte) (s : State) : State :=
  let idx := natOfBytes (body.take 2)
  let sub := natOfBytes ((body.drop 2).take 1)
  let acc (write : Bool) : State :=
    queueAccess { path := .halter, write := write, idx := idx, sub := sub, data := if write then body.drop 3 else [], halterTid := some tid } s
  if 253 < body.length then answerHalter [3] s
  else match svc with
    | 1 => if body.length < 3 then answerHalter [3] s else acc false
    | 2 => if body.length < 3 then answerHalter [3] s else acc true
    | 3 => answerHalter (0 :: identifyBody s) s
    | 4 => let s1 := wakeDevice 8 s
           answerHalter [0, BitVec.ofNat 8 s1.pwr.state.code] s1
    | 5 => answerHalter [0] s
    | _ => answerHalter [8] s

/-- HALTER_BLOCK_WRITE: NACKed at its command byte while an earlier request is unanswered; a bad PEC is discarded and counted. -/
def execHalterBlockWrite (svc tid : BitVec 8) (body : List Byte) (pecOk : Bool) (s : State) : Answer :=
  if !halterServes s then .next s
  else if s.side.halterNack then .next (releaseScl s)
  else if s.side.halterPending then .next { (releaseScl s) with side := { (releaseScl s).side with halterNack := true } }
  else if !pecOk then .next (odBump 0x1000 0x1F (releaseScl s))
  else
    let s1 := releaseScl s
    .next (halterService svc.toNat tid body { s1 with side := { s1.side with halterPending := true, halterReq := [svc, tid], halterReply := none } })

/-- HALTER_BLOCK_READ: SERVICE, TID and the response body, or NOT_READY. -/
def execHalterBlockRead (s : State) : Answer :=
  if !halterServes s then .next s
  else if s.side.halterNack then .next (releaseScl s)
  else
    let s1 := releaseScl s
    match s1.side.halterReply with
    | some b => .next (emit (.smbus b) { s1 with side := { s1.side with halterReply := none } })
    | none => .next (emit (.smbus (takePad 2 0 s1.side.halterReq ++ [9])) s1)

/-- The status byte of command 0x03. -/
def halterStatus (s : State) : Byte :=
  BitVec.ofNat 8 (s.pwr.state.code + 8 * boolNat s.side.halterPending + 16 * boolNat s.side.halterReply.isSome +
    32 * boolNat (!s.side.events.isEmpty))

/-- HALTER_READ_BYTE: in DEEP answered without a wake where DEEP_STB_LOAD bit 2 is set. -/
def execHalterReadByte (s : State) : Answer :=
  if halterServes s || (decide (s.pwr.state = .deep) && natBit (odGet s 0x2000 0x0A) 2) then
    (if s.side.halterNack then .next (releaseScl s) else .next (emit (.smbus [halterStatus s]) (releaseScl s)))
  else .next s

/-! ## The saddlebag and RESTORE (R467, R494) -/

/-- SADDLEBAG_STORE: the writes performed so far are in flash. -/
def execSaddlebagStore (s : State) : Answer := .next (storeBag s)

def execRestoreCancel (path : Path) (s : State) : Answer := .next (odWriteNat path 0x1000 0x0B 0 (writeRestore path 0) s)

def execRestoreConfig (path : Path) (s : State) : Answer := .next (odWriteNat path 0x1000 0x0B 1 (writeRestore path 1) s)

def execRestoreAll (path : Path) (s : State) : Answer := .next (odWriteNat path 0x1000 0x0B 2 (writeRestore path 2) s)

end Sys2Proof.Machine
end

