-- ==== Sys2Proof/Machine/TapOps.lean ====
section
/-! DEFINITION. The test access port: its instruction register, the test hold, and the debug registers (R519–R521). -/

namespace Sys2Proof.Machine

/-- TAP_OPEN (R520). -/
def tapOpen (s : State) : Bool := decide (odGet s 0xF000 0x01 = 1)

/-- The instructions that hold the device in test. -/
def testInstr (i : TapInstr) : Bool := decide (i = .extest) || decide (i = .clamp) || decide (i = .highz)

/-! ## The test hold (R520) -/

/-- The contents of DRAM and of the tack region, and the training, are lost: every byte, tag and seal that was held is a value nobody has
stated; here memory as bring-up will leave it (log entry 100). -/
def loseDram (s : State) : State := { s with mem := {} }

/-- Every host and Tether link is held in electrical idle (R521). -/
def idleLinks (s : State) : State :=
  let s1 := (List.range 32).foldl (fun t l => setLinkState l .disabled t) s
  (List.range 4).foldl (fun t l => if (t.ctl l).link = .off then t else setHostLink l .down t) s1

/-- The first Update-DR of EXTEST, CLAMP or HIGHZ: engines and fetchers stop, cores stop, READY reads 0; one record is made. -/
def beginHold (s : State) : State :=
  if s.tap.hold then s
  else
    let s1 := idleLinks (record { kind := 0x10, cls := 0 } s)
    loseDram { s1 with tap := { s1.tap with hold := true }, boot := { s1.boot with ready := false }, eng := { s1.eng with stopped := true } }

/-- The TAP leaves EXTEST, CLAMP and HIGHZ: pending saddlebag writes are stored, and bring-up starts as after a wake from OFF. -/
def endHold (s : State) : State := if s.tap.hold then restart 0 (storeBag s) else s

/-- Another instruction is loaded; loading any but the three ends a test hold. -/
def loadTap (i : TapInstr) (s : State) : State :=
  let s1 := if testInstr i then s else endHold s
  { s1 with tap := { s1.tap with ir := i, floating := s1.tap.floating && testInstr i } }

/-- A functional instruction with TAP_OPEN at 0: bypass is selected, nothing changes, and REFUSED is set (R520). -/
def refuseTap (s : State) : State :=
  let s1 := odBump 0xF000 0x02 (loadTap .bypass s)
  { s1 with tap := { s1.tap with refused := true } }

/-- A functional instruction. -/
def functional (i : TapInstr) (act : State → State) (s : State) : State :=
  if tapOpen s then act (loadTap i s) else refuseTap s

/-! ## Boundary scan (R519, R521) -/

/-- Shift values into the boundary-scan register; the cells' own captured values are free (log entry 2). -/
def scanCells (shift : Option (BitVec 1146)) (s : State) : State :=
  match shift with
  | some v => { s with tap := { s.tap with cells := v } }
  | none =>
    let v : BitVec 1146 := (List.range 18).foldl (fun a i => a ||| ((Config.free (s.free + i)).setWidth 1146 <<< (64 * i))) 0
    { s with free := s.free + 18, tap := { s.tap with cells := v } }

/-- Update-DR of EXTEST: the outputs take the cells' values, and the links are in electrical idle. -/
def driveCells (shift : Option (BitVec 1146)) (s : State) : State :=
  let s1 := beginHold s
  match shift with
  | none => { s1 with tap := { s1.tap with outputs := s1.tap.cells, floating := false } }
  | some v => { s1 with tap := { s1.tap with cells := v, outputs := v, floating := false } }

/-- CLAMP drives what the cells hold. -/
def clampCells (s : State) : State :=
  let s1 := beginHold s
  { s1 with tap := { s1.tap with outputs := s1.tap.cells, floating := false } }

/-- HIGHZ floats the outputs. -/
def floatCells (s : State) : State :=
  let s1 := beginHold s
  { s1 with tap := { s1.tap with floating := true } }

/-! ## Debug (R193, R519) -/

/-- The data register of DBG_STATUS. -/
def statusWord (s : State) : BitVec 80 :=
  BitVec.ofNat 80 (packNat [(s.boot.phase.code, 0), (boolNat s.boot.ready, 4), (boolNat (tapOpen s), 5), (boolNat s.tap.refused, 6)])

def setDr (v : BitVec 80) (s : State) : State := { s with tap := { s.tap with dr := v } }

/-- The access that DBG_OD's 72 bits give: the mailbox register of R371 and the first byte of DATA; what follows it in a longer write is
free (log entry 101). -/
def tapAccess (s : State) (d : BitVec 72) : Access :=
  let n := natField d.toNat 32 9
  let rest := (List.range (n - 1)).map (fun i => (Config.free (s.free + i)).setWidth 8)
  { path := .pf 0, write := natBit d.toNat 24, idx := natField d.toNat 0 16, sub := natField d.toNat 16 8,
    data := if n = 0 then [] else BitVec.ofNat 8 (natField d.toNat 64 8) :: rest, tap := true }

/-- DBG_OD: GO starts the access, which the serializer runs. -/
def debugOd (d : BitVec 72) (s : State) : State :=
  if natBit d.toNat 63 ∧ groomServes s then queueAccess (tapAccess s d) { s with free := s.free + 256 } else s

/-- Whether DBG_CORE acts on a core: stall 0 holds it and runs on it. -/
def debugCore (s : State) (k : Nat) : Bool := decide (coreOwner s k = 0) && decide (coreStall s k = 0)

/-- Halt a core into Walk at an instruction boundary. Traffic of its tile that is on its way is waited for by WALK_ENTER. -/
def haltCore (k : Nat) (s : State) : State :=
  let s1 := s.setCore k { s.core k with halted := true, stepOnce := false }
  walkEnter k s1

/-- The numbers of DBG_CORE's registers, in R196's order: P, X, F, K (log entry 102). -/
def debugRead (a : Arch) (r : Nat) : Word :=
  if r < 16 then (a.pReg r).data
  else if r < 24 then (a.xReg (r - 16)).data
  else if r < 56 then (a.vWord (r - 24) 0).data
  else a.kReg (r - 56)

/-- A value that DBG_CORE writes arrives tagged INT (R196). -/
def debugWrite (r : Nat) (v : Word) (a : Arch) : Arch :=
  if r < 16 then a.setP r ⟨v, .int⟩
  else if r < 24 then a.setX (r - 16) ⟨v, .int⟩
  else if r < 56 then a.setF (r - 24) ⟨v, .int⟩
  else a.setK (r - 56) v

/-- DBG_CORE's data register: core, operation, register, value. -/
def coreDr (k op r : Nat) (v : Word) : BitVec 80 := BitVec.ofNat 80 (packNat [(k % 128, 0), (op, 7), (r % 64, 10), (v.toNat, 16)])

/-- An operation of DBG_CORE on a core of stall 0; on another core it changes nothing but the scan chain. -/
def debugOp (k : Nat) (act : State → State) (s : State) : State :=
  functional .dbgCore (fun t => if debugCore t k then act t else t) s

end Sys2Proof.Machine
end

