-- ==== Sys2Proof/Machine/Tap.lean ====
section
/-! DEFINITION. The commands of the test access port (R519–R522). -/

namespace Sys2Proof.Machine

/-- The behaviour of TAP_OPEN: its refusal stands among the checks of the write (R520). -/
def writeTapOpen (b : Bool) (s : State) : State := odSet 0xF000 0x01 (boolNat b) s

/-- TAP_OPEN_WRITE. -/
def execTapOpenWrite (path : Path) (b : Bool) (s : State) : Answer := .next (odWriteNat path 0xF000 0x01 (boolNat b) (writeTapOpen b) s)

/-- IDCODE: version 1, part 0x2136, manufacturer code 0x3A7, bit 0 set (R519). -/
def execIdcode (s : State) : Answer := .next (setDr 0x1213674F (loadTap .idcode s))

/-- SAMPLE_PRELOAD: with a value shifted in the cells are preloaded, without one they sample. -/
def execSamplePreload (shift : Option (BitVec 1146)) (s : State) : Answer := .next (scanCells shift (loadTap .sample s))

/-- EXTEST. -/
def execExtest (shift : Option (BitVec 1146)) (s : State) : Answer := .next (functional .extest (driveCells shift) s)

/-- CLAMP. -/
def execClamp (s : State) : Answer := .next (functional .clamp clampCells s)

/-- HIGHZ. -/
def execHighz (s : State) : Answer := .next (functional .highz floatCells s)

/-- DBG_STATUS: reading clears REFUSED. -/
def execDbgStatus (s : State) : Answer :=
  let s1 := loadTap .dbgStatus s
  let s2 := setDr (statusWord s1) s1
  .next { s2 with tap := { s2.tap with refused := false } }

/-- DBG_OD. -/
def execDbgOd (d : BitVec 72) (s : State) : Answer := .next (functional .dbgOd (debugOd d) s)

/-- DBG_CORE, operation 0. -/
def execDbgCoreHalt (k : BitVec 8) (s : State) : Answer := .next (debugOp (k.toNat % 128) (haltCore (k.toNat % 128)) s)

/-- DBG_CORE, operation 1: a halted core runs one instruction. -/
def execDbgCoreSingleStep (k : BitVec 8) (s : State) : Answer :=
  let c := k.toNat % 128
  .next (debugOp c (fun t => if (t.core c).halted then t.setCore c { t.core c with stepOnce := true } else t) s)

/-- DBG_CORE, operation 2: the core leaves Walk and runs on. -/
def execDbgCoreResume (k : BitVec 8) (s : State) : Answer :=
  let c := k.toNat % 128
  .next (debugOp c (fun t => if (t.core c).halted then walkExit c (t.setCore c { t.core c with halted := false, stepOnce := false }) else t) s)

/-- DBG_CORE, operation 3. -/
def execDbgCoreReadRegister (k : BitVec 8) (r : BitVec 16) (s : State) : Answer :=
  let c := k.toNat % 128
  .next (debugOp c (fun t => if (t.core c).halted then setDr (coreDr c 3 r.toNat (debugRead (t.core c).arch (r.toNat % 64))) t else t) s)

/-- DBG_CORE, operation 4. -/
def execDbgCoreWriteRegister (k : BitVec 8) (r : BitVec 16) (v : Word) (s : State) : Answer :=
  let c := k.toNat % 128
  .next (debugOp c (fun t => if (t.core c).halted then t.setArch c (debugWrite (r.toNat % 64) v) else t) s)

/-- BYPASS. -/
def execBypass (s : State) : Answer := .next (setDr 0 (loadTap .bypass s))

/-- TEST_HOLD_END: the TAP goes through Test-Logic-Reset, which selects IDCODE (R519, R520). -/
def execTestHoldEnd (s : State) : Answer := .next (if s.tap.hold then loadTap .idcode s else s)

end Sys2Proof.Machine
end

