-- ==== Sys2Proof/Machine/Vector.lean ====
section
/-! DEFINITION. The vector instructions of page 3 (R240–R251). -/

namespace Sys2Proof.Machine

/-! ## Controls (R241, R242) -/

/-- The controls of the VP byte; 0x30 where there is none (R242). -/
def vpByte (a : At) : BitVec 8 :=
  match a.pfx with
  | [.vp b] => b
  | _ => 0x30

structure Vc where
  pred : Nat
  zero : Bool
  es : Nat
  ff : Bool
deriving DecidableEq, Repr

def vcOf (b : BitVec 8) : Vc :=
  { pred := natField b.toNat 0 3, zero := b.getLsbD 3, es := 8 * 2 ^ natField b.toNat 4 2, ff := b.getLsbD 6 }

/-- The prefixes of a vector instruction: at most one VP, its reserved bit zero, FF only where permitted (R200, R242). -/
def vpOk (a : At) (ff : Bool) : Bool :=
  match a.pfx with
  | [] => !ff
  | [.vp b] => !b.getLsbD 7 && decide (b.getLsbD 6 = ff)
  | _ => false

/-- Whether element `i` of `n` is active (R241). -/
def activeIn (a : Arch) (v : Vc) (n i : Nat) : Bool := decide (i < min a.vl.toNat n) && (a.kReg v.pred).getLsbD i

/-- How many elements a register holds. -/
def vCount (es : Nat) : Nat := 512 / es

/-- Element `i` of a register's words. -/
def elemOf (es : Nat) (ws : List TWord) (i : Nat) : Nat :=
  natField (ws.getD (i * es / 64) ⟨0, .uninit⟩).data.toNat (i * es % 64) es

/-- The byte mask of element `i` within its word. -/
def elemMask (es i : Nat) : BitVec 8 := BitVec.ofNat 8 ((2 ^ (es / 8) - 1) * 2 ^ (i * es % 64 / 8))

/-- The elements of word `w`. -/
def wordElems (es w : Nat) : List Nat := (List.range (64 / es)).map (w * (64 / es) + ·)

/-- A word after its written elements take values and its zeroed ones zero, under R245's tag table. -/
def mergeWord (es w : Nat) (old : TWord) (written zeroed : Nat → Bool) (g : Nat → Nat) (rt : Tag) : TWord :=
  let el := wordElems es w
  let mask := el.foldl (fun m i => if written i || zeroed i then m ||| elemMask es i else m) 0
  let data := el.foldl (fun d i => if written i then d + g i % 2 ^ es * 2 ^ (i * es % 64) else d) 0
  overlayWord old mask (BitVec.ofNat 64 data) (if el.any written then rt else .int)

/-- A register after the merge. -/
def mergeReg (es : Nat) (old : List TWord) (written zeroed : Nat → Bool) (g : Nat → Nat) (rt : Nat → Tag) : List TWord :=
  (List.range 8).map (fun w => mergeWord es w (old.getD w ⟨0, .uninit⟩) written zeroed g (rt w))

def getV (e : Env) (r : Nat) : CoreRun (List TWord) := do
  let a ← getArch e
  return (List.range 8).map (fun w => a.vWord r w)

def setV (e : Env) (r : Nat) (ws : List TWord) : CoreRun Unit :=
  changeArch e (fun a => (List.range 8).foldl (fun b w => b.setVWord r w (ws.getD w ⟨0, .uninit⟩)) a)

/-- The V register of an operand. -/
def vReg (o : Opd) : Nat := match o with | .f r => r.val | _ => 0
def isV (o : Opd) : Bool := match o with | .f _ => true | _ => false

/-! ## Memory (R246) -/

/-- A contiguous access: its first active byte, the byte after its last, the pages of both, and whether it is frame-relative and within the
window (R175). -/
structure VAcc where
  va : Nat
  first : Nat
  last : Nat
  lo : Xlat
  hi : Xlat
  frame : Bool := false
deriving DecidableEq, Repr

/-- The physical address of a byte of the access. -/
def VAcc.phys (v : VAcc) (b : Nat) : Nat :=
  (if b / 16384 = v.first / 16384 then v.lo.pa / 16384 else v.hi.pa / 16384) * 16384 + b % 16384

/-- The translation that serves a byte. -/
def VAcc.xl (v : VAcc) (b : Nat) : Xlat := if b / 16384 = v.first / 16384 then v.lo else v.hi

/-- The virtual words between the first and last active bytes. -/
def VAcc.words (v : VAcc) : List Nat :=
  if v.last ≤ v.first then [] else (List.range ((v.last - 1) / 8 - v.first / 8 + 1)).map (v.first / 8 + ·)

/-- The lines that hold some bytes of the access, with their virtual numbers and translations. -/
def VAcc.lines (v : VAcc) (bytes : List Nat) : List (Nat × Xlat) :=
  (bytes.map (· / 64)).eraseDups.map (fun l => let b := max v.first (64 * l); (l, { v.xl b with pa := v.phys b }))

/-- Form a contiguous access to the active elements: alignment to the element size, both translations first (R246). -/
def formVec (e : Env) (opnd : Nat) (o : Opd) (es : Nat) (act : List Nat) (write : Bool) : CoreRun VAcc := do
  let va ← formAddr e opnd o
  let n := es / 8
  let k : AccKind := { write := write, special := true }
  let first := va + (act.headD 0) * n
  let last := match act.getLast? with | some i => va + (i + 1) * n | none => first
  let lo ← if act.isEmpty then pure { pa := 0 } else xlat e.c first k (fun f => xlatExc f first opnd write false false false)
  let hi ← if act.isEmpty ∨ (last - 1) / 16384 = first / 16384 then pure lo
           else do
             let up := (last - 1) / 16384 * 16384
             xlat e.c up k (fun f => xlatExc f up opnd write false true false)
  if va % n ≠ 0 then raiseX { code := 3, eaddr := va, write := write, opnd := opnd }
  let fr ← if act.isEmpty ∨ lo.side then pure false else inWindow e o first (last - first)
  return { va := va, first := first, last := last, lo := lo, hi := hi, frame := fr }

/-- Load one word of normal memory for a vector. -/
def loadVWord (e : Env) (x : Xlat) (w : Nat) : CoreRun TWord := do
  touchLine e x (w / 8) false (renamed ((← get).core e.c) (w / 8))
  return ownWord (← get) e.c w

/-- The address words that feed register word `w`: those of its active elements' bytes. -/
def feeding (v : VAcc) (es w : Nat) (act : Nat → Bool) : List Nat :=
  ((wordElems es w).filter act).flatMap (fun i => (List.range (es / 8)).map (fun b => (v.va + i * (es / 8) + b) / 8)) |>.eraseDups

/-- The combined tag of the words that feed one word (R246). -/
def feedTag (ts : List Tag) : Tag :=
  match ts with
  | [t] => t
  | _ => if ts.any (fun t => decide (t = .bytes)) then .bytes else if ts.all (fun t => decide (t = .float)) then .float else .int

def loadable (t : Tag) : Bool := decide (t = .int) || decide (t = .float) || decide (t = .bytes)

/-- The loaded words, paired with their virtual word numbers. -/
def loadVWords (e : Env) (v : VAcc) (ws : List Nat) : CoreRun (List (Nat × TWord)) := do
  match ws with
  | [] => return []
  | w :: r =>
    let t ← loadVWord e (v.xl (max v.first (8 * w))) (v.phys (max v.first (8 * w)) / 8)
    return (w, t) :: (← loadVWords e v r)

def findWord (l : List (Nat × TWord)) (w : Nat) : TWord :=
  match l.find? (fun x => decide (x.1 = w)) with | some x => x.2 | none => ⟨0, .uninit⟩

/-- A contiguous load as register words: data of the active elements, and each word's tag (R246). -/
def loadVec (e : Env) (opnd : Nat) (v : VAcc) (es : Nat) (n : Nat) (act : Nat → Bool) : CoreRun (List TWord) := do
  let bytes := ((List.range n).filter act).flatMap (fun i => (List.range (es / 8)).map (fun b => v.va + i * (es / 8) + b))
  let used := (bytes.map (· / 8)).eraseDups
  let words := used.map (fun w => (v.phys (max v.first (8 * w)) / 8,
    (bytes.filter (fun b => decide (b / 8 = w))).foldl (fun m b => m ||| BitVec.ofNat 8 (2 ^ (b % 8))) 0))
  if v.frame then frameLoad e (v.lines bytes)
  else
    awaitStores e words
    noteLoad e (words.map (·.1))
  if 1 < (v.lines bytes).length then note e 7
  let mem ← loadVWords e v (v.words.filter (fun w => used.contains w))
  match mem.find? (fun x => !loadable x.2.tag) with
  | some x => raiseX (tagExc x.2.tag opnd (8 * x.1))
  | none => pure ()
  return (List.range 8).map (fun w =>
    let data := ((wordElems es w).filter act).foldl (fun d i =>
      d + natOfBytes ((List.range (es / 8)).map (fun b =>
        let a := v.va + i * (es / 8) + b
        wordByte (findWord mem (a / 8)).data (a % 8))) * 2 ^ (i * es % 64)) 0
    ⟨BitVec.ofNat 64 data, feedTag ((feeding v es w act).map (fun x => (findWord mem x).tag))⟩)

/-! ## Sources (R244, R245) -/

/-- A vector source that need not be memory, or its formed access. -/
inductive VSrc where
  | words (ws : List TWord)
  | mem (v : VAcc)

/-- Whether a vector source is legal: a V register, memory, X, or an immediate (R244). -/
def vSrcOk (fp : Bool) (es : Nat) (o : Opd) : Bool :=
  match o with
  | .f _ => true
  | .x _ => opdOk o
  | .imm4 _ => !fp
  | .imm k _ => if fp then decide (8 * 2 ^ k.val = es) else true
  | _ => opdMem o

/-- A value broadcast to every element. -/
def broadcast (es : Nat) (v : Nat) (t : Tag) : List TWord :=
  List.replicate 8 ⟨BitVec.ofNat 64 ((List.range (64 / es)).foldl (fun d i => d + v % 2 ^ es * 2 ^ (i * es)) 0), t⟩

/-- Form a vector source (R215). -/
def formVSrc (e : Env) (opnd : Nat) (fp : Bool) (es : Nat) (act : List Nat) (o : Opd) : CoreRun VSrc := do
  match o with
  | .f r => return .words (← getV e r.val)
  | .x r => let t := (← getArch e).xReg r.toNat
            return .words (broadcast es t.data.toNat t.tag)
  | .imm4 v => return .words (broadcast es (v.signExtend 64).toNat .int)
  | .imm n v => return .words (broadcast es (immVal n v).toNat (if fp then .float else .int))
  | _ => return .mem (← formVec e opnd o es act false)

/-- Read a vector source. -/
def readVSrc (e : Env) (opnd es n : Nat) (act : Nat → Bool) (s : VSrc) : CoreRun (List TWord) := do
  match s with
  | .words ws => return ws
  | .mem v => loadVec e opnd v es n act

/-- Check the words of a source that hold active elements (R245). -/
def checkVec (opnd es : Nat) (act : Nat → Bool) (ok : Tag → Bool) (ws : List TWord) : CoreRun Unit := do
  match (List.range 8).find? (fun w => (wordElems es w).any act && !ok (ws.getD w ⟨0, .uninit⟩).tag) with
  | some w => raiseX (tagExc (ws.getD w ⟨0, .uninit⟩).tag opnd 0)
  | none => return ()

/-- The result tag of a destination word, which is produced word by word: BYTES if a checked source word in its place is BYTES (R245). -/
def vTag (base : Tag) (srcs : List (List TWord)) (w : Nat) : Tag :=
  if srcs.any (fun ws => decide ((ws.getD w ⟨0, .uninit⟩).tag = .bytes)) then .bytes else base

/-- Whether `i` lies among the elements that ZERO clears. -/
def zeroedIn (v : Vc) (n : Nat) (act : Nat → Bool) (i : Nat) : Bool := v.zero && decide (i < n) && !act i

/-- The active elements in ascending order. -/
def actives (n : Nat) (act : Nat → Bool) : List Nat := (List.range n).filter act

/-! ## Element-wise instructions (R243) -/

/-- vd ← f(register operands, src): `regs` are V operands with their positions, `src` the last operand. -/
def vecBody (a : At) (es : Nat) (fp : Bool) (d : Opd) (regs : List (Nat × Opd)) (src : Option (Nat × Opd))
    (f : Nat → List Nat → FRes) (e : Env) : CoreRun (BitVec 47) := do
  let v := vcOf (vpByte a)
  let n := vCount es
  let ar ← getArch e
  let act := activeIn ar v n
  let s ← match src with
    | some (k, o) => (do return [(k, ← formVSrc e k fp es (actives n act) o)])
    | none => pure []
  let xs ← regs.mapM (fun r => do return (r.1, ← getV e (vReg r.2)))
  let ys ← s.mapM (fun x => do return (x.1, ← readVSrc e x.1 es n act x.2))
  let all := xs ++ ys
  all.forM (fun x => checkVec x.1 es act (if fp then isFpTag else isIntTag) x.2)
  let rm := swRm ar.sw
  let res (i : Nat) : FRes := f rm (all.map (fun x => elemOf es x.2 i))
  let tag := vTag (if fp then .float else .int) (all.map (·.2))
  let old ← getV e (vReg d)
  setV e (vReg d) (mergeReg es old (fun i => decide (i < n) && act i) (zeroedIn v n act) (fun i => (res i).bits) tag)
  if fp then
    changeArch e (fun b => { b with sw := (actives n act).foldl (fun sw i => addFpf (res i).flags sw) b.sw })
  return e.npc

/-- The legality of a vector instruction's VP byte and element size. -/
def vLegal (a : At) (sizes : List Nat) : Bool := vpOk a false && sizes.contains (vcOf (vpByte a)).es

def anyEs : List Nat := [8, 16, 32, 64]
def fpEs : List Nat := [32, 64]

/-- An integer instruction vd ← vd op src. -/
def vIntInstr (sizes : List Nat) (f : Nat → Nat → Nat → Nat) (a : At) (d s : Opd) (st : State) : Answer :=
  let es := (vcOf (vpByte a)).es
  runInstr a (instrLen a 2 [d, s] 0) (vLegal a sizes && isV d && vSrcOk false es s) 2
    (vecBody a es false d [(0, d)] (some (1, s)) (fun _ l => { bits := f es (arg l 0) (arg l 1) })) st

/-- VADD (R243). -/
def execVadd (a : At) (d s : Opd) (st : State) : Answer := vIntInstr anyEs (fun _ x y => x + y) a d s st
/-- VSUB (R243). -/
def execVsub (a : At) (d s : Opd) (st : State) : Answer := vIntInstr anyEs (fun es x y => x + 2 ^ es - y) a d s st
/-- VAND (R243). -/
def execVand (a : At) (d s : Opd) (st : State) : Answer := vIntInstr anyEs (fun _ x y => x &&& y) a d s st
/-- VOR (R243). -/
def execVor (a : At) (d s : Opd) (st : State) : Answer := vIntInstr anyEs (fun _ x y => x ||| y) a d s st
/-- VXOR (R243). -/
def execVxor (a : At) (d s : Opd) (st : State) : Answer := vIntInstr anyEs (fun _ x y => x ^^^ y) a d s st
/-- VMUL: low half (R243). -/
def execVmul (a : At) (d s : Opd) (st : State) : Answer := vIntInstr [16, 32, 64] (fun _ x y => x * y) a d s st
/-- VSHL: counts modulo ES (R243). -/
def execVshl (a : At) (d s : Opd) (st : State) : Answer := vIntInstr anyEs (fun es x y => x * 2 ^ (y % es)) a d s st
/-- VSHR (R243). -/
def execVshr (a : At) (d s : Opd) (st : State) : Answer := vIntInstr anyEs (fun es x y => x / 2 ^ (y % es)) a d s st

/-- A floating-point instruction vd ← vd op src. -/
def vFpInstr (f : Fmt → Nat → Nat → Nat → FRes) (a : At) (d s : Opd) (st : State) : Answer :=
  let es := (vcOf (vpByte a)).es
  runInstr a (instrLen a 2 [d, s] 0) (vLegal a fpEs && isV d && vSrcOk true es s) 2
    (vecBody a es true d [(0, d)] (some (1, s)) (fun rm l => f (if es = 32 then fmtS else fmtD) rm (arg l 0) (arg l 1))) st

/-- VFADD (R243). -/
def execVfadd (a : At) (d s : Opd) (st : State) : Answer := vFpInstr fAdd a d s st
/-- VFSUB (R243). -/
def execVfsub (a : At) (d s : Opd) (st : State) : Answer := vFpInstr fSub a d s st
/-- VFMUL (R243). -/
def execVfmul (a : At) (d s : Opd) (st : State) : Answer := vFpInstr fMul a d s st
/-- VFMA: vd ← vd + vs × src (R243). -/
def execVfma (a : At) (d v s : Opd) (st : State) : Answer :=
  let es := (vcOf (vpByte a)).es
  runInstr a (instrLen a 2 [d, v, s] 0) (vLegal a fpEs && isV d && isV v && vSrcOk true es s) 2
    (vecBody a es true d [(0, d), (1, v)] (some (2, s))
      (fun rm l => fMulAdd (if es = 32 then fmtS else fmtD) rm (arg l 0) (arg l 1) (arg l 2))) st

/-! ## GF(2^8) (R251) -/

def gf8 (x y : Nat) : Nat := (gf8Mul (BitVec.ofNat 8 x) (BitVec.ofNat 8 y)).toNat

/-- VGFMUL: bytes always (R251). -/
def execVgfmul (a : At) (d s : Opd) (st : State) : Answer :=
  runInstr a (instrLen a 2 [d, s] 0) (vLegal a anyEs && isV d && vSrcOk false 8 s) 2
    (vecBody a 8 false d [(0, d)] (some (1, s)) (fun _ l => { bits := gf8 (arg l 0) (arg l 1) })) st

/-- The coefficient of VGFMAC: a V register, an X register, or a 1-byte immediate in mode 0xE (R251). -/
def gfCoeffOk (o : Opd) : Bool :=
  match o with
  | .f _ => true
  | .x _ => opdOk o
  | .imm n _ => decide (n = 0)
  | _ => false

/-- VGFMAC: vd ⊕ (c ⊗ vs) (R251). -/
def execVgfmac (a : At) (d v c : Opd) (st : State) : Answer :=
  runInstr a (instrLen a 2 [d, v, c] 0) (vLegal a anyEs && isV d && isV v && gfCoeffOk c) 2
    (vecBody a 8 false d [(0, d), (1, v)] (some (2, c)) (fun _ l => { bits := arg l 0 ^^^ gf8 (arg l 2) (arg l 1) })) st

/-- VGFINV (R251). -/
def execVgfinv (a : At) (d v : Opd) (st : State) : Answer :=
  runInstr a (instrLen a 2 [d, v] 0) (vLegal a anyEs && isV d && isV v) 2
    (vecBody a 8 false d [(1, v)] none (fun _ l => { bits := (gf8Inv (BitVec.ofNat 8 (arg l 0))).toNat })) st

/-! ## Compares (R244) -/

/-- A u8 that names a predicate; as a destination it is not K0 (R243). -/
def kOk (k : BitVec 8) (dst : Bool) : Bool := decide (k.toNat < 8) && (!dst || decide (k ≠ 0))

/-- Compare vs with src into Kd. -/
def vCmpBody (a : At) (fp : Bool) (x s : Opd) (k : BitVec 8) (f : Nat → Nat → Nat → Bool × FFlags) (e : Env) : CoreRun (BitVec 47) := do
  let v := vcOf (vpByte a)
  let es := v.es
  let n := vCount es
  let ar ← getArch e
  let act := activeIn ar v n
  let src ← formVSrc e 1 fp es (actives n act) s
  let xs ← getV e (vReg x)
  let ys ← readVSrc e 1 es n act src
  checkVec 0 es act (if fp then isFpTag else isIntTag) xs
  checkVec 1 es act (if fp then isFpTag else isIntTag) ys
  let r (i : Nat) := f es (elemOf es xs i) (elemOf es ys i)
  let old := ar.kReg k.toNat
  let new := (List.range n).foldl (fun m i => if act i then setBit m i (r i).1 else if v.zero then setBit m i false else m) old
  changeArch e (fun b =>
    { b.setK k.toNat new with sw := if fp then (actives n act).foldl (fun sw i => addFpf (r i).2 sw) b.sw else b.sw })
  return e.npc

def vCmpInstr (fp : Bool) (sizes : List Nat) (f : Nat → Nat → Nat → Bool × FFlags) (a : At) (x s : Opd) (k : BitVec 8) (st : State) : Answer :=
  runInstr a (instrLen a 2 [x, s] 1) (vLegal a sizes && isV x && vSrcOk fp (vcOf (vpByte a)).es s && kOk k true) 2
    (vCmpBody a fp x s k f) st

/-- VCMPEQ (R243, R244). -/
def execVcmpeq (a : At) (x s : Opd) (k : BitVec 8) (st : State) : Answer :=
  vCmpInstr false anyEs (fun _ p q => (decide (p = q), {})) a x s k st
/-- VCMPLT: signed (R243, R244). -/
def execVcmplt (a : At) (x s : Opd) (k : BitVec 8) (st : State) : Answer :=
  vCmpInstr false anyEs (fun es p q => (decide (sInt es p < sInt es q), {})) a x s k st
/-- VCMPLTU: unsigned (R243, R244). -/
def execVcmpltu (a : At) (x s : Opd) (k : BitVec 8) (st : State) : Answer :=
  vCmpInstr false anyEs (fun _ p q => (decide (p < q), {})) a x s k st
/-- VFCMPLT: unordered gives 0 (R243). -/
def execVfcmplt (a : At) (x s : Opd) (k : BitVec 8) (st : State) : Answer :=
  vCmpInstr true fpEs (fun es p q =>
    let r := fCompare (if es = 32 then fmtS else fmtD) p q
    (decide (r.1 = .lt), { invalid := r.2 })) a x s k st

/-! ## Contiguous loads and stores (R246) -/

/-- VLD (R246). -/
def execVld (a : At) (d m : Opd) (st : State) : Answer :=
  let v := vcOf (vpByte a)
  let n := vCount v.es
  runInstr a (instrLen a 2 [d, m] 0) (vLegal a anyEs && isV d && opdMem m) 2 (fun e => do
    let act := activeIn (← getArch e) v n
    let acc ← formVec e 1 m v.es (actives n act) false
    let ws ← loadVec e 1 acc v.es n act
    let old ← getV e (vReg d)
    setV e (vReg d) (mergeReg v.es old (fun i => decide (i < n) && act i) (zeroedIn v n act) (elemOf v.es ws)
      (fun w => (ws.getD w ⟨0, .int⟩).tag))
    return e.npc) st

/-- The writes of a contiguous store: each memory word under the mask of its active bytes, with the tag of the register words that
supply it (R246; log entry 26). -/
def vecWrites (acc : VAcc) (es : Nat) (act : Nat → Bool) (ws : List TWord) (n : Nat) : List WordWrite :=
  let bytes := (actives n act).flatMap (fun i => (List.range (es / 8)).map (fun b => (acc.va + i * (es / 8) + b, i * (es / 8) + b)))
  acc.words.filterMap (fun wv =>
    let mine := bytes.filter (fun x => decide (x.1 / 8 = wv))
    if mine.isEmpty then none
    else some { w := acc.phys (max acc.first (8 * wv)) / 8,
                mask := mine.foldl (fun m x => m ||| BitVec.ofNat 8 (2 ^ (x.1 % 8))) 0,
                data := BitVec.ofNat 64 (mine.foldl (fun d x =>
                  d + (wordByte (ws.getD (x.2 / 8) ⟨0, .uninit⟩).data (x.2 % 8)).toNat * 2 ^ (8 * (x.1 % 8))) 0),
                tag := feedTag ((mine.map (fun x => x.2 / 8)).eraseDups.map (fun w => (ws.getD w ⟨0, .int⟩).tag)) })

/-- Store the active elements as one store, frame words into their registers (R175, R177); none where no element is active (R246). -/
def storeVec (e : Env) (acc : VAcc) (es n : Nat) (act : Nat → Bool) (ws : List TWord) : CoreRun Unit := do
  if !(actives n act).isEmpty then
    let wr := vecWrites acc es act ws n
    let en : StoreEntry := { writes := wr, noAlloc := acc.lo.noAlloc, sealPage := acc.lo.sealPage }
    let lines := acc.lines ((actives n act).flatMap (fun i => (List.range (es / 8)).map (fun b => acc.va + i * (es / 8) + b)))
    if 1 < lines.length then note e 7
    let cs := (← get).core e.c
    if acc.frame then frameStore e lines en
    else if wr.any (fun w => frameWord cs w.w) then
      note e 9
      frameStore e lines en
    else pushStore e en

/-- VST (R246): one store in program order. -/
def execVst (a : At) (m s : Opd) (st : State) : Answer :=
  let v := vcOf (vpByte a)
  let n := vCount v.es
  runInstr a (instrLen a 2 [m, s] 0) (vLegal a anyEs && opdMem m && isV s) 2 (fun e => do
    let act := activeIn (← getArch e) v n
    let acc ← formVec e 0 m v.es (actives n act) true
    let ws ← getV e (vReg s)
    checkVec 1 v.es act loadable ws
    storeVec e acc v.es n act ws
    return e.npc) st

/-! ## Gathers and scatters (R248–R250) -/

/-- The address of element `i`: the base plus the sign-extended index times the scale (R248). -/
def gatherAddr (base es i : Nat) (idx : List TWord) (scale : BitVec 8) : Nat :=
  addrAdd base (sInt es (elemOf es idx i) * (2 ^ (scale.toNat % 4) : Nat))

/-- The checks of one element's index and address, and its translation (R248). -/
def gatherForm (e : Env) (bopnd iopnd es i : Nat) (write : Bool) (b : Fin 16) (idx : List TWord) (scale : BitVec 8) : CoreRun (Nat × Xlat) := do
  let base ← baseReg e b.val bopnd
  let t := (idx.getD (i * es / 64) ⟨0, .uninit⟩).tag
  let va := gatherAddr base es i idx scale
  if !isIntTag t then raiseX (tagExc t iopnd va)
  if va % (es / 8) ≠ 0 then raiseX { code := 3, eaddr := va, write := write, opnd := bopnd }
  let x ← xlat e.c va { write := write, special := true } (fun f => xlatExc f va bopnd write false false false)
  return (va, x)

/-- Load one element: its value and the tag of the word that supplies it; a refused tag names the element's address (R248). -/
def gatherLoad (e : Env) (es i : Nat) (b : Fin 16) (idx : List TWord) (scale : BitVec 8) : CoreRun (Nat × Tag) := do
  let (va, x) ← gatherForm e 1 2 es i false b idx scale
  awaitStores e [(x.pa / 8, BitVec.ofNat 8 ((2 ^ (es / 8) - 1) * 2 ^ (va % 8)))]
  noteLoad e [x.pa / 8]
  let t ← loadVWord e x (x.pa / 8)
  if !loadable t.tag then raiseX (tagExc t.tag 1 va)
  return (natField t.data.toNat (8 * (va % 8)) es, t.tag)

/-- What a gather has done: the elements from `start` to before `next`, with the values and tags of the active ones. -/
structure Gathered where
  next : Nat
  vals : List (Nat × Nat × Tag)
  stop : Option Stop
deriving DecidableEq, Repr

/-- Work through elements `i` onward, `left` of them, until one faults or an interrupt is taken (R248). -/
def gatherLoop (e : Env) (load : Nat → CoreRun (Nat × Tag)) (act : Nat → Bool) (resumes : Bool) (start i left : Nat)
    (vals : List (Nat × Nat × Tag)) : CoreRun Gathered := do
  match left with
  | 0 => return { next := i, vals := vals, stop := none }
  | left + 1 =>
    let s ← get
    if resumes ∧ i ≠ start ∧ swIe (s.core e.c).arch.sw ∧ (winner s (.core e.c)).isSome then
      return { next := i, vals := vals, stop := some (.exc { code := 0x20 }) }
    if act i then
      let r ← (try (do return Except.ok (← load i)) catch x => return Except.error x : CoreRun (Except Stop (Nat × Tag)))
      match r with
      | .ok v => gatherLoop e load act resumes start (i + 1) left (vals ++ [(i, v)])
      | .error x => return { next := i, vals := vals, stop := some x }
    else gatherLoop e load act resumes start (i + 1) left vals

/-- The register after the elements a gather has done. -/
def gatherMerge (v : Vc) (n start : Nat) (act : Nat → Bool) (g : Gathered) (old : List TWord) : List TWord :=
  let done (i : Nat) : Bool := decide (start ≤ i) && decide (i < g.next)
  let val (i : Nat) : Nat := match g.vals.find? (fun x => decide (x.1 = i)) with | some x => x.2.1 | none => 0
  mergeReg v.es old (fun i => done i && act i) (fun i => done i && zeroedIn v n act i) val
    (fun w => feedTag ((g.vals.filter (fun x => decide (x.1 * v.es / 64 = w))).map (·.2.2)))

/-- Whether a start is at or beyond the last active element (R248; log entry 31). -/
def pastLast (n : Nat) (act : Nat → Bool) (start : Nat) : Bool :=
  match (actives n act).getLast? with | some i => decide (i ≤ start) | none => decide (start ≠ 0)

/-- The body of VGATHER, native and first-fault (R248, R250). A start at or beyond the last active element changes nothing. -/
def gatherBody (a : At) (d : Opd) (b : Fin 16) (ix : Opd) (scale : BitVec 8) (e : Env) : CoreRun (BitVec 47) := do
  let v := vcOf (vpByte a)
  let n := vCount v.es
  let ar ← getArch e
  let act := activeIn ar v n
  let idx ← getV e (vReg ix)
  let start := if v.ff then 0 else ar.vri.toNat
  let old ← getV e (vReg d)
  let beyond := pastLast n act start
  if !v.ff && beyond then
    changeArch e (fun b => { b with vri := 0 })
    return e.npc
  let g ← gatherLoop e (fun i => gatherLoad e v.es i b idx scale) act (!v.ff) start start (n - start) []
  match g.stop with
  | none =>
    setV e (vReg d) (gatherMerge v n start act g old)
    changeArch e (fun c => { c with vri := 0,
                                    ffm := if v.ff then (actives n act).foldl (fun m i => setBit m i true) 0 else c.ffm })
    return e.npc
  | some .wait => throw .wait
  | some (.exc x) =>
    if v.ff then
      changeArch e (fun c => { c with vri := 0, ffm := g.vals.foldl (fun m y => setBit m y.1 true) 0 })
      if g.vals.isEmpty then throw (.exc x)
      setV e (vReg d) (gatherMerge v n start act g old)
      return e.npc
    else
      setV e (vReg d) (gatherMerge v n start act g old)
      changeArch e (fun c => { c with vri := BitVec.ofNat 6 g.next })
      throw (.exc x)

/-- The P register of an operand. -/
def pReg (o : Opd) : Option (Fin 16) := match o with | .p r => some r | _ => none

/-- The legality of a gather or scatter (R242, R243). -/
def gatherLegal (a : At) (ff : Bool) (d b i : Opd) (scale : BitVec 8) : Bool :=
  vpOk a ff && [16, 32, 64].contains (vcOf (vpByte a)).es && isV d && (pReg b).isSome && isV i && decide (scale.toNat < 4)

/-- VGATHER, native form (R248). -/
def execVgather (a : At) (d b i : Opd) (scale : BitVec 8) (st : State) : Answer :=
  runInstr a (instrLen a 2 [d, b, i] 1) (gatherLegal a false d b i scale) 2 (gatherBody a d ((pReg b).getD 0) i scale) st

/-- VGATHER, first-fault form (R250). -/
def execVgatherFf (a : At) (d b i : Opd) (scale : BitVec 8) (st : State) : Answer :=
  runInstr a (instrLen a 2 [d, b, i] 1) (gatherLegal a true d b i scale) 2 (gatherBody a d ((pReg b).getD 0) i scale) st

/-- Store one element of a scatter (R249). -/
def scatterStore (e : Env) (es i : Nat) (b : Fin 16) (idx src : List TWord) (scale : BitVec 8) : CoreRun (Nat × Tag) := do
  let (va, x) ← gatherForm e 0 1 es i true b idx scale
  let t := (src.getD (i * es / 64) ⟨0, .uninit⟩).tag
  if !loadable t then raiseX (tagExc t 2 va)
  let acc : Acc := { va := va, size := es / 8, lo := x, hi := x, opnd := 0 }
  storeBytes e acc (bytesOfNat (es / 8) (elemOf es src i)) (fun _ => t)
  return (0, t)

/-- VSCATTER (R249): at a fault the elements below are visible before it is taken. -/
def execVscatter (a : At) (b i s : Opd) (scale : BitVec 8) (st : State) : Answer :=
  let v := vcOf (vpByte a)
  let n := vCount v.es
  runInstr a (instrLen a 2 [b, i, s] 1) (gatherLegal a false s b i scale) 2 (fun e => do
    let ar ← getArch e
    let act := activeIn ar v n
    let idx ← getV e (vReg i)
    let src ← getV e (vReg s)
    let start := ar.vri.toNat
    if pastLast n act start then
      changeArch e (fun c => { c with vri := 0 })
      return e.npc
    let g ← gatherLoop e (fun k => scatterStore e v.es k ((pReg b).getD 0) idx src scale) act true start start (n - start) []
    match g.stop with
    | none =>
      changeArch e (fun c => { c with vri := 0 })
      return e.npc
    | some .wait => throw .wait
    | some (.exc x) =>
      fenceAll e
      changeArch e (fun c => { c with vri := BitVec.ofNat 6 g.next })
      throw (.exc x)) st

/-! ## Permutes, broadcasts and control (R240, R243) -/

/-- The result tag of a word of a permute (R245): BYTES if its index word is, or a checked word that supplies one of its elements (log entry
177). -/
def permTag (es n : Nat) (act : Nat → Bool) (xs is : List TWord) (w : Nat) : Tag :=
  let bytes (ws : List TWord) (i : Nat) : Bool := decide ((ws.getD i ⟨0, .uninit⟩).tag = .bytes) && (wordElems es i).any act
  if bytes is w || ((wordElems es w).filter act).any (fun k => bytes xs ((elemOf es is k % n) * es / 64)) then .bytes else .int

/-- VPERM: vd element i ← vs element (vidx element i mod 512 / ES) (R243). -/
def execVperm (a : At) (d x i : Opd) (st : State) : Answer :=
  let v := vcOf (vpByte a)
  let n := vCount v.es
  runInstr a (instrLen a 2 [d, x, i] 0) (vLegal a anyEs && isV d && isV x && isV i) 2 (fun e => do
    let act := activeIn (← getArch e) v n
    let xs ← getV e (vReg x)
    let is ← getV e (vReg i)
    checkVec 1 v.es act isIntTag xs
    checkVec 2 v.es act isIntTag is
    let old ← getV e (vReg d)
    let tag (w : Nat) : Tag := permTag v.es n act xs is w
    setV e (vReg d) (mergeReg v.es old (fun k => decide (k < n) && act k) (zeroedIn v n act)
      (fun k => elemOf v.es xs (elemOf v.es is k % n)) tag)
    return e.npc) st

/-- VBCAST: every element ← the low ES bits of a scalar (R243). -/
def execVbcast (a : At) (d s : Opd) (st : State) : Answer :=
  let v := vcOf (vpByte a)
  let n := vCount v.es
  runInstr a (instrLen a 2 [d, s] 0) (vLegal a anyEs && isV d && opdSrc s) 2 (fun e => do
    let act := activeIn (← getArch e) v n
    let ps ← formOpd e 1 (v.es / 8) {} s
    let y ← readPlace e 1 (v.es / 8) false ps
    checkSrc y isIntTag
    let old ← getV e (vReg d)
    setV e (vReg d) (mergeReg v.es old (fun k => decide (k < n) && act k) (zeroedIn v n act)
      (fun _ => y.val.toNat) (fun _ => intTag y.tag y.tag))
    return e.npc) st

/-- VSETVL: VL ← min(src, 512 / ES); dst ← VL (R243). -/
def execVsetvl (a : At) (d s : Opd) (st : State) : Answer :=
  let v := vcOf (vpByte a)
  runInstr a (instrLen a 2 [d, s] 0) (vLegal a anyEs && opdDst d && opdSrc s) 2 (fun e => do
    let pd ← formOpd e 0 8 { write := true } d
    let ps ← formOpd e 1 8 {} s
    let y ← readPlace e 1 8 false ps
    checkSrc y isIntTag
    let vl := min y.val.toNat (vCount v.es)
    changeArch e (fun b => { b with vl := BitVec.ofNat 7 vl })
    writePlace e 8 pd (BitVec.ofNat 64 vl) .int
    return e.npc) st

/-- MTK: Kd ← src bits (R243). -/
def execMtk (a : At) (k : BitVec 8) (s : Opd) (st : State) : Answer :=
  runInstr a (instrLen a 2 [s] 1) (vLegal a anyEs && kOk k true && opdSrc s) 2 (fun e => do
    let ps ← formOpd e 0 8 {} s
    let y ← readPlace e 0 8 false ps
    checkSrc y isIntTag
    changeArch e (fun b => b.setK k.toNat y.val)
    return e.npc) st

/-- MFK: dst ← K as INT (R243). -/
def execMfk (a : At) (d : Opd) (k : BitVec 8) (st : State) : Answer :=
  runInstr a (instrLen a 2 [d] 1) (vLegal a anyEs && kOk k false && opdDst d) 2 (fun e => do
    let pd ← formOpd e 0 8 { write := true } d
    writePlace e 8 pd ((← getArch e).kReg k.toNat) .int
    return e.npc) st

/-- MTVS: 0 VL, 1 VRI, 2 FFM (R240; log entry 27). -/
def execMtvs (a : At) (n : BitVec 8) (s : Opd) (st : State) : Answer :=
  runInstr a (instrLen a 2 [s] 1) (vLegal a anyEs && decide (n.toNat < 3) && opdSrc s) 2 (fun e => do
    let ps ← formOpd e 0 8 {} s
    let y ← readPlace e 0 8 false ps
    checkSrc y (fun t => decide (t = .int))
    changeArch e (fun b =>
      if n = 0 then { b with vl := BitVec.ofNat 7 (min y.val.toNat 64) }
      else if n = 1 then { b with vri := BitVec.ofNat 6 (min y.val.toNat 63) }
      else { b with ffm := y.val })
    return e.npc) st

/-- MFVS (R240). -/
def execMfvs (a : At) (d : Opd) (n : BitVec 8) (st : State) : Answer :=
  runInstr a (instrLen a 2 [d] 1) (vLegal a anyEs && decide (n.toNat < 3) && opdDst d) 2 (fun e => do
    let pd ← formOpd e 0 8 { write := true } d
    let b ← getArch e
    writePlace e 8 pd (if n = 0 then b.vl.setWidth 64 else if n = 1 then b.vri.setWidth 64 else b.ffm) .int
    return e.npc) st

end Sys2Proof.Machine
end

