-- ==== Sys2Proof/Machine/Dispatch.lean ====
section
/-! DEFINITION. One arm per command: the call of its meaning. -/

namespace Sys2Proof.Machine

/-- The effect of a command on everything but the queue. -/
def exec (i : Instr) (s : State) : Host.Outcome State Fault Refusal :=
  match i with
  | .sqTailDoorbell p fn q v => Sys2Proof.Machine.execSqTailDoorbell p fn q v s
  | .cqHeadDoorbell p fn q v => Sys2Proof.Machine.execCqHeadDoorbell p fn q v s
  | .commandFetch l => Sys2Proof.Machine.execCommandFetch l s
  | .commandReadCompletion l cmds => Sys2Proof.Machine.execCommandReadCompletion l cmds s
  | .replyPoll p => Sys2Proof.Machine.execReplyPoll p s
  | .cqCoalesceTimeout p fn q => Sys2Proof.Machine.execCqCoalesceTimeout p fn q s
  | .mailboxRead p fn idx sub irq => Sys2Proof.Machine.execMailboxRead p fn idx sub irq s
  | .mailboxWrite p fn idx sub len irq data => Sys2Proof.Machine.execMailboxWrite p fn idx sub len irq data s
  | .serializerSlot => Sys2Proof.Machine.execSerializerSlot s
  | .dictWrite path idx sub data => Sys2Proof.Machine.execDictWrite path idx sub data s
  | .qpCreate path record => Sys2Proof.Machine.execQpCreate path record s
  | .qpDelete path record => Sys2Proof.Machine.execQpDelete path record s
  | .qpModify path record => Sys2Proof.Machine.execQpModify path record s
  | .qpDeleted p fn q => Sys2Proof.Machine.execQpDeleted p fn q s
  | .windowCommit path p => Sys2Proof.Machine.execWindowCommit path p s
  | .windowCommitPoint p => Sys2Proof.Machine.execWindowCommitPoint p s
  | .inboundWriteTlp p translated off data ep => Sys2Proof.Machine.execInboundWriteTlp p translated off data ep s
  | .inboundReadTlp p translated off len => Sys2Proof.Machine.execInboundReadTlp p translated off len s
  | .msixAckRead p v => Sys2Proof.Machine.execMsixAckRead p v s
  | .msixTableWrite p fn entry addr data mask => Sys2Proof.Machine.execMsixTableWrite p fn entry addr data mask s
  | .configRequest l fn r => Sys2Proof.Machine.execConfigRequest l fn r s
  | .flr l fn => Sys2Proof.Machine.execFlr l fn s
  | .vfDisable l => Sys2Proof.Machine.execVfDisable l s
  | .d3hotEntry l fn => Sys2Proof.Machine.execD3hotEntry l fn s
  | .d0Return l fn => Sys2Proof.Machine.execD0Return l fn s
  | .drainEnd l fn => Sys2Proof.Machine.execDrainEnd l fn s
  | .dlFlrExpiry l fn => Sys2Proof.Machine.execDlFlrExpiry l fn s
  | .atsTranslationCompletion p fn page pages hostPage r w => Sys2Proof.Machine.execAtsTranslationCompletion p fn page pages hostPage r w s
  | .atsInvalidateRequest p fn page pages itag => Sys2Proof.Machine.execAtsInvalidateRequest p fn page pages itag s
  | .invalidationCompletion p => Sys2Proof.Machine.execInvalidationCompletion p s
  | .hostReadCompletion e tag answer => Sys2Proof.Machine.execHostReadCompletion e tag answer s
  | .perstAssert p => Sys2Proof.Machine.execPerstAssert p s
  | .perstDeassert p => Sys2Proof.Machine.execPerstDeassert p s
  | .hostLinkTrainingStart l => Sys2Proof.Machine.execHostLinkTrainingStart l s
  | .hostLinkL0 l rate width => Sys2Proof.Machine.execHostLinkL0 l rate width s
  | .aspmL1Idle l => Sys2Proof.Machine.execAspmL1Idle l s
  | .hostL1Exit l => Sys2Proof.Machine.execHostL1Exit l s
  | .hostLaneErrorWindow l errs => Sys2Proof.Machine.execHostLaneErrorWindow l errs s
  | .pcieCompletionTimeout l r => Sys2Proof.Machine.execPcieCompletionTimeout l r s
  | .engineNop e st => Sys2Proof.Machine.execEngineNop e st s
  | .put e st => Sys2Proof.Machine.execPut e st s
  | .get e st => Sys2Proof.Machine.execGet e st s
  | .stage e st => Sys2Proof.Machine.execStage e st s
  | .scrub e st => Sys2Proof.Machine.execScrub e st s
  | .rebuild e st => Sys2Proof.Machine.execRebuild e st s
  | .reencode e st => Sys2Proof.Machine.execReencode e st s
  | .sealSpans e st => Sys2Proof.Machine.execSealSpans e st s
  | .verify e st => Sys2Proof.Machine.execVerify e st s
  | .release e st => Sys2Proof.Machine.execRelease e st s
  | .engineFence e st => Sys2Proof.Machine.execEngineFence e st s
  | .descriptorStart e => Sys2Proof.Machine.execDescriptorStart e s
  | .stripeStart e => Sys2Proof.Machine.execStripeStart e s
  | .stripeCheckDone e slot bad => Sys2Proof.Machine.execStripeCheckDone e slot bad s
  | .stagingPoolSpace e => Sys2Proof.Machine.execStagingPoolSpace e s
  | .stagingTokenRefill e => Sys2Proof.Machine.execStagingTokenRefill e s
  | .interlockEntryFree bank e => Sys2Proof.Machine.execInterlockEntryFree bank e s
  | .releaseReadbackDone e slot bad => Sys2Proof.Machine.execReleaseReadbackDone e slot bad s
  | .contextLoadDone e c => Sys2Proof.Machine.execContextLoadDone e c s
  | .ctxCreate path stall cls sealsReq forceBuf => Sys2Proof.Machine.execCtxCreate path stall cls sealsReq forceBuf s
  | .ctxFree path => Sys2Proof.Machine.execCtxFree path s
  | .ctxUnfenceFree path => Sys2Proof.Machine.execCtxUnfenceFree path s
  | .engineNoProgress e => Sys2Proof.Machine.execEngineNoProgress e s
  | .contextSramUe e c => Sys2Proof.Machine.execContextSramUe e c s
  | .stagingSramUe e slot span => Sys2Proof.Machine.execStagingSramUe e slot span s
  | .engineSramCe e => Sys2Proof.Machine.execEngineSramCe e s
  | .contextRecordLanded c => Sys2Proof.Machine.execContextRecordLanded c s
  | .signalDetect l => Sys2Proof.Machine.execSignalDetect l s
  | .trainingFrame l lane ctl sts => Sys2Proof.Machine.execTrainingFrame l lane ctl sts s
  | .trainingTimeout l culprit => Sys2Proof.Machine.execTrainingTimeout l culprit s
  | .markerFlit l f => Sys2Proof.Machine.execMarkerFlit l f s
  | .flitSlot l => Sys2Proof.Machine.execFlitSlot l s
  | .payloadFlit l f => Sys2Proof.Machine.execPayloadFlit l f s
  | .nullFlit l f => Sys2Proof.Machine.execNullFlit l f s
  | .nakFlit l f => Sys2Proof.Machine.execNakFlit l f s
  | .nakRepeatTimeout l => Sys2Proof.Machine.execNakRepeatTimeout l s
  | .replayTimeout l => Sys2Proof.Machine.execReplayTimeout l s
  | .linkHoldExpiry l => Sys2Proof.Machine.execLinkHoldExpiry l s
  | .param l hdr b => Sys2Proof.Machine.execParam l hdr b s
  | .paramAck l hdr => Sys2Proof.Machine.execParamAck l hdr s
  | .spareReady l hdr lane link spare => Sys2Proof.Machine.execSpareReady l hdr lane link spare s
  | .spareSwitchSuperframe l => Sys2Proof.Machine.execSpareSwitchSuperframe l s
  | .spareReadyTimeout l => Sys2Proof.Machine.execSpareReadyTimeout l s
  | .quietAck l hdr => Sys2Proof.Machine.execQuietAck l hdr s
  | .failoverAck l hdr failed => Sys2Proof.Machine.execFailoverAck l hdr failed s
  | .retrainReq l hdr => Sys2Proof.Machine.execRetrainReq l hdr s
  | .failbackAck l hdr failed => Sys2Proof.Machine.execFailbackAck l hdr failed s
  | .linkCtlRepeat l => Sys2Proof.Machine.execLinkCtlRepeat l s
  | .serWindow l corrected ucw => Sys2Proof.Machine.execSerWindow l corrected ucw s
  | .acceptIdentity path l => Sys2Proof.Machine.execAcceptIdentity path l s
  | .linkFailback path l => Sys2Proof.Machine.execLinkFailback path l s
  | .failbackSend l => Sys2Proof.Machine.execFailbackSend l s
  | .forceRetrain path l => Sys2Proof.Machine.execForceRetrain path l s
  | .linkReenable path l => Sys2Proof.Machine.execLinkReenable path l s
  | .linkDisable l => Sys2Proof.Machine.execLinkDisable l s
  | .portCommandIssue p => Sys2Proof.Machine.execPortCommandIssue p s
  | .dlDriveExpiry p tag => Sys2Proof.Machine.execDlDriveExpiry p tag s
  | .abortTimeout p tag => Sys2Proof.Machine.execAbortTimeout p tag s
  | .statusMsg l p tag code blk span => Sys2Proof.Machine.execStatusMsg l p tag code blk span s
  | .sealMsg l p tag blk poison block seals => Sys2Proof.Machine.execSealMsg l p tag blk poison block seals s
  | .dataMsg l p tag blk data => Sys2Proof.Machine.execDataMsg l p tag blk data s
  | .identData l p tag present serial cap => Sys2Proof.Machine.execIdentData l p tag present serial cap s
  | .powerDone l req ok failed => Sys2Proof.Machine.execPowerDone l req ok failed s
  | .portChange l p present => Sys2Proof.Machine.execPortChange l p present s
  | .bridgeAlert l code value => Sys2Proof.Machine.execBridgeAlert l code value s
  | .unknownMessage l ty len => Sys2Proof.Machine.execUnknownMessage l ty len s
  | .acceptDrive path p => Sys2Proof.Machine.execAcceptDrive path p s
  | .retirePort path p => Sys2Proof.Machine.execRetirePort path p s
  | .reenablePort path p => Sys2Proof.Machine.execReenablePort path p s
  | .portShelfWrite path p h => Sys2Proof.Machine.execPortShelfWrite path p h s
  | .portShelfMove p => Sys2Proof.Machine.execPortShelfMove p s
  | .shelfWakeRequest path h => Sys2Proof.Machine.execShelfWakeRequest path h s
  | .shelfSleepRequest path h => Sys2Proof.Machine.execShelfSleepRequest path h s
  | .shelfWakeAdmit => Sys2Proof.Machine.execShelfWakeAdmit s
  | .wakeLimitExpiry h p => Sys2Proof.Machine.execWakeLimitExpiry h p s
  | .windowGuardReached h => Sys2Proof.Machine.execWindowGuardReached h s
  | .dlWindowExpiry h => Sys2Proof.Machine.execDlWindowExpiry h s
  | .powerDoneTimeout h => Sys2Proof.Machine.execPowerDoneTimeout h s
  | .windowLenWrite path h v elapsed => Sys2Proof.Machine.execWindowLenWrite path h v elapsed s
  | .ringArbitration seg cycle inj => Sys2Proof.Machine.execRingArbitration seg cycle inj s
  | .priorityAging seg k => Sys2Proof.Machine.execPriorityAging seg k s
  | .headPromotion seg k => Sys2Proof.Machine.execHeadPromotion seg k s
  | .flitUeRetry seg => Sys2Proof.Machine.execFlitUeRetry seg s
  | .detourInstalled seg => Sys2Proof.Machine.execDetourInstalled seg s
  | .ringGroupsApply n => Sys2Proof.Machine.execRingGroupsApply n s
  | .ringGroupsWrite path n v => Sys2Proof.Machine.execRingGroupsWrite path n v s
  | .segmentFailTest path code => Sys2Proof.Machine.execSegmentFailTest path code s
  | .packetToRetiredStop k => Sys2Proof.Machine.execPacketToRetiredStop k s
  | .interruptTake c => Sys2Proof.Machine.execInterruptTake c s
  | .storeBufferWrite c => Sys2Proof.Machine.execStoreBufferWrite c s
  | .prefetchIssue c pa l2 => Sys2Proof.Machine.execPrefetchIssue c pa l2 s
  | .coreModeApply c => Sys2Proof.Machine.execCoreModeApply c s
  | .coreModeWrite path n v => Sys2Proof.Machine.execCoreModeWrite path n v s
  | .walkEnter c => Sys2Proof.Machine.execWalkEnter c s
  | .walkExit c => Sys2Proof.Machine.execWalkExit c s
  | .nop a => Sys2Proof.Machine.execNop a s
  | .wfi a => Sys2Proof.Machine.execWfi a s
  | .brk a => Sys2Proof.Machine.execBrk a s
  | .svc a v => Sys2Proof.Machine.execSvc a v s
  | .eret a => Sys2Proof.Machine.execEret a s
  | .fence a => Sys2Proof.Machine.execFence a s
  | .fenceSe a => Sys2Proof.Machine.execFenceSe a s
  | .isync a => Sys2Proof.Machine.execIsync a s
  | .mov a sz d src => Sys2Proof.Machine.execMov a sz d src s
  | .sxt a sz d src => Sys2Proof.Machine.execSxt a sz d src s
  | .xchg a d src => Sys2Proof.Machine.execXchg a d src s
  | .add a sz d src => Sys2Proof.Machine.execAdd a sz d src s
  | .sub a sz d src => Sys2Proof.Machine.execSub a sz d src s
  | .and a sz d src => Sys2Proof.Machine.execAnd a sz d src s
  | .or a sz d src => Sys2Proof.Machine.execOr a sz d src s
  | .xor a sz d src => Sys2Proof.Machine.execXor a sz d src s
  | .cmp a sz d src => Sys2Proof.Machine.execCmp a sz d src s
  | .tst a sz d src => Sys2Proof.Machine.execTst a sz d src s
  | .adc a sz d src => Sys2Proof.Machine.execAdc a sz d src s
  | .shl a sz d src => Sys2Proof.Machine.execShl a sz d src s
  | .shr a sz d src => Sys2Proof.Machine.execShr a sz d src s
  | .sar a sz d src => Sys2Proof.Machine.execSar a sz d src s
  | .rol a sz d src => Sys2Proof.Machine.execRol a sz d src s
  | .mul a sz d src => Sys2Proof.Machine.execMul a sz d src s
  | .mulh a sz d src => Sys2Proof.Machine.execMulh a sz d src s
  | .div a sz d src => Sys2Proof.Machine.execDiv a sz d src s
  | .divu a sz d src => Sys2Proof.Machine.execDivu a sz d src s
  | .neg a sz d => Sys2Proof.Machine.execNeg a sz d s
  | .not a sz d => Sys2Proof.Machine.execNot a sz d s
  | .sbb a sz d src => Sys2Proof.Machine.execSbb a sz d src s
  | .lea a d src => Sys2Proof.Machine.execLea a d src s
  | .leac a d src => Sys2Proof.Machine.execLeac a d src s
  | .push a src => Sys2Proof.Machine.execPush a src s
  | .pop a d => Sys2Proof.Machine.execPop a d s
  | .bcc a cond hint disp => Sys2Proof.Machine.execBcc a cond hint disp s
  | .br a disp => Sys2Proof.Machine.execBr a disp s
  | .call a disp => Sys2Proof.Machine.execCall a disp s
  | .calli a src => Sys2Proof.Machine.execCalli a src s
  | .bri a src => Sys2Proof.Machine.execBri a src s
  | .ret a => Sys2Proof.Machine.execRet a s
  | .enter a n => Sys2Proof.Machine.execEnter a n s
  | .leave a n => Sys2Proof.Machine.execLeave a n s
  | .tagr a d src => Sys2Proof.Machine.execTagr a d src s
  | .ttest a src t => Sys2Proof.Machine.execTtest a src t s
  | .ptrint a d src => Sys2Proof.Machine.execPtrint a d src s
  | .mkptr a d src => Sys2Proof.Machine.execMkptr a d src s
  | .mkcode a d src => Sys2Proof.Machine.execMkcode a d src s
  | .tagset a d t => Sys2Proof.Machine.execTagset a d t s
  | .kill a d => Sys2Proof.Machine.execKill a d s
  | .mfcr a d n => Sys2Proof.Machine.execMfcr a d n s
  | .mtcr a n src => Sys2Proof.Machine.execMtcr a n src s
  | .imovf a d src => Sys2Proof.Machine.execImovf a d src s
  | .fmovi a d src => Sys2Proof.Machine.execFmovi a d src s
  | .mfsw a d => Sys2Proof.Machine.execMfsw a d s
  | .mtsw a src => Sys2Proof.Machine.execMtsw a src s
  | .fadd a sz d src => Sys2Proof.Machine.execFadd a sz d src s
  | .fsub a sz d src => Sys2Proof.Machine.execFsub a sz d src s
  | .fmul a sz d src => Sys2Proof.Machine.execFmul a sz d src s
  | .fdiv a sz d src => Sys2Proof.Machine.execFdiv a sz d src s
  | .fsqrt a sz d src => Sys2Proof.Machine.execFsqrt a sz d src s
  | .fma a sz d src t => Sys2Proof.Machine.execFma a sz d src t s
  | .fcmp a sz d src => Sys2Proof.Machine.execFcmp a sz d src s
  | .fmov a sz d src => Sys2Proof.Machine.execFmov a sz d src s
  | .cvtif a d src => Sys2Proof.Machine.execCvtif a d src s
  | .cvtfi a d src => Sys2Proof.Machine.execCvtfi a d src s
  | .cvtsd a d src => Sys2Proof.Machine.execCvtsd a d src s
  | .cvtds a d src => Sys2Proof.Machine.execCvtds a d src s
  | .cclean a m => Sys2Proof.Machine.execCclean a m s
  | .cclinv a m => Sys2Proof.Machine.execCclinv a m s
  | .cdiscard a m => Sys2Proof.Machine.execCdiscard a m s
  | .czero a m => Sys2Proof.Machine.execCzero a m s
  | .cclear a m => Sys2Proof.Machine.execCclear a m s
  | .crangeClean a => Sys2Proof.Machine.execCrangeClean a s
  | .crangeCleanInvalidate a => Sys2Proof.Machine.execCrangeCleanInvalidate a s
  | .crangeDiscard a => Sys2Proof.Machine.execCrangeDiscard a s
  | .tlbiVa a m => Sys2Proof.Machine.execTlbiVa a m s
  | .tlbiVaLocal a m => Sys2Proof.Machine.execTlbiVaLocal a m s
  | .tlbiAsid a src => Sys2Proof.Machine.execTlbiAsid a src s
  | .tlbiAsidLocal a src => Sys2Proof.Machine.execTlbiAsidLocal a src s
  | .tlbiStall a => Sys2Proof.Machine.execTlbiStall a s
  | .tlbiStallLocal a => Sys2Proof.Machine.execTlbiStallLocal a s
  | .tlbiAll a => Sys2Proof.Machine.execTlbiAll a s
  | .tlbiAllLocal a => Sys2Proof.Machine.execTlbiAllLocal a s
  | .tlbiStalln a src => Sys2Proof.Machine.execTlbiStalln a src s
  | .tlbiStallnLocal a src => Sys2Proof.Machine.execTlbiStallnLocal a src s
  | .iotlbi a src => Sys2Proof.Machine.execIotlbi a src s
  | .iotlbiVa a m src => Sys2Proof.Machine.execIotlbiVa a m src s
  | .tlbiComplete c => Sys2Proof.Machine.execTlbiComplete c s
  | .bcopy a ctl => Sys2Proof.Machine.execBcopy a ctl s
  | .bfill a ctl => Sys2Proof.Machine.execBfill a ctl s
  | .bcmp a ctl => Sys2Proof.Machine.execBcmp a ctl s
  | .bfind a ctl => Sys2Proof.Machine.execBfind a ctl s
  | .vld a d m => Sys2Proof.Machine.execVld a d m s
  | .vst a m src => Sys2Proof.Machine.execVst a m src s
  | .vgather a d b ix scale => Sys2Proof.Machine.execVgather a d b ix scale s
  | .vgatherFf a d b ix scale => Sys2Proof.Machine.execVgatherFf a d b ix scale s
  | .vscatter a b ix src scale => Sys2Proof.Machine.execVscatter a b ix src scale s
  | .vadd a d src => Sys2Proof.Machine.execVadd a d src s
  | .vsub a d src => Sys2Proof.Machine.execVsub a d src s
  | .vand a d src => Sys2Proof.Machine.execVand a d src s
  | .vor a d src => Sys2Proof.Machine.execVor a d src s
  | .vxor a d src => Sys2Proof.Machine.execVxor a d src s
  | .vmul a d src => Sys2Proof.Machine.execVmul a d src s
  | .vshl a d src => Sys2Proof.Machine.execVshl a d src s
  | .vshr a d src => Sys2Proof.Machine.execVshr a d src s
  | .vcmpeq a v src k => Sys2Proof.Machine.execVcmpeq a v src k s
  | .vcmplt a v src k => Sys2Proof.Machine.execVcmplt a v src k s
  | .vcmpltu a v src k => Sys2Proof.Machine.execVcmpltu a v src k s
  | .vfadd a d src => Sys2Proof.Machine.execVfadd a d src s
  | .vfsub a d src => Sys2Proof.Machine.execVfsub a d src s
  | .vfmul a d src => Sys2Proof.Machine.execVfmul a d src s
  | .vfma a d v src => Sys2Proof.Machine.execVfma a d v src s
  | .vfcmplt a v src k => Sys2Proof.Machine.execVfcmplt a v src k s
  | .vgfmul a d src => Sys2Proof.Machine.execVgfmul a d src s
  | .vgfmac a d v c => Sys2Proof.Machine.execVgfmac a d v c s
  | .vgfinv a d v => Sys2Proof.Machine.execVgfinv a d v s
  | .vperm a d v ix => Sys2Proof.Machine.execVperm a d v ix s
  | .vbcast a d src => Sys2Proof.Machine.execVbcast a d src s
  | .vsetvl a d src => Sys2Proof.Machine.execVsetvl a d src s
  | .mtk a k src => Sys2Proof.Machine.execMtk a k src s
  | .mfk a d k => Sys2Proof.Machine.execMfk a d k s
  | .mtvs a n src => Sys2Proof.Machine.execMtvs a n src s
  | .mfvs a d n => Sys2Proof.Machine.execMfvs a d n s
  | .xadd a dbl m src => Sys2Proof.Machine.execXadd a dbl m src s
  | .xchga a dbl m src => Sys2Proof.Machine.execXchga a dbl m src s
  | .cas a dbl m src => Sys2Proof.Machine.execCas a dbl m src s
  | .aadd a dbl m src => Sys2Proof.Machine.execAadd a dbl m src s
  | .aand a dbl m src => Sys2Proof.Machine.execAand a dbl m src s
  | .aor a dbl m src => Sys2Proof.Machine.execAor a dbl m src s
  | .axor a dbl m src => Sys2Proof.Machine.execAxor a dbl m src s
  | .icAck a d => Sys2Proof.Machine.execIcAck a d s
  | .icEoi a src => Sys2Proof.Machine.execIcEoi a src s
  | .icSetpend a src => Sys2Proof.Machine.execIcSetpend a src s
  | .icModeWrite a src => Sys2Proof.Machine.execIcModeWrite a src s
  | .ttbrWrite a src => Sys2Proof.Machine.execTtbrWrite a src s
  | .tcrWrite a src => Sys2Proof.Machine.execTcrWrite a src s
  | .gaitReqWrite a src => Sys2Proof.Machine.execGaitReqWrite a src s
  | .pmstatusWrite a src => Sys2Proof.Machine.execPmstatusWrite a src s
  | .sampleInfoWrite a src => Sys2Proof.Machine.execSampleInfoWrite a src s
  | .pmfreezeWrite a src => Sys2Proof.Machine.execPmfreezeWrite a src s
  | .reinNop r => Sys2Proof.Machine.execReinNop r s
  | .reinGeta r => Sys2Proof.Machine.execReinGeta r s
  | .reinGetx r => Sys2Proof.Machine.execReinGetx r s
  | .reinGety r => Sys2Proof.Machine.execReinGety r s
  | .reinPuta r => Sys2Proof.Machine.execReinPuta r s
  | .reinPutx r => Sys2Proof.Machine.execReinPutx r s
  | .reinPuty r => Sys2Proof.Machine.execReinPuty r s
  | .reinGetb r => Sys2Proof.Machine.execReinGetb r s
  | .reinPutb r => Sys2Proof.Machine.execReinPutb r s
  | .reinGetw r => Sys2Proof.Machine.execReinGetw r s
  | .reinPutw r => Sys2Proof.Machine.execReinPutw r s
  | .reinAdd r => Sys2Proof.Machine.execReinAdd r s
  | .reinSub r => Sys2Proof.Machine.execReinSub r s
  | .reinAnd r => Sys2Proof.Machine.execReinAnd r s
  | .reinOr r => Sys2Proof.Machine.execReinOr r s
  | .reinXor r => Sys2Proof.Machine.execReinXor r s
  | .reinCmp r => Sys2Proof.Machine.execReinCmp r s
  | .reinShl r => Sys2Proof.Machine.execReinShl r s
  | .reinShr r => Sys2Proof.Machine.execReinShr r s
  | .reinStepx r => Sys2Proof.Machine.execReinStepx r s
  | .reinStepy r => Sys2Proof.Machine.execReinStepy r s
  | .reinStepsp r => Sys2Proof.Machine.execReinStepsp r s
  | .reinCopy r => Sys2Proof.Machine.execReinCopy r s
  | .reinBcc r => Sys2Proof.Machine.execReinBcc r s
  | .reinCalld r => Sys2Proof.Machine.execReinCalld r s
  | .reinJumpa r => Sys2Proof.Machine.execReinJumpa r s
  | .reinRetd r => Sys2Proof.Machine.execReinRetd r s
  | .reinMfcr r => Sys2Proof.Machine.execReinMfcr r s
  | .reinMtcr r => Sys2Proof.Machine.execReinMtcr r s
  | .reinSvc r => Sys2Proof.Machine.execReinSvc r s
  | .reinEret r => Sys2Proof.Machine.execReinEret r s
  | .reinWfi r => Sys2Proof.Machine.execReinWfi r s
  | .reinFence r => Sys2Proof.Machine.execReinFence r s
  | .reinBrk r => Sys2Proof.Machine.execReinBrk r s
  | .homeLookup sl => Sys2Proof.Machine.execHomeLookup sl s
  | .rdShr r => Sys2Proof.Machine.execRdShr r s
  | .rdOwn r => Sys2Proof.Machine.execRdOwn r s
  | .upgrade r => Sys2Proof.Machine.execUpgrade r s
  | .rdNi r => Sys2Proof.Machine.execRdNi r s
  | .rdUc r => Sys2Proof.Machine.execRdUc r s
  | .wrUc r k mask data tags => Sys2Proof.Machine.execWrUc r k mask data tags s
  | .evict r dirty => Sys2Proof.Machine.execEvict r dirty s
  | .dmaRd r subs => Sys2Proof.Machine.execDmaRd r subs s
  | .dmaWr r k mask data tags => Sys2Proof.Machine.execDmaWr r k mask data tags s
  | .spanWr r data tags sealW => Sys2Proof.Machine.execSpanWr r data tags sealW s
  | .zero r => Sys2Proof.Machine.execZero r s
  | .clear r => Sys2Proof.Machine.execClear r s
  | .mClean r => Sys2Proof.Machine.execMClean r s
  | .mCleaninv r => Sys2Proof.Machine.execMCleaninv r s
  | .mDiscard r => Sys2Proof.Machine.execMDiscard r s
  | .atomic r op dbl v cmp => Sys2Proof.Machine.execAtomic r op dbl v cmp s
  | .atomicAny r op dbl v cmp => Sys2Proof.Machine.execAtomicAny r op dbl v cmp s
  | .snpShr tile pa => Sys2Proof.Machine.execSnpShr tile pa s
  | .snpInv tile pa => Sys2Proof.Machine.execSnpInv tile pa s
  | .snpClean tile pa => Sys2Proof.Machine.execSnpClean tile pa s
  | .gnt stop pa => Sys2Proof.Machine.execGnt stop pa s
  | .retry tile pa => Sys2Proof.Machine.execRetry tile pa s
  | .wbPull tile pa => Sys2Proof.Machine.execWbPull tile pa s
  | .evictAck tile pa => Sys2Proof.Machine.execEvictAck tile pa s
  | .done stop pa => Sys2Proof.Machine.execDone stop pa s
  | .ack tile pa => Sys2Proof.Machine.execAck tile pa s
  | .gone tile pa => Sys2Proof.Machine.execGone tile pa s
  | .wbData tile pa => Sys2Proof.Machine.execWbData tile pa s
  | .protocolError sl op => Sys2Proof.Machine.execProtocolError sl op s
  | .llcWaysWrite path n v => Sys2Proof.Machine.execLlcWaysWrite path n v s
  | .wayLockWrite path w v => Sys2Proof.Machine.execWayLockWrite path w v s
  | .mcRequest c k pa stall pri src => Sys2Proof.Machine.execMcRequest c k pa stall pri src s
  | .dramCommandSlot c aged => Sys2Proof.Machine.execDramCommandSlot c aged s
  | .fixedSlot c slot aged => Sys2Proof.Machine.execFixedSlot c slot aged s
  | .dramReadDone c data tags seals => Sys2Proof.Machine.execDramReadDone c data tags seals s
  | .spprComplete c => Sys2Proof.Machine.execSpprComplete c s
  | .bankCloseTimeout c bank => Sys2Proof.Machine.execBankCloseTimeout c bank s
  | .refreshDue c rank => Sys2Proof.Machine.execRefreshDue c rank s
  | .dlRefreshExpiry c rank => Sys2Proof.Machine.execDlRefreshExpiry c rank s
  | .patrolStep c found => Sys2Proof.Machine.execPatrolStep c found s
  | .dimmSensorRead k dimm temps => Sys2Proof.Machine.execDimmSensorRead k dimm temps s
  | .pmicStatusRead k faults => Sys2Proof.Machine.execPmicStatusRead k faults s
  | .rankCopyStep c found => Sys2Proof.Machine.execRankCopyStep c found s
  | .channelCopyStep c found => Sys2Proof.Machine.execChannelCopyStep c found s
  | .retireChannel path c => Sys2Proof.Machine.execRetireChannel path c s
  | .spareRankRequest path c rank => Sys2Proof.Machine.execSpareRankRequest path c rank s
  | .memSlotsWrite path n v => Sys2Proof.Machine.execMemSlotsWrite path n v s
  | .memSlotsApply n => Sys2Proof.Machine.execMemSlotsApply n s
  | .grantWrite path n k v => Sys2Proof.Machine.execGrantWrite path n k v s
  | .ioRootWrite path n v => Sys2Proof.Machine.execIoRootWrite path n v s
  | .grantWriteComplete n => Sys2Proof.Machine.execGrantWriteComplete n s
  | .stallCreate path n => Sys2Proof.Machine.execStallCreate path n s
  | .stallTeardown path n => Sys2Proof.Machine.execStallTeardown path n s
  | .stallLive n => Sys2Proof.Machine.execStallLive n s
  | .teardownProgress n => Sys2Proof.Machine.execTeardownProgress n s
  | .coresWrite path n mask => Sys2Proof.Machine.execCoresWrite path n mask s
  | .sharedCoresWrite path n mask => Sys2Proof.Machine.execSharedCoresWrite path n mask s
  | .vfBindWrite path n v => Sys2Proof.Machine.execVfBindWrite path n v s
  | .strictWrite path n b => Sys2Proof.Machine.execStrictWrite path n b s
  | .coreRemovalTimeout c => Sys2Proof.Machine.execCoreRemovalTimeout c s
  | .sliceEnd c => Sys2Proof.Machine.execSliceEnd c s
  | .strictWayCleanDone n => Sys2Proof.Machine.execStrictWayCleanDone n s
  | .sourceCoalesceTimeout src => Sys2Proof.Machine.execSourceCoalesceTimeout src s
  | .dlCoalesceExpiry src => Sys2Proof.Machine.execDlCoalesceExpiry src s
  | .sourceConfigWrite path w => Sys2Proof.Machine.execSourceConfigWrite path w s
  | .idleEntryTimeout => Sys2Proof.Machine.execIdleEntryTimeout s
  | .sleepEntryTimeout => Sys2Proof.Machine.execSleepEntryTimeout s
  | .deepEntryTimeout => Sys2Proof.Machine.execDeepEntryTimeout s
  | .quietAckTimeout l => Sys2Proof.Machine.execQuietAckTimeout l s
  | .powerRequestWake path => Sys2Proof.Machine.execPowerRequestWake path s
  | .powerRequestOff path => Sys2Proof.Machine.execPowerRequestOff path s
  | .wakeNFall => Sys2Proof.Machine.execWakeNFall s
  | .wakeTimerExpiry => Sys2Proof.Machine.execWakeTimerExpiry s
  | .halterAddressMatch addr cmd => Sys2Proof.Machine.execHalterAddressMatch addr cmd s
  | .halterHoldTimeout => Sys2Proof.Machine.execHalterHoldTimeout s
  | .domainWakeDone d => Sys2Proof.Machine.execDomainWakeDone d s
  | .deepExitDone => Sys2Proof.Machine.execDeepExitDone s
  | .dlWakeExpiry d => Sys2Proof.Machine.execDlWakeExpiry d s
  | .gaitGrantEval => Sys2Proof.Machine.execGaitGrantEval s
  | .gaitVoltageRamped c => Sys2Proof.Machine.execGaitVoltageRamped c s
  | .powerThermalSample watts temps => Sys2Proof.Machine.execPowerThermalSample watts temps s
  | .demotionLift d => Sys2Proof.Machine.execDemotionLift d s
  | .droopLevel1 die => Sys2Proof.Machine.execDroopLevel1 die s
  | .clockStretchEnd die => Sys2Proof.Machine.execClockStretchEnd die s
  | .droopLevel3 => Sys2Proof.Machine.execDroopLevel3 s
  | .pwrfailAssert => Sys2Proof.Machine.execPwrfailAssert s
  | .flushSetWritten => Sys2Proof.Machine.execFlushSetWritten s
  | .dlFlushExpiry => Sys2Proof.Machine.execDlFlushExpiry s
  | .pwrfailDeassertStable => Sys2Proof.Machine.execPwrfailDeassertStable s
  | .brownOut => Sys2Proof.Machine.execBrownOut s
  | .phaseFault r => Sys2Proof.Machine.execPhaseFault r s
  | .railOutOfTolerance r => Sys2Proof.Machine.execRailOutOfTolerance r s
  | .faultReport r => Sys2Proof.Machine.execFaultReport r s
  | .logSave => Sys2Proof.Machine.execLogSave s
  | .substituteRequest path k => Sys2Proof.Machine.execSubstituteRequest path k s
  | .substitutionStepDone st => Sys2Proof.Machine.execSubstitutionStepDone st s
  | .dlSubstExpiry => Sys2Proof.Machine.execDlSubstExpiry s
  | .rehomeEntryDone unreadable => Sys2Proof.Machine.execRehomeEntryDone unreadable s
  | .repairQueueAdvance action => Sys2Proof.Machine.execRepairQueueAdvance action s
  | .groomMiscompare g => Sys2Proof.Machine.execGroomMiscompare g s
  | .dlGroomExpiry => Sys2Proof.Machine.execDlGroomExpiry s
  | .stbWdogWrite => Sys2Proof.Machine.execStbWdogWrite s
  | .groomRetest g pass => Sys2Proof.Machine.execGroomRetest g pass s
  | .standbySelftest pass => Sys2Proof.Machine.execStandbySelftest pass s
  | .walkRecoveryStart path => Sys2Proof.Machine.execWalkRecoveryStart path s
  | .walkRecoveryEnd path => Sys2Proof.Machine.execWalkRecoveryEnd path s
  | .walkRecoveryTimeout => Sys2Proof.Machine.execWalkRecoveryTimeout s
  | .canSegment id data brs => Sys2Proof.Machine.execCanSegment id data brs s
  | .segmentTimeout src tid => Sys2Proof.Machine.execSegmentTimeout src tid s
  | .canBusOff => Sys2Proof.Machine.execCanBusOff s
  | .wealarRead h idx sub => Sys2Proof.Machine.execWealarRead h idx sub s
  | .wealarWrite h idx sub data => Sys2Proof.Machine.execWealarWrite h idx sub data s
  | .wealarIdentify h => Sys2Proof.Machine.execWealarIdentify h s
  | .wealarWake h => Sys2Proof.Machine.execWealarWake h s
  | .wealarAbort h tid => Sys2Proof.Machine.execWealarAbort h tid s
  | .heartbeat => Sys2Proof.Machine.execHeartbeat s
  | .halterBlockWrite svc tid body pecOk => Sys2Proof.Machine.execHalterBlockWrite svc tid body pecOk s
  | .halterBlockRead => Sys2Proof.Machine.execHalterBlockRead s
  | .halterReadByte => Sys2Proof.Machine.execHalterReadByte s
  | .saddlebagStore => Sys2Proof.Machine.execSaddlebagStore s
  | .restoreCancel path => Sys2Proof.Machine.execRestoreCancel path s
  | .restoreConfig path => Sys2Proof.Machine.execRestoreConfig path s
  | .restoreAll path => Sys2Proof.Machine.execRestoreAll path s
  | .stbResetEnd patchOff sbDefault mfg => Sys2Proof.Machine.execStbResetEnd patchOff sbDefault mfg s
  | .romSelftestPass g => Sys2Proof.Machine.execRomSelftestPass g s
  | .loadDone patch => Sys2Proof.Machine.execLoadDone patch s
  | .railsStable => Sys2Proof.Machine.execRailsStable s
  | .railsTimeout => Sys2Proof.Machine.execRailsTimeout s
  | .calibrationDone failed => Sys2Proof.Machine.execCalibrationDone failed s
  | .mapsDone failedTiles => Sys2Proof.Machine.execMapsDone failedTiles s
  | .coldSoakAdjust temps => Sys2Proof.Machine.execColdSoakAdjust temps s
  | .soakLimitExpiry => Sys2Proof.Machine.execSoakLimitExpiry s
  | .dramTrainingDone spd failed failedRanks => Sys2Proof.Machine.execDramTrainingDone spd failed failedRanks s
  | .tackZeroDone => Sys2Proof.Machine.execTackZeroDone s
  | .unitsReady ms => Sys2Proof.Machine.execUnitsReady ms s
  | .counterOverflow block counter pc => Sys2Proof.Machine.execCounterOverflow block counter pc s
  | .freezeWrite path b => Sys2Proof.Machine.execFreezeWrite path b s
  | .counterStatusWrite path block mask => Sys2Proof.Machine.execCounterStatusWrite path block mask s
  | .tapOpenWrite path b => Sys2Proof.Machine.execTapOpenWrite path b s
  | .idcode => Sys2Proof.Machine.execIdcode s
  | .samplePreload shift => Sys2Proof.Machine.execSamplePreload shift s
  | .extest shift => Sys2Proof.Machine.execExtest shift s
  | .clamp => Sys2Proof.Machine.execClamp s
  | .highz => Sys2Proof.Machine.execHighz s
  | .dbgStatus => Sys2Proof.Machine.execDbgStatus s
  | .dbgOd d => Sys2Proof.Machine.execDbgOd d s
  | .dbgCoreHalt k => Sys2Proof.Machine.execDbgCoreHalt k s
  | .dbgCoreSingleStep k => Sys2Proof.Machine.execDbgCoreSingleStep k s
  | .dbgCoreResume k => Sys2Proof.Machine.execDbgCoreResume k s
  | .dbgCoreReadRegister k r => Sys2Proof.Machine.execDbgCoreReadRegister k r s
  | .dbgCoreWriteRegister k r v => Sys2Proof.Machine.execDbgCoreWriteRegister k r v s
  | .bypass => Sys2Proof.Machine.execBypass s
  | .testHoldEnd => Sys2Proof.Machine.execTestHoldEnd s
  | .receiveLockLoss l => Sys2Proof.Machine.execReceiveLockLoss l s
  | .hostLinkDown l => Sys2Proof.Machine.execHostLinkDown l s
  | .romSelftestFail g => Sys2Proof.Machine.execRomSelftestFail g s
  | .fatalStateReset => Sys2Proof.Machine.execFatalStateReset s
  | .memoryFill pa => Sys2Proof.Machine.execMemoryFill pa s

end Sys2Proof.Machine
end

