-- ==== Sys2Proof/Safety.lean ====
section
/-! DEFINITION. The terms in which statements about the block speak: when an instruction of a core starts, what a part of it yields, how it
ends, and what a command must leave as it was. -/

namespace Sys2Proof.Machine

/-! ## Core instructions -/

/-- A computation of a core instruction ends without an exception and without waiting, with a value and a state. -/
def Yields {α : Type} (m : CoreRun α) (s : State) (v : α) (t : State) : Prop := m.run s = (.ok v, t)

/-- A computation of a core instruction ends in an exception. -/
def Raises {α : Type} (m : CoreRun α) (s : State) (x : Exc) (t : State) : Prop := m.run s = (.error (.exc x), t)

/-- An instruction of `len` bytes starts: its core executes, its encoding is legal, its level is permitted, and its bytes are fetched from
INT words; `s0` is the state after the fetch (R210, R215). -/
def Starts (a : At) (len : Nat) (legal : Bool) (level : Nat) (s s0 : State) : Prop :=
  coreRuns s a.core.val = true ∧ legal = true ∧ len ≤ 24 ∧ swPl (s.core a.core.val).arch.sw ≤ level ∧
    Yields (fetchWords (envOf s a.core.val len) (codeWords (s.core a.core.val).arch.pc.toNat len)) s () s0

/-- The state after an instruction that was started in `s` has made the changes of `t` and retires to `npc` (R172, R214, R229). -/
def ended (a : At) (len : Nat) (npc : BitVec 47) (s t : State) : State :=
  toRun (retire (envOf s a.core.val len) (swSs (s.core a.core.val).arch.sw) npc t)

/-- The state after an instruction that was started in `s` has ended in an exception with the changes of `t` (R213–R215). -/
def trapped (a : At) (len : Nat) (x : Exc) (s t : State) : State := toRun (stopWith (envOf s a.core.val len) x t)

/-- A destination is formed, then a source is formed and read. -/
def destSource (e : Env) (n m : Nat) (fp : Bool) (d o : Opd) : CoreRun (Place × Place × Src) := do
  let pd ← formOpd e 0 n { write := true } d
  let ps ← formOpd e 1 m {} o
  let y ← readPlace e 1 m fp ps
  return (pd, ps, y)

/-- Two operands are formed, then both are read. -/
def bothRead (e : Env) (n : Nat) (k0 k1 : AccKind) (fp : Bool) (d o : Opd) : CoreRun ((Place × Place) × (Src × Src)) := do
  let pd ← formOpd e 0 n k0 d
  let ps ← formOpd e 1 n k1 o
  let x ← readPlace e 0 n fp pd
  let y ← readPlace e 1 n fp ps
  return ((pd, ps), (x, y))

/-- One operand is formed and read. -/
def oneRead (e : Env) (n : Nat) (k : AccKind) (fp : Bool) (o : Opd) : CoreRun (Place × Src) := do
  let p ← formOpd e 0 n k o
  let x ← readPlace e 0 n fp p
  return (p, x)

/-- The destination and the source operands of a floating-point instruction are formed, then dst, where it is read, and the sources. -/
def fpRead (e : Env) (n m : Nat) (readDst : Bool) (d : Opd) (ss : List Opd) : CoreRun (Place × List Src) := do
  let pd ← formOpd e 0 n { write := true } d
  let ps ← (ss.zipIdx 1).mapM (fun x => formOpd e x.2 m {} x.1)
  let x ← if readDst then (do return [← readPlace e 0 n true pd]) else pure []
  let ys ← (ps.zipIdx 1).mapM (fun y => readPlace e y.2 m true y.1)
  return (pd, x ++ ys)

/-- A source passes its tag check (R206, R207, R209). -/
def Src.passes (y : Src) (ok : Tag → Bool) : Bool := y.bad.isNone && ok y.tag

/-- A destination takes a tag (R209, R223). -/
def Place.takes (p : Place) (t : Tag) : Bool :=
  match p with
  | .mem a => !(a.part || a.lo.side) || decide (t = .int) || decide (t = .float) || decide (t = .bytes)
  | _ => true

/-- An operand in memory that is 8-aligned, or a register (R211). -/
def Place.aligned (p : Place) : Bool := match p with | .mem a => decide (a.va % 8 = 0) | _ => true

/-- A 64-bit move between these places is tag-transparent (R206). -/
def transparent (n : Nat) (pd ps : Place) : Bool := decide (n = 8) && pd.whole && ps.whole

/-- An 8-byte access at a distance from a base register (R208): its address and the access. -/
def stackAcc (e : Env) (r : Nat) (d : Int) (k : AccKind) : CoreRun (Nat × Acc) := do
  let sp ← stackAddr e r d
  let acc ← formAcc e sp 8 3 k
  return (sp, acc)

/-- SW after a flag set (R198). -/
def withFlags (s : State) (c : Nat) (f : FlagSet) : State := s.setArch c (fun a => { a with sw := f.apply a.sw })

/-- SW after sticky floating-point flags (R198). -/
def withFpf (s : State) (c : Nat) (f : FFlags) : State := s.setArch c (fun a => { a with sw := addFpf f a.sw })

/-- The old value of an atomic goes to the source register of XADD and XCHGA and to X1 for CAS (R236, R237). -/
def atomDeliver (op : AtomOp) (e : Env) (n : Nat) (ps : Place) (old : TWord) : CoreRun Unit := do
  if op = .xadd ∨ op = .xchga then writePlace e n ps old.data old.tag
  if op = .cas then changeArch e (·.setX 1 old)

/-- The sources of an element-wise vector instruction, formed, read and checked, with their positions (R215, R244, R245). -/
def vecRead (es : Nat) (fp : Bool) (act : Nat → Bool) (regs : List (Nat × Opd)) (src : Option (Nat × Opd)) (e : Env) :
    CoreRun (List (Nat × List TWord)) := do
  let n := vCount es
  let s ← match src with
    | some (k, o) => (do return [(k, ← formVSrc e k fp es (actives n act) o)])
    | none => pure []
  let xs ← regs.mapM (fun r => do return (r.1, ← getV e (vReg r.2)))
  let ys ← s.mapM (fun x => do return (x.1, ← readVSrc e x.1 es n act x.2))
  let all := xs ++ ys
  all.forM (fun x => checkVec x.1 es act (if fp then isFpTag else isIntTag) x.2)
  return all

/-- The elements that a core's VL and predicate make active (R241). -/
def activeOf (s : State) (a : At) : Nat → Bool :=
  activeIn (s.core a.core.val).arch (vcOf (vpByte a)) (vCount (vcOf (vpByte a)).es)

/-- The words of V register `r`. -/
def vWords (s : State) (c r : Nat) : List TWord := (List.range 8).map (fun w => (s.core c).arch.vWord r w)

/-- The words of V register `r` replaced. -/
def withV (s : State) (c r : Nat) (ws : List TWord) : State :=
  s.setArch c (fun a => (List.range 8).foldl (fun b w => b.setVWord r w (ws.getD w ⟨0, .uninit⟩)) a)

/-- The opcode bytes of BCC by its displacement (R227). -/
def dispOpcode (d : Disp) : Nat := match d with | .rel8 _ => 1 | .rel32 _ => 2

/-- A PC-relative operand. -/
def Opd.isPc (o : Opd) : Bool := match o with | .pc _ => true | _ => false

/-! ## Packets -/

/-- A grant, and an ACK. -/
def PktKind.isGnt (k : PktKind) : Bool := match k with | .gnt _ _ _ => true | _ => false
def PktKind.isAck (k : PktKind) : Bool := match k with | .ack _ _ => true | _ => false

/-- A snoop. -/
def PktKind.isSnp (k : PktKind) : Bool := match k with | .snpShr | .snpInv | .snpClean => true | _ => false

/-- The packet of a tile's answer. -/
def SnoopAns.packet (a : SnoopAns) : PktKind := match a with | .ack d e => .ack d e | .gone => .gone

/-! ## Rein instructions -/

/-- A computation of a rein instruction ends without an exception and without waiting. -/
def RYields {α : Type} (m : RM α) (s : State) (v : α) (t : State) : Prop := m.run s = (.ok v, t)

/-- A rein instruction starts (R252–R257): its pair executes, no interrupt is taken in its place, the fetch is permitted, the encoding is
legal, no register it uses is still to be loaded, and a branch is in no slot. `s0` is the state in which its effect begins. -/
def ReinStarts (i : Rein) (legal branch : Bool) (uses : Uses) (s s0 : State) : Prop :=
  let r := s.reinOf i.pair.val
  pairRuns s i.pair.val = true ∧ rInterrupt s i.pair.val = false ∧ (r.waiting = true → (winner s (.pair i.pair.val)).isSome = true) ∧
    legal = true ∧ (∀ l, r.load = some l → uses.contains l.1.val = false) ∧ (branch && r.slot) = false ∧
    s0 = s.setRein i.pair.val { r with waiting := false, load := none } ∧ ∃ q, RYields (rCheck r.pc.toNat true false false) s0 q s0

/-- The registers of the pair in which a rein instruction's effect begins. -/
def reinAt (i : Rein) (s : State) : ReinSt := { s.reinOf i.pair.val with load := none }

/-- The registers of a pair after a change. -/
def withRein (s : State) (g : Nat) (f : ReinSt → ReinSt) : State := s.setRein g (f (s.reinOf g))

/-! ## Commands of the block -/

/-- A command completes: it answers a next state, of which `P` holds. -/
def Completes (i : Instr) (s : State) (P : State → Prop) : Prop := ∃ t, exec i s = .next t ∧ P t

/-- A queue that a request has joined: at its end, or, where it came in the cycle of the last ones, among them by the rotating priority
after the source `last` (R269, R284; log entry 175). -/
def joined (last : BitVec 8) (q : HomeReq) (l : List HomeReq) : List HomeReq :=
  if q.req.tie && !l.isEmpty then (lastCycle l).1 ++ markTies (insertTie last q (lastCycle l).2) else l ++ [{ q with tie := false }]

/-- A request has joined its home's queue where its source has a credit and sent no request before it that still waits for one; otherwise it
waits at its source. No other slice and no byte of memory has changed. -/
def Queued (r : Req) (op : HomeOp) (s t : State) : Prop :=
  let h := homeSlice s (secOf r.pa)
  let q : HomeReq := { req := r, op := op }
  let last := (s.slice h).pointer
  let sends := hasReqCredit s h r.src.toNat && !s.coh.waiting.any (fun x => decide (x.req.src = r.src) && decide (reqHome s x = h))
  (sends = true → (t.slice h).queue = joined last q (s.slice h).queue ∧ t.coh.waiting = s.coh.waiting) ∧
    (sends = false → t.slice h = s.slice h ∧ t.coh.waiting = joined last { q with tie := r.tie } s.coh.waiting) ∧
    (∀ k, k ≠ h → t.slice k = s.slice k) ∧ t.mem = s.mem

/-- A dictionary write of a value is permitted and acts at once (R466, R493): a Groom pair serves, the checks pass, and the device is READY
or the entry is one of those that act before it. -/
def Permits (p : Path) (idx sub v : Nat) (s : State) : Prop :=
  groomServes s = true ∧ checkWrite s p idx sub (bytesOfNat (((odLookup idx sub).map (fun e => e.ty.len)).getD 0) v) = .ok ∧
    (s.boot.ready = true ∨ earlyWrite idx sub = true ∨ (idx = 0x9000 ∧ sub = 2))

/-- The state in which a request of the host takes effect: its link has left L1, it is counted, and the device has woken (R392, R420). -/
def arrived (l : Nat) (s : State) : State := wakeDevice 1 (countLink l 1 1 (exitL1 l s))

/-- A request of the host reaches its function: its link brings TLPs, and the domains on its way are up (R418). -/
def Reaches (l : Nat) (s : State) : Prop := linkTrained (s.ctl l).link = true ∧ hostUp (arrived l s) l = true

/-- A queue pair's doorbells are served (R374). -/
def QpOpen (p fn q : Nat) (s : State) : Prop :=
  fnAnswers s p fn = true ∧ s.boot.ready = true ∧ (s.fn p fn).fenced = false ∧ (s.qp (qpKey p fn q)).enable = true ∧
    (s.qp (qpKey p fn q)).deleting = false

/-! ## What every step keeps -/

/-- Memory is in its canonical form; READY is 1 only in the last phase and in no test hold (R493, R520); in the fatal state the host's functions
signal fatal and FAULT_N is low, and FAULT_N is low while a boot fault holds bring-up (R436, R532). -/
def Sound (s : State) : Prop :=
  s.mem.wf = true ∧ (s.boot.ready = true → s.boot.phase = .ready ∧ s.tap.hold = false) ∧
    (s.far.fatal = true → s.host.fatal = true ∧ s.pwr.faultN = false) ∧ (s.boot.hold = true → s.pwr.faultN = false)

/-- A register operand. -/
def Opd.isReg (o : Opd) : Bool := match o with | .p _ | .x _ | .f _ => true | _ => false

/-- A register or an immediate. -/
def Opd.isRegImm (o : Opd) : Bool := match o with | .p _ | .x _ | .f _ | .imm4 _ | .imm _ _ => true | _ => false

/-- The pointer register, the integer register and the vector register that an operand names. -/
def Opd.isP (o : Opd) (r : Nat) : Bool := match o with | .p k => decide (k.val = r) | _ => false
def Opd.isX (o : Opd) (r : Nat) : Bool := match o with | .x k => decide (k.toNat = r) | _ => false
def Opd.isF (o : Opd) (r : Nat) : Bool := match o with | .f k => decide (k.val = r) | _ => false

/-- Beside the registers that an operand names, SW and PC, no register of any core differs between two states. -/
def RegistersKept (c : Nat) (d : Opd) (s t : State) : Prop :=
  (∀ k, k ≠ c → (t.core k).arch = (s.core k).arch) ∧
    (∀ r, Opd.isP d r = false → (t.core c).arch.pReg r = (s.core c).arch.pReg r) ∧
    (∀ r, Opd.isX d r = false → (t.core c).arch.xReg r = (s.core c).arch.xReg r) ∧
    (∀ r w, w < 8 → Opd.isF d r = false → (t.core c).arch.vWord r w = (s.core c).arch.vWord r w) ∧
    (t.core c).arch = { (s.core c).arch with
      p := (t.core c).arch.p, x := (t.core c).arch.x, v := (t.core c).arch.v, sw := (t.core c).arch.sw, pc := (t.core c).arch.pc }

/-- An instruction whose destination is `d` leaves the frame window of its core where it is (R174, R176). -/
def WindowStays (c : Nat) (d : Opd) (s : State) : Prop :=
  (s.core c).frameAt = some ((s.core c).arch.pReg 13) ∧ Opd.isP d 13 = false

/-- No other core, no byte of memory, no cache, no directory, no TLB and no store buffer differs between two states: of everything beside the
registers of one core only what counters, power states and interrupts may change. -/
def OnlyRegister (c : Nat) (s t : State) : Prop :=
  t.mem = s.mem ∧ t.sram = s.sram ∧ t.coh = s.coh ∧ t.mc = s.mc ∧ t.vm = s.vm ∧ (∀ k, k ≠ c → t.core k = s.core k) ∧
    (t.core c).storeBuf = (s.core c).storeBuf ∧ (t.core c).frameRegs = (s.core c).frameRegs

end Sys2Proof.Machine
end

