-- ==== Sys2Proof/Certificates/Slice0/Obligations.lean ====
section
/-! DEFINITION. The statements for the provers. -/

section

open Sys2Proof Sys2Proof.Machine

/-! ## The instructions of the full profile -/

/-- The integer instructions dst ← dst op src of R227 with every operand form: where the operands are read, their tags are accepted and no
division is by zero, the instruction writes the operation's result with its tag, sets its flags and retires. Where a shift's count is a
multiple of the size, C is a free value (log entry 8). -/
def Obligations.AluCompletes : Prop :=
  ∀ p ∈ [(Instr.add, Alu.add), (Instr.sub, Alu.sub), (Instr.and, Alu.and), (Instr.or, Alu.or), (Instr.xor, Alu.xor),
         (Instr.adc, Alu.adc), (Instr.sbb, Alu.sbb), (Instr.shl, Alu.shl), (Instr.shr, Alu.shr), (Instr.sar, Alu.sar),
         (Instr.rol, Alu.rol), (Instr.mul, Alu.mul), (Instr.mulh, Alu.mulh), (Instr.div, Alu.div), (Instr.divu, Alu.divu)],
  ∀ (a : At) (z : Sz) (d o : Opd) (s s0 s1 s2 : State) (pd ps : Place) (x y : Src),
    let len := instrLen a 1 [d, o] 0
    let e := envOf s a.core.val len
    let n := szBytes z
    let t := aluTag x.tag y.tag
    let takes := needsFree p.2 (8 * n) y.val.toNat
    let r := alu p.2 (8 * n) x.val.toNat y.val.toNat (flagC (s1.core e.c).arch.sw) ((if takes then freeValue s1 else 0).getLsbD 0)
    Starts a len (a.pfx.isEmpty && opdDst d && opdSrc o) 2 s s0 →
    Yields (bothRead e n { write := true } {} false d o) s0 ((pd, ps), (x, y)) s1 →
    x.passes (accepts0 p.2 n) = true → y.passes (accepts1 p.2 n x.tag) = true → pd.takes t = true →
    dividesByZero p.2 (8 * n) y.val.toNat = false →
    Yields (writePlace e n pd (BitVec.ofNat 64 r.val) t) (if takes then s1.took else s1) () s2 →
    exec (p.1 a z d o) s = .next (ended a len e.npc s (withFlags s2 e.c r.flags))

/-- The moves and address instructions with every operand form: MOV and FMOV move the value and its tag; SXT extends the sign; TAGR gives
the tag's code; PTRINT, MKPTR and MKCODE replace the tag; LEA and LEAC form an address without an access; XCHG writes both operands. -/
def Obligations.MovesComplete : Prop :=
  (∀ (a : At) (z : Sz) (d o : Opd) (s s0 s1 s2 : State) (pd ps : Place) (y : Src),
    let len := instrLen a 1 [d, o] 0
    let e := envOf s a.core.val len
    Starts a len (a.pfx.isEmpty && opdDst d && opdSrc o) 2 s s0 →
    Yields (destSource e (szBytes z) (szBytes z) false d o) s0 (pd, ps, y) s1 →
    (transparent (szBytes z) pd ps || y.passes isIntTag) = true → pd.takes y.tag = true →
    Yields (writePlace e (szBytes z) pd y.val y.tag) s1 () s2 →
    exec (.mov a z d o) s = .next (ended a len e.npc s s2)) ∧
  (∀ (a : At) (z : FSz) (d o : Opd) (s s0 s1 s2 : State) (pd ps : Place) (y : Src),
    let len := instrLen a 1 [d, o] 0
    let e := envOf s a.core.val len
    Starts a len (a.pfx.isEmpty && opdDst d && opdFSrc (fszBytes z) o) 2 s s0 →
    Yields (destSource e (fszBytes z) (fszBytes z) true d o) s0 (pd, ps, y) s1 →
    (transparent (fszBytes z) pd ps || y.passes isFpTag) = true → pd.takes y.tag = true →
    Yields (writePlace e (fszBytes z) pd y.val y.tag) s1 () s2 →
    exec (.fmov a z d o) s = .next (ended a len e.npc s s2)) ∧
  (∀ (a : At) (z : Sz) (d o : Opd) (s s0 s1 s2 : State) (pd ps : Place) (y : Src),
    let len := instrLen a 1 [d, o] 0
    let e := envOf s a.core.val len
    Starts a len (a.pfx.isEmpty && decide (z ≠ .d) && opdDst d && opdSrc o) 2 s s0 →
    Yields (destSource e 8 (szBytes z) false d o) s0 (pd, ps, y) s1 →
    y.passes isIntTag = true → pd.takes (intTag y.tag y.tag) = true →
    Yields (writePlace e 8 pd (BitVec.ofInt 64 (sInt (8 * szBytes z) y.val.toNat)) (intTag y.tag y.tag)) s1 () s2 →
    exec (.sxt a z d o) s = .next (ended a len e.npc s s2)) ∧
  (∀ (a : At) (d o : Opd) (s s0 s1 s2 : State) (pd ps : Place) (y : Src),
    let len := instrLen a 1 [d, o] 0
    let e := envOf s a.core.val len
    Starts a len (a.pfx.isEmpty && opdDst d && opdSrc o) 2 s s0 →
    Yields (destSource e 8 8 false d o) s0 (pd, ps, y) s1 → y.passes anyTag = true →
    Yields (writePlace e 8 pd (y.tag.code.setWidth 64) .int) s1 () s2 →
    exec (.tagr a d o) s = .next (ended a len e.npc s s2)) ∧
  (∀ p ∈ [(Instr.ptrint, [Tag.int, .ptr, .codeptr], Tag.int, 2), (Instr.mkptr, [Tag.int], Tag.ptr, 1),
          (Instr.mkcode, [Tag.int], Tag.codeptr, 1)],
    ∀ (a : At) (d o : Opd) (s s0 s1 s2 : State) (pd ps : Place) (y : Src),
    let len := instrLen a 1 [d, o] 0
    let e := envOf s a.core.val len
    Starts a len (a.pfx.isEmpty && opdDst d && opdSrc o) p.2.2.2 s s0 →
    Yields (destSource e 8 8 false d o) s0 (pd, ps, y) s1 →
    y.passes (fun t => p.2.1.contains t) = true → pd.takes p.2.2.1 = true →
    Yields (writePlace e 8 pd y.val p.2.2.1) s1 () s2 →
    exec (p.1 a d o) s = .next (ended a len e.npc s s2)) ∧
  (∀ p ∈ [(Instr.lea, Tag.ptr, opdMem), (Instr.leac, Tag.codeptr, Opd.isPc)],
    ∀ (a : At) (d o : Opd) (s s0 s1 s2 s3 : State) (pd : Place) (va : Nat),
    let len := instrLen a 1 [d, o] 0
    let e := envOf s a.core.val len
    Starts a len (a.pfx.isEmpty && opdDst d && p.2.2 o) 2 s s0 →
    Yields (formOpd e 0 8 { write := true } d) s0 pd s1 → Yields (formAddr e 1 o) s1 va s2 → pd.takes p.2.1 = true →
    Yields (writePlace e 8 pd (BitVec.ofNat 64 va) p.2.1) s2 () s3 →
    exec (p.1 a d o) s = .next (ended a len e.npc s s3)) ∧
  (∀ (a : At) (d o : Opd) (s s0 s1 s2 s3 : State) (pd ps : Place) (x y : Src),
    let len := instrLen a 1 [d, o] 0
    let e := envOf s a.core.val len
    Starts a len (a.pfx.isEmpty && opdDst d && opdDst o) 2 s s0 →
    Yields (bothRead e 8 { write := true } { write := true } false d o) s0 ((pd, ps), (x, y)) s1 →
    (pd.whole && ps.whole || x.passes isIntTag && y.passes isIntTag) = true → pd.takes y.tag = true → ps.takes x.tag = true →
    Yields (writePlace e 8 pd y.val y.tag) s1 () s2 → Yields (writePlace e 8 ps x.val x.tag) s2 () s3 →
    exec (.xchg a d o) s = .next (ended a len e.npc s s3))

/-- The compares set flags alone: CMP as a subtraction, TST as an AND, FCMP its relation and its invalid flag, TTEST the T flag. -/
def Obligations.ComparesComplete : Prop :=
  (∀ p ∈ [(Instr.cmp, Alu.sub), (Instr.tst, Alu.and)],
    ∀ (a : At) (z : Sz) (d o : Opd) (s s0 s1 : State) (pd ps : Place) (x y : Src),
    let len := instrLen a 1 [d, o] 0
    let e := envOf s a.core.val len
    Starts a len (a.pfx.isEmpty && opdSrc d && opdSrc o) 2 s s0 →
    Yields (bothRead e (szBytes z) {} {} false d o) s0 ((pd, ps), (x, y)) s1 →
    x.passes comparable = true → y.passes comparable = true →
    exec (p.1 a z d o) s =
      .next (ended a len e.npc s (withFlags s1 e.c (alu p.2 (8 * szBytes z) x.val.toNat y.val.toNat false false).flags))) ∧
  (∀ (a : At) (z : FSz) (d o : Opd) (s s0 s1 : State) (pd ps : Place) (x y : Src),
    let len := instrLen a 1 [d, o] 0
    let e := envOf s a.core.val len
    let r := fCompare (fmtOf z) x.val.toNat y.val.toNat
    Starts a len (a.pfx.isEmpty && opdFSrc (fszBytes z) d && opdFSrc (fszBytes z) o) 2 s s0 →
    Yields (bothRead e (fszBytes z) {} {} true d o) s0 ((pd, ps), (x, y)) s1 →
    x.passes isFpTag = true → y.passes isFpTag = true →
    exec (.fcmp a z d o) s =
      .next (ended a len e.npc s (s1.setArch e.c (fun b => { b with sw := addFpf { invalid := r.2 } (FlagSet.apply
        { c := some false, z := some (decide (r.1 = .eq)), n := some (decide (r.1 = .lt)), v := some (decide (r.1 = .un)) } b.sw) })))) ∧
  (∀ (a : At) (o : Opd) (t : BitVec 8) (s s0 s1 : State) (ps : Place) (y : Src),
    let len := instrLen a 1 [o] 1
    let e := envOf s a.core.val len
    Starts a len (a.pfx.isEmpty && opdSrc o) 2 s s0 →
    Yields (oneRead e 8 {} false o) s0 (ps, y) s1 → y.passes anyTag = true →
    exec (.ttest a o t) s =
      .next (ended a len e.npc s (s1.setArch e.c (fun b => { b with sw := setBit b.sw 4 (decide (y.tag.code = t.truncate 4)) }))))

/-- The instructions of one operand: NEG and NOT replace its value; TAGSET, at PL0, replaces its tag; KILL makes it zero and UNINIT. -/
def Obligations.UnariesComplete : Prop :=
  (∀ p ∈ [(Instr.neg, fun (b x : Nat) => subFlags b 0 x false), (Instr.not, fun b x => { val := 2 ^ b - 1 - x % 2 ^ b })],
    ∀ (a : At) (z : Sz) (d : Opd) (s s0 s1 s2 : State) (pd : Place) (x : Src),
    let len := instrLen a 1 [d] 0
    let e := envOf s a.core.val len
    let r := p.2 (8 * szBytes z) x.val.toNat
    Starts a len (a.pfx.isEmpty && opdDst d) 2 s s0 →
    Yields (oneRead e (szBytes z) { write := true } false d) s0 (pd, x) s1 → x.passes isIntTag = true →
    Yields (writePlace e (szBytes z) pd (BitVec.ofNat 64 r.val) (intTag x.tag x.tag)) s1 () s2 →
    exec (p.1 a z d) s = .next (ended a len e.npc s (withFlags s2 e.c r.flags))) ∧
  (∀ (a : At) (d : Opd) (t : Tag) (c : BitVec 8) (s s0 s1 s2 s3 : State) (pd : Place) (y : Src),
    let len := instrLen a 1 [d] 1
    let e := envOf s a.core.val len
    Starts a len (a.pfx.isEmpty && opdDst d) 0 s s0 → Tag.ofCode (c.truncate 4) = some t →
    Yields (formOpd e 0 8 { write := true } d) s0 pd s1 → pd.aligned = true → Yields (readPlace e 0 8 false pd) s1 y s2 →
    pd.takes t = true → Yields (writePlace e 8 pd y.val t) s2 () s3 →
    exec (.tagset a d c) s = .next (ended a len e.npc s s3)) ∧
  (∀ (a : At) (d : Opd) (s s0 s1 s2 : State) (pd : Place),
    let len := instrLen a 1 [d] 0
    let e := envOf s a.core.val len
    Starts a len (a.pfx.isEmpty && opdDst d) 2 s s0 →
    Yields (formOpd e 0 8 { write := true } d) s0 pd s1 → pd.aligned = true → pd.takes .uninit = true →
    Yields (writePlace e 8 pd 0 .uninit) s1 () s2 →
    exec (.kill a d) s = .next (ended a len e.npc s s2))

/-- The stack instructions: PUSH and ENTER store below P12, POP and LEAVE load at it, and P12 and P13 move as R227 says. -/
def Obligations.StackCompletes : Prop :=
  (∀ (a : At) (o : Opd) (s s0 s1 s2 s3 s4 : State) (ps : Place) (sp : Nat) (acc : Acc) (y : Src),
    let len := instrLen a 1 [o] 0
    let e := envOf s a.core.val len
    Starts a len (a.pfx.isEmpty && opdSrc o) 2 s s0 → Yields (formOpd e 0 8 {} o) s0 ps s1 →
    Yields (stackAcc e 12 (-8) { write := true }) s1 (sp, acc) s2 → Yields (readPlace e 0 8 false ps) s2 y s3 →
    (ps.whole || y.passes isIntTag) = true → (Place.mem acc).takes y.tag = true →
    Yields (writePlace e 8 (.mem acc) y.val y.tag) s3 () s4 →
    exec (.push a o) s = .next (ended a len e.npc s (s4.setArch e.c (·.setP 12 ⟨BitVec.ofNat 64 sp, .ptr⟩)))) ∧
  (∀ (a : At) (d : Opd) (s s0 s1 s2 s3 s4 : State) (pd : Place) (sp : Nat) (acc : Acc) (y : Src),
    let len := instrLen a 1 [d] 0
    let e := envOf s a.core.val len
    Starts a len (a.pfx.isEmpty && opdDst d) 2 s s0 → Yields (formOpd e 0 8 { write := true } d) s0 pd s1 →
    Yields (stackAcc e 12 0 {}) s1 (sp, acc) s2 → Yields (readPlace e 3 8 false (.mem acc)) s2 y s3 →
    (pd.whole || y.passes isIntTag) = true → pd.takes y.tag = true →
    Yields (writePlace e 8 pd y.val y.tag) (s3.setArch e.c (·.setP 12 ⟨BitVec.ofNat 64 (addrAdd sp 8), .ptr⟩)) () s4 →
    exec (.pop a d) s = .next (ended a len e.npc s s4)) ∧
  (∀ (a : At) (u : BitVec 16) (s s0 s1 s2 : State) (sp : Nat) (acc : Acc),
    let len := instrLen a 1 [] 2
    let e := envOf s a.core.val len
    let y := (s1.core e.c).arch.pReg 13
    let fp : TWord := ⟨BitVec.ofNat 64 (addrAdd sp (-(u.toNat : Int))), .ptr⟩
    Starts a len (a.pfx.isEmpty && decide (u.toNat % 8 = 0)) 2 s s0 →
    Yields (stackAcc e 12 (-8) { write := true }) s0 (sp, acc) s1 → (Place.mem acc).takes y.tag = true →
    Yields (writePlace e 8 (.mem acc) y.data y.tag) s1 () s2 →
    exec (.enter a u) s = .next (ended a len e.npc s (s2.setArch e.c (fun b => (b.setP 13 fp).setP 12 fp)))) ∧
  (∀ (a : At) (u : BitVec 16) (s s0 s1 s2 : State) (sp : Nat) (acc : Acc) (y : Src),
    let len := instrLen a 1 [] 2
    let e := envOf s a.core.val len
    Starts a len (a.pfx.isEmpty && decide (u.toNat % 8 = 0)) 2 s s0 →
    Yields (stackAcc e 13 u.toNat {}) s0 (sp, acc) s1 → Yields (readPlace e 3 8 false (.mem acc)) s1 y s2 →
    exec (.leave a u) s =
      .next (ended a len e.npc s (s2.setArch e.c
        (fun b => (b.setP 13 ⟨y.val, y.tag⟩).setP 12 ⟨BitVec.ofNat 64 (addrAdd sp 8), .ptr⟩))))

/-- Control flow: BCC goes to its target where its condition holds and on otherwise; BR goes to its target; CALL and CALLI push the next
address as a CODEPTR below P12; BRI and CALLI go to a CODEPTR operand; RET goes to the CODEPTR at P12; NOP goes on. -/
def Obligations.BranchesComplete : Prop :=
  (∀ (a : At) (cond : BitVec 4) (hint : Bool) (d : Disp) (s s0 s1 s2 : State),
    let len := instrLen a (dispOpcode d) [] (dispBytes d)
    let e := envOf s a.core.val len
    let taken := condition cond.toNat (s0.core e.c).arch.sw
    Starts a len a.pfx.isEmpty 2 s s0 → Yields (predictDirection e hint taken) s0 () s1 →
    Yields (noteTaken e (relTarget e (dispVal d))) s1 () s2 →
    exec (.bcc a cond hint d) s =
      (if taken then .next (ended a len (relTarget e (dispVal d)) s s2) else .next (ended a len e.npc s s1))) ∧
  (∀ (a : At) (d : Disp) (s s0 s1 : State),
    let len := instrLen a 1 [] (dispBytes d)
    let e := envOf s a.core.val len
    Starts a len a.pfx.isEmpty 2 s s0 → Yields (noteTaken e (relTarget e (dispVal d))) s0 () s1 →
    exec (.br a d) s = .next (ended a len (relTarget e (dispVal d)) s s1)) ∧
  (∀ (a : At) (d : BitVec 32) (s s0 s1 s2 s3 : State) (sp : Nat) (acc : Acc),
    let len := instrLen a 1 [] 4
    let e := envOf s a.core.val len
    Starts a len a.pfx.isEmpty 2 s s0 → Yields (stackAcc e 12 (-8) { write := true }) s0 (sp, acc) s1 →
    (Place.mem acc).takes .codeptr = true → Yields (pushLink e acc) s1 () s2 → Yields (noteTaken e (relTarget e d.toInt)) s2 () s3 →
    exec (.call a d) s = .next (ended a len (relTarget e d.toInt) s s3)) ∧
  (∀ (a : At) (o : Opd) (s s0 s1 s2 s3 s4 s5 s6 : State) (ps : Place) (sp : Nat) (acc : Acc) (y : Src),
    let len := instrLen a 1 [o] 0
    let e := envOf s a.core.val len
    Starts a len (a.pfx.isEmpty && opdSrc o) 2 s s0 → Yields (formOpd e 0 8 {} o) s0 ps s1 →
    Yields (stackAcc e 12 (-8) { write := true }) s1 (sp, acc) s2 → Yields (readPlace e 0 8 false ps) s2 y s3 →
    y.passes (fun t => decide (t = .codeptr)) = true → (Place.mem acc).takes .codeptr = true →
    Yields (pushLink e acc) s3 () s4 → Yields (predictTarget e (y.val.truncate 47)) s4 () s5 →
    Yields (noteTaken e (y.val.truncate 47)) s5 () s6 →
    exec (.calli a o) s = .next (ended a len (y.val.truncate 47) s s6)) ∧
  (∀ (a : At) (o : Opd) (s s0 s1 s2 s3 : State) (ps : Place) (y : Src),
    let len := instrLen a 1 [o] 0
    let e := envOf s a.core.val len
    Starts a len (a.pfx.isEmpty && opdSrc o) 2 s s0 → Yields (oneRead e 8 {} false o) s0 (ps, y) s1 →
    y.passes (fun t => decide (t = .codeptr)) = true → Yields (predictTarget e (y.val.truncate 47)) s1 () s2 →
    Yields (noteTaken e (y.val.truncate 47)) s2 () s3 →
    exec (.bri a o) s = .next (ended a len (y.val.truncate 47) s s3)) ∧
  (∀ (a : At) (s s0 s1 s2 s3 s4 s5 : State) (sp : Nat) (acc : Acc) (y : Src),
    let len := instrLen a 1 [] 0
    let e := envOf s a.core.val len
    Starts a len a.pfx.isEmpty 2 s s0 → Yields (stackAcc e 12 0 {}) s0 (sp, acc) s1 →
    Yields (readPlace e 3 8 false (.mem acc)) s1 y s2 → y.passes (fun t => decide (t = .codeptr)) = true →
    Yields (predictReturn e (y.val.truncate 47)) (s2.setArch e.c (·.setP 12 ⟨BitVec.ofNat 64 (addrAdd sp 8), .ptr⟩)) () s3 →
    Yields (popReturn e) s3 () s4 → Yields (noteTaken e (y.val.truncate 47)) s4 () s5 →
    exec (.ret a) s = .next (ended a len (y.val.truncate 47) s s5)) ∧
  (∀ (a : At) (s s0 : State),
    let len := instrLen a 1 [] 0
    Starts a len a.pfx.isEmpty 2 s s0 → exec (.nop a) s = .next (ended a len (envOf s a.core.val len).npc s s0))

/-- The system instructions: WFI leaves the core waiting; SVC and BRK take their exceptions after they complete; ERET restores SW from the
level's ESW and goes to its EPC; FENCE, FENCE.SE and ISYNC complete when the store buffer has drained, ISYNC with L1I empty; MFSW and MTSW
read and write SW. -/
def Obligations.SystemCompletes : Prop :=
  (∀ (a : At) (s s0 : State),
    let len := instrLen a 1 [] 0
    let e := envOf s a.core.val len
    Starts a len a.pfx.isEmpty 1 s s0 →
    exec (.wfi a) s = .next (leaveAtWfi e.c (ended a len e.npc s (s0.setCore e.c { s0.core e.c with waiting := true })))) ∧
  (∀ (a : At) (v : BitVec 8) (s s0 : State),
    let len := instrLen a 1 [] 1
    let e := envOf s a.core.val len
    Starts a len a.pfx.isEmpty 2 s s0 →
    exec (.svc a v) s = .next (trapped a len { code := 0x0F, next := true, eaddr := e.pc.toNat, einfo := v.toNat } s s0)) ∧
  (∀ (a : At) (s s0 : State),
    let len := instrLen a 1 [] 0
    let e := envOf s a.core.val len
    Starts a len a.pfx.isEmpty 2 s s0 →
    exec (.brk a) s = .next (trapped a len { code := 0x0D, next := true, eaddr := e.pc.toNat } s s0)) ∧
  (∀ (a : At) (s s0 : State),
    let len := instrLen a 1 [] 0
    let e := envOf s a.core.val len
    let b := (s0.core e.c).arch.bank e.pl
    Starts a len a.pfx.isEmpty 1 s s0 → b.epc.tag = .codeptr →
    exec (.eret a) s = .next (ended a len (b.epc.data.truncate 47) s (s0.setArch e.c (fun x => returnFrom x e.pl)))) ∧
  (∀ i ∈ [Instr.fence, Instr.fenceSe], ∀ (a : At) (s s0 s1 : State),
    let len := instrLen a 1 [] 0
    let e := envOf s a.core.val len
    Starts a len a.pfx.isEmpty 2 s s0 → Yields (fenceAll e) s0 () s1 →
    exec (i a) s = .next (ended a len e.npc s s1)) ∧
  (∀ (a : At) (s s0 s1 : State),
    let len := instrLen a 1 [] 0
    let e := envOf s a.core.val len
    Starts a len a.pfx.isEmpty 2 s s0 → Yields (fenceAll e) s0 () s1 →
    exec (.isync a) s = .next (ended a len e.npc s (s1.setCore e.c { s1.core e.c with l1i := [] }))) ∧
  (∀ (a : At) (d : Opd) (s s0 s1 s2 : State) (pd : Place),
    let len := instrLen a 1 [d] 0
    let e := envOf s a.core.val len
    Starts a len (a.pfx.isEmpty && opdDst d) 2 s s0 → Yields (formOpd e 0 8 { write := true } d) s0 pd s1 →
    Yields (writePlace e 8 pd (s1.core e.c).arch.sw .int) s1 () s2 →
    exec (.mfsw a d) s = .next (ended a len e.npc s s2)) ∧
  (∀ (a : At) (o : Opd) (s s0 s1 : State) (ps : Place) (y : Src),
    let len := instrLen a 1 [o] 0
    let e := envOf s a.core.val len
    Starts a len (a.pfx.isEmpty && opdSrc o) 2 s s0 → Yields (oneRead e 8 {} false o) s0 (ps, y) s1 →
    y.passes (fun t => decide (t = .int)) = true →
    exec (.mtsw a o) s = .next (ended a len e.npc s (s1.setArch e.c (fun b => { b with sw := mtswWord e.pl b.sw y.val }))))

/-- The reads and writes of control registers: where the level is permitted, MFCR and the read of IC_ACK write the register's value to the
destination; MTCR and the writes of the named registers write an accepted source to the register. -/
def Obligations.ControlRegistersComplete : Prop :=
  (∀ p ∈ [(fun (a : At) (d : Opd) (_ : BitVec 8) => Instr.icAck a d, some 0x41), (fun a d n => Instr.mfcr a d n, none)],
    ∀ (a : At) (d : Opd) (b : BitVec 8) (s s0 s1 s2 : State) (pd : Place),
    let n := p.2.getD b.toNat
    let len := instrLen a 1 [d] 1
    let e := envOf s a.core.val len
    let r := crRead e n s1
    Starts a len (a.pfx.isEmpty && opdDst d) 2 s s0 → Yields (crGate e n false) s0 () s0 →
    Yields (formOpd e 0 8 { write := true } d) s0 pd s1 → pd.takes r.1.tag = true →
    Yields (writePlace e 8 pd r.1.data r.1.tag) r.2 () s2 →
    exec (p.1 a d b) s = .next (ended a len e.npc s s2)) ∧
  (∀ p ∈ [(fun (a : At) (_ : BitVec 8) (o : Opd) => Instr.icEoi a o, some 0x42), (fun a _ o => Instr.icSetpend a o, some 0x45),
          (fun a _ o => Instr.icModeWrite a o, some 0x43), (fun a _ o => Instr.ttbrWrite a o, some 0x30),
          (fun a _ o => Instr.tcrWrite a o, some 0x31), (fun a _ o => Instr.gaitReqWrite a o, some 0x50),
          (fun a _ o => Instr.pmstatusWrite a o, some 0x79), (fun a _ o => Instr.sampleInfoWrite a o, some 0x78),
          (fun a _ o => Instr.pmfreezeWrite a o, some 0x7A), (fun a n o => Instr.mtcr a n o, none)],
    ∀ (a : At) (b : BitVec 8) (o : Opd) (s s0 s1 s2 : State) (ps : Place) (y : Src),
    let n := p.2.getD b.toNat
    let len := instrLen a 1 [o] 1
    let e := envOf s a.core.val len
    let r := crWrite e n ⟨y.val, y.tag⟩ s2
    Starts a len (a.pfx.isEmpty && opdSrc o) 2 s s0 → Yields (crGate e n true) s0 () s0 →
    Yields (oneRead e 8 {} false o) s0 (ps, y) s1 → y.passes (crTakes n) = true →
    ((n = 0x00 ∨ n = 0x10) → y.val.toNat % 4096 = 0) →
    (n = 0x45 → maySetPending s1 (s1.core e.c).stall (y.val.truncate 11).toNat = true) →
    Yields (if crSyncs n then fenceAll e else pure ()) s1 () s2 → r.1 = false →
    exec (p.1 a b o) s = .next (ended a len e.npc s r.2))

/-- The scalar floating-point instructions: the result of the operation in the rounding mode of SW, its tag, and its sticky flags. -/
def Obligations.FpCompletes : Prop :=
  (∀ p ∈ [(Instr.fadd, true, fun (f : Fmt) (rm : Nat) (l : List Nat) => fAdd f rm (arg l 0) (arg l 1)),
          (Instr.fsub, true, fun f rm l => fSub f rm (arg l 0) (arg l 1)), (Instr.fmul, true, fun f rm l => fMul f rm (arg l 0) (arg l 1)),
          (Instr.fdiv, true, fun f rm l => fDiv f rm (arg l 0) (arg l 1)), (Instr.fsqrt, false, fun f rm l => fSqrt f rm (arg l 0))],
    ∀ (a : At) (z : FSz) (d o : Opd) (s s0 s1 s2 : State) (pd : Place) (ys : List Src),
    let len := instrLen a 1 [d, o] 0
    let e := envOf s a.core.val len
    let r := p.2.2 (fmtOf z) (swRm (s1.core e.c).arch.sw) (ys.map (·.val.toNat))
    Starts a len (a.pfx.isEmpty && opdDst d && opdFSrc (fszBytes z) o) 2 s s0 →
    Yields (fpRead e (fszBytes z) (fszBytes z) p.2.1 d [o]) s0 (pd, ys) s1 → (∀ y ∈ ys, y.passes isFpTag = true) →
    Yields (writePlace e (fszBytes z) pd (BitVec.ofNat 64 r.bits) (fpTag (ys.map (·.tag)))) s1 () s2 →
    exec (p.1 a z d o) s = .next (ended a len e.npc s (withFpf s2 e.c r.flags))) ∧
  (∀ (a : At) (z : FSz) (d o u : Opd) (s s0 s1 s2 : State) (pd : Place) (ys : List Src),
    let len := instrLen a 1 [d, o, u] 0
    let e := envOf s a.core.val len
    let l := ys.map (·.val.toNat)
    let r := fMulAdd (fmtOf z) (swRm (s1.core e.c).arch.sw) (arg l 0) (arg l 1) (arg l 2)
    Starts a len (a.pfx.isEmpty && opdDst d && opdFSrc (fszBytes z) o && opdFSrc (fszBytes z) u) 2 s s0 →
    Yields (fpRead e (fszBytes z) (fszBytes z) true d [o, u]) s0 (pd, ys) s1 → (∀ y ∈ ys, y.passes isFpTag = true) →
    Yields (writePlace e (fszBytes z) pd (BitVec.ofNat 64 r.bits) (fpTag (ys.map (·.tag)))) s1 () s2 →
    exec (.fma a z d o u) s = .next (ended a len e.npc s (withFpf s2 e.c r.flags))) ∧
  (∀ p ∈ [(Instr.cvtif, (8, 8, false), opdSrc, isIntTag, Tag.float, fun (rm v : Nat) => fOfInt rm (sInt 64 v)),
          (Instr.cvtfi, (8, 8, true), opdFSrc 8, isFpTag, Tag.int, fun _ v => fToInt v),
          (Instr.cvtsd, (8, 4, true), opdFSrc 4, isFpTag, Tag.float, fun rm v => fConvert fmtS fmtD rm v),
          (Instr.cvtds, (4, 8, true), opdFSrc 8, isFpTag, Tag.float, fun rm v => fConvert fmtD fmtS rm v),
          (Instr.imovf, (8, 8, false), opdSrc, isIntTag, Tag.float, fun _ v => { bits := v }),
          (Instr.fmovi, (8, 8, true), opdFSrc 8, isFpTag, Tag.int, fun _ v => { bits := v })],
    ∀ (a : At) (d o : Opd) (s s0 s1 s2 : State) (pd ps : Place) (y : Src),
    let len := instrLen a 1 [d, o] 0
    let e := envOf s a.core.val len
    let q := p.2.1
    let r := p.2.2.2.2.2 (swRm (s1.core e.c).arch.sw) y.val.toNat
    Starts a len (a.pfx.isEmpty && opdDst d && p.2.2.1 o) 2 s s0 →
    Yields (destSource e q.1 q.2.1 q.2.2 d o) s0 (pd, ps, y) s1 → y.passes p.2.2.2.1 = true →
    Yields (writePlace e q.1 pd (BitVec.ofNat 64 r.bits) (if y.tag = .bytes then .bytes else p.2.2.2.2.1)) s1 () s2 →
    exec (p.1 a d o) s = .next (ended a len e.npc s (withFpf s2 e.c r.flags)))

/-- Cache maintenance: CCLEAN, CCLINV and CDISCARD maintain the line of their address, CZERO and CCLEAR write a span, after every older
store is visible; CRANGE does so for each line from P14 while X0 lasts. On a side-effect page a line operation does nothing. -/
def Obligations.CacheMaintenanceCompletes : Prop :=
  (∀ p ∈ [(Instr.cclean, Maint.clean, 2), (Instr.cclinv, Maint.cleanInv, 2), (Instr.cdiscard, Maint.discard, 1)],
    ∀ (a : At) (m : Opd) (s s0 s1 s2 s3 : State) (va : Nat) (x : Xlat),
    let len := instrLen a 2 [m] 0
    let e := envOf s a.core.val len
    let w := decide (p.2.1 = .discard)
    Starts a len (a.pfx.isEmpty && opdMem m) p.2.2 s s0 → Yields (formAddr e 0 m) s0 va s1 →
    Yields (xlat e.c va { write := w } (fun f => xlatExc f va 0 w false false false)) s1 x s2 → Yields (fenceAll e) s2 () s3 →
    (x.side = true → exec (p.1 a m) s = .next (ended a len e.npc s s3)) ∧
    (x.side = false → coreWaits s3 e.c (x.pa / 64) = false →
      let s4 := markMisses (coreTile s3 e.c) (x.pa / 64) s3
      exec (p.1 a m) s = .next (ended a len e.npc s
        (maintainLine p.2.1 (coreAttr (s4.core e.c) x) (decide (e.pl = 0)) (x.pa / 64) (lookup (x.pa / 64) s4))))) ∧
  (∀ p ∈ [(Instr.czero, Tag.int), (Instr.cclear, Tag.uninit)],
    ∀ (a : At) (m : Opd) (s s0 s1 s2 s3 : State) (va : Nat) (x : Xlat),
    let len := instrLen a 2 [m] 0
    let e := envOf s a.core.val len
    let k := x.pa / 256
    Starts a len (a.pfx.isEmpty && opdMem m) 2 s s0 → Yields (formAddr e 0 m) s0 va s1 →
    Yields (xlat e.c va { write := true, special := true } (fun f => xlatExc f va 0 true false false false)) s1 x s2 →
    va % 256 = 0 → Yields (fenceAll e) s2 () s3 →
    (∀ l ∈ [4 * k, 4 * k + 1, 4 * k + 2, 4 * k + 3], coreWaits s3 e.c l = false) →
    exec (p.1 a m) s = .next (ended a len e.npc s (spanZero (coreAttr (s3.core e.c) x) k p.2 (lookup (4 * k) s3)))) ∧
  (∀ p ∈ [(Instr.crangeClean, Maint.clean, 2), (Instr.crangeCleanInvalidate, Maint.cleanInv, 2), (Instr.crangeDiscard, Maint.discard, 1)],
    ∀ (a : At) (s s0 s1 s2 s3 : State) (va : Nat),
    let len := instrLen a 2 [] 1
    let e := envOf s a.core.val len
    let t := (s1.core e.c).arch.xReg 0
    Starts a len a.pfx.isEmpty p.2.2 s s0 → Yields (baseReg e 14 3) s0 va s1 → isIntTag t.tag = true →
    va % 64 = 0 → t.data.toNat % 64 = 0 → Yields (fenceAll e) s1 () s2 →
    Yields (rangeLoop p.2.1 e (t.data.toNat / 64) 0) s2 () s3 →
    exec (p.1 a) s = .next (ended a len e.npc s s3))

/-- Invalidations of translations: after the store buffer has drained the named entries are gone, from the core alone or from every core;
after a global one the core waits for TLBI_COMPLETE, which performs what the cores have translated and ends the wait. -/
def Obligations.InvalidationsComplete : Prop :=
  (∀ p ∈ [(Instr.tlbiVa, false), (Instr.tlbiVaLocal, true)],
    ∀ (a : At) (m : Opd) (s s0 s1 s2 : State) (va : Nat),
    let len := instrLen a 2 [m] 0
    let e := envOf s a.core.val len
    Starts a len (a.pfx.isEmpty && opdMem m) 1 s s0 → Yields (formAddr e 0 m) s0 va s1 →
    Yields (performInval e p.2 (invalVa (s1.core e.c).stall ((s1.core e.c).arch.ttbr.truncate 12) va)) s1 e.npc s2 →
    exec (p.1 a m) s = .next (ended a len e.npc s s2)) ∧
  (∀ p ∈ [(Instr.tlbiAsid, false, 1, fun (st : Nat) (v : Word) => invalAsid st (v.truncate 12)),
          (Instr.tlbiAsidLocal, true, 1, fun st v => invalAsid st (v.truncate 12)),
          (Instr.tlbiStalln, false, 0, fun _ v => invalStall (natField v.toNat 0 9)),
          (Instr.tlbiStallnLocal, true, 0, fun _ v => invalStall (natField v.toNat 0 9))],
    ∀ (a : At) (o : Opd) (s s0 s1 s2 : State) (v : Word),
    let len := instrLen a 2 [o] 0
    let e := envOf s a.core.val len
    Starts a len (a.pfx.isEmpty && opdSrc o) p.2.2.1 s s0 → Yields (tlbiSrc e 0 o) s0 v s1 →
    Yields (performInval e p.2.1 (p.2.2.2 (s1.core e.c).stall v)) s1 e.npc s2 →
    exec (p.1 a o) s = .next (ended a len e.npc s s2)) ∧
  (∀ p ∈ [(Instr.tlbiStall, false, 1, invalStall), (Instr.tlbiStallLocal, true, 1, invalStall),
          (Instr.tlbiAll, false, 0, fun _ => invalAll), (Instr.tlbiAllLocal, true, 0, fun _ => invalAll)],
    ∀ (a : At) (s s0 s1 : State),
    let len := instrLen a 2 [] 0
    let e := envOf s a.core.val len
    Starts a len a.pfx.isEmpty p.2.2.1 s s0 → Yields (performInval e p.2.1 (p.2.2.2 (s0.core e.c).stall)) s0 e.npc s1 →
    exec (p.1 a) s = .next (ended a len e.npc s s1)) ∧
  (∀ (a : At) (o : Opd) (s s0 s1 s2 : State) (v : Word),
    let len := instrLen a 2 [o] 0
    let e := envOf s a.core.val len
    let n := natField v.toNat 0 9
    let t := ioInvalidate n none (decide (n = 0x1FF)) s2
    Starts a len (a.pfx.isEmpty && opdSrc o) 1 s s0 → Yields (tlbiSrc e 0 o) s0 v s1 →
    (e.pl ≠ 0 → n = (s1.core e.c).stall) → Yields (fenceAll e) s1 () s2 →
    exec (.iotlbi a o) s = .next (ended a len e.npc s (t.setCore e.c { t.core e.c with tlbiWait := true }))) ∧
  (∀ (a : At) (m o : Opd) (s s0 s1 s2 s3 : State) (va : Nat) (v : Word),
    let len := instrLen a 2 [m, o] 0
    let e := envOf s a.core.val len
    let n := natField v.toNat 0 9
    let t := ioInvalidate n (some (va / 16384)) false s3
    Starts a len (a.pfx.isEmpty && opdMem m && opdSrc o) 1 s s0 → Yields (formAddr e 0 m) s0 va s1 → Yields (tlbiSrc e 1 o) s1 v s2 →
    (e.pl ≠ 0 → n = (s2.core e.c).stall) → Yields (fenceAll e) s2 () s3 →
    exec (.iotlbiVa a m o) s = .next (ended a len e.npc s (t.setCore e.c { t.core e.c with tlbiWait := true }))) ∧
  (∀ (c : CoreId) (s t : State), (s.core c.val).tlbiWait = true → performTranslated s = some t →
    exec (.tlbiComplete c) s = .next (t.setCore c.val { t.core c.val with tlbiWait := false }))

/-- The block instructions: one element, or elements while X0 lasts and the condition of the control byte does not end the run. -/
def Obligations.BlocksComplete : Prop :=
  ∀ p ∈ [(Instr.bcopy, bcopyElem, false), (Instr.bfill, bfillElem, false), (Instr.bcmp, bcmpElem, true), (Instr.bfind, bfindElem, true)],
  ∀ (a : At) (ctl : BitVec 8) (s s0 s1 : State),
    let len := instrLen a 2 [] 1
    let e := envOf s a.core.val len
    let x0 := (s0.core e.c).arch.xReg 0
    Starts a len (a.pfx.isEmpty && ctlOk ctl p.2.2) 2 s s0 →
    (ctlRun ctl = 0 → Yields (p.2.1 ctl e) s0 () s1 → exec (p.1 a ctl) s = .next (ended a len e.npc s s1)) ∧
    (ctlRun ctl ≠ 0 → isIntTag x0.tag = true →
      Yields (blockLoop (ctlRun ctl) (p.2.1 ctl) (!p.2.2 && decide (ctlBytes ctl = 8)) e x0.data.toNat true) s0 () s1 →
      exec (p.1 a ctl) s = .next (ended a len e.npc s s1))

/-- The atomics, .d and .w, NEAR, FAR and placed by the predictor: with every older store visible and the line's home free, the line is
brought to the place of the operation, the word takes its new value there, the flags are set, and the old value goes where R236 says. -/
def Obligations.AtomicsComplete : Prop :=
  ∀ p ∈ [(Instr.xadd, AtomOp.xadd), (Instr.xchga, AtomOp.xchga), (Instr.cas, AtomOp.cas), (Instr.aadd, AtomOp.aadd),
         (Instr.aand, AtomOp.aand), (Instr.aor, AtomOp.aor), (Instr.axor, AtomOp.axor)],
  ∀ (a : At) (dbl : Bool) (m o : Opd) (s s0 s1 s2 s3 s4 s5 s6 s8 : State) (va : Nat) (x : Xlat) (ps : Place) (y : Src) (far : Bool),
    let len := instrLen a 2 [m, o] 0
    let e := envOf s a.core.val len
    let n := if dbl then 8 else 4
    let walk := (s5.core e.c).walk
    let tile := coreTile s5 e.c
    let s7 := atomFetch far e.c (coreAttr (s6.core e.c) x) (x.pa / 64) s6
    let w := readWord s7 (x.pa / 8)
    let cmp := (s7.core e.c).arch.xReg 1
    let r := atomCompute p.2 dbl (va % 8) w ⟨y.val, y.tag⟩ cmp
    Starts a len (atomLegal a p.2 m o) 2 s s0 → Yields (formAddr e 0 m) s0 va s1 →
    Yields (xlat e.c va { write := true, special := true } (fun f => xlatExc f va 0 true false false false)) s1 x s2 → va % n = 0 →
    Yields (formOpd e 1 n {} o) s2 ps s3 → Yields (fenceAll e) s3 () s4 → coreWaits s4 e.c (x.pa / 64) = false →
    Yields (readPlace e 1 n false ps) s4 y s5 →
    atomMemOk p.2 dbl w.tag = true → y.passes (atomSrcOk p.2 dbl) = true → (p.2 = .cas → dbl = false → comparable cmp.tag = true) →
    (far, s6) = (if a.pfx = [.near] then (walk, s5) else if a.pfx = [.far] ∨ walk = true then (true, s5)
                 else predictAtomic (x.pa / 64) (some tile) s5) →
    Yields (atomDeliver p.2 e n ps r.old)
      (withFlags (atomWrite far (coreAttr (s7.core e.c) x) tile (x.pa / 8) r.new s7) e.c r.flags) () s8 →
    exec (p.1 a dbl m o) s = .next (ended a len e.npc s s8)

/-- The element-wise vector instructions: every active element of the destination takes the operation's result on the sources' elements,
inactive elements stay or, with ZERO, become zero, the words take R245's tags, and the floating-point ones add sticky flags. -/
def Obligations.VectorArithmeticCompletes : Prop :=
  (∀ p ∈ [(Instr.vadd, anyEs, fun (_ x y : Nat) => x + y), (Instr.vsub, anyEs, fun es x y => x + 2 ^ es - y),
          (Instr.vand, anyEs, fun _ x y => x &&& y), (Instr.vor, anyEs, fun _ x y => x ||| y), (Instr.vxor, anyEs, fun _ x y => x ^^^ y),
          (Instr.vmul, [16, 32, 64], fun _ x y => x * y), (Instr.vshl, anyEs, fun es x y => x * 2 ^ (y % es)),
          (Instr.vshr, anyEs, fun es x y => x / 2 ^ (y % es))],
    ∀ (a : At) (d o : Opd) (s s0 s1 : State) (all : List (Nat × List TWord)),
    let len := instrLen a 2 [d, o] 0
    let e := envOf s a.core.val len
    let v := vcOf (vpByte a)
    let n := vCount v.es
    let act := activeOf s0 a
    Starts a len (vLegal a p.2.1 && isV d && vSrcOk false v.es o) 2 s s0 →
    Yields (vecRead v.es false act [(0, d)] (some (1, o)) e) s0 all s1 →
    exec (p.1 a d o) s = .next (ended a len e.npc s (withV s1 e.c (vReg d)
      (mergeReg v.es (vWords s1 e.c (vReg d)) (fun i => decide (i < n) && act i) (zeroedIn v n act)
        (fun i => let l := all.map (fun x => elemOf v.es x.2 i); p.2.2 v.es (arg l 0) (arg l 1))
        (vTag .int (all.map (·.2))))))) ∧
  (∀ p ∈ [(Instr.vfadd, fAdd), (Instr.vfsub, fSub), (Instr.vfmul, fMul)],
    ∀ (a : At) (d o : Opd) (s s0 s1 : State) (all : List (Nat × List TWord)),
    let len := instrLen a 2 [d, o] 0
    let e := envOf s a.core.val len
    let v := vcOf (vpByte a)
    let n := vCount v.es
    let act := activeOf s0 a
    let rm := swRm (s0.core e.c).arch.sw
    let res (i : Nat) : FRes :=
      let l := all.map (fun x => elemOf v.es x.2 i); p.2 (if v.es = 32 then fmtS else fmtD) rm (arg l 0) (arg l 1)
    let t := withV s1 e.c (vReg d) (mergeReg v.es (vWords s1 e.c (vReg d)) (fun i => decide (i < n) && act i) (zeroedIn v n act)
      (fun i => (res i).bits) (vTag .float (all.map (·.2))))
    Starts a len (vLegal a fpEs && isV d && vSrcOk true v.es o) 2 s s0 →
    Yields (vecRead v.es true act [(0, d)] (some (1, o)) e) s0 all s1 →
    exec (p.1 a d o) s = .next (ended a len e.npc s
      (t.setArch e.c (fun b => { b with sw := (actives n act).foldl (fun sw i => addFpf (res i).flags sw) b.sw })))) ∧
  (∀ (a : At) (d x o : Opd) (s s0 s1 : State) (all : List (Nat × List TWord)),
    let len := instrLen a 2 [d, x, o] 0
    let e := envOf s a.core.val len
    let v := vcOf (vpByte a)
    let n := vCount v.es
    let act := activeOf s0 a
    let rm := swRm (s0.core e.c).arch.sw
    let res (i : Nat) : FRes :=
      let l := all.map (fun x => elemOf v.es x.2 i); fMulAdd (if v.es = 32 then fmtS else fmtD) rm (arg l 0) (arg l 1) (arg l 2)
    let t := withV s1 e.c (vReg d) (mergeReg v.es (vWords s1 e.c (vReg d)) (fun i => decide (i < n) && act i) (zeroedIn v n act)
      (fun i => (res i).bits) (vTag .float (all.map (·.2))))
    Starts a len (vLegal a fpEs && isV d && isV x && vSrcOk true v.es o) 2 s s0 →
    Yields (vecRead v.es true act [(0, d), (1, x)] (some (2, o)) e) s0 all s1 →
    exec (.vfma a d x o) s = .next (ended a len e.npc s
      (t.setArch e.c (fun b => { b with sw := (actives n act).foldl (fun sw i => addFpf (res i).flags sw) b.sw })))) ∧
  (∀ p ∈ [(fun (a : At) (d _ o : Opd) => Instr.vgfmul a d o, fun (d _ o : Opd) => ([d, o], [(0, d)], some (1, o)),
            fun (_ : Opd) (o : Opd) => vSrcOk false 8 o, fun (l : List Nat) => gf8 (arg l 0) (arg l 1)),
          (fun a d x o => Instr.vgfmac a d x o, fun d x o => ([d, x, o], [(0, d), (1, x)], some (2, o)),
            fun x o => isV x && gfCoeffOk o, fun l => arg l 0 ^^^ gf8 (arg l 2) (arg l 1)),
          (fun a d x _ => Instr.vgfinv a d x, fun d x _ => ([d, x], [(1, x)], none),
            fun x _ => isV x, fun l => (gf8Inv (BitVec.ofNat 8 (arg l 0))).toNat)],
    ∀ (a : At) (d x o : Opd) (s s0 s1 : State) (all : List (Nat × List TWord)),
    let q := p.2.1 d x o
    let len := instrLen a 2 q.1 0
    let e := envOf s a.core.val len
    let v := vcOf (vpByte a)
    let act := activeIn (s0.core e.c).arch v 64
    Starts a len (vLegal a anyEs && isV d && p.2.2.1 x o) 2 s s0 →
    Yields (vecRead 8 false act q.2.1 q.2.2 e) s0 all s1 →
    exec (p.1 a d x o) s = .next (ended a len e.npc s (withV s1 e.c (vReg d)
      (mergeReg 8 (vWords s1 e.c (vReg d)) (fun i => decide (i < 64) && act i) (zeroedIn v 64 act)
        (fun i => p.2.2.2 (all.map (fun y => elemOf 8 y.2 i))) (vTag .int (all.map (·.2)))))))

/-- The vector compares write a predicate register: each active element's bit is the relation, inactive bits stay or, with ZERO, are zero. -/
def Obligations.VectorComparesComplete : Prop :=
  ∀ p ∈ [(Instr.vcmpeq, false, anyEs, fun (_ x y : Nat) => (decide (x = y), ({} : FFlags))),
         (Instr.vcmplt, false, anyEs, fun es x y => (decide (sInt es x < sInt es y), {})),
         (Instr.vcmpltu, false, anyEs, fun _ x y => (decide (x < y), {})),
         (Instr.vfcmplt, true, fpEs, fun es x y =>
           let r := fCompare (if es = 32 then fmtS else fmtD) x y
           (decide (r.1 = .lt), { invalid := r.2 }))],
  ∀ (a : At) (x o : Opd) (k : BitVec 8) (s s0 s1 s2 : State) (src : VSrc) (ys : List TWord),
    let len := instrLen a 2 [x, o] 1
    let e := envOf s a.core.val len
    let v := vcOf (vpByte a)
    let n := vCount v.es
    let act := activeOf s0 a
    let xs := vWords s1 e.c (vReg x)
    let r (i : Nat) := p.2.2.2 v.es (elemOf v.es xs i) (elemOf v.es ys i)
    let new := (List.range n).foldl (fun m i => if act i then setBit m i (r i).1 else if v.zero then setBit m i false else m)
      ((s0.core e.c).arch.kReg k.toNat)
    Starts a len (vLegal a p.2.2.1 && isV x && vSrcOk p.2.1 v.es o && kOk k true) 2 s s0 →
    Yields (formVSrc e 1 p.2.1 v.es (actives n act) o) s0 src s1 → Yields (readVSrc e 1 v.es n act src) s1 ys s2 →
    Yields (do checkVec 0 v.es act (if p.2.1 then isFpTag else isIntTag) xs; checkVec 1 v.es act (if p.2.1 then isFpTag else isIntTag) ys)
      s2 () s2 →
    exec (p.1 a x o k) s = .next (ended a len e.npc s (s2.setArch e.c (fun b =>
      { b.setK k.toNat new with sw := if p.2.1 then (actives n act).foldl (fun sw i => addFpf (r i).2 sw) b.sw else b.sw })))

/-- Vector memory accesses: VLD and the gathers load the active elements, VST and VSCATTER store them; a gather or scatter that works
through every element leaves VRI 0, one that starts at or beyond its last active element changes nothing else; a first-fault gather that
stops after its first element completes with FFM naming what it loaded. -/
def Obligations.VectorMemoryCompletes : Prop :=
  (∀ (a : At) (d m : Opd) (s s0 s1 s2 : State) (acc : VAcc) (ws : List TWord),
    let len := instrLen a 2 [d, m] 0
    let e := envOf s a.core.val len
    let v := vcOf (vpByte a)
    let n := vCount v.es
    let act := activeOf s0 a
    Starts a len (vLegal a anyEs && isV d && opdMem m) 2 s s0 →
    Yields (formVec e 1 m v.es (actives n act) false) s0 acc s1 → Yields (loadVec e 1 acc v.es n act) s1 ws s2 →
    exec (.vld a d m) s = .next (ended a len e.npc s (withV s2 e.c (vReg d)
      (mergeReg v.es (vWords s2 e.c (vReg d)) (fun i => decide (i < n) && act i) (zeroedIn v n act) (elemOf v.es ws)
        (fun w => (ws.getD w ⟨0, .int⟩).tag))))) ∧
  (∀ (a : At) (m o : Opd) (s s0 s1 s2 : State) (acc : VAcc),
    let len := instrLen a 2 [m, o] 0
    let e := envOf s a.core.val len
    let v := vcOf (vpByte a)
    let n := vCount v.es
    let act := activeOf s0 a
    let ws := vWords s1 e.c (vReg o)
    Starts a len (vLegal a anyEs && opdMem m && isV o) 2 s s0 →
    Yields (formVec e 0 m v.es (actives n act) true) s0 acc s1 → Yields (checkVec 1 v.es act loadable ws) s1 () s1 →
    Yields (storeVec e acc v.es n act ws) s1 () s2 →
    exec (.vst a m o) s = .next (ended a len e.npc s s2)) ∧
  (∀ (a : At) (d b ix : Opd) (scale : BitVec 8) (s s0 s1 : State) (g : Gathered),
    let len := instrLen a 2 [d, b, ix] 1
    let e := envOf s a.core.val len
    let v := vcOf (vpByte a)
    let n := vCount v.es
    let act := activeOf s0 a
    let start := (s0.core e.c).arch.vri.toNat
    let idx := vWords s0 e.c (vReg ix)
    Starts a len (gatherLegal a false d b ix scale) 2 s s0 →
    (pastLast n act start = true → exec (.vgather a d b ix scale) s =
      .next (ended a len e.npc s (s0.setArch e.c (fun c => { c with vri := 0 })))) ∧
    (pastLast n act start = false →
    Yields (gatherLoop e (fun i => gatherLoad e v.es i ((pReg b).getD 0) idx scale) act true start start (n - start) []) s0 g s1 →
    g.stop = none →
    exec (.vgather a d b ix scale) s =
      .next (ended a len e.npc s ((withV s1 e.c (vReg d) (gatherMerge v n start act g (vWords s0 e.c (vReg d)))).setArch e.c
        (fun c => { c with vri := 0 }))))) ∧
  (∀ (a : At) (d b ix : Opd) (scale : BitVec 8) (s s0 s1 : State) (g : Gathered),
    let len := instrLen a 2 [d, b, ix] 1
    let e := envOf s a.core.val len
    let v := vcOf (vpByte a)
    let n := vCount v.es
    let act := activeOf s0 a
    let idx := vWords s0 e.c (vReg ix)
    let merged := gatherMerge v n 0 act g (vWords s0 e.c (vReg d))
    Starts a len (gatherLegal a true d b ix scale) 2 s s0 →
    Yields (gatherLoop e (fun i => gatherLoad e v.es i ((pReg b).getD 0) idx scale) act false 0 0 n []) s0 g s1 →
    (g.stop = none → exec (.vgatherFf a d b ix scale) s =
      .next (ended a len e.npc s ((withV s1 e.c (vReg d) merged).setArch e.c
        (fun c => { c with vri := 0, ffm := (actives n act).foldl (fun m i => setBit m i true) 0 })))) ∧
    ((∃ x, g.stop = some (.exc x)) → g.vals ≠ [] → exec (.vgatherFf a d b ix scale) s =
      .next (ended a len e.npc s (withV (s1.setArch e.c
        (fun c => { c with vri := 0, ffm := g.vals.foldl (fun m y => setBit m y.1 true) 0 })) e.c (vReg d) merged)))) ∧
  (∀ (a : At) (b ix o : Opd) (scale : BitVec 8) (s s0 s1 : State) (g : Gathered),
    let len := instrLen a 2 [b, ix, o] 1
    let e := envOf s a.core.val len
    let v := vcOf (vpByte a)
    let n := vCount v.es
    let act := activeOf s0 a
    let start := (s0.core e.c).arch.vri.toNat
    Starts a len (gatherLegal a false o b ix scale) 2 s s0 →
    (pastLast n act start = true → exec (.vscatter a b ix o scale) s =
      .next (ended a len e.npc s (s0.setArch e.c (fun c => { c with vri := 0 })))) ∧
    (pastLast n act start = false →
    Yields (gatherLoop e (fun k => scatterStore e v.es k ((pReg b).getD 0) (vWords s0 e.c (vReg ix)) (vWords s0 e.c (vReg o)) scale)
      act true start start (n - start) []) s0 g s1 → g.stop = none →
    exec (.vscatter a b ix o scale) s = .next (ended a len e.npc s (s1.setArch e.c (fun c => { c with vri := 0 })))))

/-- Permutes, broadcasts and the vector control registers. -/
def Obligations.VectorControlCompletes : Prop :=
  (∀ (a : At) (d x ix : Opd) (s s0 : State),
    let len := instrLen a 2 [d, x, ix] 0
    let e := envOf s a.core.val len
    let v := vcOf (vpByte a)
    let n := vCount v.es
    let act := activeOf s0 a
    let xs := vWords s0 e.c (vReg x)
    let is := vWords s0 e.c (vReg ix)
    Starts a len (vLegal a anyEs && isV d && isV x && isV ix) 2 s s0 →
    Yields (do checkVec 1 v.es act isIntTag xs; checkVec 2 v.es act isIntTag is) s0 () s0 →
    exec (.vperm a d x ix) s = .next (ended a len e.npc s (withV s0 e.c (vReg d)
      (mergeReg v.es (vWords s0 e.c (vReg d)) (fun k => decide (k < n) && act k) (zeroedIn v n act)
        (fun k => elemOf v.es xs (elemOf v.es is k % n)) (permTag v.es n act xs is))))) ∧
  (∀ (a : At) (d o : Opd) (s s0 s1 s2 : State) (ps : Place) (y : Src),
    let len := instrLen a 2 [d, o] 0
    let e := envOf s a.core.val len
    let v := vcOf (vpByte a)
    let n := vCount v.es
    let act := activeOf s0 a
    Starts a len (vLegal a anyEs && isV d && opdSrc o) 2 s s0 →
    Yields (formOpd e 1 (v.es / 8) {} o) s0 ps s1 → Yields (readPlace e 1 (v.es / 8) false ps) s1 y s2 → y.passes isIntTag = true →
    exec (.vbcast a d o) s = .next (ended a len e.npc s (withV s2 e.c (vReg d)
      (mergeReg v.es (vWords s2 e.c (vReg d)) (fun k => decide (k < n) && act k) (zeroedIn v n act) (fun _ => y.val.toNat)
        (fun _ => intTag y.tag y.tag))))) ∧
  (∀ (a : At) (d o : Opd) (s s0 s1 s2 : State) (pd ps : Place) (y : Src),
    let len := instrLen a 2 [d, o] 0
    let e := envOf s a.core.val len
    let vl := min y.val.toNat (vCount (vcOf (vpByte a)).es)
    Starts a len (vLegal a anyEs && opdDst d && opdSrc o) 2 s s0 →
    Yields (destSource e 8 8 false d o) s0 (pd, ps, y) s1 → y.passes isIntTag = true →
    Yields (writePlace e 8 pd (BitVec.ofNat 64 vl) .int) (s1.setArch e.c (fun b => { b with vl := BitVec.ofNat 7 vl })) () s2 →
    exec (.vsetvl a d o) s = .next (ended a len e.npc s s2)) ∧
  (∀ (a : At) (k : BitVec 8) (o : Opd) (s s0 s1 : State) (ps : Place) (y : Src),
    let len := instrLen a 2 [o] 1
    let e := envOf s a.core.val len
    Starts a len (vLegal a anyEs && kOk k true && opdSrc o) 2 s s0 → Yields (oneRead e 8 {} false o) s0 (ps, y) s1 →
    y.passes isIntTag = true →
    exec (.mtk a k o) s = .next (ended a len e.npc s (s1.setArch e.c (fun b => b.setK k.toNat y.val)))) ∧
  (∀ (a : At) (d : Opd) (k : BitVec 8) (s s0 s1 s2 : State) (pd : Place),
    let len := instrLen a 2 [d] 1
    let e := envOf s a.core.val len
    Starts a len (vLegal a anyEs && kOk k false && opdDst d) 2 s s0 → Yields (formOpd e 0 8 { write := true } d) s0 pd s1 →
    Yields (writePlace e 8 pd ((s1.core e.c).arch.kReg k.toNat) .int) s1 () s2 →
    exec (.mfk a d k) s = .next (ended a len e.npc s s2)) ∧
  (∀ (a : At) (r : BitVec 8) (o : Opd) (s s0 s1 : State) (ps : Place) (y : Src),
    let len := instrLen a 2 [o] 1
    let e := envOf s a.core.val len
    Starts a len (vLegal a anyEs && decide (r.toNat < 3) && opdSrc o) 2 s s0 → Yields (oneRead e 8 {} false o) s0 (ps, y) s1 →
    y.passes (fun t => decide (t = .int)) = true →
    exec (.mtvs a r o) s = .next (ended a len e.npc s (s1.setArch e.c (fun b =>
      if r = 0 then { b with vl := BitVec.ofNat 7 (min y.val.toNat 64) }
      else if r = 1 then { b with vri := BitVec.ofNat 6 (min y.val.toNat 63) } else { b with ffm := y.val })))) ∧
  (∀ (a : At) (d : Opd) (r : BitVec 8) (s s0 s1 s2 : State) (pd : Place),
    let len := instrLen a 2 [d] 1
    let e := envOf s a.core.val len
    let b := (s1.core e.c).arch
    Starts a len (vLegal a anyEs && decide (r.toNat < 3) && opdDst d) 2 s s0 → Yields (formOpd e 0 8 { write := true } d) s0 pd s1 →
    Yields (writePlace e 8 pd (if r = 0 then b.vl.setWidth 64 else if r = 1 then b.vri.setWidth 64 else b.ffm) .int) s1 () s2 →
    exec (.mfvs a d r) s = .next (ended a len e.npc s s2))

/-! ## The rein profile -/

/-- The rein loads, stores and arithmetic: GETx loads a register at the end of the next instruction, or at once from an immediate; PUTx
stores; ADD to XOR write A and its flags; CMP its flags; shifts, steps and COPY write their registers. -/
def Obligations.ReinDataCompletes : Prop :=
  (∀ p ∈ [(Instr.reinGeta, (0 : Fin 3), 8, true), (Instr.reinGetx, 1, 8, true), (Instr.reinGety, 2, 8, true), (Instr.reinGetb, 0, 1, false),
          (Instr.reinGetw, 0, 4, false)],
    ∀ (i : Rein) (s s0 s1 : State) (v : Word),
    let r := reinAt i s
    ReinStarts i (p.2.2.2 || memMode i) false (p.2.1.val :: modeUses i.mode) s s0 → RYields (rOperand i p.2.2.1 r) s0 v s1 →
    exec (p.1 i) s = .next (rRetire i.pair.val (s.reinOf i.pair.val).load (rSeq r)
      (withRein s1 i.pair.val (fun g => if i.mode = 0 then g.setReg p.2.1.val v else { g with load := some (p.2.1, v) })))) ∧
  (∀ p ∈ [(Instr.reinPuta, 0, 8), (Instr.reinPutx, 1, 8), (Instr.reinPuty, 2, 8), (Instr.reinPutb, 0, 1), (Instr.reinPutw, 0, 4)],
    ∀ (i : Rein) (s s0 s1 : State),
    let r := reinAt i s
    ReinStarts i (memMode i) false (p.2.1 :: modeUses i.mode) s s0 → RYields (rStore (rAddr i r) p.2.2 (r.reg p.2.1)) s0 () s1 →
    exec (p.1 i) s = .next (rRetire i.pair.val (s.reinOf i.pair.val).load (rSeq r) s1)) ∧
  (∀ p ∈ [(Instr.reinAdd, Alu.add), (Instr.reinSub, Alu.sub), (Instr.reinAnd, Alu.and), (Instr.reinOr, Alu.or), (Instr.reinXor, Alu.xor)],
    ∀ (i : Rein) (s s0 s1 : State) (y : Word),
    let r := reinAt i s
    let z := alu p.2 64 r.a.toNat y.toNat false false
    ReinStarts i true false (0 :: modeUses i.mode) s s0 → RYields (rOperand i 8 r) s0 y s1 →
    exec (p.1 i) s = .next (rRetire i.pair.val (s.reinOf i.pair.val).load (rSeq r)
      (withRein (withRein s1 i.pair.val (fun g => { g with a := BitVec.ofNat 64 z.val })) i.pair.val
        (fun g => { g with sw := z.flags.apply g.sw })))) ∧
  (∀ (i : Rein) (s s0 s1 : State) (y : Word),
    let r := reinAt i s
    ReinStarts i true false (0 :: modeUses i.mode) s s0 → RYields (rOperand i 8 r) s0 y s1 →
    exec (.reinCmp i) s = .next (rRetire i.pair.val (s.reinOf i.pair.val).load (rSeq r)
      (withRein s1 i.pair.val (fun g => { g with sw := (alu .sub 64 r.a.toNat y.toNat false false).flags.apply g.sw })))) ∧
  (∀ p ∈ [(Instr.reinShl, Alu.shl), (Instr.reinShr, Alu.shr)], ∀ (i : Rein) (s s0 : State),
    let r := reinAt i s
    let k := i.field.toNat % 64
    let z := alu p.2 64 r.a.toNat k false ((freeValue s0).getLsbD 0)
    let s1 := if k = 0 then s0.took else s0
    ReinStarts i (subField i 6) false [0] s s0 →
    exec (p.1 i) s = .next (rRetire i.pair.val (s.reinOf i.pair.val).load (rSeq r)
      (withRein (withRein s1 i.pair.val (fun g => { g with a := BitVec.ofNat 64 z.val })) i.pair.val
        (fun g => { g with sw := z.flags.apply g.sw })))) ∧
  (∀ p ∈ [(Instr.reinStepx, 1, true), (Instr.reinStepy, 2, true), (Instr.reinStepsp, 3, false)], ∀ (i : Rein) (s s0 : State),
    let r := reinAt i s
    let v := r.reg p.2.1 + rDisp i
    let s1 := withRein s0 i.pair.val (fun g => g.setReg p.2.1 v)
    ReinStarts i (immMode i) false [p.2.1] s s0 →
    exec (p.1 i) s = .next (rRetire i.pair.val (s.reinOf i.pair.val).load (rSeq r)
      (if p.2.2 then withRein s1 i.pair.val (fun g => { g with sw := (zn 64 v.toNat).apply g.sw }) else s1))) ∧
  (∀ (i : Rein) (s s0 : State),
    let r := reinAt i s
    let d := natField i.field.toNat 0 4
    let y := natField i.field.toNat 4 4
    ReinStarts i (subField i 8 && decide (d < 4) && decide (y < 4)) false [d, y] s s0 →
    exec (.reinCopy i) s = .next (rRetire i.pair.val (s.reinOf i.pair.val).load (rSeq r)
      (withRein s0 i.pair.val (fun g => g.setReg d (r.reg y))))) ∧
  (∀ p ∈ [Instr.reinNop, Instr.reinFence], ∀ (i : Rein) (s s0 : State),
    ReinStarts i (subField i 0) false [] s s0 →
    exec (p i) s = .next (rRetire i.pair.val (s.reinOf i.pair.val).load (rSeq (reinAt i s)) s0))

/-- The rein branches, control registers, traps and waiting: delayed branches with their slots, CALLD's push, RETD's pop, MFCR and MTCR
of A, SVC and BRK taken after the instruction, ERET's restore, and WFI. -/
def Obligations.ReinControlCompletes : Prop :=
  (∀ (i : Rein) (s s0 : State),
    let r := reinAt i s
    let c := rCond i
    ReinStarts i (decide (c ≠ 15)) true [] s s0 →
    exec (.reinBcc i) s = .next (rRetire i.pair.val (s.reinOf i.pair.val).load
      (rBcc (decide (c = 14) || condition c r.sw) (i.mode.getLsbD 1) (decide (c = 14)) (rTarget i r) r) s0)) ∧
  (∀ (i : Rein) (s s0 s1 : State),
    let r := reinAt i s
    ReinStarts i (subField i 21) true [3] s s0 → RYields (rStore (r.sp - 8).toNat 8 (r.pc + 8)) s0 () s1 →
    exec (.reinCalld i) s = .next (rRetire i.pair.val (s.reinOf i.pair.val).load (rBranch r (rTarget i r))
      (withRein s1 i.pair.val (fun g => { g with sp := r.sp - 8 })))) ∧
  (∀ (i : Rein) (s s0 : State),
    let r := reinAt i s
    ReinStarts i (subField i 0) true [0] s s0 → r.a.toNat % 4 = 0 →
    exec (.reinJumpa i) s = .next (rRetire i.pair.val (s.reinOf i.pair.val).load (rBranch r r.a) s0)) ∧
  (∀ (i : Rein) (s s0 s1 : State) (t : Word),
    let r := reinAt i s
    ReinStarts i (subField i 0) true [3] s s0 → RYields (rLoad r.sp.toNat 8) s0 t s1 →
    exec (.reinRetd i) s = .next (rRetire i.pair.val (s.reinOf i.pair.val).load (rBranch r t)
      (withRein s1 i.pair.val (fun g => { g with sp := r.sp + 8 })))) ∧
  (∀ (i : Rein) (s s0 : State),
    let r := reinAt i s
    let n := natField i.field.toNat 0 8
    let q := rCrRead i.pair.val n s0
    ReinStarts i (subField i 8 && (rCrRights n).1) false [0] s s0 →
    exec (.reinMfcr i) s = .next (rRetire i.pair.val (s.reinOf i.pair.val).load (rSeq r)
      (withRein q.2 i.pair.val (fun g => { g with a := q.1 })))) ∧
  (∀ (i : Rein) (s s0 : State),
    let r := reinAt i s
    let n := natField i.field.toNat 0 8
    let q := rCrWrite i.pair.val n r.a s0
    ReinStarts i (subField i 8 && (rCrRights n).2) false [0] s s0 → (n = 0x10 → r.a.toNat % 4096 = 0) → q.1 = false →
    exec (.reinMtcr i) s = .next (rRetire i.pair.val (s.reinOf i.pair.val).load (rSeq r) q.2)) ∧
  (∀ p ∈ [(Instr.reinSvc, 8, 0x0F, true), (Instr.reinBrk, 0, 0x0D, false)], ∀ (i : Rein) (s s0 : State),
    let r := s.reinOf i.pair.val
    ReinStarts i (subField i p.2.1) false [] s s0 →
    exec (p.1 i) s = .next (rTake i.pair.val
      { code := p.2.2.1, next := true, eaddr := r.pc.toNat, einfo := if p.2.2.2 then natField i.field.toNat 0 8 else 0 } r.npc (r.npc + 4)
      (withRein s0 i.pair.val (fun g => g.land r.load)))) ∧
  (∀ (i : Rein) (s s0 : State),
    let r := reinAt i s
    ReinStarts i (subField i 0) false [] s s0 →
    exec (.reinEret i) s = .next (rRetire i.pair.val (s.reinOf i.pair.val).load
      { pc := r.epc, npc := r.enpc, slot := decide (r.enpc ≠ r.epc + 4) }
      (withRein s0 i.pair.val (fun g => { g with sw := g.esw &&& rSwMask })))) ∧
  (∀ (i : Rein) (s s0 : State),
    ReinStarts i (subField i 0) false [] s s0 →
    exec (.reinWfi i) s = .next (rRetire i.pair.val (s.reinOf i.pair.val).load (rSeq (reinAt i s))
      (withRein s0 i.pair.val (fun g => { g with waiting := true }))))

/-! ## Caches and coherence -/

/-- Requests of tiles, DMA and maintenance join the queue of their home slice, or wait for a credit, those of one cycle in rotating order; a
tile with an outstanding miss free notes the request, an atomic that may be placed near with its operands; an EVICT takes its line into the
write-back buffer, and nothing else of the homes or of memory changes. The order within a cycle is the model's reading (log entry 175). -/
def Obligations.HomeRequestsComplete : Prop :=
  (∀ p ∈ [(Instr.rdShr, HomeOp.rdShr, 1), (Instr.rdOwn, HomeOp.rdOwn, 2), (Instr.upgrade, HomeOp.upgrade, 3), (Instr.rdNi, HomeOp.rdNi, 4)],
    ∀ (r : Req) (s : State), missRoom r s = true → (p.2.2 = 4 → specRoom r s = true) → Completes (p.1 r) s (fun t => Queued r p.2.1 s t ∧
      ∀ k, stopTile r.src.toNat = some k → (t.tile k).misses =
        (s.tile k).misses ++ [{ line := lineOf r.pa, op := p.2.2, l1 := decide (r.traffic ≠ .bulk) }])) ∧
  (∀ p ∈ [(Instr.rdUc, HomeOp.rdUc), (Instr.zero, HomeOp.zero), (Instr.clear, HomeOp.clear), (Instr.mClean, HomeOp.mClean),
          (Instr.mCleaninv, HomeOp.mCleaninv), (Instr.mDiscard, HomeOp.mDiscard)],
    ∀ (r : Req) (s : State), Completes (p.1 r) s (Queued r p.2 s)) ∧
  (∀ (r : Req) (subs : BitVec 4) (s : State), Completes (.dmaRd r subs) s (Queued r (.dmaRd subs) s)) ∧
  (∀ (r : Req) (k : Fin 4) (mask : BitVec 64) (data : BitVec 512) (tags : List Tag) (s : State),
    Completes (.wrUc r k mask data tags) s (Queued r (.wrUc k mask data tags) s) ∧
    Completes (.dmaWr r k mask data tags) s (Queued r (.dmaWr k mask data tags) s)) ∧
  (∀ (r : Req) (data : List Word) (tags : List Tag) (sl : Word) (s : State),
    Completes (.spanWr r data tags sl) s (Queued r (.spanWr data tags sl) s)) ∧
  (∀ (r : Req) (op : AtomOp) (dbl : Bool) (v c : TWord) (s : State),
    Completes (.atomic r op dbl v c) s (Queued r (.atomic false op dbl v c) s) ∧
    (missRoom r s = true → Completes (.atomicAny r op dbl v c) s (fun t => Queued r (.atomic true op dbl v c) s t ∧
      ∀ k, stopTile r.src.toNat = some k → (t.tile k).misses = (s.tile k).misses ++ [{
        line := lineOf r.pa, op := 5, l1 := decide (r.traffic ≠ .bulk),
        atom := some { pa := r.pa, op := op, dbl := dbl, v := v, cmp := c } }]))) ∧
  (∀ (r : Req) (dirty : Bool) (k : Nat) (st : L2State) (s : State), stopTile r.src.toNat = some k → l2State s k (lineOf r.pa) = some st →
    (s.tile k).wb.length < 16 → (∀ e ∈ (s.tile k).wb, e.line ≠ lineOf r.pa) → flushFrame k (lineOf r.pa) s = none →
    Completes (.evict r dirty) s (fun t => Queued r (.evict (decide (st = .m ∨ st = .o))) s t ∧
      (t.tile k).wb = (s.tile k).wb ++ [{ line := lineOf r.pa, txn := r.txn, dirty := decide (st = .m ∨ st = .o) }])) ∧
  (∀ (r : Req) (dirty : Bool) (s : State), stopTile r.src.toNat = none → Completes (.evict r dirty) s (Queued r (.evict dirty) s))

/-- A home admits the requests whose credits have returned and takes the first of its queue that may start and whose lines are not busy;
a snoop, a grant, an answer, a write-back or a fill that is outstanding arrives and has the effect of R266–R275 on its tile or its home. -/
def Obligations.CoherencePacketsComplete : Prop :=
  (∀ (k : SliceId) (cycle : Nat) (q : HomeReq) (rest : List HomeReq) (s : State),
    let s1 := admitReqs s.coh.waiting.length k.val (retryEntry k.val s)
    let l := (s1.slice k.val).queue
    sliceUp s1 k.val = true → pickReq s1 (mayLookUp s1 cycle l) [] l = some (q, rest) →
    exec (.homeLookup ⟨k, cycle⟩) s = .next (startTxn k.val q (s1.setSlice k.val { s1.slice k.val with queue := rest }))) ∧
  (∀ x ∈ [(Instr.snpShr, Snoop.shr), (Instr.snpInv, Snoop.inv), (Instr.snpClean, Snoop.clean)],
    ∀ (k : SliceId) (pa : BitVec 52) (p : Pkt) (s s1 : State), snoopSent s k.val (lineOf pa) = true →
    splitWaits s k.val (lineOf pa) = false → napWaits k.val (lineOf pa) s = false → (∀ y ∈ s.coh.net, y.stop = tileStop k.val → y.line = lineOf pa → ∀ st d w, y.kind = .gnt st d w → st = 3) →
    takePkt (tileStop k.val) (lineOf pa) (fun y => decide (y = snoopKind x.2)) s = some (p, s1) →
    let a := snoopTile x.2 k.val (lineOf pa) (if x.2 = .inv then dropSpecFill k.val (lineOf pa) s1 else s1)
    exec (x.1 k pa) s = .next (sendPkt { stop := tileStop k.val, line := lineOf pa, kind := a.1.packet, ref := p.ref, txn := p.txn } a.2)) ∧
  (∀ (stop : BitVec 8) (pa : BitVec 52) (t : Nat) (st : BitVec 2) (d : Bool) (w : Option Word) (p : Pkt) (m : Option Miss)
     (s s1 s2 s3 : State), stopTile stop.toNat = some t →
    takePkt stop.toNat (lineOf pa) PktKind.isGnt s = some (p, s1) → p.kind = .gnt st d w → takeMiss t (lineOf pa) s1 = (m, s2) →
    (st ≠ 3 → (∀ x, m = some x → x.noInstall = false) →
      installGrant t (lineOf pa) (grantState st (l2State s2 t (lineOf pa)))
        (if m.isSome then specInstalled t (lineOf pa) p.data s2 else s2) = some s3 →
      exec (.gnt stop pa) s = .next (performGranted stop.toNat t (lineOf pa) p st m s3)) ∧
    (st ≠ 3 → (∃ x, m = some x ∧ x.noInstall = true) → exec (.gnt stop pa) s = .next (deliverData stop.toNat p.data s2)) ∧
    (st = 3 → (∀ x, m = some x → x.op ≠ 4 ∨ x.noInstall = true) → exec (.gnt stop pa) s = .next (deliverData stop.toNat p.data s2)) ∧
    (∀ c, st = 3 → (∃ x, m = some x ∧ x.op = 4 ∧ x.noInstall = false) → tileCore s2 t = some c →
      exec (.gnt stop pa) s = .next (deliverData stop.toNat p.data
        (s2.setCore c { s2.core c with specFill := (s2.core c).specFill.set (lineOf pa) p.data })))) ∧
  (∀ (k : SliceId) (pa : BitVec 52) (p : Pkt) (s s1 : State),
    takePkt (tileStop k.val) (lineOf pa) (fun y => decide (y = .retry)) s = some (p, s1) →
    exec (.retry k pa) s =
      .next (countUncore (0x080 + homeSlice s (secOf pa)) 0x004 1 (takeMiss k.val (lineOf pa) s1).2)) ∧
  (∀ (k : SliceId) (pa : BitVec 52) (p : Pkt) (s s1 : State),
    let wb := (s1.tile k.val).wb.filter (fun e => decide (e.line ≠ lineOf pa))
    (takePkt (tileStop k.val) (lineOf pa) (fun y => decide (y = .wbPull)) s = some (p, s1) →
      exec (.wbPull k pa) s = .next (sendPkt { stop := tileStop k.val, line := lineOf pa, kind := .wbData, ref := p.ref }
        (s1.setTile k.val { s1.tile k.val with wb := wb }))) ∧
    (takePkt (tileStop k.val) (lineOf pa) (fun y => decide (y = .evictAck)) s = some (p, s1) →
      exec (.evictAck k pa) s = .next (s1.setTile k.val { s1.tile k.val with wb := wb }))) ∧
  (∀ (stop : BitVec 8) (pa : BitVec 52) (p : Pkt) (s s1 : State),
    takePkt stop.toNat (lineOf pa) (fun y => decide (y = .done)) s = some (p, s1) →
    exec (.done stop pa) s = .next (deliverData stop.toNat p.data (dropAtom stop.toNat p s1))) ∧
  (∀ x ∈ [(Instr.ack, PktKind.isAck), (Instr.gone, fun y => decide (y = .gone))],
    ∀ (k : SliceId) (pa : BitVec 52) (p : Pkt) (s s1 : State), takePkt (tileStop k.val) (lineOf pa) x.2 s = some (p, s1) →
    exec (x.1 k pa) s = .next (answerArrives k.val (lineOf pa) x.2 s)) ∧
  (∀ (k : SliceId) (pa : BitVec 52) (p : Pkt) (s s1 : State),
    let a : Attr := { stall := ((tileCore s1 k.val).map (coreStall s1)).getD 0 }
    let s2 := settleLine a (lineOf pa) s1
    takePkt (tileStop k.val) (lineOf pa) (fun y => decide (y = .wbData)) s = some (p, s1) → fillPending s1 (lineOf pa / 4) = false →
    exec (.wbData k pa) s = .next (updateTxn (lineOf pa) (fun x => { x with wbLines := x.wbLines.erase (lineOf pa), gone := (k.val, lineOf pa) :: x.gone })
      (((dirEntry s2 (lineOf pa)).map (fun d => putEntry (lineOf pa) (entryWithout d k.val) s2)).getD s2))) ∧
  (∀ (pa : BitVec 52) (x : Txn) (s : State),
    (s.slice (homeSlice s (secOf pa))).busy.find? (fun y => y.lines.contains (lineOf pa) && y.needFill) = some x → x.hr.op ≠ .rdNi →
    readUnderWay s (pa.toNat / 256) = false →
    exec (.memoryFill pa) s = .next (updateTxn (lineOf pa) (fun y => { y with needFill := false, filled := true })
      (x.lines.foldl (fun st l => fillLine (reqAttr x.hr.req) l st) s)))

/-- What a tile does beside packets: an unknown operation is counted; the oldest store is written; an enabled prefetcher brings a line; a
core enters Walk with empty caches and leaves it; CORE_MODE is applied at a boundary. -/
def Obligations.TileEventsComplete : Prop :=
  (∀ (k : SliceId) (op : BitVec 8) (s : State), knownOp op.toNat = false →
    exec (.protocolError k op) s = .next (odBump (0x5101 + k.val) 0x07 s)) ∧
  (∀ (c : CoreId) (en : StoreEntry) (r : List StoreEntry) (s : State), (s.core c.val).storeBuf = en :: r →
    (∀ l ∈ storeLines en, lineReady c.val l s = true) →
    let s1 := (storeLines en).foldl (fun st l => storeLine c.val en l st) s
    exec (.storeBufferWrite c) s = .next (s1.setCore c.val { s1.core c.val with storeBuf := r })) ∧
  (∀ (c : CoreId) (pa : BitVec 52) (l2 : Bool) (s : State), coreRuns s c.val = true → (s.core c.val).walk = false →
    (s.core c.val).modeNow.getLsbD (if l2 then 2 else 1) = true →
    (if l2 then (s.core c.val).streamsL2 else (s.core c.val).streamsL1).contains (lineOf pa / 256) = true → region s pa.toNat = .normal → coreWaits s c.val (lineOf pa) = false →
    let s1 := acquireShared { stall := (s.core c.val).stall } (coreTile s c.val) (lineOf pa) s
    exec (.prefetchIssue c pa l2) s =
      .next (if l2 then s1
             else s1.setCore c.val { s1.core c.val with l1d := l1Insert (s1.core c.val).l1d (lineOf pa) s1.free })) ∧
  (∀ (c : CoreId) (s s1 : State), drainStores c.val s = some s1 → (s1.core c.val).walk = false →
    tileQuiet s1 (coreTile s1 c.val) = true →
    let s2 := flushTile (coreTile s1 c.val) s1 (renamed (s1.core c.val))
    let p := s2.corePwr c.val
    let s3 := s2.setCorePwr c.val { grant := if p.grant = 2 then 1 else p.grant, gait := if p.gait = 2 then 1 else p.gait }
    exec (.walkEnter c) s = .next (gaitEval (s3.setCore c.val
      { s3.core c.val with walk := true, l1i := [], l1d := [], specFill := [], returnStack := [], btb := [], direction := [] }))) ∧
  (∀ (c : CoreId) (s : State), (s.core c.val).walk = true → exec (.walkExit c) s = .next (gaitEval (applyMode c.val
    (s.setCore c.val { s.core c.val with walk := false, l1i := [], l1d := [] })))) ∧
  (∀ (c : CoreId) (s : State), (s.core c.val).walk = true → (s.core c.val).modePending = false →
    Completes (.walkExit c) s (fun t => (t.core c.val).walk = false ∧ (t.core c.val).l1i = [] ∧
      (t.core c.val).l1d = [] ∧ (t.core c.val).arch = (s.core c.val).arch)) ∧
  (∀ (c : CoreId) (s : State), (s.core c.val).modePending = true → (s.core c.val).walk = false →
    exec (.coreModeApply c) s = .next (evalStalls ((dropSpec c.val s).setCore c.val
      { (dropSpec c.val s).core c.val with modeNow := BitVec.ofNat 32 (odGet s (0x4100 + (s.core c.val).stall) 0x21), modePending := false })))

/-! ## Memory controllers -/

/-- The memory channels. A request that reaches the controller of its sector joins its queue with its place, its source and its ring cycle,
ends the sector's place in the patrol's list, and changes no other queue and no byte. In work-conserving operation a command slot of a
running channel issues a forced refresh, else R310's choice, else a waiting refresh. In fixed-slot mode a slot that a stall owns issues that
stall's oldest fill or write-back, where it is eligible, an unowned one of the first eight in a frame that needs it issues a waiting refresh,
any other unowned one makes R310's choice among what owned slots do not carry, and every slot closes the banks; after the last the next frame
takes the refresh rate. The oldest issued read returns, and its lines and its tack lines are decoded. A bank with no queued hit closes.
MEM_SLOTS applies when the stall's requests have drained. A due refresh is postponed while fewer than four are and no soft repair holds the
rank, and otherwise issued; at the deadline one is issued and recorded and a pass of the rank begins. A DIMM's sensors give its temperature and its refresh rate, and the fault flags of
its regulators are recorded for the channel they belong to. The patrol reads the next line of a rank's pass, or of the channel. A soft
repair ends. A rank copy and a channel copy, while the supply holds, move one line or one sector on and end where none is left. -/
def Obligations.MemoryChannelsComplete : Prop :=
  (∀ (c : ChanId) (k : McKind) (pa : BitVec 52) (n : StallId) (pri : BitVec 2) (src : BitVec 8) (tie : Bool) (s : State),
    let place := placeOf s pa.toNat
    let m := if tie then (s.channel c.val).arrivals else (s.channel c.val).arrivals + 1
    place.1 = c.val →
    Completes (.mcRequest c k pa n pri ⟨src, tie⟩) s (fun t =>
      (t.channel c.val).queue = (s.channel c.val).queue ++
        [{ kind := k, pa := pa.toNat, ca := place.2, stall := n.val, pri := pri.toNat, src := src.toNat, cycle := m }] ∧
      (t.channel c.val).arrivals = m ∧ (t.channel c.val).draining = drainState (t.channel c.val) ∧
      (∀ j, j ≠ c.val → (t.channel j).queue = (s.channel j).queue) ∧
      (∀ x ∈ (t.channel (chanOf (pa.toNat / 256))).patrolList, x.1 ≠ pa.toNat / 256) ∧ t.mem = s.mem)) ∧
  (∀ (c : ChanId) (aged : Nat) (s : State), fixedMode s = false → chanRuns (s.channel c.val) = true →
    let ch := s.channel c.val
    (∀ k, refreshForced ch = some k → exec (.dramCommandSlot c aged) s = .next (issueRefresh c.val k s)) ∧
    (∀ i, refreshForced ch = none → mcPick ch aged (fun _ => true) = some i →
      exec (.dramCommandSlot c aged) s = .next (mcIssue c.val i false s)) ∧
    (∀ k, refreshForced ch = none → mcPick ch aged (fun _ => true) = none → refreshWaiting ch = some k →
      exec (.dramCommandSlot c aged) s = .next (issueRefresh c.val k s)) ∧
    (refreshForced ch = none → mcPick ch aged (fun _ => true) = none → refreshWaiting ch = none →
      exec (.dramCommandSlot c aged) s = .next (mcIdle c.val s))) ∧
  (∀ (c : ChanId) (slot : Fin 32) (aged : Nat) (s : State), fixedMode s = true → chanRuns (s.channel c.val) = true →
    let ch := s.channel c.val
    let s0 := mapChan c.val (fun x => { x with slotFree := false }) s
    let refresh := decide (slot.val < 8) && (ch.oddFrame || ch.frameFast)
    let free (r : McReq) : Bool := !(ownedKind r.kind && decide ((s.stall r.stall).slotsNow ≠ 0)) &&
      decide (Tbl.get ch.postponed (reqLoc ch r).rank 0 < 4)
    let done (st : State) : State := mapChan c.val (fun x =>
      let y := { x with openBanks := [] }
      if slot.val = 31 then { y with oddFrame := !y.oddFrame, frameFast := decide (y.fastRefresh ≠ 0) } else y) st
    (∀ n, slotOwner s slot.val = some n →
      ((∀ r ∈ ch.queue, r.stall = n → ownedKind r.kind = false) → exec (.fixedSlot c slot aged) s = .next (done s0)) ∧
      (∀ i r, ch.queue.findIdx? (fun x => decide (x.stall = n) && ownedKind x.kind) = some i → ch.queue[i]? = some r →
        (mcEligible ch r = true → exec (.fixedSlot c slot aged) s = .next (done (mcIssue c.val i true s0))) ∧
        (mcEligible ch r = false → exec (.fixedSlot c slot aged) s = .next (done s0)))) ∧
    (slotOwner s slot.val = none →
      (∀ k, refresh = true → refreshWaiting ch = some k → exec (.fixedSlot c slot aged) s = .next (done (issueRefresh c.val k s0))) ∧
      (∀ i, refresh = false ∨ refreshWaiting ch = none → mcPick ch aged free = some i →
        exec (.fixedSlot c slot aged) s = .next (done (mcIssue c.val i true s0))) ∧
      (refresh = false ∨ refreshWaiting ch = none → mcPick ch aged free = none →
        exec (.fixedSlot c slot aged) s = .next (done (mcIdle c.val s0))))) ∧
  (∀ (c : ChanId) (data : List Ecc) (tags seals : Ecc) (r : McReq) (rest : List McReq) (s : State),
    (s.channel c.val).issued = r :: rest →
    let k := r.ca / 256
    let s1 := ((mcSubs r.kind).zip data).foldl (fun st x => lineRead c.val (256 * k + 64 * x.1) x.2 st)
      (s.setChannel c.val { s.channel c.val with issued := rest })
    let s2 := tackRead c.val (tagLine k) tags s1
    (mcSeals r.kind = true → exec (.dramReadDone c data tags seals) s = .next (tackRead c.val (sealLine k) seals s2)) ∧
    (mcSeals r.kind = false → exec (.dramReadDone c data tags seals) s = .next s2)) ∧
  (∀ (c : ChanId) (b : Nat) (s : State),
    (∀ r ∈ (s.channel c.val).queue, (reqLoc (s.channel c.val) r).bankNo = b → rowHit (s.channel c.val) r = false) →
    Completes (.bankCloseTimeout c b) s (fun t => (∀ x ∈ (t.channel c.val).openBanks, x.1 ≠ b) ∧
      (t.channel c.val).queue = (s.channel c.val).queue ∧ t.mem = s.mem ∧ t.cores = s.cores)) ∧
  (∀ (n : StallId) (s : State), (s.stall n.val).slotsPending = true → (∀ x ∈ s.mc.channels, ∀ r ∈ x.2.queue, r.stall ≠ n.val) →
    exec (.memSlotsApply n) s = .next (evalStalls (s.setStall n.val
      { s.stall n.val with slotsNow := BitVec.ofNat 32 (odGet s (0x4100 + n.val) 0x23), slotsPending := false }))) ∧
  (∀ (c : ChanId) (rank : Fin 8) (s : State), chanRuns (s.channel c.val) = true →
    let n := Tbl.get (s.channel c.val).postponed rank.val 0
    let held := (s.channel c.val).sppr.map (fun p => decide (p.rank = rank.val)) = some true
    (¬held → n < 4 → Completes (.refreshDue c rank) s (fun t => Tbl.get (t.channel c.val).postponed rank.val 0 = n + 1 ∧ t.out = s.out)) ∧
    (held ∨ 4 ≤ n → Completes (.refreshDue c rank) s (fun t => t.out = .dram c.val 2 rank.val :: s.out ∧ t.channel c.val = s.channel c.val))) ∧
  (∀ (c : ChanId) (rank : Fin 8) (s : State), chanRuns (s.channel c.val) = true → Tbl.get (s.channel c.val).postponed rank.val 0 ≠ 0 →
    exec (.dlRefreshExpiry c rank) s = .next (recordDeadline 1 (rankRes c.val rank.val) (bumpChan c.val 0x0B
      (issueRefresh c.val rank.val (mapChan c.val (fun x => { x with rankPass := x.rankPass ++ [(rank.val, 0)] }) s))))) ∧
  (∀ (k : Fin 8) (dimm : Fin 4) (x : Int) (r : List Int) (s : State),
    let c := 2 * k.val + dimm.val / 2
    let bit := dimm.val % 2
    Completes (.dimmSensorRead k dimm (x :: r)) s (fun t =>
      Tbl.get t.mc.dimmTemps (4 * k.val + dimm.val) 0 = r.foldl max x ∧
      ((∃ y ∈ x :: r, 85 ≤ y) → (t.channel c).fastRefresh.getLsbD bit = true) ∧
      ((∀ y ∈ x :: r, y < 80) → (t.channel c).fastRefresh.getLsbD bit = false))) ∧
  (∀ (k : Fin 8) (s : State),
    let faulty (c : Nat) (t : State) : State := raise (0x530 + c) (record { kind := 0x09, cls := 0, resource := resource 3 c } t)
    Completes (.pmicStatusRead k 0) s (fun t => Tbl.get t.mc.pmic k.val 15 = 0 ∧ t.far = s.far) ∧
    ∀ f : BitVec 4,
      let s1 := { s with mc := { s.mc with pmic := s.mc.pmic.set k.val f } }
      let s2 := if natField f.toNat 0 2 = 0 then s1 else faulty (2 * k.val) s1
      exec (.pmicStatusRead k f) s = .next (if natField f.toNat 2 2 = 0 then s2 else faulty (2 * k.val + 1) s2)) ∧
  (∀ (c : ChanId) (found : SectorRead) (s : State), chanRuns (s.channel c.val) = true → stepMay s c.val true = true →
    let ch := s.channel c.val
    let lines := chanCap s / 64
    (∀ k i rest, ch.rankPass = (k, i) :: rest →
      exec (.patrolStep c found) s = .next (patrolLine c.val (rankLine ch.ranks k i) found (s.setChannel c.val
        { ch with rankPass := if (i + 1) * ch.ranks < lines then (k, i + 1) :: rest else rest }))) ∧
    (ch.rankPass = [] → ch.patrol + 1 < lines →
      exec (.patrolStep c found) s = .next (patrolLine c.val ch.patrol found (s.setChannel c.val { ch with patrol := ch.patrol + 1 }))) ∧
    (ch.rankPass = [] → lines ≤ ch.patrol + 1 →
      exec (.patrolStep c found) s = .next (bumpChan c.val 0x09 (patrolLine c.val ch.patrol found (s.setChannel c.val { ch with patrol := 0 }))))) ∧
  (∀ (c : ChanId) (p : Sppr) (s : State), (s.channel c.val).sppr = some p → stepMay s c.val false = true →
    exec (.spprComplete c) s = .next (endRepair 0x02 0x05 (rankRes c.val p.rank)
      { detail := p.device + 32 + natField p.bank 2 3 * 64 + natField p.bank 0 2 * 512 + p.row % 2 ^ 21 * 2048 }
      (bumpChan c.val 0x0A (s.setChannel c.val
        { s.channel c.val with
          sppr := none, slotFree := false, softRepairs := (s.channel c.val).softRepairs ++ [p],
          rowCe := (s.channel c.val).rowCe.erase ((p.bank * 2 ^ 24 + p.row) * 20 + p.device) })))) ∧
  (∀ (c : ChanId) (found : Ecc) (f ptr n : Nat) (s : State),
    let ch := s.channel c.val
    let lines := chanCap s / 64
    let s0 := takeStep c.val ch.ranks (takeStep c.val f s)
    let s1 := if tackBase s ≤ 64 * ptr then tackRead c.val (ptr - tackBase s / 64) found s0 else copiedLine c.val (64 * ptr) found s0
    s.pwr.pwrfail = false → stepMay s c.val false = true → ch.migration = some (.rank f ptr) →
    ((List.range (ch.ranks * 64)).map (· + ptr + 1)).find? (fun l => decide ((locOf ch.ranks (64 * l)).rank = f)) = some n →
    (n < lines → exec (.rankCopyStep c found) s =
      .next (mapChan c.val (fun x => { x with migration := some (.rank f n), progress := 100 * n / lines }) s1)) ∧
    (lines ≤ n → exec (.rankCopyStep c found) s = .next (endRepair 0x02 0x07 (rankRes c.val f) {} (changeChan c.val (spareServes f) s1)))) ∧
  (∀ (c : ChanId) (found : SectorRead) (ptr : Nat) (s : State),
    let sectors := chanNormal s / 256
    let s1 := forwardSector c.val ptr (sendCopy c.val ptr (copiedSector c.val ptr found s))
    s.pwr.pwrfail = false → stepMay s c.val false = true → (s.channel c.val).migration = some (.channel ptr) →
    (ptr + 1 < sectors → exec (.channelCopyStep c found) s = .next (mapChan c.val
      (fun x => { x with migration := some (.channel (ptr + 1)), progress := 100 * (ptr + 1) / sectors }) s1)) ∧
    (sectors ≤ ptr + 1 → exec (.channelCopyStep c found) s = .next (endRepair 0x02 0x08 (resource 3 c.val) {}
      (let s2 := changeChan c.val (fun x => { x with migration := none, state := 3, progress := 100, moved := 0, poweredOff := true }) s1
       { s2 with mc := { s2.mc with retired := some c.val } }))))

/-! ## Engines -/

/-- Every engine command: firmware's descriptor joins its engine's queue where it is accepted; the oldest started descriptor of the opcode
is validated, and its work begins or it ends with the status of its check. Contexts: CTX_CREATE makes the selected FREE context IDLE
with its stall and class, CTX_FREE and CTX_UNFENCE_FREE free it or start to drain it, each with its result on the path; a spilled record
loads; a moved record lands. -/
def Obligations.EngineCommandsAndContextsComplete : Prop :=
  ∀ p ∈ [(Instr.engineNop, 0), (Instr.put, 1), (Instr.get, 2), (Instr.stage, 3), (Instr.scrub, 4), (Instr.rebuild, 5), (Instr.reencode, 6),
         (Instr.sealSpans, 7), (Instr.verify, 8), (Instr.release, 9), (Instr.engineFence, 10)],
  (∀ (e : EngineId) (d : BitVec 512) (s : State), engineRoom s (dCtx d) = true → acceptStatus s d 0 = 0 → anyEngine s = true →
    Completes (p.1 e (.post d)) s (fun t =>
      (t.engine (ctxEngine s (dCtx d))).queue =
        (s.engine (ctxEngine s (dCtx d))).queue ++ [{ id := s.eng.nextCmd, desc := d, src := .firmware, issuer := 0 }] ∧
      (t.ctx (dCtx d)).queued = (s.ctx (dCtx d)).queued + 1 ∧ t.eng.nextCmd = s.eng.nextCmd + 1 ∧ t.mem = s.mem)) ∧
  (∀ (e : EngineId) (place aux : Option (List Word)) (c : Cmd) (s : State), nextStarted s e.val p.2 = some c →
    let uses := decide (1 ≤ p.2 ∧ p.2 ≤ 6)
    let r1 := fetchPlace e.val c uses (dPlace c.desc) place s
    let r2 := fetchPlace e.val c (uses && namesAux c.desc) (dAux c.desc) aux r1.2
    let st := startStatus r2.2 c r1.1 r2.1
    let c1 : Cmd := { c with checked := true, place := r1.1, aux := r2.1, stripes := cmdStripes c.desc r2.1,
                             release := if p.2 = 9 then releaseList r2.2 (natField (dAuxWord c.desc) 0 10) else [] }
    (st = 0 → exec (p.1 e (.run place aux)) s = .next (finishCmd c.id (wakeFor c1 (setCmd c1 r2.2)))) ∧
    (st ≠ 0 → exec (p.1 e (.run place aux)) s = .next (endCmd c st r2.2))) ∧
  (∀ (p : Path) (stall : BitVec 9) (cls : BitVec 2) (sealsReq forceBuf : Bool) (s : State),
    let n := selectedCtx s p
    Permits p 0x7100 0x03 (ctxControl 1 stall cls sealsReq forceBuf) s → (s.ctx n).state = .free → (makeRoom (ctxEngine s n) s).1 = true →
    let s1 := (makeRoom (ctxEngine s n) s).2.setCtx n
      { state := .idle, stall := stall, cls := cls, sealsReq := sealsReq, forceBuf := forceBuf, engine := (s.ctx n).engine }
    exec (.ctxCreate p stall cls sealsReq forceBuf) s =
      .next (setAnswer p .ok (ctxResult p 0 (if (s.ctx n).spilled then recordArrives (ctxEngine s n) s1 else s1)))) ∧
  (∀ q ∈ [(Instr.ctxFree, 2), (Instr.ctxUnfenceFree, 3)], ∀ (p : Path) (s : State),
    let n := selectedCtx s p
    Permits p 0x7100 0x03 q.2 s →
    ((s.ctx n).state = .idle → exec (q.1 p) s = .next (setAnswer p .ok (ctxResult p 0
      (s.setCtx n { engine := (s.ctx n).engine, spilled := (s.ctx n).spilled })))) ∧
    ((s.ctx n).state = .active → exec (q.1 p) s = .next (setAnswer p .ok (ctxResult p 0 (s.setCtx n { s.ctx n with state := .draining })))) ∧
    ((s.ctx n).state = .free → exec (q.1 p) s = .next (setAnswer p .ok (ctxResult p 3 s)))) ∧
  (∀ (p : Path) (s : State),
    let n := selectedCtx s p
    Permits p 0x7100 0x03 3 s → (s.ctx n).state = .fenced →
    exec (.ctxUnfenceFree p) s = .next (setAnswer p .ok (ctxResult p 0
      (if 0 < (s.ctx n).active then s.setCtx n { s.ctx n with state := .draining }
       else s.setCtx n { engine := (s.ctx n).engine, spilled := (s.ctx n).spilled })))) ∧
  (∀ (e : EngineId) (c : CtxId) (s : State), s.eng.loading.contains c.toNat = true → (s.ctx c.toNat).spilled = true →
    ctxEngine s c.toNat = e.val → (makeRoom e.val s).1 = true →
    let s1 := recordArrives e.val ((makeRoom e.val s).2.setCtx c.toNat { (makeRoom e.val s).2.ctx c.toNat with spilled := false })
    exec (.contextLoadDone e c) s =
      .next { s1 with eng := { s1.eng with loading := s1.eng.loading.filter (fun m => decide (m ≠ c.toNat)) } }) ∧
  (∀ (c : CtxId) (t : EngineId) (s : State),
    let n := c.toNat
    let x := s.ctx n
    let e := ctxEngine s n
    let s1 := moveWork n e t.val (s.setCtx n { x with engine := engineId t.val, landing := none, freeing := false, spilled := false, state := .idle })
    x.state = .moving → x.landing = some t.val → (s.engine t.val).state = 0 → x.active = 0 → x.queued = 0 → x.freeing = false →
    heldRecords s t.val < 9472 →
    exec (.contextRecordLanded c) s = .next (finishRetire e (recordArrives t.val s1)))

/-- What an engine does by itself: it starts a descriptor of the class its credits choose; a stripe takes a slot; the last comparison, the
pool, the bucket, a readback, an interlock entry and a completion take a stripe on; faults of its SRAM and its want of progress are acted on. -/
def Obligations.EngineWorkCompletes : Prop :=
  (∀ (e : EngineId) (c : Cmd) (k : Nat) (s : State),
    let x := s.engine e.val
    let el := x.queue.filter (eligible s e.val)
    let classes := (el.map (cmdClass s)).eraseDups
    let served := servedNow s x classes
    domState s (.engine e) = .up → x.state = 0 → x.active.length < 64 → s.pwr.pwrfail = false → s.eng.stopped = false →
    pickClass (creditsNow s served) x.lastClass classes = some k →
    el.find? (fun y => decide (cmdClass s y = k)) = some c →
    Completes (.descriptorStart e) s (fun t => (t.engine e.val).active = x.active ++ [{ c with started := true }] ∧
      (t.engine e.val).queue = x.queue.filter (fun z => decide (z.id ≠ c.id)) ∧ (t.engine e.val).lastClass = k ∧
      (t.engine e.val).served = served.set k (Tbl.get served k 0 + 1) ∧ t.mem = s.mem)) ∧
  (∀ (e : EngineId) (i : Nat) (s : State), (s.engine e.val).state = 0 → domState s (.engine e) = .up →
    freeSlot (sweepSent e.val s) e.val = some i → exec (.stripeStart e) s = .next (startStripe e.val i (sweepSent e.val s))) ∧
  (∀ (e : EngineId) (slot : Fin 4) (bad : List SpanBad) (st : Stripe) (j : Nat) (c : Cmd) (s : State),
    slotStripe s e.val slot.val = some st → cmdAt s st.cmd = some (j, c) →
    (st.stage = .check → exec (.stripeCheckDone e slot bad) s = .next (parityChecked e.val c st bad s)) ∧
    (st.stage = .rebuilt → exec (.stripeCheckDone e slot bad) s = .next (rebuildChecked e.val c st bad s)) ∧
    (∀ y, st.stage ≠ .check → st.stage ≠ .rebuilt →
      (s.engine e.val).flying.find? (fun z => decide (z.feeds = some st.uid) && decide (z.stage = .rebuilt)) = some y →
      exec (.stripeCheckDone e slot bad) s = .next (rebuildChecked e.val c y bad s))) ∧
  (∀ (e : EngineId) (s : State),
    exec (.stagingPoolSpace e) s = .next (retryPlace e.val s) ∧
    exec (.stagingTokenRefill e) s = .next (retryPlace e.val (s.setEngine e.val { s.engine e.val with
      tokens := min (4 * ((odGet s 0x7000 0x05 * 512 : Nat) : Int)) ((s.engine e.val).tokens + (odGet s 0x7000 0x05 * 512 : Nat)) }))) ∧
  (∀ (e : EngineId) (slot : Fin 4) (st pooled : Stripe) (j : Nat) (c : Cmd) (s : State),
    let g := stGeo c pooled
    let r := readPool pooled s
    slotStripe s e.val slot.val = some st → st.stage = .readback → st.feeds.bind (findStripe s) = some pooled →
    cmdAt s pooled.cmd = some (j, c) →
    (∀ bad : List SpanBad,
      let fresh := (bad.map (fun b => (b.span / g.spans, b.span % g.spans))).filter (fun b => !r.1.bad.contains b)
      r.1.bad ++ fresh ≠ [] →
      exec (.releaseReadbackDone e slot bad) s = .next (releasePart st (readbackFailed pooled (r.1.bad ++ fresh)
        (poisonPool g pooled (bad.filter (fun b => !r.1.bad.contains (b.span / g.spans, b.span % g.spans))) (takeStripe st.uid r.2))))) ∧
    (r.1.bad = [] →
      let whole := { pooled with frags := r.1.frags, sramTries := if pooled.sramTries = 1 then 2 else pooled.sramTries }
      let s0 := settleReadback e.val pooled r.2
      let which := releaseFrags s0 st.cmd whole
      let s1 := if which.isEmpty then takeStripe st.uid s0 else setStripe { st with stage := .flying } s0
      exec (.releaseReadbackDone e slot []) s = .next (releasePart st
        (sendFrags g whole which (setStripe (markSent whole which true) s1))))) ∧
  (∀ (bank e : EngineId) (a b uid : Nat) (rest : List (Nat × Nat × Nat)) (st : Stripe) (s : State),
    s.eng.lockWait = (a, b, uid) :: rest → bankOf (a, b) = bank.val → keyFree s (a, b) = true → bankCount s bank.val < 4096 →
    findStripe s uid = some st → stripeEngine s st = e.val →
    exec (.interlockEntryFree bank e) s = .next (beginStripe e.val uid (enterKey (a, b) uid s))) ∧
  (∀ (e : EngineId) (tag uid : Nat) (r : HRead) (st : Stripe) (bytes : List Byte) (s : State),
    let s0 := countAnswer e.val tag s
    let x := s0.engine e.val
    let s1 := s0.setEngine e.val { x with reads := x.reads.filter (fun y => decide (y.1 ≠ tag)) }
    let st1 : Stripe := { st with payload := overlay st.payload r.off (takePad r.len 0 bytes), pendingReads := st.pendingReads - 1 }
    let s2 := pump e.val (setStripe st1 s1)
    x.reads.find? (fun y => decide (y.1 = tag)) = some (tag, uid, r) → findStripe s1 uid = some st → r.isSeal = false →
    exec (.hostReadCompletion e tag (.data bytes)) s =
      .next (if st1.pendingReads = 0 ∧ st1.todoReads = [] ∧ st1.stage = .pull then pullDone e.val uid s2 else s2)) ∧
  (∀ (e : EngineId) (s : State), ((s.engine e.val).slots.isEmpty && (s.engine e.val).flying.isEmpty && (s.engine e.val).regen.isEmpty) = false →
    exec (.engineNoProgress e) s = .next (retireEngine e.val 2 0 0 s)) ∧
  (∀ (e : EngineId) (slot : Fin 4) (span : Nat) (st : Stripe) (j : Nat) (c : Cmd) (s : State),
    slotStripe s e.val slot.val = some st → st.src ≠ .pool → cmdAt s st.cmd = some (j, c) →
    (st.stage = .pull → st.sramTries = 0 → exec (.stagingSramUe e slot span) s = .next (beginStripe e.val st.uid
      (setStripe { restartStripe st with sramTries := 1 } (s.setEngine e.val { s.engine e.val with
        reads := (s.engine e.val).reads.filter (fun r => decide (r.2.1 ≠ st.uid)) })))) ∧
    (st.stage = .pull → st.sramTries ≠ 0 →
      exec (.stagingSramUe e slot span) s = .next (failStripe st 0x13 [spanIndex (stGeo c st) st 0 0]
        (countEngineFault e.val (engineRec e.val 5 2 (cmdStall s c) s)))) ∧
    (st.stage = .reading → (st.frags.getD (span / (stGeo c st).spans) noFrag).state = .good →
      exec (.stagingSramUe e slot span) s = .next (readMore e.val st.uid 64
        (setStripe { setFrag st (span / (stGeo c st).spans) { st.frags.getD (span / (stGeo c st).spans) noFrag with
            state := .missing, bytes := [], sramUe := true } with stage := .reading, rebuilt := false } s)))) ∧
  (∀ (e : EngineId) (slot : Fin 4) (span : Nat) (st pooled : Stripe) (j : Nat) (c : Cmd) (s : State),
    slotStripe s e.val slot.val = some st → st.src = .pool → st.stage = .readback → st.feeds.bind (findStripe s) = some pooled →
    cmdAt s pooled.cmd = some (j, c) →
    (pooled.sramTries = 0 → exec (.stagingSramUe e slot span) s = .next (setStripe { pooled with sramTries := 1 } s)) ∧
    (pooled.sramTries ≠ 0 → exec (.stagingSramUe e slot span) s = .next (releasePart st
      (failStripe pooled 0x13 [spanIndex (stGeo c pooled) pooled 0 0]
        (countEngineFault e.val (engineRec e.val 5 2 (cmdStall (takeStripe st.uid s) c) (takeStripe st.uid s))))))) ∧
  (∀ (e : EngineId) (s : State), exec (.engineSramCe e) s = .next (odBump (0x7001 + e.val) 0x04 s))


/-! ## The Farrier -/

/-- Faults and repairs: a report is acted on while a Groom pair serves; a lost context record retires its engine; the log is copied each
second; substitution, rehoming and queued repairs advance step by step; Groom pairs fail, are tested and take over; walk recovery starts
and ends. -/
def Obligations.FarrierCompletes : Prop :=
  (∀ (r : Report) (s : State), s.far.fatal = false → exec (.faultReport r) s = .next (report r s)) ∧
  (∀ (e : EngineId) (c : CtxId) (s : State), ctxEngine s c.toNat = e.val → (s.ctx c.toNat).spilled = false →
    ((s.ctx c.toNat).state = .free →
      exec (.contextSramUe e c) s = .next (retireEngine e.val 1 0 0 (s.setCtx c.toNat { engine := (s.ctx c.toNat).engine }))) ∧
    ((s.ctx c.toNat).state ≠ .free →
      exec (.contextSramUe e c) s = .next (containedAt (nextIncident s) (s.ctx c.toNat).stall.toNat none (takeIncident (nextIncident s)
        (retireEngine e.val 1 2 (s.ctx c.toNat).stall.toNat (fenceCtx c.toNat 0x13 s)))))) ∧
  (∀ (s : State), Completes .logSave s (fun t => t.far.saves = ((saveLog s).far.saves + 1) % 60 ∧ t.far.log = (saveLog s).far.log ∧
    t.far.minute = (if ((saveLog s).far.saves + 1) % 60 = 0 then [] else (saveLog s).far.minute))) ∧
  (∀ (p : Path) (k : CoreId) (s : State), Permits p 0x3000 0x18 k.val s →
    exec (.substituteRequest p k) s = .next (setAnswer p .ok (writeSubstitute p k.val s))) ∧
  (∀ (st : SubstStep) (x : Subst) (s : State), s.far.subst = some x → exec (.substitutionStepDone st) s = .next (substStep st x s)) ∧
  (∀ (x : Subst) (s : State), s.far.subst = some x →
    exec .dlSubstExpiry s = .next (abortSubst (recordIn x.incident { kind := 0x0A, cls := 2, resource := resource 0 x.source, detail := 4 }
      (odBump 0x3000 0x14 (odBump 0x3000 0x11 s))))) ∧
  (∀ (un : List (BitVec 52)) (x : Rehome) (i j : Nat) (rest : List Nat) (s : State), s.far.rehome = some x → x.entries = i :: rest →
    entryBusy s x.slice i = false → fewestSlice s x.slice = some j →
    let s1 := moveEntry x.slice i j (un.map (fun (a : BitVec 52) => a.toNat / 256)) x.incident s
    let s2 : State := { s1 with far := { s1.far with rehome := some { x with entries := rest } } }
    exec (.rehomeEntryDone un) s = .next (if rest.isEmpty then retireSlice x.slice s2 else s2)) ∧
  (∀ (a : BitVec 8) (r : Repair) (s : State), mustWait s a = false → s.far.queued.find? (fun q => decide (q.action = a)) = some r →
    exec (.repairQueueAdvance a) s =
      .next (startSteps r (decideAgain a { s with far := { s.far with running := s.far.running ++ [r], queued := s.far.queued.erase r } }))) ∧
  (∀ (g : PairId) (s : State), exec (.groomMiscompare g) s = .next (failPair g.val (nextIncident s) s)) ∧
  (∀ (g : Nat) (s : State), servingPair s = some g → s.side.wdogRunning = true → s.pwr.state ≠ .deep →
    exec .dlGroomExpiry s = .next (failPair g (nextIncident s) (recordIn (nextIncident s)
      { kind := 0x0A, cls := 0, resource := resource 9 g, detail := 7 } (allocIncident (odBump 0x3000 0x12 s))))) ∧
  (∀ (s : State), exec .stbWdogWrite s = .next (restartWdog s)) ∧
  (∀ (g : PairId) (pass : Bool) (s : State), exec (.groomRetest g pass) s = .next (retestPair g.val pass s)) ∧
  (∀ (s : State),
    exec (.standbySelftest true) s = .next (hourPasses s) ∧
    (s.far.pair0 = .standby → exec (.standbySelftest false) s = .next (failPair 0 (nextIncident (hourPasses s)) (hourPasses s))) ∧
    (s.far.pair0 ≠ .standby → s.far.pair1 = .standby →
      exec (.standbySelftest false) s = .next (failPair 1 (nextIncident (hourPasses s)) (hourPasses s)))) ∧
  (∀ (p : Path) (s : State),
    (Permits p 0x3000 0x0E 1 s → exec (.walkRecoveryStart p) s = .next (setAnswer p .ok (writeWalk p 1 s))) ∧
    (Permits p 0x3000 0x0E 2 s → exec (.walkRecoveryEnd p) s = .next (setAnswer p .ok (writeWalk p 2 s)))) ∧
  (∀ (s : State), s.far.walkRecovery = true → exec .walkRecoveryTimeout s = .next (setWalkRecovery false s))

/-! ## The host endpoint -/

/-- Queue pairs: a doorbell in range moves SQ tail or CQ head, and an eight-byte write at the first of the two takes both; a controller fetches for the winner of its rotating priority and takes what
its read brings; replies are polled; the coalescing time sends the message; QP_RECORD creates, modifies and deletes. A mailbox GO of a
function whose mailbox is free makes it busy and queues the access for the serializer, with the operands that the mailbox holds. A doorbell
or mailbox write of another size or alignment than the ones allowed is discarded and counted. -/
def Obligations.QueuePairsAndMailboxesComplete : Prop :=
  (∀ (p : HPort) (fn : FnId) (q : QueueId) (acc : BarAcc) (v w : BitVec 32) (s : State),
    let l := fnLink s p.val fn.val
    let k := qpKey p.val fn.val q.val
    let s1 := arrived l s
    let s2 := countLink (fnLink s1 p.val fn.val) 3 1 s1
    let x := s2.qp k
    barOk acc = true → Reaches l s → QpOpen p.val fn.val q.val s1 →
    (acc.size = 4 → natField v.toNat 0 16 < 2 ^ x.sqLog2.toNat →
      exec (.sqTailDoorbell p fn q ⟨acc, v, w⟩) s = .next (s2.setQp k { x with sqTail := v.truncate 16 })) ∧
    (acc.size = 8 → exec (.sqTailDoorbell p fn q ⟨acc, v, w⟩) s = .next (setCqHead w k (setSqTail v k s2))) ∧
    (let depth := 2 ^ x.cqLog2.toNat
     let h := natField v.toNat 0 16
     let used := (h + depth - x.cqHead.toNat) % depth
     h < depth → used ≤ x.held →
      exec (.cqHeadDoorbell p fn q ⟨acc, v, w⟩) s = .next (s2.setQp k { x with cqHead := BitVec.ofNat 16 h, held := x.held - used }))) ∧
  (∀ (p : HPort) (fn : FnId) (q : QueueId) (acc : BarAcc) (v w : BitVec 32) (idx : BitVec 16) (sub : BitVec 8) (len : BitVec 9) (irq : Bool)
     (data : List Byte) (s : State), barOk acc = false → linkTrained (s.ctl (fnLink s p.val fn.val)).link = true →
    fnAnswers s p.val fn.val = true →
    ∀ i ∈ [Instr.sqTailDoorbell p fn q ⟨acc, v, w⟩, .cqHeadDoorbell p fn q ⟨acc, v, w⟩, .mailboxRead p fn idx sub ⟨acc, irq⟩,
           .mailboxWrite p fn idx sub len ⟨acc, irq⟩ data], exec i s = .next (discardWrite p.val fn.val s)) ∧
  (∀ (l : CtlId) (k : Nat) (s : State), fetchWinner s l.val = some k →
    let n := fetchCount (s.qp k)
    exec (.commandFetch l) s = .next (hostRead (qpPort k) (qpFn k) ((s.qp k).sqBase.toNat + 64 * (s.qp k).sqHead.toNat) (64 * n) l.val
      ((s.setQp k { s.qp k with reading := n }).setCtl l.val
        { s.ctl l.val with lastWinner := k, reads := (s.ctl l.val).reads ++ [(k, n)] }))) ∧
  (∀ (l : CtlId) (k n : Nat) (rest : List (Nat × Nat)) (cmds : List (BitVec 512)) (s0 : State), let s := countLink l.val 1 1 s0
    (s.ctl l.val).reads = (k, n) :: rest → (s.qp k).reading ≠ 0 → (s.qp k).enable = true → (s.qp k).deleting = false → (s.qp k).error = false →
    (s.fn (qpPort k) (qpFn k)).drain = none → s.host.fatal = false →
    exec (.commandReadCompletion l cmds) s0 = .next (takeCommands l.val k (cmds.take n)
      (pump 7 ((s.setCtl l.val { s.ctl l.val with reads := rest }).setQp k { s.qp k with reading := 0 })))) ∧
  (∀ (p : HPort) (x : Nat × Nat) (s : State), s.host.inbox.filter (fun y => decide (qpPort y.1 = p.val)) = [x] →
    exec (.replyPoll p) s = .next (pollEntry x s)) ∧
  (∀ (p : HPort) (fn : FnId) (q : QueueId) (s : State),
    let k := qpKey p.val fn.val q.val
    let x := s.qp k
    x.enable = true → x.irqEn = true → x.unsignalled = true →
    exec (.cqCoalesceTimeout p fn q) s = .next (sendMsix p.val fn.val x.vector.toNat (s.setQp k { x with sinceMsg := 0, unsignalled := false }))) ∧
  (∀ (path : Path) (w : BitVec 512) (k : Nat) (s : State), Permits path 0x8020 0x02 w.toNat s → selectedQp s path = some k →
    (s.qp k).deleting = false →
    ((s.qp k).enable = false → w.getLsbD 0 = true → createDenied s k w = false →
      exec (.qpCreate path w) s = .next (setAnswer path .ok (qpResult path resOk (s.setQp k (createdQp w))))) ∧
    ((s.qp k).enable = true → w.getLsbD 0 = false →
      exec (.qpDelete path w) s =
        .next (setAnswer path .ok (qpResult path resBusy (s.setQp k { s.qp k with deleting := true, delPath := path })))) ∧
    ((s.qp k).enable = true → w.getLsbD 0 = true → 1 ≤ recField w 16 7 → recField w 16 7 ≤ 64 → recField w 32 16 ≤ 10000 →
      exec (.qpModify path w) s = .next (setAnswer path .ok (qpResult path resOk (s.setQp k (modifiedQp (s.qp k) w)))))) ∧
  (∀ (p : HPort) (fn : FnId) (q : QueueId) (s : State), (s.qp (qpKey p.val fn.val q.val)).deleting = true →
    (s.qp (qpKey p.val fn.val q.val)).fetched = 0 →
    exec (.qpDeleted p fn q) s = .next (removeQp (qpKey p.val fn.val q.val) s)) ∧
  ∀ (p : HPort) (fn : FnId) (acc : BarAcc) (idx : BitVec 16) (sub : BitVec 8) (irq : Bool) (s : State),
    let l := fnLink s p.val fn.val
    let s1 := arrived l s
    let f := s1.fn p.val fn.val
    let path := if fn.val = 0 then Path.pf p else .vf p fn
    barOk acc = true → Reaches l s → fnAnswers s1 p.val fn.val = true → f.mbox.busy = false →
    exec (.mailboxRead p fn idx sub ⟨acc, irq⟩) s = .next (raise 0x545
      { (s1.setFn p.val fn.val { f with mbox := { index := idx, sub := sub, op := false, length := 0, irq := irq, busy := true,
                                                  result := f.mbox.result, rlength := f.mbox.rlength, data := f.mbox.data } }) with
        serial := s1.serial ++ [{ path := path, write := false, idx := idx.toNat, sub := sub.toNat }] }) ∧
    ∀ (len : BitVec 9) (data : List Byte), exec (.mailboxWrite p fn idx sub len ⟨acc, irq⟩ data) s = .next (raise 0x545
      { (s1.setFn p.val fn.val { f with mbox := { index := idx, sub := sub, op := true, length := len, irq := irq, busy := true,
                                                  result := f.mbox.result, rlength := f.mbox.rlength, data := takePad 256 0 data } }) with
        serial := s1.serial ++ [{ path := path, write := true, idx := idx.toNat, sub := sub.toNat, data := takePad len.toNat 0 data }] })


/-- The host's memory accesses: an inbound write through a matching window that the IOMMU permits stores its bytes with the window's tag; an
inbound read answers with what memory holds; an acknowledge read takes the winning source of a vector; an MSI-X table write sets its entry,
and each of another size or alignment than the ones allowed ends in a Completer Abort or is discarded; windows are committed; the ATS cache
fills and is invalidated. -/
def Obligations.HostMemoryCompletes : Prop :=
  (∀ (p : HPort) (off : Word) (data : List Byte) (w : Window) (x : Xlat) (s s2 : State),
    let s1 := arrived (2 * p.val) s
    Reaches (2 * p.val) s → data.length ≤ 512 → off.toNat % 4096 + data.length ≤ 4096 → s1.boot.ready = true →
    fnAnswers s1 p.val 0 = true → matchWindow s p.val off data.length true = some w →
    ioLookup p.val w.stall.toNat (windowTarget w off) true s1 = (some x, s2) →
    exec (.inboundWriteTlp p false off data false) s =
      .next (dmaWrite (hostAttr w.stall.toNat x) x.pa data (if w.wtag then .int else .bytes) 9 s2)) ∧
  (∀ (p : HPort) (off : Word) (len : Nat) (w : Window) (x : Xlat) (s s2 : State),
    let s1 := arrived (2 * p.val) s
    Reaches (2 * p.val) s → len ≤ 4096 → off.toNat % 4096 + len ≤ 4096 → s1.boot.ready = true →
    fnAnswers s1 p.val 0 = true → matchWindow s p.val off len false = some w →
    ioLookup p.val w.stall.toNat (windowTarget w off) false s1 = (some x, s2) →
    exec (.inboundReadTlp p false off len) s =
      let u := dmaRead (hostAttr w.stall.toNat x) x.pa len s2
      .next (emitTlp (2 * p.val) (.completion p.val (dmaReadBytes u x.pa len).1 (dmaReadBytes u x.pa len).2) u)) ∧
  (∀ (p : HPort) (acc : BarAcc) (v : Fin 128) (n : Nat) (s : State),
    let s1 := arrived (2 * p.val) s
    let w : Word := BitVec.ofNat 64 (n + (s1.source n).count * 2 ^ 16 + srcLevel (srcCfg s1 n) * 2 ^ 24)
    let s2 := emitTlp (2 * p.val) (.completion p.val (wordBytes w) false) (clearSource n s1)
    barOk acc = true → Reaches (2 * p.val) s → fnAnswers s1 p.val 0 = true → vectorWinner s1 p.val v.val = some n →
    exec (.msixAckRead p ⟨acc, v⟩) s = .next (if (vectorWinner s2 p.val v.val).isSome then sendMsix p.val 0 v.val s2 else s2)) ∧
  (∀ (p : HPort) (fn : FnId) (acc : BarAcc) (v i : Fin 128) (addr : Word) (data : BitVec 32) (mask : Bool) (s : State), barOk acc = false →
    (linkTrained (s.ctl (2 * p.val)).link = true → fnAnswers s p.val 0 = true →
      exec (.msixAckRead p ⟨acc, v⟩) s = .next (completerAbort p.val 0 s)) ∧
    (linkTrained (s.ctl (fnLink s p.val fn.val)).link = true → fnAnswers s p.val fn.val = true →
      exec (.msixTableWrite p fn ⟨acc, i⟩ addr data mask) s = .next (discardWrite p.val fn.val s))) ∧
  (∀ (p : HPort) (fn : FnId) (acc : BarAcc) (i : Fin 128) (addr : Word) (data : BitVec 32) (mask : Bool) (s : State),
    let s1 := arrived (fnLink s p.val fn.val) s
    let f := s1.fn p.val fn.val
    barOk acc = true → Reaches (fnLink s p.val fn.val) s → fnAnswers s1 p.val fn.val = true → i.val < msixEntries fn.val →
    exec (.msixTableWrite p fn ⟨acc, i⟩ addr data mask) s = .next (sendPending p.val fn.val
      (s1.setFn p.val fn.val { f with msix := f.msix.set i.val { addr := addr, data := data, mask := mask } }))) ∧
  (∀ (path : Path) (p : HPort) (s : State), Permits path (0x8030 + p.val) 0x21 1 s →
    s.host.commitPending.any (fun x => decide (x.1 = p.val)) = false → commitDenied s p.val = false →
    exec (.windowCommit path p) s = .next (setAnswer path .ok (windowResult path p.val resOk
      { s with host := { s.host with commitPending := s.host.commitPending.set p.val path } }))) ∧
  (∀ (p : HPort) (s : State), s.host.commitPending.any (fun x => decide (x.1 = p.val)) = true →
    exec (.windowCommitPoint p) s = .next (commitWindows p.val s)) ∧
  (∀ (p : HPort) (fn : FnId) (page trans : Nat) (r w : Bool) (s : State), (r || w) = true → s.host.heldOut = [] →
    exec (.atsTranslationCompletion p fn page 1 trans r w) s = 
      .next { atcInsert p.val { fn := fn.val, page := page, host := trans, r := r, w := w } (countLink (fnLink s p.val fn.val) 1 1 s) with
        host := s.host }) ∧
  (∀ (p : HPort) (fn : FnId) (page pages : Nat) (itag : BitVec 5) (s : State),
    Completes (.atsInvalidateRequest p fn page pages itag) s (fun t =>
      (∀ e ∈ Tbl.get t.vm.atc p.val [], e.fn = fn.val → e.page < page ∨ page + pages ≤ e.page) ∧
      Tbl.get t.vm.invalidations p.val [] =
        Tbl.get s.vm.invalidations p.val [] ++ [{ itag := itag, reads := readsOf s (fnKey p.val fn.val) page pages }])) ∧
  (∀ (p : HPort) (v : AtsInval) (rest : List AtsInval) (s : State), Tbl.get s.vm.invalidations p.val [] = v :: rest →
    v.reads.any (readOpen s) = false →
    exec (.invalidationCompletion p) s = .next (emitTlp (2 * p.val) (.invalidateDone p.val v.itag)
      { s with vm := { s.vm with invalidations := s.vm.invalidations.set p.val rest } }))

/-- Functions and host links: FLR, VF disable and D3hot drain their functions, and a drain ends when its reads are over or its deadline
expires; configuration requests are served; PERST resets and releases a port; links train, reach L0, idle into L1, leave it and go down;
lane errors and completion timeouts are noted. -/
def Obligations.HostLinksComplete : Prop :=
  (∀ (l : CtlId) (fn : FnId) (s : State), presented s l.val fn.val = true →
    exec (.flr l fn) s = .next (startDrain .flr l.val fn.val (if fn.val = 0 then disableVfs l.val s else s))) ∧
  (∀ (l : CtlId) (s : State), exec (.vfDisable l) s =
    .next ((linkVfs s l.val).foldl (fun t v => startDrain .vfDisable l.val v t) (cfgBit (pfKey l.val) 0x158 0 false s))) ∧
  (∀ (l : CtlId) (fn : FnId) (s : State), fn.val = 0 → (s.fnAt (linkFnKey l.val fn.val)).d3hot = false →
    exec (.d3hotEntry l fn) s = .next (startDrain .d3hot l.val fn.val s)) ∧
  (∀ (l : CtlId) (fn : FnId) (s : State),
    let k := linkFnKey l.val fn.val
    let f := s.fnAt k
    (f.drain.isSome = true → exec (.d0Return l fn) s = .next (s.setFnAt k { f with latched := { f.latched with d0 := true } })) ∧
    (f.drain = none → f.d3hot = true → exec (.d0Return l fn) s = .next (s.setFnAt k { ({} : HFn) with fenced := f.fenced }))) ∧
  (∀ (l : CtlId) (fn : FnId) (s : State), s.host.fatal = false →
    ((ownsQueues l.val fn.val && fnReads s (l.val / 2) fn.val) = false → exec (.drainEnd l fn) s = .next (endDrain l.val fn.val s)) ∧
    ((s.fnAt (linkFnKey l.val fn.val)).drain.isSome = true →
      exec (.dlFlrExpiry l fn) s = .next (endDrain l.val fn.val (recordDeadline 9 0xF000 (odBump (0x8010 + l.val) 0x0C s))))) ∧
  (∀ (l : CtlId) (fn : FnId) (off : BitVec 12) (v : BitVec 32) (s : State),
    let s1 := exitL1 l.val (countLink l.val 1 1 s)
    let at4 := off.toNat / 4 * 4
    linkTrained (s1.ctl l.val).link = true → presented s1 l.val fn.val = true → (s1.fnAt (linkFnKey l.val fn.val)).drain = none →
    exec (.configRequest l fn (.read off)) s =
      .next (emitTlp l.val (.completion (l.val / 2) (bytesOfNat 4 (cfgRead s1 l.val fn.val at4).toNat) false) s1) ∧
    (s1.host.fatal = false →
      exec (.configRequest l fn (.write off v)) s = .next (emitTlp l.val (.completion (l.val / 2) [] false) (cfgWrite l.val fn.val at4 v s1)))) ∧
  (∀ (p : HPort) (s : State),
    (s.pwr.state ≠ .deep → s.pwr.state ≠ .off → Completes (.perstAssert p) s (fun t => t.host.perst.getLsbD p.val = true ∧
      t.mem = s.mem ∧ t.cores = s.cores)) ∧
    Completes (.perstDeassert p) s (fun t => t.host.perst.getLsbD p.val = false ∧ t.host.ctl = s.host.ctl ∧ t.mem = s.mem)) ∧
  (∀ (l : CtlId) (s : State), 6 ≤ s.boot.phase.code → s.host.perst.getLsbD (l.val / 2) = false → ctlUsed s l.val = true →
    (s.ctl l.val).link = .down → s.pwr.state ≠ .deep → s.pwr.state ≠ .off → s.tap.hold = false →
    exec (.hostLinkTrainingStart l) s = .next (setHostLink l.val .training s)) ∧
  (∀ (l : CtlId) (rate width : BitVec 8) (s : State), (s.ctl l.val).link = .training → (s.ctl l.val).spareWaiting = [] →
    exec (.hostLinkL0 l rate width) s = .next (setHostLink l.val .l0 (odSet (0x8010 + l.val) 0x02 rate.toNat
      (odSet (0x8010 + l.val) 0x03 width.toNat (s.setCtl l.val { s.ctl l.val with rate := rate, width := width, spareWaiting := [] }))))) ∧
  (∀ (l : CtlId) (s : State), (s.ctl l.val).link = .l0 → (cfgKept (s.fnAt (pfKey l.val)) 0x080).getLsbD 1 = true → linkIdle s l.val = true →
    let sub := cfgKept (s.fnAt (pfKey l.val)) 0x288
    exec (.aspmL1Idle l) s = .next (setHostLink l.val (if sub.getLsbD 2 then .l12 else if sub.getLsbD 3 then .l11 else .l1)
      (emit (.l1Request l.val) s))) ∧
  (∀ (l : CtlId) (s : State), inL1 (s.ctl l.val).link = true →
    let s1 := wakeDevice 1 ((hostDomains l.val).foldl (fun t d => wakeDom d t) s)
    exec (.hostL1Exit l) s = .next (if (s1.ctl l.val).spareWaiting = [] then setHostLink l.val .l0 s1
      else odBump (0x8010 + l.val) 0x08 (setHostLink l.val .recovery s1))) ∧
  (∀ (l : CtlId) (errs : List Nat) (s : State), exec (.hostLaneErrorWindow l errs) s = .next ((errs.take 16).zipIdx.foldl
    (fun t x => laneErrors l.val x.2 x.1 t) (odAdd (0x8010 + l.val) 0x05 (errs.foldl (· + ·) 0) s))) ∧
  (∀ (l : CtlId) (s : State), linkTrained (s.ctl l.val).link = true → exec (.hostLinkDown l) s = .next (setHostLink l.val .down s)) ∧
  (∀ (l : CtlId) (k n : Nat) (rest : List (Nat × Nat)) (s : State), (s.ctl l.val).reads = (k, n) :: rest →
    exec (.pcieCompletionTimeout l .sqRead) s = .next (noteTimeout (qpPort k) (qpFn k)
      ((s.setCtl l.val { s.ctl l.val with reads := rest }).setQp k { s.qp k with reading := 0 })))

/-! ## The Tether -/

/-- Links train and carry flits (R93–R112): detection, training frames, alignment, the flit of each slot, what is received, acknowledged,
refused and sent again. -/
def Obligations.LinkTrainingAndFlitsComplete : Prop :=
  (∀ (l : LinkId) (s : State), (s.link l.val).state = .detect →
    exec (.signalDetect l) s = .next (setLinkState l.val .cdr (s.setLink l.val { s.link l.val with lanes := freshLanes (s.link l.val) }))) ∧
  (∀ (l : LinkId) (lane : Fin 2) (ctl sts : BitVec 16) (s : State), (s.link l.val).state = .cdr → natField sts.toNat 13 1 = 1 →
    natField sts.toNat 9 3 = physLane s l.val lane.val → natField sts.toNat 12 1 = lane.val →
    let x := Tbl.get (s.link l.val).lanes lane.val {}
    let y := coefficients ctl { x with good := min 8 (x.good + 1), ready := if sts.getLsbD 4 then min 8 (x.ready + 1) else 0 }
    let lanes := (s.link l.val).lanes.set lane.val y
    let s0 := s.setLink l.val { s.link l.val with lanes := lanes }
    let s1 := if lane.val = 1 then sendFrames l.val 15 s0 else s0
    exec (.trainingFrame l lane ⟨ctl, ~~~ctl⟩ ⟨sts, ~~~sts⟩) s = .next
      (if 8 ≤ (Tbl.get lanes 0 {}).good ∧ 8 ≤ (Tbl.get lanes 1 {}).good then setLinkState l.val .equalize s1 else s1)) ∧
  (∀ (l : LinkId) (lane : Fin 2) (ctl ctlInv sts stsInv : BitVec 16) (s : State), ctlInv ≠ ~~~ctl ∨ stsInv ≠ ~~~sts →
    exec (.trainingFrame l lane ⟨ctl, ctlInv⟩ ⟨sts, stsInv⟩) s = .next s) ∧
  (∀ (l : LinkId) (c : Option (Fin 2)) (s : State), (s.link l.val).state ∈ [LinkState.cdr, .equalize, .align, .param, .retrain] →
    exec (.trainingTimeout l c) s = .next (trainingFailure l.val (c.map (·.val)) s)) ∧
  (∀ (l : LinkId) (f : Flit) (s : State), (s.link l.val).state = .active → flitGood f = true →
    seqAhead (hdrSeq f.hdr) (s.link l.val).expSeq = false → markerFits s l.val f = true →
    let sf := BitVec.ofNat 32 (natOfBytes (f.payload.take 4))
    (∀ x, (s.link l.val).farSf = some x → sf = x + 1) →
    exec (.markerFlit l f) s = .next (s.setLink l.val { takeHeader f.hdr (s.link l.val) with farSf := some sf, badSf := 0 })) ∧
  (∀ (l : LinkId) (s : State), (s.link l.val).state = .active → exec (.receiveLockLoss l) s = .next (enterRetrain l.val true s)) ∧
  (∀ (l : LinkId) (s : State), let k := s.link l.val
    k.state = .active →
    (k.slot = 0 → k.quietNext = true → exec (.flitSlot l) s =
      .next (linkQuiet l.val (setLinkState l.val .quiet (s.setLink l.val { k with quietNext := false })))) ∧
    (k.slot = 0 → k.quietNext = false → exec (.flitSlot l) s =
      .next (sendPlain l.val (mkFlit (slotHdr k 2 0 0xF k.nextSeq) (markerPayload s l.val k)) k s)) ∧
    (k.slot ≠ 0 → k.nakPending = true → let k1 := { k with nakPending := false }
      exec (.flitSlot l) s = .next (odBump (0x6010 + l.val) 0x0A
        (sendPlain l.val (mkFlit (slotHdr k1 3 0 0xF k1.nextSeq) []) k1 s))) ∧
    (k.slot ≠ 0 → k.nakPending = false → ∀ i f, k.replayAt = some i → k.replay[i]? = some f →
      exec (.flitSlot l) s = .next (sendPlain l.val (resend k f.flit)
        { k with replayAt := if i + 1 < k.replay.length then some (i + 1) else none } (countTether l.val 3 s))) ∧
    (k.slot ≠ 0 → k.nakPending = false → k.replayAt = none → k.replay.length < outstandingLimit → k.ctlOut = [] →
      ∀ vc, payloadVc k = some vc → ∃ t, exec (.flitSlot l) s = .next t ∧
        Tbl.get (t.link l.val).credits vc 0 = Tbl.get k.credits vc 0 - 1 ∧
        (t.link l.val).nextSeq = k.nextSeq + 1 ∧ (t.link l.val).replay.length = k.replay.length + 1)) ∧
  (∀ (l : LinkId) (f : Flit) (s : State), (s.link l.val).state = .active → flitGood f = true →
    let k := takeHeader f.hdr (s.link l.val)
    let vc := hdrVc f.hdr
    (hdrSeq f.hdr = k.expSeq → exec (.payloadFlit l f) s = .next ((countTether l.val 2 s).setLink l.val (freeBuffer vc
      { k with expSeq := k.expSeq + 1, accepted := true, nakOut := false,
               rx := k.rx.set vc (dropMessages_ (Tbl.get k.rx vc [] ++ wordsOf 15 (takePad 120 0 f.payload)) 16) }))) ∧
    (seqAhead (hdrSeq f.hdr) k.expSeq = false → exec (.nullFlit l f) s = .next (s.setLink l.val k)) ∧
    (seqAhead (hdrSeq f.hdr) (s.link l.val).expSeq = false →
      exec (.nakFlit l f) s = .next (if k.replayAt.isSome ∧ hdrAck f.hdr + 1 = k.replayFrom then s.setLink l.val k
        else startReplay l.val (s.setLink l.val k)))) ∧
  (∀ (l : LinkId) (s : State), (s.link l.val).state = .active →
    ((s.link l.val).nakOut = true → exec (.nakRepeatTimeout l) s = .next (s.setLink l.val { s.link l.val with nakPending := true })) ∧
    ((s.link l.val).replay ≠ [] → exec (.replayTimeout l) s = .next (startReplay l.val (odBump (0x6010 + l.val) 0x0C s)))) ∧
  (∀ (l : LinkId) (s : State), (s.link l.val).holding = true → (s.link l.val).state ≠ .active →
    let s1 := s.setLink l.val { s.link l.val with
      holding := false, fresh := true, replay := [], replayAt := none, replayCount := 0, txq := [], rx := [] }
    exec (.linkHoldExpiry l) s = .next ((carriedLinks s1 l.val).foldl (fun t j => resendPower j (handBack j t)) s1))

/-- Link control, lane sparing, failover and the requests of R121 (R113–R121). -/
def Obligations.LinkControlCompletes : Prop :=
  (∀ (l : LinkId) (h : BitVec 40) (b : ParamBody) (s : State), receives (s.link l.val) = true → (s.link l.val).state ≠ .active →
    (acceptCtl l.val h s).1 = true → b.version = 1 → b.role = 1 → creditsOk b.credits = true → b.identity.toNat ≠ 0 →
    odGet s (0x6010 + l.val) 0x05 = b.identity.toNat →
    let s1 := (acceptCtl l.val h s).2
    exec (.param l h b) s = .next (tryActive l.val (sendCtl l.val 0x02 0 false (s1.setLink l.val (takeParam b (s1.link l.val)))))) ∧
  (∀ (l : LinkId) (h : BitVec 40) (s : State), receives (s.link l.val) = true → (acceptCtl l.val h s).1 = true →
    let s1 := (acceptCtl l.val h s).2
    ((s1.link l.val).ctl.any (fun c => decide (c.op = 1)) = true →
      exec (.paramAck l h) s = .next (tryActive l.val (s1.setLink l.val (answered 1 { s1.link l.val with paramAcked := true })))) ∧
    ((s.link l.val).state = .active → exec (.retrainReq l h) s = .next (enterRetrain l.val true s1)) ∧
    (∀ lane : BitVec 8, (s1.link l.val).spareLane = some lane.toNat → (s1.link l.val).switchAt = none →
      let n := (s1.link l.val).sfCount + 16
      exec (.spareReady l h lane (BitVec.ofNat 8 l.val) 4) s = .next (sendCtl l.val 0x05 (lane.toNat % 2 + 2 * n.toNat) false
        (s1.setLink l.val (answered 3 { s1.link l.val with switchAt := some n })))) ∧
    (∀ j : BitVec 8, exec (.failoverAck l h j) s = .next (failoverDone l.val j.toNat s1) ∧
      exec (.failbackAck l h j) s = .next (failbackDone l.val j.toNat s1))) ∧
  (∀ (l : LinkId) (lane : Nat) (s : State), (s.link l.val).spareLane = some lane →
    let res := resource 4 (l.val / 2 * 5 + physLane s l.val lane)
    (∀ n, (s.link l.val).switchAt = some n → exec (.spareSwitchSuperframe l) s =
      .next (endRepair 0x06 0x09 res {} (mapSpare l.val lane (s.setLink l.val { s.link l.val with
        spareLane := none, switchAt := none, spareBoth := false,
        lanes := (s.link l.val).lanes.set lane (s.link l.val).spareTrain })))) ∧
    ((s.link l.val).switchAt = none → exec (.spareReadyTimeout l) s =
      .next (endRepair 0x06 0x09 res { outcome := 3 } (failQuadSpare (l.val / 2)
        (s.setLink l.val (answered 3 { s.link l.val with spareLane := none })))))) ∧
  (∀ (l : LinkId) (c : CtlPending) (r : List CtlPending) (s : State), (s.link l.val).ctl = c :: r → c.repeats < 9 →
    exec (.linkCtlRepeat l) s = .next (s.setLink l.val { s.link l.val with
      ctl := r ++ [{ c with repeats := c.repeats + 1 }], ctlOut := (s.link l.val).ctlOut ++ [(c.op, c.arg)] })) ∧
  (∀ (l : LinkId) (a b ucw : Nat) (s : State), serHigh s a = false → serHigh s b = false → ucw ≤ odGet s 0x6000 0x04 →
    Completes (.serWindow l [a, b] ucw) s (fun t => (t.link l.val).state = (s.link l.val).state ∧ (t.link l.val).serLast = [a, b] ∧
      Tbl.get (t.link l.val).serRuns 0 0 = 0 ∧ Tbl.get (t.link l.val).serRuns 1 0 = 0)) ∧
  (∀ (path : Path) (l : LinkId) (s : State), (s.link l.val).failbackPath = none →
    (Permits path (0x6010 + l.val) 0x06 1 s → (s.link l.val).state = .mismatch →
      exec (.acceptIdentity path l) s = .next (setAnswer path .ok (linkResult path l.val 0 (acceptIdentity l.val s)))) ∧
    (Permits path (0x6010 + l.val) 0x06 2 s → (s.link l.val).state = .active → carrierOf s l.val ≠ l.val →
      exec (.linkFailback path l) s = .next (setAnswer path .ok (linkResult path l.val 1
        (s.setLink l.val { s.link l.val with failbackPath := some path, failbackSent := false })))) ∧
    (Permits path (0x6010 + l.val) 0x06 3 s → (s.link l.val).state = .active →
      exec (.forceRetrain path l) s = .next (setAnswer path .ok (linkResult path l.val 0 (enterRetrain l.val false s)))) ∧
    (Permits path (0x6010 + l.val) 0x06 4 s → (s.link l.val).state = .failed →
      exec (.linkReenable path l) s = .next (setAnswer path .ok (linkResult path l.val 0
        (toDetect l.val (s.setLink l.val (restartLink (s.link l.val)))))))) ∧
  (∀ (l : LinkId) (s : State), (s.link l.val).failbackPath.isSome = true → (s.link l.val).failbackSent = false →
    let t := carrierOf s l.val
    (s.link l.val).state = .active → t ≠ l.val → (∀ f ∈ (s.link t).replay, l.val ∉ f.links) → (∀ m ∈ (s.link t).txq, m.port / 32 ≠ l.val) →
    exec (.failbackSend l) s = .next (sendCtl t 0x0B l.val true (s.setLink l.val { s.link l.val with failbackSent := true, failbackGone := false }))) ∧
  (∀ (l : LinkId) (s : State), natBit (odGet s 0x6000 0x07) l.val = false → (s.link l.val).state ≠ .disabled →
    let s1 := failoverFails l.val 2 (stopSparing l.val s)
    let k1 := { s1.link l.val with replay := [], replayAt := none, txq := [], rx := [], holding := false, fresh := true }
    let s2 := dropGuests l.val (setLinkState l.val .disabled (s1.setLink l.val { k1 with ctl := [], ctlOut := [], phase := 0 }))
    exec (.linkDisable l) s = .next (if carrierOf s2 l.val = l.val then portsOffline l.val s2 else s2))

/-- Drive ports take the answers of the bridge, their expiries and their requests (R124–R131, R138). -/
def Obligations.DrivePortsComplete : Prop :=
  (∀ (p : PortId) (c : DriveCmd) (s : State), (s.port p.val).waiting.find? (mayIssue s p.val) = some c →
    exec (.portCommandIssue p) s = .next (issueCmd p.val c
      (s.setPort p.val { s.port p.val with waiting := (s.port p.val).waiting.erase c }))) ∧
  (∀ (p : PortId) (tag : BitVec 8) (c : DriveCmd) (s : State), tagCmd (s.port p.val) tag = some c → c.abortSent = false →
    let s1 := sendAbort p.val tag.toNat (modTag p.val tag (fun y => { y with abortSent := true, outcomeGiven := true }) s)
    let s2 := driveLost c [] (odBump (0x6400 + p.val) 0x0A s1)
    let s3 := if c.op = 5 then identify p.val s2 else s2
    (c.outcomeGiven = true → exec (.dlDriveExpiry p tag) s = .next s1) ∧
    (c.outcomeGiven = false → exec (.dlDriveExpiry p tag) s = .next (trySleep (portShelf s3 p.val) (countFail p.val s3)))) ∧
  (∀ (p : PortId) (tag : BitVec 8) (c : DriveCmd) (s : State), tagCmd (s.port p.val) tag = some c → c.abortSent = true →
    exec (.abortTimeout p tag) s = .next (dropPort p.val .failed s)) ∧
  (∀ (l : LinkId) (p : PortId) (tag : BitVec 8) (c : DriveCmd) (s : State), tagCmd (s.port p.val) tag = some c →
    carrierOf s (p.val / 32) = l.val →
    (∀ (code : BitVec 8) (blk : BitVec 40) (span : Fin 16), code.toNat ≤ 9 → c.outcomeGiven = false →
      let s1 := statusOutcome p.val c code.toNat blk.toNat span.val (freeTagOf p.val tag s)
      exec (.statusMsg l p tag code blk span) s = .next (trySleep (portShelf s1 p.val) s1)) ∧
    (∀ (blk : Fin 16) (poison : BitVec 16) (block : BitVec 40) (seals : List Word), c.op = 1 → c.outcomeGiven = false → blk.val < c.count →
      let marks := ((List.range 16).filter (fun i => poison.getLsbD i)).length
      exec (.sealMsg l p tag blk poison block seals) s = .next (modTag p.val tag
        (fun y => { y with gotSeals := y.gotSeals.set blk.val seals, gotPoison := y.gotPoison.set blk.val poison })
        (odAdd (0x6400 + p.val) 0x0D marks s))) ∧
    (∀ (blk : Fin 16) (data : List Byte), c.op = 1 → c.outcomeGiven = false → blk.val < c.count →
      exec (.dataMsg l p tag blk data) s =
        .next (modTag p.val tag (fun y => { y with gotData := y.gotData.set blk.val data }) s)) ∧
    (∀ (present : Bool) (serial : BitVec 128) (cap : BitVec 40), c.op = 5 → c.outcomeGiven = false →
      let s1 := identified p.val present serial cap.toNat (freeTagOf p.val tag s)
      exec (.identData l p tag present serial cap) s = .next (trySleep (portShelf s1 p.val) s1))) ∧
  (∀ (l : LinkId) (p : PortId) (present : Bool) (s : State), carrierOf s (p.val / 32) = l.val →
    exec (.portChange l p present) s = .next (portChange p.val present s)) ∧
  (∀ (l : LinkId) (code : BitVec 16) (value : BitVec 64) (s : State), exec (.bridgeAlert l code value) s =
    .next (record { kind := 0x0E, cls := 0, resource := resource 5 l.val, cause := code.toNat, addr := value.toNat }
      (raiseLink l.val (odBump (0x6010 + l.val) 0x11 s)))) ∧
  (∀ (l : LinkId) (ty : BitVec 8) (len : Nat) (s : State), (ty.toNat, len) ∉ bridgeMessages →
    exec (.unknownMessage l ty len) s = .next (odBump (0x6010 + l.val) 0x10 s)) ∧
  (∀ (path : Path) (p : PortId) (s : State),
    (Permits path (0x6400 + p.val) 0x07 1 s → (s.port p.val).state = .new → exec (.acceptDrive path p) s = .next (setAnswer path .ok
      (requestResult path p.val 0 (setPortState p.val .asleep (recordSerial p.val (s.port p.val).newSerial s))))) ∧
    (Permits path (0x6400 + p.val) 0x07 2 s → (s.port p.val).state ≠ .retired → exec (.retirePort path p) s = .next (setAnswer path .ok
      (requestResult path p.val 0 (dropPort p.val .retired (s.setPort p.val { s.port p.val with joinReq := none, takeNext := false }))))) ∧
    (Permits path (0x6400 + p.val) 0x07 3 s → (s.port p.val).state = .late → exec (.reenablePort path p) s = .next (setAnswer path .ok
      (requestResult path p.val 0 (if shelfUp s p.val then joinWake p.val s else setPortState p.val .asleep s)))) ∧
    (∀ h : BitVec 8, Permits path (0x6400 + p.val) 0x03 h.toNat s →
      let others := ((s.port p.val).shelfMove.map (fun m => m.2.filter (fun q => decide (q ≠ path)))).getD []
      exec (.portShelfWrite path p h) s = .next (setAnswer path .ok (portResult path p.val 1 (noteBag (0x6400 + p.val) 0x03
        (s.setPort p.val { s.port p.val with shelfMove := some (h.toNat, path :: others) })))))) ∧
  (∀ (paths : List Path) (p : PortId) (h : Nat) (s : State), (s.port p.val).shelfMove = some (h, paths) → (s.shelf h).state = .asleep →
    (s.shelf (portShelf s p.val)).state = .asleep → exec (.portShelfMove p) s =
      .next (paths.foldl (fun t path => portResult path p.val 0 t)
        (odSet (0x6400 + p.val) 0x03 h (s.setPort p.val { s.port p.val with shelfMove := none }))))

/-- Shelves: their requests, wakes, windows and power-downs (R132–R135). -/
def Obligations.ShelvesComplete : Prop :=
  (∀ (l : LinkId) (req : BitVec 8) (ok failed : BitVec 32) (h ll : Nat) (up : Bool) (s : State),
    (List.range 128).findSome? (fun h =>
      ((s.shelf h).awaiting.find? (fun a => decide (carrierOf s a.1 = l.val) && decide (a.2.1 = req))).map
        (fun a => (h, a.1, a.2.2))) = some (h, ll, up) →
    exec (.powerDone l req ok failed) s = .next (shelfPowerDone h ll req up ok failed s)) ∧
  (∀ (path : Path) (h : ShelfId) (s : State),
    (Permits path (0x6100 + h.val) 0x02 1 s → (s.shelf h.val).state = .awake → (s.shelf h.val).requests = [] →
      Completes (.shelfWakeRequest path h) s (fun t => t.shelf h.val = s.shelf h.val ∧ t.wakeQueue = s.wakeQueue)) ∧
    (Permits path (0x6100 + h.val) 0x02 1 s → (s.shelf h.val).state = .asleep → (s.shelf h.val).requests = [] → (h.val, false) ∉ s.wakeQueue →
      Completes (.shelfWakeRequest path h) s (fun t => t.wakeQueue = s.wakeQueue ++ [(h.val, false)] ∧
        (t.shelf h.val).requests = [{ wake := true, path := path }])) ∧
    (Permits path (0x6100 + h.val) 0x02 2 s → (s.shelf h.val).state = .awake →
      exec (.shelfSleepRequest path h) s = .next (setAnswer path .ok (shelfResult path h.val 0 (startClosing h.val s)))) ∧
    (∀ (v : BitVec 32) (e : Nat), Permits path (0x6100 + h.val) 0x04 v.toNat s → (s.shelf h.val).state ≠ .awake →
      exec (.windowLenWrite path h v e) s = .next (setAnswer path .ok (storeOd (0x6100 + h.val) 0x04 v.toNat s)))) ∧
  (∀ (h : Nat) (work : Bool) (s : State), wakingShelves s < odGet s 0x6000 0x0C → s.pwr.pwrfail = false →
    s.wakeQueue.find? (fun r => decide ((s.shelf r.1).state = .asleep)) = some (h, work) →
    exec .shelfWakeAdmit s = .next (admitWake h s)) ∧
  (∀ (h : ShelfId) (s : State), (s.shelf h.val).state = .waking →
    let slow := (s.shelf h.val).holders.filter (fun q => decide ((s.port q).state = .waking))
    exec (.wakeLimitExpiry h none) s = .next (tryOpen h.val (slow.foldl (fun t q => makeLate q t) s))) ∧
  (∀ (h : ShelfId) (q : PortId) (s : State), (s.port q.val).joinReq.isSome = true → (s.port q.val).state = .waking →
    exec (.wakeLimitExpiry h (some q)) s = .next (makeLate q.val (s.setPort q.val { s.port q.val with joinReq := none }))) ∧
  (∀ (h : ShelfId) (s : State),
    ((s.shelf h.val).state = .awake → exec (.windowGuardReached h) s = .next (startClosing h.val s)) ∧
    ((s.shelf h.val).state = .closing → (s.shelf h.val).pastWindow = false →
      (∀ p ∈ shelfPorts s h.val, (s.port p).waiting = []) →
      let s1 := odBump (0x6100 + h.val) 0x0A (s.setShelf h.val { s.shelf h.val with pastWindow := true })
      exec (.dlWindowExpiry h) s = .next (trySleep h.val s1)) ∧
    ((s.shelf h.val).state = .sleeping →
      let links := ((s.shelf h.val).awaiting.filter (fun a => !a.2.2)).map (·.1)
      let quiet := (shelfPorts s h.val).filter (fun p => links.contains (p / 32))
      exec (.powerDoneTimeout h) s = .next (shelfAsleep h.val (quiet.foldl (fun t p => missSleep p t)
        (record { kind := 0x06, cls := 0, resource := resource 12 h.val } s)))))

/-! ## Power -/

/-- Entries of power states and what ends them: QUIET exchanges, the timeouts of autonomous entries, requests, wake sources, and domains
that come up or fail to (R114, R414–R421, R476). -/
def Obligations.PowerTransitionsComplete : Prop :=
  (∀ (l : LinkId) (h : BitVec 40) (s : State), receives (s.link l.val) = true → (acceptCtl l.val h s).1 = true →
    let s1 := (acceptCtl l.val h s).2
    (s1.link l.val).quietSent = true → (s1.link l.val).state = .active →
    exec (.quietAck l h) s = .next (s1.setLink l.val (answered 6 { s1.link l.val with quietSent := false, quietNext := true }))) ∧
  (∀ (l : LinkId) (s : State), s.pwr.entering = some .sleep → s.pwr.quietWait.contains l.val = true →
    Completes (.quietAckTimeout l) s (fun t => t.pwr.entering = none ∧ t.pwr.quietWait = [] ∧ t.pwr.state = s.pwr.state)) ∧
  (∀ s : State,
    (s.pwr.state = .run → entryPermitted s .idle = true → (∀ k, k < 128 → coreIdle s k = true) →
      exec .idleEntryTimeout s = .next (attemptEntry .idle (setPower .idle) s)) ∧
    (s.pwr.state = .idle → entryPermitted s .sleep = true → exec .sleepEntryTimeout s = .next (attemptEntry .sleep startSleep s)) ∧
    (s.pwr.state = .sleep → entryPermitted s .deep = true → exec .deepEntryTimeout s = .next (attemptEntry .deep finishDeep s))) ∧
  (∀ (path : Path) (s : State),
    (Permits path 0x2000 0x06 1 s → exec (.powerRequestWake path) s =
      .next (setAnswer path .ok (wakeDevice 8 (pathSet path 0x2000 0x07 0 s)))) ∧
    (Permits path 0x2000 0x06 2 s → s.pwr.entering = none → s.boot.ready = true → refuser (odBump 0x2014 0x01 s) .off = none →
      Completes (.powerRequestOff path) s (fun t => t.pwr.state = .off ∧ t.mem = {} ∧ t.cores = [] ∧ t.bagPending = []))) ∧
  (∀ s : State,
    (s.pwr.state = .off → exec .wakeNFall s = .next { s with pwr := { s.pwr with state := .run } }) ∧
    (s.pwr.state ≠ .off → s.boot.ready = true → s.far.fatal = false → exec .wakeNFall s = .next (wakeDevice 5 s)) ∧
    (odGet s 0x2000 0x08 ≠ 0 → s.pwr.state ≠ .off → exec .wakeTimerExpiry s = .next (wakeDevice 6 (odSet 0x2000 0x08 0 s)))) ∧
  (∀ (a : BitVec 7) (cmd : BitVec 8) (s : State), a.toNat = halterAddr s →
    let s1 := { s with side := { s.side with sclHeld := true, halterNack := false, halterAddr := a.toNat } }
    exec (.halterAddressMatch a cmd) s =
      .next (if s.pwr.state = .deep ∧ natBit (odGet s 0x2000 0x0A) 2 = true ∧ cmd = 3 then s1 else wakeDevice 4 s1)) ∧
  (∀ s : State, s.side.sclHeld = true →
    exec .halterHoldTimeout s = .next { s with side := { s.side with sclHeld := false, halterNack := true } }) ∧
  (∀ (d : Domain) (s : State), domState s d = .waking → exec (.domainWakeDone d) s = .next (domainUp d
    (setDom d .up { s with pwr := { s.pwr with wakeTries := s.pwr.wakeTries.filter (fun x => decide (x.1 ≠ d)) } }))) ∧
  (∀ (cause : Nat) (s : State), s.pwr.state = .deep → s.pwr.deepExit = some cause →
    let s1 := setPower .sleep (odSet 0x2000 0x09 cause { s with pwr := { s.pwr with deepExit := none } })
    exec .deepExitDone s = .next (pumpCan (powerFailsNow (wakeDevice cause (restartWdog s1))))) ∧
  (∀ (d : Domain) (s : State), domState s d = .waking → (∀ q, d ≠ .quad q) → (∀ x ∈ s.pwr.wakeTries, x.1 ≠ d) →
    let s1 := odBump 0x2000 0x17 s
    exec (.dlWakeExpiry d) s = .next { s1 with pwr := { s1.pwr with wakeTries := (d, 1) :: s1.pwr.wakeTries } })

/-- Gaits, demotions, droops, power failure, brown-out, phase and rail faults (R410, R411, R424–R428, R538). -/
def Obligations.SupplyAndGaitsComplete : Prop :=
  (∀ s : State, exec .gaitGrantEval s = .next (gaitEval { s with pwr := { s.pwr with
    evals := (s.pwr.evals + 1) % 10, droopCount := if (s.pwr.evals + 1) % 10 = 0 then [] else s.pwr.droopCount } })) ∧
  (∀ (c : CoreId) (s : State), (s.corePwr c.val).gait < (s.corePwr c.val).grant →
    exec (.gaitVoltageRamped c) s = .next (s.setCorePwr c.val { s.corePwr c.val with gait := (s.corePwr c.val).grant })) ∧
  (∀ (w : Nat) (temps : List Int) (s : State), samples s = true → exec (.powerThermalSample w temps) s = .next (powerSample w temps s)) ∧
  (∀ (d : Demotion) (s : State), s.pwr.demotions.find? (fun x => !causePresent s x) = some d → d ≠ .powerCap →
    exec (.demotionLift d) s =
      .next (gaitEval { s with pwr := { s.pwr with demotions := s.pwr.demotions.filter (fun x => decide (x ≠ d)) } })) ∧
  (∀ (die : Fin 2) (s : State), let n := Tbl.get s.pwr.droopCount die.val 0 + 1
    (n ≤ 20 → exec (.droopLevel1 die) s = .next (odBump 0x2000 0x13 { s with pwr := { s.pwr with
      stretch := s.pwr.stretch ||| ((1 : BitVec 2) <<< die.val), droopCount := s.pwr.droopCount.set die.val n } })) ∧
    exec (.clockStretchEnd die) s =
      .next { s with pwr := { s.pwr with stretch := s.pwr.stretch &&& ~~~((1 : BitVec 2) <<< die.val) } }) ∧
  (∀ s : State, exec .droopLevel3 s = .next (powerFails (odBump 0x2000 0x14 s)) ∧
    (s.pwr.state ≠ .off → ¬(s.pwr.state = .deep ∧ s.pwr.deepExit = none) → exec .pwrfailAssert s = .next (powerFails (odBump 0x2000 0x15 s))) ∧
    exec .brownOut s = .next (restart 1 s)) ∧
  (∀ s : State, s.pwr.flushing = true → let s1 := saveLog (storeBag s)
    exec .flushSetWritten s = .next { s1 with pwr := { s1.pwr with
      flushing := false, flushSeq := s1.pwr.flushSeq + 1, flushStopped := false } } ∧
    exec .dlFlushExpiry s = .next (odBump 0x2000 0x16 { s with pwr := { s.pwr with flushing := false, flushStopped := true } })) ∧
  (∀ s : State, s.pwr.pwrfail = true →
    exec .pwrfailDeassertStable s = .next (gaitEval { s with pwr := { s.pwr with pwrfail := false } })) ∧
  (∀ (r : Regulator) (s : State), s.pwr.lost.contains r = false → exec (.phaseFault r) s =
    .next (shedEffect r false (repairNow { kind := 0x09, cls := 0, resource := regResource r, action := 0x0D }
      { s with pwr := { s.pwr with lost := r :: s.pwr.lost } }))) ∧
  (∀ (r : Rail) (s : State), r ≠ .vccIn → s.pwr.state ∉ [PowerState.deep, .off] →
    exec (.railOutOfTolerance r) s = .next (powerFails (record { kind := 0x0D, cls := 0 } s)))

/-! ## Rings -/

/-- The Longe rings: a lane sends its retries first, then a strict flit that has its train, then the winner of arbitration; a head that has
waited ages or is promoted; a failed check takes the flits sent since back into the retry buffer; detours are installed, strict groups take
effect and packets for retired stops are resolved (R148–R166, R447). -/
def Obligations.RingsComplete : Prop :=
  (∀ (seg : BitVec 11) (cycle : Nat) (flip : Bool) (inj : List LocalSrc) (s : State),
    let c := seg.toNat
    let s1 := ejectAt (segFrom c) cycle (ejectAll c (inj.foldl (fun t x => queuePacket (segFrom c) x t) s))
    let s2 := s1.setLane c { s1.lane c with now := cycle }
    let s3 := injectStrict c s2
    let ln := s3.lane c
    segValid c = true → c ∉ s2.ring.failedSegs →
    (∀ f r, ln.retry = f :: r →
      exec (.ringArbitration seg ⟨cycle, flip⟩ inj) s = .next (putFlit c cycle flip f (s3.setLane c { ln with retry := r }))) ∧
    (ln.retry = [] → (∀ f, strictFlit s3 c cycle = some f →
        exec (.ringArbitration seg ⟨cycle, flip⟩ inj) s =
          .next (putFlit c cycle flip f (countSent c f (decide (f.train = none)) (s3.setLane c { ln with strict := ln.strict.erase f })))) ∧
      (strictFlit s3 c cycle = none → groupStall s3 (trainGroup c cycle) = none → ∀ x, pickCand ln (candidates s3 c cycle) = some x →
        exec (.ringArbitration seg ⟨cycle, flip⟩ inj) s =
          .next (putFlit c cycle flip x.flit (countSent c x.flit (turns c x) (noteWinner c x (takeFlit c x s3))))))) ∧
  (∀ (seg p : BitVec 11) (v : Fin 16) (f : RingFlit) (s : State), bufferHead s seg.toNat p.toNat v.val = some f →
    (hPri f.hdr ≤ 1 → exec (.priorityAging seg (.input p v)) s =
      .next (mapHead p.toNat v.val (fun x => { x with aged := true }) s)) ∧
    (sameLane p.toNat seg.toNat = false → f.promoted = false → exec (.headPromotion seg (.input p v)) s =
      .next (promotion seg.toNat (mapHead p.toNat v.val (fun x => { x with promoted := true }) s)))) ∧
  (∀ (seg : BitVec 11) (q : Fin 16) (x : QueuedPkt) (s : State), (s.ringQueue (segFrom seg.toNat) q.val).head? = some x →
    nextSeg (injectFlit s x) = some seg.toNat →
    (hPri x.hdr ≤ 1 → exec (.priorityAging seg (.inject q)) s =
      .next (mapQueued (segFrom seg.toNat) q.val (fun y => { y with aged := true }) s)) ∧
    (x.promoted = false → exec (.headPromotion seg (.inject q)) s =
      .next (promotion seg.toNat (mapQueued (segFrom seg.toNat) q.val (fun y => { y with promoted := true }) s)))) ∧
  (∀ (seg : BitVec 11) (after : Fin 8) (f : RingFlit) (r : List RingFlit) (s s1 : State),
    let c := seg.toNat
    let l := s.lane c
    let back := l.sent.drop (l.sent.length - (after.val + 1))
    back = f :: r → back.length = after.val + 1 → back.reverse.foldl (fun t g => t.bind (unsend c g)) (some s) = some s1 →
    let times := l.now :: l.retries.filter (fun x => decide (l.now - x < 2000000))
    let s2 := odBump 0xF010 0x04 (s1.setLane c { s1.lane c with
      sent := l.sent.take (l.sent.length - back.length), retries := times, retry := (f :: r).map (fun g => { g with bad := true }) ++ (s1.lane c).retry })
    exec (.flitUeRetry ⟨seg, after⟩) s = .next (if f.bad = true ∨ 16 ≤ times.length then segFailed c s2 else s2)) ∧
  (∀ (seg : BitVec 11) (r : Repair) (d : List Nat) (s : State),
    s.far.running.find? (fun r => decide (r.action = 0x04) && decide (r.resource.toNat = resource 1 seg.toNat)) = some r →
    detourFor s seg.toNat = some d →
    exec (.detourInstalled seg) s = .next (endRepair 0x05 0x04 (resource 1 seg.toNat) {} (takeDetour seg.toNat d s))) ∧
  (∀ (n : StallId) (s : State), (s.stall n.val).ringPending = true →
    (∀ f ∈ ringFlits s, hStrict f.hdr = true → hStall f.hdr ≠ n.val) → exec (.ringGroupsApply n) s =
    .next (evalStalls (s.setStall n.val { s.stall n.val with
      ringNow := BitVec.ofNat 32 (odGet s (0x4100 + n.val) 0x20), ringPending := false }))) ∧
  (∀ (path : Path) (code : BitVec 16) (s : State), Permits path 0xF010 0x07 code.toNat s →
    exec (.segmentFailTest path code) s = .next (setAnswer path .ok (segFailed (code.toNat % 2048) s))) ∧
  (∀ (t : SliceId) (pa : BitVec 52) (p : Pkt) (s s1 : State), agentLost s (stopDie (tileStop t.val)) = false →
    takePkt (tileStop t.val) (lineOf pa) PktKind.isSnp s = some (p, s1) →
    exec (.packetToRetiredStop (.snoop t pa)) s = .next (resolved (tileStop t.val)
      (sendPkt { stop := tileStop t.val, line := lineOf pa, kind := .gone, ref := p.ref } s1))) ∧
  (∀ (r : Req) (old : SliceId) (q : HomeReq) (rest : List HomeReq) (s : State), agentLost s (stopDie (tileStop old.val)) = false →
    takeFirst (fun x => decide (x.req = r)) (s.slice old.val).queue = some (q, rest) → homeSlice s (r.pa.toNat / 256) ≠ old.val →
    let s1 := s.setSlice old.val { s.slice old.val with queue := rest }
    let home := homeSlice s (r.pa.toNat / 256)
    exec (.packetToRetiredStop (.request r old)) s = .next (resolved (tileStop old.val)
      (s1.setSlice home { s1.slice home with queue := (s1.slice home).queue ++ [q] })))


/-! ## Tenant stalls and their resources -/

/-- The life of a stall: its creation, its start, its teardown, its cores and its slices (R347–R354). -/
def Obligations.StallLifeCompletes : Prop :=
  (∀ (path : Path) (n : StallId) (s : State), n.val ≠ 0 →
    (Permits path (0x4100 + n.val) 0x02 1 s → (s.stall n.val).state = .free → createStallDenied s n.val = false →
      exec (.stallCreate path n) s = .next (setAnswer path .ok (stallResult path n.val resOk (beginStall n.val s)))) ∧
    (Permits path (0x4100 + n.val) 0x02 2 s → ((s.stall n.val).state = .live ∨ (s.stall n.val).state = .fenced) →
      exec (.stallTeardown path n) s = .next (setAnswer path .ok (stallResult path n.val resOk (beginTeardown n.val s))))) ∧
  (∀ (n : StallId) (s : State), n.val ≠ 0 → (s.stall n.val).state = .creating →
    (maskCores (stallCores s n.val ||| stallShared s n.val)).all (fun k => (s.stall n.val).started.getLsbD k) = true →
    exec (.stallLive n) s = .next (evalStalls (setStallState n.val .live s))) ∧
  (∀ (n : StallId) (s : State), (s.stall n.val).state = .teardown →
    ((s.stall n.val).step = 1 → stallCtxs s n.val = [] → stallVf s n.val = none →
      exec (.teardownProgress n) s = .next (s.setStall n.val { s.stall n.val with step := 2 })) ∧
    (∀ s1, (s.stall n.val).step = 2 → stallVf s n.val = none → performTranslated s = some s1 →
      exec (.teardownProgress n) s = .next (endTeardown n.val s1))) ∧
  (∀ (path : Path) (n : StallId) (mask : BitVec 128) (s : State), n.val ≠ 0 → (s.stall n.val).state = .free →
    mask.toNat &&& s.far.offline.toNat = 0 →
    (Permits path (0x4100 + n.val) 0x06 mask.toNat s →
      exec (.coresWrite path n mask) s = .next (setAnswer path .ok (storeStall path n.val 0x06 mask.toNat s))) ∧
    (Permits path (0x4100 + n.val) 0x07 mask.toNat s →
      exec (.sharedCoresWrite path n mask) s = .next (setAnswer path .ok (storeStall path n.val 0x07 mask.toNat s)))) ∧
  (∀ (c : CoreId) (n : Nat) (s : State), (s.stalls.map (·.1)).find?
      (fun n => (s.stall n).leaving.getLsbD c.val || (s.stall n).leavingShared.getLsbD c.val) = some n →
    exec (.coreRemovalTimeout c) s = .next (record
      { kind := 0x03, cls := 0, resource := resource 13 c.val, stall := n, detail := c.val } (leaveCore n c.val s))) ∧
  (∀ (c : CoreId) (n : Nat) (s s1 : State), coreOwner s c.val = 0 → s.far.offline.getLsbD c.val = false → drainStores c.val s = some s1 → (s.core c.val).halted = false →
    (rotation s c.val).find? (fun n => decide ((s.core c.val).stall < n)) = some n →
    exec (.sliceEnd c) s = .next (evalStalls (switchStall c.val n s1)))

/-- The entries that give a stall its resources: grants, I/O root, VF, isolation, modes, ring groups, memory slots, cache ways and way
locks; the channel requests and the configuration of interrupt sources (R158, R188, R278, R286, R312, R314, R336, R358, R395–R398). A write
of IO_ROOT, and one of a grant that leaves out a part of the old range, answers BUSY until the invalidation it needs is complete. -/
def Obligations.StallResourcesComplete : Prop :=
  (∀ (path : Path) (n : StallId) (s : State), (s.stall n.val).state = .free →
    (∀ (k : Fin 16) (v : Word), Permits path (0x4100 + n.val) (0x30 + k.val) v.toNat s →
      let within := rangeIn (grantRange (odGet s (0x4100 + n.val) (0x30 + k.val))) (grantRange v.toNat)
      (within = true →
        exec (.grantWrite path n k v) s = .next (setAnswer path .ok (storeStall path n.val (0x30 + k.val) v.toNat s))) ∧
      (within = false → (s.stall n.val).grantPending = [] →
        exec (.grantWrite path n k v) s = .next (setAnswer path .ok (stallResult path n.val resBusy
          (s.setStall n.val { s.stall n.val with grantPending := [.grant k.val v path] }))))) ∧
    (∀ v : BitVec 16, Permits path (0x4100 + n.val) 0x09 v.toNat s →
      exec (.vfBindWrite path n v) s = .next (setAnswer path .ok (storeStall path n.val 0x09 v.toNat s))) ∧
    (∀ b : Bool, Permits path (0x4100 + n.val) 0x0C (if b then 1 else 0) s →
      exec (.strictWrite path n b) s = .next (setAnswer path .ok (storeStall path n.val 0x0C (if b then 1 else 0) s)))) ∧
  (∀ (path : Path) (n : StallId) (v : Word) (s : State), Permits path (0x4100 + n.val) 0x24 v.toNat s →
    odGet s (0x4100 + n.val) 0x24 ≠ v.toNat → (s.stall n.val).grantPending = [] →
    exec (.ioRootWrite path n v) s = .next (setAnswer path .ok (stallResult path n.val resBusy
      (s.setStall n.val { s.stall n.val with grantPending := [.ioRoot v path] })))) ∧
  (∀ (n : StallId) (v : Word) (path : Path) (rest : List GrantPending) (s s0 : State),
    (s.stall n.val).grantPending ≠ [] → performTranslated s = some s0 → (s0.stall n.val).grantPending = .ioRoot v path :: rest →
    let s1 := invalidateStall n.val (s0.setStall n.val { s0.stall n.val with grantPending := rest })
    exec (.grantWriteComplete n) s =
      .next (evalStalls (grantDone path n.val rest (storeOd (0x4100 + n.val) 0x24 v.toNat s1)))) ∧
  (∀ (n : StallId) (s : State), (s.stall n.val).cleaning = true →
    let s1 := (waySectors s (waysOf s n.val)).foldl (fun t sec => evictSector sec t) s
    exec (.strictWayCleanDone n) s =
      .next (evalStalls (s1.setStall n.val { s1.stall n.val with cleaning := false, strictActive := true }))) ∧
  (∀ (path : Path) (n : StallId) (v : BitVec 32) (s : State),
    (Permits path (0x4100 + n.val) 0x21 v.toNat s →
      (∀ k, k < 128 → (s.core k).stall = n.val → (s.core k).started = false) →
      exec (.coreModeWrite path n v) s =
        .next (setAnswer path .ok (evalStalls (stallResult path n.val resOk (storeOd (0x4100 + n.val) 0x21 (v.toNat % 8) s))))) ∧
    (Permits path (0x4100 + n.val) 0x20 v.toNat s → v.toNat % 256 = 0 →
      groupsHeld s n.val v.toNat = false →
      let s1 := storeOd (0x4100 + n.val) 0x20 v.toNat s
      exec (.ringGroupsWrite path n v) s = .next (setAnswer path .ok (evalStalls (stallResult path n.val resOk
        (s1.setStall n.val { s1.stall n.val with ringPending := true }))))) ∧
    (Permits path (0x4100 + n.val) 0x23 v.toNat s → slotsDenied s n.val v.toNat = false →
      let s1 := storeOd (0x4100 + n.val) 0x23 v.toNat s
      exec (.memSlotsWrite path n v) s = .next (setAnswer path .ok (evalStalls (stallResult path n.val resOk
        (s1.setStall n.val { s1.stall n.val with slotsPending := true })))))) ∧
  (∀ (path : Path) (n : StallId) (v : BitVec 16) (s : State), Permits path (0x4100 + n.val) 0x22 v.toNat s → v ≠ 0 →
    waysMeetStrict s n.val v.toNat = false →
    exec (.llcWaysWrite path n v) s = .next (setAnswer path .ok (storeStall path n.val 0x22 v.toNat s))) ∧
  (∀ (path : Path) (w : Fin 16) (v : BitVec 32) (s : State), Permits path 0x5100 (0x10 + w.val) v.toNat s →
    natBit v.toNat 0 = false → exec (.wayLockWrite path w v) s =
      .next (setAnswer path .ok (evalStalls (storeOd 0x5100 (0x10 + w.val) (v.toNat % 2 ^ 14) s)))) ∧
  (∀ (path : Path) (c : ChanId) (rank : Fin 8) (s : State),
    (Permits path (0x5010 + c.val) 0x0E 1 s →
      exec (.retireChannel path c) s = .next (setAnswer path .ok (writeChanAction c.val 1 path s))) ∧
    (Permits path (0x5010 + c.val) 0x0E (2 + 16 * rank.val) s →
      exec (.spareRankRequest path c rank) s = .next (setAnswer path .ok (writeChanAction c.val (2 + 16 * rank.val) path s)))) ∧
  (∀ (n : SourceId) (s : State), srcEn (srcCfg s n.val) = true → 0 < (s.source n.val).count → (s.source n.val).signalled = false →
    exec (.sourceCoalesceTimeout n) s = .next (signalSource n.val s) ∧
    exec (.dlCoalesceExpiry n) s = .next (recordDeadline 8 0xF000 (odBump 0x9000 0x07 (signalSource n.val s)))) ∧
  (∀ (path : Path) (w : Word) (s : State), Permits path 0x9000 0x02 w.toNat s → pathClass path ≠ .t →
    let n := pathGet s path 0x9000 0x01 % 2048
    srcReserved n = false → targetDenied s n w = false → (s.source n).signalled = false →
    exec (.sourceConfigWrite path w) s = .next (setAnswer path .ok (pathSet path 0x9000 0x04 resOk (evalSource n
      (noteBag (srcIdx n) 0x02 (s.setSource n { s.source n with cfg := some (cfgWord n w) }))))))

/-! ## The dictionary and the side-band paths -/

/-- A dictionary write, a slot of the serializer, the saddlebag and RESTORE (R465–R467, R494). -/
def Obligations.DictionaryCompletes : Prop :=
  (∀ (path : Path) (idx : BitVec 16) (sub : BitVec 8) (data : List Byte) (s : State), groomServes s = true →
    checkWrite s path idx.toNat sub.toNat data = .ok → s.boot.ready = true →
    exec (.dictWrite path idx sub data) s =
      .next (setAnswer path .ok (dictBehave path idx.toNat sub.toNat (natOfBytes data) s))) ∧
  (∀ s : State, groomServes s = true →
    let s1 := serveKept s
    let l := s1.serial.mergeSort (fun a b => accessOrder a ≤ accessOrder b)
    exec .serializerSlot s = .next ((l.take 48).foldl performAccess
      { s1 with serial := (l.drop 48).map (fun a => { a with carried := true }) })) ∧
  (∀ s : State, Completes .saddlebagStore s (fun t => t.bagPending = [] ∧ t.od = s.od ∧ t.mem = s.mem)) ∧
  (∀ x ∈ [(Instr.restoreCancel, 0), (Instr.restoreConfig, 1), (Instr.restoreAll, 2)], ∀ (path : Path) (s : State),
    Permits path 0x1000 0x0B x.2 s →
    exec (x.1 path) s = .next (setAnswer path .ok (pathSet path 0x1000 0x0C resOk (storeOd 0x1000 0x0B x.2 s))))

/-- Wealar over CAN FD and the halter port (R468–R477). -/
def Obligations.SideBandCompletes : Prop :=
  (∀ (id : BitVec 29) (data : List Byte) (brs : Bool) (s : State), idResp id = false → idDst id = nodeId s → canServes s = true →
    s.far.fatal = false → s.boot.mfg = false → s.pwr.state ≠ .off → s.pwr.state ≠ .deep →
    exec (.canSegment id data brs) s =
      .next (takeFrame (wakeDevice 3 (pumpCan (frameReceived { s with side := { s.side with busOff := false } }))) (id, data))) ∧
  (∀ (src : BitVec 7) (tid : BitVec 6) (x : Transfer) (s : State),
    s.side.transfers.find? (fun t => decide (t.src = src) && decide (t.tid = tid)) = some x →
    exec (.segmentTimeout src tid) s =
      .next (segmentError x.hdr x.service.toNat { s with side := { s.side with transfers := s.side.transfers.erase x } })) ∧
  (∀ s : State, exec .canBusOff s = .next (odBump 0x1000 0x1B { s with side := { s.side with busOff := true } })) ∧
  (∀ (h : WealarHdr) (s : State), canServes s = true →
    let u := wakeDevice 3 (pumpCan (frameReceived { s with side := { s.side with busOff := false } }))
    (∀ (idx : BitVec 16) (sub : BitVec 8) (data : List Byte), canWaits u < 8 →
      exec (.wealarRead h idx sub) s = .next (queueAccess
        { path := .can, write := false, idx := idx.toNat, sub := sub.toNat, data := [], can := some (h, 1) } u) ∧
      exec (.wealarWrite h idx sub data) s = .next (queueAccess
        { path := .can, write := true, idx := idx.toNat, sub := sub.toNat, data := data, can := some (h, 2) } u)) ∧
    exec (.wealarIdentify h) s = .next (wealarRespond (nodeId u) h 3 (0 :: identifyBody u) u) ∧
    (s.pwr.state ≠ .deep → (wakeDevice 3 u).pwr.state ≠ .deep → exec (.wealarWake h) s = .next (wealarRespond (nodeId (wakeDevice 3 u)) h 4
      [0, BitVec.ofNat 8 (wakeDevice 3 u).pwr.state.code] (wakeDevice 3 u))) ∧
    (∀ tid : BitVec 6, exec (.wealarAbort h tid) s = .next (wealarRespond (nodeId u) h 5 [0] { u with side := { u.side with
      transfers := u.side.transfers.filter (fun t => !(decide (t.src = h.src) && decide (t.tid = tid))) } }))) ∧
  (∀ s : State, canServes s = true → sideVal s 0x13 ≠ 0 →
    let body := [BitVec.ofNat 8 s.pwr.state.code, BitVec.ofNat 8 (serviceState s)] ++ bytesOfNat 2 (odGet s 0x1000 0x08) ++
      bytesOfNat 4 s.far.hours.toNat ++ bytesOfNat 2 s.side.evseq.toNat
    exec .heartbeat s = .next (sendFrame (wealarId 6 0x11 0 (nodeId s) ((freeValue s).toNat % 64) false) (0 :: body) (State.took s))) ∧
  (∀ s : State, halterServes s = true → s.side.halterNack = false →
    let s1 := releaseScl s
    (∀ (svc tid : BitVec 8) (body : List Byte), s.side.halterPending = false →
      exec (.halterBlockWrite svc tid body true) s = .next (halterService svc.toNat tid body
        { s1 with side := { s1.side with halterPending := true, halterReq := [svc, tid], halterReply := none } })) ∧
    (∀ b : List Byte, s.side.halterReply = some b →
      exec .halterBlockRead s = .next (emit (.smbus b) { s1 with side := { s1.side with halterReply := none } })) ∧
    (s.side.halterReply = none → exec .halterBlockRead s = .next (emit (.smbus (takePad 2 0 s1.side.halterReq ++ [9])) s1)) ∧
    exec .halterReadByte s = .next (emit (.smbus [halterStatus s]) s1))

/-! ## Bring-up, the test access port, counters and interrupts -/

/-- Each phase of bring-up acts in its phase and leads to the next one (R436, R496–R507). -/
def Obligations.BringUpCompletes : Prop :=
  (∀ (a b m : Bool) (s : State), inPhase .reset s = true → exec (.stbResetEnd a b m) s = .next (endStbReset a b m s)) ∧
  (∀ (g : PairId) (s : State), selftestRuns g.val s = true →
    exec (.romSelftestPass g) s = .next (selftestPass g.val s) ∧ exec (.romSelftestFail g) s = .next (selftestFail g.val s)) ∧
  (∀ (p : PatchLoad) (s : State), inPhase .load s = true → exec (.loadDone p) s = .next (loadAll p s)) ∧
  (∀ s : State, inPhase .power s = true →
    Completes .railsStable s (fun t => t.boot.phase = .calibrate ∧ t.boot.ready = false ∧ t.mem = s.mem ∧ t.od = s.od) ∧
    (natBit (odGet s 0xB000 0x03) 3 = false → exec .railsTimeout s = .next (bootFault 3 0x0D 0xF000 s))) ∧
  (∀ s : State, inPhase .calibrate s = true → s.boot.hold = false →
    Completes (.calibrationDone []) s (fun t => t.boot.phase = .maps ∧ t.boot.ready = false)) ∧
  (∀ (bad : List CalUnit) (s : State), inPhase .calibrate s = true → exec (.calibrationDone bad) s = .next (calibrated bad s)) ∧
  (∀ (bad : List SliceId) (s : State), inPhase .maps s = true →
    Completes (.mapsDone bad) s (fun t => t.boot.phase = .coldSoak ∨ t.boot.phase = .dram)) ∧
  (∀ s : State, inPhase .coldSoak s = true →
    (∀ (t : Int) (r : List Int), (∀ u ∈ t :: r, 0 ≤ u) → Completes (.coldSoakAdjust (t :: r)) s (fun u => u.boot.phase = .dram ∧ u.boot.heating = 0)) ∧
    (natBit (odGet s 0xB000 0x03) 7 = false → exec .soakLimitExpiry s = .next (bootFault 7 0x0D 0xF000 s))) ∧
  (∀ s : State, inPhase .dram s = true → s.boot.hold = false →
    (∀ spd : List DimmSpd, populationOk spd = true →
      exec (.dramTrainingDone spd [] []) s = .next (toPhase .tack (readSpd spd s))) ∧
    (∀ (spd : List DimmSpd) (bad : List ChanId) (ranks : List (ChanId × Fin 8)), populationOk spd = false →
      exec (.dramTrainingDone spd bad ranks) s = .next (bootHold 8 0x02 0xF000 s))) ∧
  (∀ s : State, inPhase .tack s = true → Completes .tackZeroDone s (fun t => t.boot.phase = .units ∧
    t.mem.tags = [] ∧ t.mem.seals = [] ∧ t.mem.bytes = s.mem.bytes)) ∧
  (∀ (ms : BitVec 32) (s : State), inPhase .units s = true → exec (.unitsReady ms) s = .next (startUnits ms s)) ∧
  (∀ s : State, s.far.fatal = true → exec .fatalStateReset s = .next (restart 0 s))

/-- The test access port: its entry, its instructions, the debug registers and the end of a test hold; while TAP_OPEN is 0 a functional
instruction selects bypass, is counted and sets REFUSED, and changes nothing else (R193, R519–R521). -/
def Obligations.TestPortCompletes : Prop :=
  (∀ (path : Path) (b : Bool) (s : State), Permits path 0xF000 0x01 (boolNat b) s →
    exec (.tapOpenWrite path b) s = .next (setAnswer path .ok (odSet 0xF000 0x01 (boolNat b) s))) ∧
  (∀ s : State, s.tap.hold = false →
    Completes .idcode s (fun t => t.tap.dr = 0x1213674F ∧ t.tap.ir = .idcode ∧ t.mem = s.mem ∧ t.cores = s.cores) ∧
    Completes .bypass s (fun t => t.tap.dr = 0 ∧ t.tap.ir = .bypass ∧ t.mem = s.mem ∧ t.cores = s.cores) ∧
    Completes .dbgStatus s (fun t => t.tap.dr = statusWord s ∧ t.tap.refused = false ∧ t.mem = s.mem) ∧
    (∀ v : BitVec 1146, Completes (.samplePreload (some v)) s (fun t => t.tap.cells = v ∧ t.tap.outputs = s.tap.outputs ∧ t.mem = s.mem))) ∧
  (∀ s : State, tapOpen s = true →
    (∀ v : BitVec 1146, Completes (.extest (some v)) s (fun t => t.tap.outputs = v ∧ t.tap.floating = false ∧ t.tap.hold = true ∧
      (s.tap.hold = false → t.boot.ready = false ∧ t.eng.stopped = true))) ∧
    Completes .clamp s (fun t => t.tap.outputs = s.tap.cells ∧ t.tap.floating = false ∧ t.tap.hold = true) ∧
    Completes .highz s (fun t => t.tap.floating = true ∧ t.tap.hold = true)) ∧
  (∀ (d : BitVec 72) (s : State), tapOpen s = true → s.tap.hold = false → natBit d.toNat 63 = true → groomServes s = true →
    Completes (.dbgOd d) s (fun t => t.serial = s.serial ++ [tapAccess s d] ∧ t.mem = s.mem ∧ t.cores = s.cores)) ∧
  (∀ (k : BitVec 8) (s : State), tapOpen s = true → s.tap.hold = false →
    let c := k.toNat % 128
    let s1 := loadTap .dbgCore s
    coreOwner s c = 0 → coreStall s c = 0 →
    exec (.dbgCoreHalt k) s = .next (haltCore c s1) ∧
    ((s.core c).halted = true →
      exec (.dbgCoreSingleStep k) s = .next (s1.setCore c { s1.core c with stepOnce := true }) ∧
      exec (.dbgCoreResume k) s = .next (walkExit c (s1.setCore c { s1.core c with halted := false, stepOnce := false })) ∧
      (∀ r : BitVec 16, exec (.dbgCoreReadRegister k r) s =
        .next (setDr (coreDr c 3 r.toNat (debugRead (s.core c).arch (r.toNat % 64))) s1)) ∧
      (∀ (r : BitVec 16) (v : Word), exec (.dbgCoreWriteRegister k r v) s =
        .next (s1.setArch c (debugWrite (r.toNat % 64) v))))) ∧
  (∀ s : State, s.tap.hold = true → exec .testHoldEnd s = .next (loadTap .idcode s)) ∧
  (∀ (v : Option (BitVec 1146)) (d : BitVec 72) (k : BitVec 8) (s : State), tapOpen s = false → s.tap.hold = false →
    ∀ i ∈ [Instr.extest v, .clamp, .highz, .dbgOd d, .dbgCoreHalt k, .dbgCoreSingleStep k, .dbgCoreResume k],
    exec i s = .next { odBump 0xF000 0x02 s with tap := { s.tap with ir := .bypass, floating := false, refused := true } })

/-- Event counters and their window: a counter wraps to zero and sets its OVF bit (R510, R511, R515, R517). An interrupt is taken at an instruction boundary where SW.IE is 1 and a source is
deliverable; a core in WFI goes on where one is deliverable (R173, R401, R402). -/
def Obligations.CountersAndInterruptsComplete : Prop :=
  (∀ (b : Nat) (i : Fin 8) (pc : BitVec 47) (s : State), i.val < blockCounters b → selEn (s.counter b i.val) = true →
    s.pmu.freeze = false → exec (.counterOverflow b i pc) s = .next (overflow b i.val pc 0 s)) ∧
  (∀ (p : HPort) (b : Bool) (s : State),
    exec (.freezeWrite .fw b) s = .next { s with pmu := { s.pmu with freeze := b } } ∧
    exec (.freezeWrite (.pf p) b) s = .next { s with pmu := { s.pmu with freeze := b } }) ∧
  (∀ (p : HPort) (b : Nat) (mask : BitVec 8) (s : State),
    exec (.counterStatusWrite .fw b mask) s = .next (clearOvf b mask s) ∧
    exec (.counterStatusWrite (.pf p) b mask) s = .next (clearOvf b mask s)) ∧
  (∀ (b i event : Nat) (pl : Option Nat) (pc : BitVec 47) (s : State), ticks s b (s.counter b i) pl = false →
    counts s (s.counter b i) event pl = true →
    let t := countOne b i event 1 pl pc s
    (t.counter b i).value = (s.counter b i).value + 1 ∧
    (t.counter b i).ovf = ((s.counter b i).ovf || decide ((s.counter b i).value = 0xFFFFFFFFFFFF)) ∧ t.mem = s.mem) ∧
  (∀ (c : CoreId) (s : State),
    let s1 := s.setCore c.val { s.core c.val with waiting := false }
    coreRuns s1 c.val = true → (winner s (.core c.val)).isSome = true →
    (swIe (s.core c.val).arch.sw = true → exec (.interruptTake c) s = .next (takeInterrupt c.val s1)) ∧
    (swIe (s.core c.val).arch.sw = false → exec (.interruptTake c) s = .next s1))


/-! ## The queue and the machine as a whole -/

/-- A step runs the command at the front of the queue on the state with the queue's rest; on an empty queue the block idles, which is the
model's choice (log entry 1). -/
def Obligations.StepRunsTheFrontCommand : Prop :=
  (∀ (c : Instr) (s : State) (rest : List Instr), step { s with pending := c :: rest } = exec c { s with pending := rest }) ∧
  (∀ s : State, s.pending = [] → step s = .next s)

/-- No command stops the block: each answers a next state from every state, in which the queue of waiting commands is as it was. -/
def Obligations.EveryCommandCompletes : Prop := ∀ (c : Instr) (s : State), ∃ t, exec c s = .next t ∧ t.pending = s.pending

/-- Every step keeps the invariant: memory stays canonical, READY is 1 only in its phase and in no test hold, the fatal state signals fatal and
drives FAULT_N low, and a boot fault that holds bring-up drives FAULT_N low (R436, R493, R520, R532). -/
def Obligations.StepsKeepTheInvariant : Prop := ∀ s t : State, Sound s → step s = .next t → Sound t

/-- The machine right after reset: the invariant holds, bring-up stands in STB_RESET with READY 0, no command waits, memory lists nothing,
SW is 0 and every level's VBR, EPC and SCRATCH are UNINIT. The values of registers without a stated reset value rest on log entries. -/
def Obligations.ResetIsAsTheSpecSays : Prop :=
  Sound State.reset ∧ State.reset.boot.phase = .reset ∧ State.reset.boot.ready = false ∧ State.reset.pending = [] ∧
    State.reset.mem = {} ∧
    (∀ c, (State.reset.core c).arch.sw = 0 ∧ ∀ k, ((State.reset.core c).arch.bank k).vbr.tag = .uninit ∧
      ((State.reset.core c).arch.bank k).epc.tag = .uninit ∧ ((State.reset.core c).arch.bank k).scratch.tag = .uninit ∧
      ((State.reset.core c).arch.bank k).esw = 0 ∧ ((State.reset.core c).arch.bank k).ecause = 0) ∧
    (∀ l, (State.reset.link l).state = .disabled)

/-! ## Memory -/

/-- Memory in its canonical form: a write of a byte, a tag, a seal or a word is read back, leaves every other one as it was and keeps the
form, and two canonical memories that read alike everywhere are equal. -/
def Obligations.MemoryReadsWhatWasWritten : Prop :=
  (∀ m : Memory, m.wf = true →
    (∀ (a b : Nat) (v : Byte), (m.setByte a v).byteAt b = (if b = a then v else m.byteAt b) ∧ (m.setByte a v).tags = m.tags ∧
      (m.setByte a v).seals = m.seals ∧ (m.setByte a v).wf = true) ∧
    (∀ (w u : Nat) (t : Tag), (m.setTag w t).tagAt u = (if u = w then t else m.tagAt u) ∧ (m.setTag w t).bytes = m.bytes ∧
      (m.setTag w t).seals = m.seals ∧ (m.setTag w t).wf = true) ∧
    (∀ (k j : Nat) (v : Word), (m.setSeal k v).sealAt j = (if j = k then v else m.sealAt j) ∧ (m.setSeal k v).bytes = m.bytes ∧
      (m.setSeal k v).tags = m.tags ∧ (m.setSeal k v).wf = true) ∧
    (∀ (w u : Nat) (t : TWord), (m.setWord w t).wordAt u = (if u = w then t else m.wordAt u) ∧
      (m.setWord w t).seals = m.seals ∧ (m.setWord w t).wf = true)) ∧
  (∀ m n : Memory, m.wf = true → n.wf = true → (∀ a, m.byteAt a = n.byteAt a) → (∀ w, m.tagAt w = n.tagAt w) →
    (∀ k, m.sealAt k = n.sealAt k) → m = n)

/-! ## Registers, flags and exceptions -/

/-- ADD, ADC, SUB, SBB and CMP at each size: the result modulo 2^b, C the carry out or the borrow out, Z, N and signed overflow in V. -/
def Obligations.AdditionAndSubtractionFlags : Prop :=
  ∀ b ∈ [8, 16, 32, 64], ∀ (x y : BitVec 64) (c free : Bool),
    let n := x.toNat % 2 ^ b
    let m := y.toNat % 2 ^ b
    let k := (if c then 1 else 0 : Nat)
    (∀ p ∈ [(Alu.add, 0), (Alu.adc, k)], let r := alu p.1 b x.toNat y.toNat c free
      r.val = (n + m + p.2) % 2 ^ b ∧ r.flags.c = some (decide (2 ^ b ≤ n + m + p.2)) ∧ r.flags.z = some (decide (r.val = 0)) ∧
      r.flags.n = some (decide (2 ^ (b - 1) ≤ r.val)) ∧
      r.flags.v = some (decide (sInt b n + sInt b m + p.2 < -(2 ^ (b - 1) : Int) ∨ (2 ^ (b - 1) : Int) ≤ sInt b n + sInt b m + p.2))) ∧
    (∀ p ∈ [(Alu.sub, 0), (Alu.sbb, k)], let r := alu p.1 b x.toNat y.toNat c free
      (r.val + m + p.2) % 2 ^ b = n ∧ r.val < 2 ^ b ∧ r.flags.c = some (decide (n < m + p.2)) ∧ r.flags.z = some (decide (r.val = 0)) ∧
      r.flags.n = some (decide (2 ^ (b - 1) ≤ r.val)) ∧
      r.flags.v = some (decide (sInt b n - sInt b m - p.2 < -(2 ^ (b - 1) : Int) ∨ (2 ^ (b - 1) : Int) ≤ sInt b n - sInt b m - p.2)))

/-- The frame of the integer instructions with a register destination and a register or immediate source: beside that register, SW and PC,
no register of any core differs from the state after the fetch; and where the instruction leaves the core's frame window where it is, no byte
of memory, no cache, no store buffer and no other core does (a window that moves writes the lines it leaves and reads those it enters). -/
def Obligations.RegisterFormsFrame : Prop :=
  (∀ p ∈ [(Instr.add, Alu.add), (Instr.sub, Alu.sub), (Instr.and, Alu.and), (Instr.or, Alu.or), (Instr.xor, Alu.xor),
          (Instr.adc, Alu.adc), (Instr.sbb, Alu.sbb), (Instr.shl, Alu.shl), (Instr.shr, Alu.shr), (Instr.sar, Alu.sar),
          (Instr.rol, Alu.rol), (Instr.mul, Alu.mul), (Instr.mulh, Alu.mulh), (Instr.div, Alu.div), (Instr.divu, Alu.divu)],
    ∀ (a : At) (z : Sz) (d o : Opd) (s s0 : State) (pd ps : Place) (x y : Src),
    let len := instrLen a 1 [d, o] 0
    let e := envOf s a.core.val len
    let n := szBytes z
    Starts a len (a.pfx.isEmpty && opdDst d && opdSrc o) 2 s s0 → Opd.isReg d = true → Opd.isRegImm o = true →
    Yields (bothRead e n { write := true } {} false d o) s0 ((pd, ps), (x, y)) s0 →
    x.passes (accepts0 p.2 n) = true → y.passes (accepts1 p.2 n x.tag) = true →
    dividesByZero p.2 (8 * n) y.val.toNat = false → swSs (s.core a.core.val).arch.sw = false →
    Completes (p.1 a z d o) s (fun t => RegistersKept a.core.val d s0 t ∧
      (WindowStays a.core.val d s0 → OnlyRegister a.core.val s0 t))) ∧
  (∀ p ∈ [Instr.cmp, Instr.tst], ∀ (a : At) (z : Sz) (d o : Opd) (s s0 : State) (pd ps : Place) (x y : Src),
    let len := instrLen a 1 [d, o] 0
    Starts a len (a.pfx.isEmpty && opdSrc d && opdSrc o) 2 s s0 → Opd.isRegImm d = true → Opd.isRegImm o = true →
    Yields (bothRead (envOf s a.core.val len) (szBytes z) {} {} false d o) s0 ((pd, ps), (x, y)) s0 →
    x.passes comparable = true → y.passes comparable = true → swSs (s.core a.core.val).arch.sw = false →
    Completes (p a z d o) s (fun t => RegistersKept a.core.val (.imm4 0) s0 t ∧
      (WindowStays a.core.val (.imm4 0) s0 → OnlyRegister a.core.val s0 t))) ∧
  (∀ (a : At) (z : Sz) (d o : Opd) (s s0 : State) (pd ps : Place) (y : Src),
    let len := instrLen a 1 [d, o] 0
    Starts a len (a.pfx.isEmpty && opdDst d && opdSrc o) 2 s s0 → Opd.isReg d = true → Opd.isRegImm o = true →
    Yields (destSource (envOf s a.core.val len) (szBytes z) (szBytes z) false d o) s0 (pd, ps, y) s0 →
    (transparent (szBytes z) pd ps || y.passes isIntTag) = true → swSs (s.core a.core.val).arch.sw = false →
    Completes (.mov a z d o) s (fun t => RegistersKept a.core.val d s0 t ∧
      (WindowStays a.core.val d s0 → OnlyRegister a.core.val s0 t)))

/-- The frame of a store to normal memory that is no frame access, crosses no line and meets no word of the window, outside Walk: it joins the
core's store buffer with the words that its access touches under their byte masks, and memory, caches and registers stay as they were; no
other core sees it yet. -/
def Obligations.StoresFrame : Prop :=
  ∀ (e : Env) (a : Acc) (n : Nat) (v : Word) (t : Tag) (s : State), a.lo.side = false → a.frame = false → crosses a.va a.size = false →
    (s.core e.c).walk = false → (s.core e.c).storeBuf.length < 64 →
    let en : StoreEntry := { writes := a.writes ((wordBytes v).take a.size) (fun _ => t), noAlloc := a.lo.noAlloc, sealPage := a.lo.sealPage }
    en.writes.any (fun w => frameWord (s.core e.c) w.w) = false →
    let s1 := s.setCore e.c { s.core e.c with storeBuf := (s.core e.c).storeBuf ++ [en] }
    Yields (writePlace e n (.mem a) v t) s () s1 ∧
    (∀ w, w ∉ en.writes.map (·.w) → ownWord s1 e.c w = ownWord s e.c w) ∧
    (∀ w c, c ≠ e.c → ownWord s1 c w = ownWord s c w)

/-- An exception that is no double fault, taken at level `k`: ESW, EPC, ECAUSE, EADDR and EINFO of that level are written, SW.PL, IE, EXL and
SS change, PC goes to VBR + 0x40 × code, and no other register, no other core and no memory changes. -/
def Obligations.ExceptionEntry : Prop :=
  ∀ (c : Nat) (x : Exc) (k : Nat) (epc : BitVec 47) (s : State), k ≤ 1 → doubleFault (s.core c).arch k = false →
    let t := takeExceptionAt c x k epc s
    let a := (s.core c).arch
    let b := (t.core c).arch
    b.bank k = { a.bank k with esw := a.sw, epc := ⟨epc.setWidth 64, .codeptr⟩, ecause := excCause x (swPl a.sw) x.code,
                               eaddr := BitVec.ofNat 64 x.eaddr, einfo := BitVec.ofNat 64 x.einfo,
                               walkinfo := x.walkinfo.getD (a.bank k).walkinfo } ∧
    b.bank (1 - k) = a.bank (1 - k) ∧
    b.pc = ((a.bank k).vbr.data + BitVec.ofNat 64 (0x40 * x.code)).setWidth 47 ∧
    natField b.sw.toNat 8 2 = k ∧ swIe b.sw = false ∧ swExl b.sw = true ∧ swSs b.sw = false ∧
    (∀ j, j ∉ [8, 9, 10, 11, 12] → b.sw.getLsbD j = a.sw.getLsbD j) ∧
    b = { a with bank0 := b.bank0, bank1 := b.bank1, sw := b.sw, pc := b.pc } ∧
    (t.core c).waiting = false ∧ (∀ j, j ≠ c → t.core j = s.core j) ∧ t.mem = s.mem ∧ t = { s with cores := t.cores }

/-- R217: the layout of ECAUSE in bits 0 to 19, its reserved bits, its reset value, and that no write reaches it: one of ECAUSE1 is not
permitted, and one of ECAUSE0 leaves every register of the core as it was. -/
def Obligations.CauseLayout : Prop :=
  (∀ (x : Exc) (pl code : Nat), code < 256 → x.opnd < 4 → pl < 4 →
    let w := excCause x pl code
    natField w.toNat 0 8 = code ∧ w.getLsbD 8 = x.fetch ∧ w.getLsbD 9 = x.write ∧ natField w.toNat 10 2 = x.opnd ∧ w.getLsbD 12 = x.upper ∧
    natField w.toNat 13 4 = x.tag.code.toNat ∧ w.getLsbD 17 = x.indirect ∧ natField w.toNat 18 2 = pl ∧ w.toNat < 2 ^ 20) ∧
  (∀ c k, ((State.reset.core c).arch.bank k).ecause = 0) ∧
  (∀ (e : Env) (s : State), ∃ x, Raises (crGate e 0x03 true) s x s) ∧
  (∀ (e : Env) (t : TWord) (s : State), ((crWrite e 0x13 t s).2.core e.c).arch = (s.core e.c).arch)

/-- R220: ERET at level k sets SW to ESWk, with k for a PL field that is more privileged, and PC to EPCk; where EPCk is no CODEPTR it causes
TAG_TARGET and changes nothing. -/
def Obligations.ExceptionReturn : Prop :=
  ∀ (a : At) (s s0 : State),
    let len := instrLen a 1 [] 0
    let e := envOf s a.core.val len
    let b := (s0.core e.c).arch.bank e.pl
    Starts a len a.pfx.isEmpty 1 s s0 →
    (b.epc.tag = .codeptr → ∃ r : Arch, exec (.eret a) s = .next (ended a len (b.epc.data.truncate 47) s (s0.setArch e.c (fun _ => r))) ∧
      natField r.sw.toNat 8 2 = max e.pl (natField b.esw.toNat 8 2) ∧ (∀ j, j ≠ 8 → j ≠ 9 → r.sw.getLsbD j = b.esw.getLsbD j) ∧
      r.pc = b.epc.data.setWidth 47 ∧ r = { (s0.core e.c).arch with sw := r.sw, pc := r.pc }) ∧
    (b.epc.tag ≠ .codeptr → exec (.eret a) s = .next (trapped a len { code := 7, eaddr := b.epc.data.toNat, tag := b.epc.tag } s s0))

/-- R205: the tags and their codes; a reserved code names no tag, and TAGSET with one takes ILLEGAL. -/
def Obligations.TagCodes : Prop :=
  Tag.code .uninit = 0 ∧ Tag.code .int = 1 ∧ Tag.code .float = 2 ∧ Tag.code .bytes = 3 ∧ Tag.code .ptr = 4 ∧ Tag.code .codeptr = 5 ∧
  Tag.code .poison = 7 ∧ (∀ t : Tag, Tag.ofCode t.code = some t) ∧
  (∀ c : BitVec 4, Tag.ofCode c = none ↔ c = 6 ∨ 8 ≤ c.toNat) ∧
  (∀ (a : At) (d : Opd) (c : BitVec 8) (s : State), coreRuns s a.core.val = true → Tag.ofCode (c.truncate 4) = none →
    let len := instrLen a 1 [d] 1
    let e := envOf s a.core.val len
    ∀ s0, Yields (fetchWords e (codeWords (s.core a.core.val).arch.pc.toNat (min len 24))) s () s0 →
    exec (.tagset a d c) s = .next (trapped a len { code := 1, eaddr := e.pc.toNat } s s0))

/-! ## The dictionary, power and links -/

/-- R412: the load on the stable regulator in DEEP, in units of 0.1 mA, as OD 0x2000.0B reports it, and the refusal of DEEP entry where it
exceeds 22.0 mA. -/
def Obligations.StableBudget : Prop :=
  (∀ s : State, deepLoad s = 12 + 3 + 65 + 40 + (if natBit (odGet s 0x2000 0x0A) 0 then 8 else 0) +
    (if natBit (odGet s 0x2000 0x0A) 1 then 15 else 0) + (if natBit (odGet s 0x2000 0x0A) 2 then 90 else 0) +
    (if natBit (odGet s 0x2000 0x0A) 3 then 85 else 0)) ∧
  (∀ (p : Path) (s : State), statusNat s p 0x2000 0x0B = some (deepLoad s)) ∧
  (∀ s : State, s.pwr.state = .sleep → 220 < deepLoad s → ∃ t, exec .deepEntryTimeout s = .next t ∧ t.pwr.state = .sleep ∧ t.mem = s.mem)

/-- R487: selection and result entries are held once for each access path; a result reads 0 until its path's first write after bring-up, and
a selection returns to 0 at bring-up and, for a VF, at the end of its drain. -/
def Obligations.EntriesOfAPath : Prop :=
  (∀ (p q : Path) (i j m n v : Nat) (s : State), i < 65536 → m < 65536 → j < 256 → n < 256 →
    pathGet (pathSet p i j v s) q m n = (if p = q ∧ i = m ∧ j = n then v else pathGet s q m n)) ∧
  (∀ (flags i j : Nat) (p : Path) (s : State), pathGet (restart flags s) p i j = 0 ∧ pathGet State.reset p i j = 0) ∧
  (∀ (p : HPort) (fn : FnId) (l i j : Nat) (s : State), l < 4 → l / 2 = p.val → fn.val ≠ 0 → (s.fnAt (linkFnKey l fn.val)).drain.isSome = true →
    isSelection i j = true → pathGet (endDrain l fn.val s) (.vf p fn) i j = 0)

/-- A tenant cannot write another stall's entries: through a VF of stall n an entry of stall m is answered NO_ENTRY or NO_ACCESS, and nothing
but that answer changes. -/
def Obligations.TenantsCannotWriteOtherStalls : Prop :=
  ∀ (h : HPort) (fn : FnId) (n m : Nat) (sub : BitVec 8) (data : List Byte) (s : State), vfStall s h.val fn.val = some n → m ≠ n → m ≤ 256 →
    groomServes s = true →
    ∃ r ∈ [Res.noEntry, Res.noAccess], exec (.dictWrite (.vf h fn) (BitVec.ofNat 16 (0x4100 + m)) sub data) s =
      .next (setAnswer (.vf h fn) r s)

/-- The checks of a write in their order: a VF without a stall, the entry, the right, the length, the value; a write that fails one changes
nothing but its answer. -/
def Obligations.AccessChecksInOrder : Prop :=
  ∀ (p : Path) (idx : BitVec 16) (sub : BitVec 8) (data : List Byte) (s : State), groomServes s = true →
    let fails (r : Res) : Prop := exec (.dictWrite p idx sub data) s = .next (setAnswer p r s)
    (pathClass p = .t → pathStall s p = none → fails .noAccess) ∧
    ((pathClass p = .t → pathStall s p ≠ none) →
      (odLookup idx.toNat sub.toNat = none → fails .noEntry) ∧
      (∀ e, odLookup idx.toNat sub.toNat = some e →
        (hasRight s p true idx.toNat sub.toNat e = false → fails .noAccess) ∧
        (hasRight s p true idx.toNat sub.toNat e = true → selectionDenied s p idx.toNat sub.toNat (natOfBytes data) = false →
          fencedPath s p = false → tapDenied s idx.toNat sub.toNat (natOfBytes data) = false → s.boot.ready = true →
          (lengthOk e data.length = false → fails .badLength) ∧
          (lengthOk e data.length = true → inRange e (natOfBytes data) = false → fails .badValue))))

/-- The CRC-24 of R103 detects every single-bit error: two byte strings that differ in one bit have different CRCs. -/
def Obligations.CrcDetectsSingleBitErrors : Prop :=
  ∀ (xs ys : List Byte) (b : Byte) (k : Nat), k < 8 → crc24 (xs ++ (b ^^^ ((1 : BitVec 8) <<< k)) :: ys) ≠ crc24 (xs ++ b :: ys)

end
end

