-- ==== Sys2Proof/Laws/Run.lean ====
section
/-! SUPPORT. How computations of core and rein instructions compose, and what starting and ending an instruction comes to. -/

namespace Sys2Proof.Machine

/-! ## Computations over the state that may stop -/

/-- What a computation that may stop does after another. -/
theorem run_bind {ε α β : Type} (m : ExceptT ε (StateM State) α) (f : α → ExceptT ε (StateM State) β) (s : State) :
    (m >>= f).run s = (match m.run s with
      | (.ok v, t) => (f v).run t
      | (.error x, t) => (.error x, t)) := by
  show (StateT.bind m (ExceptT.bindCont f)) s = _
  simp only [StateT.bind, bind]
  rcases h : (m s : Except ε α × State) with ⟨r, t⟩
  rw [show (ExceptT.run m s) = (r, t) from h]
  cases r <;> rfl

theorem run_pure {ε α : Type} (v : α) (s : State) : (pure v : ExceptT ε (StateM State) α).run s = (.ok v, s) := rfl

theorem run_get {ε : Type} (s : State) : (get : ExceptT ε (StateM State) State).run s = (.ok s, s) := rfl

theorem run_set {ε : Type} (t s : State) : (set t : ExceptT ε (StateM State) PUnit).run s = (.ok ⟨⟩, t) := rfl

theorem run_modify {ε : Type} (f : State → State) (s : State) :
    (modify f : ExceptT ε (StateM State) PUnit).run s = (.ok ⟨⟩, f s) := rfl

theorem run_throw {ε α : Type} (x : ε) (s : State) : (throw x : ExceptT ε (StateM State) α).run s = (.error x, s) := rfl

theorem run_ite {ε α : Type} (p : Prop) [Decidable p] (m k : ExceptT ε (StateM State) α) (s : State) :
    (if p then m else k).run s = if p then m.run s else k.run s := by split <;> rfl

/-! ## The parts of core instructions -/

theorem run_change (f : State → State) (s : State) : (change f).run s = (.ok (), f s) := rfl

theorem run_raiseX {α : Type} (x : Exc) (s : State) : (raiseX x : CoreRun α).run s = (.error (.exc x), s) := rfl

theorem run_getArch (e : Env) (s : State) : (getArch e).run s = (.ok (s.core e.c).arch, s) := rfl

theorem run_changeArch (e : Env) (f : Arch → Arch) (s : State) : (changeArch e f).run s = (.ok (), s.setArch e.c f) := rfl

theorem run_takeFree (s : State) : takeFree.run s = (.ok (freeValue s), s.took) := rfl

/-- A source that passes is accepted. -/
theorem run_checkSrc {y : Src} {ok : Tag → Bool} (h : y.passes ok = true) (s : State) : (checkSrc y ok).run s = (.ok (), s) := by
  simp only [Src.passes, Bool.and_eq_true, Option.isNone_iff_eq_none] at h
  simp [checkSrc, h.1, h.2, run_pure]

/-- A destination that takes the tag is accepted. -/
theorem run_checkDst {p : Place} {t : Tag} (h : p.takes t = true) (k : Nat) (s : State) : (checkDst p k t).run s = (.ok (), s) := by
  cases p with
  | mem a =>
    simp only [Place.takes, Bool.or_eq_true, Bool.not_eq_true', decide_eq_true_eq] at h
    have : ¬((a.part = true ∨ a.lo.side = true) ∧ t ≠ .int ∧ t ≠ .float ∧ t ≠ .bytes) := by
      rintro ⟨q, a1, a2, a3⟩
      rcases h with ((h | h) | h) | h
      · simp_all
      · exact a1 h
      · exact a2 h
      · exact a3 h
    simp only [checkDst, if_neg this]
    rfl
  | _ => rfl

/-! ## What parts of core instructions yield -/

theorem yields_bind {α β : Type} {m : CoreRun α} {f : α → CoreRun β} {s s1 s2 : State} {v : α} {w : β}
    (h : Yields m s v s1) (k : Yields (f v) s1 w s2) : Yields (m >>= f) s w s2 := by
  unfold Yields at *
  rw [run_bind, h]
  exact k

theorem yields_pure {α : Type} (v : α) (s : State) : Yields (pure v) s v s := rfl

/-- A computation whose outcome is a value yields it. -/
theorem yields_of_fst {α : Type} {m : CoreRun α} {s : State} {v : α} (h : (m.run s).1 = .ok v) : Yields m s v (m.run s).2 :=
  Prod.ext h rfl

/-- What starting and ending an instruction comes to: with its start and its body's end, it retires. -/
theorem runInstr_ends {a : At} {len : Nat} {legal : Bool} {level : Nat} {body : Env → CoreRun (BitVec 47)} {s s0 t : State} {npc : BitVec 47}
    (h : Starts a len legal level s s0) (k : Yields (body (envOf s a.core.val len)) s0 npc t) :
    runInstr a len legal level body s = .next (ended a len npc s t) := by
  obtain ⟨h1, h2, h3, h4, h5⟩ := h
  have e : (do enterInstr (envOf s a.core.val len) len legal level; body (envOf s a.core.val len) : CoreRun (BitVec 47)).run s = (.ok npc, t) := by
    unfold enterInstr
    unfold Yields at h5 k
    have p : (envOf s a.core.val len).pc = (s.core a.core.val).arch.pc := rfl
    have q : (envOf s a.core.val len).pl = swPl (s.core a.core.val).arch.sw := rfl
    have m : min len 24 = len := by omega
    have n1 : ¬((!legal) = true ∨ 24 < len) := by simp [h2]; omega
    have n2 : ¬(level < (envOf s a.core.val len).pl) := by rw [q]; omega
    simp only [run_bind, p, m, h5, if_neg n1, if_neg n2, run_pure, k]
  unfold runInstr
  have c : (envOf s a.core.val len).c = a.core.val := rfl
  simp only [c, h1, if_true]
  rw [e]
  rfl

/-- An instruction that starts and whose body raises an exception takes it. -/
theorem runInstr_traps {a : At} {len : Nat} {legal : Bool} {level : Nat} {body : Env → CoreRun (BitVec 47)} {s s0 t : State} {x : Exc}
    (h : Starts a len legal level s s0) (k : Raises (body (envOf s a.core.val len)) s0 x t) :
    runInstr a len legal level body s = .next (trapped a len x s t) := by
  obtain ⟨h1, h2, h3, h4, h5⟩ := h
  have e : (do enterInstr (envOf s a.core.val len) len legal level; body (envOf s a.core.val len) : CoreRun (BitVec 47)).run s =
      (.error (.exc x), t) := by
    unfold enterInstr
    unfold Yields at h5
    unfold Raises at k
    have p : (envOf s a.core.val len).pc = (s.core a.core.val).arch.pc := rfl
    have q : (envOf s a.core.val len).pl = swPl (s.core a.core.val).arch.sw := rfl
    have m : min len 24 = len := by omega
    have n1 : ¬((!legal) = true ∨ 24 < len) := by simp [h2]; omega
    have n2 : ¬(level < (envOf s a.core.val len).pl) := by rw [q]; omega
    simp only [run_bind, p, m, h5, if_neg n1, if_neg n2, run_pure, k]
  unfold runInstr
  have c : (envOf s a.core.val len).c = a.core.val := rfl
  simp only [c, h1, if_true]
  rw [e]
  rfl

end Sys2Proof.Machine
end

