-- ==== Sys2Proof/Laws/Tables.lean ====
section
/-! SUPPORT. Tables: what is read after a write, and the canonical form that a write keeps. -/

namespace Sys2Proof.Machine

/-- A table reads what was stored at a key, and what it read before at every other one. -/
theorem Tbl.get_set {α : Type} (t : Tbl α) (k j : Nat) (v d : α) : Tbl.get (Tbl.set t k v) j d = if j = k then v else Tbl.get t j d := by
  induction t with
  | nil => simp [Tbl.set, Tbl.get, eq_comm]
  | cons x r ih =>
    obtain ⟨a, b⟩ := x
    simp only [Tbl.set]
    split
    · subst_vars
      simp only [Tbl.get]
      grind
    · split
      · simp only [Tbl.get]
        grind
      · simp only [Tbl.get, ih]
        grind

/-- A key below every listed one reads the default. -/
theorem get_above {α : Type} [DecidableEq α] {d : α} {t : List (Nat × α)} {b : Option Nat} (h : canonAbove d b t = true) {k : Nat}
    (hk : ∀ j, b = some j → k ≤ j) (hb : b ≠ none) : Tbl.get t k d = d := by
  induction t generalizing b with
  | nil => rfl
  | cons x r ih =>
    obtain ⟨a, v⟩ := x
    cases b with
    | none => exact absurd rfl hb
    | some j =>
      simp only [canonAbove, Bool.and_eq_true, decide_eq_true_eq] at h
      have hj := hk j rfl
      have ne : a ≠ k := by omega
      simp only [Tbl.get, if_neg ne]
      exact ih h.2 (fun i hi => by cases hi; omega) (by simp)

/-- What a table reads after a canonical write. -/
theorem get_canonSet {α : Type} [DecidableEq α] {d : α} {t : List (Nat × α)} {b : Option Nat} (h : canonAbove d b t = true) (k j : Nat) (v : α) :
    Tbl.get (canonSet d t k v) j d = if j = k then v else Tbl.get t j d := by
  induction t generalizing b with
  | nil =>
    simp only [canonSet]
    split
    · subst_vars
      simp [Tbl.get]
    · simp [Tbl.get, eq_comm]
  | cons x r ih =>
    obtain ⟨a, w⟩ := x
    simp only [canonAbove, Bool.and_eq_true, decide_eq_true_eq] at h
    obtain ⟨⟨h1, h2⟩, h3⟩ := h
    have low : ∀ i, i ≤ a → Tbl.get r i d = d := fun i hi => get_above h3 (fun j hj => by cases hj; exact hi) (by simp)
    simp only [canonSet]
    split
    · rename_i lt
      split
      · subst_vars
        simp only [Tbl.get]
        split
        · split
          · omega
          · rfl
        · split
          · rename_i e
            subst e
            exact low _ (by omega)
          · rfl
      · simp only [Tbl.get]
        grind
    · split
      · rename_i e
        subst e
        split
        · subst_vars
          simp only [Tbl.get]
          split
          · rename_i e
            subst e
            exact low _ (Nat.le_refl _)
          · rw [if_neg (fun e => by simp_all)]
        · simp only [Tbl.get]
          grind
      · simp only [Tbl.get, ih h3]
        grind

/-- A canonical write keeps the canonical form above a bound that the key exceeds. -/
theorem canonAbove_canonSet {α : Type} [DecidableEq α] {d : α} {t : List (Nat × α)} {b : Option Nat} (h : canonAbove d b t = true)
    {k : Nat} (hk : ∀ j, b = some j → j < k) (v : α) : canonAbove d b (canonSet d t k v) = true := by
  induction t generalizing b with
  | nil =>
    simp only [canonSet]
    split
    · rfl
    · cases b with
      | none => simp [canonAbove, *]
      | some j => simp [canonAbove, hk j rfl, *]
  | cons x r ih =>
    obtain ⟨a, w⟩ := x
    have h0 := h
    simp only [canonAbove, Bool.and_eq_true, decide_eq_true_eq] at h
    obtain ⟨⟨h1, h2⟩, h3⟩ := h
    simp only [canonSet]
    split
    · split
      · exact h0
      · cases b with
        | none => simp_all [canonAbove]
        | some j => simp_all [canonAbove]
    · split
      · subst_vars
        split
        · cases hr : r with
          | nil => simp [canonAbove]
          | cons y q =>
            rw [hr] at h3
            simp only [canonAbove, Bool.and_eq_true, decide_eq_true_eq] at h3 ⊢
            refine ⟨⟨?_, h3.1.2⟩, h3.2⟩
            cases b with
            | none => rfl
            | some j => simp only [decide_eq_true_eq]; have := hk j rfl; omega
        · simp_all [canonAbove]
      · simp only [canonAbove, Bool.and_eq_true, decide_eq_true_eq]
        exact ⟨⟨h1, h2⟩, ih h3 (fun j hj => by cases hj; omega)⟩

/-- A canonical write keeps the canonical form. -/
theorem canon_canonSet {α : Type} [DecidableEq α] {d : α} {t : List (Nat × α)} (h : canon d t = true) (k : Nat) (v : α) :
    canon d (canonSet d t k v) = true := canonAbove_canonSet h (fun _ e => by cases e) v

end Sys2Proof.Machine
end

