-- ==== Sys2Proof/Laws/State.lean ====
section
/-! SUPPORT. What each update of one unit of the state leaves as it was, and what it reads afterwards: one lemma for each update, true by
unfolding it. -/

namespace Sys2Proof.Machine

@[simp] theorem State.setCore_others (s : State) (k : Nat) (x : CoreSt) :
    (s.setCore k x).pending = s.pending ∧ (s.setCore k x).free = s.free ∧ (s.setCore k x).od = s.od ∧
    (s.setCore k x).perPath = s.perPath ∧ (s.setCore k x).bagPending = s.bagPending ∧ (s.setCore k x).flash = s.flash ∧
    (s.setCore k x).serial = s.serial ∧ (s.setCore k x).out = s.out ∧ (s.setCore k x).mem = s.mem ∧ (s.setCore k x).sram = s.sram ∧
    (s.setCore k x).coh = s.coh ∧ (s.setCore k x).mc = s.mc ∧ (s.setCore k x).vm = s.vm ∧ (s.setCore k x).stalls = s.stalls ∧
    (s.setCore k x).host = s.host ∧ (s.setCore k x).eng = s.eng ∧ (s.setCore k x).links = s.links ∧ (s.setCore k x).ports = s.ports ∧
    (s.setCore k x).shelves = s.shelves ∧ (s.setCore k x).wakeQueue = s.wakeQueue ∧ (s.setCore k x).ring = s.ring ∧
    (s.setCore k x).irq = s.irq ∧ (s.setCore k x).pwr = s.pwr ∧ (s.setCore k x).far = s.far ∧ (s.setCore k x).side = s.side ∧
    (s.setCore k x).boot = s.boot ∧ (s.setCore k x).pmu = s.pmu ∧ (s.setCore k x).tap = s.tap ∧ (s.setCore k x).rein = s.rein ∧
    (∀ j, (s.setCore k x).stall j = s.stall j) ∧ (∀ j, (s.setCore k x).link j = s.link j) ∧ (∀ j, (s.setCore k x).port j = s.port j) ∧
    (∀ j, (s.setCore k x).shelf j = s.shelf j) ∧ (∀ j, (s.setCore k x).source j = s.source j) ∧
    (∀ j, (s.setCore k x).reinOf j = s.reinOf j) ∧ (∀ j, (s.setCore k x).engine j = s.engine j) ∧
    (∀ j, (s.setCore k x).ctx j = s.ctx j) ∧ (∀ j, (s.setCore k x).channel j = s.channel j) ∧ (∀ j, (s.setCore k x).ctl j = s.ctl j) ∧
    (∀ j, (s.setCore k x).tile j = s.tile j) ∧ (∀ j, (s.setCore k x).slice j = s.slice j) ∧
    (∀ j, (s.setCore k x).corePwr j = s.corePwr j) ∧ (∀ i u, odGet (s.setCore k x) i u = odGet s i u) ∧
    (∀ q i u, pathGet (s.setCore k x) q i u = pathGet s q i u) :=
  ⟨rfl, rfl, rfl, rfl, rfl, rfl, rfl, rfl, rfl, rfl, rfl, rfl, rfl, rfl, rfl, rfl, rfl, rfl, rfl, rfl, rfl, rfl, rfl, rfl, rfl, rfl, rfl,
  rfl, rfl, fun _ => rfl, fun _ => rfl, fun _ => rfl, fun _ => rfl, fun _ => rfl, fun _ => rfl, fun _ => rfl, fun _ => rfl, fun _ => rfl,
  fun _ => rfl, fun _ => rfl, fun _ => rfl, fun _ => rfl, fun _ _ => rfl, fun _ _ _ => rfl⟩

@[simp] theorem State.setCore_core (s : State) (k : Nat) (x : CoreSt) (j : Nat) : (s.setCore k x).core j = if j = k then x else s.core j :=
  Tbl.get_set _ _ _ _ _

@[simp] theorem State.setStall_others (s : State) (k : Nat) (x : StallSt) :
    (s.setStall k x).pending = s.pending ∧ (s.setStall k x).free = s.free ∧ (s.setStall k x).od = s.od ∧
    (s.setStall k x).perPath = s.perPath ∧ (s.setStall k x).bagPending = s.bagPending ∧ (s.setStall k x).flash = s.flash ∧
    (s.setStall k x).serial = s.serial ∧ (s.setStall k x).out = s.out ∧ (s.setStall k x).mem = s.mem ∧ (s.setStall k x).sram = s.sram ∧
    (s.setStall k x).cores = s.cores ∧ (s.setStall k x).coh = s.coh ∧ (s.setStall k x).mc = s.mc ∧ (s.setStall k x).vm = s.vm ∧
    (s.setStall k x).host = s.host ∧ (s.setStall k x).eng = s.eng ∧ (s.setStall k x).links = s.links ∧ (s.setStall k x).ports = s.ports ∧
    (s.setStall k x).shelves = s.shelves ∧ (s.setStall k x).wakeQueue = s.wakeQueue ∧ (s.setStall k x).ring = s.ring ∧
    (s.setStall k x).irq = s.irq ∧ (s.setStall k x).pwr = s.pwr ∧ (s.setStall k x).far = s.far ∧ (s.setStall k x).side = s.side ∧
    (s.setStall k x).boot = s.boot ∧ (s.setStall k x).pmu = s.pmu ∧ (s.setStall k x).tap = s.tap ∧ (s.setStall k x).rein = s.rein ∧
    (∀ j, (s.setStall k x).core j = s.core j) ∧ (∀ j, (s.setStall k x).link j = s.link j) ∧ (∀ j, (s.setStall k x).port j = s.port j) ∧
    (∀ j, (s.setStall k x).shelf j = s.shelf j) ∧ (∀ j, (s.setStall k x).source j = s.source j) ∧
    (∀ j, (s.setStall k x).reinOf j = s.reinOf j) ∧ (∀ j, (s.setStall k x).engine j = s.engine j) ∧
    (∀ j, (s.setStall k x).ctx j = s.ctx j) ∧ (∀ j, (s.setStall k x).channel j = s.channel j) ∧ (∀ j, (s.setStall k x).ctl j = s.ctl j) ∧
    (∀ j, (s.setStall k x).tile j = s.tile j) ∧ (∀ j, (s.setStall k x).slice j = s.slice j) ∧
    (∀ j, (s.setStall k x).corePwr j = s.corePwr j) ∧ (∀ i u, odGet (s.setStall k x) i u = odGet s i u) ∧
    (∀ q i u, pathGet (s.setStall k x) q i u = pathGet s q i u) :=
  ⟨rfl, rfl, rfl, rfl, rfl, rfl, rfl, rfl, rfl, rfl, rfl, rfl, rfl, rfl, rfl, rfl, rfl, rfl, rfl, rfl, rfl, rfl, rfl, rfl, rfl, rfl, rfl,
  rfl, rfl, fun _ => rfl, fun _ => rfl, fun _ => rfl, fun _ => rfl, fun _ => rfl, fun _ => rfl, fun _ => rfl, fun _ => rfl, fun _ => rfl,
  fun _ => rfl, fun _ => rfl, fun _ => rfl, fun _ => rfl, fun _ _ => rfl, fun _ _ _ => rfl⟩

@[simp] theorem State.setStall_stall (s : State) (k : Nat) (x : StallSt) (j : Nat) : (s.setStall k x).stall j = if j = k then x else s.stall j :=
  Tbl.get_set _ _ _ _ _

@[simp] theorem State.setLink_others (s : State) (k : Nat) (x : Link) :
    (s.setLink k x).pending = s.pending ∧ (s.setLink k x).free = s.free ∧ (s.setLink k x).od = s.od ∧
    (s.setLink k x).perPath = s.perPath ∧ (s.setLink k x).bagPending = s.bagPending ∧ (s.setLink k x).flash = s.flash ∧
    (s.setLink k x).serial = s.serial ∧ (s.setLink k x).out = s.out ∧ (s.setLink k x).mem = s.mem ∧ (s.setLink k x).sram = s.sram ∧
    (s.setLink k x).cores = s.cores ∧ (s.setLink k x).coh = s.coh ∧ (s.setLink k x).mc = s.mc ∧ (s.setLink k x).vm = s.vm ∧
    (s.setLink k x).stalls = s.stalls ∧ (s.setLink k x).host = s.host ∧ (s.setLink k x).eng = s.eng ∧ (s.setLink k x).ports = s.ports ∧
    (s.setLink k x).shelves = s.shelves ∧ (s.setLink k x).wakeQueue = s.wakeQueue ∧ (s.setLink k x).ring = s.ring ∧
    (s.setLink k x).irq = s.irq ∧ (s.setLink k x).pwr = s.pwr ∧ (s.setLink k x).far = s.far ∧ (s.setLink k x).side = s.side ∧
    (s.setLink k x).boot = s.boot ∧ (s.setLink k x).pmu = s.pmu ∧ (s.setLink k x).tap = s.tap ∧ (s.setLink k x).rein = s.rein ∧
    (∀ j, (s.setLink k x).core j = s.core j) ∧ (∀ j, (s.setLink k x).stall j = s.stall j) ∧ (∀ j, (s.setLink k x).port j = s.port j) ∧
    (∀ j, (s.setLink k x).shelf j = s.shelf j) ∧ (∀ j, (s.setLink k x).source j = s.source j) ∧
    (∀ j, (s.setLink k x).reinOf j = s.reinOf j) ∧ (∀ j, (s.setLink k x).engine j = s.engine j) ∧
    (∀ j, (s.setLink k x).ctx j = s.ctx j) ∧ (∀ j, (s.setLink k x).channel j = s.channel j) ∧ (∀ j, (s.setLink k x).ctl j = s.ctl j) ∧
    (∀ j, (s.setLink k x).tile j = s.tile j) ∧ (∀ j, (s.setLink k x).slice j = s.slice j) ∧
    (∀ j, (s.setLink k x).corePwr j = s.corePwr j) ∧ (∀ i u, odGet (s.setLink k x) i u = odGet s i u) ∧
    (∀ q i u, pathGet (s.setLink k x) q i u = pathGet s q i u) :=
  ⟨rfl, rfl, rfl, rfl, rfl, rfl, rfl, rfl, rfl, rfl, rfl, rfl, rfl, rfl, rfl, rfl, rfl, rfl, rfl, rfl, rfl, rfl, rfl, rfl, rfl, rfl, rfl,
  rfl, rfl, fun _ => rfl, fun _ => rfl, fun _ => rfl, fun _ => rfl, fun _ => rfl, fun _ => rfl, fun _ => rfl, fun _ => rfl, fun _ => rfl,
  fun _ => rfl, fun _ => rfl, fun _ => rfl, fun _ => rfl, fun _ _ => rfl, fun _ _ _ => rfl⟩

@[simp] theorem State.setLink_link (s : State) (k : Nat) (x : Link) (j : Nat) : (s.setLink k x).link j = if j = k then x else s.link j :=
  Tbl.get_set _ _ _ _ _

@[simp] theorem State.setPort_others (s : State) (k : Nat) (x : Port) :
    (s.setPort k x).pending = s.pending ∧ (s.setPort k x).free = s.free ∧ (s.setPort k x).od = s.od ∧
    (s.setPort k x).perPath = s.perPath ∧ (s.setPort k x).bagPending = s.bagPending ∧ (s.setPort k x).flash = s.flash ∧
    (s.setPort k x).serial = s.serial ∧ (s.setPort k x).out = s.out ∧ (s.setPort k x).mem = s.mem ∧ (s.setPort k x).sram = s.sram ∧
    (s.setPort k x).cores = s.cores ∧ (s.setPort k x).coh = s.coh ∧ (s.setPort k x).mc = s.mc ∧ (s.setPort k x).vm = s.vm ∧
    (s.setPort k x).stalls = s.stalls ∧ (s.setPort k x).host = s.host ∧ (s.setPort k x).eng = s.eng ∧ (s.setPort k x).links = s.links ∧
    (s.setPort k x).shelves = s.shelves ∧ (s.setPort k x).wakeQueue = s.wakeQueue ∧ (s.setPort k x).ring = s.ring ∧
    (s.setPort k x).irq = s.irq ∧ (s.setPort k x).pwr = s.pwr ∧ (s.setPort k x).far = s.far ∧ (s.setPort k x).side = s.side ∧
    (s.setPort k x).boot = s.boot ∧ (s.setPort k x).pmu = s.pmu ∧ (s.setPort k x).tap = s.tap ∧ (s.setPort k x).rein = s.rein ∧
    (∀ j, (s.setPort k x).core j = s.core j) ∧ (∀ j, (s.setPort k x).stall j = s.stall j) ∧ (∀ j, (s.setPort k x).link j = s.link j) ∧
    (∀ j, (s.setPort k x).shelf j = s.shelf j) ∧ (∀ j, (s.setPort k x).source j = s.source j) ∧
    (∀ j, (s.setPort k x).reinOf j = s.reinOf j) ∧ (∀ j, (s.setPort k x).engine j = s.engine j) ∧
    (∀ j, (s.setPort k x).ctx j = s.ctx j) ∧ (∀ j, (s.setPort k x).channel j = s.channel j) ∧ (∀ j, (s.setPort k x).ctl j = s.ctl j) ∧
    (∀ j, (s.setPort k x).tile j = s.tile j) ∧ (∀ j, (s.setPort k x).slice j = s.slice j) ∧
    (∀ j, (s.setPort k x).corePwr j = s.corePwr j) ∧ (∀ i u, odGet (s.setPort k x) i u = odGet s i u) ∧
    (∀ q i u, pathGet (s.setPort k x) q i u = pathGet s q i u) :=
  ⟨rfl, rfl, rfl, rfl, rfl, rfl, rfl, rfl, rfl, rfl, rfl, rfl, rfl, rfl, rfl, rfl, rfl, rfl, rfl, rfl, rfl, rfl, rfl, rfl, rfl, rfl, rfl,
  rfl, rfl, fun _ => rfl, fun _ => rfl, fun _ => rfl, fun _ => rfl, fun _ => rfl, fun _ => rfl, fun _ => rfl, fun _ => rfl, fun _ => rfl,
  fun _ => rfl, fun _ => rfl, fun _ => rfl, fun _ => rfl, fun _ _ => rfl, fun _ _ _ => rfl⟩

@[simp] theorem State.setPort_port (s : State) (k : Nat) (x : Port) (j : Nat) : (s.setPort k x).port j = if j = k then x else s.port j :=
  Tbl.get_set _ _ _ _ _

@[simp] theorem State.setShelf_others (s : State) (k : Nat) (x : Shelf) :
    (s.setShelf k x).pending = s.pending ∧ (s.setShelf k x).free = s.free ∧ (s.setShelf k x).od = s.od ∧
    (s.setShelf k x).perPath = s.perPath ∧ (s.setShelf k x).bagPending = s.bagPending ∧ (s.setShelf k x).flash = s.flash ∧
    (s.setShelf k x).serial = s.serial ∧ (s.setShelf k x).out = s.out ∧ (s.setShelf k x).mem = s.mem ∧ (s.setShelf k x).sram = s.sram ∧
    (s.setShelf k x).cores = s.cores ∧ (s.setShelf k x).coh = s.coh ∧ (s.setShelf k x).mc = s.mc ∧ (s.setShelf k x).vm = s.vm ∧
    (s.setShelf k x).stalls = s.stalls ∧ (s.setShelf k x).host = s.host ∧ (s.setShelf k x).eng = s.eng ∧
    (s.setShelf k x).links = s.links ∧ (s.setShelf k x).ports = s.ports ∧ (s.setShelf k x).wakeQueue = s.wakeQueue ∧
    (s.setShelf k x).ring = s.ring ∧ (s.setShelf k x).irq = s.irq ∧ (s.setShelf k x).pwr = s.pwr ∧ (s.setShelf k x).far = s.far ∧
    (s.setShelf k x).side = s.side ∧ (s.setShelf k x).boot = s.boot ∧ (s.setShelf k x).pmu = s.pmu ∧ (s.setShelf k x).tap = s.tap ∧
    (s.setShelf k x).rein = s.rein ∧ (∀ j, (s.setShelf k x).core j = s.core j) ∧ (∀ j, (s.setShelf k x).stall j = s.stall j) ∧
    (∀ j, (s.setShelf k x).link j = s.link j) ∧ (∀ j, (s.setShelf k x).port j = s.port j) ∧
    (∀ j, (s.setShelf k x).source j = s.source j) ∧ (∀ j, (s.setShelf k x).reinOf j = s.reinOf j) ∧
    (∀ j, (s.setShelf k x).engine j = s.engine j) ∧ (∀ j, (s.setShelf k x).ctx j = s.ctx j) ∧
    (∀ j, (s.setShelf k x).channel j = s.channel j) ∧ (∀ j, (s.setShelf k x).ctl j = s.ctl j) ∧
    (∀ j, (s.setShelf k x).tile j = s.tile j) ∧ (∀ j, (s.setShelf k x).slice j = s.slice j) ∧
    (∀ j, (s.setShelf k x).corePwr j = s.corePwr j) ∧ (∀ i u, odGet (s.setShelf k x) i u = odGet s i u) ∧
    (∀ q i u, pathGet (s.setShelf k x) q i u = pathGet s q i u) :=
  ⟨rfl, rfl, rfl, rfl, rfl, rfl, rfl, rfl, rfl, rfl, rfl, rfl, rfl, rfl, rfl, rfl, rfl, rfl, rfl, rfl, rfl, rfl, rfl, rfl, rfl, rfl, rfl,
  rfl, rfl, fun _ => rfl, fun _ => rfl, fun _ => rfl, fun _ => rfl, fun _ => rfl, fun _ => rfl, fun _ => rfl, fun _ => rfl, fun _ => rfl,
  fun _ => rfl, fun _ => rfl, fun _ => rfl, fun _ => rfl, fun _ _ => rfl, fun _ _ _ => rfl⟩

@[simp] theorem State.setShelf_shelf (s : State) (k : Nat) (x : Shelf) (j : Nat) : (s.setShelf k x).shelf j = if j = k then x else s.shelf j :=
  Tbl.get_set _ _ _ _ _

@[simp] theorem State.setSource_others (s : State) (k : Nat) (x : Source) :
    (s.setSource k x).pending = s.pending ∧ (s.setSource k x).free = s.free ∧ (s.setSource k x).od = s.od ∧
    (s.setSource k x).perPath = s.perPath ∧ (s.setSource k x).bagPending = s.bagPending ∧ (s.setSource k x).flash = s.flash ∧
    (s.setSource k x).serial = s.serial ∧ (s.setSource k x).out = s.out ∧ (s.setSource k x).mem = s.mem ∧
    (s.setSource k x).sram = s.sram ∧ (s.setSource k x).cores = s.cores ∧ (s.setSource k x).coh = s.coh ∧ (s.setSource k x).mc = s.mc ∧
    (s.setSource k x).vm = s.vm ∧ (s.setSource k x).stalls = s.stalls ∧ (s.setSource k x).host = s.host ∧ (s.setSource k x).eng = s.eng ∧
    (s.setSource k x).links = s.links ∧ (s.setSource k x).ports = s.ports ∧ (s.setSource k x).shelves = s.shelves ∧
    (s.setSource k x).wakeQueue = s.wakeQueue ∧ (s.setSource k x).ring = s.ring ∧ (s.setSource k x).pwr = s.pwr ∧
    (s.setSource k x).far = s.far ∧ (s.setSource k x).side = s.side ∧ (s.setSource k x).boot = s.boot ∧ (s.setSource k x).pmu = s.pmu ∧
    (s.setSource k x).tap = s.tap ∧ (s.setSource k x).rein = s.rein ∧ (∀ j, (s.setSource k x).core j = s.core j) ∧
    (∀ j, (s.setSource k x).stall j = s.stall j) ∧ (∀ j, (s.setSource k x).link j = s.link j) ∧
    (∀ j, (s.setSource k x).port j = s.port j) ∧ (∀ j, (s.setSource k x).shelf j = s.shelf j) ∧
    (∀ j, (s.setSource k x).reinOf j = s.reinOf j) ∧ (∀ j, (s.setSource k x).engine j = s.engine j) ∧
    (∀ j, (s.setSource k x).ctx j = s.ctx j) ∧ (∀ j, (s.setSource k x).channel j = s.channel j) ∧
    (∀ j, (s.setSource k x).ctl j = s.ctl j) ∧ (∀ j, (s.setSource k x).tile j = s.tile j) ∧
    (∀ j, (s.setSource k x).slice j = s.slice j) ∧ (∀ j, (s.setSource k x).corePwr j = s.corePwr j) ∧
    (∀ i u, odGet (s.setSource k x) i u = odGet s i u) ∧ (∀ q i u, pathGet (s.setSource k x) q i u = pathGet s q i u) :=
  ⟨rfl, rfl, rfl, rfl, rfl, rfl, rfl, rfl, rfl, rfl, rfl, rfl, rfl, rfl, rfl, rfl, rfl, rfl, rfl, rfl, rfl, rfl, rfl, rfl, rfl, rfl, rfl,
  rfl, rfl, fun _ => rfl, fun _ => rfl, fun _ => rfl, fun _ => rfl, fun _ => rfl, fun _ => rfl, fun _ => rfl, fun _ => rfl, fun _ => rfl,
  fun _ => rfl, fun _ => rfl, fun _ => rfl, fun _ => rfl, fun _ _ => rfl, fun _ _ _ => rfl⟩

@[simp] theorem State.setSource_source (s : State) (k : Nat) (x : Source) (j : Nat) : (s.setSource k x).source j = if j = k then x else s.source j :=
  Tbl.get_set _ _ _ _ _

@[simp] theorem State.setRein_others (s : State) (k : Nat) (x : ReinSt) :
    (s.setRein k x).pending = s.pending ∧ (s.setRein k x).free = s.free ∧ (s.setRein k x).od = s.od ∧
    (s.setRein k x).perPath = s.perPath ∧ (s.setRein k x).bagPending = s.bagPending ∧ (s.setRein k x).flash = s.flash ∧
    (s.setRein k x).serial = s.serial ∧ (s.setRein k x).out = s.out ∧ (s.setRein k x).mem = s.mem ∧ (s.setRein k x).sram = s.sram ∧
    (s.setRein k x).cores = s.cores ∧ (s.setRein k x).coh = s.coh ∧ (s.setRein k x).mc = s.mc ∧ (s.setRein k x).vm = s.vm ∧
    (s.setRein k x).stalls = s.stalls ∧ (s.setRein k x).host = s.host ∧ (s.setRein k x).eng = s.eng ∧ (s.setRein k x).links = s.links ∧
    (s.setRein k x).ports = s.ports ∧ (s.setRein k x).shelves = s.shelves ∧ (s.setRein k x).wakeQueue = s.wakeQueue ∧
    (s.setRein k x).ring = s.ring ∧ (s.setRein k x).irq = s.irq ∧ (s.setRein k x).pwr = s.pwr ∧ (s.setRein k x).far = s.far ∧
    (s.setRein k x).side = s.side ∧ (s.setRein k x).boot = s.boot ∧ (s.setRein k x).pmu = s.pmu ∧ (s.setRein k x).tap = s.tap ∧
    (∀ j, (s.setRein k x).core j = s.core j) ∧ (∀ j, (s.setRein k x).stall j = s.stall j) ∧ (∀ j, (s.setRein k x).link j = s.link j) ∧
    (∀ j, (s.setRein k x).port j = s.port j) ∧ (∀ j, (s.setRein k x).shelf j = s.shelf j) ∧
    (∀ j, (s.setRein k x).source j = s.source j) ∧ (∀ j, (s.setRein k x).engine j = s.engine j) ∧
    (∀ j, (s.setRein k x).ctx j = s.ctx j) ∧ (∀ j, (s.setRein k x).channel j = s.channel j) ∧ (∀ j, (s.setRein k x).ctl j = s.ctl j) ∧
    (∀ j, (s.setRein k x).tile j = s.tile j) ∧ (∀ j, (s.setRein k x).slice j = s.slice j) ∧
    (∀ j, (s.setRein k x).corePwr j = s.corePwr j) ∧ (∀ i u, odGet (s.setRein k x) i u = odGet s i u) ∧
    (∀ q i u, pathGet (s.setRein k x) q i u = pathGet s q i u) :=
  ⟨rfl, rfl, rfl, rfl, rfl, rfl, rfl, rfl, rfl, rfl, rfl, rfl, rfl, rfl, rfl, rfl, rfl, rfl, rfl, rfl, rfl, rfl, rfl, rfl, rfl, rfl, rfl,
  rfl, rfl, fun _ => rfl, fun _ => rfl, fun _ => rfl, fun _ => rfl, fun _ => rfl, fun _ => rfl, fun _ => rfl, fun _ => rfl, fun _ => rfl,
  fun _ => rfl, fun _ => rfl, fun _ => rfl, fun _ => rfl, fun _ _ => rfl, fun _ _ _ => rfl⟩

@[simp] theorem State.setRein_reinOf (s : State) (k : Nat) (x : ReinSt) (j : Nat) : (s.setRein k x).reinOf j = if j = k then x else s.reinOf j :=
  Tbl.get_set _ _ _ _ _

@[simp] theorem State.setEngine_others (s : State) (k : Nat) (x : Engine) :
    (s.setEngine k x).pending = s.pending ∧ (s.setEngine k x).free = s.free ∧ (s.setEngine k x).od = s.od ∧
    (s.setEngine k x).perPath = s.perPath ∧ (s.setEngine k x).bagPending = s.bagPending ∧ (s.setEngine k x).flash = s.flash ∧
    (s.setEngine k x).serial = s.serial ∧ (s.setEngine k x).out = s.out ∧ (s.setEngine k x).mem = s.mem ∧
    (s.setEngine k x).sram = s.sram ∧ (s.setEngine k x).cores = s.cores ∧ (s.setEngine k x).coh = s.coh ∧ (s.setEngine k x).mc = s.mc ∧
    (s.setEngine k x).vm = s.vm ∧ (s.setEngine k x).stalls = s.stalls ∧ (s.setEngine k x).host = s.host ∧
    (s.setEngine k x).links = s.links ∧ (s.setEngine k x).ports = s.ports ∧ (s.setEngine k x).shelves = s.shelves ∧
    (s.setEngine k x).wakeQueue = s.wakeQueue ∧ (s.setEngine k x).ring = s.ring ∧ (s.setEngine k x).irq = s.irq ∧
    (s.setEngine k x).pwr = s.pwr ∧ (s.setEngine k x).far = s.far ∧ (s.setEngine k x).side = s.side ∧ (s.setEngine k x).boot = s.boot ∧
    (s.setEngine k x).pmu = s.pmu ∧ (s.setEngine k x).tap = s.tap ∧ (s.setEngine k x).rein = s.rein ∧
    (∀ j, (s.setEngine k x).core j = s.core j) ∧ (∀ j, (s.setEngine k x).stall j = s.stall j) ∧
    (∀ j, (s.setEngine k x).link j = s.link j) ∧ (∀ j, (s.setEngine k x).port j = s.port j) ∧
    (∀ j, (s.setEngine k x).shelf j = s.shelf j) ∧ (∀ j, (s.setEngine k x).source j = s.source j) ∧
    (∀ j, (s.setEngine k x).reinOf j = s.reinOf j) ∧ (∀ j, (s.setEngine k x).ctx j = s.ctx j) ∧
    (∀ j, (s.setEngine k x).channel j = s.channel j) ∧ (∀ j, (s.setEngine k x).ctl j = s.ctl j) ∧
    (∀ j, (s.setEngine k x).tile j = s.tile j) ∧ (∀ j, (s.setEngine k x).slice j = s.slice j) ∧
    (∀ j, (s.setEngine k x).corePwr j = s.corePwr j) ∧ (∀ i u, odGet (s.setEngine k x) i u = odGet s i u) ∧
    (∀ q i u, pathGet (s.setEngine k x) q i u = pathGet s q i u) :=
  ⟨rfl, rfl, rfl, rfl, rfl, rfl, rfl, rfl, rfl, rfl, rfl, rfl, rfl, rfl, rfl, rfl, rfl, rfl, rfl, rfl, rfl, rfl, rfl, rfl, rfl, rfl, rfl,
  rfl, rfl, fun _ => rfl, fun _ => rfl, fun _ => rfl, fun _ => rfl, fun _ => rfl, fun _ => rfl, fun _ => rfl, fun _ => rfl, fun _ => rfl,
  fun _ => rfl, fun _ => rfl, fun _ => rfl, fun _ => rfl, fun _ _ => rfl, fun _ _ _ => rfl⟩

@[simp] theorem State.setEngine_engine (s : State) (k : Nat) (x : Engine) (j : Nat) : (s.setEngine k x).engine j = if j = k then x else s.engine j :=
  Tbl.get_set _ _ _ _ _

@[simp] theorem State.setCtx_others (s : State) (k : Nat) (x : Ctx) :
    (s.setCtx k x).pending = s.pending ∧ (s.setCtx k x).free = s.free ∧ (s.setCtx k x).od = s.od ∧ (s.setCtx k x).perPath = s.perPath ∧
    (s.setCtx k x).bagPending = s.bagPending ∧ (s.setCtx k x).flash = s.flash ∧ (s.setCtx k x).serial = s.serial ∧
    (s.setCtx k x).out = s.out ∧ (s.setCtx k x).mem = s.mem ∧ (s.setCtx k x).sram = s.sram ∧ (s.setCtx k x).cores = s.cores ∧
    (s.setCtx k x).coh = s.coh ∧ (s.setCtx k x).mc = s.mc ∧ (s.setCtx k x).vm = s.vm ∧ (s.setCtx k x).stalls = s.stalls ∧
    (s.setCtx k x).host = s.host ∧ (s.setCtx k x).links = s.links ∧ (s.setCtx k x).ports = s.ports ∧ (s.setCtx k x).shelves = s.shelves ∧
    (s.setCtx k x).wakeQueue = s.wakeQueue ∧ (s.setCtx k x).ring = s.ring ∧ (s.setCtx k x).irq = s.irq ∧ (s.setCtx k x).pwr = s.pwr ∧
    (s.setCtx k x).far = s.far ∧ (s.setCtx k x).side = s.side ∧ (s.setCtx k x).boot = s.boot ∧ (s.setCtx k x).pmu = s.pmu ∧
    (s.setCtx k x).tap = s.tap ∧ (s.setCtx k x).rein = s.rein ∧ (∀ j, (s.setCtx k x).core j = s.core j) ∧
    (∀ j, (s.setCtx k x).stall j = s.stall j) ∧ (∀ j, (s.setCtx k x).link j = s.link j) ∧ (∀ j, (s.setCtx k x).port j = s.port j) ∧
    (∀ j, (s.setCtx k x).shelf j = s.shelf j) ∧ (∀ j, (s.setCtx k x).source j = s.source j) ∧
    (∀ j, (s.setCtx k x).reinOf j = s.reinOf j) ∧ (∀ j, (s.setCtx k x).engine j = s.engine j) ∧
    (∀ j, (s.setCtx k x).channel j = s.channel j) ∧ (∀ j, (s.setCtx k x).ctl j = s.ctl j) ∧ (∀ j, (s.setCtx k x).tile j = s.tile j) ∧
    (∀ j, (s.setCtx k x).slice j = s.slice j) ∧ (∀ j, (s.setCtx k x).corePwr j = s.corePwr j) ∧
    (∀ i u, odGet (s.setCtx k x) i u = odGet s i u) ∧ (∀ q i u, pathGet (s.setCtx k x) q i u = pathGet s q i u) :=
  ⟨rfl, rfl, rfl, rfl, rfl, rfl, rfl, rfl, rfl, rfl, rfl, rfl, rfl, rfl, rfl, rfl, rfl, rfl, rfl, rfl, rfl, rfl, rfl, rfl, rfl, rfl, rfl,
  rfl, rfl, fun _ => rfl, fun _ => rfl, fun _ => rfl, fun _ => rfl, fun _ => rfl, fun _ => rfl, fun _ => rfl, fun _ => rfl, fun _ => rfl,
  fun _ => rfl, fun _ => rfl, fun _ => rfl, fun _ => rfl, fun _ _ => rfl, fun _ _ _ => rfl⟩

@[simp] theorem State.setCtx_ctx (s : State) (k : Nat) (x : Ctx) (j : Nat) : (s.setCtx k x).ctx j = if j = k then x else s.ctx j :=
  Tbl.get_set _ _ _ _ _

@[simp] theorem State.setChannel_others (s : State) (k : Nat) (x : Channel) :
    (s.setChannel k x).pending = s.pending ∧ (s.setChannel k x).free = s.free ∧ (s.setChannel k x).od = s.od ∧
    (s.setChannel k x).perPath = s.perPath ∧ (s.setChannel k x).bagPending = s.bagPending ∧ (s.setChannel k x).flash = s.flash ∧
    (s.setChannel k x).serial = s.serial ∧ (s.setChannel k x).out = s.out ∧ (s.setChannel k x).mem = s.mem ∧
    (s.setChannel k x).sram = s.sram ∧ (s.setChannel k x).cores = s.cores ∧ (s.setChannel k x).coh = s.coh ∧
    (s.setChannel k x).vm = s.vm ∧ (s.setChannel k x).stalls = s.stalls ∧ (s.setChannel k x).host = s.host ∧
    (s.setChannel k x).eng = s.eng ∧ (s.setChannel k x).links = s.links ∧ (s.setChannel k x).ports = s.ports ∧
    (s.setChannel k x).shelves = s.shelves ∧ (s.setChannel k x).wakeQueue = s.wakeQueue ∧ (s.setChannel k x).ring = s.ring ∧
    (s.setChannel k x).irq = s.irq ∧ (s.setChannel k x).pwr = s.pwr ∧ (s.setChannel k x).far = s.far ∧ (s.setChannel k x).side = s.side ∧
    (s.setChannel k x).boot = s.boot ∧ (s.setChannel k x).pmu = s.pmu ∧ (s.setChannel k x).tap = s.tap ∧
    (s.setChannel k x).rein = s.rein ∧ (∀ j, (s.setChannel k x).core j = s.core j) ∧ (∀ j, (s.setChannel k x).stall j = s.stall j) ∧
    (∀ j, (s.setChannel k x).link j = s.link j) ∧ (∀ j, (s.setChannel k x).port j = s.port j) ∧
    (∀ j, (s.setChannel k x).shelf j = s.shelf j) ∧ (∀ j, (s.setChannel k x).source j = s.source j) ∧
    (∀ j, (s.setChannel k x).reinOf j = s.reinOf j) ∧ (∀ j, (s.setChannel k x).engine j = s.engine j) ∧
    (∀ j, (s.setChannel k x).ctx j = s.ctx j) ∧ (∀ j, (s.setChannel k x).ctl j = s.ctl j) ∧ (∀ j, (s.setChannel k x).tile j = s.tile j) ∧
    (∀ j, (s.setChannel k x).slice j = s.slice j) ∧ (∀ j, (s.setChannel k x).corePwr j = s.corePwr j) ∧
    (∀ i u, odGet (s.setChannel k x) i u = odGet s i u) ∧ (∀ q i u, pathGet (s.setChannel k x) q i u = pathGet s q i u) :=
  ⟨rfl, rfl, rfl, rfl, rfl, rfl, rfl, rfl, rfl, rfl, rfl, rfl, rfl, rfl, rfl, rfl, rfl, rfl, rfl, rfl, rfl, rfl, rfl, rfl, rfl, rfl, rfl,
  rfl, rfl, fun _ => rfl, fun _ => rfl, fun _ => rfl, fun _ => rfl, fun _ => rfl, fun _ => rfl, fun _ => rfl, fun _ => rfl, fun _ => rfl,
  fun _ => rfl, fun _ => rfl, fun _ => rfl, fun _ => rfl, fun _ _ => rfl, fun _ _ _ => rfl⟩

@[simp] theorem State.setChannel_channel (s : State) (k : Nat) (x : Channel) (j : Nat) : (s.setChannel k x).channel j = if j = k then x else s.channel j :=
  Tbl.get_set _ _ _ _ _

@[simp] theorem State.setCtl_others (s : State) (k : Nat) (x : HostCtl) :
    (s.setCtl k x).pending = s.pending ∧ (s.setCtl k x).free = s.free ∧ (s.setCtl k x).od = s.od ∧ (s.setCtl k x).perPath = s.perPath ∧
    (s.setCtl k x).bagPending = s.bagPending ∧ (s.setCtl k x).flash = s.flash ∧ (s.setCtl k x).serial = s.serial ∧
    (s.setCtl k x).out = s.out ∧ (s.setCtl k x).mem = s.mem ∧ (s.setCtl k x).sram = s.sram ∧ (s.setCtl k x).cores = s.cores ∧
    (s.setCtl k x).coh = s.coh ∧ (s.setCtl k x).mc = s.mc ∧ (s.setCtl k x).vm = s.vm ∧ (s.setCtl k x).stalls = s.stalls ∧
    (s.setCtl k x).eng = s.eng ∧ (s.setCtl k x).links = s.links ∧ (s.setCtl k x).ports = s.ports ∧ (s.setCtl k x).shelves = s.shelves ∧
    (s.setCtl k x).wakeQueue = s.wakeQueue ∧ (s.setCtl k x).ring = s.ring ∧ (s.setCtl k x).irq = s.irq ∧ (s.setCtl k x).pwr = s.pwr ∧
    (s.setCtl k x).far = s.far ∧ (s.setCtl k x).side = s.side ∧ (s.setCtl k x).boot = s.boot ∧ (s.setCtl k x).pmu = s.pmu ∧
    (s.setCtl k x).tap = s.tap ∧ (s.setCtl k x).rein = s.rein ∧ (∀ j, (s.setCtl k x).core j = s.core j) ∧
    (∀ j, (s.setCtl k x).stall j = s.stall j) ∧ (∀ j, (s.setCtl k x).link j = s.link j) ∧ (∀ j, (s.setCtl k x).port j = s.port j) ∧
    (∀ j, (s.setCtl k x).shelf j = s.shelf j) ∧ (∀ j, (s.setCtl k x).source j = s.source j) ∧
    (∀ j, (s.setCtl k x).reinOf j = s.reinOf j) ∧ (∀ j, (s.setCtl k x).engine j = s.engine j) ∧ (∀ j, (s.setCtl k x).ctx j = s.ctx j) ∧
    (∀ j, (s.setCtl k x).channel j = s.channel j) ∧ (∀ j, (s.setCtl k x).tile j = s.tile j) ∧ (∀ j, (s.setCtl k x).slice j = s.slice j) ∧
    (∀ j, (s.setCtl k x).corePwr j = s.corePwr j) ∧ (∀ i u, odGet (s.setCtl k x) i u = odGet s i u) ∧
    (∀ q i u, pathGet (s.setCtl k x) q i u = pathGet s q i u) :=
  ⟨rfl, rfl, rfl, rfl, rfl, rfl, rfl, rfl, rfl, rfl, rfl, rfl, rfl, rfl, rfl, rfl, rfl, rfl, rfl, rfl, rfl, rfl, rfl, rfl, rfl, rfl, rfl,
  rfl, rfl, fun _ => rfl, fun _ => rfl, fun _ => rfl, fun _ => rfl, fun _ => rfl, fun _ => rfl, fun _ => rfl, fun _ => rfl, fun _ => rfl,
  fun _ => rfl, fun _ => rfl, fun _ => rfl, fun _ => rfl, fun _ _ => rfl, fun _ _ _ => rfl⟩

@[simp] theorem State.setCtl_ctl (s : State) (k : Nat) (x : HostCtl) (j : Nat) : (s.setCtl k x).ctl j = if j = k then x else s.ctl j :=
  Tbl.get_set _ _ _ _ _

@[simp] theorem State.setFn_others (s : State) (p k : Nat) (x : HFn) :
    (s.setFn p k x).pending = s.pending ∧ (s.setFn p k x).free = s.free ∧ (s.setFn p k x).od = s.od ∧
    (s.setFn p k x).perPath = s.perPath ∧ (s.setFn p k x).bagPending = s.bagPending ∧ (s.setFn p k x).flash = s.flash ∧
    (s.setFn p k x).serial = s.serial ∧ (s.setFn p k x).out = s.out ∧ (s.setFn p k x).mem = s.mem ∧ (s.setFn p k x).sram = s.sram ∧
    (s.setFn p k x).cores = s.cores ∧ (s.setFn p k x).coh = s.coh ∧ (s.setFn p k x).mc = s.mc ∧ (s.setFn p k x).vm = s.vm ∧
    (s.setFn p k x).stalls = s.stalls ∧ (s.setFn p k x).eng = s.eng ∧ (s.setFn p k x).links = s.links ∧ (s.setFn p k x).ports = s.ports ∧
    (s.setFn p k x).shelves = s.shelves ∧ (s.setFn p k x).wakeQueue = s.wakeQueue ∧ (s.setFn p k x).ring = s.ring ∧
    (s.setFn p k x).irq = s.irq ∧ (s.setFn p k x).pwr = s.pwr ∧ (s.setFn p k x).far = s.far ∧ (s.setFn p k x).side = s.side ∧
    (s.setFn p k x).boot = s.boot ∧ (s.setFn p k x).pmu = s.pmu ∧ (s.setFn p k x).tap = s.tap ∧ (s.setFn p k x).rein = s.rein ∧
    (∀ j, (s.setFn p k x).core j = s.core j) ∧ (∀ j, (s.setFn p k x).stall j = s.stall j) ∧ (∀ j, (s.setFn p k x).link j = s.link j) ∧
    (∀ j, (s.setFn p k x).port j = s.port j) ∧ (∀ j, (s.setFn p k x).shelf j = s.shelf j) ∧
    (∀ j, (s.setFn p k x).source j = s.source j) ∧ (∀ j, (s.setFn p k x).reinOf j = s.reinOf j) ∧
    (∀ j, (s.setFn p k x).engine j = s.engine j) ∧ (∀ j, (s.setFn p k x).ctx j = s.ctx j) ∧
    (∀ j, (s.setFn p k x).channel j = s.channel j) ∧ (∀ j, (s.setFn p k x).ctl j = s.ctl j) ∧ (∀ j, (s.setFn p k x).tile j = s.tile j) ∧
    (∀ j, (s.setFn p k x).slice j = s.slice j) ∧ (∀ j, (s.setFn p k x).corePwr j = s.corePwr j) ∧
    (∀ i u, odGet (s.setFn p k x) i u = odGet s i u) ∧ (∀ q i u, pathGet (s.setFn p k x) q i u = pathGet s q i u) :=
  ⟨rfl, rfl, rfl, rfl, rfl, rfl, rfl, rfl, rfl, rfl, rfl, rfl, rfl, rfl, rfl, rfl, rfl, rfl, rfl, rfl, rfl, rfl, rfl, rfl, rfl, rfl, rfl,
  rfl, rfl, fun _ => rfl, fun _ => rfl, fun _ => rfl, fun _ => rfl, fun _ => rfl, fun _ => rfl, fun _ => rfl, fun _ => rfl, fun _ => rfl,
  fun _ => rfl, fun _ => rfl, fun _ => rfl, fun _ => rfl, fun _ => rfl, fun _ _ => rfl, fun _ _ _ => rfl⟩

@[simp] theorem State.setTile_others (s : State) (k : Nat) (x : Tile) :
    (s.setTile k x).pending = s.pending ∧ (s.setTile k x).free = s.free ∧ (s.setTile k x).od = s.od ∧
    (s.setTile k x).perPath = s.perPath ∧ (s.setTile k x).bagPending = s.bagPending ∧ (s.setTile k x).flash = s.flash ∧
    (s.setTile k x).serial = s.serial ∧ (s.setTile k x).out = s.out ∧ (s.setTile k x).mem = s.mem ∧ (s.setTile k x).sram = s.sram ∧
    (s.setTile k x).cores = s.cores ∧ (s.setTile k x).mc = s.mc ∧ (s.setTile k x).vm = s.vm ∧ (s.setTile k x).stalls = s.stalls ∧
    (s.setTile k x).host = s.host ∧ (s.setTile k x).eng = s.eng ∧ (s.setTile k x).links = s.links ∧ (s.setTile k x).ports = s.ports ∧
    (s.setTile k x).shelves = s.shelves ∧ (s.setTile k x).wakeQueue = s.wakeQueue ∧ (s.setTile k x).ring = s.ring ∧
    (s.setTile k x).irq = s.irq ∧ (s.setTile k x).pwr = s.pwr ∧ (s.setTile k x).far = s.far ∧ (s.setTile k x).side = s.side ∧
    (s.setTile k x).boot = s.boot ∧ (s.setTile k x).pmu = s.pmu ∧ (s.setTile k x).tap = s.tap ∧ (s.setTile k x).rein = s.rein ∧
    (∀ j, (s.setTile k x).core j = s.core j) ∧ (∀ j, (s.setTile k x).stall j = s.stall j) ∧ (∀ j, (s.setTile k x).link j = s.link j) ∧
    (∀ j, (s.setTile k x).port j = s.port j) ∧ (∀ j, (s.setTile k x).shelf j = s.shelf j) ∧
    (∀ j, (s.setTile k x).source j = s.source j) ∧ (∀ j, (s.setTile k x).reinOf j = s.reinOf j) ∧
    (∀ j, (s.setTile k x).engine j = s.engine j) ∧ (∀ j, (s.setTile k x).ctx j = s.ctx j) ∧
    (∀ j, (s.setTile k x).channel j = s.channel j) ∧ (∀ j, (s.setTile k x).ctl j = s.ctl j) ∧
    (∀ j, (s.setTile k x).slice j = s.slice j) ∧ (∀ j, (s.setTile k x).corePwr j = s.corePwr j) ∧
    (∀ i u, odGet (s.setTile k x) i u = odGet s i u) ∧ (∀ q i u, pathGet (s.setTile k x) q i u = pathGet s q i u) :=
  ⟨rfl, rfl, rfl, rfl, rfl, rfl, rfl, rfl, rfl, rfl, rfl, rfl, rfl, rfl, rfl, rfl, rfl, rfl, rfl, rfl, rfl, rfl, rfl, rfl, rfl, rfl, rfl,
  rfl, rfl, fun _ => rfl, fun _ => rfl, fun _ => rfl, fun _ => rfl, fun _ => rfl, fun _ => rfl, fun _ => rfl, fun _ => rfl, fun _ => rfl,
  fun _ => rfl, fun _ => rfl, fun _ => rfl, fun _ => rfl, fun _ _ => rfl, fun _ _ _ => rfl⟩

@[simp] theorem State.setTile_tile (s : State) (k : Nat) (x : Tile) (j : Nat) : (s.setTile k x).tile j = if j = k then x else s.tile j :=
  Tbl.get_set _ _ _ _ _

@[simp] theorem State.setSlice_others (s : State) (k : Nat) (x : Slice) :
    (s.setSlice k x).pending = s.pending ∧ (s.setSlice k x).free = s.free ∧ (s.setSlice k x).od = s.od ∧
    (s.setSlice k x).perPath = s.perPath ∧ (s.setSlice k x).bagPending = s.bagPending ∧ (s.setSlice k x).flash = s.flash ∧
    (s.setSlice k x).serial = s.serial ∧ (s.setSlice k x).out = s.out ∧ (s.setSlice k x).mem = s.mem ∧ (s.setSlice k x).sram = s.sram ∧
    (s.setSlice k x).cores = s.cores ∧ (s.setSlice k x).mc = s.mc ∧ (s.setSlice k x).vm = s.vm ∧ (s.setSlice k x).stalls = s.stalls ∧
    (s.setSlice k x).host = s.host ∧ (s.setSlice k x).eng = s.eng ∧ (s.setSlice k x).links = s.links ∧ (s.setSlice k x).ports = s.ports ∧
    (s.setSlice k x).shelves = s.shelves ∧ (s.setSlice k x).wakeQueue = s.wakeQueue ∧ (s.setSlice k x).ring = s.ring ∧
    (s.setSlice k x).irq = s.irq ∧ (s.setSlice k x).pwr = s.pwr ∧ (s.setSlice k x).far = s.far ∧ (s.setSlice k x).side = s.side ∧
    (s.setSlice k x).boot = s.boot ∧ (s.setSlice k x).pmu = s.pmu ∧ (s.setSlice k x).tap = s.tap ∧ (s.setSlice k x).rein = s.rein ∧
    (∀ j, (s.setSlice k x).core j = s.core j) ∧ (∀ j, (s.setSlice k x).stall j = s.stall j) ∧ (∀ j, (s.setSlice k x).link j = s.link j) ∧
    (∀ j, (s.setSlice k x).port j = s.port j) ∧ (∀ j, (s.setSlice k x).shelf j = s.shelf j) ∧
    (∀ j, (s.setSlice k x).source j = s.source j) ∧ (∀ j, (s.setSlice k x).reinOf j = s.reinOf j) ∧
    (∀ j, (s.setSlice k x).engine j = s.engine j) ∧ (∀ j, (s.setSlice k x).ctx j = s.ctx j) ∧
    (∀ j, (s.setSlice k x).channel j = s.channel j) ∧ (∀ j, (s.setSlice k x).ctl j = s.ctl j) ∧
    (∀ j, (s.setSlice k x).tile j = s.tile j) ∧ (∀ j, (s.setSlice k x).corePwr j = s.corePwr j) ∧
    (∀ i u, odGet (s.setSlice k x) i u = odGet s i u) ∧ (∀ q i u, pathGet (s.setSlice k x) q i u = pathGet s q i u) :=
  ⟨rfl, rfl, rfl, rfl, rfl, rfl, rfl, rfl, rfl, rfl, rfl, rfl, rfl, rfl, rfl, rfl, rfl, rfl, rfl, rfl, rfl, rfl, rfl, rfl, rfl, rfl, rfl,
  rfl, rfl, fun _ => rfl, fun _ => rfl, fun _ => rfl, fun _ => rfl, fun _ => rfl, fun _ => rfl, fun _ => rfl, fun _ => rfl, fun _ => rfl,
  fun _ => rfl, fun _ => rfl, fun _ => rfl, fun _ => rfl, fun _ _ => rfl, fun _ _ _ => rfl⟩

@[simp] theorem State.setSlice_slice (s : State) (k : Nat) (x : Slice) (j : Nat) : (s.setSlice k x).slice j = if j = k then x else s.slice j :=
  Tbl.get_set _ _ _ _ _

@[simp] theorem State.setCorePwr_others (s : State) (k : Nat) (x : CorePwr) :
    (s.setCorePwr k x).pending = s.pending ∧ (s.setCorePwr k x).free = s.free ∧ (s.setCorePwr k x).od = s.od ∧
    (s.setCorePwr k x).perPath = s.perPath ∧ (s.setCorePwr k x).bagPending = s.bagPending ∧ (s.setCorePwr k x).flash = s.flash ∧
    (s.setCorePwr k x).serial = s.serial ∧ (s.setCorePwr k x).out = s.out ∧ (s.setCorePwr k x).mem = s.mem ∧
    (s.setCorePwr k x).sram = s.sram ∧ (s.setCorePwr k x).cores = s.cores ∧ (s.setCorePwr k x).coh = s.coh ∧
    (s.setCorePwr k x).mc = s.mc ∧ (s.setCorePwr k x).vm = s.vm ∧ (s.setCorePwr k x).stalls = s.stalls ∧
    (s.setCorePwr k x).host = s.host ∧ (s.setCorePwr k x).eng = s.eng ∧ (s.setCorePwr k x).links = s.links ∧
    (s.setCorePwr k x).ports = s.ports ∧ (s.setCorePwr k x).shelves = s.shelves ∧ (s.setCorePwr k x).wakeQueue = s.wakeQueue ∧
    (s.setCorePwr k x).ring = s.ring ∧ (s.setCorePwr k x).irq = s.irq ∧ (s.setCorePwr k x).far = s.far ∧
    (s.setCorePwr k x).side = s.side ∧ (s.setCorePwr k x).boot = s.boot ∧ (s.setCorePwr k x).pmu = s.pmu ∧
    (s.setCorePwr k x).tap = s.tap ∧ (s.setCorePwr k x).rein = s.rein ∧ (∀ j, (s.setCorePwr k x).core j = s.core j) ∧
    (∀ j, (s.setCorePwr k x).stall j = s.stall j) ∧ (∀ j, (s.setCorePwr k x).link j = s.link j) ∧
    (∀ j, (s.setCorePwr k x).port j = s.port j) ∧ (∀ j, (s.setCorePwr k x).shelf j = s.shelf j) ∧
    (∀ j, (s.setCorePwr k x).source j = s.source j) ∧ (∀ j, (s.setCorePwr k x).reinOf j = s.reinOf j) ∧
    (∀ j, (s.setCorePwr k x).engine j = s.engine j) ∧ (∀ j, (s.setCorePwr k x).ctx j = s.ctx j) ∧
    (∀ j, (s.setCorePwr k x).channel j = s.channel j) ∧ (∀ j, (s.setCorePwr k x).ctl j = s.ctl j) ∧
    (∀ j, (s.setCorePwr k x).tile j = s.tile j) ∧ (∀ j, (s.setCorePwr k x).slice j = s.slice j) ∧
    (∀ i u, odGet (s.setCorePwr k x) i u = odGet s i u) ∧ (∀ q i u, pathGet (s.setCorePwr k x) q i u = pathGet s q i u) :=
  ⟨rfl, rfl, rfl, rfl, rfl, rfl, rfl, rfl, rfl, rfl, rfl, rfl, rfl, rfl, rfl, rfl, rfl, rfl, rfl, rfl, rfl, rfl, rfl, rfl, rfl, rfl, rfl,
  rfl, rfl, fun _ => rfl, fun _ => rfl, fun _ => rfl, fun _ => rfl, fun _ => rfl, fun _ => rfl, fun _ => rfl, fun _ => rfl, fun _ => rfl,
  fun _ => rfl, fun _ => rfl, fun _ => rfl, fun _ => rfl, fun _ _ => rfl, fun _ _ _ => rfl⟩

@[simp] theorem State.setCorePwr_corePwr (s : State) (k : Nat) (x : CorePwr) (j : Nat) : (s.setCorePwr k x).corePwr j = if j = k then x else s.corePwr j :=
  Tbl.get_set _ _ _ _ _

@[simp] theorem odSet_others (s : State) (k j v : Nat) :
    (odSet k j v s).pending = s.pending ∧ (odSet k j v s).free = s.free ∧ (odSet k j v s).perPath = s.perPath ∧
    (odSet k j v s).bagPending = s.bagPending ∧ (odSet k j v s).flash = s.flash ∧ (odSet k j v s).serial = s.serial ∧
    (odSet k j v s).out = s.out ∧ (odSet k j v s).mem = s.mem ∧ (odSet k j v s).sram = s.sram ∧ (odSet k j v s).cores = s.cores ∧
    (odSet k j v s).coh = s.coh ∧ (odSet k j v s).mc = s.mc ∧ (odSet k j v s).vm = s.vm ∧ (odSet k j v s).stalls = s.stalls ∧
    (odSet k j v s).host = s.host ∧ (odSet k j v s).eng = s.eng ∧ (odSet k j v s).links = s.links ∧ (odSet k j v s).ports = s.ports ∧
    (odSet k j v s).shelves = s.shelves ∧ (odSet k j v s).wakeQueue = s.wakeQueue ∧ (odSet k j v s).ring = s.ring ∧
    (odSet k j v s).irq = s.irq ∧ (odSet k j v s).pwr = s.pwr ∧ (odSet k j v s).far = s.far ∧ (odSet k j v s).side = s.side ∧
    (odSet k j v s).boot = s.boot ∧ (odSet k j v s).pmu = s.pmu ∧ (odSet k j v s).tap = s.tap ∧ (odSet k j v s).rein = s.rein ∧
    (∀ i, (odSet k j v s).core i = s.core i) ∧ (∀ i, (odSet k j v s).stall i = s.stall i) ∧ (∀ i, (odSet k j v s).link i = s.link i) ∧
    (∀ i, (odSet k j v s).port i = s.port i) ∧ (∀ i, (odSet k j v s).shelf i = s.shelf i) ∧
    (∀ i, (odSet k j v s).source i = s.source i) ∧ (∀ i, (odSet k j v s).reinOf i = s.reinOf i) ∧
    (∀ i, (odSet k j v s).engine i = s.engine i) ∧ (∀ i, (odSet k j v s).ctx i = s.ctx i) ∧
    (∀ i, (odSet k j v s).channel i = s.channel i) ∧ (∀ i, (odSet k j v s).ctl i = s.ctl i) ∧ (∀ i, (odSet k j v s).tile i = s.tile i) ∧
    (∀ i, (odSet k j v s).slice i = s.slice i) ∧ (∀ i, (odSet k j v s).corePwr i = s.corePwr i) ∧
    (∀ q i u, pathGet (odSet k j v s) q i u = pathGet s q i u) :=
  ⟨rfl, rfl, rfl, rfl, rfl, rfl, rfl, rfl, rfl, rfl, rfl, rfl, rfl, rfl, rfl, rfl, rfl, rfl, rfl, rfl, rfl, rfl, rfl, rfl, rfl, rfl, rfl,
  rfl, rfl, fun _ => rfl, fun _ => rfl, fun _ => rfl, fun _ => rfl, fun _ => rfl, fun _ => rfl, fun _ => rfl, fun _ => rfl, fun _ => rfl,
  fun _ => rfl, fun _ => rfl, fun _ => rfl, fun _ => rfl, fun _ => rfl, fun _ _ _ => rfl⟩

@[simp] theorem odBump_others (s : State) (k j : Nat) :
    (odBump k j s).pending = s.pending ∧ (odBump k j s).free = s.free ∧ (odBump k j s).perPath = s.perPath ∧
    (odBump k j s).bagPending = s.bagPending ∧ (odBump k j s).flash = s.flash ∧ (odBump k j s).serial = s.serial ∧
    (odBump k j s).out = s.out ∧ (odBump k j s).mem = s.mem ∧ (odBump k j s).sram = s.sram ∧ (odBump k j s).cores = s.cores ∧
    (odBump k j s).coh = s.coh ∧ (odBump k j s).mc = s.mc ∧ (odBump k j s).vm = s.vm ∧ (odBump k j s).stalls = s.stalls ∧
    (odBump k j s).host = s.host ∧ (odBump k j s).eng = s.eng ∧ (odBump k j s).links = s.links ∧ (odBump k j s).ports = s.ports ∧
    (odBump k j s).shelves = s.shelves ∧ (odBump k j s).wakeQueue = s.wakeQueue ∧ (odBump k j s).ring = s.ring ∧
    (odBump k j s).irq = s.irq ∧ (odBump k j s).pwr = s.pwr ∧ (odBump k j s).far = s.far ∧ (odBump k j s).side = s.side ∧
    (odBump k j s).boot = s.boot ∧ (odBump k j s).pmu = s.pmu ∧ (odBump k j s).tap = s.tap ∧ (odBump k j s).rein = s.rein ∧
    (∀ i, (odBump k j s).core i = s.core i) ∧ (∀ i, (odBump k j s).stall i = s.stall i) ∧ (∀ i, (odBump k j s).link i = s.link i) ∧
    (∀ i, (odBump k j s).port i = s.port i) ∧ (∀ i, (odBump k j s).shelf i = s.shelf i) ∧ (∀ i, (odBump k j s).source i = s.source i) ∧
    (∀ i, (odBump k j s).reinOf i = s.reinOf i) ∧ (∀ i, (odBump k j s).engine i = s.engine i) ∧ (∀ i, (odBump k j s).ctx i = s.ctx i) ∧
    (∀ i, (odBump k j s).channel i = s.channel i) ∧ (∀ i, (odBump k j s).ctl i = s.ctl i) ∧ (∀ i, (odBump k j s).tile i = s.tile i) ∧
    (∀ i, (odBump k j s).slice i = s.slice i) ∧ (∀ i, (odBump k j s).corePwr i = s.corePwr i) ∧
    (∀ q i u, pathGet (odBump k j s) q i u = pathGet s q i u) :=
  ⟨rfl, rfl, rfl, rfl, rfl, rfl, rfl, rfl, rfl, rfl, rfl, rfl, rfl, rfl, rfl, rfl, rfl, rfl, rfl, rfl, rfl, rfl, rfl, rfl, rfl, rfl, rfl,
  rfl, rfl, fun _ => rfl, fun _ => rfl, fun _ => rfl, fun _ => rfl, fun _ => rfl, fun _ => rfl, fun _ => rfl, fun _ => rfl, fun _ => rfl,
  fun _ => rfl, fun _ => rfl, fun _ => rfl, fun _ => rfl, fun _ => rfl, fun _ _ _ => rfl⟩

@[simp] theorem pathSet_others (s : State) (p : Path) (k j v : Nat) :
    (pathSet p k j v s).pending = s.pending ∧ (pathSet p k j v s).free = s.free ∧ (pathSet p k j v s).od = s.od ∧
    (pathSet p k j v s).bagPending = s.bagPending ∧ (pathSet p k j v s).flash = s.flash ∧ (pathSet p k j v s).serial = s.serial ∧
    (pathSet p k j v s).out = s.out ∧ (pathSet p k j v s).mem = s.mem ∧ (pathSet p k j v s).sram = s.sram ∧
    (pathSet p k j v s).cores = s.cores ∧ (pathSet p k j v s).coh = s.coh ∧ (pathSet p k j v s).mc = s.mc ∧
    (pathSet p k j v s).vm = s.vm ∧ (pathSet p k j v s).stalls = s.stalls ∧ (pathSet p k j v s).host = s.host ∧
    (pathSet p k j v s).eng = s.eng ∧ (pathSet p k j v s).links = s.links ∧ (pathSet p k j v s).ports = s.ports ∧
    (pathSet p k j v s).shelves = s.shelves ∧ (pathSet p k j v s).wakeQueue = s.wakeQueue ∧ (pathSet p k j v s).ring = s.ring ∧
    (pathSet p k j v s).irq = s.irq ∧ (pathSet p k j v s).pwr = s.pwr ∧ (pathSet p k j v s).far = s.far ∧
    (pathSet p k j v s).side = s.side ∧ (pathSet p k j v s).boot = s.boot ∧ (pathSet p k j v s).pmu = s.pmu ∧
    (pathSet p k j v s).tap = s.tap ∧ (pathSet p k j v s).rein = s.rein ∧ (∀ i, (pathSet p k j v s).core i = s.core i) ∧
    (∀ i, (pathSet p k j v s).stall i = s.stall i) ∧ (∀ i, (pathSet p k j v s).link i = s.link i) ∧
    (∀ i, (pathSet p k j v s).port i = s.port i) ∧ (∀ i, (pathSet p k j v s).shelf i = s.shelf i) ∧
    (∀ i, (pathSet p k j v s).source i = s.source i) ∧ (∀ i, (pathSet p k j v s).reinOf i = s.reinOf i) ∧
    (∀ i, (pathSet p k j v s).engine i = s.engine i) ∧ (∀ i, (pathSet p k j v s).ctx i = s.ctx i) ∧
    (∀ i, (pathSet p k j v s).channel i = s.channel i) ∧ (∀ i, (pathSet p k j v s).ctl i = s.ctl i) ∧
    (∀ i, (pathSet p k j v s).tile i = s.tile i) ∧ (∀ i, (pathSet p k j v s).slice i = s.slice i) ∧
    (∀ i, (pathSet p k j v s).corePwr i = s.corePwr i) ∧ (∀ i u, odGet (pathSet p k j v s) i u = odGet s i u) :=
  ⟨rfl, rfl, rfl, rfl, rfl, rfl, rfl, rfl, rfl, rfl, rfl, rfl, rfl, rfl, rfl, rfl, rfl, rfl, rfl, rfl, rfl, rfl, rfl, rfl, rfl, rfl, rfl,
  rfl, rfl, fun _ => rfl, fun _ => rfl, fun _ => rfl, fun _ => rfl, fun _ => rfl, fun _ => rfl, fun _ => rfl, fun _ => rfl, fun _ => rfl,
  fun _ => rfl, fun _ => rfl, fun _ => rfl, fun _ => rfl, fun _ => rfl, fun _ _ => rfl⟩

@[simp] theorem setAnswer_others (s : State) (p : Path) (r : Res) :
    (setAnswer p r s).pending = s.pending ∧ (setAnswer p r s).free = s.free ∧ (setAnswer p r s).od = s.od ∧
    (setAnswer p r s).bagPending = s.bagPending ∧ (setAnswer p r s).flash = s.flash ∧ (setAnswer p r s).serial = s.serial ∧
    (setAnswer p r s).out = s.out ∧ (setAnswer p r s).mem = s.mem ∧ (setAnswer p r s).sram = s.sram ∧ (setAnswer p r s).cores = s.cores ∧
    (setAnswer p r s).coh = s.coh ∧ (setAnswer p r s).mc = s.mc ∧ (setAnswer p r s).vm = s.vm ∧ (setAnswer p r s).stalls = s.stalls ∧
    (setAnswer p r s).host = s.host ∧ (setAnswer p r s).eng = s.eng ∧ (setAnswer p r s).links = s.links ∧
    (setAnswer p r s).ports = s.ports ∧ (setAnswer p r s).shelves = s.shelves ∧ (setAnswer p r s).wakeQueue = s.wakeQueue ∧
    (setAnswer p r s).ring = s.ring ∧ (setAnswer p r s).irq = s.irq ∧ (setAnswer p r s).pwr = s.pwr ∧ (setAnswer p r s).far = s.far ∧
    (setAnswer p r s).side = s.side ∧ (setAnswer p r s).boot = s.boot ∧ (setAnswer p r s).pmu = s.pmu ∧ (setAnswer p r s).tap = s.tap ∧
    (setAnswer p r s).rein = s.rein ∧ (∀ j, (setAnswer p r s).core j = s.core j) ∧ (∀ j, (setAnswer p r s).stall j = s.stall j) ∧
    (∀ j, (setAnswer p r s).link j = s.link j) ∧ (∀ j, (setAnswer p r s).port j = s.port j) ∧
    (∀ j, (setAnswer p r s).shelf j = s.shelf j) ∧ (∀ j, (setAnswer p r s).source j = s.source j) ∧
    (∀ j, (setAnswer p r s).reinOf j = s.reinOf j) ∧ (∀ j, (setAnswer p r s).engine j = s.engine j) ∧
    (∀ j, (setAnswer p r s).ctx j = s.ctx j) ∧ (∀ j, (setAnswer p r s).channel j = s.channel j) ∧
    (∀ j, (setAnswer p r s).ctl j = s.ctl j) ∧ (∀ j, (setAnswer p r s).tile j = s.tile j) ∧
    (∀ j, (setAnswer p r s).slice j = s.slice j) ∧ (∀ j, (setAnswer p r s).corePwr j = s.corePwr j) ∧
    (∀ i u, odGet (setAnswer p r s) i u = odGet s i u) :=
  ⟨rfl, rfl, rfl, rfl, rfl, rfl, rfl, rfl, rfl, rfl, rfl, rfl, rfl, rfl, rfl, rfl, rfl, rfl, rfl, rfl, rfl, rfl, rfl, rfl, rfl, rfl, rfl,
  rfl, rfl, fun _ => rfl, fun _ => rfl, fun _ => rfl, fun _ => rfl, fun _ => rfl, fun _ => rfl, fun _ => rfl, fun _ => rfl, fun _ => rfl,
  fun _ => rfl, fun _ => rfl, fun _ => rfl, fun _ => rfl, fun _ => rfl, fun _ _ => rfl⟩

@[simp] theorem emit_others (s : State) (o : Out) :
    (emit o s).pending = s.pending ∧ (emit o s).free = s.free ∧ (emit o s).od = s.od ∧ (emit o s).perPath = s.perPath ∧
    (emit o s).bagPending = s.bagPending ∧ (emit o s).flash = s.flash ∧ (emit o s).serial = s.serial ∧ (emit o s).mem = s.mem ∧
    (emit o s).sram = s.sram ∧ (emit o s).cores = s.cores ∧ (emit o s).coh = s.coh ∧ (emit o s).mc = s.mc ∧ (emit o s).vm = s.vm ∧
    (emit o s).stalls = s.stalls ∧ (emit o s).host = s.host ∧ (emit o s).eng = s.eng ∧ (emit o s).links = s.links ∧
    (emit o s).ports = s.ports ∧ (emit o s).shelves = s.shelves ∧ (emit o s).wakeQueue = s.wakeQueue ∧ (emit o s).ring = s.ring ∧
    (emit o s).irq = s.irq ∧ (emit o s).pwr = s.pwr ∧ (emit o s).far = s.far ∧ (emit o s).side = s.side ∧ (emit o s).boot = s.boot ∧
    (emit o s).pmu = s.pmu ∧ (emit o s).tap = s.tap ∧ (emit o s).rein = s.rein ∧ (∀ j, (emit o s).core j = s.core j) ∧
    (∀ j, (emit o s).stall j = s.stall j) ∧ (∀ j, (emit o s).link j = s.link j) ∧ (∀ j, (emit o s).port j = s.port j) ∧
    (∀ j, (emit o s).shelf j = s.shelf j) ∧ (∀ j, (emit o s).source j = s.source j) ∧ (∀ j, (emit o s).reinOf j = s.reinOf j) ∧
    (∀ j, (emit o s).engine j = s.engine j) ∧ (∀ j, (emit o s).ctx j = s.ctx j) ∧ (∀ j, (emit o s).channel j = s.channel j) ∧
    (∀ j, (emit o s).ctl j = s.ctl j) ∧ (∀ j, (emit o s).tile j = s.tile j) ∧ (∀ j, (emit o s).slice j = s.slice j) ∧
    (∀ j, (emit o s).corePwr j = s.corePwr j) ∧ (∀ i u, odGet (emit o s) i u = odGet s i u) ∧
    (∀ q i u, pathGet (emit o s) q i u = pathGet s q i u) :=
  ⟨rfl, rfl, rfl, rfl, rfl, rfl, rfl, rfl, rfl, rfl, rfl, rfl, rfl, rfl, rfl, rfl, rfl, rfl, rfl, rfl, rfl, rfl, rfl, rfl, rfl, rfl, rfl,
  rfl, rfl, fun _ => rfl, fun _ => rfl, fun _ => rfl, fun _ => rfl, fun _ => rfl, fun _ => rfl, fun _ => rfl, fun _ => rfl, fun _ => rfl,
  fun _ => rfl, fun _ => rfl, fun _ => rfl, fun _ => rfl, fun _ => rfl, fun _ _ => rfl, fun _ _ _ => rfl⟩

@[simp] theorem State.took_others (s : State) :
    s.took.pending = s.pending ∧ s.took.od = s.od ∧ s.took.perPath = s.perPath ∧ s.took.bagPending = s.bagPending ∧
    s.took.flash = s.flash ∧ s.took.serial = s.serial ∧ s.took.out = s.out ∧ s.took.mem = s.mem ∧ s.took.sram = s.sram ∧
    s.took.cores = s.cores ∧ s.took.coh = s.coh ∧ s.took.mc = s.mc ∧ s.took.vm = s.vm ∧ s.took.stalls = s.stalls ∧ s.took.host = s.host ∧
    s.took.eng = s.eng ∧ s.took.links = s.links ∧ s.took.ports = s.ports ∧ s.took.shelves = s.shelves ∧ s.took.wakeQueue = s.wakeQueue ∧
    s.took.ring = s.ring ∧ s.took.irq = s.irq ∧ s.took.pwr = s.pwr ∧ s.took.far = s.far ∧ s.took.side = s.side ∧ s.took.boot = s.boot ∧
    s.took.pmu = s.pmu ∧ s.took.tap = s.tap ∧ s.took.rein = s.rein ∧ (∀ j, s.took.core j = s.core j) ∧
    (∀ j, s.took.stall j = s.stall j) ∧ (∀ j, s.took.link j = s.link j) ∧ (∀ j, s.took.port j = s.port j) ∧
    (∀ j, s.took.shelf j = s.shelf j) ∧ (∀ j, s.took.source j = s.source j) ∧ (∀ j, s.took.reinOf j = s.reinOf j) ∧
    (∀ j, s.took.engine j = s.engine j) ∧ (∀ j, s.took.ctx j = s.ctx j) ∧ (∀ j, s.took.channel j = s.channel j) ∧
    (∀ j, s.took.ctl j = s.ctl j) ∧ (∀ j, s.took.tile j = s.tile j) ∧ (∀ j, s.took.slice j = s.slice j) ∧
    (∀ j, s.took.corePwr j = s.corePwr j) ∧ (∀ i u, odGet s.took i u = odGet s i u) ∧ (∀ q i u, pathGet s.took q i u = pathGet s q i u) :=
  ⟨rfl, rfl, rfl, rfl, rfl, rfl, rfl, rfl, rfl, rfl, rfl, rfl, rfl, rfl, rfl, rfl, rfl, rfl, rfl, rfl, rfl, rfl, rfl, rfl, rfl, rfl, rfl,
  rfl, rfl, fun _ => rfl, fun _ => rfl, fun _ => rfl, fun _ => rfl, fun _ => rfl, fun _ => rfl, fun _ => rfl, fun _ => rfl, fun _ => rfl,
  fun _ => rfl, fun _ => rfl, fun _ => rfl, fun _ => rfl, fun _ => rfl, fun _ _ => rfl, fun _ _ _ => rfl⟩

theorem odGet_odSet (s : State) (k j v m n : Nat) : odGet (odSet k j v s) m n = if odKey m n = odKey k j then v else odGet s m n :=
  Tbl.get_set _ _ _ _ _

/-- An entry is read back, where its subindex is a byte (R478). -/
theorem odGet_odSet_same (s : State) (k j v : Nat) : odGet (odSet k j v s) k j = v := by simp [odGet_odSet]

/-- The keys of entries with byte subindexes differ where the entries do. -/
theorem odKey_eq {i j m n : Nat} (hj : j < 256) (hn : n < 256) : odKey i j = odKey m n ↔ i = m ∧ j = n := by
  unfold odKey; omega

theorem pathGet_pathSet (s : State) (p q : Path) (k j v m n : Nat) :
    pathGet (pathSet p k j v s) q m n = if pathKey q m n = pathKey p k j then v else pathGet s q m n :=
  Tbl.get_set _ _ _ _ _

end Sys2Proof.Machine
end

