-- ==== Sys2Proof/Laws/Access.lean ====
section
/-! SUPPORT. What a permitted write of a dictionary entry does: the write's own effect, and the answer 0. -/

namespace Sys2Proof.Laws

open Sys2Proof Sys2Proof.Machine

/-- A path whose write the entry's rules permit runs the entry's own effect and answers OK. -/
theorem permits_write {p : Path} {i sub v : Nat} {s : State} {f : State → State} (h : Permits p i sub v s) :
    odWriteNat p i sub v f s = setAnswer p .ok (f s) := by
  obtain ⟨h1, h2, h3⟩ := h
  have hn : odWriteNat p i sub v f s = odWrite p i sub (bytesOfNat (((odLookup i sub).map (fun e => e.ty.len)).getD 0) v) f s := by
    unfold odWriteNat
    cases odLookup i sub <;> rfl
  rw [hn]
  simp only [odWrite, h1, Bool.not_true, Bool.false_eq_true, if_false, h2]
  congr 1
  split
  · rename_i hh
    simp only [Bool.and_eq_true, Bool.not_eq_true', decide_eq_false_iff_not] at hh
    rcases h3 with h3 | h3 | h3
    · simp [h3] at hh
    · simp [h3] at hh
    · exact absurd h3 hh.2
  · rfl

end Sys2Proof.Laws
end

