-- ==== Sys2Proof/Laws/Counting.lean ====
section
/-! SUPPORT. What counting an event of a block can do: it changes the counters and the counter of free values, and nothing else. -/

namespace Sys2Proof.Machine

/-- Nothing but the counters of R513 and the counter of free values differs. -/
def OnlyCounted (s t : State) : Prop := t = { s with pmu := t.pmu, free := t.free }

theorem onlyCounted_refl (s : State) : OnlyCounted s s := rfl

theorem onlyCounted_trans {s t u : State} (h : OnlyCounted s t) (k : OnlyCounted t u) : OnlyCounted s u := by
  unfold OnlyCounted at *
  rw [k, h]

theorem onlyCounted_addUncore (block i event n : Nat) (s : State) : OnlyCounted s (addUncore block i event n s) := by
  unfold addUncore
  dsimp only
  split
  · rfl
  · split <;> rfl

theorem onlyCounted_foldl {α : Type} (f : State → α → State) (h : ∀ t a, OnlyCounted t (f t a)) :
    ∀ (l : List α) (s : State), OnlyCounted s (l.foldl f s)
  | [], s => onlyCounted_refl s
  | a :: r, s => onlyCounted_trans (h s a) (onlyCounted_foldl f h r (f s a))

/-- Counting an event of an uncore block (R513) leaves everything but the counters and the counter of free values as it was. -/
theorem onlyCounted_countUncore (block event n : Nat) (s : State) : OnlyCounted s (countUncore block event n s) := by
  unfold countUncore
  split
  · exact onlyCounted_refl s
  · exact onlyCounted_foldl _ (fun t i => onlyCounted_addUncore block i event n t) _ s

theorem onlyCounted_countLink (l event n : Nat) (s : State) : OnlyCounted s (countLink l event n s) :=
  onlyCounted_countUncore _ _ _ s

/-- A TLP that the device sends leaves as an output, and is counted. -/
theorem emitTlp_eq (l : Nat) (o : Out) (s : State) :
    emitTlp l o s = { s with pmu := (countLink l 2 1 s).pmu, free := (countLink l 2 1 s).free, out := o :: s.out } := by
  unfold emitTlp emit
  rw [onlyCounted_countLink l 2 1 s]

/-- While no counter is configured nothing is counted. -/
theorem countUncore_none {s : State} (h : s.pmu.counters.isEmpty = true) (block event n : Nat) : countUncore block event n s = s := by
  unfold countUncore
  rw [if_pos h]

end Sys2Proof.Machine
end

