-- ==== Sys2Proof/Laws/Memory.lean ====
section
/-! SUPPORT. Memory: every operation keeps the canonical form, and what is read after a write of a byte, a tag or a seal. -/

namespace Sys2Proof.Machine

theorem wf_iff (m : Memory) : m.wf = true ↔ canon 0 m.bytes = true ∧ canon .uninit m.tags = true ∧ canon 0 m.seals = true := by
  simp [Memory.wf, and_assoc]

theorem wf_setByte {m : Memory} (h : m.wf = true) (a : Nat) (v : Byte) : (m.setByte a v).wf = true := by
  obtain ⟨h1, h2, h3⟩ := (wf_iff m).1 h
  exact (wf_iff _).2 ⟨canon_canonSet h1 a v, h2, h3⟩

theorem wf_setTag {m : Memory} (h : m.wf = true) (w : Nat) (t : Tag) : (m.setTag w t).wf = true := by
  obtain ⟨h1, h2, h3⟩ := (wf_iff m).1 h
  exact (wf_iff _).2 ⟨h1, canon_canonSet h2 w t, h3⟩

theorem wf_setSeal {m : Memory} (h : m.wf = true) (k : Nat) (v : Word) : (m.setSeal k v).wf = true := by
  obtain ⟨h1, h2, h3⟩ := (wf_iff m).1 h
  exact (wf_iff _).2 ⟨h1, h2, canon_canonSet h3 k v⟩

theorem wf_setBytes {m : Memory} (h : m.wf = true) (a : Nat) (l : List Byte) : (m.setBytes a l).wf = true := by
  induction l generalizing m a with
  | nil => exact h
  | cons b r ih => exact ih (wf_setByte h a b) (a + 1)

theorem wf_setWord {m : Memory} (h : m.wf = true) (w : Nat) (t : TWord) : (m.setWord w t).wf = true := wf_setTag (wf_setBytes h _ _) w t.tag

theorem wf_setWords {m : Memory} (h : m.wf = true) (w : Nat) (l : List TWord) : (m.setWords w l).wf = true := by
  induction l generalizing m w with
  | nil => exact h
  | cons t r ih => exact ih (wf_setWord h w t) (w + 1)

theorem wf_empty : ({} : Memory).wf = true := rfl

/-- Folding operations that keep the form keeps it. -/
theorem wf_foldl {α : Type} {f : Memory → α → Memory} (hf : ∀ m x, m.wf = true → (f m x).wf = true) (l : List α) {m : Memory}
    (h : m.wf = true) : (l.foldl f m).wf = true := by
  induction l generalizing m with
  | nil => exact h
  | cons x r ih => exact ih (hf m x h)

theorem byteAt_setByte {m : Memory} (h : m.wf = true) (a b : Nat) (v : Byte) :
    (m.setByte a v).byteAt b = if b = a then v else m.byteAt b := get_canonSet ((wf_iff m).1 h).1 a b v

theorem tagAt_setTag {m : Memory} (h : m.wf = true) (w u : Nat) (t : Tag) :
    (m.setTag w t).tagAt u = if u = w then t else m.tagAt u := get_canonSet ((wf_iff m).1 h).2.1 w u t

theorem sealAt_setSeal {m : Memory} (h : m.wf = true) (k j : Nat) (v : Word) :
    (m.setSeal k v).sealAt j = if j = k then v else m.sealAt j := get_canonSet ((wf_iff m).1 h).2.2 k j v

/-- Storing bytes leaves tags and seals as they were, and every byte outside them. -/
theorem setBytes_frame {m : Memory} (h : m.wf = true) (a : Nat) (l : List Byte) :
    (m.setBytes a l).tags = m.tags ∧ (m.setBytes a l).seals = m.seals ∧
      ∀ b, (b < a ∨ a + l.length ≤ b) → (m.setBytes a l).byteAt b = m.byteAt b := by
  induction l generalizing m a with
  | nil => exact ⟨rfl, rfl, fun _ _ => rfl⟩
  | cons v r ih =>
    obtain ⟨h1, h2, h3⟩ := ih (wf_setByte h a v) (a + 1)
    refine ⟨h1, h2, fun b hb => ?_⟩
    simp only [List.length_cons] at hb
    show ((m.setByte a v).setBytes (a + 1) r).byteAt b = _
    rw [h3 b (by omega), byteAt_setByte h, if_neg (by omega)]

end Sys2Proof.Machine
end

