-- ==== Sys2Proof/Laws/Keeps.lean ====
section
/-! SUPPORT. What every operation keeps: the queue of waiting commands and the invariant, stated once as a relation between two states, and how it
passes through choices, loops and computations. -/

namespace Sys2Proof.Machine

/-- The queue is as it was, and the invariant holds afterwards where it held before. -/
def Keeps (s t : State) : Prop := t.pending = s.pending ∧ (Sound s → Sound t)

/-- An answer is a next state to which `Keeps` leads. -/
def Goes (s : State) (a : Answer) : Prop := ∃ t, a = .next t ∧ Keeps s t

/-- A computation of an instruction keeps them from every state. -/
def KeepsRun {ε α : Type} (m : ExceptT ε (StateM State) α) : Prop := ∀ s0 s, Keeps s0 s → Keeps s0 (m.run s).2

theorem keeps_refl (s : State) : Keeps s s := ⟨rfl, id⟩

theorem keeps_trans {s t u : State} (h : Keeps s t) (k : Keeps t u) : Keeps s u := ⟨k.1.trans h.1, fun x => k.2 (h.2 x)⟩

/-- A state that agrees with one where they hold on everything they speak of. -/
theorem keeps_congr {s0 x t : State} (h : Keeps s0 x) (hp : t.pending = x.pending) (hm : t.mem = x.mem) (h1 : t.boot.ready = x.boot.ready)
    (h2 : t.boot.phase = x.boot.phase) (h3 : t.boot.hold = x.boot.hold) (h4 : t.tap.hold = x.tap.hold) (h5 : t.far.fatal = x.far.fatal)
    (h6 : t.host.fatal = x.host.fatal) (h7 : t.pwr.faultN = x.pwr.faultN) : Keeps s0 t := by
  refine ⟨hp.trans h.1, fun k => ?_⟩
  have := h.2 k
  unfold Sound at *
  rw [hm, h1, h2, h3, h4, h5, h6, h7]
  exact this

/-- A state whose memory alone may differ, and is canonical where it was. -/
theorem keeps_mem {s0 x t : State} (h : Keeps s0 x) (hp : t.pending = x.pending) (hm : x.mem.wf = true → t.mem.wf = true)
    (h1 : t.boot.ready = x.boot.ready) (h2 : t.boot.phase = x.boot.phase) (h3 : t.boot.hold = x.boot.hold) (h4 : t.tap.hold = x.tap.hold)
    (h5 : t.far.fatal = x.far.fatal) (h6 : t.host.fatal = x.host.fatal) (h7 : t.pwr.faultN = x.pwr.faultN) : Keeps s0 t := by
  refine ⟨hp.trans h.1, fun k => ?_⟩
  have := h.2 k
  unfold Sound at *
  rw [h1, h2, h3, h4, h5, h6, h7]
  exact ⟨hm this.1, this.2⟩

/-- The state after a record update that leaves everything they speak of. -/
theorem keeps_mk {s0 x : State} {pending : List Instr} {free : Nat} {od perPath : Tbl Nat} {bagPending : List Nat} {flash : Tbl Nat}
    {serial : List Access} {out : List Out} {mem : Memory} {sram : List Host.Cell} {cores : Tbl CoreSt} {coh : Coh} {mc : McSys} {vm : Vm}
    {stalls : Tbl StallSt} {host : HostEp} {eng : EngSys} {links : Tbl Link} {ports : Tbl Port} {shelves : Tbl Shelf} {wakeQueue : List (Nat × Bool)}
    {ring : RingSys} {irq : Tbl Source} {pwr : Power} {far : Farrier} {side : Side} {boot : Boot} {pmu : Pmu} {tap : Tap} {rein : Tbl ReinSt}
    (h : Keeps s0 x) (hp : pending = x.pending) (hm : mem = x.mem) (h1 : boot.ready = x.boot.ready) (h2 : boot.phase = x.boot.phase)
    (h3 : boot.hold = x.boot.hold) (h4 : tap.hold = x.tap.hold) (h5 : far.fatal = x.far.fatal) (h6 : host.fatal = x.host.fatal)
    (h7 : pwr.faultN = x.pwr.faultN) :
    Keeps s0 ⟨pending, free, od, perPath, bagPending, flash, serial, out, mem, sram, cores, coh, mc, vm, stalls, host, eng, links, ports,
      shelves, wakeQueue, ring, irq, pwr, far, side, boot, pmu, tap, rein⟩ := keeps_congr h hp hm h1 h2 h3 h4 h5 h6 h7

theorem keeps_ite {s0 a b : State} {p : Prop} [Decidable p] (h : Keeps s0 a) (k : Keeps s0 b) : Keeps s0 (if p then a else b) := by
  split
  · exact h
  · exact k

theorem keeps_foldl {α : Type} {s0 s : State} {f : State → α → State} (l : List α) (hf : ∀ t x, Keeps s0 t → Keeps s0 (f t x))
    (h : Keeps s0 s) : Keeps s0 (l.foldl f s) := by
  induction l generalizing s with
  | nil => exact h
  | cons x r ih => exact ih (hf s x h)

theorem keeps_pair_ite {α : Type} {s0 : State} {a b : α × State} {p : Prop} [Decidable p] (h : Keeps s0 a.2) (k : Keeps s0 b.2) :
    Keeps s0 (if p then a else b).2 := by
  split
  · exact h
  · exact k

theorem keeps_pair_foldl {α β : Type} {s0 : State} {f : β × State → α → β × State} {x : β × State} (l : List α)
    (hf : ∀ t y, Keeps s0 t.2 → Keeps s0 (f t y).2) (h : Keeps s0 x.2) : Keeps s0 (l.foldl f x).2 := by
  induction l generalizing x with
  | nil => exact h
  | cons y r ih => exact ih (hf x y h)

/-- The state of a pair that is named apart. -/
theorem keeps_snd {α : Type} {s0 s1 : State} {a : α} {x : α × State} (e : x = (a, s1)) (h : Keeps s0 x.2) : Keeps s0 s1 := by
  rw [e] at h
  exact h

theorem keeps_getD {s0 s : State} {o : Option State} (h : Keeps s0 s) (k : ∀ u, o = some u → Keeps s0 u) : Keeps s0 (o.getD s) := by
  cases o with
  | none => exact h
  | some u => exact k u rfl

theorem keeps_setAnswer {s0 s : State} (p : Path) (r : Res) (h : Keeps s0 s) : Keeps s0 (setAnswer p r s) :=
  keeps_congr h rfl rfl rfl rfl rfl rfl rfl rfl rfl

theorem goes_next {s0 t : State} (h : Keeps s0 t) : Goes s0 (.next t) := ⟨t, rfl, h⟩

theorem goes_ite {s0 : State} {a b : Answer} {p : Prop} [Decidable p] (h : Goes s0 a) (k : Goes s0 b) : Goes s0 (if p then a else b) := by
  split
  · exact h
  · exact k

/-! ## Computations -/

theorem keepsRun_bind {ε α β : Type} {m : ExceptT ε (StateM State) α} {f : α → ExceptT ε (StateM State) β} (h : KeepsRun m)
    (k : ∀ v, KeepsRun (f v)) : KeepsRun (m >>= f) := by
  intro s0 s hs
  rw [run_bind]
  have := h s0 s hs
  split
  · rename_i v t e
    rw [e] at this
    exact k v s0 t this
  · rename_i x t e
    rw [e] at this
    exact this

theorem keepsRun_pure {ε α : Type} (v : α) : KeepsRun (pure v : ExceptT ε (StateM State) α) := fun _ _ h => h

theorem keepsRun_throw {ε α : Type} (x : ε) : KeepsRun (throw x : ExceptT ε (StateM State) α) := fun _ _ h => h

theorem keepsRun_get {ε : Type} : KeepsRun (get : ExceptT ε (StateM State) State) := fun _ _ h => h

theorem keepsRun_modify {ε : Type} {f : State → State} (hf : ∀ s0 s, Keeps s0 s → Keeps s0 (f s)) :
    KeepsRun (modify f : ExceptT ε (StateM State) PUnit) := fun s0 s h => hf s0 s h

theorem keepsRun_ite {ε α : Type} {p : Prop} [Decidable p] {m k : ExceptT ε (StateM State) α} (h : KeepsRun m) (h' : KeepsRun k) :
    KeepsRun (if p then m else k) := by
  split
  · exact h
  · exact h'

theorem keepsRun_mapM {ε α β : Type} {f : α → ExceptT ε (StateM State) β} (hf : ∀ x, KeepsRun (f x)) (l : List α) : KeepsRun (l.mapM f) := by
  rw [← List.mapM'_eq_mapM]
  induction l with
  | nil => exact keepsRun_pure _
  | cons x r ih => exact keepsRun_bind (hf x) (fun _ => keepsRun_bind ih (fun _ => keepsRun_pure _))

theorem keepsRun_forM {ε α : Type} {f : α → ExceptT ε (StateM State) PUnit} (hf : ∀ x, KeepsRun (f x)) (l : List α) : KeepsRun (l.forM f) := by
  induction l with
  | nil => exact keepsRun_pure _
  | cons x r ih => exact keepsRun_bind (hf x) (fun _ => ih)

/-- A computation keeps them from one state. -/
def KeepsAt {ε α : Type} (m : ExceptT ε (StateM State) α) (s : State) : Prop := ∀ s0, Keeps s0 s → Keeps s0 (m.run s).2

theorem keepsAt_of {ε α : Type} {m : ExceptT ε (StateM State) α} {s : State} (h : KeepsRun m) : KeepsAt m s := fun s0 => h s0 s

theorem keepsAt_pure {ε α : Type} {v : α} {s : State} : KeepsAt (pure v : ExceptT ε (StateM State) α) s := fun _ h => h

theorem keepsAt_throw {ε α : Type} {x : ε} {s : State} : KeepsAt (throw x : ExceptT ε (StateM State) α) s := fun _ h => h

theorem keepsAt_throw_bind {ε α β : Type} {x : ε} {f : α → ExceptT ε (StateM State) β} {s : State} :
    KeepsAt ((throw x : ExceptT ε (StateM State) α) >>= f) s := by
  intro s0 h
  rw [run_bind]
  exact h

theorem keepsAt_ite {ε α : Type} {p : Prop} [Decidable p] {m k : ExceptT ε (StateM State) α} {s : State} (h : KeepsAt m s)
    (h' : KeepsAt k s) : KeepsAt (if p then m else k) s := by
  split
  · exact h
  · exact h'

theorem keepsAt_set {ε : Type} {s t : State} (h : ∀ s0, Keeps s0 s → Keeps s0 t) : KeepsAt (set t : ExceptT ε (StateM State) PUnit) s := h

theorem keepsAt_set_bind {ε α : Type} {s t : State} {f : PUnit → ExceptT ε (StateM State) α} (h : ∀ s0, Keeps s0 s → Keeps s0 t)
    (k : KeepsAt (f ⟨⟩) t) : KeepsAt ((set t : ExceptT ε (StateM State) PUnit) >>= f) s := by
  intro s0 hs
  rw [run_bind]
  exact k s0 (h s0 hs)

theorem keepsRun_get_bind {ε α : Type} {f : State → ExceptT ε (StateM State) α} (h : ∀ s, KeepsAt (f s) s) :
    KeepsRun ((get : ExceptT ε (StateM State) State) >>= f) := by
  intro s0 s hs
  rw [run_bind]
  exact h s s0 hs

theorem keepsAt_get_bind {ε α : Type} {f : State → ExceptT ε (StateM State) α} {s : State} (h : KeepsAt (f s) s) :
    KeepsAt ((get : ExceptT ε (StateM State) State) >>= f) s := by
  intro s0 hs
  rw [run_bind]
  exact h s0 hs

/-- A computation that leaves the state, before another. -/
theorem keepsAt_quiet_bind {ε α β : Type} {m : ExceptT ε (StateM State) α} {f : α → ExceptT ε (StateM State) β} {s : State}
    (h : (m.run s).2 = s) (k : ∀ v, KeepsAt (f v) s) : KeepsAt (m >>= f) s := by
  intro s0 hs
  rw [run_bind]
  split
  · rename_i v t e
    rw [e] at h
    simp only at h
    subst h
    exact k v s0 hs
  · rename_i x t e
    rw [e] at h
    simp only at h
    subst h
    exact hs

theorem keepsRun_tryCatch {ε α : Type} {m : ExceptT ε (StateM State) α} {f : ε → ExceptT ε (StateM State) α} (h : KeepsRun m)
    (k : ∀ x, KeepsRun (f x)) : KeepsRun (tryCatch m f) := by
  intro s0 s hs
  have e : (tryCatch m f : ExceptT ε (StateM State) α).run s = (match m.run s with
      | (.ok v, t) => (.ok v, t)
      | (.error x, t) => (f x).run t) := by
    show ((ExceptT.tryCatch m f) : ExceptT ε (StateM State) α).run s = _
    simp only [ExceptT.tryCatch, ExceptT.run, ExceptT.mk]
    show StateT.bind m _ s = _
    simp only [StateT.bind, bind]
    rcases hr : (m s : Except ε α × State) with ⟨r, t⟩
    cases r <;> rfl
  rw [e]
  have := h s0 s hs
  split
  · rename_i v t q
    rw [q] at this
    exact this
  · rename_i x t q
    rw [q] at this
    exact k x s0 t this

end Sys2Proof.Machine
end

