-- ==== Sys2Proof/Laws/KeepsOps.lean ====
section
/-! SUPPORT. The shared operations, counters and coherence operations keep the queue and the invariant. -/

namespace Sys2Proof.Machine

theorem keeps_took {s00 s : State}  (hk : Keeps s00 s) : Keeps s00 (State.took s) := by
  unfold State.took
  repeat' first
    | with_reducible assumption | refine keeps_mk ?_ rfl rfl rfl rfl rfl rfl rfl rfl rfl

theorem keeps_emit {s00 s : State} (o : Out) (hk : Keeps s00 s) : Keeps s00 (emit o s) := by
  unfold emit
  repeat' first
    | with_reducible assumption | refine keeps_mk ?_ rfl rfl rfl rfl rfl rfl rfl rfl rfl

theorem keeps_setCounter {s00 s : State} (block i : Nat) (c : Counter) (hk : Keeps s00 s) : Keeps s00 (State.setCounter s block i c) := by
  unfold State.setCounter
  repeat' first
    | with_reducible assumption | dsimp only | refine keeps_mk ?_ rfl rfl rfl rfl rfl rfl rfl rfl rfl

theorem keeps_addUncore {s00 s : State} (block i event n : Nat) (hk : Keeps s00 s) : Keeps s00 (addUncore block i event n s) := by
  unfold addUncore
  repeat' first
    | with_reducible assumption | with_reducible apply keeps_took | with_reducible apply keeps_setCounter
    | with_reducible apply keeps_ite

theorem keeps_countUncore {s00 s : State} (block event n : Nat) (hk : Keeps s00 s) : Keeps s00 (countUncore block event n s) := by
  unfold countUncore
  repeat' first
    | with_reducible assumption | with_reducible intro _ | with_reducible apply keeps_addUncore | with_reducible apply keeps_ite
    | with_reducible apply keeps_foldl

theorem keeps_countLink {s00 s : State} (l event n : Nat) (hk : Keeps s00 s) : Keeps s00 (countLink l event n s) := by
  unfold countLink
  repeat' first
    | with_reducible assumption | with_reducible apply keeps_countUncore

theorem keeps_emitTlp {s00 s : State} (l : Nat) (o : Out) (hk : Keeps s00 s) : Keeps s00 (emitTlp l o s) := by
  unfold emitTlp
  repeat' first
    | with_reducible assumption | with_reducible apply keeps_emit | with_reducible apply keeps_countLink

theorem keeps_odSet {s00 s : State} (idx sub v : Nat) (hk : Keeps s00 s) : Keeps s00 (odSet idx sub v s) := by
  unfold odSet
  repeat' first
    | with_reducible assumption | refine keeps_mk ?_ rfl rfl rfl rfl rfl rfl rfl rfl rfl

theorem keeps_odBump {s00 s : State} (idx sub : Nat) (hk : Keeps s00 s) : Keeps s00 (odBump idx sub s) := by
  unfold odBump
  repeat' first
    | with_reducible assumption | with_reducible apply keeps_odSet

theorem keeps_odAdd {s00 s : State} (idx sub n : Nat) (hk : Keeps s00 s) : Keeps s00 (odAdd idx sub n s) := by
  unfold odAdd
  repeat' first
    | with_reducible assumption | with_reducible apply keeps_odSet

theorem keeps_noteBag {s00 s : State} (idx sub : Nat) (hk : Keeps s00 s) : Keeps s00 (noteBag idx sub s) := by
  unfold noteBag
  repeat' first
    | with_reducible assumption | dsimp only | refine keeps_mk ?_ rfl rfl rfl rfl rfl rfl rfl rfl rfl

theorem keeps_pathSet {s00 s : State} (p : Path) (idx sub v : Nat) (hk : Keeps s00 s) : Keeps s00 (pathSet p idx sub v s) := by
  unfold pathSet
  repeat' first
    | with_reducible assumption | refine keeps_mk ?_ rfl rfl rfl rfl rfl rfl rfl rfl rfl

theorem keeps_setCore {s00 s : State} (c : Nat) (x : CoreSt) (hk : Keeps s00 s) : Keeps s00 (State.setCore s c x) := by
  unfold State.setCore
  repeat' first
    | with_reducible assumption | refine keeps_mk ?_ rfl rfl rfl rfl rfl rfl rfl rfl rfl

theorem keeps_setStall {s00 s : State} (n : Nat) (x : StallSt) (hk : Keeps s00 s) : Keeps s00 (State.setStall s n x) := by
  unfold State.setStall
  repeat' first
    | with_reducible assumption | refine keeps_mk ?_ rfl rfl rfl rfl rfl rfl rfl rfl rfl

theorem keeps_setFn {s00 s : State} (p fn : Nat) (x : HFn) (hk : Keeps s00 s) : Keeps s00 (State.setFn s p fn x) := by
  unfold State.setFn
  repeat' first
    | with_reducible assumption | dsimp only | refine keeps_mk ?_ rfl rfl rfl rfl rfl rfl rfl rfl rfl

theorem keeps_setLink {s00 s : State} (l : Nat) (x : Link) (hk : Keeps s00 s) : Keeps s00 (State.setLink s l x) := by
  unfold State.setLink
  repeat' first
    | with_reducible assumption | refine keeps_mk ?_ rfl rfl rfl rfl rfl rfl rfl rfl rfl

theorem keeps_setPort {s00 s : State} (p : Nat) (x : Port) (hk : Keeps s00 s) : Keeps s00 (State.setPort s p x) := by
  unfold State.setPort
  repeat' first
    | with_reducible assumption | refine keeps_mk ?_ rfl rfl rfl rfl rfl rfl rfl rfl rfl

theorem keeps_setShelf {s00 s : State} (h : Nat) (x : Shelf) (hk : Keeps s00 s) : Keeps s00 (State.setShelf s h x) := by
  unfold State.setShelf
  repeat' first
    | with_reducible assumption | refine keeps_mk ?_ rfl rfl rfl rfl rfl rfl rfl rfl rfl

theorem keeps_setEngine {s00 s : State} (e : Nat) (x : Engine) (hk : Keeps s00 s) : Keeps s00 (State.setEngine s e x) := by
  unfold State.setEngine
  repeat' first
    | with_reducible assumption | dsimp only | refine keeps_mk ?_ rfl rfl rfl rfl rfl rfl rfl rfl rfl

theorem keeps_setCtx {s00 s : State} (c : Nat) (x : Ctx) (hk : Keeps s00 s) : Keeps s00 (State.setCtx s c x) := by
  unfold State.setCtx
  repeat' first
    | with_reducible assumption | dsimp only | refine keeps_mk ?_ rfl rfl rfl rfl rfl rfl rfl rfl rfl

theorem keeps_setChannel {s00 s : State} (c : Nat) (x : Channel) (hk : Keeps s00 s) : Keeps s00 (State.setChannel s c x) := by
  unfold State.setChannel
  repeat' first
    | with_reducible assumption | dsimp only | refine keeps_mk ?_ rfl rfl rfl rfl rfl rfl rfl rfl rfl

theorem keeps_setCtl {s00 s : State} (l : Nat) (x : HostCtl) (hk : Keeps s00 s) : Keeps s00 (State.setCtl s l x) := by
  unfold State.setCtl
  repeat' first
    | with_reducible assumption | dsimp only | refine keeps_mk ?_ rfl rfl rfl rfl rfl rfl rfl rfl rfl

theorem keeps_setTile {s00 s : State} (t : Nat) (x : Tile) (hk : Keeps s00 s) : Keeps s00 (State.setTile s t x) := by
  unfold State.setTile
  repeat' first
    | with_reducible assumption | dsimp only | refine keeps_mk ?_ rfl rfl rfl rfl rfl rfl rfl rfl rfl

theorem keeps_setSlice {s00 s : State} (k : Nat) (x : Slice) (hk : Keeps s00 s) : Keeps s00 (State.setSlice s k x) := by
  unfold State.setSlice
  repeat' first
    | with_reducible assumption | dsimp only | refine keeps_mk ?_ rfl rfl rfl rfl rfl rfl rfl rfl rfl

theorem keeps_setRein {s00 s : State} (g : Nat) (x : ReinSt) (hk : Keeps s00 s) : Keeps s00 (State.setRein s g x) := by
  unfold State.setRein
  repeat' first
    | with_reducible assumption | refine keeps_mk ?_ rfl rfl rfl rfl rfl rfl rfl rfl rfl

theorem keeps_setCorePwr {s00 s : State} (c : Nat) (x : CorePwr) (hk : Keeps s00 s) : Keeps s00 (State.setCorePwr s c x) := by
  unfold State.setCorePwr
  repeat' first
    | with_reducible assumption | dsimp only | refine keeps_mk ?_ rfl rfl rfl rfl rfl rfl rfl rfl rfl

theorem keeps_setDom {s00 s : State} (d : Domain) (v : DomState) (hk : Keeps s00 s) : Keeps s00 (setDom d v s) := by
  unfold setDom
  repeat' first
    | with_reducible assumption | dsimp only | refine keeps_mk ?_ rfl rfl rfl rfl rfl rfl rfl rfl rfl

theorem keeps_emitOrdered {s00 s : State} (p fn : Nat) (o : Out) (hk : Keeps s00 s) : Keeps s00 (emitOrdered p fn o s) := by
  unfold emitOrdered
  repeat' first
    | with_reducible assumption | with_reducible apply keeps_emitTlp | with_reducible apply keeps_ite | dsimp only
    | refine keeps_mk ?_ rfl rfl rfl rfl rfl rfl rfl rfl rfl

theorem keeps_releaseOrdered {s00 s : State} (k : Nat) (hk : Keeps s00 s) : Keeps s00 (releaseOrdered k s) := by
  unfold releaseOrdered
  repeat' first
    | with_reducible assumption | with_reducible intro _ | with_reducible apply keeps_emitTlp | with_reducible apply keeps_foldl
    | dsimp only | refine keeps_mk ?_ rfl rfl rfl rfl rfl rfl rfl rfl rfl

theorem keeps_sendMsix {s00 s : State} (p fn v : Nat) (hk : Keeps s00 s) : Keeps s00 (sendMsix p fn v s) := by
  unfold sendMsix
  repeat' first
    | with_reducible assumption | with_reducible apply keeps_setFn | with_reducible apply keeps_emitOrdered
    | with_reducible apply keeps_ite

theorem keeps_setSource {s00 s : State} (n : Nat) (x : Source) (hk : Keeps s00 s) : Keeps s00 (State.setSource s n x) := by
  unfold State.setSource
  repeat' first
    | with_reducible assumption | refine keeps_mk ?_ rfl rfl rfl rfl rfl rfl rfl rfl rfl

theorem keeps_clearSource {s00 s : State} (n : Nat) (hk : Keeps s00 s) : Keeps s00 (clearSource n s) := by
  unfold clearSource
  repeat' first
    | with_reducible assumption | with_reducible apply keeps_setSource

theorem keeps_wakeDom {s00 s : State} (d : Domain) (hk : Keeps s00 s) : Keeps s00 (wakeDom d s) := by
  unfold wakeDom
  repeat' first
    | with_reducible assumption | with_reducible apply keeps_setDom | with_reducible apply keeps_ite

theorem keeps_wakeCore {s00 s : State} (k : Nat) (hk : Keeps s00 s) : Keeps s00 (wakeCore k s) := by
  unfold wakeCore
  repeat' first
    | with_reducible assumption | with_reducible apply keeps_wakeDom | split

theorem keeps_wakeTarget {s00 s : State} (n : Nat) (hk : Keeps s00 s) : Keeps s00 (wakeTarget n s) := by
  unfold wakeTarget
  repeat' first
    | with_reducible assumption | with_reducible intro _ | with_reducible apply keeps_wakeCore | with_reducible apply keeps_ite
    | with_reducible apply keeps_foldl | split

theorem keeps_signalQuiet {s00 s : State} (n : Nat) (hk : Keeps s00 s) : Keeps s00 (signalQuiet n s) := by
  unfold signalQuiet
  repeat' first
    | with_reducible assumption | with_reducible apply keeps_sendMsix | with_reducible apply keeps_setSource
    | with_reducible apply keeps_clearSource | with_reducible apply keeps_wakeTarget | with_reducible apply keeps_ite | split
    | dsimp only

theorem keeps_countSource {s00 s : State} (n : Nat) (hk : Keeps s00 s) : Keeps s00 (countSource n s) := by
  unfold countSource
  repeat' first
    | with_reducible assumption | with_reducible apply keeps_odBump | with_reducible apply keeps_setSource
    | with_reducible apply keeps_ite

theorem keeps_canOut {s00 s : State} (id : BitVec 29) (data : List Byte) (hk : Keeps s00 s) : Keeps s00 (canOut id data s) := by
  unfold canOut
  repeat' first
    | with_reducible assumption | with_reducible apply keeps_emit | with_reducible apply keeps_odBump

theorem keeps_sendFrame {s00 s : State} (id : BitVec 29) (data : List Byte) (hk : Keeps s00 s) : Keeps s00 (sendFrame id data s) := by
  unfold sendFrame
  repeat' first
    | with_reducible assumption | with_reducible apply keeps_canOut | with_reducible apply keeps_ite | dsimp only
    | refine keeps_mk ?_ rfl rfl rfl rfl rfl rfl rfl rfl rfl

theorem keeps_eventOut {s00 s : State} (body : List Byte) (hk : Keeps s00 s) : Keeps s00 (eventOut body s) := by
  unfold eventOut
  repeat' first
    | with_reducible assumption | with_reducible apply keeps_took | with_reducible apply keeps_canOut

theorem keeps_pumpCan {s00 s : State}  (hk : Keeps s00 s) : Keeps s00 (pumpCan s) := by
  unfold pumpCan
  repeat' first
    | with_reducible assumption | with_reducible intro _ | with_reducible apply keeps_canOut | with_reducible apply keeps_eventOut
    | with_reducible apply keeps_ite | with_reducible apply keeps_foldl | dsimp only
    | refine keeps_mk ?_ rfl rfl rfl rfl rfl rfl rfl rfl rfl

theorem keeps_queueEvent {s00 s : State} (n : Nat) (sel : Bool) (info : List Byte) (hk : Keeps s00 s) : Keeps s00 (queueEvent n sel info s) := by
  unfold queueEvent
  repeat' first
    | with_reducible assumption | with_reducible apply keeps_pumpCan | refine keeps_mk ?_ rfl rfl rfl rfl rfl rfl rfl rfl rfl

theorem keeps_eventOf {s00 s : State} (n : Nat) (corrected : Bool) (info : List Byte) (hk : Keeps s00 s) : Keeps s00 (eventOf n corrected info s) := by
  unfold eventOf
  repeat' first
    | with_reducible assumption | with_reducible apply keeps_queueEvent | split

theorem keeps_raiseBy {s00 s : State} (sig : Nat → State → State) (n : Nat) (corrected : Bool) (info : List Byte) (hf : ∀ b x t, Keeps b t → Keeps b (sig x t)) (hk : Keeps s00 s) : Keeps s00 (raiseBy sig n corrected info s) := by
  unfold raiseBy
  repeat' first
    | with_reducible assumption | with_reducible apply keeps_countSource | with_reducible apply keeps_eventOf | with_reducible apply hf
    | with_reducible apply keeps_ite

theorem keeps_setPower {s00 s : State} (x : PowerState) (hk : Keeps s00 s) : Keeps s00 (setPower x s) := by
  unfold setPower
  repeat' first
    | with_reducible assumption | with_reducible intro _ | with_reducible apply keeps_signalQuiet | with_reducible apply keeps_raiseBy
    | dsimp only | refine keeps_mk ?_ rfl rfl rfl rfl rfl rfl rfl rfl rfl

theorem keeps_abortEntry {s00 s : State} (x : PowerState) (cause : Nat) (hk : Keeps s00 s) : Keeps s00 (abortEntry x cause s) := by
  unfold abortEntry
  repeat' first
    | with_reducible assumption | with_reducible apply keeps_odSet | with_reducible apply keeps_odBump | dsimp only
    | refine keeps_mk ?_ rfl rfl rfl rfl rfl rfl rfl rfl rfl

theorem keeps_wakeDevice {s00 s : State} (cause : Nat) (hk : Keeps s00 s) : Keeps s00 (wakeDevice cause s) := by
  unfold wakeDevice
  repeat' first
    | with_reducible assumption | with_reducible apply keeps_odSet | with_reducible apply keeps_setPower
    | with_reducible apply keeps_abortEntry | with_reducible apply keeps_ite | split | dsimp only
    | refine keeps_mk ?_ rfl rfl rfl rfl rfl rfl rfl rfl rfl

theorem keeps_signalSource {s00 s : State} (n : Nat) (hk : Keeps s00 s) : Keeps s00 (signalSource n s) := by
  unfold signalSource
  repeat' first
    | with_reducible assumption | with_reducible apply keeps_signalQuiet | with_reducible apply keeps_wakeDevice
    | with_reducible apply keeps_ite

theorem keeps_evalSource {s00 s : State} (n : Nat) (hk : Keeps s00 s) : Keeps s00 (evalSource n s) := by
  unfold evalSource
  repeat' first
    | with_reducible assumption | with_reducible apply keeps_signalSource | with_reducible apply keeps_ite

theorem keeps_raiseWith {s00 s : State} (n : Nat) (corrected : Bool) (info : List Byte) (hk : Keeps s00 s) : Keeps s00 (raiseWith n corrected info s) := by
  unfold raiseWith
  repeat' first
    | with_reducible assumption | with_reducible intro _ | with_reducible apply keeps_raiseBy | with_reducible apply keeps_signalSource

theorem keeps_raise {s00 s : State} (n : Nat) (hk : Keeps s00 s) : Keeps s00 (raise n s) := by
  unfold raise
  repeat' first
    | with_reducible assumption | with_reducible apply keeps_raiseWith

theorem keeps_setPending {s00 s : State} (n : Nat) (hk : Keeps s00 s) : Keeps s00 (setPending n s) := by
  unfold setPending
  repeat' first
    | with_reducible assumption | with_reducible apply keeps_countSource | with_reducible apply keeps_signalSource
    | with_reducible apply keeps_ite

theorem keeps_raiseInbox {s00 s : State} (n core : Nat) (hk : Keeps s00 s) : Keeps s00 (raiseInbox n core s) := by
  unfold raiseInbox
  repeat' first
    | with_reducible assumption | with_reducible apply keeps_setSource | with_reducible apply keeps_raise

theorem keeps_allocIncident {s00 s : State}  (hk : Keeps s00 s) : Keeps s00 (allocIncident s) := by
  unfold allocIncident
  repeat' first
    | with_reducible assumption | dsimp only | refine keeps_mk ?_ rfl rfl rfl rfl rfl rfl rfl rfl rfl

theorem keeps_errorReport {s00 s : State} (k : Nat) (sev : ErrSeverity) (shown : Bool) (hk : Keeps s00 s) : Keeps s00 (errorReport k sev shown s) := by
  unfold errorReport
  repeat' first
    | with_reducible assumption | with_reducible apply keeps_emitTlp | with_reducible apply keeps_ite | dsimp only
    | refine keeps_mk ?_ rfl rfl rfl rfl rfl rfl rfl rfl rfl

theorem keeps_aerCorrected {s00 s : State} (k bit : Nat) (hk : Keeps s00 s) : Keeps s00 (aerCorrected k bit s) := by
  unfold aerCorrected
  repeat' first
    | with_reducible assumption | with_reducible apply keeps_errorReport | dsimp only
    | refine keeps_mk ?_ rfl rfl rfl rfl rfl rfl rfl rfl rfl

theorem keeps_aerNote {s00 s : State} (k bit : Nat) (hk : Keeps s00 s) : Keeps s00 (aerNote k bit s) := by
  unfold aerNote
  repeat' first
    | with_reducible assumption | dsimp only | refine keeps_mk ?_ rfl rfl rfl rfl rfl rfl rfl rfl rfl

theorem keeps_aerUncorrected {s00 s : State} (k bit : Nat) (fatal : Bool) (hk : Keeps s00 s) : Keeps s00 (aerUncorrected k bit fatal s) := by
  unfold aerUncorrected
  repeat' first
    | with_reducible assumption | with_reducible apply keeps_errorReport | with_reducible apply keeps_aerNote

theorem keeps_aerAdvisory {s00 s : State} (k bit : Nat) (hk : Keeps s00 s) : Keeps s00 (aerAdvisory k bit s) := by
  unfold aerAdvisory
  repeat' first
    | with_reducible assumption | with_reducible apply keeps_aerCorrected | with_reducible apply keeps_aerNote

theorem keeps_aerSignal {s00 s : State} (k : Nat) (cls : BitVec 2) (incident : BitVec 32) (dw1 : BitVec 32) (hk : Keeps s00 s) : Keeps s00 (aerSignal k cls incident dw1 s) := by
  unfold aerSignal
  repeat' first
    | with_reducible assumption | with_reducible apply keeps_aerCorrected | with_reducible apply keeps_aerUncorrected
    | with_reducible apply keeps_ite | dsimp only | refine keeps_mk ?_ rfl rfl rfl rfl rfl rfl rfl rfl rfl

theorem keeps_aerRecord {s00 s : State} (kind : BitVec 8) (cls : BitVec 2) (stall : Nat) (incident : BitVec 32) (hk : Keeps s00 s) : Keeps s00 (aerRecord kind cls stall incident s) := by
  unfold aerRecord
  repeat' first
    | with_reducible assumption | with_reducible apply keeps_aerSignal | split

theorem keeps_pushLog {s00 s : State} (kind : BitVec 8) (cls : BitVec 2) (stall key : Nat) (incident : BitVec 32) (body : BitVec 256) (hk : Keeps s00 s) : Keeps s00 (pushLog kind cls stall key incident body s) := by
  unfold pushLog
  repeat' first
    | with_reducible assumption | with_reducible apply keeps_took | with_reducible apply keeps_odBump
    | with_reducible apply keeps_raiseWith | with_reducible apply keeps_aerRecord | with_reducible apply keeps_ite | dsimp only
    | refine keeps_mk ?_ rfl rfl rfl rfl rfl rfl rfl rfl rfl

theorem keeps_recordIn {s00 s : State} (incident : BitVec 32) (r : Rec) (hk : Keeps s00 s) : Keeps s00 (recordIn incident r s) := by
  unfold recordIn
  repeat' first
    | with_reducible assumption | with_reducible apply keeps_took | with_reducible apply keeps_pushLog

theorem keeps_record {s00 s : State} (r : Rec) (hk : Keeps s00 s) : Keeps s00 (record r s) := by
  unfold record
  repeat' first
    | with_reducible assumption | with_reducible apply keeps_allocIncident | with_reducible apply keeps_recordIn

theorem keeps_recordDeadline {s00 s : State} (number : Nat) (res : Nat) (hk : Keeps s00 s) : Keeps s00 (recordDeadline number res s) := by
  unfold recordDeadline
  repeat' first
    | with_reducible assumption | with_reducible apply keeps_record

theorem keeps_sealIncident {s00 s : State}  (hk : Keeps s00 s) : Keeps s00 (sealIncident s).2 := by
  unfold sealIncident
  repeat' first
    | with_reducible assumption | with_reducible apply keeps_allocIncident | split

theorem keeps_recordSeal {s00 s : State} (r : SealRec) (hk : Keeps s00 s) : Keeps s00 (recordSeal r s) := by
  unfold recordSeal
  repeat' first
    | with_reducible assumption | with_reducible apply keeps_odBump | with_reducible apply keeps_pushLog
    | with_reducible apply keeps_sealIncident | with_reducible apply keeps_ite

theorem keeps_takeExceptionAt {s00 s : State} (c : Nat) (x : Exc) (k : Nat) (epc : BitVec 47) (hk : Keeps s00 s) : Keeps s00 (takeExceptionAt c x k epc s) := by
  unfold takeExceptionAt
  repeat' first
    | with_reducible assumption | with_reducible apply keeps_setCore | with_reducible apply keeps_ite

theorem keeps_takeException {s00 s : State} (c : Nat) (x : Exc) (npc : BitVec 47) (hk : Keeps s00 s) : Keeps s00 (takeException c x npc s) := by
  unfold takeException
  repeat' first
    | with_reducible assumption | with_reducible apply keeps_takeExceptionAt

theorem keeps_overflow {s00 s : State} (block i : Nat) (pc : BitVec 47) (value : BitVec 48) (hk : Keeps s00 s) : Keeps s00 (overflow block i pc value s) := by
  unfold overflow
  repeat' first
    | with_reducible assumption | with_reducible apply keeps_setCounter | with_reducible apply keeps_raise
    | with_reducible apply keeps_ite | dsimp only | refine keeps_mk ?_ rfl rfl rfl rfl rfl rfl rfl rfl rfl

theorem keeps_addCount {s00 s : State} (block i n : Nat) (pc : BitVec 47) (hk : Keeps s00 s) : Keeps s00 (addCount block i n pc s) := by
  unfold addCount
  repeat' first
    | with_reducible assumption | with_reducible apply keeps_setCounter | with_reducible apply keeps_overflow
    | with_reducible apply keeps_ite

theorem keeps_countOne {s00 s : State} (block i event n : Nat) (pl : Option Nat) (pc : BitVec 47) (hk : Keeps s00 s) : Keeps s00 (countOne block i event n pl pc s) := by
  unfold countOne
  repeat' first
    | with_reducible assumption | with_reducible apply keeps_addCount | with_reducible apply keeps_ite
    | refine keeps_mk ?_ rfl rfl rfl rfl rfl rfl rfl rfl rfl

theorem keeps_countEvent {s00 s : State} (block event n : Nat) (pl : Option Nat) (pc : BitVec 47) (hk : Keeps s00 s) : Keeps s00 (countEvent block event n pl pc s) := by
  unfold countEvent
  repeat' first
    | with_reducible assumption | with_reducible intro _ | with_reducible apply keeps_countOne | with_reducible apply keeps_ite
    | with_reducible apply keeps_foldl

theorem keeps_setFreeze {s00 s : State} (b : Bool) (hk : Keeps s00 s) : Keeps s00 (setFreeze b s) := by
  unfold setFreeze
  repeat' first
    | with_reducible assumption | dsimp only | refine keeps_mk ?_ rfl rfl rfl rfl rfl rfl rfl rfl rfl

theorem keeps_clearOvf {s00 s : State} (block : Nat) (mask : BitVec 8) (hk : Keeps s00 s) : Keeps s00 (clearOvf block mask s) :=
  keeps_foldl _ (fun _ _ h => keeps_ite (keeps_setCounter _ _ _ h) h) hk

theorem keeps_resetCounters {s00 s : State} (block : Nat) (hk : Keeps s00 s) : Keeps s00 (resetCounters block s) := by
  unfold resetCounters
  repeat' first
    | with_reducible assumption | with_reducible intro _ | with_reducible apply keeps_setCounter | with_reducible apply keeps_foldl

theorem keeps_windowWrite {s00 s : State} (off : Nat) (v : Word) (hk : Keeps s00 s) : Keeps s00 (windowWrite off v s) := by
  unfold windowWrite
  repeat' first
    | with_reducible assumption | with_reducible apply keeps_setCounter | with_reducible apply keeps_setFreeze
    | with_reducible apply keeps_clearOvf | with_reducible apply keeps_ite

theorem keeps_deviceWrite {s00 s : State} (stall pa size : Nat) (v : Word) (hk : Keeps s00 s) : Keeps s00 (deviceWrite stall pa size v s) := by
  unfold deviceWrite
  repeat' first
    | with_reducible assumption | with_reducible apply keeps_windowWrite | with_reducible apply keeps_ite

theorem keeps_execCounterOverflow {s00 s : State} (block : Nat) (i : Fin 8) (pc : BitVec 47) (hk : Keeps s00 s) : Goes s00 (execCounterOverflow block i pc s) := by
  unfold execCounterOverflow
  repeat' first
    | with_reducible assumption | with_reducible apply keeps_overflow | with_reducible apply goes_next | with_reducible apply goes_ite

theorem keeps_execFreezeWrite {s00 s : State} (path : Path) (b : Bool) (hk : Keeps s00 s) : Goes s00 (execFreezeWrite path b s) := by
  unfold execFreezeWrite
  repeat' first
    | with_reducible assumption | with_reducible apply keeps_setFreeze | with_reducible apply goes_next | split

theorem keeps_execCounterStatusWrite {s00 s : State} (path : Path) (block : Nat) (mask : BitVec 8) (hk : Keeps s00 s) : Goes s00 (execCounterStatusWrite path block mask s) := by
  unfold execCounterStatusWrite
  repeat' first
    | with_reducible assumption | with_reducible apply keeps_clearOvf | with_reducible apply goes_next | split

theorem keeps_closePatrol {s00 s : State} (sec : Nat) (poisoned : Bool) (hk : Keeps s00 s) : Keeps s00 (closePatrol sec poisoned s) := by
  unfold closePatrol
  repeat' first
    | with_reducible assumption | with_reducible apply keeps_setChannel | with_reducible apply keeps_recordSeal | split | dsimp only

theorem keeps_countLost {s00 s : State} (sec : Nat) (hk : Keeps s00 s) : Keeps s00 (countLost sec s) := by
  unfold countLost
  repeat' first
    | with_reducible assumption | with_reducible apply keeps_record | dsimp only | refine keeps_mk ?_ rfl rfl rfl rfl rfl rfl rfl rfl rfl

theorem keeps_putSector {s00 s : State} (sec : Nat) (x : Sector) (hk : Keeps s00 s) : Keeps s00 (putSector sec x s) := by
  unfold putSector
  repeat' first
    | with_reducible assumption | with_reducible apply keeps_setSlice

theorem keeps_touchSector {s00 s : State} (sec : Nat) (hk : Keeps s00 s) : Keeps s00 (touchSector sec s) := by
  unfold touchSector
  repeat' first
    | with_reducible assumption | with_reducible apply keeps_setSlice | with_reducible apply keeps_ite

theorem keeps_dropSector {s00 s : State} (sec : Nat) (hk : Keeps s00 s) : Keeps s00 (dropSector sec s) := by
  unfold dropSector
  repeat' first
    | with_reducible assumption | with_reducible apply keeps_setSlice

theorem keeps_memWriteSpan {s00 s : State} (sec : Nat) (ws : List TWord) (sl : Word) (hk : Keeps s00 s) :
    Keeps s00 (memWriteSpan sec ws sl s) := by
  unfold memWriteSpan
  refine keeps_ite (keeps_countLost sec hk) ?_
  exact keeps_mem (keeps_closePatrol sec false hk) rfl (fun h => wf_setSeal (wf_setWords h _ _) _ _) rfl rfl rfl rfl rfl rfl rfl

theorem keeps_memWriteSub {s00 s : State} (line : Nat) (ws : List TWord) (hk : Keeps s00 s) : Keeps s00 (memWriteSub line ws s) := by
  unfold memWriteSub
  refine keeps_ite (keeps_countLost _ hk) ?_
  exact keeps_mem (keeps_closePatrol (line / 4) false hk) rfl (fun h => wf_setSeal (wf_setWords h _ _) _ _) rfl rfl rfl rfl rfl rfl rfl

theorem keeps_writeBackSector {s00 s : State} (sec : Nat) (x : Sector) (hk : Keeps s00 s) : Keeps s00 (writeBackSector sec x s) := by
  have wr : ∀ (m : Memory) (k : Nat), m.wf = true →
      (if x.dirty.getLsbD k then m.setWords (32 * sec + 8 * k) (subWords x k) else m).wf = true := by
    intro m k h
    split
    · exact wf_setWords h _ _
    · exact h
  unfold writeBackSector
  refine keeps_ite hk (keeps_ite (keeps_countLost sec hk) ?_)
  exact keeps_mem (keeps_closePatrol sec false hk) rfl (fun h => wf_setSeal (wr _ 3 (wr _ 2 (wr _ 1 (wr _ 0 h)))) _ _)
    rfl rfl rfl rfl rfl rfl rfl

theorem keeps_evictSector {s00 s : State} (sec : Nat) (hk : Keeps s00 s) : Keeps s00 (evictSector sec s) := by
  unfold evictSector
  repeat' first
    | with_reducible assumption | with_reducible apply keeps_dropSector | with_reducible apply keeps_writeBackSector | split

theorem keeps_allocSector {s00 s : State} (a : Attr) (sec : Nat) (valid dirty : BitVec 4) (ws : List TWord) (sl : Word) (hk : Keeps s00 s) : Keeps s00 (allocSector a sec valid dirty ws sl s).2 := by
  unfold allocSector
  repeat' first
    | with_reducible assumption | with_reducible apply keeps_took | with_reducible apply keeps_putSector
    | with_reducible apply keeps_evictSector | split

theorem keeps_poisonMem {s00 s : State} (sec : Nat) (hk : Keeps s00 s) : Keeps s00 (poisonMem sec s) :=
  by
  unfold poisonMem
  exact keeps_mem hk rfl (fun h => wf_setSeal (wf_setWords h _ _) _ _) rfl rfl rfl rfl rfl rfl rfl

theorem keeps_poisonSpan {s00 s : State} (sec : Nat) (hk : Keeps s00 s) : Keeps s00 (poisonSpan sec s) := by
  unfold poisonSpan
  repeat' first
    | with_reducible assumption | with_reducible apply keeps_putSector | with_reducible apply keeps_poisonMem | split | dsimp only

theorem keeps_checkFill {s00 s : State} (sec : Nat) (hk : Keeps s00 s) : Keeps s00 (checkFill sec s) := by
  unfold checkFill
  repeat' first
    | with_reducible assumption | with_reducible apply keeps_recordSeal | with_reducible apply keeps_poisonSpan
    | with_reducible apply keeps_ite

theorem keeps_countNoAlloc {s00 s : State} (sec : Nat) (hk : Keeps s00 s) : Keeps s00 (countNoAlloc sec s) := by
  unfold countNoAlloc
  repeat' first
    | with_reducible assumption | with_reducible apply keeps_odBump

theorem keeps_rebased {s00 s : State} (sec : Nat) (y : Sector) (hk : Keeps s00 s) : Keeps s00 (rebased sec y s) := by
  unfold rebased
  repeat' first
    | with_reducible assumption | with_reducible apply keeps_putSector | with_reducible apply keeps_ite

theorem keeps_fetchSub {s00 s : State} (line : Nat) (hk : Keeps s00 s) : Keeps s00 (fetchSub line s) := by
  unfold fetchSub
  repeat' first
    | with_reducible assumption | with_reducible apply keeps_closePatrol | with_reducible apply keeps_rebased
    | with_reducible apply keeps_ite | split | dsimp only

theorem keeps_fillLine {s00 s : State} (a : Attr) (line : Nat) (hk : Keeps s00 s) : Keeps s00 (fillLine a line s) := by
  unfold fillLine
  repeat' first
    | with_reducible assumption | with_reducible apply keeps_closePatrol | with_reducible apply keeps_touchSector
    | with_reducible apply keeps_allocSector | with_reducible apply keeps_checkFill | with_reducible apply keeps_countNoAlloc
    | with_reducible apply keeps_rebased | with_reducible apply keeps_fetchSub | with_reducible apply keeps_ite | split | dsimp only

theorem keeps_countHome {s00 s : State} (line event n : Nat) (hk : Keeps s00 s) : Keeps s00 (countHome line event n s) := by
  unfold countHome
  repeat' first
    | with_reducible assumption | with_reducible apply keeps_countUncore

theorem keeps_lookup {s00 s : State} (line : Nat) (hk : Keeps s00 s) : Keeps s00 (lookup line s) := by
  unfold lookup
  repeat' first
    | with_reducible assumption | with_reducible apply keeps_countHome

theorem keeps_fillHome {s00 s : State} (a : Attr) (line : Nat) (hk : Keeps s00 s) : Keeps s00 (fillHome a line s) := by
  unfold fillHome
  repeat' first
    | with_reducible assumption | with_reducible apply keeps_fillLine | with_reducible apply keeps_countHome
    | with_reducible apply keeps_ite

theorem keeps_homeWrite {s00 s0 : State} (a : Attr) (line : Nat) (ws : List TWord) (hk : Keeps s00 s0) : Keeps s00 (homeWrite a line ws s0) := by
  unfold homeWrite
  repeat' first
    | with_reducible assumption | with_reducible apply keeps_closePatrol | with_reducible apply keeps_putSector
    | with_reducible apply keeps_memWriteSub | with_reducible apply keeps_allocSector | with_reducible apply keeps_checkFill
    | with_reducible apply keeps_fetchSub | with_reducible apply keeps_ite | split | dsimp only

theorem keeps_setDir {s00 s : State} (line : Nat) (d : DirEntry) (hk : Keeps s00 s) : Keeps s00 (setDir line d s) := by
  unfold setDir
  repeat' first
    | with_reducible assumption | with_reducible apply keeps_setSlice

theorem keeps_clearDir {s00 s : State} (line : Nat) (hk : Keeps s00 s) : Keeps s00 (clearDir line s) := by
  unfold clearDir
  repeat' first
    | with_reducible assumption | with_reducible apply keeps_setSlice

theorem keeps_wakePath {s00 s : State} (stop line : Nat) (hk : Keeps s00 s) : Keeps s00 (wakePath stop line s) := by
  unfold wakePath
  repeat' first
    | with_reducible assumption | with_reducible intro _ | with_reducible apply keeps_wakeDom | with_reducible apply keeps_ite
    | with_reducible apply keeps_foldl

theorem keeps_wakeHome {s00 s : State} (line : Nat) (hk : Keeps s00 s) : Keeps s00 (wakeHome line s) := by
  unfold wakeHome
  repeat' first
    | with_reducible assumption | with_reducible apply keeps_wakePath

theorem keeps_setL2 {s00 s : State} (t line : Nat) (st : L2State) (hk : Keeps s00 s) : Keeps s00 (setL2 t line st s) := by
  unfold setL2
  repeat' first
    | with_reducible assumption | with_reducible apply keeps_setTile

theorem keeps_dropL2 {s00 s : State} (t line : Nat) (hk : Keeps s00 s) : Keeps s00 (dropL2 t line s) := by
  unfold dropL2
  repeat' first
    | with_reducible assumption | with_reducible apply keeps_setTile

theorem keeps_touchL2 {s00 s : State} (t line : Nat) (hk : Keeps s00 s) : Keeps s00 (touchL2 t line s) := by
  unfold touchL2
  repeat' first
    | with_reducible assumption | with_reducible apply keeps_setTile

theorem keeps_dropL1 {s00 s : State} (t line : Nat) (hk : Keeps s00 s) : Keeps s00 (dropL1 t line s) := by
  unfold dropL1
  repeat' first
    | with_reducible assumption | with_reducible apply keeps_setCore | split

theorem keeps_flushFrame {s00 s : State} (t line : Nat) (hk : Keeps s00 s) : ∀ u, flushFrame t line s = some u → Keeps s00 u := by
  intro u e
  unfold flushFrame at e
  split at e
  · cases e
  · simp only at e
    split at e
    · cases e
    · cases e
      exact keeps_setCore _ _ (keeps_mk (keeps_setL2 _ _ _ hk) rfl rfl rfl rfl rfl rfl rfl rfl rfl)

theorem keeps_frameSnoop {s00 s : State} (t line : Nat) (hk : Keeps s00 s) : Keeps s00 (frameSnoop t line s) := by
  unfold frameSnoop
  repeat' first
    | with_reducible assumption | with_reducible apply keeps_countEvent | with_reducible refine keeps_flushFrame _ _ ?_ _ ‹_› | split

theorem keeps_snoopAwake {s00 s : State} (k : Snoop) (t line : Nat) (hk : Keeps s00 s) : Keeps s00 (snoopAwake k t line s).2 := by
  unfold snoopAwake
  repeat' first
    | with_reducible assumption | with_reducible apply keeps_setTile | with_reducible apply keeps_setL2
    | with_reducible apply keeps_dropL2 | with_reducible apply keeps_dropL1 | split | dsimp only

theorem keeps_applyNap {s00 s : State} (t : Nat) (hk : Keeps s00 s) : Keeps s00 (applyNap t s) := by
  unfold applyNap
  repeat' first
    | with_reducible assumption | with_reducible intro _ | with_reducible apply keeps_setTile | with_reducible apply keeps_snoopAwake
    | with_reducible apply keeps_foldl

theorem keeps_snoopTile {s00 s : State} (k : Snoop) (t line : Nat) (hk : Keeps s00 s) : Keeps s00 (snoopTile k t line s).2 := by
  unfold snoopTile
  repeat' first
    | with_reducible assumption | with_reducible apply keeps_setTile | with_reducible apply keeps_frameSnoop
    | with_reducible apply keeps_snoopAwake | with_reducible apply keeps_applyNap | with_reducible apply keeps_pair_ite

theorem keeps_noteDropped {s00 s : State} (t line : Nat) (ans : SnoopAns) (hk : Keeps s00 s) : Keeps s00 (noteDropped t line ans s) := by
  unfold noteDropped
  repeat' first
    | with_reducible assumption | with_reducible apply keeps_setSlice | split

theorem keeps_settleLine {s00 s : State} (a : Attr) (line : Nat) (hk : Keeps s00 s) : Keeps s00 (settleLine a line s) := by
  unfold settleLine
  repeat' first
    | with_reducible assumption | with_reducible apply keeps_homeWrite | split | dsimp only
    | refine keeps_mk ?_ rfl rfl rfl rfl rfl rfl rfl rfl rfl

theorem keeps_snoopAll {s00 s : State} (k : Snoop) (ts : List Nat) (line : Nat) (hk : Keeps s00 s) : Keeps s00 (snoopAll k ts line s).2 := by
  induction ts generalizing s with
  | nil => exact hk
  | cons t r ih => exact ih (keeps_noteDropped _ _ _ (keeps_snoopTile k t line (keeps_countHome _ _ _ hk)))

theorem keeps_dirReplace {s00 s : State} (a : Attr) (line : Nat) (hk : Keeps s00 s) : Keeps s00 (dirReplace a line s) := by
  unfold dirReplace
  repeat' first
    | with_reducible assumption | with_reducible apply keeps_took | with_reducible apply keeps_odBump
    | with_reducible apply keeps_setSlice | with_reducible apply keeps_clearDir | with_reducible apply keeps_settleLine
    | with_reducible apply keeps_snoopAll | split

theorem keeps_evictL2 {s00 s : State} (a : Attr) (t line : Nat) (hk : Keeps s00 s) : Keeps s00 (evictL2 a t line s) := by
  unfold evictL2
  repeat' first
    | with_reducible assumption | with_reducible intro _ | with_reducible apply keeps_lookup | with_reducible apply keeps_setDir
    | with_reducible apply keeps_clearDir | with_reducible apply keeps_dropL2 | with_reducible apply keeps_dropL1
    | with_reducible refine keeps_flushFrame _ _ ?_ _ ‹_› | with_reducible apply keeps_settleLine | with_reducible apply keeps_getD
    | with_reducible apply keeps_ite | split | dsimp only

theorem keeps_installL2 {s00 s : State} (a : Attr) (t line : Nat) (st : L2State) (hk : Keeps s00 s) : Keeps s00 (installL2 a t line st s) := by
  unfold installL2
  repeat' first
    | with_reducible assumption | with_reducible apply keeps_took | with_reducible apply keeps_setL2 | with_reducible apply keeps_touchL2
    | with_reducible apply keeps_evictL2 | split

theorem keeps_acquireShared {s00 s : State} (a : Attr) (t line : Nat) (hk : Keeps s00 s) : Keeps s00 (acquireShared a t line s) := by
  unfold acquireShared
  repeat' first
    | with_reducible assumption | with_reducible apply keeps_lookup | with_reducible apply keeps_fillHome
    | with_reducible apply keeps_setDir | with_reducible apply keeps_touchL2 | with_reducible apply keeps_snoopAll
    | with_reducible apply keeps_dirReplace | with_reducible apply keeps_installL2 | with_reducible apply keeps_ite | split | dsimp only

theorem keeps_acquireOwned {s00 s : State} (a : Attr) (t line : Nat) (hk : Keeps s00 s) : Keeps s00 (acquireOwned a t line s) := by
  unfold acquireOwned
  repeat' first
    | with_reducible assumption | with_reducible apply keeps_lookup | with_reducible apply keeps_fillHome
    | with_reducible apply keeps_setDir | with_reducible apply keeps_setL2 | with_reducible apply keeps_touchL2
    | with_reducible apply keeps_snoopAll | with_reducible apply keeps_dirReplace | with_reducible apply keeps_installL2
    | with_reducible apply keeps_ite | split

theorem keeps_recallLine {s00 s : State} (a : Attr) (line : Nat) (hk : Keeps s00 s) : Keeps s00 (recallLine a line s) := by
  unfold recallLine
  repeat' first
    | with_reducible assumption | with_reducible apply keeps_clearDir | with_reducible apply keeps_settleLine
    | with_reducible apply keeps_snoopAll | split

theorem keeps_cleanLine {s00 s : State} (a : Attr) (line : Nat) (hk : Keeps s00 s) : Keeps s00 (cleanLine a line s) := by
  unfold cleanLine
  repeat' first
    | with_reducible assumption | with_reducible apply keeps_setDir | with_reducible apply keeps_settleLine
    | with_reducible apply keeps_snoopAll | with_reducible apply keeps_ite | split

theorem keeps_writeAtHome {s00 s : State} (a : Attr) (line : Nat) (f : List TWord → List TWord) (hk : Keeps s00 s) : Keeps s00 (writeAtHome a line f s) := by
  unfold writeAtHome
  repeat' first
    | with_reducible assumption | with_reducible apply keeps_homeWrite | with_reducible apply keeps_recallLine

theorem keeps_dmaWriteBytes {s00 s : State} (a : Attr) (pa : Nat) (bytes : List Byte) (tag : Tag) (fuel : Nat) (hk : Keeps s00 s) :
    Keeps s00 (dmaWriteBytes a pa bytes tag fuel s) := by
  induction fuel generalizing s pa bytes with
  | zero => exact hk
  | succ n ih =>
    unfold dmaWriteBytes
    exact keeps_ite hk (ih _ _ (keeps_wakeHome _ (keeps_writeAtHome _ _ _ (keeps_lookup _ hk))))

theorem keeps_dmaFetch {s00 s : State} (a : Attr) (pa n : Nat) (hk : Keeps s00 s) : Keeps s00 (dmaFetch a pa n s) := by
  unfold dmaFetch
  repeat' first
    | with_reducible assumption | with_reducible intro _ | with_reducible apply keeps_lookup | with_reducible apply keeps_fillHome
    | with_reducible apply keeps_wakeHome | with_reducible apply keeps_cleanLine | with_reducible apply keeps_foldl

theorem keeps_spanWrite {s00 s : State} (a : Attr) (sec : Nat) (ws : List TWord) (sl : Word) (ctx : Nat) (hk : Keeps s00 s) : Keeps s00 (spanWrite a sec ws sl ctx s).2 := by
  unfold spanWrite
  repeat' first
    | with_reducible assumption | with_reducible intro _ | with_reducible apply keeps_recordSeal | with_reducible apply keeps_putSector
    | with_reducible apply keeps_memWriteSpan | with_reducible apply keeps_allocSector | with_reducible apply keeps_wakeHome
    | with_reducible apply keeps_recallLine | with_reducible apply keeps_pair_ite | with_reducible apply keeps_ite
    | with_reducible apply keeps_foldl | split

theorem keeps_spanZero {s00 s : State} (a : Attr) (sec : Nat) (tag : Tag) (hk : Keeps s00 s) : Keeps s00 (spanZero a sec tag s) := by
  unfold spanZero
  repeat' first
    | with_reducible assumption | with_reducible intro _ | with_reducible apply keeps_putSector | with_reducible apply keeps_memWriteSpan
    | with_reducible apply keeps_allocSector | with_reducible apply keeps_recallLine | with_reducible apply keeps_ite
    | with_reducible apply keeps_foldl | split | dsimp only

theorem keeps_cleanSpan {s00 s : State} (a : Attr) (sec : Nat) (hk : Keeps s00 s) : Keeps s00 (cleanSpan a sec s) := by
  unfold cleanSpan
  repeat' first
    | with_reducible assumption | with_reducible intro _ | with_reducible apply keeps_cleanLine | with_reducible apply keeps_foldl

theorem keeps_flushSub {s00 s : State} (line : Nat) (hk : Keeps s00 s) : Keeps s00 (flushSub line s) := by
  unfold flushSub
  repeat' first
    | with_reducible assumption | with_reducible apply keeps_putSector | with_reducible apply keeps_memWriteSub
    | with_reducible apply keeps_ite | split

theorem keeps_invalidateSub {s00 s : State} (line : Nat) (hk : Keeps s00 s) : Keeps s00 (invalidateSub line s) := by
  unfold invalidateSub
  repeat' first
    | with_reducible assumption | with_reducible apply keeps_putSector | with_reducible apply keeps_dropSector
    | with_reducible apply keeps_ite | split

theorem keeps_discardSub {s00 s : State} (line : Nat) (hk : Keeps s00 s) : Keeps s00 (discardSub line s) := by
  unfold discardSub
  repeat' first
    | with_reducible assumption | with_reducible apply keeps_putSector | with_reducible apply keeps_dropSector
    | with_reducible apply keeps_invalidateSub | with_reducible apply keeps_ite | split | dsimp only
    | refine keeps_mk ?_ rfl rfl rfl rfl rfl rfl rfl rfl rfl

theorem keeps_markMisses {s00 s : State} (t line : Nat) (hk : Keeps s00 s) : Keeps s00 (markMisses t line s) := by
  unfold markMisses
  repeat' first
    | with_reducible assumption | with_reducible apply keeps_setTile

theorem keeps_maintainLine {s00 s : State} (op : Maint) (a : Attr) (pl0 : Bool) (line : Nat) (hk : Keeps s00 s) : Keeps s00 (maintainLine op a pl0 line s) := by
  unfold maintainLine
  repeat' first
    | with_reducible assumption | with_reducible apply keeps_odSet | with_reducible apply keeps_odBump
    | with_reducible apply keeps_clearDir | with_reducible apply keeps_snoopAll | with_reducible apply keeps_recallLine
    | with_reducible apply keeps_cleanLine | with_reducible apply keeps_flushSub | with_reducible apply keeps_invalidateSub
    | with_reducible apply keeps_discardSub | with_reducible apply keeps_ite | split

end Sys2Proof.Machine
end

