-- ==== Sys2Proof/Laws/KeepsCore.lean ====
section
/-! SUPPORT. Core instructions keep the queue and the invariant. -/

namespace Sys2Proof.Machine

theorem keeps_walkRead {s00 s : State} (unit : Option Nat) (stall ea : Nat) (hk : Keeps s00 s) : Keeps s00 (walkRead unit stall ea s).2 := by
  unfold walkRead
  repeat' first
    | with_reducible assumption | with_reducible apply keeps_lookup | with_reducible apply keeps_fillHome
    | with_reducible apply keeps_acquireShared | with_reducible apply keeps_cleanLine | split

theorem keeps_walkFrom (unit : Option Nat) (stall va level ptr : Nat) (fuel : Nat) (seen : List (Nat × Nat)) (lastE lastL : Nat) :
    KeepsRun (walkFrom unit stall va level ptr fuel seen lastE lastL) := by
  induction fuel generalizing level ptr seen lastE lastL with
  | zero => exact keepsRun_throw _
  | succ n ih =>
    unfold walkFrom
    refine keepsRun_get_bind (fun s => ?_)
    dsimp only
    repeat' first
      | with_reducible assumption | with_reducible exact keepsAt_throw | with_reducible exact keepsAt_throw_bind
      | with_reducible apply keepsAt_ite | with_reducible exact keepsAt_pure
      | with_reducible refine keepsAt_set_bind (fun _ h => keeps_walkRead _ _ _ h) ?_ | with_reducible exact keepsAt_of (ih _ _ _ _ _)

theorem keeps_setEntry {s00 s : State} (stall entry : Nat) (old : TWord) (v : Word) (hk : Keeps s00 s) : Keeps s00 (setEntry stall entry old v s).2 := by
  unfold setEntry
  repeat' first
    | with_reducible assumption | with_reducible apply keeps_lookup | with_reducible apply keeps_fillHome
    | with_reducible apply keeps_homeWrite | with_reducible apply keeps_recallLine | with_reducible apply keeps_pair_ite

theorem keeps_fillTlb {s00 s : State} (c va : Nat) (leaf : Word) (tables : List (Nat × Nat)) (hk : Keeps s00 s) : Keeps s00 (fillTlb c va leaf tables s) := by
  unfold fillTlb
  repeat' first
    | with_reducible assumption | with_reducible apply keeps_took | with_reducible apply keeps_setCore

theorem keeps_finishWalk (c va : Nat) (k : AccKind) (w : WalkOk) : KeepsRun (finishWalk c va k w) := by
  unfold finishWalk
  repeat' first
    | with_reducible assumption | with_reducible intro _ | with_reducible apply keeps_setEntry | with_reducible apply keeps_fillTlb
    | with_reducible apply keepsRun_get_bind | with_reducible exact keepsAt_pure | with_reducible exact keepsAt_throw
    | with_reducible exact keepsAt_throw_bind | with_reducible apply keepsAt_ite | with_reducible apply keepsAt_set_bind | split
    | dsimp only

theorem keeps_coreWalk (c va : Nat) (k : AccKind) (start : Nat × Nat) (fuel : Nat) : KeepsRun (coreWalk c va k start fuel) := by
  induction fuel generalizing start with
  | zero =>
    unfold coreWalk
    repeat' first
      | with_reducible assumption | with_reducible intro _ | with_reducible apply keeps_odBump | with_reducible apply keeps_walkFrom
      | with_reducible apply keeps_finishWalk | with_reducible apply keepsRun_get_bind | with_reducible apply keepsRun_bind
      | with_reducible exact keepsRun_pure _ | with_reducible exact keepsRun_throw _ | with_reducible apply keepsRun_modify | split
      | dsimp only | with_reducible apply keepsAt_of
  | succ _ ih =>
    unfold coreWalk
    repeat' first
      | with_reducible assumption | with_reducible apply ih | with_reducible intro _ | with_reducible apply keeps_odBump
      | with_reducible apply keeps_walkFrom | with_reducible apply keeps_finishWalk | with_reducible apply keepsRun_get_bind
      | with_reducible apply keepsRun_bind | with_reducible exact keepsRun_pure _ | with_reducible exact keepsRun_throw _
      | with_reducible apply keepsRun_modify | split | dsimp only | with_reducible apply keepsAt_of

theorem keeps_translate (c va : Nat) (k : AccKind) : KeepsRun (translate c va k) := by
  unfold translate
  repeat' first
    | with_reducible intro _ | with_reducible apply keeps_coreWalk | with_reducible apply keepsRun_get_bind
    | with_reducible exact keepsAt_pure | with_reducible exact keepsAt_throw | with_reducible exact keepsAt_throw_bind
    | with_reducible apply keepsAt_ite | split | with_reducible apply keepsAt_of

theorem keeps_ioInsert {s00 s : State} (die : Nat) (e : IoEntry) (hk : Keeps s00 s) : Keeps s00 (ioInsert die e s) := by
  unfold ioInsert
  repeat' first
    | with_reducible assumption | with_reducible apply keeps_took | split | dsimp only
    | refine keeps_mk ?_ rfl rfl rfl rfl rfl rfl rfl rfl rfl

theorem keeps_ioWalkInsert {s00 s : State} (die stall va : Nat) (tables : List (Nat × Nat)) (hk : Keeps s00 s) : Keeps s00 (ioWalkInsert die stall va tables s) := by
  unfold ioWalkInsert
  repeat' first
    | with_reducible assumption | with_reducible apply keeps_took | dsimp only | refine keeps_mk ?_ rfl rfl rfl rfl rfl rfl rfl rfl rfl

theorem keeps_ioFinish (die stall va : Nat) (k : AccKind) (w : WalkOk) : KeepsRun (ioFinish die stall va k w) := by
  unfold ioFinish
  refine keepsRun_get_bind (fun s => ?_)
  split
  · exact keepsAt_throw
  · by_cases ad : needsAd k w.leaf = true
    · simp only [ad, if_true]
      split
      · exact keepsAt_set_bind (fun s0 h => keeps_ioWalkInsert _ _ _ _ (keeps_ioInsert _ _ (keeps_setEntry _ _ _ _ h))) keepsAt_pure
      · exact keepsAt_set_bind (fun s0 h => keeps_setEntry _ _ _ _ h) keepsAt_pure
    · simp only [ad, if_true, Bool.false_eq_true, if_false]
      exact keepsAt_set_bind (fun s0 h => keeps_ioWalkInsert _ _ _ _ (keeps_ioInsert _ _ h)) keepsAt_pure

theorem keeps_ioWalks (die stall va root : Nat) (k : AccKind) (start : Nat × Nat) (fuel : Nat) :
    KeepsRun (ioWalks die stall va root k start fuel) := by
  induction fuel generalizing start with
  | zero => exact keepsRun_throw _
  | succ n ih =>
    unfold ioWalks
    refine keepsRun_bind (keepsRun_modify (fun _ _ h => keeps_odBump _ _ h)) (fun _ => keepsRun_bind (keeps_walkFrom _ _ _ _ _ _ _ _ _) (fun w =>
      keepsRun_bind (keeps_ioFinish _ _ _ _ _) (fun r => ?_)))
    cases r with
    | none => exact ih _
    | some x => exact keepsRun_pure _

theorem keeps_ioTranslate (die stall va : Nat) (write : Bool) : KeepsRun (ioTranslate die stall va write) := by
  unfold ioTranslate
  repeat' first
    | with_reducible intro _ | with_reducible apply keeps_ioWalks | with_reducible apply keepsRun_get_bind
    | with_reducible exact keepsAt_pure | with_reducible exact keepsAt_throw | with_reducible apply keepsAt_ite | split | dsimp only
    | with_reducible apply keepsAt_of

theorem keeps_ioLookup {s00 s : State} (die stall va : Nat) (write : Bool) (hk : Keeps s00 s) : Keeps s00 (ioLookup die stall va write s).2 := by
  have := keeps_ioTranslate die stall va write s00 s hk
  unfold ioLookup
  split
  · rename_i e
    rw [e] at this
    exact this
  · rename_i e
    rw [e] at this
    exact keeps_odBump _ _ this

theorem keeps_raiseX {α : Type} (x : Exc) : KeepsRun (raiseX x : CoreRun α) := keepsRun_throw _

/-- What follows an exception does not run. -/
theorem keeps_raiseX_bind {α β : Type} (x : Exc) (f : α → CoreRun β) : KeepsRun ((raiseX x : CoreRun α) >>= f) := fun _ s h => by
  rw [run_bind, run_raiseX]
  exact h

theorem keeps_change (f : State → State) (hf : ∀ b t, Keeps b t → Keeps b (f t)) : KeepsRun (change f) := by
  unfold change
  repeat' first
    | with_reducible assumption | with_reducible apply keepsRun_modify

theorem keeps_changeArch (e : Env) (f : Arch → Arch) : KeepsRun (changeArch e f) := by
  unfold changeArch
  repeat' first
    | with_reducible assumption | with_reducible intro _ | with_reducible apply keeps_setCore | with_reducible apply keepsRun_modify

theorem keeps_getArch (e : Env) : KeepsRun (getArch e) := by
  unfold getArch
  repeat' first
    | with_reducible intro _ | with_reducible apply keepsRun_get_bind | with_reducible exact keepsAt_pure

theorem keeps_xlat (c va : Nat) (k : AccKind) (mk : XFault → Exc) : KeepsRun (xlat c va k mk) := by
  intro s0 s h
  have := keeps_translate c va k s0 s h
  show Keeps s0 (match (translate c va k).run s with
    | (.ok x, s1) => ((.ok x, s1) : Except Stop Xlat × State)
    | (.error f, s1) => (.error (.exc (mk f)), s1)).2
  split
  · rename_i e
    rw [e] at this
    exact this
  · rename_i e
    rw [e] at this
    exact this

theorem keeps_note (e : Env) (event : Nat) : KeepsRun (note e event) := by
  unfold note
  repeat' first
    | with_reducible assumption | with_reducible intro _ | with_reducible apply keeps_setCore | with_reducible apply keepsRun_modify

theorem keeps_waitFor (e : Env) (line : Nat) : KeepsRun (waitFor e line) := by
  unfold waitFor
  exact keepsRun_get_bind (fun s => keepsAt_of (keepsRun_bind (keeps_change _ (fun _ _ h => keeps_wakePath _ _ h)) (fun _ => keepsRun_throw _)))

/-- What follows a wait does not run. -/
theorem keeps_waitFor_bind {α : Type} (e : Env) (line : Nat) (f : Unit → CoreRun α) : KeepsRun (waitFor e line >>= f) := fun s0 s h => by
  have := keeps_waitFor e line s0 s h
  rw [run_bind]
  exact this

theorem keeps_touchLine (e : Env) (x : Xlat) (line : Nat) (fetch frame : Bool) :
    KeepsRun (touchLine e x line fetch frame) := by
  unfold touchLine
  refine keepsRun_get_bind (fun s => ?_)
  dsimp only
  have w : ∀ (β : Type) (f : Unit → CoreRun β), KeepsRun (waitFor e line >>= f) := fun β f s0 s h => by
    have := keeps_waitFor e line s0 s h
    rw [run_bind]
    exact this
  split
  · split
    · exact keepsAt_of (w _ _)
    · exact keepsAt_set (fun _ h => keeps_fillHome _ _ (keeps_cleanLine _ _ (keeps_lookup _ h)))
  · repeat' first
      | exact w _ _ | with_reducible apply keeps_note | with_reducible apply keeps_change | with_reducible apply keepsRun_bind
      | with_reducible apply keepsAt_ite | with_reducible apply keepsRun_ite | with_reducible apply keepsAt_of
      | with_reducible apply keeps_ite | with_reducible apply keeps_setCore | with_reducible apply keeps_acquireShared
      | with_reducible assumption | with_reducible intro _ | dsimp only

theorem keeps_storeLine {s00 s : State} (c : Nat) (en : StoreEntry) (line : Nat) (hk : Keeps s00 s) : Keeps s00 (storeLine c en line s) := by
  unfold storeLine
  repeat' first
    | with_reducible assumption | with_reducible apply keeps_lookup | with_reducible apply keeps_acquireOwned
    | with_reducible apply keeps_writeAtHome | with_reducible apply keeps_ite | dsimp only
    | refine keeps_mk ?_ rfl rfl rfl rfl rfl rfl rfl rfl rfl

theorem keeps_drainOne {s00 s : State} (c : Nat) (hk : Keeps s00 s) : ∀ u, drainOne c s = some u → Keeps s00 u := by
  intro u e
  unfold drainOne at e
  split at e
  · cases e
    exact hk
  · split at e
    · cases e
      exact keeps_setCore _ _ (keeps_foldl _ (fun _ _ h => keeps_storeLine _ _ _ h) hk)
    · cases e

theorem keeps_drainN {s00 s : State} (c n : Nat) (hk : Keeps s00 s) : ∀ u, drainN c n s = some u → Keeps s00 u := by
  induction n generalizing s with
  | zero =>
    intro u e
    cases e
    exact hk
  | succ n ih =>
    intro u e
    simp only [drainN] at e
    split at e
    · rename_i t q
      exact ih (keeps_drainOne c hk t q) u e
    · cases e

theorem keeps_drainStores {s00 s : State} (c : Nat) (hk : Keeps s00 s) : ∀ u, drainStores c s = some u → Keeps s00 u :=
  keeps_drainN c _ hk

theorem keeps_drain (e : Env) (n : Nat) : KeepsRun (drain e n) := by
  unfold drain
  refine keepsRun_get_bind (fun s => ?_)
  split
  · rename_i t q
    exact keepsAt_set (fun _ h => keeps_drainN _ _ h t q)
  · exact keepsAt_of (keepsRun_bind (keeps_change _ (fun _ _ h => keeps_foldl _ (fun _ _ k => keeps_wakePath _ _ k) h))
      (fun _ => keepsRun_throw _))

theorem keeps_fenceAll (e : Env) : KeepsRun (fenceAll e) := by
  unfold fenceAll
  repeat' first
    | with_reducible intro _ | with_reducible apply keeps_drain | with_reducible apply keepsRun_get_bind
    | with_reducible apply keepsAt_of

theorem keeps_formAcc (e : Env) (va size opnd : Nat) (k : AccKind) : KeepsRun (formAcc e va size opnd k) := by
  unfold formAcc
  repeat' first
    | with_reducible intro _ | with_reducible exact keeps_raiseX_bind _ _ | with_reducible apply keeps_xlat
    | with_reducible apply keepsRun_bind | with_reducible exact keepsRun_pure _ | with_reducible apply keepsRun_ite

theorem keeps_awaitStores (e : Env) (ws : List (Nat × BitVec 8)) : KeepsRun (awaitStores e ws) := by
  unfold awaitStores
  repeat' first
    | with_reducible intro _ | with_reducible apply keeps_note | with_reducible apply keeps_drain
    | with_reducible apply keepsRun_get_bind | with_reducible apply keepsRun_bind | with_reducible exact keepsAt_pure
    | with_reducible apply keepsAt_ite | with_reducible apply keepsAt_of

theorem keeps_coreEvent {s00 s : State} (c event n : Nat) (hk : Keeps s00 s) : Keeps s00 (coreEvent c event n s) := by
  unfold coreEvent
  repeat' first
    | with_reducible assumption | with_reducible apply keeps_countEvent

theorem keeps_dropSpec {s00 s : State} (c : Nat) (hk : Keeps s00 s) : Keeps s00 (dropSpec c s) := by
  unfold dropSpec
  repeat' first
    | with_reducible assumption | with_reducible apply keeps_setCore | with_reducible apply keeps_setTile
    | with_reducible apply keeps_coreEvent | with_reducible apply keeps_ite

theorem keeps_nameLine {s00 s : State} (c vline line : Nat) (hk : Keeps s00 s) : Keeps s00 (nameLine c vline line s) := by
  unfold nameLine
  repeat' first
    | with_reducible assumption | with_reducible apply keeps_setCore

theorem keeps_enterLine {s00 s : State} (c vline : Nat) (hk : Keeps s00 s) : Keeps s00 (enterLine c vline s) := by
  have h := keeps_translate c (64 * vline) {} s00 s hk
  unfold enterLine
  revert h
  generalize (translate c (64 * vline) {}).run s = r
  obtain ⟨_ | x, u⟩ := r
  · exact fun _ => hk
  · intro h
    exact keeps_ite hk (keeps_nameLine _ _ _ (keeps_ite (keeps_acquireShared _ _ _ h) (keeps_setCore _ _ (keeps_acquireShared _ _ _ h))))

theorem keeps_leaveLines {s00 s : State} (c : Nat) (out : List Nat) (hk : Keeps s00 s) : Keeps s00 (leaveLines c out s) := by
  unfold leaveLines
  repeat' first
    | with_reducible assumption | with_reducible intro _ | with_reducible refine keeps_flushFrame _ _ ?_ _ ‹_›
    | with_reducible apply keeps_evictL2 | with_reducible apply keeps_getD | with_reducible apply keeps_ite
    | with_reducible apply keeps_foldl

theorem keeps_slideFrame {s00 s : State} (c : Nat) (hk : Keeps s00 s) : Keeps s00 (slideFrame c s) := by
  unfold slideFrame
  repeat' first
    | with_reducible assumption | with_reducible intro _ | with_reducible apply keeps_setCore | with_reducible apply keeps_coreEvent
    | with_reducible apply keeps_enterLine | with_reducible apply keeps_leaveLines | with_reducible apply keeps_ite
    | with_reducible apply keeps_foldl

theorem keeps_leaveWindow {s00 s : State} (c : Nat) (hk : Keeps s00 s) : Keeps s00 (leaveWindow c s) := by
  unfold leaveWindow
  repeat' first
    | with_reducible assumption | with_reducible apply keeps_setCore | with_reducible apply keeps_leaveLines

theorem keeps_inFrame (e : Env) (va size : Nat) : KeepsRun (inFrame e va size) := by
  unfold inFrame
  repeat' first
    | with_reducible assumption | with_reducible intro _ | with_reducible apply keeps_change | with_reducible apply keeps_slideFrame
    | with_reducible apply keepsRun_get_bind | with_reducible apply keepsRun_bind | with_reducible exact keepsAt_pure

theorem keeps_frameLoad (e : Env) (ls : List (Nat × Xlat)) : KeepsRun (frameLoad e ls) := by
  induction ls with
  | nil =>
    unfold frameLoad
    repeat' first
      | with_reducible assumption | with_reducible intro _ | with_reducible apply keeps_change | with_reducible apply keeps_touchLine
      | with_reducible apply keeps_nameLine | with_reducible apply keepsRun_get_bind | with_reducible apply keepsRun_bind
      | with_reducible exact keepsRun_pure _ | with_reducible apply keepsAt_ite | dsimp only | with_reducible apply keepsAt_of
  | cons x _ ih =>
    obtain ⟨_, _⟩ := x
    unfold frameLoad
    repeat' first
      | with_reducible assumption | with_reducible apply ih | with_reducible intro _ | with_reducible apply keeps_change
      | with_reducible apply keeps_touchLine | with_reducible apply keeps_nameLine | with_reducible apply keepsRun_get_bind
      | with_reducible apply keepsRun_bind | with_reducible exact keepsRun_pure _ | with_reducible apply keepsAt_ite | dsimp only
      | with_reducible apply keepsAt_of

theorem keeps_noteLoad (e : Env) (words : List Nat) : KeepsRun (noteLoad e words) := by
  unfold noteLoad
  repeat' first
    | with_reducible intro _ | with_reducible apply keeps_note | with_reducible apply keepsRun_get_bind
    | with_reducible apply keepsRun_bind | with_reducible exact keepsRun_pure _ | with_reducible exact keepsAt_pure
    | with_reducible apply keepsAt_ite | split | dsimp only | with_reducible apply keepsAt_of

theorem keeps_loadWords (e : Env) (a : Acc) : KeepsRun (loadWords e a) := by
  unfold loadWords
  repeat' first
    | with_reducible intro _ | with_reducible apply keeps_note | with_reducible apply keeps_touchLine
    | with_reducible apply keeps_awaitStores | with_reducible apply keeps_frameLoad | with_reducible apply keeps_noteLoad
    | with_reducible apply keepsRun_get_bind | with_reducible apply keepsRun_bind | with_reducible exact keepsAt_pure
    | with_reducible apply keepsAt_ite | split | dsimp only | with_reducible apply keepsAt_of

theorem keeps_pushStore (e : Env) (en : StoreEntry) : KeepsRun (pushStore e en) := by
  unfold pushStore
  repeat' first
    | with_reducible assumption | with_reducible intro _ | with_reducible apply keeps_setCore | with_reducible apply keeps_change
    | with_reducible apply keeps_drain | with_reducible apply keeps_fenceAll | with_reducible apply keepsRun_get_bind
    | with_reducible apply keepsRun_bind | with_reducible exact keepsAt_pure | with_reducible apply keepsAt_ite | dsimp only
    | with_reducible apply keepsAt_of

theorem keeps_ownLines (e : Env) (ls : List (Nat × Xlat)) : KeepsRun (ownLines e ls) := by
  induction ls with
  | nil =>
    unfold ownLines
    repeat' first
      | with_reducible assumption | with_reducible intro _ | with_reducible exact keeps_waitFor_bind _ _ _
      | with_reducible apply keeps_acquireOwned | with_reducible apply keeps_change | with_reducible apply keeps_nameLine
      | with_reducible apply keepsRun_get_bind | with_reducible apply keepsRun_bind | with_reducible exact keepsRun_pure _
      | with_reducible apply keepsAt_ite | dsimp only | with_reducible apply keepsAt_of
  | cons x _ ih =>
    obtain ⟨_, _⟩ := x
    unfold ownLines
    repeat' first
      | with_reducible assumption | with_reducible apply ih | with_reducible intro _ | with_reducible exact keeps_waitFor_bind _ _ _
      | with_reducible apply keeps_acquireOwned | with_reducible apply keeps_change | with_reducible apply keeps_nameLine
      | with_reducible apply keepsRun_get_bind | with_reducible apply keepsRun_bind | with_reducible exact keepsRun_pure _
      | with_reducible apply keepsAt_ite | dsimp only | with_reducible apply keepsAt_of

theorem keeps_frameWrite {s00 s : State} (c : Nat) (w : WordWrite) (hk : Keeps s00 s) : Keeps s00 (frameWrite c s w) := by
  unfold frameWrite
  repeat' first
    | with_reducible assumption | with_reducible apply keeps_setCore

theorem keeps_frameStore (e : Env) (ls : List (Nat × Xlat)) (en : StoreEntry) : KeepsRun (frameStore e ls en) := by
  unfold frameStore
  repeat' first
    | with_reducible assumption | with_reducible intro _ | with_reducible apply keeps_change | with_reducible apply keeps_storeLine
    | with_reducible apply keeps_fenceAll | with_reducible apply keeps_ownLines | with_reducible apply keeps_frameWrite
    | with_reducible apply keepsRun_bind | with_reducible apply keeps_foldl

theorem keeps_storeBytes (e : Env) (a : Acc) (bytes : List Byte) (tag : Nat → Tag) : KeepsRun (storeBytes e a bytes tag) := by
  unfold storeBytes
  repeat' first
    | with_reducible assumption | with_reducible intro _ | with_reducible apply keeps_deviceWrite | with_reducible apply keeps_change
    | with_reducible apply keeps_note | with_reducible apply keeps_fenceAll | with_reducible apply keeps_pushStore
    | with_reducible apply keeps_frameStore | with_reducible apply keepsRun_get_bind | with_reducible apply keepsRun_bind
    | with_reducible apply keepsRun_ite | with_reducible apply keepsAt_ite | split | dsimp only | with_reducible apply keepsAt_of

theorem keeps_baseReg (e : Env) (r opnd : Nat) : KeepsRun (baseReg e r opnd) := by
  unfold baseReg
  repeat' first
    | with_reducible intro _ | with_reducible exact keeps_raiseX_bind _ _ | with_reducible apply keeps_getArch
    | with_reducible apply keepsRun_bind | with_reducible exact keepsRun_pure _ | with_reducible apply keepsRun_ite

theorem keeps_slotAddr (e : Env) (n opnd : Nat) (ind : Bool) : KeepsRun (slotAddr e n opnd ind) := by
  unfold slotAddr
  repeat' first
    | with_reducible intro _ | with_reducible exact keeps_raiseX_bind _ _ | with_reducible apply keeps_baseReg
    | with_reducible apply keepsRun_bind | with_reducible exact keepsRun_pure _ | with_reducible apply keepsRun_ite

theorem keeps_readPointer (e : Env) (va opnd : Nat) (frame : Bool) : KeepsRun (readPointer e va opnd frame) := by
  unfold readPointer
  repeat' first
    | with_reducible intro _ | with_reducible exact keeps_raiseX_bind _ _ | with_reducible apply keeps_xlat
    | with_reducible apply keeps_loadWords | with_reducible apply keepsRun_bind | with_reducible exact keepsRun_pure _
    | with_reducible apply keepsRun_ite

theorem keeps_formAddr (e : Env) (opnd : Nat) (o : Opd) : KeepsRun (formAddr e opnd o) := by
  unfold formAddr
  repeat' first
    | with_reducible intro _ | with_reducible exact keeps_raiseX_bind _ _ | with_reducible apply keeps_getArch
    | with_reducible apply keeps_inFrame | with_reducible apply keeps_baseReg | with_reducible apply keeps_slotAddr
    | with_reducible apply keeps_readPointer | with_reducible apply keepsRun_bind | with_reducible exact keepsRun_pure _
    | with_reducible apply keepsRun_ite | split

theorem keeps_inWindow (e : Env) (o : Opd) (va size : Nat) : KeepsRun (inWindow e o va size) := by
  unfold inWindow
  repeat' first
    | with_reducible apply keeps_inFrame | with_reducible exact keepsRun_pure _ | with_reducible apply keepsRun_ite

theorem keeps_formOpd (e : Env) (opnd size : Nat) (k : AccKind) (o : Opd) : KeepsRun (formOpd e opnd size k o) := by
  unfold formOpd
  repeat' first
    | with_reducible intro _ | with_reducible apply keeps_formAcc | with_reducible apply keeps_formAddr
    | with_reducible apply keeps_inWindow | with_reducible apply keepsRun_bind | with_reducible exact keepsRun_pure _ | split

theorem keeps_readPlace (e : Env) (opnd size : Nat) (fp : Bool) (pl : Place) : KeepsRun (readPlace e opnd size fp pl) := by
  unfold readPlace
  repeat' first
    | with_reducible assumption | with_reducible intro _ | with_reducible apply keeps_took | with_reducible apply keeps_change
    | with_reducible apply keeps_getArch | with_reducible apply keeps_fenceAll | with_reducible apply keeps_loadWords
    | with_reducible apply keepsRun_get_bind | with_reducible apply keepsRun_bind | with_reducible exact keepsRun_pure _
    | with_reducible apply keepsRun_ite | split | with_reducible apply keepsAt_of

theorem keeps_checkSrc (s : Src) (ok : Tag → Bool) : KeepsRun (checkSrc s ok) := by
  unfold checkSrc
  repeat' first
    | with_reducible apply keeps_raiseX | with_reducible exact keepsRun_pure _ | with_reducible apply keepsRun_ite | split

theorem keeps_checkDst (pl : Place) (opnd : Nat) (t : Tag) : KeepsRun (checkDst pl opnd t) := by
  unfold checkDst
  repeat' first
    | with_reducible apply keeps_raiseX | with_reducible exact keepsRun_pure _ | with_reducible apply keepsRun_ite | split

theorem keeps_writePlace (e : Env) (size : Nat) (pl : Place) (v : Word) (t : Tag) : KeepsRun (writePlace e size pl v t) := by
  unfold writePlace
  repeat' first
    | with_reducible apply keeps_changeArch | with_reducible apply keeps_storeBytes | with_reducible exact keepsRun_pure _ | split

theorem keeps_fetchWords (e : Env) (ws : List Nat) : KeepsRun (fetchWords e ws) := by
  induction ws with
  | nil => exact keepsRun_pure _
  | cons w r ih =>
    unfold fetchWords
    repeat' first
      | exact ih | with_reducible apply keeps_xlat | with_reducible apply keeps_touchLine | with_reducible exact keepsRun_get
      | with_reducible apply keepsRun_bind | with_reducible apply keepsRun_ite | with_reducible apply keeps_raiseX
      | with_reducible exact keepsRun_pure _ | with_reducible intro _ | dsimp only

theorem keeps_countRetired {s00 s : State} (e : Env) (hk : Keeps s00 s) : Keeps s00 (countRetired e s) := by
  unfold countRetired
  repeat' first
    | with_reducible assumption | with_reducible intro _ | with_reducible apply keeps_setCore | with_reducible apply keeps_countEvent
    | with_reducible apply keeps_foldl

theorem keeps_retire {s00 s : State} (e : Env) (ss : Bool) (npc : BitVec 47) (hk : Keeps s00 s) : Keeps s00 (retire e ss npc s) := by
  unfold retire
  repeat' first
    | with_reducible assumption | with_reducible apply keeps_setCore | with_reducible apply keeps_takeException
    | with_reducible apply keeps_slideFrame | with_reducible apply keeps_countRetired | with_reducible apply keeps_ite

theorem keeps_stopWith {s00 s : State} (e : Env) (x : Exc) (hk : Keeps s00 s) : Keeps s00 (stopWith e x s) := by
  unfold stopWith
  repeat' first
    | with_reducible assumption | with_reducible apply keeps_setCore | with_reducible apply keeps_takeExceptionAt
    | with_reducible apply keeps_takeException | with_reducible apply keeps_dropSpec | with_reducible apply keeps_countRetired
    | with_reducible apply keeps_ite

theorem keeps_toRun {s00 s : State}  (hk : Keeps s00 s) : Keeps s00 (toRun s) := by
  unfold toRun
  repeat' first
    | with_reducible assumption | with_reducible apply keeps_setPower | with_reducible apply keeps_ite

theorem keeps_enterInstr (e : Env) (len : Nat) (legal : Bool) (level : Nat) : KeepsRun (enterInstr e len legal level) := by
  unfold enterInstr
  repeat' first
    | with_reducible intro _ | with_reducible exact keeps_raiseX_bind _ _ | with_reducible apply keeps_raiseX
    | with_reducible apply keeps_fetchWords | with_reducible apply keepsRun_bind | with_reducible exact keepsRun_pure _
    | with_reducible apply keepsRun_ite

theorem keeps_runInstr {s00 s : State} (a : At) (len : Nat) (legal : Bool) (level : Nat) (body : Env → CoreRun (BitVec 47))
    (hf : ∀ x, KeepsRun (body x)) (hk : Keeps s00 s) : Goes s00 (runInstr a len legal level body s) := by
  unfold runInstr
  refine goes_ite ?_ (goes_next hk)
  have h := keepsRun_bind (keeps_enterInstr (envOf s a.core.val len) len legal level) (fun _ => hf (envOf s a.core.val len)) s00 s hk
  split
  · rename_i q
    rw [q] at h
    exact goes_next (keeps_toRun (keeps_retire _ _ _ h))
  · rename_i q
    rw [q] at h
    exact goes_next (keeps_toRun (keeps_stopWith _ _ h))
  · exact goes_next (keeps_congr hk rfl rfl rfl rfl rfl rfl rfl rfl rfl)

theorem keeps_grantGait {s00 s : State} (gallop : List Nat) (k : Nat) (hk : Keeps s00 s) : Keeps s00 (grantGait gallop k s) := by
  unfold grantGait
  repeat' first
    | with_reducible assumption | with_reducible apply keeps_setCorePwr | with_reducible apply keeps_ite

theorem keeps_gaitEval {s00 s : State}  (hk : Keeps s00 s) : Keeps s00 (gaitEval s) := by
  unfold gaitEval
  repeat' first
    | with_reducible assumption | with_reducible intro _ | with_reducible apply keeps_grantGait | with_reducible apply keeps_ite
    | with_reducible apply keeps_foldl

theorem keeps_writeGaitReq {s00 s : State} (k : Nat) (v : BitVec 2) (hk : Keeps s00 s) : Keeps s00 (writeGaitReq k v s) := by
  unfold writeGaitReq
  repeat' first
    | with_reducible assumption | with_reducible apply keeps_setCore | with_reducible apply keeps_gaitEval
    | with_reducible apply keeps_ite | dsimp only | refine keeps_mk ?_ rfl rfl rfl rfl rfl rfl rfl rfl rfl

theorem keeps_setTargetIc {s00 s : State} (t : Tgt) (i : Ic) (hk : Keeps s00 s) : Keeps s00 (setTargetIc t i s) := by
  unfold setTargetIc
  repeat' first
    | with_reducible assumption | with_reducible apply keeps_setCore | with_reducible apply keeps_setRein | split

theorem keeps_acknowledge {s00 s : State} (n : Nat) (t : Tgt) (hk : Keeps s00 s) : Keeps s00 (acknowledge n t s) := by
  unfold acknowledge
  repeat' first
    | with_reducible assumption | with_reducible apply keeps_setSource | with_reducible apply keeps_clearSource
    | with_reducible apply keeps_ite | split

theorem keeps_icAck {s00 s : State} (t : Tgt) (hk : Keeps s00 s) : Keeps s00 (icAck t s).2 := by
  unfold icAck
  repeat' first
    | with_reducible assumption | with_reducible apply keeps_setTargetIc | with_reducible apply keeps_acknowledge
    | with_reducible apply keeps_ite | split

theorem keeps_icEoi {s00 s : State} (t : Tgt) (n : BitVec 11) (hk : Keeps s00 s) : Keeps s00 (icEoi t n s).2 := by
  unfold icEoi
  repeat' first
    | with_reducible assumption | with_reducible apply keeps_odBump | with_reducible apply keeps_setTargetIc
    | with_reducible apply keeps_pair_ite | split

theorem keeps_icMode {s00 s : State} (t : Tgt) (b : Bool) (hk : Keeps s00 s) : Keeps s00 (icMode t b s).2 := by
  unfold icMode
  repeat' first
    | with_reducible assumption | with_reducible apply keeps_setTargetIc | with_reducible apply keeps_pair_ite

theorem keeps_icStatus {s00 s : State} (t : Tgt) (hk : Keeps s00 s) : Keeps s00 (icStatus t s).2 := by
  unfold icStatus
  repeat' first
    | with_reducible assumption | with_reducible apply keeps_setTargetIc

theorem keeps_takeInterrupt {s00 s : State} (k : Nat) (hk : Keeps s00 s) : Keeps s00 (takeInterrupt k s) := by
  unfold takeInterrupt
  repeat' first
    | with_reducible assumption | with_reducible apply keeps_takeExceptionAt

theorem keeps_execInterruptTake {s00 s : State} (c : CoreId) (hk : Keeps s00 s) : Goes s00 (execInterruptTake c s) := by
  unfold execInterruptTake
  repeat' first
    | with_reducible assumption | with_reducible apply keeps_setCore | with_reducible apply keeps_takeInterrupt
    | with_reducible apply goes_next | with_reducible apply goes_ite | with_reducible apply keeps_ite

theorem keeps_runStall {s00 s : State} (n k : Nat) (r : SwitchRec) (hk : Keeps s00 s) : Keeps s00 (runStall n k r s) := by
  unfold runStall
  repeat' first
    | with_reducible assumption | with_reducible apply keeps_setCore | with_reducible apply keeps_wakeCore
    | with_reducible apply keeps_dropSpec | with_reducible apply keeps_leaveWindow

theorem keeps_startStall {s00 s : State} (n k : Nat) (hk : Keeps s00 s) : Keeps s00 (startStall n k s) := by
  unfold startStall
  repeat' first
    | with_reducible assumption | with_reducible apply keeps_setStall | with_reducible apply keeps_runStall

theorem keeps_resetSource {s00 s : State} (i : Nat) (hk : Keeps s00 s) : Keeps s00 (resetSource i s) := by
  unfold resetSource
  repeat' first
    | with_reducible assumption | with_reducible apply keeps_noteBag | with_reducible apply keeps_setSource
    | with_reducible apply keeps_ite

theorem keeps_disableSource {s00 s : State} (i : Nat) (hk : Keeps s00 s) : Keeps s00 (disableSource i s) := by
  unfold disableSource
  repeat' first
    | with_reducible assumption | with_reducible apply keeps_noteBag | with_reducible apply keeps_setSource

theorem keeps_passSources {s00 s : State} (k : Nat) (hk : Keeps s00 s) : Keeps s00 (passSources k s) := by
  unfold passSources
  repeat' first
    | with_reducible assumption | with_reducible apply keeps_disableSource

theorem keeps_disableTargets {s00 s : State} (n k : Nat) (hk : Keeps s00 s) : Keeps s00 (disableTargets n k s) :=
  keeps_foldl _ (fun _ _ h => keeps_ite (keeps_disableSource _ h) h) hk

theorem keeps_finishLeaving {s00 s : State} (n : Nat) (hk : Keeps s00 s) : Keeps s00 (finishLeaving n s) := by
  unfold finishLeaving
  repeat' first
    | with_reducible assumption | with_reducible apply keeps_pathSet | with_reducible apply keeps_ite

theorem keeps_leaveCore {s00 s : State} (n k : Nat) (hk : Keeps s00 s) : Keeps s00 (leaveCore n k s) := by
  unfold leaveCore
  repeat' first
    | with_reducible assumption | with_reducible apply keeps_setCore | with_reducible apply keeps_setStall
    | with_reducible apply keeps_dropSpec | with_reducible apply keeps_leaveWindow | with_reducible apply keeps_resetSource
    | with_reducible apply keeps_disableTargets | with_reducible apply keeps_finishLeaving | with_reducible apply keeps_ite

theorem keeps_switchStall {s00 s : State} (k n : Nat) (hk : Keeps s00 s) : Keeps s00 (switchStall k n s) := by
  unfold switchStall
  repeat' first
    | with_reducible assumption | with_reducible apply keeps_setCore | with_reducible apply keeps_runStall
    | with_reducible apply keeps_startStall | with_reducible apply keeps_ite | split | dsimp only

theorem keeps_evalStall {s00 s : State} (n : Nat) (hk : Keeps s00 s) : Keeps s00 (evalStall n s) := by
  unfold evalStall
  repeat' first
    | with_reducible assumption | with_reducible apply keeps_setStall | with_reducible apply keeps_raise | with_reducible apply keeps_ite

theorem keeps_evalStalls {s00 s : State}  (hk : Keeps s00 s) : Keeps s00 (evalStalls s) := by
  unfold evalStalls
  repeat' first
    | with_reducible assumption | with_reducible intro _ | with_reducible apply keeps_evalStall | with_reducible apply keeps_foldl

theorem keeps_leaveAtWfi {s00 s : State} (k : Nat) (hk : Keeps s00 s) : Keeps s00 (leaveAtWfi k s) := by
  unfold leaveAtWfi
  repeat' first
    | with_reducible assumption | with_reducible apply keeps_leaveCore | with_reducible apply keeps_evalStalls
    | with_reducible apply keeps_ite

theorem keeps_setStallState {s00 s : State} (n : Nat) (x : StallState) (hk : Keeps s00 s) : Keeps s00 (setStallState n x s) := by
  unfold setStallState
  repeat' first
    | with_reducible assumption | with_reducible apply keeps_setStall | with_reducible apply keeps_raise

theorem keeps_crRead {s00 s : State} (e : Env) (n : Nat) (hk : Keeps s00 s) : Keeps s00 (crRead e n s).2 := by
  unfold crRead
  repeat' first
    | with_reducible assumption | with_reducible apply keeps_icAck | with_reducible apply keeps_icStatus
    | with_reducible apply keeps_pair_ite | dsimp only | refine keeps_mk ?_ rfl rfl rfl rfl rfl rfl rfl rfl rfl

theorem keeps_setArch {s00 s : State} (c : Nat) (f : Arch → Arch) (hk : Keeps s00 s) : Keeps s00 (State.setArch s c f) := by
  unfold State.setArch
  repeat' first
    | with_reducible assumption | with_reducible apply keeps_setCore

theorem keeps_writePmstatus {s00 s : State} (c : Nat) (v : Word) (hk : Keeps s00 s) : Keeps s00 (writePmstatus c v s) := by
  unfold writePmstatus
  repeat' first
    | with_reducible assumption | with_reducible apply keeps_clearOvf

theorem keeps_writeSampleInfo {s00 s : State} (c : Nat) (v : Word) (hk : Keeps s00 s) : Keeps s00 (writeSampleInfo c v s) := by
  unfold writeSampleInfo
  repeat' first
    | with_reducible assumption | dsimp only | refine keeps_mk ?_ rfl rfl rfl rfl rfl rfl rfl rfl rfl

theorem keeps_crWrite {s00 s : State} (e : Env) (n : Nat) (t : TWord) (hk : Keeps s00 s) : Keeps s00 (crWrite e n t s).2 := by
  unfold crWrite
  repeat' first
    | with_reducible assumption | with_reducible apply keeps_setCounter | with_reducible apply keeps_setPending
    | with_reducible apply keeps_setFreeze | with_reducible apply keeps_writeGaitReq | with_reducible apply keeps_icEoi
    | with_reducible apply keeps_icMode | with_reducible apply keeps_setArch | with_reducible apply keeps_writePmstatus
    | with_reducible apply keeps_writeSampleInfo | with_reducible apply keeps_pair_ite

theorem keeps_crGate (e : Env) (n : Nat) (write : Bool) : KeepsRun (crGate e n write) := by
  unfold crGate
  repeat' first
    | with_reducible assumption | with_reducible intro _ | with_reducible exact keeps_raiseX_bind _ _ | with_reducible apply keeps_odBump
    | with_reducible apply keeps_raiseX | with_reducible apply keeps_change | with_reducible apply keepsRun_get_bind
    | with_reducible apply keepsRun_bind | with_reducible exact keepsAt_pure | with_reducible apply keepsAt_ite | split | dsimp only
    | with_reducible apply keepsAt_of

theorem keeps_mfcrBody (n : Nat) (d : Opd) (e : Env) : KeepsRun (mfcrBody n d e) := by
  unfold mfcrBody
  refine keepsRun_bind (keeps_crGate _ _ _) (fun _ => keepsRun_bind (keeps_formOpd _ _ _ _ _) (fun p => keepsRun_get_bind (fun s => ?_)))
  refine keepsAt_quiet_bind (s := s) ?_ (fun _ => keepsAt_set_bind (fun _ h => keeps_crRead _ _ h)
    (keepsAt_of (keepsRun_bind (keeps_writePlace _ _ _ _ _) (fun _ => keepsRun_pure _))))
  unfold checkDst
  split
  · dsimp only
    split
    · rfl
    · rfl
  · rfl

theorem keeps_mtcrBody (n : Nat) (o : Opd) (e : Env) : KeepsRun (mtcrBody n o e) := by
  unfold mtcrBody
  repeat' first
    | with_reducible assumption | with_reducible intro _ | with_reducible exact keeps_raiseX_bind _ _ | with_reducible apply keeps_odBump
    | with_reducible apply keeps_change | with_reducible apply keeps_fenceAll | with_reducible apply keeps_formOpd
    | with_reducible apply keeps_readPlace | with_reducible apply keeps_checkSrc | with_reducible apply keeps_crWrite
    | with_reducible apply keeps_crGate | with_reducible apply keepsRun_get_bind | with_reducible apply keepsRun_bind
    | with_reducible apply keepsRun_ite | with_reducible exact keepsAt_pure | with_reducible apply keepsAt_ite
    | with_reducible apply keepsAt_set_bind | with_reducible apply keepsAt_get_bind | split | dsimp only
    | with_reducible apply keepsAt_of

theorem keeps_takeFree : KeepsRun takeFree := by
  unfold takeFree
  exact keepsRun_get_bind (fun s => keepsAt_set_bind (fun _ h => keeps_took h) keepsAt_pure)

theorem keeps_aluBody (op : Alu) (n : Nat) (d s : Opd) (e : Env) : KeepsRun (aluBody op n d s e) := by
  unfold aluBody
  repeat' first
    | with_reducible intro _ | with_reducible exact keeps_raiseX_bind _ _ | with_reducible apply keeps_changeArch
    | with_reducible apply keeps_getArch | with_reducible apply keeps_formOpd | with_reducible apply keeps_readPlace
    | with_reducible apply keeps_checkSrc | with_reducible apply keeps_checkDst | with_reducible apply keeps_writePlace
    | with_reducible apply keeps_takeFree | with_reducible apply keepsRun_bind | with_reducible exact keepsRun_pure _
    | with_reducible apply keepsRun_ite

theorem keeps_aluInstr {s00 st : State} (op : Alu) (a : At) (sz : Sz) (d s : Opd) (hk : Keeps s00 st) : Goes s00 (aluInstr op a sz d s st) := by
  unfold aluInstr
  repeat' first
    | with_reducible assumption | with_reducible intro _ | with_reducible apply keeps_runInstr | with_reducible apply keeps_aluBody

theorem keeps_moveBody (fp : Bool) (n : Nat) (d s : Opd) (e : Env) : KeepsRun (moveBody fp n d s e) := by
  unfold moveBody
  repeat' first
    | with_reducible intro _ | with_reducible apply keeps_formOpd | with_reducible apply keeps_readPlace
    | with_reducible apply keeps_checkSrc | with_reducible apply keeps_checkDst | with_reducible apply keeps_writePlace
    | with_reducible apply keepsRun_bind | with_reducible exact keepsRun_pure _ | with_reducible apply keepsRun_ite

theorem keeps_execMov {s00 st : State} (a : At) (sz : Sz) (d s : Opd) (hk : Keeps s00 st) : Goes s00 (execMov a sz d s st) := by
  unfold execMov
  repeat' first
    | with_reducible assumption | with_reducible intro _ | with_reducible apply keeps_runInstr | with_reducible apply keeps_moveBody

theorem keeps_execSxt {s00 st : State} (a : At) (sz : Sz) (d s : Opd) (hk : Keeps s00 st) : Goes s00 (execSxt a sz d s st) := by
  unfold execSxt
  repeat' first
    | with_reducible assumption | with_reducible intro _ | with_reducible apply keeps_formOpd | with_reducible apply keeps_readPlace
    | with_reducible apply keeps_checkSrc | with_reducible apply keeps_checkDst | with_reducible apply keeps_writePlace
    | with_reducible apply keeps_runInstr | with_reducible apply keepsRun_bind | with_reducible exact keepsRun_pure _

theorem keeps_execXchg {s00 st : State} (a : At) (d s : Opd) (hk : Keeps s00 st) : Goes s00 (execXchg a d s st) := by
  unfold execXchg
  repeat' first
    | with_reducible assumption | with_reducible intro _ | with_reducible apply keeps_formOpd | with_reducible apply keeps_readPlace
    | with_reducible apply keeps_checkSrc | with_reducible apply keeps_checkDst | with_reducible apply keeps_writePlace
    | with_reducible apply keeps_runInstr | with_reducible apply keepsRun_bind | with_reducible exact keepsRun_pure _
    | with_reducible apply keepsRun_ite

theorem keeps_execAdd {s00 st : State} (a : At) (sz : Sz) (d s : Opd) (hk : Keeps s00 st) : Goes s00 (execAdd a sz d s st) := by
  unfold execAdd
  repeat' first
    | with_reducible assumption | with_reducible apply keeps_aluInstr

theorem keeps_execSub {s00 st : State} (a : At) (sz : Sz) (d s : Opd) (hk : Keeps s00 st) : Goes s00 (execSub a sz d s st) := by
  unfold execSub
  repeat' first
    | with_reducible assumption | with_reducible apply keeps_aluInstr

theorem keeps_execAnd {s00 st : State} (a : At) (sz : Sz) (d s : Opd) (hk : Keeps s00 st) : Goes s00 (execAnd a sz d s st) := by
  unfold execAnd
  repeat' first
    | with_reducible assumption | with_reducible apply keeps_aluInstr

theorem keeps_execOr {s00 st : State} (a : At) (sz : Sz) (d s : Opd) (hk : Keeps s00 st) : Goes s00 (execOr a sz d s st) := by
  unfold execOr
  repeat' first
    | with_reducible assumption | with_reducible apply keeps_aluInstr

theorem keeps_execXor {s00 st : State} (a : At) (sz : Sz) (d s : Opd) (hk : Keeps s00 st) : Goes s00 (execXor a sz d s st) := by
  unfold execXor
  repeat' first
    | with_reducible assumption | with_reducible apply keeps_aluInstr

theorem keeps_execAdc {s00 st : State} (a : At) (sz : Sz) (d s : Opd) (hk : Keeps s00 st) : Goes s00 (execAdc a sz d s st) := by
  unfold execAdc
  repeat' first
    | with_reducible assumption | with_reducible apply keeps_aluInstr

theorem keeps_execSbb {s00 st : State} (a : At) (sz : Sz) (d s : Opd) (hk : Keeps s00 st) : Goes s00 (execSbb a sz d s st) := by
  unfold execSbb
  repeat' first
    | with_reducible assumption | with_reducible apply keeps_aluInstr

theorem keeps_execShl {s00 st : State} (a : At) (sz : Sz) (d s : Opd) (hk : Keeps s00 st) : Goes s00 (execShl a sz d s st) := by
  unfold execShl
  repeat' first
    | with_reducible assumption | with_reducible apply keeps_aluInstr

theorem keeps_execShr {s00 st : State} (a : At) (sz : Sz) (d s : Opd) (hk : Keeps s00 st) : Goes s00 (execShr a sz d s st) := by
  unfold execShr
  repeat' first
    | with_reducible assumption | with_reducible apply keeps_aluInstr

theorem keeps_execSar {s00 st : State} (a : At) (sz : Sz) (d s : Opd) (hk : Keeps s00 st) : Goes s00 (execSar a sz d s st) := by
  unfold execSar
  repeat' first
    | with_reducible assumption | with_reducible apply keeps_aluInstr

theorem keeps_execRol {s00 st : State} (a : At) (sz : Sz) (d s : Opd) (hk : Keeps s00 st) : Goes s00 (execRol a sz d s st) := by
  unfold execRol
  repeat' first
    | with_reducible assumption | with_reducible apply keeps_aluInstr

theorem keeps_execMul {s00 st : State} (a : At) (sz : Sz) (d s : Opd) (hk : Keeps s00 st) : Goes s00 (execMul a sz d s st) := by
  unfold execMul
  repeat' first
    | with_reducible assumption | with_reducible apply keeps_aluInstr

theorem keeps_execMulh {s00 st : State} (a : At) (sz : Sz) (d s : Opd) (hk : Keeps s00 st) : Goes s00 (execMulh a sz d s st) := by
  unfold execMulh
  repeat' first
    | with_reducible assumption | with_reducible apply keeps_aluInstr

theorem keeps_execDiv {s00 st : State} (a : At) (sz : Sz) (d s : Opd) (hk : Keeps s00 st) : Goes s00 (execDiv a sz d s st) := by
  unfold execDiv
  repeat' first
    | with_reducible assumption | with_reducible apply keeps_aluInstr

theorem keeps_execDivu {s00 st : State} (a : At) (sz : Sz) (d s : Opd) (hk : Keeps s00 st) : Goes s00 (execDivu a sz d s st) := by
  unfold execDivu
  repeat' first
    | with_reducible assumption | with_reducible apply keeps_aluInstr

theorem keeps_compareBody (op : Alu) (n : Nat) (d s : Opd) (e : Env) : KeepsRun (compareBody op n d s e) := by
  unfold compareBody
  repeat' first
    | with_reducible intro _ | with_reducible apply keeps_changeArch | with_reducible apply keeps_formOpd
    | with_reducible apply keeps_readPlace | with_reducible apply keeps_checkSrc | with_reducible apply keepsRun_bind
    | with_reducible exact keepsRun_pure _

theorem keeps_execCmp {s00 st : State} (a : At) (sz : Sz) (d s : Opd) (hk : Keeps s00 st) : Goes s00 (execCmp a sz d s st) := by
  unfold execCmp
  repeat' first
    | with_reducible assumption | with_reducible intro _ | with_reducible apply keeps_runInstr | with_reducible apply keeps_compareBody

theorem keeps_execTst {s00 st : State} (a : At) (sz : Sz) (d s : Opd) (hk : Keeps s00 st) : Goes s00 (execTst a sz d s st) := by
  unfold execTst
  repeat' first
    | with_reducible assumption | with_reducible intro _ | with_reducible apply keeps_runInstr | with_reducible apply keeps_compareBody

theorem keeps_unaryBody (n : Nat) (d : Opd) (f : Nat → AluOut) (e : Env) : KeepsRun (unaryBody n d f e) := by
  unfold unaryBody
  repeat' first
    | with_reducible intro _ | with_reducible apply keeps_changeArch | with_reducible apply keeps_formOpd
    | with_reducible apply keeps_readPlace | with_reducible apply keeps_checkSrc | with_reducible apply keeps_writePlace
    | with_reducible apply keepsRun_bind | with_reducible exact keepsRun_pure _

theorem keeps_execNeg {s00 st : State} (a : At) (sz : Sz) (d : Opd) (hk : Keeps s00 st) : Goes s00 (execNeg a sz d st) := by
  unfold execNeg
  repeat' first
    | with_reducible assumption | with_reducible intro _ | with_reducible apply keeps_runInstr | with_reducible apply keeps_unaryBody

theorem keeps_execNot {s00 st : State} (a : At) (sz : Sz) (d : Opd) (hk : Keeps s00 st) : Goes s00 (execNot a sz d st) := by
  unfold execNot
  repeat' first
    | with_reducible assumption | with_reducible intro _ | with_reducible apply keeps_runInstr | with_reducible apply keeps_unaryBody

theorem keeps_leaBody (t : Tag) (d s : Opd) (e : Env) : KeepsRun (leaBody t d s e) := by
  unfold leaBody
  repeat' first
    | with_reducible intro _ | with_reducible apply keeps_formAddr | with_reducible apply keeps_formOpd
    | with_reducible apply keeps_checkDst | with_reducible apply keeps_writePlace | with_reducible apply keepsRun_bind
    | with_reducible exact keepsRun_pure _

theorem keeps_execLea {s00 st : State} (a : At) (d s : Opd) (hk : Keeps s00 st) : Goes s00 (execLea a d s st) := by
  unfold execLea
  repeat' first
    | with_reducible assumption | with_reducible intro _ | with_reducible apply keeps_runInstr | with_reducible apply keeps_leaBody

theorem keeps_execLeac {s00 st : State} (a : At) (d s : Opd) (hk : Keeps s00 st) : Goes s00 (execLeac a d s st) := by
  unfold execLeac
  repeat' first
    | with_reducible assumption | with_reducible intro _ | with_reducible apply keeps_runInstr | with_reducible apply keeps_leaBody

theorem keeps_stackAddr (e : Env) (r : Nat) (d : Int) : KeepsRun (stackAddr e r d) := by
  unfold stackAddr
  repeat' first
    | with_reducible intro _ | with_reducible exact keeps_raiseX_bind _ _ | with_reducible apply keeps_baseReg
    | with_reducible apply keepsRun_bind | with_reducible exact keepsRun_pure _ | with_reducible apply keepsRun_ite

theorem keeps_execPush {s00 st : State} (a : At) (o : Opd) (hk : Keeps s00 st) : Goes s00 (execPush a o st) := by
  unfold execPush
  repeat' first
    | with_reducible assumption | with_reducible intro _ | with_reducible apply keeps_changeArch | with_reducible apply keeps_formAcc
    | with_reducible apply keeps_formOpd | with_reducible apply keeps_readPlace | with_reducible apply keeps_checkSrc
    | with_reducible apply keeps_checkDst | with_reducible apply keeps_writePlace | with_reducible apply keeps_runInstr
    | with_reducible apply keeps_stackAddr | with_reducible apply keepsRun_bind | with_reducible exact keepsRun_pure _
    | with_reducible apply keepsRun_ite

theorem keeps_execPop {s00 st : State} (a : At) (d : Opd) (hk : Keeps s00 st) : Goes s00 (execPop a d st) := by
  unfold execPop
  repeat' first
    | with_reducible assumption | with_reducible intro _ | with_reducible apply keeps_changeArch | with_reducible apply keeps_formAcc
    | with_reducible apply keeps_formOpd | with_reducible apply keeps_readPlace | with_reducible apply keeps_checkSrc
    | with_reducible apply keeps_checkDst | with_reducible apply keeps_writePlace | with_reducible apply keeps_runInstr
    | with_reducible apply keeps_stackAddr | with_reducible apply keepsRun_bind | with_reducible exact keepsRun_pure _
    | with_reducible apply keepsRun_ite

theorem keeps_execEnter {s00 st : State} (a : At) (n : BitVec 16) (hk : Keeps s00 st) : Goes s00 (execEnter a n st) := by
  unfold execEnter
  repeat' first
    | with_reducible assumption | with_reducible intro _ | with_reducible apply keeps_changeArch | with_reducible apply keeps_getArch
    | with_reducible apply keeps_formAcc | with_reducible apply keeps_checkDst | with_reducible apply keeps_writePlace
    | with_reducible apply keeps_runInstr | with_reducible apply keeps_stackAddr | with_reducible apply keepsRun_bind
    | with_reducible exact keepsRun_pure _

theorem keeps_execLeave {s00 st : State} (a : At) (n : BitVec 16) (hk : Keeps s00 st) : Goes s00 (execLeave a n st) := by
  unfold execLeave
  repeat' first
    | with_reducible assumption | with_reducible intro _ | with_reducible apply keeps_changeArch | with_reducible apply keeps_formAcc
    | with_reducible apply keeps_readPlace | with_reducible apply keeps_runInstr | with_reducible apply keeps_stackAddr
    | with_reducible apply keepsRun_bind | with_reducible exact keepsRun_pure _

theorem keeps_noteWrong (e : Env) (wrong : Bool) : KeepsRun (noteWrong e wrong) := by
  unfold noteWrong
  repeat' first
    | with_reducible assumption | with_reducible intro _ | with_reducible apply keeps_change | with_reducible apply keeps_note
    | with_reducible apply keeps_dropSpec | with_reducible apply keepsRun_get_bind | with_reducible apply keepsRun_bind
    | with_reducible exact keepsAt_pure | with_reducible apply keepsAt_ite | with_reducible apply keepsAt_of

theorem keeps_predictDirection (e : Env) (hint taken : Bool) : KeepsRun (predictDirection e hint taken) := by
  unfold predictDirection
  repeat' first
    | with_reducible assumption | with_reducible intro _ | with_reducible apply keeps_took | with_reducible apply keeps_setCore
    | with_reducible apply keeps_change | with_reducible apply keeps_noteWrong | with_reducible apply keepsRun_get_bind
    | with_reducible apply keepsRun_bind | with_reducible exact keepsRun_pure _ | split | dsimp only | with_reducible apply keepsAt_of

theorem keeps_predictTarget (e : Env) (target : BitVec 47) : KeepsRun (predictTarget e target) := by
  unfold predictTarget
  repeat' first
    | with_reducible intro _ | with_reducible apply keeps_noteWrong | with_reducible apply keepsRun_get_bind
    | with_reducible apply keepsAt_of

theorem keeps_predictReturn (e : Env) (target : BitVec 47) : KeepsRun (predictReturn e target) := by
  unfold predictReturn
  repeat' first
    | with_reducible intro _ | with_reducible apply keeps_noteWrong | with_reducible apply keeps_predictTarget
    | with_reducible apply keepsRun_get_bind | with_reducible apply keepsAt_ite | split | dsimp only | with_reducible apply keepsAt_of

theorem keeps_noteTaken (e : Env) (target : BitVec 47) : KeepsRun (noteTaken e target) := by
  unfold noteTaken
  repeat' first
    | with_reducible assumption | with_reducible intro _ | with_reducible apply keeps_setCore | with_reducible apply keeps_change
    | with_reducible apply keeps_ite

theorem keeps_pushReturn (e : Env) : KeepsRun (pushReturn e) := by
  unfold pushReturn
  repeat' first
    | with_reducible assumption | with_reducible intro _ | with_reducible apply keeps_setCore | with_reducible apply keeps_change
    | with_reducible apply keeps_ite

theorem keeps_popReturn (e : Env) : KeepsRun (popReturn e) := by
  unfold popReturn
  repeat' first
    | with_reducible assumption | with_reducible intro _ | with_reducible apply keeps_setCore | with_reducible apply keeps_change
    | with_reducible apply keeps_ite

theorem keeps_execBcc {s00 st : State} (a : At) (cond : BitVec 4) (hint : Bool) (d : Disp) (hk : Keeps s00 st) : Goes s00 (execBcc a cond hint d st) := by
  unfold execBcc
  repeat' first
    | with_reducible assumption | with_reducible intro _ | with_reducible apply keeps_getArch | with_reducible apply keeps_runInstr
    | with_reducible apply keeps_predictDirection | with_reducible apply keeps_noteTaken | with_reducible apply keepsRun_bind
    | with_reducible exact keepsRun_pure _ | with_reducible apply keepsRun_ite

theorem keeps_execBr {s00 st : State} (a : At) (d : Disp) (hk : Keeps s00 st) : Goes s00 (execBr a d st) := by
  unfold execBr
  repeat' first
    | with_reducible assumption | with_reducible intro _ | with_reducible apply keeps_runInstr | with_reducible apply keeps_noteTaken
    | with_reducible apply keepsRun_bind | with_reducible exact keepsRun_pure _

theorem keeps_pushLink (e : Env) (acc : Acc) : KeepsRun (pushLink e acc) := by
  unfold pushLink
  repeat' first
    | with_reducible intro _ | with_reducible apply keeps_changeArch | with_reducible apply keeps_writePlace
    | with_reducible apply keeps_pushReturn | with_reducible apply keepsRun_bind

theorem keeps_execCall {s00 st : State} (a : At) (d : BitVec 32) (hk : Keeps s00 st) : Goes s00 (execCall a d st) := by
  unfold execCall
  repeat' first
    | with_reducible assumption | with_reducible intro _ | with_reducible apply keeps_formAcc | with_reducible apply keeps_checkDst
    | with_reducible apply keeps_runInstr | with_reducible apply keeps_stackAddr | with_reducible apply keeps_noteTaken
    | with_reducible apply keeps_pushLink | with_reducible apply keepsRun_bind | with_reducible exact keepsRun_pure _

theorem keeps_checkTarget (y : Src) : KeepsRun (checkTarget y) := by
  unfold checkTarget
  repeat' first
    | with_reducible apply keeps_raiseX | with_reducible exact keepsRun_pure _ | with_reducible apply keepsRun_ite | split

theorem keeps_execCalli {s00 st : State} (a : At) (o : Opd) (hk : Keeps s00 st) : Goes s00 (execCalli a o st) := by
  unfold execCalli
  repeat' first
    | with_reducible assumption | with_reducible intro _ | with_reducible apply keeps_formAcc | with_reducible apply keeps_formOpd
    | with_reducible apply keeps_readPlace | with_reducible apply keeps_checkDst | with_reducible apply keeps_runInstr
    | with_reducible apply keeps_stackAddr | with_reducible apply keeps_predictTarget | with_reducible apply keeps_noteTaken
    | with_reducible apply keeps_pushLink | with_reducible apply keeps_checkTarget | with_reducible apply keepsRun_bind
    | with_reducible exact keepsRun_pure _

theorem keeps_execBri {s00 st : State} (a : At) (o : Opd) (hk : Keeps s00 st) : Goes s00 (execBri a o st) := by
  unfold execBri
  repeat' first
    | with_reducible assumption | with_reducible intro _ | with_reducible apply keeps_formOpd | with_reducible apply keeps_readPlace
    | with_reducible apply keeps_runInstr | with_reducible apply keeps_predictTarget | with_reducible apply keeps_noteTaken
    | with_reducible apply keeps_checkTarget | with_reducible apply keepsRun_bind | with_reducible exact keepsRun_pure _

theorem keeps_execRet {s00 st : State} (a : At) (hk : Keeps s00 st) : Goes s00 (execRet a st) := by
  unfold execRet
  repeat' first
    | with_reducible assumption | with_reducible intro _ | with_reducible apply keeps_changeArch | with_reducible apply keeps_formAcc
    | with_reducible apply keeps_readPlace | with_reducible apply keeps_runInstr | with_reducible apply keeps_stackAddr
    | with_reducible apply keeps_predictReturn | with_reducible apply keeps_noteTaken | with_reducible apply keeps_popReturn
    | with_reducible apply keeps_checkTarget | with_reducible apply keepsRun_bind | with_reducible exact keepsRun_pure _

theorem keeps_execNop {s00 st : State} (a : At) (hk : Keeps s00 st) : Goes s00 (execNop a st) := by
  unfold execNop
  repeat' first
    | with_reducible assumption | with_reducible intro _ | with_reducible apply keeps_runInstr | with_reducible exact keepsRun_pure _

theorem keeps_execWfi {s00 st : State} (a : At) (hk : Keeps s00 st) : Goes s00 (execWfi a st) := by
  unfold execWfi
  obtain ⟨t, q, h⟩ := keeps_runInstr a (instrLen a 1 [] 0) a.pfx.isEmpty 1 (fun e => do
    change (fun s => s.setCore e.c { s.core e.c with waiting := true })
    return e.npc) (fun _ => keepsRun_bind (keeps_change _ (fun _ _ k => keeps_setCore _ _ k)) (fun _ => keepsRun_pure _)) hk
  rw [q]
  exact goes_next (keeps_leaveAtWfi _ h)

theorem keeps_execBrk {s00 st : State} (a : At) (hk : Keeps s00 st) : Goes s00 (execBrk a st) := by
  unfold execBrk
  repeat' first
    | with_reducible assumption | with_reducible intro _ | with_reducible apply keeps_raiseX | with_reducible apply keeps_runInstr

theorem keeps_execSvc {s00 st : State} (a : At) (v : BitVec 8) (hk : Keeps s00 st) : Goes s00 (execSvc a v st) := by
  unfold execSvc
  repeat' first
    | with_reducible assumption | with_reducible intro _ | with_reducible apply keeps_raiseX | with_reducible apply keeps_runInstr

theorem keeps_execEret {s00 st : State} (a : At) (hk : Keeps s00 st) : Goes s00 (execEret a st) := by
  unfold execEret
  repeat' first
    | with_reducible assumption | with_reducible intro _ | with_reducible exact keeps_raiseX_bind _ _
    | with_reducible apply keeps_changeArch | with_reducible apply keeps_getArch | with_reducible apply keeps_runInstr
    | with_reducible apply keepsRun_bind | with_reducible exact keepsRun_pure _ | with_reducible apply keepsRun_ite

theorem keeps_execFence {s00 st : State} (a : At) (hk : Keeps s00 st) : Goes s00 (execFence a st) := by
  unfold execFence
  repeat' first
    | with_reducible assumption | with_reducible intro _ | with_reducible apply keeps_fenceAll | with_reducible apply keeps_runInstr
    | with_reducible apply keepsRun_bind | with_reducible exact keepsRun_pure _

theorem keeps_execFenceSe {s00 st : State} (a : At) (hk : Keeps s00 st) : Goes s00 (execFenceSe a st) := by
  unfold execFenceSe
  repeat' first
    | with_reducible assumption | with_reducible intro _ | with_reducible apply keeps_fenceAll | with_reducible apply keeps_runInstr
    | with_reducible apply keepsRun_bind | with_reducible exact keepsRun_pure _

theorem keeps_execIsync {s00 st : State} (a : At) (hk : Keeps s00 st) : Goes s00 (execIsync a st) := by
  unfold execIsync
  repeat' first
    | with_reducible assumption | with_reducible intro _ | with_reducible apply keeps_setCore | with_reducible apply keeps_change
    | with_reducible apply keeps_fenceAll | with_reducible apply keeps_runInstr | with_reducible apply keepsRun_bind
    | with_reducible exact keepsRun_pure _

theorem keeps_execTagr {s00 st : State} (a : At) (d s : Opd) (hk : Keeps s00 st) : Goes s00 (execTagr a d s st) := by
  unfold execTagr
  repeat' first
    | with_reducible assumption | with_reducible intro _ | with_reducible apply keeps_formOpd | with_reducible apply keeps_readPlace
    | with_reducible apply keeps_checkSrc | with_reducible apply keeps_writePlace | with_reducible apply keeps_runInstr
    | with_reducible apply keepsRun_bind | with_reducible exact keepsRun_pure _

theorem keeps_execTtest {s00 st : State} (a : At) (s : Opd) (t : BitVec 8) (hk : Keeps s00 st) : Goes s00 (execTtest a s t st) := by
  unfold execTtest
  repeat' first
    | with_reducible assumption | with_reducible intro _ | with_reducible apply keeps_changeArch | with_reducible apply keeps_formOpd
    | with_reducible apply keeps_readPlace | with_reducible apply keeps_checkSrc | with_reducible apply keeps_runInstr
    | with_reducible apply keepsRun_bind | with_reducible exact keepsRun_pure _

theorem keeps_retagBody (ok : Tag → Bool) (t : Tag) (d s : Opd) (e : Env) : KeepsRun (retagBody ok t d s e) := by
  unfold retagBody
  repeat' first
    | with_reducible intro _ | with_reducible apply keeps_formOpd | with_reducible apply keeps_readPlace
    | with_reducible apply keeps_checkSrc | with_reducible apply keeps_checkDst | with_reducible apply keeps_writePlace
    | with_reducible apply keepsRun_bind | with_reducible exact keepsRun_pure _

theorem keeps_execPtrint {s00 st : State} (a : At) (d s : Opd) (hk : Keeps s00 st) : Goes s00 (execPtrint a d s st) := by
  unfold execPtrint
  repeat' first
    | with_reducible assumption | with_reducible intro _ | with_reducible apply keeps_runInstr | with_reducible apply keeps_retagBody

theorem keeps_execMkptr {s00 st : State} (a : At) (d s : Opd) (hk : Keeps s00 st) : Goes s00 (execMkptr a d s st) := by
  unfold execMkptr
  repeat' first
    | with_reducible assumption | with_reducible intro _ | with_reducible apply keeps_runInstr | with_reducible apply keeps_retagBody

theorem keeps_execMkcode {s00 st : State} (a : At) (d s : Opd) (hk : Keeps s00 st) : Goes s00 (execMkcode a d s st) := by
  unfold execMkcode
  repeat' first
    | with_reducible assumption | with_reducible intro _ | with_reducible apply keeps_runInstr | with_reducible apply keeps_retagBody

theorem keeps_checkAligned (pl : Place) : KeepsRun (checkAligned pl) := by
  unfold checkAligned
  repeat' first
    | with_reducible apply keeps_raiseX | with_reducible exact keepsRun_pure _ | with_reducible apply keepsRun_ite | split

theorem keeps_execTagset {s00 st : State} (a : At) (d : Opd) (t : BitVec 8) (hk : Keeps s00 st) : Goes s00 (execTagset a d t st) := by
  unfold execTagset
  repeat' first
    | with_reducible assumption | with_reducible intro _ | with_reducible apply keeps_formOpd | with_reducible apply keeps_readPlace
    | with_reducible apply keeps_checkDst | with_reducible apply keeps_writePlace | with_reducible apply keeps_runInstr
    | with_reducible apply keeps_checkAligned | with_reducible apply keepsRun_bind | with_reducible exact keepsRun_pure _

theorem keeps_execKill {s00 st : State} (a : At) (d : Opd) (hk : Keeps s00 st) : Goes s00 (execKill a d st) := by
  unfold execKill
  repeat' first
    | with_reducible assumption | with_reducible intro _ | with_reducible apply keeps_formOpd | with_reducible apply keeps_checkDst
    | with_reducible apply keeps_writePlace | with_reducible apply keeps_runInstr | with_reducible apply keeps_checkAligned
    | with_reducible apply keepsRun_bind | with_reducible exact keepsRun_pure _

theorem keeps_execMfcr {s00 st : State} (a : At) (d : Opd) (n : BitVec 8) (hk : Keeps s00 st) : Goes s00 (execMfcr a d n st) := by
  unfold execMfcr
  repeat' first
    | with_reducible assumption | with_reducible intro _ | with_reducible apply keeps_runInstr | with_reducible apply keeps_mfcrBody

theorem keeps_execMtcr {s00 st : State} (a : At) (n : BitVec 8) (s : Opd) (hk : Keeps s00 st) : Goes s00 (execMtcr a n s st) := by
  unfold execMtcr
  repeat' first
    | with_reducible assumption | with_reducible intro _ | with_reducible apply keeps_runInstr | with_reducible apply keeps_mtcrBody

theorem keeps_execIcAck {s00 st : State} (a : At) (d : Opd) (hk : Keeps s00 st) : Goes s00 (execIcAck a d st) := by
  unfold execIcAck
  repeat' first
    | with_reducible assumption | with_reducible intro _ | with_reducible apply keeps_runInstr | with_reducible apply keeps_mfcrBody

theorem keeps_execIcEoi {s00 st : State} (a : At) (s : Opd) (hk : Keeps s00 st) : Goes s00 (execIcEoi a s st) := by
  unfold execIcEoi
  repeat' first
    | with_reducible assumption | with_reducible intro _ | with_reducible apply keeps_runInstr | with_reducible apply keeps_mtcrBody

theorem keeps_execIcSetpend {s00 st : State} (a : At) (s : Opd) (hk : Keeps s00 st) : Goes s00 (execIcSetpend a s st) := by
  unfold execIcSetpend
  repeat' first
    | with_reducible assumption | with_reducible intro _ | with_reducible apply keeps_runInstr | with_reducible apply keeps_mtcrBody

theorem keeps_execIcModeWrite {s00 st : State} (a : At) (s : Opd) (hk : Keeps s00 st) : Goes s00 (execIcModeWrite a s st) := by
  unfold execIcModeWrite
  repeat' first
    | with_reducible assumption | with_reducible intro _ | with_reducible apply keeps_runInstr | with_reducible apply keeps_mtcrBody

theorem keeps_execTtbrWrite {s00 st : State} (a : At) (s : Opd) (hk : Keeps s00 st) : Goes s00 (execTtbrWrite a s st) := by
  unfold execTtbrWrite
  repeat' first
    | with_reducible assumption | with_reducible intro _ | with_reducible apply keeps_runInstr | with_reducible apply keeps_mtcrBody

theorem keeps_execTcrWrite {s00 st : State} (a : At) (s : Opd) (hk : Keeps s00 st) : Goes s00 (execTcrWrite a s st) := by
  unfold execTcrWrite
  repeat' first
    | with_reducible assumption | with_reducible intro _ | with_reducible apply keeps_runInstr | with_reducible apply keeps_mtcrBody

theorem keeps_execGaitReqWrite {s00 st : State} (a : At) (s : Opd) (hk : Keeps s00 st) : Goes s00 (execGaitReqWrite a s st) := by
  unfold execGaitReqWrite
  repeat' first
    | with_reducible assumption | with_reducible intro _ | with_reducible apply keeps_runInstr | with_reducible apply keeps_mtcrBody

theorem keeps_execPmstatusWrite {s00 st : State} (a : At) (s : Opd) (hk : Keeps s00 st) : Goes s00 (execPmstatusWrite a s st) := by
  unfold execPmstatusWrite
  repeat' first
    | with_reducible assumption | with_reducible intro _ | with_reducible apply keeps_runInstr | with_reducible apply keeps_mtcrBody

theorem keeps_execSampleInfoWrite {s00 st : State} (a : At) (s : Opd) (hk : Keeps s00 st) : Goes s00 (execSampleInfoWrite a s st) := by
  unfold execSampleInfoWrite
  repeat' first
    | with_reducible assumption | with_reducible intro _ | with_reducible apply keeps_runInstr | with_reducible apply keeps_mtcrBody

theorem keeps_execPmfreezeWrite {s00 st : State} (a : At) (s : Opd) (hk : Keeps s00 st) : Goes s00 (execPmfreezeWrite a s st) := by
  unfold execPmfreezeWrite
  repeat' first
    | with_reducible assumption | with_reducible intro _ | with_reducible apply keeps_runInstr | with_reducible apply keeps_mtcrBody

theorem keeps_execMfsw {s00 st : State} (a : At) (d : Opd) (hk : Keeps s00 st) : Goes s00 (execMfsw a d st) := by
  unfold execMfsw
  repeat' first
    | with_reducible assumption | with_reducible intro _ | with_reducible apply keeps_getArch | with_reducible apply keeps_formOpd
    | with_reducible apply keeps_writePlace | with_reducible apply keeps_runInstr | with_reducible apply keepsRun_bind
    | with_reducible exact keepsRun_pure _

theorem keeps_execMtsw {s00 st : State} (a : At) (s : Opd) (hk : Keeps s00 st) : Goes s00 (execMtsw a s st) := by
  unfold execMtsw
  repeat' first
    | with_reducible assumption | with_reducible intro _ | with_reducible apply keeps_changeArch | with_reducible apply keeps_formOpd
    | with_reducible apply keeps_readPlace | with_reducible apply keeps_checkSrc | with_reducible apply keeps_runInstr
    | with_reducible apply keepsRun_bind | with_reducible exact keepsRun_pure _

theorem keeps_fpBody (n m : Nat) (readDst : Bool) (d : Opd) (ss : List Opd) (f : Nat → List Nat → FRes) (e : Env) : KeepsRun (fpBody n m readDst d ss f e) := by
  unfold fpBody
  repeat' first
    | with_reducible intro _ | with_reducible apply keeps_changeArch | with_reducible apply keeps_getArch
    | with_reducible apply keeps_formOpd | with_reducible apply keeps_readPlace | with_reducible apply keeps_checkSrc
    | with_reducible apply keeps_writePlace | with_reducible apply keepsRun_bind | with_reducible exact keepsRun_pure _
    | with_reducible apply keepsRun_ite | with_reducible apply keepsRun_mapM | with_reducible apply keepsRun_forM

theorem keeps_fpInstr {s00 st : State} (a : At) (sz : FSz) (d s : Opd) (readDst : Bool) (f : Nat → List Nat → FRes) (hk : Keeps s00 st) : Goes s00 (fpInstr a sz d s readDst f st) := by
  unfold fpInstr
  repeat' first
    | with_reducible assumption | with_reducible intro _ | with_reducible apply keeps_runInstr | with_reducible apply keeps_fpBody

theorem keeps_execFadd {s00 st : State} (a : At) (sz : FSz) (d s : Opd) (hk : Keeps s00 st) : Goes s00 (execFadd a sz d s st) := by
  unfold execFadd
  repeat' first
    | with_reducible assumption | with_reducible apply keeps_fpInstr

theorem keeps_execFsub {s00 st : State} (a : At) (sz : FSz) (d s : Opd) (hk : Keeps s00 st) : Goes s00 (execFsub a sz d s st) := by
  unfold execFsub
  repeat' first
    | with_reducible assumption | with_reducible apply keeps_fpInstr

theorem keeps_execFmul {s00 st : State} (a : At) (sz : FSz) (d s : Opd) (hk : Keeps s00 st) : Goes s00 (execFmul a sz d s st) := by
  unfold execFmul
  repeat' first
    | with_reducible assumption | with_reducible apply keeps_fpInstr

theorem keeps_execFdiv {s00 st : State} (a : At) (sz : FSz) (d s : Opd) (hk : Keeps s00 st) : Goes s00 (execFdiv a sz d s st) := by
  unfold execFdiv
  repeat' first
    | with_reducible assumption | with_reducible apply keeps_fpInstr

theorem keeps_execFsqrt {s00 st : State} (a : At) (sz : FSz) (d s : Opd) (hk : Keeps s00 st) : Goes s00 (execFsqrt a sz d s st) := by
  unfold execFsqrt
  repeat' first
    | with_reducible assumption | with_reducible apply keeps_fpInstr

theorem keeps_execFma {s00 st : State} (a : At) (sz : FSz) (d s t : Opd) (hk : Keeps s00 st) : Goes s00 (execFma a sz d s t st) := by
  unfold execFma
  repeat' first
    | with_reducible assumption | with_reducible intro _ | with_reducible apply keeps_runInstr | with_reducible apply keeps_fpBody

theorem keeps_execFcmp {s00 st : State} (a : At) (sz : FSz) (d s : Opd) (hk : Keeps s00 st) : Goes s00 (execFcmp a sz d s st) := by
  unfold execFcmp
  repeat' first
    | with_reducible assumption | with_reducible intro _ | with_reducible apply keeps_changeArch | with_reducible apply keeps_formOpd
    | with_reducible apply keeps_readPlace | with_reducible apply keeps_checkSrc | with_reducible apply keeps_runInstr
    | with_reducible apply keepsRun_bind | with_reducible exact keepsRun_pure _

theorem keeps_execFmov {s00 st : State} (a : At) (sz : FSz) (d s : Opd) (hk : Keeps s00 st) : Goes s00 (execFmov a sz d s st) := by
  unfold execFmov
  repeat' first
    | with_reducible assumption | with_reducible intro _ | with_reducible apply keeps_runInstr | with_reducible apply keeps_moveBody

theorem keeps_cvtBody (n m : Nat) (fp : Bool) (ok : Tag → Bool) (t : Tag) (d s : Opd) (f : Nat → Nat → FRes) (e : Env) : KeepsRun (cvtBody n m fp ok t d s f e) := by
  unfold cvtBody
  repeat' first
    | with_reducible intro _ | with_reducible apply keeps_changeArch | with_reducible apply keeps_getArch
    | with_reducible apply keeps_formOpd | with_reducible apply keeps_readPlace | with_reducible apply keeps_checkSrc
    | with_reducible apply keeps_writePlace | with_reducible apply keepsRun_bind | with_reducible exact keepsRun_pure _

theorem keeps_execCvtif {s00 st : State} (a : At) (d s : Opd) (hk : Keeps s00 st) : Goes s00 (execCvtif a d s st) := by
  unfold execCvtif
  repeat' first
    | with_reducible assumption | with_reducible intro _ | with_reducible apply keeps_runInstr | with_reducible apply keeps_cvtBody

theorem keeps_execCvtfi {s00 st : State} (a : At) (d s : Opd) (hk : Keeps s00 st) : Goes s00 (execCvtfi a d s st) := by
  unfold execCvtfi
  repeat' first
    | with_reducible assumption | with_reducible intro _ | with_reducible apply keeps_runInstr | with_reducible apply keeps_cvtBody

theorem keeps_execCvtsd {s00 st : State} (a : At) (d s : Opd) (hk : Keeps s00 st) : Goes s00 (execCvtsd a d s st) := by
  unfold execCvtsd
  repeat' first
    | with_reducible assumption | with_reducible intro _ | with_reducible apply keeps_runInstr | with_reducible apply keeps_cvtBody

theorem keeps_execCvtds {s00 st : State} (a : At) (d s : Opd) (hk : Keeps s00 st) : Goes s00 (execCvtds a d s st) := by
  unfold execCvtds
  repeat' first
    | with_reducible assumption | with_reducible intro _ | with_reducible apply keeps_runInstr | with_reducible apply keeps_cvtBody

theorem keeps_execImovf {s00 st : State} (a : At) (d s : Opd) (hk : Keeps s00 st) : Goes s00 (execImovf a d s st) := by
  unfold execImovf
  repeat' first
    | with_reducible assumption | with_reducible intro _ | with_reducible apply keeps_runInstr | with_reducible apply keeps_cvtBody

theorem keeps_execFmovi {s00 st : State} (a : At) (d s : Opd) (hk : Keeps s00 st) : Goes s00 (execFmovi a d s st) := by
  unfold execFmovi
  repeat' first
    | with_reducible assumption | with_reducible intro _ | with_reducible apply keeps_runInstr | with_reducible apply keeps_cvtBody

theorem keeps_resumePoint (e : Env) : KeepsRun (resumePoint e) := by
  unfold resumePoint
  repeat' first
    | with_reducible intro _ | with_reducible apply keeps_raiseX | with_reducible apply keepsRun_get_bind
    | with_reducible exact keepsAt_pure | with_reducible apply keepsAt_ite | with_reducible apply keepsAt_of

theorem keeps_waitLines (e : Env) (lines : List Nat) : KeepsRun (waitLines e lines) := by
  unfold waitLines
  repeat' first
    | with_reducible intro _ | with_reducible apply keeps_waitFor | with_reducible apply keepsRun_get_bind
    | with_reducible exact keepsAt_pure | split | with_reducible apply keepsAt_of

theorem keeps_maintainAt (op : Maint) (e : Env) (x : Xlat) : KeepsRun (maintainAt op e x) := by
  unfold maintainAt
  repeat' first
    | with_reducible assumption | with_reducible intro _ | with_reducible apply keeps_lookup | with_reducible apply keeps_markMisses
    | with_reducible apply keeps_maintainLine | with_reducible apply keeps_change | with_reducible apply keeps_waitLines
    | with_reducible apply keepsRun_bind | with_reducible exact keepsRun_pure _ | with_reducible apply keepsRun_ite

theorem keeps_maintBody (op : Maint) (o : Opd) (e : Env) : KeepsRun (maintBody op o e) := by
  unfold maintBody
  repeat' first
    | with_reducible intro _ | with_reducible apply keeps_xlat | with_reducible apply keeps_fenceAll
    | with_reducible apply keeps_formAddr | with_reducible apply keeps_maintainAt | with_reducible apply keepsRun_bind
    | with_reducible exact keepsRun_pure _

theorem keeps_execCclean {s00 st : State} (a : At) (m : Opd) (hk : Keeps s00 st) : Goes s00 (execCclean a m st) := by
  unfold execCclean
  repeat' first
    | with_reducible assumption | with_reducible intro _ | with_reducible apply keeps_runInstr | with_reducible apply keeps_maintBody

theorem keeps_execCclinv {s00 st : State} (a : At) (m : Opd) (hk : Keeps s00 st) : Goes s00 (execCclinv a m st) := by
  unfold execCclinv
  repeat' first
    | with_reducible assumption | with_reducible intro _ | with_reducible apply keeps_runInstr | with_reducible apply keeps_maintBody

theorem keeps_execCdiscard {s00 st : State} (a : At) (m : Opd) (hk : Keeps s00 st) : Goes s00 (execCdiscard a m st) := by
  unfold execCdiscard
  repeat' first
    | with_reducible assumption | with_reducible intro _ | with_reducible apply keeps_runInstr | with_reducible apply keeps_maintBody

theorem keeps_zeroBody (t : Tag) (o : Opd) (e : Env) : KeepsRun (zeroBody t o e) := by
  unfold zeroBody
  repeat' first
    | with_reducible assumption | with_reducible intro _ | with_reducible exact keeps_raiseX_bind _ _ | with_reducible apply keeps_lookup
    | with_reducible apply keeps_spanZero | with_reducible apply keeps_change | with_reducible apply keeps_xlat
    | with_reducible apply keeps_fenceAll | with_reducible apply keeps_formAddr | with_reducible apply keeps_waitLines
    | with_reducible apply keepsRun_bind | with_reducible exact keepsRun_pure _ | with_reducible apply keepsRun_ite

theorem keeps_execCzero {s00 st : State} (a : At) (m : Opd) (hk : Keeps s00 st) : Goes s00 (execCzero a m st) := by
  unfold execCzero
  repeat' first
    | with_reducible assumption | with_reducible intro _ | with_reducible apply keeps_runInstr | with_reducible apply keeps_zeroBody

theorem keeps_execCclear {s00 st : State} (a : At) (m : Opd) (hk : Keeps s00 st) : Goes s00 (execCclear a m st) := by
  unfold execCclear
  repeat' first
    | with_reducible assumption | with_reducible intro _ | with_reducible apply keeps_runInstr | with_reducible apply keeps_zeroBody

theorem keeps_rangeLoop (op : Maint) (e : Env) (n done : Nat) : KeepsRun (rangeLoop op e n done) := by
  induction n generalizing done with
  | zero => exact keepsRun_pure _
  | succ n ih =>
    unfold rangeLoop
    repeat' first
      | exact ih _ | with_reducible apply keeps_xlat | with_reducible apply keeps_maintainAt | with_reducible apply keeps_resumePoint
      | with_reducible apply keeps_changeArch | with_reducible apply keeps_getArch | with_reducible apply keepsRun_bind
      | with_reducible apply keepsRun_ite | with_reducible exact keepsRun_pure _ | with_reducible intro _ | dsimp only

theorem keeps_rangeBody (op : Maint) (e : Env) : KeepsRun (rangeBody op e) := by
  unfold rangeBody
  repeat' first
    | with_reducible intro _ | with_reducible exact keeps_raiseX_bind _ _ | with_reducible apply keeps_getArch
    | with_reducible apply keeps_fenceAll | with_reducible apply keeps_baseReg | with_reducible apply keeps_rangeLoop
    | with_reducible apply keepsRun_bind | with_reducible exact keepsRun_pure _ | with_reducible apply keepsRun_ite

theorem keeps_execCrangeClean {s00 st : State} (a : At) (hk : Keeps s00 st) : Goes s00 (execCrangeClean a st) := by
  unfold execCrangeClean
  repeat' first
    | with_reducible assumption | with_reducible intro _ | with_reducible apply keeps_runInstr | with_reducible apply keeps_rangeBody

theorem keeps_execCrangeCleanInvalidate {s00 st : State} (a : At) (hk : Keeps s00 st) : Goes s00 (execCrangeCleanInvalidate a st) := by
  unfold execCrangeCleanInvalidate
  repeat' first
    | with_reducible assumption | with_reducible intro _ | with_reducible apply keeps_runInstr | with_reducible apply keeps_rangeBody

theorem keeps_execCrangeDiscard {s00 st : State} (a : At) (hk : Keeps s00 st) : Goes s00 (execCrangeDiscard a st) := by
  unfold execCrangeDiscard
  repeat' first
    | with_reducible assumption | with_reducible intro _ | with_reducible apply keeps_runInstr | with_reducible apply keeps_rangeBody

theorem keeps_invalCore {s00 s : State} (i : Inval) (c : Nat) (hk : Keeps s00 s) : Keeps s00 (invalCore i c s) := by
  unfold invalCore
  repeat' first
    | with_reducible assumption | with_reducible apply keeps_setCore | with_reducible apply keeps_ite

theorem keeps_invalidate {s00 s : State} (i : Inval) (loc : Option Nat) (hk : Keeps s00 s) : Keeps s00 (invalidate i loc s) := by
  unfold invalidate
  repeat' first
    | with_reducible assumption | with_reducible intro _ | with_reducible apply keeps_invalCore | with_reducible apply keeps_foldl
    | split

theorem keeps_performInval (e : Env) (loc : Bool) (i : Inval) : KeepsRun (performInval e loc i) := by
  unfold performInval
  repeat' first
    | with_reducible assumption | with_reducible intro _ | with_reducible apply keeps_setCore | with_reducible apply keeps_change
    | with_reducible apply keeps_fenceAll | with_reducible apply keeps_invalidate | with_reducible apply keepsRun_bind
    | with_reducible exact keepsRun_pure _ | with_reducible apply keeps_ite

theorem keeps_tlbiVaBody (loc : Bool) (m : Opd) (e : Env) : KeepsRun (tlbiVaBody loc m e) := by
  unfold tlbiVaBody
  repeat' first
    | with_reducible intro _ | with_reducible apply keeps_formAddr | with_reducible apply keeps_performInval
    | with_reducible apply keepsRun_get_bind | with_reducible apply keepsRun_bind | dsimp only | with_reducible apply keepsAt_of

theorem keeps_tlbiSrc (e : Env) (opnd : Nat) (o : Opd) : KeepsRun (tlbiSrc e opnd o) := by
  unfold tlbiSrc
  repeat' first
    | with_reducible intro _ | with_reducible apply keeps_formOpd | with_reducible apply keeps_readPlace
    | with_reducible apply keeps_checkSrc | with_reducible apply keepsRun_bind | with_reducible exact keepsRun_pure _

theorem keeps_tlbiAsidBody (loc : Bool) (o : Opd) (e : Env) : KeepsRun (tlbiAsidBody loc o e) := by
  unfold tlbiAsidBody
  repeat' first
    | with_reducible intro _ | with_reducible apply keeps_performInval | with_reducible apply keeps_tlbiSrc
    | with_reducible apply keepsRun_get_bind | with_reducible apply keepsRun_bind | with_reducible apply keepsAt_of

theorem keeps_tlbiStallBody (loc : Bool) (e : Env) : KeepsRun (tlbiStallBody loc e) := by
  unfold tlbiStallBody
  repeat' first
    | with_reducible intro _ | with_reducible apply keeps_performInval | with_reducible apply keepsRun_get_bind
    | with_reducible apply keepsAt_of

theorem keeps_tlbiStallnBody (loc : Bool) (o : Opd) (e : Env) : KeepsRun (tlbiStallnBody loc o e) := by
  unfold tlbiStallnBody
  repeat' first
    | with_reducible intro _ | with_reducible apply keeps_performInval | with_reducible apply keeps_tlbiSrc
    | with_reducible apply keepsRun_bind

theorem keeps_execTlbiVa {s00 st : State} (a : At) (m : Opd) (hk : Keeps s00 st) : Goes s00 (execTlbiVa a m st) := by
  unfold execTlbiVa
  repeat' first
    | with_reducible assumption | with_reducible intro _ | with_reducible apply keeps_runInstr | with_reducible apply keeps_tlbiVaBody

theorem keeps_execTlbiVaLocal {s00 st : State} (a : At) (m : Opd) (hk : Keeps s00 st) : Goes s00 (execTlbiVaLocal a m st) := by
  unfold execTlbiVaLocal
  repeat' first
    | with_reducible assumption | with_reducible intro _ | with_reducible apply keeps_runInstr | with_reducible apply keeps_tlbiVaBody

theorem keeps_execTlbiAsid {s00 st : State} (a : At) (o : Opd) (hk : Keeps s00 st) : Goes s00 (execTlbiAsid a o st) := by
  unfold execTlbiAsid
  repeat' first
    | with_reducible assumption | with_reducible intro _ | with_reducible apply keeps_runInstr | with_reducible apply keeps_tlbiAsidBody

theorem keeps_execTlbiAsidLocal {s00 st : State} (a : At) (o : Opd) (hk : Keeps s00 st) : Goes s00 (execTlbiAsidLocal a o st) := by
  unfold execTlbiAsidLocal
  repeat' first
    | with_reducible assumption | with_reducible intro _ | with_reducible apply keeps_runInstr | with_reducible apply keeps_tlbiAsidBody

theorem keeps_execTlbiStall {s00 st : State} (a : At) (hk : Keeps s00 st) : Goes s00 (execTlbiStall a st) := by
  unfold execTlbiStall
  repeat' first
    | with_reducible assumption | with_reducible intro _ | with_reducible apply keeps_runInstr | with_reducible apply keeps_tlbiStallBody

theorem keeps_execTlbiStallLocal {s00 st : State} (a : At) (hk : Keeps s00 st) : Goes s00 (execTlbiStallLocal a st) := by
  unfold execTlbiStallLocal
  repeat' first
    | with_reducible assumption | with_reducible intro _ | with_reducible apply keeps_runInstr | with_reducible apply keeps_tlbiStallBody

theorem keeps_execTlbiAll {s00 st : State} (a : At) (hk : Keeps s00 st) : Goes s00 (execTlbiAll a st) := by
  unfold execTlbiAll
  repeat' first
    | with_reducible assumption | with_reducible intro _ | with_reducible apply keeps_runInstr | with_reducible apply keeps_performInval

theorem keeps_execTlbiAllLocal {s00 st : State} (a : At) (hk : Keeps s00 st) : Goes s00 (execTlbiAllLocal a st) := by
  unfold execTlbiAllLocal
  repeat' first
    | with_reducible assumption | with_reducible intro _ | with_reducible apply keeps_runInstr | with_reducible apply keeps_performInval

theorem keeps_execTlbiStalln {s00 st : State} (a : At) (o : Opd) (hk : Keeps s00 st) : Goes s00 (execTlbiStalln a o st) := by
  unfold execTlbiStalln
  repeat' first
    | with_reducible assumption | with_reducible intro _ | with_reducible apply keeps_runInstr
    | with_reducible apply keeps_tlbiStallnBody

theorem keeps_execTlbiStallnLocal {s00 st : State} (a : At) (o : Opd) (hk : Keeps s00 st) : Goes s00 (execTlbiStallnLocal a o st) := by
  unfold execTlbiStallnLocal
  repeat' first
    | with_reducible assumption | with_reducible intro _ | with_reducible apply keeps_runInstr
    | with_reducible apply keeps_tlbiStallnBody

theorem keeps_ioInvalidate {s00 s : State} (stall : Nat) (page : Option Nat) (all : Bool) (hk : Keeps s00 s) : Keeps s00 (ioInvalidate stall page all s) := by
  unfold ioInvalidate
  repeat' first
    | with_reducible assumption | with_reducible apply keeps_odBump | split | dsimp only
    | refine keeps_mk ?_ rfl rfl rfl rfl rfl rfl rfl rfl rfl

theorem keeps_iotlbiBody (page : Option Nat) (v : Word) (anyOk : Bool) (e : Env) : KeepsRun (iotlbiBody page v anyOk e) := by
  unfold iotlbiBody
  repeat' first
    | with_reducible assumption | with_reducible intro _ | with_reducible exact keeps_raiseX_bind _ _
    | with_reducible apply keeps_setCore | with_reducible apply keeps_change | with_reducible apply keeps_fenceAll
    | with_reducible apply keeps_ioInvalidate | with_reducible apply keepsRun_get_bind | with_reducible apply keepsRun_bind
    | with_reducible exact keepsRun_pure _ | with_reducible apply keepsAt_ite | dsimp only | with_reducible apply keepsAt_of

theorem keeps_execIotlbi {s00 st : State} (a : At) (o : Opd) (hk : Keeps s00 st) : Goes s00 (execIotlbi a o st) := by
  unfold execIotlbi
  repeat' first
    | with_reducible assumption | with_reducible intro _ | with_reducible apply keeps_runInstr | with_reducible apply keeps_tlbiSrc
    | with_reducible apply keeps_iotlbiBody | with_reducible apply keepsRun_bind

theorem keeps_execIotlbiVa {s00 st : State} (a : At) (m o : Opd) (hk : Keeps s00 st) : Goes s00 (execIotlbiVa a m o st) := by
  unfold execIotlbiVa
  repeat' first
    | with_reducible assumption | with_reducible intro _ | with_reducible apply keeps_formAddr | with_reducible apply keeps_runInstr
    | with_reducible apply keeps_tlbiSrc | with_reducible apply keeps_iotlbiBody | with_reducible apply keepsRun_bind

theorem keeps_performTranslated {s00 s : State} (hk : Keeps s00 s) : ∀ u, performTranslated s = some u → Keeps s00 u := by
  unfold performTranslated
  generalize s.cores.map (fun x => x.1) = l
  induction l generalizing s with
  | nil =>
    intro u e
    cases e
    exact hk
  | cons k r ih =>
    intro u e
    rw [List.foldlM_cons] at e
    cases d : drainStores k s with
    | none =>
      rw [d] at e
      cases e
    | some t =>
      rw [d] at e
      exact ih (keeps_drainStores k hk t d) u e

theorem keeps_execTlbiComplete {s00 s : State} (c : CoreId) (hk : Keeps s00 s) : Goes s00 (execTlbiComplete c s) := by
  unfold execTlbiComplete
  repeat' first
    | with_reducible assumption | with_reducible apply keeps_setCore | with_reducible refine keeps_performTranslated ?_ _ ‹_›
    | with_reducible apply goes_next | with_reducible apply goes_ite | split

theorem keeps_stepReg (e : Env) (r : Nat) (d : Int) : KeepsRun (stepReg e r d) := by
  unfold stepReg
  repeat' first
    | with_reducible apply keeps_changeArch

theorem keeps_stringAcc (e : Env) (r n : Nat) (write aligned : Bool) : KeepsRun (stringAcc e r n write aligned) := by
  unfold stringAcc
  repeat' first
    | with_reducible intro _ | with_reducible exact keeps_raiseX_bind _ _ | with_reducible apply keeps_formAcc
    | with_reducible apply keeps_baseReg | with_reducible apply keepsRun_bind | with_reducible exact keepsRun_pure _
    | with_reducible apply keepsRun_ite

theorem keeps_bcopyElem (ctl : BitVec 8) (e : Env) : KeepsRun (bcopyElem ctl e) := by
  unfold bcopyElem
  repeat' first
    | with_reducible intro _ | with_reducible apply keeps_readPlace | with_reducible apply keeps_checkSrc
    | with_reducible apply keeps_checkDst | with_reducible apply keeps_writePlace | with_reducible apply keeps_stepReg
    | with_reducible apply keeps_stringAcc | with_reducible apply keepsRun_bind

theorem keeps_bfillElem (ctl : BitVec 8) (e : Env) : KeepsRun (bfillElem ctl e) := by
  unfold bfillElem
  repeat' first
    | with_reducible intro _ | with_reducible exact keeps_raiseX_bind _ _ | with_reducible apply keeps_readPlace
    | with_reducible apply keeps_checkDst | with_reducible apply keeps_writePlace | with_reducible apply keeps_stepReg
    | with_reducible apply keeps_stringAcc | with_reducible apply keepsRun_bind | with_reducible apply keepsRun_ite

theorem keeps_setCompare (e : Env) (n : Nat) (x y : Src) : KeepsRun (setCompare e n x y) := by
  unfold setCompare
  repeat' first
    | with_reducible intro _ | with_reducible apply keeps_changeArch | with_reducible apply keeps_checkSrc
    | with_reducible apply keepsRun_bind

theorem keeps_bcmpElem (ctl : BitVec 8) (e : Env) : KeepsRun (bcmpElem ctl e) := by
  unfold bcmpElem
  repeat' first
    | with_reducible intro _ | with_reducible apply keeps_readPlace | with_reducible apply keeps_stepReg
    | with_reducible apply keeps_stringAcc | with_reducible apply keeps_setCompare | with_reducible apply keepsRun_bind

theorem keeps_bfindElem (ctl : BitVec 8) (e : Env) : KeepsRun (bfindElem ctl e) := by
  unfold bfindElem
  repeat' first
    | with_reducible intro _ | with_reducible apply keeps_readPlace | with_reducible apply keeps_stepReg
    | with_reducible apply keeps_stringAcc | with_reducible apply keeps_setCompare | with_reducible apply keepsRun_bind

theorem keeps_mergeBlock {s00 s : State} (c : Nat) (hk : Keeps s00 s) : Keeps s00 (mergeBlock c s) := by
  unfold mergeBlock
  repeat' first
    | with_reducible assumption | with_reducible apply keeps_setCore | with_reducible apply keeps_ite | split | dsimp only

theorem keeps_blockLoop (run : Nat) (elem : Env → CoreRun Unit) (blocks : Bool) (e : Env) (n : Nat) (first : Bool)
    (hf : ∀ x, KeepsRun (elem x)) : KeepsRun (blockLoop run elem blocks e n first) := by
  induction n generalizing first with
  | zero => exact keepsRun_pure _
  | succ n ih =>
    unfold blockLoop
    repeat' first
      | exact ih _ | with_reducible apply hf | with_reducible apply keeps_resumePoint | with_reducible apply keeps_changeArch
      | with_reducible apply keeps_change | with_reducible apply keeps_mergeBlock
      | with_reducible apply keeps_getArch | with_reducible exact keepsRun_get | with_reducible apply keepsRun_bind
      | with_reducible apply keepsRun_ite | with_reducible exact keepsRun_pure _ | with_reducible intro _ | dsimp only

theorem keeps_blockBody (ctl : BitVec 8) (elem : BitVec 8 → Env → CoreRun Unit) (stores : Bool) (e : Env) (hf : ∀ x y, KeepsRun (elem x y)) : KeepsRun (blockBody ctl elem stores e) := by
  unfold blockBody
  repeat' first
    | with_reducible intro _ | with_reducible exact keeps_raiseX_bind _ _ | with_reducible apply keeps_getArch
    | with_reducible apply keeps_blockLoop | with_reducible apply hf | with_reducible apply keepsRun_bind
    | with_reducible exact keepsRun_pure _ | with_reducible apply keepsRun_ite

theorem keeps_execBcopy {s00 st : State} (a : At) (ctl : BitVec 8) (hk : Keeps s00 st) : Goes s00 (execBcopy a ctl st) := by
  unfold execBcopy
  repeat' first
    | with_reducible assumption | with_reducible intro _ | with_reducible apply keeps_runInstr | with_reducible apply keeps_bcopyElem
    | with_reducible apply keeps_blockBody

theorem keeps_execBfill {s00 st : State} (a : At) (ctl : BitVec 8) (hk : Keeps s00 st) : Goes s00 (execBfill a ctl st) := by
  unfold execBfill
  repeat' first
    | with_reducible assumption | with_reducible intro _ | with_reducible apply keeps_runInstr | with_reducible apply keeps_bfillElem
    | with_reducible apply keeps_blockBody

theorem keeps_execBcmp {s00 st : State} (a : At) (ctl : BitVec 8) (hk : Keeps s00 st) : Goes s00 (execBcmp a ctl st) := by
  unfold execBcmp
  repeat' first
    | with_reducible assumption | with_reducible intro _ | with_reducible apply keeps_runInstr | with_reducible apply keeps_bcmpElem
    | with_reducible apply keeps_blockBody

theorem keeps_execBfind {s00 st : State} (a : At) (ctl : BitVec 8) (hk : Keeps s00 st) : Goes s00 (execBfind a ctl st) := by
  unfold execBfind
  repeat' first
    | with_reducible assumption | with_reducible intro _ | with_reducible apply keeps_runInstr | with_reducible apply keeps_bfindElem
    | with_reducible apply keeps_blockBody

theorem keeps_predictAtomic {s00 s : State} (line : Nat) (tile : Option Nat) (hk : Keeps s00 s) : Keeps s00 (predictAtomic line tile s).2 := by
  unfold predictAtomic
  repeat' first
    | with_reducible assumption | with_reducible apply keeps_setSlice

theorem keeps_atomFetch {s00 s : State} (far : Bool) (c : Nat) (a : Attr) (line : Nat) (hk : Keeps s00 s) : Keeps s00 (atomFetch far c a line s) := by
  unfold atomFetch
  repeat' first
    | with_reducible assumption | with_reducible apply keeps_setCore | with_reducible apply keeps_lookup
    | with_reducible apply keeps_fillHome | with_reducible apply keeps_acquireOwned | with_reducible apply keeps_recallLine
    | with_reducible apply keeps_ite

theorem keeps_atomWrite {s00 s : State} (far : Bool) (a : Attr) (tile w : Nat) (v : TWord) (hk : Keeps s00 s) : Keeps s00 (atomWrite far a tile w v s) := by
  unfold atomWrite
  repeat' first
    | with_reducible assumption | with_reducible apply keeps_acquireOwned | with_reducible apply keeps_writeAtHome
    | with_reducible apply keeps_ite | dsimp only | refine keeps_mk ?_ rfl rfl rfl rfl rfl rfl rfl rfl rfl

theorem keeps_atomBody (op : AtomOp) (dbl : Bool) (a : At) (m o : Opd) (e : Env) : KeepsRun (atomBody op dbl a m o e) := by
  unfold atomBody
  repeat' first
    | with_reducible assumption | with_reducible intro _ | with_reducible exact keeps_raiseX_bind _ _ | with_reducible apply keeps_change
    | with_reducible apply keeps_changeArch | with_reducible apply keeps_getArch | with_reducible apply keeps_xlat
    | with_reducible apply keeps_fenceAll | with_reducible apply keeps_formAddr | with_reducible apply keeps_formOpd
    | with_reducible apply keeps_readPlace | with_reducible apply keeps_checkSrc | with_reducible apply keeps_writePlace
    | with_reducible apply keeps_waitLines | with_reducible apply keeps_predictAtomic | with_reducible apply keeps_atomFetch
    | with_reducible apply keeps_atomWrite | with_reducible apply keepsRun_get_bind | with_reducible apply keepsRun_bind
    | with_reducible exact keepsRun_pure _ | with_reducible apply keepsRun_ite | with_reducible apply keepsAt_ite
    | with_reducible apply keepsAt_set_bind | split | dsimp only | with_reducible apply keepsAt_of

theorem keeps_atomInstr {s00 st : State} (op : AtomOp) (a : At) (dbl : Bool) (m o : Opd) (hk : Keeps s00 st) : Goes s00 (atomInstr op a dbl m o st) := by
  unfold atomInstr
  repeat' first
    | with_reducible assumption | with_reducible intro _ | with_reducible apply keeps_runInstr | with_reducible apply keeps_atomBody

theorem keeps_execXadd {s00 st : State} (a : At) (dbl : Bool) (m o : Opd) (hk : Keeps s00 st) : Goes s00 (execXadd a dbl m o st) := by
  unfold execXadd
  repeat' first
    | with_reducible assumption | with_reducible apply keeps_atomInstr

theorem keeps_execXchga {s00 st : State} (a : At) (dbl : Bool) (m o : Opd) (hk : Keeps s00 st) : Goes s00 (execXchga a dbl m o st) := by
  unfold execXchga
  repeat' first
    | with_reducible assumption | with_reducible apply keeps_atomInstr

theorem keeps_execCas {s00 st : State} (a : At) (dbl : Bool) (m o : Opd) (hk : Keeps s00 st) : Goes s00 (execCas a dbl m o st) := by
  unfold execCas
  repeat' first
    | with_reducible assumption | with_reducible apply keeps_atomInstr

theorem keeps_execAadd {s00 st : State} (a : At) (dbl : Bool) (m o : Opd) (hk : Keeps s00 st) : Goes s00 (execAadd a dbl m o st) := by
  unfold execAadd
  repeat' first
    | with_reducible assumption | with_reducible apply keeps_atomInstr

theorem keeps_execAand {s00 st : State} (a : At) (dbl : Bool) (m o : Opd) (hk : Keeps s00 st) : Goes s00 (execAand a dbl m o st) := by
  unfold execAand
  repeat' first
    | with_reducible assumption | with_reducible apply keeps_atomInstr

theorem keeps_execAor {s00 st : State} (a : At) (dbl : Bool) (m o : Opd) (hk : Keeps s00 st) : Goes s00 (execAor a dbl m o st) := by
  unfold execAor
  repeat' first
    | with_reducible assumption | with_reducible apply keeps_atomInstr

theorem keeps_execAxor {s00 st : State} (a : At) (dbl : Bool) (m o : Opd) (hk : Keeps s00 st) : Goes s00 (execAxor a dbl m o st) := by
  unfold execAxor
  repeat' first
    | with_reducible assumption | with_reducible apply keeps_atomInstr

theorem keeps_getV (e : Env) (r : Nat) : KeepsRun (getV e r) := by
  unfold getV
  repeat' first
    | with_reducible intro _ | with_reducible apply keeps_getArch | with_reducible apply keepsRun_bind
    | with_reducible exact keepsRun_pure _

theorem keeps_setV (e : Env) (r : Nat) (ws : List TWord) : KeepsRun (setV e r ws) := by
  unfold setV
  repeat' first
    | with_reducible apply keeps_changeArch

theorem keeps_formVec (e : Env) (opnd : Nat) (o : Opd) (es : Nat) (act : List Nat) (write : Bool) : KeepsRun (formVec e opnd o es act write) := by
  unfold formVec
  repeat' first
    | with_reducible intro _ | with_reducible exact keeps_raiseX_bind _ _ | with_reducible apply keeps_xlat
    | with_reducible apply keeps_formAddr | with_reducible apply keeps_inWindow | with_reducible apply keepsRun_bind
    | with_reducible exact keepsRun_pure _ | with_reducible apply keepsRun_ite

theorem keeps_loadVWord (e : Env) (x : Xlat) (w : Nat) : KeepsRun (loadVWord e x w) := by
  unfold loadVWord
  repeat' first
    | with_reducible intro _ | with_reducible apply keeps_touchLine | with_reducible apply keepsRun_get_bind
    | with_reducible apply keepsRun_bind | with_reducible exact keepsAt_pure | with_reducible apply keepsAt_of

theorem keeps_loadVWords (e : Env) (v : VAcc) (ws : List Nat) : KeepsRun (loadVWords e v ws) := by
  induction ws with
  | nil => exact keepsRun_pure _
  | cons w r ih =>
    exact keepsRun_bind (keeps_loadVWord _ _ _) (fun _ => keepsRun_bind ih (fun _ => keepsRun_pure _))

theorem keeps_loadVec (e : Env) (opnd : Nat) (v : VAcc) (es : Nat) (n : Nat) (act : Nat → Bool) : KeepsRun (loadVec e opnd v es n act) := by
  unfold loadVec
  repeat' first
    | with_reducible intro _ | with_reducible exact keeps_raiseX_bind _ _ | with_reducible apply keeps_note
    | with_reducible apply keeps_awaitStores | with_reducible apply keeps_frameLoad | with_reducible apply keeps_noteLoad
    | with_reducible apply keeps_loadVWords | with_reducible apply keepsRun_bind | with_reducible exact keepsRun_pure _
    | with_reducible apply keepsRun_ite | split

theorem keeps_formVSrc (e : Env) (opnd : Nat) (fp : Bool) (es : Nat) (act : List Nat) (o : Opd) : KeepsRun (formVSrc e opnd fp es act o) := by
  unfold formVSrc
  repeat' first
    | with_reducible intro _ | with_reducible apply keeps_getArch | with_reducible apply keeps_getV | with_reducible apply keeps_formVec
    | with_reducible apply keepsRun_bind | with_reducible exact keepsRun_pure _ | split

theorem keeps_readVSrc (e : Env) (opnd es n : Nat) (act : Nat → Bool) (s : VSrc) : KeepsRun (readVSrc e opnd es n act s) := by
  unfold readVSrc
  repeat' first
    | with_reducible apply keeps_loadVec | with_reducible exact keepsRun_pure _ | split

theorem keeps_checkVec (opnd es : Nat) (act : Nat → Bool) (ok : Tag → Bool) (ws : List TWord) : KeepsRun (checkVec opnd es act ok ws) := by
  unfold checkVec
  repeat' first
    | with_reducible apply keeps_raiseX | with_reducible exact keepsRun_pure _ | split

theorem keeps_vecBody (a : At) (es : Nat) (fp : Bool) (d : Opd) (regs : List (Nat × Opd)) (src : Option (Nat × Opd)) (f : Nat → List Nat → FRes) (e : Env) : KeepsRun (vecBody a es fp d regs src f e) := by
  unfold vecBody
  repeat' first
    | with_reducible intro _ | with_reducible apply keeps_changeArch | with_reducible apply keeps_getArch
    | with_reducible apply keeps_getV | with_reducible apply keeps_setV | with_reducible apply keeps_formVSrc
    | with_reducible apply keeps_readVSrc | with_reducible apply keeps_checkVec | with_reducible apply keepsRun_bind
    | with_reducible exact keepsRun_pure _ | with_reducible apply keepsRun_mapM | with_reducible apply keepsRun_forM | split

theorem keeps_vIntInstr {s00 st : State} (sizes : List Nat) (f : Nat → Nat → Nat → Nat) (a : At) (d s : Opd) (hk : Keeps s00 st) : Goes s00 (vIntInstr sizes f a d s st) := by
  unfold vIntInstr
  repeat' first
    | with_reducible assumption | with_reducible intro _ | with_reducible apply keeps_runInstr | with_reducible apply keeps_vecBody

theorem keeps_execVadd {s00 st : State} (a : At) (d s : Opd) (hk : Keeps s00 st) : Goes s00 (execVadd a d s st) := by
  unfold execVadd
  repeat' first
    | with_reducible assumption | with_reducible apply keeps_vIntInstr

theorem keeps_execVsub {s00 st : State} (a : At) (d s : Opd) (hk : Keeps s00 st) : Goes s00 (execVsub a d s st) := by
  unfold execVsub
  repeat' first
    | with_reducible assumption | with_reducible apply keeps_vIntInstr

theorem keeps_execVand {s00 st : State} (a : At) (d s : Opd) (hk : Keeps s00 st) : Goes s00 (execVand a d s st) := by
  unfold execVand
  repeat' first
    | with_reducible assumption | with_reducible apply keeps_vIntInstr

theorem keeps_execVor {s00 st : State} (a : At) (d s : Opd) (hk : Keeps s00 st) : Goes s00 (execVor a d s st) := by
  unfold execVor
  repeat' first
    | with_reducible assumption | with_reducible apply keeps_vIntInstr

theorem keeps_execVxor {s00 st : State} (a : At) (d s : Opd) (hk : Keeps s00 st) : Goes s00 (execVxor a d s st) := by
  unfold execVxor
  repeat' first
    | with_reducible assumption | with_reducible apply keeps_vIntInstr

theorem keeps_execVmul {s00 st : State} (a : At) (d s : Opd) (hk : Keeps s00 st) : Goes s00 (execVmul a d s st) := by
  unfold execVmul
  repeat' first
    | with_reducible assumption | with_reducible apply keeps_vIntInstr

theorem keeps_execVshl {s00 st : State} (a : At) (d s : Opd) (hk : Keeps s00 st) : Goes s00 (execVshl a d s st) := by
  unfold execVshl
  repeat' first
    | with_reducible assumption | with_reducible apply keeps_vIntInstr

theorem keeps_execVshr {s00 st : State} (a : At) (d s : Opd) (hk : Keeps s00 st) : Goes s00 (execVshr a d s st) := by
  unfold execVshr
  repeat' first
    | with_reducible assumption | with_reducible apply keeps_vIntInstr

theorem keeps_vFpInstr {s00 st : State} (f : Fmt → Nat → Nat → Nat → FRes) (a : At) (d s : Opd) (hk : Keeps s00 st) : Goes s00 (vFpInstr f a d s st) := by
  unfold vFpInstr
  repeat' first
    | with_reducible assumption | with_reducible intro _ | with_reducible apply keeps_runInstr | with_reducible apply keeps_vecBody

theorem keeps_execVfadd {s00 st : State} (a : At) (d s : Opd) (hk : Keeps s00 st) : Goes s00 (execVfadd a d s st) := by
  unfold execVfadd
  repeat' first
    | with_reducible assumption | with_reducible apply keeps_vFpInstr

theorem keeps_execVfsub {s00 st : State} (a : At) (d s : Opd) (hk : Keeps s00 st) : Goes s00 (execVfsub a d s st) := by
  unfold execVfsub
  repeat' first
    | with_reducible assumption | with_reducible apply keeps_vFpInstr

theorem keeps_execVfmul {s00 st : State} (a : At) (d s : Opd) (hk : Keeps s00 st) : Goes s00 (execVfmul a d s st) := by
  unfold execVfmul
  repeat' first
    | with_reducible assumption | with_reducible apply keeps_vFpInstr

theorem keeps_execVfma {s00 st : State} (a : At) (d v s : Opd) (hk : Keeps s00 st) : Goes s00 (execVfma a d v s st) := by
  unfold execVfma
  repeat' first
    | with_reducible assumption | with_reducible intro _ | with_reducible apply keeps_runInstr | with_reducible apply keeps_vecBody

theorem keeps_execVgfmul {s00 st : State} (a : At) (d s : Opd) (hk : Keeps s00 st) : Goes s00 (execVgfmul a d s st) := by
  unfold execVgfmul
  repeat' first
    | with_reducible assumption | with_reducible intro _ | with_reducible apply keeps_runInstr | with_reducible apply keeps_vecBody

theorem keeps_execVgfmac {s00 st : State} (a : At) (d v c : Opd) (hk : Keeps s00 st) : Goes s00 (execVgfmac a d v c st) := by
  unfold execVgfmac
  repeat' first
    | with_reducible assumption | with_reducible intro _ | with_reducible apply keeps_runInstr | with_reducible apply keeps_vecBody

theorem keeps_execVgfinv {s00 st : State} (a : At) (d v : Opd) (hk : Keeps s00 st) : Goes s00 (execVgfinv a d v st) := by
  unfold execVgfinv
  repeat' first
    | with_reducible assumption | with_reducible intro _ | with_reducible apply keeps_runInstr | with_reducible apply keeps_vecBody

theorem keeps_vCmpBody (a : At) (fp : Bool) (x s : Opd) (k : BitVec 8) (f : Nat → Nat → Nat → Bool × FFlags) (e : Env) : KeepsRun (vCmpBody a fp x s k f e) := by
  unfold vCmpBody
  repeat' first
    | with_reducible intro _ | with_reducible apply keeps_changeArch | with_reducible apply keeps_getArch
    | with_reducible apply keeps_getV | with_reducible apply keeps_formVSrc | with_reducible apply keeps_readVSrc
    | with_reducible apply keeps_checkVec | with_reducible apply keepsRun_bind | with_reducible exact keepsRun_pure _

theorem keeps_vCmpInstr {s00 st : State} (fp : Bool) (sizes : List Nat) (f : Nat → Nat → Nat → Bool × FFlags) (a : At) (x s : Opd) (k : BitVec 8) (hk : Keeps s00 st) : Goes s00 (vCmpInstr fp sizes f a x s k st) := by
  unfold vCmpInstr
  repeat' first
    | with_reducible assumption | with_reducible intro _ | with_reducible apply keeps_runInstr | with_reducible apply keeps_vCmpBody

theorem keeps_execVcmpeq {s00 st : State} (a : At) (x s : Opd) (k : BitVec 8) (hk : Keeps s00 st) : Goes s00 (execVcmpeq a x s k st) := by
  unfold execVcmpeq
  repeat' first
    | with_reducible assumption | with_reducible apply keeps_vCmpInstr

theorem keeps_execVcmplt {s00 st : State} (a : At) (x s : Opd) (k : BitVec 8) (hk : Keeps s00 st) : Goes s00 (execVcmplt a x s k st) := by
  unfold execVcmplt
  repeat' first
    | with_reducible assumption | with_reducible apply keeps_vCmpInstr

theorem keeps_execVcmpltu {s00 st : State} (a : At) (x s : Opd) (k : BitVec 8) (hk : Keeps s00 st) : Goes s00 (execVcmpltu a x s k st) := by
  unfold execVcmpltu
  repeat' first
    | with_reducible assumption | with_reducible apply keeps_vCmpInstr

theorem keeps_execVfcmplt {s00 st : State} (a : At) (x s : Opd) (k : BitVec 8) (hk : Keeps s00 st) : Goes s00 (execVfcmplt a x s k st) := by
  unfold execVfcmplt
  repeat' first
    | with_reducible assumption | with_reducible apply keeps_vCmpInstr

theorem keeps_execVld {s00 st : State} (a : At) (d m : Opd) (hk : Keeps s00 st) : Goes s00 (execVld a d m st) := by
  unfold execVld
  repeat' first
    | with_reducible assumption | with_reducible intro _ | with_reducible apply keeps_getArch | with_reducible apply keeps_runInstr
    | with_reducible apply keeps_getV | with_reducible apply keeps_setV | with_reducible apply keeps_formVec
    | with_reducible apply keeps_loadVec | with_reducible apply keepsRun_bind | with_reducible exact keepsRun_pure _

theorem keeps_storeVec (e : Env) (acc : VAcc) (es n : Nat) (act : Nat → Bool) (ws : List TWord) : KeepsRun (storeVec e acc es n act ws) := by
  unfold storeVec
  repeat' first
    | with_reducible intro _ | with_reducible apply keeps_note | with_reducible apply keeps_pushStore
    | with_reducible apply keeps_frameStore | with_reducible apply keepsRun_get_bind | with_reducible apply keepsRun_bind
    | with_reducible exact keepsRun_pure _ | with_reducible apply keepsRun_ite | with_reducible apply keepsAt_ite
    | with_reducible apply keepsAt_of

theorem keeps_execVst {s00 st : State} (a : At) (m s : Opd) (hk : Keeps s00 st) : Goes s00 (execVst a m s st) := by
  unfold execVst
  repeat' first
    | with_reducible assumption | with_reducible intro _ | with_reducible apply keeps_getArch | with_reducible apply keeps_runInstr
    | with_reducible apply keeps_getV | with_reducible apply keeps_formVec | with_reducible apply keeps_checkVec
    | with_reducible apply keeps_storeVec | with_reducible apply keepsRun_bind | with_reducible exact keepsRun_pure _

theorem keeps_gatherForm (e : Env) (bopnd iopnd es i : Nat) (write : Bool) (b : Fin 16) (idx : List TWord) (scale : BitVec 8) : KeepsRun (gatherForm e bopnd iopnd es i write b idx scale) := by
  unfold gatherForm
  repeat' first
    | with_reducible intro _ | with_reducible exact keeps_raiseX_bind _ _ | with_reducible apply keeps_xlat
    | with_reducible apply keeps_baseReg | with_reducible apply keepsRun_bind | with_reducible exact keepsRun_pure _
    | with_reducible apply keepsRun_ite

theorem keeps_gatherLoad (e : Env) (es i : Nat) (b : Fin 16) (idx : List TWord) (scale : BitVec 8) : KeepsRun (gatherLoad e es i b idx scale) := by
  unfold gatherLoad
  repeat' first
    | with_reducible intro _ | with_reducible exact keeps_raiseX_bind _ _ | with_reducible apply keeps_awaitStores
    | with_reducible apply keeps_noteLoad | with_reducible apply keeps_loadVWord | with_reducible apply keeps_gatherForm
    | with_reducible apply keepsRun_bind | with_reducible exact keepsRun_pure _ | with_reducible apply keepsRun_ite

theorem keeps_gatherLoop (e : Env) (load : Nat → CoreRun (Nat × Tag)) (act : Nat → Bool) (resumes : Bool) (start i left : Nat)
    (vals : List (Nat × Nat × Tag)) (hf : ∀ x, KeepsRun (load x)) : KeepsRun (gatherLoop e load act resumes start i left vals) := by
  induction left generalizing i vals with
  | zero => exact keepsRun_pure _
  | succ n ih =>
    unfold gatherLoop
    repeat' first
      | exact ih _ _ | with_reducible apply hf | with_reducible exact keepsRun_get | with_reducible apply keepsRun_bind
      | with_reducible apply keepsRun_tryCatch | with_reducible apply keepsRun_ite | with_reducible exact keepsRun_pure _
      | split | with_reducible intro _ | (rename_i v; cases v <;> exact keepsRun_pure _) | dsimp only

theorem keeps_gatherBody (a : At) (d : Opd) (b : Fin 16) (ix : Opd) (scale : BitVec 8) (e : Env) : KeepsRun (gatherBody a d b ix scale e) := by
  unfold gatherBody
  repeat' first
    | with_reducible intro _ | with_reducible apply keeps_changeArch | with_reducible apply keeps_getArch
    | with_reducible apply keeps_getV | with_reducible apply keeps_setV | with_reducible apply keeps_gatherLoad
    | with_reducible apply keeps_gatherLoop | with_reducible apply keepsRun_bind | with_reducible exact keepsRun_pure _
    | with_reducible exact keepsRun_throw _ | with_reducible apply keepsRun_ite | split

theorem keeps_execVgather {s00 st : State} (a : At) (d b i : Opd) (scale : BitVec 8) (hk : Keeps s00 st) : Goes s00 (execVgather a d b i scale st) := by
  unfold execVgather
  repeat' first
    | with_reducible assumption | with_reducible intro _ | with_reducible apply keeps_runInstr | with_reducible apply keeps_gatherBody

theorem keeps_execVgatherFf {s00 st : State} (a : At) (d b i : Opd) (scale : BitVec 8) (hk : Keeps s00 st) : Goes s00 (execVgatherFf a d b i scale st) := by
  unfold execVgatherFf
  repeat' first
    | with_reducible assumption | with_reducible intro _ | with_reducible apply keeps_runInstr | with_reducible apply keeps_gatherBody

theorem keeps_scatterStore (e : Env) (es i : Nat) (b : Fin 16) (idx src : List TWord) (scale : BitVec 8) : KeepsRun (scatterStore e es i b idx src scale) := by
  unfold scatterStore
  repeat' first
    | with_reducible intro _ | with_reducible exact keeps_raiseX_bind _ _ | with_reducible apply keeps_storeBytes
    | with_reducible apply keeps_gatherForm | with_reducible apply keepsRun_bind | with_reducible exact keepsRun_pure _
    | with_reducible apply keepsRun_ite

theorem keeps_execVscatter {s00 st : State} (a : At) (b i s : Opd) (scale : BitVec 8) (hk : Keeps s00 st) : Goes s00 (execVscatter a b i s scale st) := by
  unfold execVscatter
  repeat' first
    | with_reducible assumption | with_reducible intro _ | with_reducible apply keeps_changeArch | with_reducible apply keeps_getArch
    | with_reducible apply keeps_fenceAll | with_reducible apply keeps_runInstr | with_reducible apply keeps_getV
    | with_reducible apply keeps_gatherLoop | with_reducible apply keeps_scatterStore | with_reducible apply keepsRun_bind
    | with_reducible exact keepsRun_pure _ | with_reducible exact keepsRun_throw _ | with_reducible apply keepsRun_ite | split

theorem keeps_execVperm {s00 st : State} (a : At) (d x i : Opd) (hk : Keeps s00 st) : Goes s00 (execVperm a d x i st) := by
  unfold execVperm
  repeat' first
    | with_reducible assumption | with_reducible intro _ | with_reducible apply keeps_getArch | with_reducible apply keeps_runInstr
    | with_reducible apply keeps_getV | with_reducible apply keeps_setV | with_reducible apply keeps_checkVec
    | with_reducible apply keepsRun_bind | with_reducible exact keepsRun_pure _

theorem keeps_execVbcast {s00 st : State} (a : At) (d s : Opd) (hk : Keeps s00 st) : Goes s00 (execVbcast a d s st) := by
  unfold execVbcast
  repeat' first
    | with_reducible assumption | with_reducible intro _ | with_reducible apply keeps_getArch | with_reducible apply keeps_formOpd
    | with_reducible apply keeps_readPlace | with_reducible apply keeps_checkSrc | with_reducible apply keeps_runInstr
    | with_reducible apply keeps_getV | with_reducible apply keeps_setV | with_reducible apply keepsRun_bind
    | with_reducible exact keepsRun_pure _

theorem keeps_execVsetvl {s00 st : State} (a : At) (d s : Opd) (hk : Keeps s00 st) : Goes s00 (execVsetvl a d s st) := by
  unfold execVsetvl
  repeat' first
    | with_reducible assumption | with_reducible intro _ | with_reducible apply keeps_changeArch | with_reducible apply keeps_formOpd
    | with_reducible apply keeps_readPlace | with_reducible apply keeps_checkSrc | with_reducible apply keeps_writePlace
    | with_reducible apply keeps_runInstr | with_reducible apply keepsRun_bind | with_reducible exact keepsRun_pure _

theorem keeps_execMtk {s00 st : State} (a : At) (k : BitVec 8) (s : Opd) (hk : Keeps s00 st) : Goes s00 (execMtk a k s st) := by
  unfold execMtk
  repeat' first
    | with_reducible assumption | with_reducible intro _ | with_reducible apply keeps_changeArch | with_reducible apply keeps_formOpd
    | with_reducible apply keeps_readPlace | with_reducible apply keeps_checkSrc | with_reducible apply keeps_runInstr
    | with_reducible apply keepsRun_bind | with_reducible exact keepsRun_pure _

theorem keeps_execMfk {s00 st : State} (a : At) (d : Opd) (k : BitVec 8) (hk : Keeps s00 st) : Goes s00 (execMfk a d k st) := by
  unfold execMfk
  repeat' first
    | with_reducible assumption | with_reducible intro _ | with_reducible apply keeps_getArch | with_reducible apply keeps_formOpd
    | with_reducible apply keeps_writePlace | with_reducible apply keeps_runInstr | with_reducible apply keepsRun_bind
    | with_reducible exact keepsRun_pure _

theorem keeps_execMtvs {s00 st : State} (a : At) (n : BitVec 8) (s : Opd) (hk : Keeps s00 st) : Goes s00 (execMtvs a n s st) := by
  unfold execMtvs
  repeat' first
    | with_reducible assumption | with_reducible intro _ | with_reducible apply keeps_changeArch | with_reducible apply keeps_formOpd
    | with_reducible apply keeps_readPlace | with_reducible apply keeps_checkSrc | with_reducible apply keeps_runInstr
    | with_reducible apply keepsRun_bind | with_reducible exact keepsRun_pure _

theorem keeps_execMfvs {s00 st : State} (a : At) (d : Opd) (n : BitVec 8) (hk : Keeps s00 st) : Goes s00 (execMfvs a d n st) := by
  unfold execMfvs
  repeat' first
    | with_reducible assumption | with_reducible intro _ | with_reducible apply keeps_getArch | with_reducible apply keeps_formOpd
    | with_reducible apply keeps_writePlace | with_reducible apply keeps_runInstr | with_reducible apply keepsRun_bind
    | with_reducible exact keepsRun_pure _

end Sys2Proof.Machine
end

