-- ==== Sys2Proof/Laws/KeepsMemory.lean ====
section
/-! SUPPORT. Caches, the home, memory channels and the dictionary keep the queue and the invariant. -/

namespace Sys2Proof.Machine

theorem keeps_wakeSlice {s00 s : State} (h : Nat) (hk : Keeps s00 s) : Keeps s00 (wakeSlice h s) := by
  unfold wakeSlice
  repeat' first
    | with_reducible assumption | with_reducible apply keeps_wakeDom | split

theorem keeps_enterQueue {s00 s : State} (h : Nat) (q : HomeReq) (hk : Keeps s00 s) : Keeps s00 (enterQueue h q s) := by
  unfold enterQueue
  repeat' first
    | with_reducible assumption | with_reducible apply keeps_setSlice | with_reducible apply keeps_wakeSlice
    | with_reducible apply keeps_ite

theorem keeps_enqueueReq {s00 s : State} (r : Req) (op : HomeOp) (hk : Keeps s00 s) : Keeps s00 (enqueueReq r op s) := by
  unfold enqueueReq
  repeat' first
    | with_reducible assumption | with_reducible apply keeps_enterQueue | with_reducible apply keeps_ite | dsimp only
    | refine keeps_mk ?_ rfl rfl rfl rfl rfl rfl rfl rfl rfl

theorem keeps_admitReqs {s00 s : State} (n h : Nat) (hk : Keeps s00 s) : Keeps s00 (admitReqs n h s) := by
  induction n generalizing s with
  | zero => exact hk
  | succ n ih =>
    rw [admitReqs]
    split
    · exact hk
    · exact ih (keeps_setSlice _ _ (keeps_enterQueue _ _ (keeps_mk hk rfl rfl rfl rfl rfl rfl rfl rfl rfl)))

theorem keeps_noteMiss {s00 s : State} (r : Req) (op : Nat) (atom : Option AtomWait) (hk : Keeps s00 s) : Keeps s00 (noteMiss r op s atom) := by
  unfold noteMiss
  repeat' first
    | with_reducible assumption | with_reducible apply keeps_setTile | split

theorem keeps_markNoInstall {s00 s : State} (r : Req) (hk : Keeps s00 s) : Keeps s00 (markNoInstall r s) := by
  unfold markNoInstall
  repeat' first
    | with_reducible assumption | with_reducible apply keeps_markMisses | split

theorem keeps_toWriteBack {s00 s : State} (t line : Nat) (txn : BitVec 16) (hk : Keeps s00 s) : Keeps s00 (toWriteBack t line txn s) := by
  unfold toWriteBack
  repeat' first
    | with_reducible assumption | with_reducible intro _ | with_reducible apply keeps_setTile | with_reducible apply keeps_dropL2
    | with_reducible apply keeps_dropL1 | with_reducible refine keeps_flushFrame _ _ ?_ _ ‹_› | with_reducible apply keeps_getD | split

theorem keeps_sendPkt {s00 s : State} (p : Pkt) (hk : Keeps s00 s) : Keeps s00 (sendPkt p s) := by
  unfold sendPkt
  repeat' first
    | with_reducible assumption | dsimp only | refine keeps_mk ?_ rfl rfl rfl rfl rfl rfl rfl rfl rfl

theorem keeps_takePkt {s00 s : State} (stop line : Nat) (f : PktKind → Bool) (hk : Keeps s00 s) :
    ∀ p u, takePkt stop line f s = some (p, u) → Keeps s00 u := by
  intro p u e
  unfold takePkt at e
  obtain ⟨x, -, q⟩ := Option.map_eq_some_iff.1 e
  cases q
  exact keeps_congr hk rfl rfl rfl rfl rfl rfl rfl rfl rfl

theorem keeps_deliverData {s00 s : State} (stop : Nat) (ws : List TWord) (hk : Keeps s00 s) : Keeps s00 (deliverData stop ws s) := by
  unfold deliverData
  repeat' first
    | with_reducible assumption | dsimp only | refine keeps_mk ?_ rfl rfl rfl rfl rfl rfl rfl rfl rfl

theorem keeps_sendGnt {s00 s : State} (r : Req) (line : Nat) (st : BitVec 2) (data : Bool) (ws : List TWord) (sl : Option Word) (hk : Keeps s00 s) : Keeps s00 (sendGnt r line st data ws sl s) := by
  unfold sendGnt
  repeat' first
    | with_reducible assumption | with_reducible apply keeps_sendPkt

theorem keeps_sendDone {s00 s : State} (r : Req) (ws : List TWord) (hk : Keeps s00 s) : Keeps s00 (sendDone r ws s) := by
  unfold sendDone
  repeat' first
    | with_reducible assumption | with_reducible apply keeps_sendPkt

theorem keeps_putEntry {s00 s : State} (line : Nat) (d : DirEntry) (hk : Keeps s00 s) : Keeps s00 (putEntry line d s) := by
  unfold putEntry
  repeat' first
    | with_reducible assumption | with_reducible apply keeps_setDir | with_reducible apply keeps_clearDir
    | with_reducible apply keeps_ite

theorem keeps_finishShr {s00 s : State} (a : Attr) (r : Req) (t : Nat) (x : Txn) (line : Nat) (hk : Keeps s00 s) : Keeps s00 (finishShr a r t x line s) := by
  unfold finishShr
  repeat' first
    | with_reducible assumption | with_reducible apply keeps_setDir | with_reducible apply keeps_settleLine
    | with_reducible apply keeps_dirReplace | with_reducible apply keeps_sendGnt | with_reducible apply keeps_ite | split

theorem keeps_finishOwn {s00 s : State} (a : Attr) (r : Req) (t : Nat) (data : Bool) (line : Nat) (hk : Keeps s00 s) : Keeps s00 (finishOwn a r t data line s) := by
  unfold finishOwn
  repeat' first
    | with_reducible assumption | with_reducible apply keeps_setDir | with_reducible apply keeps_dirReplace
    | with_reducible apply keeps_sendGnt | with_reducible apply keeps_ite

theorem keeps_finishClean {s00 s : State} (a : Attr) (x : Txn) (line : Nat) (hk : Keeps s00 s) : Keeps s00 (finishClean a x line s) := by
  unfold finishClean
  repeat' first
    | with_reducible assumption | with_reducible apply keeps_setDir | with_reducible apply keeps_settleLine
    | with_reducible apply keeps_putEntry | with_reducible apply keeps_ite | split | dsimp only

theorem keeps_finishRecall {s00 s : State} (a : Attr) (lines : List Nat) (hk : Keeps s00 s) : Keeps s00 (finishRecall a lines s) := by
  unfold finishRecall
  repeat' first
    | with_reducible assumption | with_reducible intro _ | with_reducible apply keeps_clearDir | with_reducible apply keeps_settleLine
    | with_reducible apply keeps_foldl

theorem keeps_atomicAtHome {s00 s : State} (a : Attr) (pa : Nat) (op : AtomOp) (dbl : Bool) (v cmp : TWord) (hk : Keeps s00 s) : Keeps s00 (atomicAtHome a pa op dbl v cmp s).2 := by
  unfold atomicAtHome
  repeat' first
    | with_reducible assumption | with_reducible apply keeps_writeAtHome | with_reducible apply keeps_pair_ite

theorem keeps_atomicAtTile {s00 s : State} (stop : Nat) (x : AtomWait) (hk : Keeps s00 s) : Keeps s00 (atomicAtTile stop x s) := by
  unfold atomicAtTile
  repeat' first
    | with_reducible assumption | with_reducible apply keeps_deliverData | with_reducible apply keeps_ite | dsimp only
    | refine keeps_mk ?_ rfl rfl rfl rfl rfl rfl rfl rfl rfl

theorem keeps_finishEvict {s00 s : State} (r : Req) (dirty : Bool) (line : Nat) (hk : Keeps s00 s) : Keeps s00 (finishEvict r dirty line s) := by
  unfold finishEvict
  repeat' first
    | with_reducible assumption | with_reducible apply keeps_setSlice | with_reducible apply keeps_setDir
    | with_reducible apply keeps_sendPkt | with_reducible apply keeps_putEntry | with_reducible apply keeps_ite | split

theorem keeps_finishTxn {s00 s : State} (x : Txn) (hk : Keeps s00 s) : Keeps s00 (finishTxn x s) := by
  unfold finishTxn
  repeat' first
    | with_reducible assumption | with_reducible intro _ | with_reducible apply keeps_homeWrite | with_reducible apply keeps_spanWrite
    | with_reducible apply keeps_spanZero | with_reducible apply keeps_maintainLine | with_reducible apply keeps_sendPkt
    | with_reducible apply keeps_sendGnt | with_reducible apply keeps_sendDone | with_reducible apply keeps_finishShr
    | with_reducible apply keeps_finishOwn | with_reducible apply keeps_finishClean | with_reducible apply keeps_finishRecall
    | with_reducible apply keeps_atomicAtHome | with_reducible apply keeps_finishEvict | with_reducible apply keeps_ite
    | with_reducible apply keeps_foldl | split

theorem keeps_touchServed {s00 s : State} (op : HomeOp) (lines : List Nat) (hk : Keeps s00 s) : Keeps s00 (touchServed op lines s) := by
  unfold touchServed
  repeat' first
    | with_reducible assumption | with_reducible intro _ | with_reducible apply keeps_touchSector | with_reducible apply keeps_ite
    | with_reducible apply keeps_foldl | split

theorem keeps_advanceTxn {s00 s : State} (h : Nat) (x : Txn) (hk : Keeps s00 s) : Keeps s00 (advanceTxn h x s) := by
  unfold advanceTxn
  repeat' first
    | with_reducible assumption | with_reducible apply keeps_countUncore | with_reducible apply keeps_setSlice
    | with_reducible apply keeps_finishTxn | with_reducible apply keeps_touchServed | with_reducible apply keeps_ite

theorem keeps_updateTxn {s00 s : State} (line : Nat) (f : Txn → Txn) (hk : Keeps s00 s) : Keeps s00 (updateTxn line f s) := by
  unfold updateTxn
  repeat' first
    | with_reducible assumption | with_reducible apply keeps_setSlice | with_reducible apply keeps_advanceTxn | split | dsimp only

theorem keeps_sendSnoop {s00 s : State} (h : Nat) (r : Req) (k : Snoop) (t line : Nat) (hk : Keeps s00 s) : Keeps s00 (sendSnoop h r k t line s) := by
  unfold sendSnoop
  repeat' first
    | with_reducible assumption | with_reducible apply keeps_setSlice | with_reducible apply keeps_sendPkt

theorem keeps_startTxn {s00 s : State} (h : Nat) (q : HomeReq) (hk : Keeps s00 s) : Keeps s00 (startTxn h q s) := by
  unfold startTxn
  repeat' first
    | with_reducible assumption | with_reducible intro _ | with_reducible apply keeps_countUncore
    | with_reducible apply keeps_predictAtomic | with_reducible apply keeps_advanceTxn | with_reducible apply keeps_sendSnoop
    | with_reducible apply keeps_foldl | split

theorem keeps_homeLookup {s00 s : State} (h cycle : Nat) (hk : Keeps s00 s) : Keeps s00 (homeLookup h cycle s) := by
  unfold homeLookup
  repeat' first
    | with_reducible assumption | with_reducible apply keeps_setSlice | with_reducible apply keeps_startTxn
    | with_reducible apply keeps_ite | split | dsimp only

theorem keeps_retryEntry {s00 s : State} (h : Nat) (hk : Keeps s00 s) : Keeps s00 (retryEntry h s) := by
  unfold retryEntry
  repeat' first
    | with_reducible assumption | with_reducible apply keeps_updateTxn | split

theorem keeps_execHomeLookup {s00 s : State} (sl : HomeTick) (hk : Keeps s00 s) : Goes s00 (execHomeLookup sl s) := by
  unfold execHomeLookup
  repeat' first
    | with_reducible assumption | with_reducible apply keeps_admitReqs | with_reducible apply keeps_homeLookup
    | with_reducible apply keeps_retryEntry | with_reducible apply goes_next

theorem keeps_execRdShr {s00 s : State} (r : Req) (hk : Keeps s00 s) : Goes s00 (execRdShr r s) := by
  unfold execRdShr
  repeat' first
    | with_reducible assumption | with_reducible apply keeps_enqueueReq | with_reducible apply keeps_noteMiss
    | with_reducible apply goes_next | with_reducible apply keeps_ite

theorem keeps_execRdOwn {s00 s : State} (r : Req) (hk : Keeps s00 s) : Goes s00 (execRdOwn r s) := by
  unfold execRdOwn
  repeat' first
    | with_reducible assumption | with_reducible apply keeps_enqueueReq | with_reducible apply keeps_noteMiss
    | with_reducible apply goes_next | with_reducible apply keeps_ite

theorem keeps_execUpgrade {s00 s : State} (r : Req) (hk : Keeps s00 s) : Goes s00 (execUpgrade r s) := by
  unfold execUpgrade
  repeat' first
    | with_reducible assumption | with_reducible apply keeps_enqueueReq | with_reducible apply keeps_noteMiss
    | with_reducible apply goes_next | with_reducible apply keeps_ite

theorem keeps_execRdNi {s00 s : State} (r : Req) (hk : Keeps s00 s) : Goes s00 (execRdNi r s) := by
  unfold execRdNi
  repeat' first
    | with_reducible assumption | with_reducible apply keeps_enqueueReq | with_reducible apply keeps_noteMiss
    | with_reducible apply goes_next | with_reducible apply keeps_ite

theorem keeps_execRdUc {s00 s : State} (r : Req) (hk : Keeps s00 s) : Goes s00 (execRdUc r s) := by
  unfold execRdUc
  repeat' first
    | with_reducible assumption | with_reducible apply keeps_enqueueReq | with_reducible apply goes_next

theorem keeps_execWrUc {s00 s : State} (r : Req) (k : Fin 4) (mask : BitVec 64) (data : BitVec 512) (tags : List Tag) (hk : Keeps s00 s) : Goes s00 (execWrUc r k mask data tags s) := by
  unfold execWrUc
  repeat' first
    | with_reducible assumption | with_reducible apply keeps_enqueueReq | with_reducible apply goes_next

theorem keeps_execEvict {s00 s : State} (r : Req) (dirty : Bool) (hk : Keeps s00 s) : Goes s00 (execEvict r dirty s) := by
  unfold execEvict
  repeat' first
    | with_reducible assumption | with_reducible apply keeps_enqueueReq | with_reducible apply keeps_toWriteBack
    | with_reducible apply goes_next | with_reducible apply goes_ite | split

theorem keeps_execDmaRd {s00 s : State} (r : Req) (subs : BitVec 4) (hk : Keeps s00 s) : Goes s00 (execDmaRd r subs s) := by
  unfold execDmaRd
  repeat' first
    | with_reducible assumption | with_reducible apply keeps_enqueueReq | with_reducible apply goes_next

theorem keeps_execDmaWr {s00 s : State} (r : Req) (k : Fin 4) (mask : BitVec 64) (data : BitVec 512) (tags : List Tag) (hk : Keeps s00 s) : Goes s00 (execDmaWr r k mask data tags s) := by
  unfold execDmaWr
  repeat' first
    | with_reducible assumption | with_reducible apply keeps_enqueueReq | with_reducible apply goes_next

theorem keeps_execSpanWr {s00 s : State} (r : Req) (data : List Word) (tags : List Tag) (sl : Word) (hk : Keeps s00 s) : Goes s00 (execSpanWr r data tags sl s) := by
  unfold execSpanWr
  repeat' first
    | with_reducible assumption | with_reducible apply keeps_enqueueReq | with_reducible apply goes_next

theorem keeps_execZero {s00 s : State} (r : Req) (hk : Keeps s00 s) : Goes s00 (execZero r s) := by
  unfold execZero
  repeat' first
    | with_reducible assumption | with_reducible apply keeps_enqueueReq | with_reducible apply goes_next

theorem keeps_execClear {s00 s : State} (r : Req) (hk : Keeps s00 s) : Goes s00 (execClear r s) := by
  unfold execClear
  repeat' first
    | with_reducible assumption | with_reducible apply keeps_enqueueReq | with_reducible apply goes_next

theorem keeps_execMClean {s00 s : State} (r : Req) (hk : Keeps s00 s) : Goes s00 (execMClean r s) := by
  unfold execMClean
  repeat' first
    | with_reducible assumption | with_reducible apply keeps_enqueueReq | with_reducible apply keeps_markNoInstall
    | with_reducible apply goes_next

theorem keeps_execMCleaninv {s00 s : State} (r : Req) (hk : Keeps s00 s) : Goes s00 (execMCleaninv r s) := by
  unfold execMCleaninv
  repeat' first
    | with_reducible assumption | with_reducible apply keeps_enqueueReq | with_reducible apply keeps_markNoInstall
    | with_reducible apply goes_next

theorem keeps_execMDiscard {s00 s : State} (r : Req) (hk : Keeps s00 s) : Goes s00 (execMDiscard r s) := by
  unfold execMDiscard
  repeat' first
    | with_reducible assumption | with_reducible apply keeps_enqueueReq | with_reducible apply keeps_markNoInstall
    | with_reducible apply goes_next

theorem keeps_execAtomic {s00 s : State} (r : Req) (op : AtomOp) (dbl : Bool) (v cmp : TWord) (hk : Keeps s00 s) : Goes s00 (execAtomic r op dbl v cmp s) := by
  unfold execAtomic
  repeat' first
    | with_reducible assumption | with_reducible apply keeps_enqueueReq | with_reducible apply goes_next

theorem keeps_execAtomicAny {s00 s : State} (r : Req) (op : AtomOp) (dbl : Bool) (v cmp : TWord) (hk : Keeps s00 s) : Goes s00 (execAtomicAny r op dbl v cmp s) := by
  unfold execAtomicAny
  repeat' first
    | with_reducible assumption | with_reducible apply keeps_enqueueReq | with_reducible apply keeps_noteMiss
    | with_reducible apply goes_next | with_reducible apply keeps_ite

theorem keeps_dropSpecFill {s00 s : State} (t line : Nat) (hk : Keeps s00 s) : Keeps s00 (dropSpecFill t line s) := by
  unfold dropSpecFill
  repeat' first
    | with_reducible assumption | with_reducible apply keeps_setCore | with_reducible apply keeps_countEvent
    | with_reducible apply keeps_ite | split

theorem keeps_snoopArrives {s00 s : State} (k : Snoop) (t line : Nat) (hk : Keeps s00 s) : Keeps s00 (snoopArrives k t line s) := by
  unfold snoopArrives
  repeat' first
    | with_reducible assumption | with_reducible apply keeps_setTile | with_reducible apply keeps_snoopTile
    | with_reducible apply keeps_sendPkt | with_reducible refine keeps_takePkt _ _ _ ?_ _ _ ‹_› | with_reducible apply keeps_dropSpecFill
    | with_reducible apply keeps_ite | split

theorem keeps_execSnpShr {s00 s : State} (t : SliceId) (pa : BitVec 52) (hk : Keeps s00 s) : Goes s00 (execSnpShr t pa s) := by
  unfold execSnpShr
  repeat' first
    | with_reducible assumption | with_reducible apply keeps_snoopArrives | with_reducible apply goes_next

theorem keeps_execSnpInv {s00 s : State} (t : SliceId) (pa : BitVec 52) (hk : Keeps s00 s) : Goes s00 (execSnpInv t pa s) := by
  unfold execSnpInv
  repeat' first
    | with_reducible assumption | with_reducible apply keeps_snoopArrives | with_reducible apply goes_next

theorem keeps_execSnpClean {s00 s : State} (t : SliceId) (pa : BitVec 52) (hk : Keeps s00 s) : Goes s00 (execSnpClean t pa s) := by
  unfold execSnpClean
  repeat' first
    | with_reducible assumption | with_reducible apply keeps_snoopArrives | with_reducible apply goes_next

theorem keeps_takeMiss {s00 s : State} (t line : Nat) (hk : Keeps s00 s) : Keeps s00 (takeMiss t line s).2 := by
  unfold takeMiss
  repeat' first
    | with_reducible assumption | with_reducible apply keeps_setTile | split | dsimp only

theorem keeps_installGrant {s00 s : State} (t line : Nat) (st : L2State) (hk : Keeps s00 s) :
    ∀ u, installGrant t line st s = some u → Keeps s00 u := by
  intro u e
  unfold installGrant at e
  split at e
  · cases e
    exact keeps_touchL2 _ _ (keeps_setL2 _ _ _ hk)
  · dsimp only at e
    split at e
    · cases e
    · cases e
      exact keeps_touchL2 _ _ (keeps_setL2 _ _ _ (keeps_enqueueReq _ _ (keeps_setTile _ _ (keeps_toWriteBack _ _ _ (keeps_took hk)))))

theorem keeps_performWaiting {s00 s : State} (t line : Nat) (hk : Keeps s00 s) : Keeps s00 (performWaiting t line s) := by
  unfold performWaiting
  split
  · exact hk
  · exact keeps_ite (keeps_foldl _ (fun _ _ h => keeps_getD h (keeps_drainOne _ h)) hk) hk

theorem keeps_performGranted {s00 s : State} (stop t line : Nat) (p : Pkt) (st : BitVec 2) (m : Option Miss) (hk : Keeps s00 s) : Keeps s00 (performGranted stop t line p st m s) := by
  unfold performGranted
  repeat' first
    | with_reducible assumption | with_reducible apply keeps_deliverData | with_reducible apply keeps_atomicAtTile
    | with_reducible apply keeps_performWaiting | with_reducible apply keeps_ite | split

theorem keeps_specInstalled {s00 s : State} (t line : Nat) (data : List TWord) (hk : Keeps s00 s) : Keeps s00 (specInstalled t line data s) := by
  unfold specInstalled
  repeat' first
    | with_reducible assumption | with_reducible apply keeps_setCore | with_reducible apply keeps_countEvent
    | with_reducible apply keeps_ite | split | dsimp only

theorem keeps_grantArrives {s00 s : State} (stop line : Nat) (hk : Keeps s00 s) : Keeps s00 (grantArrives stop line s) := by
  unfold grantArrives
  repeat' first
    | with_reducible assumption | with_reducible apply keeps_setCore | with_reducible refine keeps_takePkt _ _ _ ?_ _ _ ‹_›
    | with_reducible apply keeps_deliverData | with_reducible apply keeps_takeMiss
    | with_reducible refine keeps_installGrant _ _ _ ?_ _ ‹_› | with_reducible apply keeps_performGranted
    | with_reducible apply keeps_specInstalled | with_reducible apply keeps_ite | split | dsimp only

theorem keeps_execGnt {s00 s : State} (stop : BitVec 8) (pa : BitVec 52) (hk : Keeps s00 s) : Goes s00 (execGnt stop pa s) := by
  unfold execGnt
  repeat' first
    | with_reducible assumption | with_reducible apply keeps_grantArrives | with_reducible apply goes_next

theorem keeps_retryArrives {s00 s : State} (t line : Nat) (hk : Keeps s00 s) : Keeps s00 (retryArrives t line s) := by
  unfold retryArrives
  repeat' first
    | with_reducible assumption | with_reducible apply keeps_countUncore | with_reducible refine keeps_takePkt _ _ _ ?_ _ _ ‹_›
    | with_reducible apply keeps_takeMiss | split

theorem keeps_execRetry {s00 s : State} (t : SliceId) (pa : BitVec 52) (hk : Keeps s00 s) : Goes s00 (execRetry t pa s) := by
  unfold execRetry
  repeat' first
    | with_reducible assumption | with_reducible apply keeps_retryArrives | with_reducible apply goes_next

theorem keeps_freeWb {s00 s : State} (t line : Nat) (hk : Keeps s00 s) : Keeps s00 (freeWb t line s) := by
  unfold freeWb
  repeat' first
    | with_reducible assumption | with_reducible apply keeps_setTile

theorem keeps_pullArrives {s00 s : State} (t line : Nat) (hk : Keeps s00 s) : Keeps s00 (pullArrives t line s) := by
  unfold pullArrives
  repeat' first
    | with_reducible assumption | with_reducible apply keeps_sendPkt | with_reducible refine keeps_takePkt _ _ _ ?_ _ _ ‹_›
    | with_reducible apply keeps_freeWb | split

theorem keeps_execWbPull {s00 s : State} (t : SliceId) (pa : BitVec 52) (hk : Keeps s00 s) : Goes s00 (execWbPull t pa s) := by
  unfold execWbPull
  repeat' first
    | with_reducible assumption | with_reducible apply keeps_pullArrives | with_reducible apply goes_next

theorem keeps_ackArrives {s00 s : State} (t line : Nat) (hk : Keeps s00 s) : Keeps s00 (ackArrives t line s) := by
  unfold ackArrives
  repeat' first
    | with_reducible assumption | with_reducible refine keeps_takePkt _ _ _ ?_ _ _ ‹_› | with_reducible apply keeps_freeWb | split

theorem keeps_execEvictAck {s00 s : State} (t : SliceId) (pa : BitVec 52) (hk : Keeps s00 s) : Goes s00 (execEvictAck t pa s) := by
  unfold execEvictAck
  repeat' first
    | with_reducible assumption | with_reducible apply keeps_ackArrives | with_reducible apply goes_next

theorem keeps_dropAtom {s00 s : State} (stop : Nat) (p : Pkt) (hk : Keeps s00 s) : Keeps s00 (dropAtom stop p s) := by
  unfold dropAtom
  repeat' first
    | with_reducible assumption | with_reducible apply keeps_setTile | split | dsimp only

theorem keeps_doneArrives {s00 s : State} (stop line : Nat) (hk : Keeps s00 s) : Keeps s00 (doneArrives stop line s) := by
  unfold doneArrives
  repeat' first
    | with_reducible assumption | with_reducible refine keeps_takePkt _ _ _ ?_ _ _ ‹_› | with_reducible apply keeps_deliverData
    | with_reducible apply keeps_dropAtom | split

theorem keeps_execDone {s00 s : State} (stop : BitVec 8) (pa : BitVec 52) (hk : Keeps s00 s) : Goes s00 (execDone stop pa s) := by
  unfold execDone
  repeat' first
    | with_reducible assumption | with_reducible apply keeps_doneArrives | with_reducible apply goes_next

theorem keeps_answerArrives {s00 s : State} (t line : Nat) (f : PktKind → Bool) (hk : Keeps s00 s) : Keeps s00 (answerArrives t line f s) := by
  unfold answerArrives
  repeat' first
    | with_reducible assumption | with_reducible apply keeps_noteDropped | with_reducible refine keeps_takePkt _ _ _ ?_ _ _ ‹_›
    | with_reducible apply keeps_updateTxn | split

theorem keeps_execAck {s00 s : State} (t : SliceId) (pa : BitVec 52) (hk : Keeps s00 s) : Goes s00 (execAck t pa s) := by
  unfold execAck
  repeat' first
    | with_reducible assumption | with_reducible apply keeps_answerArrives | with_reducible apply goes_next

theorem keeps_execGone {s00 s : State} (t : SliceId) (pa : BitVec 52) (hk : Keeps s00 s) : Goes s00 (execGone t pa s) := by
  unfold execGone
  repeat' first
    | with_reducible assumption | with_reducible apply keeps_answerArrives | with_reducible apply goes_next

theorem keeps_wbDataArrives {s00 s : State} (t line : Nat) (hk : Keeps s00 s) : Keeps s00 (wbDataArrives t line s) := by
  unfold wbDataArrives
  repeat' first
    | with_reducible assumption | with_reducible apply keeps_settleLine | with_reducible refine keeps_takePkt _ _ _ ?_ _ _ ‹_›
    | with_reducible apply keeps_putEntry | with_reducible apply keeps_updateTxn | with_reducible apply keeps_ite | split

theorem keeps_execWbData {s00 s : State} (t : SliceId) (pa : BitVec 52) (hk : Keeps s00 s) : Goes s00 (execWbData t pa s) := by
  unfold execWbData
  repeat' first
    | with_reducible assumption | with_reducible apply keeps_wbDataArrives | with_reducible apply goes_next

theorem keeps_fillArrives {s00 s : State} (line : Nat) (hk : Keeps s00 s) : Keeps s00 (fillArrives line s) := by
  unfold fillArrives
  repeat' first
    | with_reducible assumption | with_reducible intro _ | with_reducible apply keeps_checkFill | with_reducible apply keeps_countNoAlloc
    | with_reducible apply keeps_fillLine | with_reducible apply keeps_updateTxn | with_reducible apply keeps_ite
    | with_reducible apply keeps_foldl | split | dsimp only

theorem keeps_execMemoryFill {s00 s : State} (pa : BitVec 52) (hk : Keeps s00 s) : Goes s00 (execMemoryFill pa s) := by
  unfold execMemoryFill
  repeat' first
    | with_reducible assumption | with_reducible apply keeps_fillArrives | with_reducible apply goes_next
    | with_reducible apply keeps_ite

theorem keeps_execProtocolError {s00 s : State} (sl : SliceId) (op : BitVec 8) (hk : Keeps s00 s) : Goes s00 (execProtocolError sl op s) := by
  unfold execProtocolError
  repeat' first
    | with_reducible assumption | with_reducible apply keeps_odBump | with_reducible apply goes_next | with_reducible apply keeps_ite

theorem keeps_pktArrives {s00 s : State} (p : Pkt) (hk : Keeps s00 s) : Keeps s00 (pktArrives p s) := by
  unfold pktArrives
  repeat' first
    | with_reducible assumption | with_reducible apply keeps_snoopArrives | with_reducible apply keeps_grantArrives
    | with_reducible apply keeps_retryArrives | with_reducible apply keeps_pullArrives | with_reducible apply keeps_ackArrives
    | with_reducible apply keeps_doneArrives | with_reducible apply keeps_answerArrives | with_reducible apply keeps_wbDataArrives
    | split

theorem keeps_sectorRound {s00 s : State} (sec : Nat) (hk : Keeps s00 s) : Keeps s00 (sectorRound sec s) := by
  have h3 := keeps_foldl (f := fun st k => fillArrives (4 * sec + k) st) (List.range 4) (fun _ _ h => keeps_fillArrives _ h)
    (keeps_foldl (f := fun st p => pktArrives p st) (s.coh.net.filter (fun p => decide (p.line / 4 = sec))) (fun _ _ h => keeps_pktArrives _ h)
      (keeps_foldl (f := fun st p => if napWaits ((stopTile p.stop).getD 0) p.line st then applyNap ((stopTile p.stop).getD 0) st else st)
        (s.coh.net.filter (fun p => decide (p.line / 4 = sec)))
        (fun _ _ h => keeps_ite (keeps_applyNap _ h) h) hk))
  unfold sectorRound
  dsimp only
  revert h3
  generalize List.foldl _ _ (List.range 4) = s3
  intro h3
  split
  · exact h3
  · exact keeps_startTxn _ _ (keeps_setSlice _ _ h3)

theorem keeps_quietSector {s00 s : State} (n sec : Nat) (hk : Keeps s00 s) : Keeps s00 (quietSector n sec s) := by
  induction n generalizing s with
  | zero =>
    unfold quietSector
    repeat' first
      | with_reducible assumption | with_reducible apply keeps_sectorRound | with_reducible apply keeps_ite
  | succ _ ih =>
    unfold quietSector
    repeat' first
      | with_reducible assumption | with_reducible apply ih | with_reducible apply keeps_sectorRound | with_reducible apply keeps_ite

theorem keeps_quietRange {s00 s : State} (pa n : Nat) (hk : Keeps s00 s) : Keeps s00 (quietRange pa n s) := by
  unfold quietRange
  repeat' first
    | with_reducible assumption | with_reducible intro _ | with_reducible apply keeps_quietSector | with_reducible apply keeps_foldl

theorem keeps_dmaWrite {s00 s : State} (a : Attr) (pa : Nat) (bytes : List Byte) (tag : Tag) (fuel : Nat) (hk : Keeps s00 s) : Keeps s00 (dmaWrite a pa bytes tag fuel s) := by
  unfold dmaWrite
  repeat' first
    | with_reducible assumption | with_reducible apply keeps_dmaWriteBytes | with_reducible apply keeps_quietRange

theorem keeps_dmaRead {s00 s : State} (a : Attr) (pa n : Nat) (hk : Keeps s00 s) : Keeps s00 (dmaRead a pa n s) := by
  unfold dmaRead
  repeat' first
    | with_reducible assumption | with_reducible apply keeps_dmaFetch | with_reducible apply keeps_quietRange

theorem keeps_spanStore {s00 s : State} (a : Attr) (sec : Nat) (ws : List TWord) (sl : Word) (ctx : Nat) (hk : Keeps s00 s) : Keeps s00 (spanStore a sec ws sl ctx s).2 := by
  unfold spanStore
  repeat' first
    | with_reducible assumption | with_reducible apply keeps_lookup | with_reducible apply keeps_spanWrite
    | with_reducible apply keeps_quietRange

theorem keeps_execStoreBufferWrite {s00 s : State} (c : CoreId) (hk : Keeps s00 s) : Goes s00 (execStoreBufferWrite c s) :=
  goes_next (keeps_getD hk (keeps_drainOne _ hk))

theorem keeps_execPrefetchIssue {s00 s : State} (c : CoreId) (pa : BitVec 52) (l2 : Bool) (hk : Keeps s00 s) : Goes s00 (execPrefetchIssue c pa l2 s) := by
  unfold execPrefetchIssue
  repeat' first
    | with_reducible assumption | with_reducible apply keeps_setCore | with_reducible apply keeps_acquireShared
    | with_reducible apply goes_next | with_reducible apply goes_ite | with_reducible apply keeps_ite

theorem keeps_flushTile {s00 s : State} (t : Nat) (keep : Nat → Bool) (hk : Keeps s00 s) : Keeps s00 (flushTile t s keep) := by
  unfold flushTile
  repeat' first
    | with_reducible assumption | with_reducible intro _ | with_reducible apply keeps_evictL2 | with_reducible apply keeps_foldl

theorem keeps_cleanTile {s00 s : State} (t : Nat) (hk : Keeps s00 s) : Keeps s00 (cleanTile t s) := by
  unfold cleanTile
  repeat' first
    | with_reducible assumption | with_reducible intro _ | with_reducible apply keeps_setL2
    | with_reducible refine keeps_flushFrame _ _ ?_ _ ‹_› | with_reducible apply keeps_finishClean | with_reducible apply keeps_getD
    | with_reducible apply keeps_ite | with_reducible apply keeps_foldl | split | dsimp only

theorem keeps_walkEnter {s00 s : State} (k : Nat) (hk : Keeps s00 s) : Keeps s00 (walkEnter k s) := by
  unfold walkEnter
  repeat' first
    | with_reducible assumption | with_reducible apply keeps_setCore | with_reducible apply keeps_setCorePwr
    | with_reducible refine keeps_drainStores _ ?_ _ ‹_› | with_reducible apply keeps_gaitEval | with_reducible apply keeps_flushTile
    | with_reducible apply keeps_ite | split

theorem keeps_applyMode {s00 s : State} (k : Nat) (hk : Keeps s00 s) : Keeps s00 (applyMode k s) := by
  unfold applyMode
  repeat' first
    | with_reducible assumption | with_reducible apply keeps_setCore | with_reducible apply keeps_dropSpec
    | with_reducible apply keeps_evalStalls | with_reducible apply keeps_ite

theorem keeps_walkExit {s00 s : State} (k : Nat) (hk : Keeps s00 s) : Keeps s00 (walkExit k s) := by
  unfold walkExit
  repeat' first
    | with_reducible assumption | with_reducible apply keeps_setCore | with_reducible apply keeps_gaitEval
    | with_reducible apply keeps_applyMode | with_reducible apply keeps_ite

theorem keeps_execWalkEnter {s00 s : State} (c : CoreId) (hk : Keeps s00 s) : Goes s00 (execWalkEnter c s) := by
  unfold execWalkEnter
  repeat' first
    | with_reducible assumption | with_reducible apply keeps_walkEnter | with_reducible apply goes_next

theorem keeps_execWalkExit {s00 s : State} (c : CoreId) (hk : Keeps s00 s) : Goes s00 (execWalkExit c s) := by
  unfold execWalkExit
  repeat' first
    | with_reducible assumption | with_reducible apply keeps_walkExit | with_reducible apply goes_next

theorem keeps_execCoreModeApply {s00 s : State} (c : CoreId) (hk : Keeps s00 s) : Goes s00 (execCoreModeApply c s) := by
  unfold execCoreModeApply
  repeat' first
    | with_reducible assumption | with_reducible apply keeps_applyMode | with_reducible apply goes_next | with_reducible apply keeps_ite

theorem keeps_takeIncident {s00 s : State} (n : BitVec 32) (hk : Keeps s00 s) : Keeps s00 (takeIncident n s) := by
  unfold takeIncident
  repeat' first
    | with_reducible assumption | with_reducible apply keeps_allocIncident | with_reducible apply keeps_ite

theorem keeps_beginRepair {s00 st : State} (kind : BitVec 8) (r : Repair) (hk : Keeps s00 st) : Keeps s00 (beginRepair kind r st).2 := by
  unfold beginRepair
  repeat' first
    | with_reducible assumption | with_reducible apply keeps_recordIn | with_reducible apply keeps_takeIncident
    | with_reducible apply keeps_pair_ite | dsimp only | refine keeps_mk ?_ rfl rfl rfl rfl rfl rfl rfl rfl rfl

theorem keeps_decideAgain {s00 s : State} (action : BitVec 8) (hk : Keeps s00 s) : Keeps s00 (decideAgain action s) := by
  unfold decideAgain
  repeat' first
    | with_reducible assumption | with_reducible apply keeps_ite | split | refine keeps_mk ?_ rfl rfl rfl rfl rfl rfl rfl rfl rfl

theorem keeps_endRepair {s00 s : State} (kind : BitVec 8) (action : BitVec 8) (res : Nat) (n : EndNote) (hk : Keeps s00 s) : Keeps s00 (endRepair kind action res n s) := by
  unfold endRepair
  repeat' first
    | with_reducible assumption | with_reducible apply keeps_recordIn | split | dsimp only
    | refine keeps_mk ?_ rfl rfl rfl rfl rfl rfl rfl rfl rfl

theorem keeps_repairNow {s00 s : State} (r : Rec) (hk : Keeps s00 s) : Keeps s00 (repairNow r s) := by
  unfold repairNow
  repeat' first
    | with_reducible assumption | with_reducible apply keeps_record

theorem keeps_bumpChan {s00 s : State} (c sub : Nat) (hk : Keeps s00 s) : Keeps s00 (bumpChan c sub s) := by
  unfold bumpChan
  repeat' first
    | with_reducible assumption | with_reducible apply keeps_odBump

theorem keeps_mapChan {s00 s : State} (c : Nat) (f : Channel → Channel) (hk : Keeps s00 s) : Keeps s00 (mapChan c f s) := by
  unfold mapChan
  repeat' first
    | with_reducible assumption | with_reducible apply keeps_setChannel

theorem keeps_changeChan {s00 s : State} (c : Nat) (f : Channel → Channel) (hk : Keeps s00 s) : Keeps s00 (changeChan c f s) := by
  unfold changeChan
  repeat' first
    | with_reducible assumption | with_reducible apply keeps_raise | with_reducible apply keeps_mapChan | with_reducible apply keeps_ite

theorem keeps_dramOut {s00 s : State} (c op arg : Nat) (hk : Keeps s00 s) : Keeps s00 (dramOut c op arg s) := by
  unfold dramOut
  repeat' first
    | with_reducible assumption | with_reducible apply keeps_emit

theorem keeps_poisonAt {s00 s : State} (c ca : Nat) (hk : Keeps s00 s) : Keeps s00 (poisonAt c ca s) := by
  unfold poisonAt
  repeat' first
    | with_reducible assumption | with_reducible apply keeps_poisonMem | split

theorem keeps_writeTack {s00 s : State} (c line : Nat) (hk : Keeps s00 s) : Keeps s00 (writeTack c line s) := by
  unfold writeTack
  repeat' first
    | with_reducible assumption | with_reducible apply keeps_mapChan | with_reducible apply keeps_dramOut
    | with_reducible apply keeps_ite

theorem keeps_touchTack {s00 s : State} (c line : Nat) (dirty : Bool) (hk : Keeps s00 s) : Keeps s00 (touchTack c line dirty s) := by
  unfold touchTack
  repeat' first
    | with_reducible assumption | with_reducible apply keeps_took | with_reducible apply keeps_countUncore
    | with_reducible apply keeps_setChannel | with_reducible apply keeps_bumpChan | with_reducible apply keeps_dramOut
    | with_reducible apply keeps_writeTack | split | dsimp only

theorem keeps_touchRecord {s00 s : State} (c k : Nat) (seals dirty : Bool) (hk : Keeps s00 s) : Keeps s00 (touchRecord c k seals dirty s) := by
  unfold touchRecord
  repeat' first
    | with_reducible assumption | with_reducible apply keeps_touchTack | with_reducible apply keeps_ite

theorem keeps_abortMigration {s00 s : State} (c : Nat) (hk : Keeps s00 s) : Keeps s00 (abortMigration c s) := by
  unfold abortMigration
  repeat' first
    | with_reducible assumption | with_reducible apply keeps_endRepair | with_reducible apply keeps_changeChan | split

theorem keeps_strikeMigration {s00 s : State} (c ca : Nat) (hk : Keeps s00 s) : Keeps s00 (strikeMigration c ca s).2 := by
  unfold strikeMigration
  repeat' first
    | with_reducible assumption | with_reducible apply keeps_odBump | with_reducible apply keeps_abortMigration | split

theorem keeps_sparingSteps {s00 s : State} (c rank : Nat) (hk : Keeps s00 s) : Keeps s00 (sparingSteps c rank s) := by
  unfold sparingSteps
  repeat' first
    | with_reducible assumption | with_reducible apply keeps_changeChan

theorem keeps_retirementSteps {s00 s : State} (c : Nat) (hk : Keeps s00 s) : Keeps s00 (retirementSteps c s) := by
  unfold retirementSteps
  repeat' first
    | with_reducible assumption | with_reducible apply keeps_odBump | with_reducible apply keeps_changeChan
    | with_reducible apply keeps_abortMigration | split

theorem keeps_spprSteps {s00 s : State} (c : Nat) (args : List Nat) (hk : Keeps s00 s) : Keeps s00 (spprSteps c args s) := by
  unfold spprSteps
  repeat' first
    | with_reducible assumption | with_reducible apply keeps_mapChan

theorem keeps_startSparing {s00 s : State} (c rank : Nat) (hk : Keeps s00 s) : Keeps s00 (startSparing c rank s) := by
  unfold startSparing
  repeat' first
    | with_reducible assumption | with_reducible apply keeps_beginRepair | with_reducible apply keeps_sparingSteps
    | with_reducible apply keeps_ite

theorem keeps_startRetirement {s00 s : State} (c : Nat) (hk : Keeps s00 s) : Keeps s00 (startRetirement c s) := by
  unfold startRetirement
  repeat' first
    | with_reducible assumption | with_reducible apply keeps_beginRepair | with_reducible apply keeps_retirementSteps
    | with_reducible apply keeps_ite | dsimp only | refine keeps_mk ?_ rfl rfl rfl rfl rfl rfl rfl rfl rfl

theorem keeps_markDevice {s00 s : State} (c rank device ca : Nat) (hk : Keeps s00 s) : Keeps s00 (markDevice c rank device ca s) := by
  unfold markDevice
  repeat' first
    | with_reducible assumption | with_reducible apply keeps_recordIn | with_reducible apply keeps_takeIncident
    | with_reducible apply keeps_changeChan | with_reducible apply keeps_strikeMigration | with_reducible apply keeps_startSparing
    | with_reducible apply keeps_ite

theorem keeps_startSppr {s00 s : State} (c ca device : Nat) (hk : Keeps s00 s) : Keeps s00 (startSppr c ca device s) := by
  unfold startSppr
  repeat' first
    | with_reducible assumption | with_reducible apply keeps_record | with_reducible apply keeps_beginRepair
    | with_reducible apply keeps_mapChan | with_reducible apply keeps_spprSteps | with_reducible apply keeps_markDevice
    | with_reducible apply keeps_ite

theorem keeps_correctedLine {s00 s : State} (c ca device : Nat) (all8 : Bool) (hk : Keeps s00 s) : Keeps s00 (correctedLine c ca device all8 s) := by
  unfold correctedLine
  repeat' first
    | with_reducible assumption | with_reducible apply keeps_bumpChan | with_reducible apply keeps_mapChan
    | with_reducible apply keeps_markDevice | with_reducible apply keeps_startSppr | with_reducible apply keeps_ite

theorem keeps_repairUe {s00 s : State} (c ca : Nat) (device : Option Nat) (hk : Keeps s00 s) : Keeps s00 (repairUe c ca device s) := by
  unfold repairUe
  repeat' first
    | with_reducible assumption | with_reducible apply keeps_startRetirement | with_reducible apply keeps_startSppr
    | with_reducible apply keeps_ite | split | dsimp only

theorem keeps_uncorrectableLine {s00 s : State} (c ca : Nat) (device : Option Nat) (hk : Keeps s00 s) : Keeps s00 (uncorrectableLine c ca device s) := by
  unfold uncorrectableLine
  repeat' first
    | with_reducible assumption | with_reducible apply keeps_recordIn | with_reducible apply keeps_takeIncident
    | with_reducible apply keeps_bumpChan | with_reducible apply keeps_poisonAt | with_reducible apply keeps_strikeMigration
    | with_reducible apply keeps_repairUe

theorem keeps_poisonTack {s00 s : State} (c n : Nat) (device : Option Nat) (inc : BitVec 32) (hk : Keeps s00 s) : Keeps s00 (poisonTack c n device inc s) := by
  unfold poisonTack
  repeat' first
    | with_reducible assumption | with_reducible intro _ | with_reducible apply keeps_recordIn | with_reducible apply keeps_bumpChan
    | with_reducible apply keeps_poisonAt | with_reducible apply keeps_foldl

theorem keeps_tackUe {s00 s : State} (c n : Nat) (device : Option Nat) (hk : Keeps s00 s) : Keeps s00 (tackUe c n device s) := by
  unfold tackUe
  repeat' first
    | with_reducible assumption | with_reducible apply keeps_takeIncident | with_reducible apply keeps_strikeMigration
    | with_reducible apply keeps_repairUe | with_reducible apply keeps_poisonTack

theorem keeps_lineCorrected {s00 s : State} (c ca device : Nat) (all8 : Bool) (hk : Keeps s00 s) : Keeps s00 (lineCorrected c ca device all8 s) := by
  unfold lineCorrected
  repeat' first
    | with_reducible assumption | with_reducible apply keeps_bumpChan | with_reducible apply keeps_correctedLine
    | with_reducible apply keeps_ite

theorem keeps_lineRead {s00 s : State} (c ca : Nat) (e : Ecc) (hk : Keeps s00 s) : Keeps s00 (lineRead c ca e s) := by
  unfold lineRead
  repeat' first
    | with_reducible assumption | with_reducible apply keeps_uncorrectableLine | with_reducible apply keeps_lineCorrected | split

theorem keeps_tackRead {s00 s : State} (c n : Nat) (e : Ecc) (hk : Keeps s00 s) : Keeps s00 (tackRead c n e s) := by
  unfold tackRead
  repeat' first
    | with_reducible assumption | with_reducible apply keeps_tackUe | with_reducible apply keeps_lineCorrected | split

theorem keeps_recordRead {s00 s : State} (c k : Nat) (tags seals : Ecc) (hk : Keeps s00 s) : Keeps s00 (recordRead c k tags seals s) := by
  unfold recordRead
  repeat' first
    | with_reducible assumption | with_reducible apply keeps_tackRead

theorem keeps_reportTackCache {s00 s : State} (c line : Nat) (ue : Bool) (hk : Keeps s00 s) : Keeps s00 (reportTackCache c line ue s) := by
  unfold reportTackCache
  repeat' first
    | with_reducible assumption | with_reducible apply keeps_allocIncident | with_reducible apply keeps_bumpChan
    | with_reducible apply keeps_poisonTack | with_reducible apply keeps_ite

theorem keeps_queueReq {s00 s : State} (c : Nat) (tie : Bool) (r : McReq) (hk : Keeps s00 s) : Keeps s00 (queueReq c tie r s) := by
  unfold queueReq
  repeat' first
    | with_reducible assumption | with_reducible apply keeps_mapChan

theorem keeps_execMcRequest {s00 s : State} (c : ChanId) (k : McKind) (pa : BitVec 52) (stall : StallId) (pri : BitVec 2) (src : McSource) (hk : Keeps s00 s) : Goes s00 (execMcRequest c k pa stall pri src s) := by
  unfold execMcRequest
  repeat' first
    | with_reducible assumption | with_reducible apply keeps_wakeDom | with_reducible apply keeps_closePatrol
    | with_reducible apply keeps_queueReq | with_reducible apply goes_next | with_reducible apply goes_ite

theorem keeps_mcIssue {s00 s : State} (c i : Nat) (close : Bool) (hk : Keeps s00 s) : Keeps s00 (mcIssue c i close s) := by
  unfold mcIssue
  repeat' first
    | with_reducible assumption | with_reducible apply keeps_countUncore | with_reducible apply keeps_setChannel
    | with_reducible apply keeps_dramOut | with_reducible apply keeps_touchRecord | with_reducible apply keeps_ite | split | dsimp only

theorem keeps_issueRefresh {s00 s : State} (c rank : Nat) (hk : Keeps s00 s) : Keeps s00 (issueRefresh c rank s) := by
  unfold issueRefresh
  repeat' first
    | with_reducible assumption | with_reducible apply keeps_mapChan | with_reducible apply keeps_dramOut

theorem keeps_mcIdle {s00 s : State} (c : Nat) (hk : Keeps s00 s) : Keeps s00 (mcIdle c s) := by
  unfold mcIdle
  repeat' first
    | with_reducible assumption | with_reducible apply keeps_mapChan | with_reducible apply keeps_dramOut | split

theorem keeps_mcSlot {s00 s : State} (c aged : Nat) (hk : Keeps s00 s) : Keeps s00 (mcSlot c aged s) := by
  unfold mcSlot
  repeat' first
    | with_reducible assumption | with_reducible apply keeps_mcIssue | with_reducible apply keeps_issueRefresh
    | with_reducible apply keeps_mcIdle | split | dsimp only

theorem keeps_execDramCommandSlot {s00 s : State} (c : ChanId) (aged : Nat) (hk : Keeps s00 s) : Goes s00 (execDramCommandSlot c aged s) := by
  unfold execDramCommandSlot
  repeat' first
    | with_reducible assumption | with_reducible apply keeps_mcSlot | with_reducible apply goes_next | with_reducible apply keeps_ite

theorem keeps_ownedSlot {s00 s : State} (c n : Nat) (hk : Keeps s00 s) : Keeps s00 (ownedSlot c n s) := by
  unfold ownedSlot
  repeat' first
    | with_reducible assumption | with_reducible apply keeps_mcIssue | with_reducible apply keeps_ite | split | dsimp only

theorem keeps_openSlot {s00 s : State} (c slot aged : Nat) (hk : Keeps s00 s) : Keeps s00 (openSlot c slot aged s) := by
  unfold openSlot
  repeat' first
    | with_reducible assumption | with_reducible apply keeps_mcIssue | with_reducible apply keeps_issueRefresh
    | with_reducible apply keeps_mcIdle | split | dsimp only

theorem keeps_execFixedSlot {s00 s : State} (c : ChanId) (slot : Fin 32) (aged : Nat) (hk : Keeps s00 s) : Goes s00 (execFixedSlot c slot aged s) := by
  unfold execFixedSlot
  repeat' first
    | with_reducible assumption | with_reducible apply keeps_mapChan | with_reducible apply keeps_ownedSlot
    | with_reducible apply keeps_openSlot | with_reducible apply goes_next | with_reducible apply goes_ite | split

theorem keeps_execDramReadDone {s00 s : State} (c : ChanId) (data : List Ecc) (tags seals : Ecc) (hk : Keeps s00 s) : Goes s00 (execDramReadDone c data tags seals s) := by
  unfold execDramReadDone
  repeat' first
    | with_reducible assumption | with_reducible intro _ | with_reducible apply keeps_setChannel | with_reducible apply keeps_lineRead
    | with_reducible apply keeps_tackRead | with_reducible apply keeps_recordRead | with_reducible apply goes_next
    | with_reducible apply keeps_ite | with_reducible apply keeps_foldl | split | dsimp only

theorem keeps_execBankCloseTimeout {s00 s : State} (c : ChanId) (bank : Nat) (hk : Keeps s00 s) : Goes s00 (execBankCloseTimeout c bank s) := by
  unfold execBankCloseTimeout
  repeat' first
    | with_reducible assumption | with_reducible apply keeps_setChannel | with_reducible apply goes_next | with_reducible apply keeps_ite

theorem keeps_execRefreshDue {s00 s : State} (c : ChanId) (rank : Fin 8) (hk : Keeps s00 s) : Goes s00 (execRefreshDue c rank s) := by
  unfold execRefreshDue
  repeat' first
    | with_reducible assumption | with_reducible apply keeps_setChannel | with_reducible apply keeps_dramOut
    | with_reducible apply goes_next | with_reducible apply keeps_ite

theorem keeps_execDlRefreshExpiry {s00 s : State} (c : ChanId) (rank : Fin 8) (hk : Keeps s00 s) : Goes s00 (execDlRefreshExpiry c rank s) := by
  unfold execDlRefreshExpiry
  repeat' first
    | with_reducible assumption | with_reducible apply keeps_recordDeadline | with_reducible apply keeps_bumpChan
    | with_reducible apply keeps_mapChan | with_reducible apply keeps_issueRefresh | with_reducible apply goes_next
    | with_reducible apply goes_ite

theorem keeps_execDimmSensorRead {s00 s : State} (k : Fin 8) (dimm : Fin 4) (temps : List Int) (hk : Keeps s00 s) : Goes s00 (execDimmSensorRead k dimm temps s) := by
  unfold execDimmSensorRead
  repeat' first
    | with_reducible assumption | with_reducible apply keeps_setChannel | with_reducible apply goes_next | split | dsimp only
    | refine keeps_mk ?_ rfl rfl rfl rfl rfl rfl rfl rfl rfl

theorem keeps_execPmicStatusRead {s00 s : State} (k : Fin 8) (faults : BitVec 4) (hk : Keeps s00 s) : Goes s00 (execPmicStatusRead k faults s) := by
  unfold execPmicStatusRead
  repeat' first
    | with_reducible assumption | with_reducible intro _ | with_reducible apply keeps_raise | with_reducible apply keeps_record
    | with_reducible apply goes_next | with_reducible apply keeps_ite | with_reducible apply keeps_foldl | dsimp only
    | refine keeps_mk ?_ rfl rfl rfl rfl rfl rfl rfl rfl rfl

theorem keeps_takeStep {s00 s : State} (c rank : Nat) (hk : Keeps s00 s) : Keeps s00 (takeStep c rank s) := by
  unfold takeStep
  repeat' first
    | with_reducible assumption | with_reducible apply keeps_mapChan | with_reducible apply keeps_issueRefresh
    | with_reducible apply keeps_ite

theorem keeps_patrolSector {s00 s : State} (c sec : Nat) (hk : Keeps s00 s) : Keeps s00 (patrolSector c sec s) := by
  unfold patrolSector
  repeat' first
    | with_reducible assumption | with_reducible apply keeps_closePatrol | with_reducible apply keeps_poisonMem
    | with_reducible apply keeps_bumpChan | with_reducible apply keeps_mapChan | with_reducible apply keeps_ite | split

theorem keeps_patrolLine {s00 s0 : State} (c line : Nat) (r : SectorRead) (hk : Keeps s00 s0) : Keeps s00 (patrolLine c line r s0) := by
  unfold patrolLine
  repeat' first
    | with_reducible assumption | with_reducible apply keeps_dramOut | with_reducible apply keeps_touchRecord
    | with_reducible apply keeps_lineRead | with_reducible apply keeps_tackRead | with_reducible apply keeps_recordRead
    | with_reducible apply keeps_takeStep | with_reducible apply keeps_patrolSector | with_reducible apply keeps_ite | split

theorem keeps_execPatrolStep {s00 s : State} (c : ChanId) (found : SectorRead) (hk : Keeps s00 s) : Goes s00 (execPatrolStep c found s) := by
  unfold execPatrolStep
  repeat' first
    | with_reducible assumption | with_reducible apply keeps_setChannel | with_reducible apply keeps_bumpChan
    | with_reducible apply keeps_patrolLine | with_reducible apply goes_next | with_reducible apply goes_ite
    | with_reducible apply keeps_ite | split

theorem keeps_execSpprComplete {s00 s : State} (c : ChanId) (hk : Keeps s00 s) : Goes s00 (execSpprComplete c s) := by
  unfold execSpprComplete
  repeat' first
    | with_reducible assumption | with_reducible apply keeps_setChannel | with_reducible apply keeps_endRepair
    | with_reducible apply keeps_bumpChan | with_reducible apply goes_next | split | dsimp only

theorem keeps_copiedLine {s00 s : State} (c ca : Nat) (found : Ecc) (hk : Keeps s00 s) : Keeps s00 (copiedLine c ca found s) := by
  unfold copiedLine
  repeat' first
    | with_reducible assumption | with_reducible apply keeps_record | with_reducible apply keeps_bumpChan
    | with_reducible apply keeps_poisonAt | split

theorem keeps_execRankCopyStep {s00 s : State} (c : ChanId) (found : Ecc) (hk : Keeps s00 s) : Goes s00 (execRankCopyStep c found s) := by
  unfold execRankCopyStep
  repeat' first
    | with_reducible assumption | with_reducible apply keeps_endRepair | with_reducible apply keeps_mapChan
    | with_reducible apply keeps_changeChan | with_reducible apply keeps_tackRead | with_reducible apply keeps_takeStep
    | with_reducible apply keeps_copiedLine | with_reducible apply goes_next | with_reducible apply goes_ite
    | with_reducible apply keeps_ite | split | dsimp only

theorem keeps_forwardSector {s00 s : State} (c k : Nat) (hk : Keeps s00 s) : Keeps s00 (forwardSector c k s) := by
  unfold forwardSector
  repeat' first
    | with_reducible assumption | with_reducible apply keeps_setChannel | with_reducible apply keeps_mapChan

theorem keeps_copiedSector {s00 s : State} (c k : Nat) (r : SectorRead) (hk : Keeps s00 s) : Keeps s00 (copiedSector c k r s) := by
  unfold copiedSector
  repeat' first
    | with_reducible assumption | with_reducible intro _ | with_reducible apply keeps_touchRecord | with_reducible apply keeps_recordRead
    | with_reducible apply keeps_takeStep | with_reducible apply keeps_copiedLine | with_reducible apply keeps_foldl

theorem keeps_sendCopy {s00 s : State} (c k : Nat) (hk : Keeps s00 s) : Keeps s00 (sendCopy c k s) := by
  unfold sendCopy
  repeat' first
    | with_reducible assumption | with_reducible apply keeps_queueReq

theorem keeps_execChannelCopyStep {s00 s : State} (c : ChanId) (found : SectorRead) (hk : Keeps s00 s) : Goes s00 (execChannelCopyStep c found s) := by
  unfold execChannelCopyStep
  repeat' first
    | with_reducible assumption | with_reducible apply keeps_endRepair | with_reducible apply keeps_mapChan
    | with_reducible apply keeps_changeChan | with_reducible apply keeps_forwardSector | with_reducible apply keeps_copiedSector
    | with_reducible apply keeps_sendCopy | with_reducible apply goes_next | with_reducible apply goes_ite | split | dsimp only
    | refine keeps_mk ?_ rfl rfl rfl rfl rfl rfl rfl rfl rfl

theorem keeps_writeChanAction {s00 s : State} (c : Nat) (v : Nat) (p : Path) (hk : Keeps s00 s) : Keeps s00 (writeChanAction c v p s) := by
  unfold writeChanAction
  repeat' first
    | with_reducible assumption | with_reducible apply keeps_pathSet | with_reducible apply keeps_startSparing
    | with_reducible apply keeps_startRetirement | with_reducible apply keeps_ite

theorem keeps_execMemSlotsApply {s00 s : State} (n : StallId) (hk : Keeps s00 s) : Goes s00 (execMemSlotsApply n s) := by
  unfold execMemSlotsApply
  repeat' first
    | with_reducible assumption | with_reducible apply keeps_setStall | with_reducible apply keeps_evalStalls
    | with_reducible apply goes_next | with_reducible apply keeps_ite

theorem keeps_setFnAt {s00 s : State} (k : Nat) (x : HFn) (hk : Keeps s00 s) : Keeps s00 (State.setFnAt s k x) := by
  unfold State.setFnAt
  repeat' first
    | with_reducible assumption | dsimp only | refine keeps_mk ?_ rfl rfl rfl rfl rfl rfl rfl rfl rfl

theorem keeps_storeBag {s00 s : State}  (hk : Keeps s00 s) : Keeps s00 (storeBag s) := by
  unfold storeBag
  repeat' first
    | with_reducible assumption | refine keeps_mk ?_ rfl rfl rfl rfl rfl rfl rfl rfl rfl

theorem keeps_storeOd {s00 s : State} (idx sub v : Nat) (hk : Keeps s00 s) : Keeps s00 (storeOd idx sub v s) := by
  unfold storeOd
  repeat' first
    | with_reducible assumption | with_reducible apply keeps_odSet | with_reducible apply keeps_noteBag | with_reducible apply keeps_ite
    | split | dsimp only | refine keeps_mk ?_ rfl rfl rfl rfl rfl rfl rfl rfl rfl

theorem keeps_earlyStore {s00 s : State} (p : Path) (idx sub v : Nat) (hk : Keeps s00 s) : Keeps s00 (earlyStore p idx sub v s) := by
  unfold earlyStore
  repeat' first
    | with_reducible assumption | with_reducible apply keeps_pathSet | with_reducible apply keeps_storeOd
    | with_reducible apply keeps_ite

theorem keeps_odWrite {s00 s : State} (p : Path) (idx sub : Nat) (data : List Byte) (behave : State → State) (hf : ∀ b t, Keeps b t → Keeps b (behave t)) (hk : Keeps s00 s) : Keeps s00 (odWrite p idx sub data behave s) := by
  unfold odWrite
  repeat' first
    | with_reducible assumption | with_reducible apply keeps_setAnswer | with_reducible apply keeps_earlyStore | with_reducible apply hf
    | with_reducible apply keeps_ite | split

theorem keeps_odWriteNat {s00 s : State} (p : Path) (idx sub v : Nat) (behave : State → State) (hf : ∀ b t, Keeps b t → Keeps b (behave t)) (hk : Keeps s00 s) : Keeps s00 (odWriteNat p idx sub v behave s) := by
  unfold odWriteNat
  repeat' first
    | with_reducible assumption | with_reducible apply keeps_odWrite

theorem keeps_stallResult {s00 s : State} (p : Path) (n r : Nat) (hk : Keeps s00 s) : Keeps s00 (stallResult p n r s) := by
  unfold stallResult
  repeat' first
    | with_reducible assumption | with_reducible apply keeps_pathSet

end Sys2Proof.Machine
end

