-- ==== Sys2Proof/Laws/KeepsEngines.lean ====
section
/-! SUPPORT. The stripe engines keep the queue and the invariant. -/

namespace Sys2Proof.Machine

theorem keeps_hostAccess {s00 s : State} (p fn : Nat) (addr : Nat) (write : Bool) (mk : Word → Bool → Out) (hk : Keeps s00 s) : Keeps s00 (hostAccess p fn addr write mk s) := by
  unfold hostAccess
  repeat' first
    | with_reducible assumption | with_reducible apply keeps_emitTlp | with_reducible apply keeps_odBump | with_reducible apply keeps_ite
    | split | dsimp only | refine keeps_mk ?_ rfl rfl rfl rfl rfl rfl rfl rfl rfl

theorem keeps_hostWrite {s00 s : State} (p fn addr : Nat) (data : List Byte) (relaxed ep : Bool) (hk : Keeps s00 s) : Keeps s00 (hostWrite p fn addr data relaxed ep s) := by
  unfold hostWrite
  repeat' first
    | with_reducible assumption | with_reducible apply keeps_hostAccess | with_reducible apply keeps_ite

theorem keeps_hostRead {s00 s : State} (p fn addr len tag : Nat) (hk : Keeps s00 s) : Keeps s00 (hostRead p fn addr len tag s) := by
  unfold hostRead
  repeat' first
    | with_reducible assumption | with_reducible apply keeps_hostAccess

theorem keeps_sendLtr {s00 s : State} (l : Nat) (hk : Keeps s00 s) : Keeps s00 (sendLtr l s) := by
  unfold sendLtr
  repeat' first
    | with_reducible assumption | with_reducible apply keeps_emitTlp | with_reducible apply keeps_ite

theorem keeps_setQp {s00 s : State} (k : Nat) (x : QPair) (hk : Keeps s00 s) : Keeps s00 (State.setQp s k x) := by
  unfold State.setQp
  repeat' first
    | with_reducible assumption | dsimp only | refine keeps_mk ?_ rfl rfl rfl rfl rfl rfl rfl rfl rfl

theorem keeps_postWord {s00 s : State} (k : Nat) (ep : Bool) (body : Bool → Nat → BitVec 512) (hk : Keeps s00 s) : Keeps s00 (postWord k ep body s) := by
  unfold postWord
  repeat' first
    | with_reducible assumption | with_reducible apply keeps_emitOrdered | with_reducible apply keeps_sendMsix
    | with_reducible apply keeps_setQp | with_reducible apply keeps_ite

theorem keeps_postCompletion {s00 s : State} (k : Nat) (c : Compl) (hk : Keeps s00 s) : Keeps s00 (postCompletion k c s) := by
  unfold postCompletion
  repeat' first
    | with_reducible assumption | with_reducible apply keeps_postWord

theorem keeps_mapFn {s00 s : State} (p fn : Nat) (f : HFn → HFn) (hk : Keeps s00 s) : Keeps s00 (mapFn p fn f s) := by
  unfold mapFn
  repeat' first
    | with_reducible assumption | with_reducible apply keeps_setFn

theorem keeps_sendMsg {s00 s : State} (l : Nat) (vc : Fin 4) (port : Nat) (units : List Word) (uid : Option Nat) (starts : List Nat) (hk : Keeps s00 s) : Keeps s00 (sendMsg l vc port units s uid starts) := by
  unfold sendMsg
  repeat' first
    | with_reducible assumption | with_reducible apply keeps_setLink

theorem keeps_raiseLink {s00 s : State} (l : Nat) (hk : Keeps s00 s) : Keeps s00 (raiseLink l s) := by
  unfold raiseLink
  repeat' first
    | with_reducible assumption | with_reducible apply keeps_raise

theorem keeps_setPortState {s00 s : State} (p : Nat) (st : PortState) (hk : Keeps s00 s) : Keeps s00 (setPortState p st s) := by
  unfold setPortState
  repeat' first
    | with_reducible assumption | with_reducible apply keeps_setPort | with_reducible apply keeps_raiseLink
    | with_reducible apply keeps_ite

theorem keeps_setShelfState {s00 s : State} (h : Nat) (st : ShelfState) (hk : Keeps s00 s) : Keeps s00 (setShelfState h st s) := by
  unfold setShelfState
  repeat' first
    | with_reducible assumption | with_reducible intro _ | with_reducible apply keeps_setShelf | with_reducible apply keeps_raiseLink
    | with_reducible apply keeps_ite | with_reducible apply keeps_foldl

theorem keeps_sendCmd {s00 s : State} (p : Nat) (c : DriveCmd) (tag : Nat) (hk : Keeps s00 s) : Keeps s00 (sendCmd p c tag s) := by
  unfold sendCmd
  repeat' first
    | with_reducible assumption | with_reducible intro _ | with_reducible apply keeps_sendMsg | with_reducible apply keeps_ite
    | with_reducible apply keeps_foldl

theorem keeps_issueCmd {s00 s : State} (p : Nat) (c : DriveCmd) (hk : Keeps s00 s) : Keeps s00 (issueCmd p c s) := by
  unfold issueCmd
  repeat' first
    | with_reducible assumption | with_reducible apply keeps_odBump | with_reducible apply keeps_setPort
    | with_reducible apply keeps_sendCmd

theorem keeps_identify {s00 s : State} (p : Nat) (hk : Keeps s00 s) : Keeps s00 (identify p s) := by
  unfold identify
  repeat' first
    | with_reducible assumption | with_reducible apply keeps_setPort | with_reducible apply keeps_issueCmd
    | with_reducible apply keeps_ite

theorem keeps_askWake {s00 s : State} (h : Nat) (work : Bool) (hk : Keeps s00 s) : Keeps s00 (askWake h work s) := by
  unfold askWake
  repeat' first
    | with_reducible assumption | with_reducible apply keeps_ite | refine keeps_mk ?_ rfl rfl rfl rfl rfl rfl rfl rfl rfl

theorem keeps_requestWake {s00 s : State} (h : Nat) (hk : Keeps s00 s) : Keeps s00 (requestWake h s) := by
  unfold requestWake
  repeat' first
    | with_reducible assumption | with_reducible apply keeps_askWake | with_reducible apply keeps_ite

theorem keeps_handOver {s00 s : State} (p : Nat) (c : DriveCmd) (hk : Keeps s00 s) : Keeps s00 (handOver p c s) := by
  unfold handOver
  repeat' first
    | with_reducible assumption | with_reducible apply keeps_setPort | with_reducible apply keeps_requestWake
    | with_reducible apply keeps_ite

theorem keeps_powerSet {s00 s : State} (l level mask : Nat) (hk : Keeps s00 s) : Keeps s00 (powerSet l level mask s).2 := by
  unfold powerSet
  repeat' first
    | with_reducible assumption | with_reducible apply keeps_setLink | with_reducible apply keeps_sendMsg

theorem keeps_powerShelf {s00 s : State} (h level : Nat) (hk : Keeps s00 s) : Keeps s00 (powerShelf h level s) := by
  unfold powerShelf
  repeat' first
    | with_reducible assumption | with_reducible intro _ | with_reducible apply keeps_setShelf | with_reducible apply keeps_powerSet
    | with_reducible apply keeps_ite | with_reducible apply keeps_foldl

theorem keeps_shelfAsleep {s00 s : State} (h : Nat) (hk : Keeps s00 s) : Keeps s00 (shelfAsleep h s) := by
  unfold shelfAsleep
  repeat' first
    | with_reducible assumption | with_reducible intro _ | with_reducible apply keeps_setPort | with_reducible apply keeps_setShelf
    | with_reducible apply keeps_setPortState | with_reducible apply keeps_setShelfState | with_reducible apply keeps_ite
    | with_reducible apply keeps_foldl

theorem keeps_trySleep {s00 s : State} (h : Nat) (hk : Keeps s00 s) : Keeps s00 (trySleep h s) := by
  unfold trySleep
  repeat' first
    | with_reducible assumption | with_reducible apply keeps_setShelfState | with_reducible apply keeps_powerShelf
    | with_reducible apply keeps_shelfAsleep | with_reducible apply keeps_ite

theorem keeps_mapEngines {s00 s : State} (f : Engine → Engine) (hk : Keeps s00 s) : Keeps s00 (mapEngines f s) := by
  unfold mapEngines
  repeat' first
    | with_reducible assumption | dsimp only | refine keeps_mk ?_ rfl rfl rfl rfl rfl rfl rfl rfl rfl

theorem keeps_setCmd {s00 s : State} (c : Cmd) (hk : Keeps s00 s) : Keeps s00 (setCmd c s) := by
  unfold setCmd
  repeat' first
    | with_reducible assumption | with_reducible apply keeps_mapEngines

theorem keeps_modCmd {s00 s : State} (id : Nat) (f : Cmd → Cmd) (hk : Keeps s00 s) : Keeps s00 (modCmd id f s) := by
  unfold modCmd
  repeat' first
    | with_reducible assumption | with_reducible apply keeps_mapEngines

theorem keeps_setStripe {s00 s : State} (st : Stripe) (hk : Keeps s00 s) : Keeps s00 (setStripe st s) := by
  unfold setStripe
  repeat' first
    | with_reducible assumption | with_reducible apply keeps_mapEngines | dsimp only
    | refine keeps_mk ?_ rfl rfl rfl rfl rfl rfl rfl rfl rfl

theorem keeps_takeStripe {s00 s : State} (uid : Nat) (hk : Keeps s00 s) : Keeps s00 (takeStripe uid s) := by
  unfold takeStripe
  repeat' first
    | with_reducible assumption | with_reducible apply keeps_mapEngines | dsimp only
    | refine keeps_mk ?_ rfl rfl rfl rfl rfl rfl rfl rfl rfl

theorem keeps_putSlot {s00 s : State} (e i : Nat) (st : Stripe) (hk : Keeps s00 s) : Keeps s00 (putSlot e i st s) := by
  unfold putSlot
  repeat' first
    | with_reducible assumption | with_reducible apply keeps_setEngine

theorem keeps_putFlying {s00 s : State} (e : Nat) (st : Stripe) (hk : Keeps s00 s) : Keeps s00 (putFlying e st s) := by
  unfold putFlying
  repeat' first
    | with_reducible assumption | with_reducible apply keeps_setEngine

theorem keeps_putRegen {s00 s : State} (e : Nat) (st : Stripe) (hk : Keeps s00 s) : Keeps s00 (putRegen e st s) := by
  unfold putRegen
  repeat' first
    | with_reducible assumption | with_reducible apply keeps_setEngine

theorem keeps_putPool {s00 s : State} (st : Stripe) (hk : Keeps s00 s) : Keeps s00 (putPool st s) := by
  unfold putPool
  repeat' first
    | with_reducible assumption | dsimp only | refine keeps_mk ?_ rfl rfl rfl rfl rfl rfl rfl rfl rfl

theorem keeps_sweepSent {s00 s : State} (e : Nat) (hk : Keeps s00 s) : Keeps s00 (sweepSent e s) := by
  unfold sweepSent
  repeat' first
    | with_reducible assumption | with_reducible intro _ | with_reducible apply keeps_takeStripe | with_reducible apply keeps_putFlying
    | with_reducible apply keeps_putRegen | with_reducible apply keeps_ite | with_reducible apply keeps_foldl

theorem keeps_freshUid {s00 s : State}  (hk : Keeps s00 s) : Keeps s00 (freshUid s).2 := by
  unfold freshUid
  repeat' first
    | with_reducible assumption | dsimp only | refine keeps_mk ?_ rfl rfl rfl rfl rfl rfl rfl rfl rfl

theorem keeps_enterKey {s00 s : State} (k : Nat × Nat) (uid : Nat) (hk : Keeps s00 s) : Keeps s00 (enterKey k uid s) := by
  unfold enterKey
  repeat' first
    | with_reducible assumption | dsimp only | refine keeps_mk ?_ rfl rfl rfl rfl rfl rfl rfl rfl rfl

theorem keeps_leaveKey {s00 s : State} (uid : Nat) (hk : Keeps s00 s) : Keeps s00 (leaveKey uid s) := by
  unfold leaveKey
  repeat' first
    | with_reducible assumption | dsimp only | refine keeps_mk ?_ rfl rfl rfl rfl rfl rfl rfl rfl rfl

theorem keeps_tryKey {s00 s : State} (e : Nat) (k : Nat × Nat) (uid : Nat) (hk : Keeps s00 s) : Keeps s00 (tryKey e k uid s).2 := by
  unfold tryKey
  repeat' first
    | with_reducible assumption | with_reducible apply keeps_odBump | with_reducible apply keeps_enterKey
    | with_reducible apply keeps_pair_ite | dsimp only | refine keeps_mk ?_ rfl rfl rfl rfl rfl rfl rfl rfl rfl

theorem keeps_postCmd {s00 s : State} (c : Cmd) (st : Nat) (hk : Keeps s00 s) : Keeps s00 (postCmd c st s) := by
  unfold postCmd
  repeat' first
    | with_reducible assumption | with_reducible apply keeps_postCompletion | with_reducible apply keeps_ite | split | dsimp only
    | refine keeps_mk ?_ rfl rfl rfl rfl rfl rfl rfl rfl rfl

theorem keeps_countEnd {s00 s : State} (c : Cmd) (st : Nat) (wasActive : Bool) (hk : Keeps s00 s) : Keeps s00 (countEnd c st wasActive s) := by
  unfold countEnd
  repeat' first
    | with_reducible assumption | with_reducible apply keeps_setCtx

theorem keeps_completeHeld {s00 s : State}  (hk : Keeps s00 s) : Keeps s00 (completeHeld s) := by
  unfold completeHeld
  repeat' first
    | with_reducible assumption | with_reducible intro _ | with_reducible apply keeps_postCmd | with_reducible apply keeps_ite
    | with_reducible apply keeps_foldl | dsimp only | refine keeps_mk ?_ rfl rfl rfl rfl rfl rfl rfl rfl rfl

theorem keeps_endCmd {s00 s : State} (c : Cmd) (st : Nat) (hk : Keeps s00 s) : Keeps s00 (endCmd c st s) := by
  unfold endCmd
  repeat' first
    | with_reducible assumption | with_reducible apply keeps_mapEngines | with_reducible apply keeps_postCmd
    | with_reducible apply keeps_countEnd | with_reducible apply keeps_completeHeld

theorem keeps_finishCmd {s00 s : State} (id : Nat) (hk : Keeps s00 s) : Keeps s00 (finishCmd id s) := by
  unfold finishCmd
  repeat' first
    | with_reducible assumption | with_reducible apply keeps_endCmd | with_reducible apply keeps_ite | split

theorem keeps_countEngine {s00 s : State} (e event n : Nat) (hk : Keeps s00 s) : Keeps s00 (countEngine e event n s) := by
  unfold countEngine
  repeat' first
    | with_reducible assumption | with_reducible apply keeps_countUncore

theorem keeps_countStripe {s00 s : State} (st : Stripe) (hk : Keeps s00 s) : Keeps s00 (countStripe st s) := by
  unfold countStripe
  repeat' first
    | with_reducible assumption | with_reducible apply keeps_setCtx | with_reducible apply keeps_countEngine
    | with_reducible apply keeps_ite | split

theorem keeps_endStripe {s00 s : State} (st : Stripe) (f : Cmd → Cmd) (hk : Keeps s00 s) : Keeps s00 (endStripe st f s) := by
  unfold endStripe
  repeat' first
    | with_reducible assumption | with_reducible apply keeps_modCmd | with_reducible apply keeps_takeStripe
    | with_reducible apply keeps_leaveKey | with_reducible apply keeps_finishCmd | with_reducible apply keeps_countStripe

theorem keeps_dropUnsent {s00 s : State} (id : Nat) (keep : Stripe → Bool) (hk : Keeps s00 s) : Keeps s00 (dropUnsent id s keep) := by
  unfold dropUnsent
  repeat' first
    | with_reducible assumption | with_reducible intro _ | with_reducible apply keeps_modCmd | with_reducible apply keeps_takeStripe
    | with_reducible apply keeps_leaveKey | with_reducible apply keeps_foldl | dsimp only
    | refine keeps_mk ?_ rfl rfl rfl rfl rfl rfl rfl rfl rfl

theorem keeps_failCmd {s00 s : State} (id st : Nat) (spans : List Nat) (keep : Stripe → Bool) (hk : Keeps s00 s) : Keeps s00 (failCmd id st spans s keep) := by
  unfold failCmd
  repeat' first
    | with_reducible assumption | with_reducible apply keeps_modCmd | with_reducible apply keeps_finishCmd
    | with_reducible apply keeps_dropUnsent

theorem keeps_countEngineFault {s00 s : State} (e : Nat) (hk : Keeps s00 s) : Keeps s00 (countEngineFault e s) := by
  unfold countEngineFault
  repeat' first
    | with_reducible assumption | with_reducible apply keeps_odBump | with_reducible apply keeps_setEngine

theorem keeps_engineRec {s00 s : State} (e cause : Nat) (cls : BitVec 2) (stall : Nat) (hk : Keeps s00 s) : Keeps s00 (engineRec e cause cls stall s) := by
  unfold engineRec
  repeat' first
    | with_reducible assumption | with_reducible apply keeps_raise | with_reducible apply keeps_record

theorem keeps_engineFill {s00 s : State} (n sec : Nat) (noAlloc : Bool) (hk : Keeps s00 s) : Keeps s00 (engineFill n sec noAlloc s) := by
  unfold engineFill
  repeat' first
    | with_reducible assumption | with_reducible intro _ | with_reducible apply keeps_fillLine | with_reducible apply keeps_countHome
    | with_reducible apply keeps_ite | with_reducible apply keeps_foldl

theorem keeps_memSpan {s00 s : State} (n sec : Nat) (noAlloc : Bool) (hk : Keeps s00 s) : Keeps s00 (memSpan n sec noAlloc s).2 := by
  unfold memSpan
  repeat' first
    | with_reducible assumption | with_reducible apply keeps_recordSeal | with_reducible apply keeps_poisonSpan
    | with_reducible apply keeps_lookup | with_reducible apply keeps_wakeHome | with_reducible apply keeps_cleanSpan
    | with_reducible apply keeps_quietRange | with_reducible apply keeps_engineFill | with_reducible apply keeps_pair_ite

theorem keeps_ioSpan {s00 s : State} (e n va : Nat) (hk : Keeps s00 s) : Keeps s00 (ioSpan e n va s).2 := by
  unfold ioSpan
  repeat' first
    | with_reducible assumption | with_reducible apply keeps_ioLookup | with_reducible apply keeps_memSpan
    | with_reducible refine keeps_snd ‹_ = (_, _)› ?_ | split

theorem keeps_ioBytes {s00 s : State} (e n va len : Nat) (hk : Keeps s00 s) : Keeps s00 (ioBytes e n va len s).2 := by
  unfold ioBytes
  repeat' first
    | with_reducible assumption | with_reducible intro _ | with_reducible apply keeps_ioSpan
    | with_reducible refine keeps_snd ‹_ = (_, _)› ?_ | with_reducible apply keeps_pair_foldl | split

theorem keeps_ioWriteSpan {s00 s : State} (e n va : Nat) (ws : List TWord) (sl : Word) (hk : Keeps s00 s) : Keeps s00 (ioWriteSpan e n va ws sl s).2 := by
  unfold ioWriteSpan
  repeat' first
    | with_reducible assumption | with_reducible apply keeps_ioLookup | with_reducible apply keeps_spanStore
    | with_reducible refine keeps_snd ‹_ = (_, _)› ?_ | split

theorem keeps_ioWriteSeal {s00 s : State} (e n va : Nat) (sl : Word) (hk : Keeps s00 s) : Keeps s00 (ioWriteSeal e n va sl s).2 := by
  unfold ioWriteSeal
  repeat' first
    | with_reducible assumption | with_reducible apply keeps_ioLookup | with_reducible apply keeps_dmaWrite
    | with_reducible refine keeps_snd ‹_ = (_, _)› ?_ | split

theorem keeps_cmdWrite {s00 s : State} (c : Cmd) (addr : Nat) (data : List Byte) (ep : Bool) (hk : Keeps s00 s) : Keeps s00 (cmdWrite c addr data ep s) := by
  unfold cmdWrite
  repeat' first
    | with_reducible assumption | with_reducible apply keeps_hostWrite | with_reducible apply keeps_ite

theorem keeps_pumpStripe {s00 s : State} (e uid : Nat) (hk : Keeps s00 s) : Keeps s00 (pumpStripe e uid s) := by
  unfold pumpStripe
  repeat' first
    | with_reducible assumption | with_reducible intro _ | with_reducible apply keeps_setEngine | with_reducible apply keeps_hostRead
    | with_reducible apply keeps_setStripe | with_reducible apply keeps_foldl | split

theorem keeps_pumpEngine {s00 s : State} (e : Nat) (hk : Keeps s00 s) : Keeps s00 (pumpEngine e s) := by
  unfold pumpEngine
  repeat' first
    | with_reducible assumption | with_reducible intro _ | with_reducible apply keeps_pumpStripe | with_reducible apply keeps_foldl

theorem keeps_pump {s00 s : State} (e : Nat) (hk : Keeps s00 s) : Keeps s00 (pump e s) := by
  unfold pump
  repeat' first
    | with_reducible assumption | with_reducible intro _ | with_reducible apply keeps_pumpEngine | with_reducible apply keeps_foldl

theorem keeps_writePool {s00 s : State} (st : Stripe) (hk : Keeps s00 s) : Keeps s00 (writePool st s) := by
  unfold writePool
  repeat' first
    | with_reducible assumption | with_reducible intro _ | with_reducible apply keeps_spanStore | with_reducible apply keeps_foldl

theorem keeps_readPool {s00 s : State} (st : Stripe) (hk : Keeps s00 s) : Keeps s00 (readPool st s).2 := by
  unfold readPool
  repeat' first
    | with_reducible assumption | with_reducible intro _ | with_reducible apply keeps_memSpan | with_reducible apply keeps_pair_foldl

theorem keeps_takeTokens {s00 s : State} (e n : Nat) (hk : Keeps s00 s) : Keeps s00 (takeTokens e n s) := by
  unfold takeTokens
  repeat' first
    | with_reducible assumption | with_reducible apply keeps_setEngine

theorem keeps_recordLost {s00 s : State} (e : Nat) (c : Cmd) (x : Frag) (r : LostEnd) (hk : Keeps s00 s) : Keeps s00 (recordLost e c x r s) := by
  unfold recordLost
  repeat' first
    | with_reducible assumption | with_reducible intro _ | with_reducible apply keeps_record | with_reducible apply keeps_recordSeal
    | with_reducible apply keeps_engineRec | with_reducible apply keeps_ite | with_reducible apply keeps_foldl

theorem keeps_recordMissing {s00 s : State} (c : Cmd) (st : Stripe) (r : Nat → Frag → LostEnd) (hk : Keeps s00 s) : Keeps s00 (recordMissing c st r s) := by
  unfold recordMissing
  repeat' first
    | with_reducible assumption | with_reducible intro _ | with_reducible apply keeps_recordLost | with_reducible apply keeps_ite
    | with_reducible apply keeps_foldl

theorem keeps_recordRepairs {s00 s : State} (st : Stripe) (hk : Keeps s00 s) : Keeps s00 (recordRepairs st s) := by
  unfold recordRepairs
  repeat' first
    | with_reducible assumption | with_reducible intro _ | with_reducible apply keeps_recordLost | with_reducible apply keeps_foldl
    | split

theorem keeps_finishWrite {s00 s : State} (st : Stripe) (hk : Keeps s00 s) : Keeps s00 (finishWrite st s) := by
  unfold finishWrite
  repeat' first
    | with_reducible assumption | with_reducible apply keeps_endStripe | with_reducible apply keeps_recordRepairs

theorem keeps_settleWrite {s00 s : State} (st : Stripe) (hk : Keeps s00 s) : Keeps s00 (settleWrite st s) := by
  unfold settleWrite
  repeat' first
    | with_reducible assumption | with_reducible apply keeps_setStripe | with_reducible apply keeps_finishWrite
    | with_reducible apply keeps_ite

theorem keeps_requeue {s00 s : State} (st : Stripe) (hk : Keeps s00 s) : Keeps s00 (requeue st s) := by
  unfold requeue
  repeat' first
    | with_reducible assumption | with_reducible apply keeps_mapEngines | with_reducible apply keeps_setStripe
    | with_reducible apply keeps_putRegen | with_reducible apply keeps_ite

theorem keeps_writeOutcome {s00 s : State} (uid f : Nat) (ok : Bool) (hk : Keeps s00 s) : Keeps s00 (writeOutcome uid f ok s) := by
  unfold writeOutcome
  repeat' first
    | with_reducible assumption | with_reducible apply keeps_modCmd | with_reducible apply keeps_settleWrite
    | with_reducible apply keeps_requeue | with_reducible apply keeps_ite | split

theorem keeps_rewriteFrag {s00 s : State} (uid f : Nat) (hk : Keeps s00 s) : Keeps s00 (rewriteFrag uid f s) := by
  unfold rewriteFrag
  repeat' first
    | with_reducible assumption | with_reducible apply keeps_settleWrite | with_reducible apply keeps_requeue
    | with_reducible apply keeps_ite | split

theorem keeps_sendFrags {s00 s : State} (g : Geo) (st : Stripe) (which : List Nat) (hk : Keeps s00 s) : Keeps s00 (sendFrags g st which s) := by
  unfold sendFrags
  repeat' first
    | with_reducible assumption | with_reducible intro _ | with_reducible apply keeps_handOver | with_reducible apply keeps_writeOutcome
    | with_reducible apply keeps_foldl | split | dsimp only

theorem keeps_cutThrough {s00 s : State} (g : Geo) (st : Stripe) (hk : Keeps s00 s) : Keeps s00 (cutThrough g st s) := by
  unfold cutThrough
  repeat' first
    | with_reducible assumption | with_reducible apply keeps_setStripe | with_reducible apply keeps_sendFrags

theorem keeps_settleSram {s00 s : State} (e : Nat) (c : Cmd) (st : Stripe) (hk : Keeps s00 s) : Keeps s00 (settleSram e c st s) := by
  unfold settleSram
  repeat' first
    | with_reducible assumption | with_reducible apply keeps_odBump | with_reducible apply keeps_setStripe
    | with_reducible apply keeps_engineRec | with_reducible apply keeps_ite

theorem keeps_placeStripe {s00 s0 : State} (e uid : Nat) (hk : Keeps s00 s0) : Keeps s00 (placeStripe e uid s0) := by
  unfold placeStripe
  repeat' first
    | with_reducible assumption | with_reducible apply keeps_odBump | with_reducible apply keeps_setStripe
    | with_reducible apply keeps_takeStripe | with_reducible apply keeps_putPool | with_reducible apply keeps_writePool
    | with_reducible apply keeps_takeTokens | with_reducible apply keeps_settleWrite | with_reducible apply keeps_cutThrough
    | with_reducible apply keeps_settleSram | with_reducible apply keeps_ite | split

theorem keeps_failStripe {s00 s : State} (st : Stripe) (status : Nat) (spans : List Nat) (hk : Keeps s00 s) : Keeps s00 (failStripe st status spans s) := by
  unfold failStripe
  repeat' first
    | with_reducible assumption | with_reducible apply keeps_countStripe | with_reducible apply keeps_failCmd
    | with_reducible apply keeps_recordRepairs | with_reducible apply keeps_settleWrite | with_reducible apply keeps_ite

theorem keeps_memPull {s00 s : State} (e n va base len total : Nat) (which : List Nat) (hk : Keeps s00 s) : Keeps s00 (memPull e n va base len total which s).2 := by
  unfold memPull
  repeat' first
    | with_reducible assumption | with_reducible intro _ | with_reducible apply keeps_ioSpan
    | with_reducible refine keeps_snd ‹_ = (_, _)› ?_ | with_reducible apply keeps_pair_ite | with_reducible apply keeps_pair_foldl
    | split

theorem keeps_countIngress {s00 s : State} (c : Cmd) (n : Nat) (hk : Keeps s00 s) : Keeps s00 (countIngress c n s) := by
  unfold countIngress
  repeat' first
    | with_reducible assumption | with_reducible intro _ | with_reducible apply keeps_odBump | with_reducible apply keeps_setCtx
    | with_reducible apply keeps_recordSeal | with_reducible apply keeps_foldl

theorem keeps_finishSeal {s00 s : State} (e : Nat) (c : Cmd) (st : Stripe) (hk : Keeps s00 s) : Keeps s00 (finishSeal e c st s) := by
  unfold finishSeal
  dsimp only
  split
  · exact keeps_endStripe _ _ hk
  · split
    · have f : ∀ (l : List Nat) (sl : List Word) (n k m : Nat) (a : Option Nat × State), Keeps s00 a.2 →
          Keeps s00 (l.foldl (fun (a : Option Nat × State) t => if a.1.isSome then a
            else match ioWriteSeal e (cmdStall a.2 c) (m + 8 * (n + t)) (sl.getD t 0) a.2 with
              | (true, u) => (none, u)
              | (false, u) => (some (k + t), u)) a).2 := by
        intro l sl n k m a h
        refine keeps_pair_foldl l (fun t y h => keeps_pair_ite h ?_) h
        have q := keeps_ioWriteSeal e (cmdStall t.2 c) (m + 8 * (n + y)) (sl.getD y 0) h
        split
        · rename_i r
          exact keeps_snd r q
        · rename_i r
          exact keeps_snd r q
      split
      · exact keeps_endStripe _ _ (f _ _ _ _ _ _ hk)
      · exact keeps_failCmd _ _ _ _ (f _ _ _ _ _ _ hk)
    · exact keeps_endStripe _ _ (keeps_foldl _ (fun _ _ h => keeps_cmdWrite _ _ _ _ h) hk)

theorem keeps_pullDone {s00 s : State} (e uid : Nat) (hk : Keeps s00 s) : Keeps s00 (pullDone e uid s) := by
  unfold pullDone
  repeat' first
    | with_reducible assumption | with_reducible apply keeps_setStripe | with_reducible apply keeps_settleSram
    | with_reducible apply keeps_placeStripe | with_reducible apply keeps_failStripe | with_reducible apply keeps_countIngress
    | with_reducible apply keeps_finishSeal | with_reducible apply keeps_ite | split

theorem keeps_noteMatrix {s00 s : State} (e : Nat) (g : Geo) (good : List Nat) (hk : Keeps s00 s) : Keeps s00 (noteMatrix e g good s) := by
  unfold noteMatrix
  repeat' first
    | with_reducible assumption | with_reducible apply keeps_setEngine

theorem keeps_deliverHost {s00 s : State} (c : Cmd) (idx : Nat) (x : List Byte × Word × Bool) (hk : Keeps s00 s) : Keeps s00 (deliverHost c idx x s) := by
  unfold deliverHost
  repeat' first
    | with_reducible assumption | with_reducible apply keeps_cmdWrite | with_reducible apply keeps_ite

theorem keeps_deliverMem {s00 s : State} (e : Nat) (c : Cmd) (idx : Nat) (x : List Byte × Word × Bool) (hk : Keeps s00 s) : Keeps s00 (deliverMem e c idx x s).2 := by
  unfold deliverMem
  repeat' first
    | with_reducible assumption | with_reducible apply keeps_ioWriteSpan

theorem keeps_feedStripe {s00 s : State} (c : Cmd) (g : Geo) (st : Stripe) (lost : Bool) (uid : Nat) (hk : Keeps s00 s) : Keeps s00 (feedStripe c g st lost uid s) := by
  unfold feedStripe
  repeat' first
    | with_reducible assumption | with_reducible apply keeps_setStripe | with_reducible apply keeps_failStripe
    | with_reducible apply keeps_ite | split

theorem keeps_deliver {s00 s : State} (e : Nat) (c : Cmd) (st : Stripe) (hk : Keeps s00 s) : Keeps s00 (deliver e c st s) := by
  have f : ∀ (l : List Nat) (d : Nat → List Byte × Word × Bool) (n : Nat) (a : Option Nat × State), Keeps s00 a.2 →
      Keeps s00 (l.foldl (fun (a : Option Nat × State) i => if a.1.isSome then a
        else match deliverMem e c (n + i) (d i) a.2 with
          | (some true, u) => (none, u)
          | (some false, u) => (none, modCmd st.cmd (addFault 0x02 [n + i] []) u)
          | (none, u) => (some (n + i), u)) a).2 := by
    intro l d n a h
    refine keeps_pair_foldl l (fun t y h => keeps_pair_ite h ?_) h
    have q := keeps_deliverMem e c (n + y) (d y) h
    split
    · rename_i r
      exact keeps_snd r q
    · rename_i r
      exact keeps_modCmd _ _ (keeps_snd r q)
    · rename_i r
      exact keeps_snd r q
  unfold deliver
  extract_lets g n first lost ports note r
  refine keeps_ite (keeps_endStripe _ _ hk) (keeps_ite ?_ (keeps_ite ?_ ?_))
  · exact keeps_endStripe _ _ (keeps_foldl _ (fun _ _ h => keeps_deliverHost _ _ _ h) hk)
  · have q : Keeps s00 r.2 := f _ _ _ (none, s) hk
    split
    · exact keeps_endStripe _ _ q
    · exact keeps_failCmd _ _ _ _ (keeps_countStripe _ q)
  · split
    · exact keeps_feedStripe _ _ _ _ _ (keeps_takeStripe _ (keeps_modCmd _ _ hk))
    · repeat' first
        | with_reducible assumption | with_reducible apply keeps_endStripe | with_reducible apply keeps_failCmd
        | with_reducible apply keeps_modCmd | with_reducible apply keeps_countStripe | with_reducible apply keeps_ite

theorem keeps_rebuildInto {s00 s : State} (e : Nat) (c : Cmd) (st : Stripe) (which : List Nat) (hk : Keeps s00 s) : Keeps s00 (rebuildInto e c st which s) := by
  unfold rebuildInto
  repeat' first
    | with_reducible assumption | with_reducible apply keeps_setStripe | with_reducible apply keeps_countEngine
    | with_reducible apply keeps_noteMatrix

theorem keeps_scrubParity {s00 s : State} (e : Nat) (c : Cmd) (st : Stripe) (which mend : List Nat) (hk : Keeps s00 s) : Keeps s00 (scrubParity e c st which mend s) := by
  unfold scrubParity
  repeat' first
    | with_reducible assumption | with_reducible apply keeps_odAdd | with_reducible apply keeps_setStripe
    | with_reducible apply keeps_engineRec

theorem keeps_resolve {s00 s : State} (e uid : Nat) (hk : Keeps s00 s) : Keeps s00 (resolve e uid s) := by
  unfold resolve
  repeat' first
    | with_reducible assumption | with_reducible apply keeps_modCmd | with_reducible apply keeps_endStripe
    | with_reducible apply keeps_recordMissing | with_reducible apply keeps_failStripe | with_reducible apply keeps_deliver
    | with_reducible apply keeps_rebuildInto | with_reducible apply keeps_scrubParity | with_reducible apply keeps_ite | split

theorem keeps_wakeRead {s00 s : State} (c : Cmd) (p : Nat) (hk : Keeps s00 s) : Keeps s00 (wakeRead c p s) := by
  unfold wakeRead
  repeat' first
    | with_reducible assumption | with_reducible apply keeps_requestWake | with_reducible apply keeps_ite

theorem keeps_readMore {s00 s : State} (e uid : Nat) (fuel : Nat) (hk : Keeps s00 s) : Keeps s00 (readMore e uid fuel s) := by
  induction fuel generalizing s with
  | zero => exact hk
  | succ n ih =>
    unfold readMore
    split
    · exact hk
    · split
      · exact hk
      · dsimp only
        split
        · split
          · split
            · exact ih (keeps_setStripe _ hk)
            · exact ih (keeps_wakeRead _ _ (keeps_handOver _ _ (keeps_setStripe _ hk)))
          · exact keeps_ite hk (keeps_resolve _ _ hk)
        · exact keeps_ite hk (keeps_resolve _ _ hk)

theorem keeps_readOutcome {s00 s : State} (uid f : Nat) (r : Option ReadGot) (bad : List (Nat × Nat × Word × Word)) (hk : Keeps s00 s) : Keeps s00 (readOutcome uid f r bad s) := by
  unfold readOutcome
  repeat' first
    | with_reducible assumption | with_reducible apply keeps_setStripe | with_reducible apply keeps_readMore
    | with_reducible apply keeps_ite | split

theorem keeps_countFault {s00 s : State} (n : Nat) (hk : Keeps s00 s) : Keeps s00 (countFault n s) := by
  unfold countFault
  repeat' first
    | with_reducible assumption | with_reducible apply keeps_setCtx | with_reducible apply keeps_ite

theorem keeps_acceptDescriptor {s00 s : State} (src : DescSrc) (issuer : Nat) (d : BitVec 512) (hk : Keeps s00 s) : Keeps s00 (acceptDescriptor src issuer d s) := by
  unfold acceptDescriptor
  repeat' first
    | with_reducible assumption | with_reducible apply keeps_setEngine | with_reducible apply keeps_setCtx
    | with_reducible apply keeps_wakeDom | with_reducible apply keeps_postCmd | with_reducible apply keeps_completeHeld
    | with_reducible apply keeps_countFault | with_reducible apply keeps_ite | split | dsimp only
    | refine keeps_mk ?_ rfl rfl rfl rfl rfl rfl rfl rfl rfl

theorem keeps_placeBack {s00 s : State} (e n va : Nat) (hk : Keeps s00 s) : Keeps s00 (placeBack e n va s).2 := by
  unfold placeBack
  repeat' first
    | with_reducible assumption | with_reducible apply keeps_ioBytes | with_reducible apply keeps_pair_ite

theorem keeps_fetchPlace {s00 s : State} (e : Nat) (c : Cmd) (used : Bool) (addr : Nat) (given : Option (List Word)) (hk : Keeps s00 s) : Keeps s00 (fetchPlace e c used addr given s).2 := by
  unfold fetchPlace
  repeat' first
    | with_reducible assumption | with_reducible intro _ | with_reducible apply keeps_setEngine | with_reducible apply keeps_hostRead
    | with_reducible apply keeps_placeBack | with_reducible apply keeps_pair_ite | with_reducible apply keeps_foldl

theorem keeps_wakeFor {s00 s : State} (c : Cmd) (hk : Keeps s00 s) : Keeps s00 (wakeFor c s) := by
  unfold wakeFor
  repeat' first
    | with_reducible assumption | with_reducible intro _ | with_reducible apply keeps_requestWake | with_reducible apply keeps_ite
    | with_reducible apply keeps_foldl

theorem keeps_runCmd {s00 s : State} (e op : Nat) (place aux : Option (List Word)) (hk : Keeps s00 s) : Keeps s00 (runCmd e op place aux s) := by
  unfold runCmd
  repeat' first
    | with_reducible assumption | with_reducible apply keeps_setCmd | with_reducible apply keeps_endCmd
    | with_reducible apply keeps_finishCmd | with_reducible apply keeps_fetchPlace | with_reducible apply keeps_wakeFor
    | with_reducible apply keeps_ite | split

theorem keeps_engineRow {s00 s : State} (e op : Nat) (st : EngStep) (hk : Keeps s00 s) : Keeps s00 (engineRow e op st s) := by
  unfold engineRow
  repeat' first
    | with_reducible assumption | with_reducible apply keeps_acceptDescriptor | with_reducible apply keeps_runCmd
    | with_reducible apply keeps_ite | split

theorem keeps_feedReads {s00 s : State} (e : Nat) (c : Cmd) (st : Stripe) (hk : Keeps s00 s) : Keeps s00 (feedReads e c st s) := by
  unfold feedReads
  repeat' first
    | with_reducible assumption | with_reducible intro _ | with_reducible apply keeps_setStripe | with_reducible apply keeps_putFlying
    | with_reducible apply keeps_freshUid | with_reducible apply keeps_readMore | with_reducible apply keeps_foldl

theorem keeps_beginStripe {s00 s : State} (e uid : Nat) (hk : Keeps s00 s) : Keeps s00 (beginStripe e uid s) := by
  unfold beginStripe
  repeat' first
    | with_reducible assumption | with_reducible apply keeps_setStripe | with_reducible apply keeps_ioBytes
    | with_reducible apply keeps_pumpStripe | with_reducible apply keeps_failStripe | with_reducible apply keeps_memPull
    | with_reducible apply keeps_pullDone | with_reducible apply keeps_readMore | with_reducible apply keeps_feedReads
    | with_reducible apply keeps_ite | split | dsimp only

theorem keeps_enterAndBegin {s00 s : State} (e : Nat) (c : Cmd) (st : Stripe) (hk : Keeps s00 s) : Keeps s00 (enterAndBegin e c st s) := by
  unfold enterAndBegin
  repeat' first
    | with_reducible assumption | with_reducible apply keeps_tryKey | with_reducible apply keeps_beginStripe
    | with_reducible apply keeps_ite | split

theorem keeps_startReadback {s00 s : State} (e i cmd uid : Nat) (hk : Keeps s00 s) : Keeps s00 (startReadback e i cmd uid s) := by
  unfold startReadback
  repeat' first
    | with_reducible assumption | with_reducible apply keeps_putSlot | with_reducible apply keeps_freshUid
    | with_reducible apply keeps_takeTokens

theorem keeps_startStripe {s00 s : State} (e i : Nat) (hk : Keeps s00 s) : Keeps s00 (startStripe e i s) := by
  unfold startStripe
  repeat' first
    | with_reducible assumption | with_reducible intro _ | with_reducible apply keeps_modCmd | with_reducible apply keeps_takeStripe
    | with_reducible apply keeps_putSlot | with_reducible apply keeps_freshUid | with_reducible apply keeps_readMore
    | with_reducible apply keeps_wakeFor | with_reducible apply keeps_enterAndBegin | with_reducible apply keeps_startReadback
    | with_reducible apply keeps_ite | with_reducible apply keeps_foldl | split | dsimp only

theorem keeps_retryPlace {s00 s : State} (e : Nat) (hk : Keeps s00 s) : Keeps s00 (retryPlace e s) := by
  unfold retryPlace
  repeat' first
    | with_reducible assumption | with_reducible intro _ | with_reducible apply keeps_placeStripe | with_reducible apply keeps_foldl

theorem keeps_retryAll {s00 s : State}  (hk : Keeps s00 s) : Keeps s00 (retryAll s) := by
  unfold retryAll
  repeat' first
    | with_reducible assumption | with_reducible intro _ | with_reducible apply keeps_retryPlace | with_reducible apply keeps_foldl

theorem keeps_abortCmd {s00 s : State} (st : Nat) (c : Cmd) (hk : Keeps s00 s) : Keeps s00 (abortCmd st c s) := by
  unfold abortCmd
  repeat' first
    | with_reducible assumption | with_reducible apply keeps_endCmd | with_reducible apply keeps_failCmd | with_reducible apply keeps_ite

theorem keeps_abandonCmd {s00 s : State} (st : Nat) (c : Cmd) (hk : Keeps s00 s) : Keeps s00 (abandonCmd st c s) := by
  unfold abandonCmd
  repeat' first
    | with_reducible assumption | with_reducible intro _ | with_reducible apply keeps_failStripe | with_reducible apply keeps_foldl
    | split

theorem keeps_clearEngine {s00 s : State} (e : Nat) (hk : Keeps s00 s) : Keeps s00 (clearEngine e s) := by
  unfold clearEngine
  repeat' first
    | with_reducible assumption | with_reducible apply keeps_odSet

theorem keeps_finishRetire {s00 s : State} (e : Nat) (hk : Keeps s00 s) : Keeps s00 (finishRetire e s) := by
  unfold finishRetire
  repeat' first
    | with_reducible assumption | with_reducible apply keeps_setEngine | with_reducible apply keeps_setDom
    | with_reducible apply keeps_raise | with_reducible apply keeps_endRepair | with_reducible apply keeps_clearEngine
    | with_reducible apply keeps_ite | split | dsimp only | refine keeps_mk ?_ rfl rfl rfl rfl rfl rfl rfl rfl rfl

theorem keeps_fenceCtx {s00 s : State} (n st : Nat) (hk : Keeps s00 s) : Keeps s00 (fenceCtx n st s) := by
  unfold fenceCtx
  repeat' first
    | with_reducible assumption | with_reducible intro _ | with_reducible apply keeps_setCtx | with_reducible apply keeps_abortCmd
    | with_reducible apply keeps_abandonCmd | with_reducible apply keeps_finishRetire | with_reducible apply keeps_ite
    | with_reducible apply keeps_foldl

theorem keeps_silenceFn {s00 s : State} (p fn : Nat) (hk : Keeps s00 s) : Keeps s00 (silenceFn p fn s) := by
  unfold silenceFn
  repeat' first
    | with_reducible assumption | with_reducible intro _ | with_reducible apply keeps_mapEngines | with_reducible apply keeps_endCmd
    | with_reducible apply keeps_finishCmd | with_reducible apply keeps_dropUnsent | with_reducible apply keeps_ite
    | with_reducible apply keeps_foldl | dsimp only | refine keeps_mk ?_ rfl rfl rfl rfl rfl rfl rfl rfl rfl

theorem keeps_recallWrites {s00 : State} (a : List Stripe × State) (st : Stripe) (hk : Keeps s00 a.2) : Keeps s00 (recallWrites a st).2 :=
  keeps_mk hk rfl rfl rfl rfl rfl rfl rfl rfl rfl

theorem keeps_moveWork {s00 s : State} (n e t : Nat) (hk : Keeps s00 s) : Keeps s00 (moveWork n e t s) := by
  unfold moveWork
  extract_lets
  exact keeps_setEngine _ _ (keeps_setEngine _ _ (keeps_pair_foldl _ (fun _ _ h => keeps_recallWrites _ _ h) hk))

theorem keeps_recordArrives {s00 s : State} (t : Nat) (hk : Keeps s00 s) : Keeps s00 (recordArrives t s) := by
  unfold recordArrives
  repeat' first
    | with_reducible assumption | with_reducible apply keeps_odSet | with_reducible apply keeps_ite

theorem keeps_placeRecord {s00 s : State} (n t : Nat) (hk : Keeps s00 s) : Keeps s00 (placeRecord n t s) := by
  unfold placeRecord
  repeat' first
    | with_reducible assumption | with_reducible apply keeps_setCtx | with_reducible apply keeps_recordArrives
    | with_reducible apply keeps_ite

theorem keeps_assignRecord {s00 : State} (e : Nat) (a : List (Nat × Nat) × State) (n : Nat) (hk : Keeps s00 a.2) :
    Keeps s00 (assignRecord e a n).2 := by
  unfold assignRecord
  extract_lets t x
  exact keeps_ite (keeps_moveWork _ _ _ (keeps_setCtx _ _ hk)) (keeps_ite (keeps_placeRecord _ _ hk)
    (keeps_ite (keeps_moveWork _ _ _ (keeps_placeRecord _ _ hk)) (keeps_setCtx _ _ hk)))

theorem keeps_holdCmd {s00 s : State} (c : Cmd) (hk : Keeps s00 s) : Keeps s00 (holdCmd c s) := by
  unfold holdCmd
  repeat' first
    | with_reducible assumption | with_reducible apply keeps_mapEngines | with_reducible apply keeps_countEnd | dsimp only
    | refine keeps_mk ?_ rfl rfl rfl rfl rfl rfl rfl rfl rfl

theorem keeps_lastRetire {s00 s : State} (mine : List Nat) (hk : Keeps s00 s) : Keeps s00 (lastRetire mine s) := by
  unfold lastRetire
  repeat' first
    | with_reducible assumption | with_reducible intro _ | with_reducible apply keeps_setCtx | with_reducible apply keeps_completeHeld
    | with_reducible apply keeps_abortCmd | with_reducible apply keeps_abandonCmd | with_reducible apply keeps_holdCmd
    | with_reducible apply keeps_ite | with_reducible apply keeps_foldl

theorem keeps_startRetire {s00 s : State} (e : Nat) (hk : Keeps s00 s) : Keeps s00 (startRetire e s) := by
  unfold startRetire
  extract_lets y s1
  have h1 : Keeps s00 s1 := keeps_odSet _ _ _ (keeps_setEngine _ _ hk)
  exact keeps_finishRetire _ (keeps_ite (keeps_lastRetire _ h1) (keeps_pair_foldl _ (fun _ n h => keeps_assignRecord e _ n h) h1))

theorem keeps_placeContexts {s00 s : State} (hk : Keeps s00 s) : Keeps s00 (placeContexts s) := by
  unfold placeContexts
  extract_lets gone alive s1 theirs
  have h1 : Keeps s00 s1 := keeps_foldl _ (fun _ _ h => keeps_odSet _ _ _ h) hk
  exact keeps_ite (keeps_foldl _ (fun _ _ h => keeps_setCtx _ _ h) h1)
    (keeps_pair_foldl _ (fun _ _ h => keeps_placeRecord _ _ h) h1)

theorem keeps_retireEngine {s00 s : State} (e cause : Nat) (cls : BitVec 2) (stall : Nat) (hk : Keeps s00 s) : Keeps s00 (retireEngine e cause cls stall s) := by
  unfold retireEngine
  repeat' first
    | with_reducible assumption | with_reducible apply keeps_beginRepair | with_reducible apply keeps_startRetire
    | with_reducible apply keeps_ite

theorem keeps_execEngineNop {s00 s : State} (e : EngineId) (st : EngStep) (hk : Keeps s00 s) : Goes s00 (execEngineNop e st s) := by
  unfold execEngineNop
  repeat' first
    | with_reducible assumption | with_reducible apply keeps_engineRow | with_reducible apply goes_next

theorem keeps_execPut {s00 s : State} (e : EngineId) (st : EngStep) (hk : Keeps s00 s) : Goes s00 (execPut e st s) := by
  unfold execPut
  repeat' first
    | with_reducible assumption | with_reducible apply keeps_engineRow | with_reducible apply goes_next

theorem keeps_execGet {s00 s : State} (e : EngineId) (st : EngStep) (hk : Keeps s00 s) : Goes s00 (execGet e st s) := by
  unfold execGet
  repeat' first
    | with_reducible assumption | with_reducible apply keeps_engineRow | with_reducible apply goes_next

theorem keeps_execStage {s00 s : State} (e : EngineId) (st : EngStep) (hk : Keeps s00 s) : Goes s00 (execStage e st s) := by
  unfold execStage
  repeat' first
    | with_reducible assumption | with_reducible apply keeps_engineRow | with_reducible apply goes_next

theorem keeps_execScrub {s00 s : State} (e : EngineId) (st : EngStep) (hk : Keeps s00 s) : Goes s00 (execScrub e st s) := by
  unfold execScrub
  repeat' first
    | with_reducible assumption | with_reducible apply keeps_engineRow | with_reducible apply goes_next

theorem keeps_execRebuild {s00 s : State} (e : EngineId) (st : EngStep) (hk : Keeps s00 s) : Goes s00 (execRebuild e st s) := by
  unfold execRebuild
  repeat' first
    | with_reducible assumption | with_reducible apply keeps_engineRow | with_reducible apply goes_next

theorem keeps_execReencode {s00 s : State} (e : EngineId) (st : EngStep) (hk : Keeps s00 s) : Goes s00 (execReencode e st s) := by
  unfold execReencode
  repeat' first
    | with_reducible assumption | with_reducible apply keeps_engineRow | with_reducible apply goes_next

theorem keeps_execSealSpans {s00 s : State} (e : EngineId) (st : EngStep) (hk : Keeps s00 s) : Goes s00 (execSealSpans e st s) := by
  unfold execSealSpans
  repeat' first
    | with_reducible assumption | with_reducible apply keeps_engineRow | with_reducible apply goes_next

theorem keeps_execVerify {s00 s : State} (e : EngineId) (st : EngStep) (hk : Keeps s00 s) : Goes s00 (execVerify e st s) := by
  unfold execVerify
  repeat' first
    | with_reducible assumption | with_reducible apply keeps_engineRow | with_reducible apply goes_next

theorem keeps_execRelease {s00 s : State} (e : EngineId) (st : EngStep) (hk : Keeps s00 s) : Goes s00 (execRelease e st s) := by
  unfold execRelease
  repeat' first
    | with_reducible assumption | with_reducible apply keeps_engineRow | with_reducible apply goes_next

theorem keeps_execEngineFence {s00 s : State} (e : EngineId) (st : EngStep) (hk : Keeps s00 s) : Goes s00 (execEngineFence e st s) := by
  unfold execEngineFence
  repeat' first
    | with_reducible assumption | with_reducible apply keeps_engineRow | with_reducible apply goes_next

theorem keeps_startDescriptor {s00 s : State} (e : Nat) (hk : Keeps s00 s) : Keeps s00 (startDescriptor e s) := by
  unfold startDescriptor
  repeat' first
    | with_reducible assumption | with_reducible apply keeps_setEngine | with_reducible apply keeps_setCtx
    | with_reducible apply keeps_ite | split | dsimp only | refine keeps_mk ?_ rfl rfl rfl rfl rfl rfl rfl rfl rfl

theorem keeps_execDescriptorStart {s00 s : State} (e : EngineId) (hk : Keeps s00 s) : Goes s00 (execDescriptorStart e s) := by
  unfold execDescriptorStart
  repeat' first
    | with_reducible assumption | with_reducible apply keeps_startDescriptor | with_reducible apply goes_next
    | with_reducible apply goes_ite

theorem keeps_execStripeStart {s00 s : State} (e : EngineId) (hk : Keeps s00 s) : Goes s00 (execStripeStart e s) := by
  unfold execStripeStart
  repeat' first
    | with_reducible assumption | with_reducible apply keeps_sweepSent | with_reducible apply keeps_startStripe
    | with_reducible apply goes_next | with_reducible apply goes_ite | split | dsimp only

theorem keeps_recordCheck {s00 s : State} (c : Cmd) (st : Stripe) (cls : BitVec 2) (first : Option (Word × Word)) (hk : Keeps s00 s) : Keeps s00 (recordCheck c st cls first s) := by
  unfold recordCheck
  repeat' first
    | with_reducible assumption | with_reducible apply keeps_recordSeal

theorem keeps_parityChecked {s00 s : State} (e : Nat) (c : Cmd) (st : Stripe) (bad : List SpanBad) (hk : Keeps s00 s) : Keeps s00 (parityChecked e c st bad s) := by
  unfold parityChecked
  repeat' first
    | with_reducible assumption | with_reducible apply keeps_odBump | with_reducible apply keeps_setStripe
    | with_reducible apply keeps_countEngineFault | with_reducible apply keeps_placeStripe | with_reducible apply keeps_failStripe
    | with_reducible apply keeps_recordCheck | with_reducible apply keeps_ite

theorem keeps_recordRebuild {s00 s : State} (c : Cmd) (st : Stripe) (poisoned : Bool) (bad : List SpanBad) (hk : Keeps s00 s) : Keeps s00 (recordRebuild c st poisoned bad s) := by
  unfold recordRebuild
  repeat' first
    | with_reducible assumption | with_reducible intro _ | with_reducible apply keeps_recordSeal | with_reducible apply keeps_foldl

theorem keeps_rebuildChecked {s00 s : State} (e : Nat) (c : Cmd) (st : Stripe) (bad : List SpanBad) (hk : Keeps s00 s) : Keeps s00 (rebuildChecked e c st bad s) := by
  unfold rebuildChecked
  repeat' first
    | with_reducible assumption | with_reducible apply keeps_modCmd | with_reducible apply keeps_setStripe
    | with_reducible apply keeps_recordMissing | with_reducible apply keeps_placeStripe | with_reducible apply keeps_deliver
    | with_reducible apply keeps_scrubParity | with_reducible apply keeps_recordRebuild | with_reducible apply keeps_ite

theorem keeps_execStripeCheckDone {s00 s : State} (e : EngineId) (slot : Fin 4) (bad : List SpanBad) (hk : Keeps s00 s) : Goes s00 (execStripeCheckDone e slot bad s) := by
  unfold execStripeCheckDone
  repeat' first
    | with_reducible assumption | with_reducible apply keeps_parityChecked | with_reducible apply keeps_rebuildChecked
    | with_reducible apply goes_next | with_reducible apply goes_ite | split

theorem keeps_execStagingPoolSpace {s00 s : State} (e : EngineId) (hk : Keeps s00 s) : Goes s00 (execStagingPoolSpace e s) := by
  unfold execStagingPoolSpace
  repeat' first
    | with_reducible assumption | with_reducible apply keeps_retryPlace | with_reducible apply goes_next

theorem keeps_execStagingTokenRefill {s00 s : State} (e : EngineId) (hk : Keeps s00 s) : Goes s00 (execStagingTokenRefill e s) := by
  unfold execStagingTokenRefill
  repeat' first
    | with_reducible assumption | with_reducible apply keeps_setEngine | with_reducible apply keeps_retryPlace
    | with_reducible apply goes_next

theorem keeps_releasePart {s00 s : State} (st : Stripe) (hk : Keeps s00 s) : Keeps s00 (releasePart st s) := by
  unfold releasePart
  repeat' first
    | with_reducible assumption | with_reducible apply keeps_modCmd | with_reducible apply keeps_finishCmd
    | with_reducible apply keeps_ite | split

theorem keeps_poisonPool {s00 s : State} (g : Geo) (pooled : Stripe) (bad : List SpanBad) (hk : Keeps s00 s) : Keeps s00 (poisonPool g pooled bad s) := by
  unfold poisonPool
  repeat' first
    | with_reducible assumption | with_reducible intro _ | with_reducible apply keeps_recordSeal | with_reducible apply keeps_poisonSpan
    | with_reducible apply keeps_foldl

theorem keeps_readbackFailed {s00 s : State} (pooled : Stripe) (bad : List (Nat × Nat)) (hk : Keeps s00 s) : Keeps s00 (readbackFailed pooled bad s) := by
  unfold readbackFailed
  repeat' first
    | with_reducible assumption | with_reducible apply keeps_setStripe | with_reducible apply keeps_failStripe | split

theorem keeps_settleReadback {s00 s : State} (e : Nat) (pooled : Stripe) (hk : Keeps s00 s) : Keeps s00 (settleReadback e pooled s) := by
  unfold settleReadback
  repeat' first
    | with_reducible assumption | with_reducible apply keeps_settleSram | split

theorem keeps_execReleaseReadbackDone {s00 s : State} (e : EngineId) (slot : Fin 4) (bad : List SpanBad) (hk : Keeps s00 s) : Goes s00 (execReleaseReadbackDone e slot bad s) := by
  unfold execReleaseReadbackDone
  repeat' first
    | with_reducible assumption | with_reducible apply keeps_setStripe | with_reducible apply keeps_takeStripe
    | with_reducible apply keeps_readPool | with_reducible apply keeps_sendFrags | with_reducible apply keeps_releasePart
    | with_reducible apply keeps_poisonPool | with_reducible apply keeps_readbackFailed | with_reducible apply keeps_settleReadback
    | with_reducible apply goes_next | with_reducible apply goes_ite | with_reducible apply keeps_ite | split

theorem keeps_execInterlockEntryFree {s00 s : State} (bank e : EngineId) (hk : Keeps s00 s) : Goes s00 (execInterlockEntryFree bank e s) := by
  unfold execInterlockEntryFree
  repeat' first
    | with_reducible assumption | with_reducible apply keeps_enterKey | with_reducible apply keeps_beginStripe
    | with_reducible apply goes_next | split | dsimp only

theorem keeps_countAnswer {s00 s : State} (e tag : Nat) (hk : Keeps s00 s) : Keeps s00 (countAnswer e tag s) := by
  unfold countAnswer
  repeat' first
    | with_reducible assumption | with_reducible apply keeps_countLink | split

theorem keeps_hostReadAnswer {s00 s : State} (e tag : Nat) (answer : ReadAnswer) (hk : Keeps s00 s) : Keeps s00 (hostReadAnswer e tag answer s) := by
  unfold hostReadAnswer
  repeat' first
    | with_reducible assumption | with_reducible apply keeps_setEngine | with_reducible apply keeps_setStripe
    | with_reducible apply keeps_pump | with_reducible apply keeps_failStripe | with_reducible apply keeps_pullDone
    | with_reducible apply keeps_ite | split | dsimp only

theorem keeps_execHostReadCompletion {s00 s : State} (e : EngineId) (tag : Nat) (answer : ReadAnswer) (hk : Keeps s00 s) : Goes s00 (execHostReadCompletion e tag answer s) := by
  unfold execHostReadCompletion
  repeat' first
    | with_reducible assumption | with_reducible apply keeps_countAnswer | with_reducible apply keeps_hostReadAnswer
    | with_reducible apply goes_next

theorem keeps_makeRoom {s00 s : State} (e : Nat) (hk : Keeps s00 s) : Keeps s00 (makeRoom e s).2 := by
  unfold makeRoom
  repeat' first
    | with_reducible assumption | with_reducible apply keeps_setCtx | with_reducible apply keeps_pair_ite | split

theorem keeps_execContextLoadDone {s00 s : State} (e : EngineId) (c : CtxId) (hk : Keeps s00 s) : Goes s00 (execContextLoadDone e c s) := by
  unfold execContextLoadDone
  repeat' first
    | with_reducible assumption | with_reducible apply keeps_setCtx | with_reducible apply keeps_recordArrives
    | with_reducible apply keeps_makeRoom | with_reducible apply goes_next | with_reducible apply goes_ite | dsimp only
    | refine keeps_mk ?_ rfl rfl rfl rfl rfl rfl rfl rfl rfl

theorem keeps_ctxResult {s00 s : State} (p : Path) (v : Nat) (hk : Keeps s00 s) : Keeps s00 (ctxResult p v s) := by
  unfold ctxResult
  repeat' first
    | with_reducible assumption | with_reducible apply keeps_pathSet

theorem keeps_createCtx {s00 s : State} (p : Path) (stall : BitVec 9) (cls : BitVec 2) (sealsReq forceBuf : Bool) (hk : Keeps s00 s) : Keeps s00 (createCtx p stall cls sealsReq forceBuf s) := by
  unfold createCtx
  repeat' first
    | with_reducible assumption | with_reducible apply keeps_setCtx | with_reducible apply keeps_recordArrives
    | with_reducible apply keeps_makeRoom | with_reducible apply keeps_ctxResult | with_reducible apply keeps_ite

theorem keeps_freeCtx {s00 s : State} (n : Nat) (unfence : Bool) (hk : Keeps s00 s) : Keeps s00 (freeCtx n unfence s).2 := by
  unfold freeCtx
  repeat' first
    | with_reducible assumption | with_reducible apply keeps_setCtx | with_reducible apply keeps_pair_ite | split | dsimp only

theorem keeps_execCtxCreate {s00 s : State} (path : Path) (stall : BitVec 9) (cls : BitVec 2) (sealsReq forceBuf : Bool) (hk : Keeps s00 s) : Goes s00 (execCtxCreate path stall cls sealsReq forceBuf s) := by
  unfold execCtxCreate
  repeat' first
    | with_reducible assumption | with_reducible intro _ | with_reducible apply keeps_odWriteNat | with_reducible apply keeps_createCtx
    | with_reducible apply goes_next

theorem keeps_freeSelected {s00 s : State} (p : Path) (unfence : Bool) (hk : Keeps s00 s) : Keeps s00 (freeSelected p unfence s) := by
  unfold freeSelected
  repeat' first
    | with_reducible assumption | with_reducible apply keeps_ctxResult | with_reducible apply keeps_freeCtx

theorem keeps_execCtxFree {s00 s : State} (path : Path) (hk : Keeps s00 s) : Goes s00 (execCtxFree path s) := by
  unfold execCtxFree
  repeat' first
    | with_reducible assumption | with_reducible intro _ | with_reducible apply keeps_odWriteNat
    | with_reducible apply keeps_freeSelected | with_reducible apply goes_next

theorem keeps_execCtxUnfenceFree {s00 s : State} (path : Path) (hk : Keeps s00 s) : Goes s00 (execCtxUnfenceFree path s) := by
  unfold execCtxUnfenceFree
  repeat' first
    | with_reducible assumption | with_reducible intro _ | with_reducible apply keeps_odWriteNat
    | with_reducible apply keeps_freeSelected | with_reducible apply goes_next

theorem keeps_execEngineNoProgress {s00 s : State} (e : EngineId) (hk : Keeps s00 s) : Goes s00 (execEngineNoProgress e s) := by
  unfold execEngineNoProgress
  repeat' first
    | with_reducible assumption | with_reducible apply keeps_retireEngine | with_reducible apply goes_next
    | with_reducible apply goes_ite

theorem keeps_sramAgain {s00 s : State} (e : Nat) (c : Cmd) (st : Stripe) (again : Stripe → State → State) (hf : ∀ b x t, Keeps b t → Keeps b (again x t)) (hk : Keeps s00 s) : Keeps s00 (sramAgain e c st again s) := by
  unfold sramAgain
  repeat' first
    | with_reducible assumption | with_reducible apply keeps_countEngineFault | with_reducible apply keeps_engineRec
    | with_reducible apply keeps_failStripe | with_reducible apply hf | with_reducible apply keeps_ite

theorem keeps_sramFlying {s00 s : State} (e : Nat) (c : Cmd) (st : Stripe) (hk : Keeps s00 s) : Keeps s00 (sramFlying e c st s) := by
  unfold sramFlying
  repeat' first
    | with_reducible assumption | with_reducible intro _ | with_reducible apply keeps_takeStripe | with_reducible apply keeps_putRegen
    | with_reducible apply keeps_recallWrites | with_reducible apply keeps_sramAgain | with_reducible apply keeps_ite | split
    | dsimp only

theorem keeps_sramPooled {s00 s : State} (e : Nat) (c : Cmd) (st pooled : Stripe) (hk : Keeps s00 s) : Keeps s00 (sramPooled e c st pooled s) := by
  unfold sramPooled
  repeat' first
    | with_reducible assumption | with_reducible intro _ | with_reducible apply keeps_setStripe | with_reducible apply keeps_takeStripe
    | with_reducible apply keeps_recallWrites | with_reducible apply keeps_releasePart | with_reducible apply keeps_sramAgain
    | with_reducible apply keeps_ite | split | dsimp only

theorem keeps_execStagingSramUe {s00 s : State} (e : EngineId) (slot : Fin 4) (span : Nat) (hk : Keeps s00 s) : Goes s00 (execStagingSramUe e slot span s) := by
  unfold execStagingSramUe
  repeat' first
    | with_reducible assumption | with_reducible intro _ | with_reducible apply keeps_setEngine | with_reducible apply keeps_setStripe
    | with_reducible apply keeps_takeStripe | with_reducible apply keeps_engineRec | with_reducible apply keeps_resolve
    | with_reducible apply keeps_readMore | with_reducible apply keeps_beginStripe | with_reducible apply keeps_releasePart
    | with_reducible apply keeps_sramAgain | with_reducible apply keeps_sramFlying | with_reducible apply keeps_sramPooled
    | with_reducible apply goes_next | with_reducible apply goes_ite | split

theorem keeps_execEngineSramCe {s00 s : State} (e : EngineId) (hk : Keeps s00 s) : Goes s00 (execEngineSramCe e s) := by
  unfold execEngineSramCe
  repeat' first
    | with_reducible assumption | with_reducible apply keeps_odBump | with_reducible apply goes_next

theorem keeps_landRecord {s00 s : State} (n : Nat) (hk : Keeps s00 s) : Keeps s00 (landRecord n s) := by
  unfold landRecord
  repeat' first
    | with_reducible assumption | with_reducible apply keeps_setCtx | with_reducible apply keeps_finishRetire
    | with_reducible apply keeps_fenceCtx | with_reducible apply keeps_moveWork | with_reducible apply keeps_recordArrives
    | with_reducible apply keeps_ite | split | dsimp only | refine keeps_mk ?_ rfl rfl rfl rfl rfl rfl rfl rfl rfl

theorem keeps_execContextRecordLanded {s00 s : State} (c : CtxId) (hk : Keeps s00 s) : Goes s00 (execContextRecordLanded c s) := by
  unfold execContextRecordLanded
  repeat' first
    | with_reducible assumption | with_reducible apply keeps_landRecord | with_reducible apply goes_next

end Sys2Proof.Machine
end

