-- ==== Sys2Proof/Laws/KeepsLinks.lean ====
section
/-! SUPPORT. Drive ports and Tether links keep the queue and the invariant. -/

namespace Sys2Proof.Machine

theorem keeps_driveLost {s00 s : State} (c : DriveCmd) (bad : List (Nat × Nat × Word × Word)) (hk : Keeps s00 s) : Keeps s00 (driveLost c bad s) := by
  unfold driveLost
  repeat' first
    | with_reducible assumption | with_reducible apply keeps_writeOutcome | with_reducible apply keeps_readOutcome
    | with_reducible apply keeps_ite

theorem keeps_flushWaiting {s00 s : State} (p : Nat) (hk : Keeps s00 s) : Keeps s00 (flushWaiting p s) := by
  unfold flushWaiting
  repeat' first
    | with_reducible assumption | with_reducible intro _ | with_reducible apply keeps_setPort | with_reducible apply keeps_driveLost
    | with_reducible apply keeps_foldl | split | dsimp only

theorem keeps_shelfResult {s00 s : State} (path : Path) (h v : Nat) (hk : Keeps s00 s) : Keeps s00 (shelfResult path h v s) := by
  unfold shelfResult
  repeat' first
    | with_reducible assumption | with_reducible apply keeps_pathSet

theorem keeps_answerHeld {s00 s : State} (h : Nat) (wake : Bool) (v : Nat) (hk : Keeps s00 s) : Keeps s00 (answerHeld h wake v s) := by
  unfold answerHeld
  repeat' first
    | with_reducible assumption | with_reducible intro _ | with_reducible apply keeps_setShelf | with_reducible apply keeps_shelfResult
    | with_reducible apply keeps_foldl

theorem keeps_startClosing {s00 s : State} (h : Nat) (hk : Keeps s00 s) : Keeps s00 (startClosing h s) := by
  unfold startClosing
  repeat' first
    | with_reducible assumption | with_reducible apply keeps_setShelf | with_reducible apply keeps_setShelfState
    | with_reducible apply keeps_trySleep

theorem keeps_openShelf {s00 s : State} (h : Nat) (hk : Keeps s00 s) : Keeps s00 (openShelf h s) := by
  unfold openShelf
  repeat' first
    | with_reducible assumption | with_reducible apply keeps_odBump | with_reducible apply keeps_setShelf
    | with_reducible apply keeps_setShelfState | with_reducible apply keeps_retryAll | with_reducible apply keeps_answerHeld
    | with_reducible apply keeps_startClosing | with_reducible apply keeps_ite

theorem keeps_tryOpen {s00 s : State} (h : Nat) (hk : Keeps s00 s) : Keeps s00 (tryOpen h s) := by
  unfold tryOpen
  repeat' first
    | with_reducible assumption | with_reducible apply keeps_openShelf | with_reducible apply keeps_ite

theorem keeps_dropPort {s00 s : State} (p : Nat) (st : PortState) (hk : Keeps s00 s) : Keeps s00 (dropPort p st s) := by
  unfold dropPort
  repeat' first
    | with_reducible assumption | with_reducible apply keeps_setPortState | with_reducible apply keeps_trySleep
    | with_reducible apply keeps_flushWaiting | with_reducible apply keeps_tryOpen

theorem keeps_countFail {s00 s : State} (p : Nat) (hk : Keeps s00 s) : Keeps s00 (countFail p s) := by
  unfold countFail
  repeat' first
    | with_reducible assumption | with_reducible apply keeps_setPort | with_reducible apply keeps_dropPort
    | with_reducible apply keeps_ite

theorem keeps_makeLate {s00 s : State} (p : Nat) (hk : Keeps s00 s) : Keeps s00 (makeLate p s) := by
  unfold makeLate
  repeat' first
    | with_reducible assumption | with_reducible apply keeps_odBump | with_reducible apply keeps_dropPort

theorem keeps_missSleep {s00 s : State} (p : Nat) (hk : Keeps s00 s) : Keeps s00 (missSleep p s) := by
  unfold missSleep
  repeat' first
    | with_reducible assumption | with_reducible apply keeps_odBump | with_reducible apply keeps_setPort
    | with_reducible apply keeps_makeLate | with_reducible apply keeps_ite

theorem keeps_sendAbort {s00 s : State} (p tag : Nat) (hk : Keeps s00 s) : Keeps s00 (sendAbort p tag s) := by
  unfold sendAbort
  repeat' first
    | with_reducible assumption | with_reducible apply keeps_sendMsg

theorem keeps_freeTagOf {s00 s : State} (p : Nat) (tag : BitVec 8) (hk : Keeps s00 s) : Keeps s00 (freeTagOf p tag s) := by
  unfold freeTagOf
  repeat' first
    | with_reducible assumption | with_reducible apply keeps_setPort

theorem keeps_modTag {s00 s : State} (p : Nat) (tag : BitVec 8) (f : DriveCmd → DriveCmd) (hk : Keeps s00 s) : Keeps s00 (modTag p tag f s) := by
  unfold modTag
  repeat' first
    | with_reducible assumption | with_reducible apply keeps_setPort

theorem keeps_issueNext {s00 s : State} (p : Nat) (hk : Keeps s00 s) : Keeps s00 (issueNext p s) := by
  unfold issueNext
  repeat' first
    | with_reducible assumption | with_reducible apply keeps_setPort | with_reducible apply keeps_issueCmd | split | dsimp only

theorem keeps_execPortCommandIssue {s00 s : State} (p : PortId) (hk : Keeps s00 s) : Goes s00 (execPortCommandIssue p s) := by
  unfold execPortCommandIssue
  repeat' first
    | with_reducible assumption | with_reducible apply keeps_issueNext | with_reducible apply goes_next

theorem keeps_driveExpiry {s00 s : State} (p : Nat) (tag : BitVec 8) (hk : Keeps s00 s) : Keeps s00 (driveExpiry p tag s) := by
  unfold driveExpiry
  repeat' first
    | with_reducible assumption | with_reducible apply keeps_odBump | with_reducible apply keeps_identify
    | with_reducible apply keeps_trySleep | with_reducible apply keeps_driveLost | with_reducible apply keeps_countFail
    | with_reducible apply keeps_sendAbort | with_reducible apply keeps_modTag | with_reducible apply keeps_ite | split

theorem keeps_execDlDriveExpiry {s00 s : State} (p : PortId) (tag : BitVec 8) (hk : Keeps s00 s) : Goes s00 (execDlDriveExpiry p tag s) := by
  unfold execDlDriveExpiry
  repeat' first
    | with_reducible assumption | with_reducible apply keeps_driveExpiry | with_reducible apply goes_next

theorem keeps_execAbortTimeout {s00 s : State} (p : PortId) (tag : BitVec 8) (hk : Keeps s00 s) : Goes s00 (execAbortTimeout p tag s) := by
  unfold execAbortTimeout
  repeat' first
    | with_reducible assumption | with_reducible apply keeps_dropPort | with_reducible apply goes_next | with_reducible apply goes_ite
    | split

theorem keeps_badMessage {s00 s : State} (l : Nat) (hk : Keeps s00 s) : Keeps s00 (badMessage l s) := by
  unfold badMessage
  repeat' first
    | with_reducible assumption | with_reducible apply keeps_odBump

theorem keeps_statusOutcome {s00 s0 : State} (p : Nat) (c : DriveCmd) (code : Nat) (blk span : Nat) (hk : Keeps s00 s0) : Keeps s00 (statusOutcome p c code blk span s0) := by
  unfold statusOutcome
  repeat' first
    | with_reducible assumption | with_reducible apply keeps_odBump | with_reducible apply keeps_setPort
    | with_reducible apply keeps_recordSeal | with_reducible apply keeps_countEngineFault | with_reducible apply keeps_writeOutcome
    | with_reducible apply keeps_readOutcome | with_reducible apply keeps_driveLost | with_reducible apply keeps_dropPort
    | with_reducible apply keeps_countFail | with_reducible apply keeps_ite

theorem keeps_statusMsg {s00 s : State} (l p : Nat) (tag code : BitVec 8) (blk span : Nat) (hk : Keeps s00 s) : Keeps s00 (statusMsg l p tag code blk span s) := by
  unfold statusMsg
  repeat' first
    | with_reducible assumption | with_reducible apply keeps_odBump | with_reducible apply keeps_trySleep
    | with_reducible apply keeps_freeTagOf | with_reducible apply keeps_badMessage | with_reducible apply keeps_statusOutcome
    | with_reducible apply keeps_ite | split

theorem keeps_execStatusMsg {s00 s : State} (l : LinkId) (p : PortId) (tag code : BitVec 8) (blk : BitVec 40) (span : Fin 16) (hk : Keeps s00 s) : Goes s00 (execStatusMsg l p tag code blk span s) := by
  unfold execStatusMsg
  repeat' first
    | with_reducible assumption | with_reducible apply keeps_statusMsg | with_reducible apply goes_next

theorem keeps_execSealMsg {s00 s : State} (l : LinkId) (p : PortId) (tag : BitVec 8) (blk : Fin 16) (poison : BitVec 16) (_block : BitVec 40) (seals : List Word) (hk : Keeps s00 s) : Goes s00 (execSealMsg l p tag blk poison _block seals s) := by
  unfold execSealMsg
  repeat' first
    | with_reducible assumption | with_reducible apply keeps_odAdd | with_reducible apply keeps_modTag | with_reducible apply goes_next
    | with_reducible apply goes_ite | split

theorem keeps_execDataMsg {s00 s : State} (l : LinkId) (p : PortId) (tag : BitVec 8) (blk : Fin 16) (data : List Byte) (hk : Keeps s00 s) : Goes s00 (execDataMsg l p tag blk data s) := by
  unfold execDataMsg
  repeat' first
    | with_reducible assumption | with_reducible apply keeps_modTag | with_reducible apply goes_next | with_reducible apply goes_ite
    | split

theorem keeps_joinWake {s00 s : State} (p : Nat) (hk : Keeps s00 s) : Keeps s00 (joinWake p s) := by
  unfold joinWake
  repeat' first
    | with_reducible assumption | with_reducible apply keeps_setPort | with_reducible apply keeps_setShelf
    | with_reducible apply keeps_setPortState | with_reducible apply keeps_powerSet

theorem keeps_recordSerial {s00 s : State} (p : Nat) (serial : BitVec 128) (hk : Keeps s00 s) : Keeps s00 (recordSerial p serial s) := by
  unfold recordSerial
  repeat' first
    | with_reducible assumption | with_reducible apply keeps_setPort | with_reducible apply keeps_storeOd

theorem keeps_identified {s00 s : State} (p : Nat) (present : Bool) (serial : BitVec 128) (cap : Nat) (hk : Keeps s00 s) : Keeps s00 (identified p present serial cap s) := by
  unfold identified
  repeat' first
    | with_reducible assumption | with_reducible apply keeps_setPort | with_reducible apply keeps_setPortState
    | with_reducible apply keeps_dropPort | with_reducible apply keeps_joinWake | with_reducible apply keeps_recordSerial
    | with_reducible apply keeps_ite | split

theorem keeps_execIdentData {s00 s : State} (l : LinkId) (p : PortId) (tag : BitVec 8) (present : Bool) (serial : BitVec 128) (cap : BitVec 40) (hk : Keeps s00 s) : Goes s00 (execIdentData l p tag present serial cap s) := by
  unfold execIdentData
  repeat' first
    | with_reducible assumption | with_reducible apply keeps_odBump | with_reducible apply keeps_trySleep
    | with_reducible apply keeps_freeTagOf | with_reducible apply keeps_identified | with_reducible apply goes_next
    | with_reducible apply goes_ite | with_reducible apply keeps_ite | split

theorem keeps_dropQueued {s00 s : State} (p : Nat) (hk : Keeps s00 s) : Keeps s00 (dropQueued p s) := by
  unfold dropQueued
  repeat' first
    | with_reducible assumption | with_reducible apply keeps_setLink

theorem keeps_portChange {s00 s : State} (p : Nat) (present : Bool) (hk : Keeps s00 s) : Keeps s00 (portChange p present s) := by
  unfold portChange
  repeat' first
    | with_reducible assumption | with_reducible intro _ | with_reducible apply keeps_setPort | with_reducible apply keeps_setPortState
    | with_reducible apply keeps_identify | with_reducible apply keeps_driveLost | with_reducible apply keeps_dropPort
    | with_reducible apply keeps_dropQueued | with_reducible apply keeps_ite | with_reducible apply keeps_foldl

theorem keeps_execPortChange {s00 s : State} (l : LinkId) (p : PortId) (present : Bool) (hk : Keeps s00 s) : Goes s00 (execPortChange l p present s) := by
  unfold execPortChange
  repeat' first
    | with_reducible assumption | with_reducible apply keeps_portChange | with_reducible apply goes_next | with_reducible apply goes_ite

theorem keeps_execBridgeAlert {s00 s : State} (l : LinkId) (code : BitVec 16) (value : BitVec 64) (hk : Keeps s00 s) : Goes s00 (execBridgeAlert l code value s) := by
  unfold execBridgeAlert
  repeat' first
    | with_reducible assumption | with_reducible apply keeps_odBump | with_reducible apply keeps_record
    | with_reducible apply keeps_raiseLink | with_reducible apply goes_next

theorem keeps_execUnknownMessage {s00 s : State} (l : LinkId) (ty : BitVec 8) (len : Nat) (hk : Keeps s00 s) : Goes s00 (execUnknownMessage l ty len s) := by
  unfold execUnknownMessage
  repeat' first
    | with_reducible assumption | with_reducible apply keeps_badMessage | with_reducible apply goes_next | with_reducible apply goes_ite

theorem keeps_portResult {s00 s : State} (path : Path) (p v : Nat) (hk : Keeps s00 s) : Keeps s00 (portResult path p v s) := by
  unfold portResult
  repeat' first
    | with_reducible assumption | with_reducible apply keeps_pathSet

theorem keeps_requestResult {s00 s : State} (path : Path) (p v : Nat) (hk : Keeps s00 s) : Keeps s00 (requestResult path p v s) := by
  unfold requestResult
  repeat' first
    | with_reducible assumption | with_reducible apply keeps_setPort | with_reducible apply keeps_portResult

theorem keeps_acceptDrive {s00 s : State} (path : Path) (p : Nat) (hk : Keeps s00 s) : Keeps s00 (acceptDrive path p s) := by
  unfold acceptDrive
  repeat' first
    | with_reducible assumption | with_reducible apply keeps_setPort | with_reducible apply keeps_setPortState
    | with_reducible apply keeps_identify | with_reducible apply keeps_recordSerial | with_reducible apply keeps_requestResult | split
    | dsimp only

theorem keeps_execAcceptDrive {s00 s : State} (path : Path) (p : PortId) (hk : Keeps s00 s) : Goes s00 (execAcceptDrive path p s) := by
  unfold execAcceptDrive
  repeat' first
    | with_reducible assumption | with_reducible intro _ | with_reducible apply keeps_odWriteNat | with_reducible apply keeps_acceptDrive
    | with_reducible apply goes_next

theorem keeps_retirePort {s00 s : State} (path : Path) (p : Nat) (hk : Keeps s00 s) : Keeps s00 (retirePort path p s) := by
  unfold retirePort
  repeat' first
    | with_reducible assumption | with_reducible apply keeps_setPort | with_reducible apply keeps_dropPort
    | with_reducible apply keeps_requestResult | with_reducible apply keeps_ite

theorem keeps_execRetirePort {s00 s : State} (path : Path) (p : PortId) (hk : Keeps s00 s) : Goes s00 (execRetirePort path p s) := by
  unfold execRetirePort
  repeat' first
    | with_reducible assumption | with_reducible intro _ | with_reducible apply keeps_odWriteNat | with_reducible apply keeps_retirePort
    | with_reducible apply goes_next

theorem keeps_reenablePort {s00 s : State} (path : Path) (p : Nat) (hk : Keeps s00 s) : Keeps s00 (reenablePort path p s) := by
  unfold reenablePort
  repeat' first
    | with_reducible assumption | with_reducible apply keeps_setPort | with_reducible apply keeps_setPortState
    | with_reducible apply keeps_identify | with_reducible apply keeps_joinWake | with_reducible apply keeps_requestResult | split
    | dsimp only

theorem keeps_execReenablePort {s00 s : State} (path : Path) (p : PortId) (hk : Keeps s00 s) : Goes s00 (execReenablePort path p s) := by
  unfold execReenablePort
  repeat' first
    | with_reducible assumption | with_reducible intro _ | with_reducible apply keeps_odWriteNat
    | with_reducible apply keeps_reenablePort | with_reducible apply goes_next

theorem keeps_writeShelf {s00 s : State} (path : Path) (p h : Nat) (hk : Keeps s00 s) : Keeps s00 (writeShelf path p h s) := by
  unfold writeShelf
  repeat' first
    | with_reducible assumption | with_reducible apply keeps_noteBag | with_reducible apply keeps_setPort
    | with_reducible apply keeps_portResult

theorem keeps_execPortShelfWrite {s00 s : State} (path : Path) (p : PortId) (h : BitVec 8) (hk : Keeps s00 s) : Goes s00 (execPortShelfWrite path p h s) := by
  unfold execPortShelfWrite
  repeat' first
    | with_reducible assumption | with_reducible intro _ | with_reducible apply keeps_odWriteNat | with_reducible apply keeps_writeShelf
    | with_reducible apply goes_next

theorem keeps_execPortShelfMove {s00 s : State} (p : PortId) (hk : Keeps s00 s) : Goes s00 (execPortShelfMove p s) := by
  unfold execPortShelfMove
  repeat' first
    | with_reducible assumption | with_reducible intro _ | with_reducible apply keeps_odSet | with_reducible apply keeps_setPort
    | with_reducible apply keeps_portResult | with_reducible apply goes_next | with_reducible apply goes_ite
    | with_reducible apply keeps_foldl | split | dsimp only

theorem keeps_shelfPowerDone {s00 s : State} (h l : Nat) (req : BitVec 8) (up : Bool) (ok failed : BitVec 32) (hk : Keeps s00 s) : Keeps s00 (shelfPowerDone h l req up ok failed s) := by
  unfold shelfPowerDone
  repeat' first
    | with_reducible assumption | with_reducible intro _ | with_reducible apply keeps_setShelf | with_reducible apply keeps_setPortState
    | with_reducible apply keeps_shelfAsleep | with_reducible apply keeps_tryOpen | with_reducible apply keeps_makeLate
    | with_reducible apply keeps_missSleep | with_reducible apply keeps_ite | with_reducible apply keeps_foldl

theorem keeps_powerDone {s00 s : State} (l : Nat) (req : BitVec 8) (ok failed : BitVec 32) (hk : Keeps s00 s) : Keeps s00 (powerDone l req ok failed s) := by
  unfold powerDone
  repeat' first
    | with_reducible assumption | with_reducible apply keeps_setPort | with_reducible apply keeps_setPortState
    | with_reducible apply keeps_makeLate | with_reducible apply keeps_badMessage | with_reducible apply keeps_shelfPowerDone | split
    | dsimp only

theorem keeps_execPowerDone {s00 s : State} (l : LinkId) (req : BitVec 8) (ok failed : BitVec 32) (hk : Keeps s00 s) : Goes s00 (execPowerDone l req ok failed s) := by
  unfold execPowerDone
  repeat' first
    | with_reducible assumption | with_reducible apply keeps_powerDone | with_reducible apply goes_next

theorem keeps_wakeRequest {s00 s : State} (path : Path) (h : Nat) (hk : Keeps s00 s) : Keeps s00 (wakeRequest path h s) := by
  unfold wakeRequest
  repeat' first
    | with_reducible assumption | with_reducible apply keeps_setShelf | with_reducible apply keeps_askWake
    | with_reducible apply keeps_shelfResult | with_reducible apply keeps_answerHeld | with_reducible apply keeps_ite

theorem keeps_execShelfWakeRequest {s00 s : State} (path : Path) (h : ShelfId) (hk : Keeps s00 s) : Goes s00 (execShelfWakeRequest path h s) := by
  unfold execShelfWakeRequest
  repeat' first
    | with_reducible assumption | with_reducible intro _ | with_reducible apply keeps_odWriteNat | with_reducible apply keeps_wakeRequest
    | with_reducible apply goes_next

theorem keeps_sleepRequest {s00 s : State} (path : Path) (h : Nat) (hk : Keeps s00 s) : Keeps s00 (sleepRequest path h s) := by
  unfold sleepRequest
  repeat' first
    | with_reducible assumption | with_reducible apply keeps_setShelf | with_reducible apply keeps_shelfResult
    | with_reducible apply keeps_answerHeld | with_reducible apply keeps_startClosing | split | dsimp only
    | refine keeps_mk ?_ rfl rfl rfl rfl rfl rfl rfl rfl rfl

theorem keeps_execShelfSleepRequest {s00 s : State} (path : Path) (h : ShelfId) (hk : Keeps s00 s) : Goes s00 (execShelfSleepRequest path h s) := by
  unfold execShelfSleepRequest
  repeat' first
    | with_reducible assumption | with_reducible intro _ | with_reducible apply keeps_odWriteNat
    | with_reducible apply keeps_sleepRequest | with_reducible apply goes_next

theorem keeps_admitWake {s00 s : State} (h : Nat) (hk : Keeps s00 s) : Keeps s00 (admitWake h s) := by
  unfold admitWake
  repeat' first
    | with_reducible assumption | with_reducible intro _ | with_reducible apply keeps_setShelf | with_reducible apply keeps_setPortState
    | with_reducible apply keeps_setShelfState | with_reducible apply keeps_powerShelf | with_reducible apply keeps_answerHeld
    | with_reducible apply keeps_tryOpen | with_reducible apply keeps_foldl | refine keeps_mk ?_ rfl rfl rfl rfl rfl rfl rfl rfl rfl

theorem keeps_execShelfWakeAdmit {s00 s : State}  (hk : Keeps s00 s) : Goes s00 (execShelfWakeAdmit s) := by
  unfold execShelfWakeAdmit
  repeat' first
    | with_reducible assumption | with_reducible apply keeps_admitWake | with_reducible apply goes_next | with_reducible apply goes_ite
    | split

theorem keeps_execWakeLimitExpiry {s00 s : State} (h : ShelfId) (p : Option PortId) (hk : Keeps s00 s) : Goes s00 (execWakeLimitExpiry h p s) := by
  unfold execWakeLimitExpiry
  repeat' first
    | with_reducible assumption | with_reducible intro _ | with_reducible apply keeps_setPort | with_reducible apply keeps_tryOpen
    | with_reducible apply keeps_makeLate | with_reducible apply goes_next | with_reducible apply goes_ite
    | with_reducible apply keeps_foldl | split

theorem keeps_execWindowGuardReached {s00 s : State} (h : ShelfId) (hk : Keeps s00 s) : Goes s00 (execWindowGuardReached h s) := by
  unfold execWindowGuardReached
  repeat' first
    | with_reducible assumption | with_reducible apply keeps_startClosing | with_reducible apply goes_next
    | with_reducible apply goes_ite

theorem keeps_windowExpiry {s00 s : State} (h : Nat) (hk : Keeps s00 s) : Keeps s00 (windowExpiry h s) := by
  unfold windowExpiry
  repeat' first
    | with_reducible assumption | with_reducible intro _ | with_reducible apply keeps_odBump | with_reducible apply keeps_setPort
    | with_reducible apply keeps_setShelf | with_reducible apply keeps_requestWake | with_reducible apply keeps_trySleep
    | with_reducible apply keeps_ite | with_reducible apply keeps_foldl

theorem keeps_execDlWindowExpiry {s00 s : State} (h : ShelfId) (hk : Keeps s00 s) : Goes s00 (execDlWindowExpiry h s) := by
  unfold execDlWindowExpiry
  repeat' first
    | with_reducible assumption | with_reducible apply keeps_windowExpiry | with_reducible apply goes_next

theorem keeps_execPowerDoneTimeout {s00 s : State} (h : ShelfId) (hk : Keeps s00 s) : Goes s00 (execPowerDoneTimeout h s) := by
  unfold execPowerDoneTimeout
  repeat' first
    | with_reducible assumption | with_reducible intro _ | with_reducible apply keeps_record | with_reducible apply keeps_shelfAsleep
    | with_reducible apply keeps_missSleep | with_reducible apply goes_next | with_reducible apply goes_ite
    | with_reducible apply keeps_foldl

theorem keeps_writeWindow {s00 s : State} (h v elapsed : Nat) (hk : Keeps s00 s) : Keeps s00 (writeWindow h v elapsed s) := by
  unfold writeWindow
  repeat' first
    | with_reducible assumption | with_reducible apply keeps_storeOd | with_reducible apply keeps_startClosing
    | with_reducible apply keeps_ite

theorem keeps_execWindowLenWrite {s00 s : State} (path : Path) (h : ShelfId) (v : BitVec 32) (elapsed : Nat) (hk : Keeps s00 s) : Goes s00 (execWindowLenWrite path h v elapsed s) := by
  unfold execWindowLenWrite
  repeat' first
    | with_reducible assumption | with_reducible intro _ | with_reducible apply keeps_odWriteNat | with_reducible apply keeps_writeWindow
    | with_reducible apply goes_next

theorem keeps_badFlit {s00 s : State} (l : Nat) (hk : Keeps s00 s) : Keeps s00 (badFlit l s) := by
  unfold badFlit
  repeat' first
    | with_reducible assumption | with_reducible apply keeps_odBump | with_reducible apply keeps_setLink

theorem keeps_setLinkState {s00 s : State} (l : Nat) (st : LinkState) (hk : Keeps s00 s) : Keeps s00 (setLinkState l st s) := by
  unfold setLinkState
  repeat' first
    | with_reducible assumption | with_reducible apply keeps_setLink | with_reducible apply keeps_raiseLink
    | with_reducible apply keeps_ite

theorem keeps_sendFrames {s00 s : State} (l countdown : Nat) (hk : Keeps s00 s) : Keeps s00 (sendFrames l countdown s) := by
  unfold sendFrames
  repeat' first
    | with_reducible assumption | with_reducible intro _ | with_reducible apply keeps_emit | with_reducible apply keeps_setLink
    | with_reducible apply keeps_foldl

theorem keeps_sendCountdown {s00 s : State} (l : Nat) (hk : Keeps s00 s) : Keeps s00 (sendCountdown l s) := by
  unfold sendCountdown
  repeat' first
    | with_reducible assumption | with_reducible intro _ | with_reducible apply keeps_sendFrames | with_reducible apply keeps_foldl

theorem keeps_dropAwaiting {s00 s : State} (l : Nat) (hk : Keeps s00 s) : Keeps s00 (dropAwaiting l s) := by
  unfold dropAwaiting
  repeat' first
    | with_reducible assumption | with_reducible intro _ | with_reducible apply keeps_setShelf | with_reducible apply keeps_shelfAsleep
    | with_reducible apply keeps_tryOpen | with_reducible apply keeps_missSleep | with_reducible apply keeps_ite
    | with_reducible apply keeps_foldl

theorem keeps_portOffline {s00 t : State} (p : Nat) (hk : Keeps s00 t) : Keeps s00 (portOffline p t) := by
  unfold portOffline
  repeat' first
    | with_reducible assumption | with_reducible intro _ | with_reducible apply keeps_setPort | with_reducible apply keeps_setPortState
    | with_reducible apply keeps_identify | with_reducible apply keeps_trySleep | with_reducible apply keeps_driveLost
    | with_reducible apply keeps_ite | with_reducible apply keeps_foldl

theorem keeps_portsOffline {s00 s : State} (l : Nat) (hk : Keeps s00 s) : Keeps s00 (portsOffline l s) := by
  unfold portsOffline
  repeat' first
    | with_reducible assumption | with_reducible intro _ | with_reducible apply keeps_dropAwaiting
    | with_reducible apply keeps_portOffline | with_reducible apply keeps_foldl

theorem keeps_handBack {s00 s : State} (l : Nat) (hk : Keeps s00 s) : Keeps s00 (handBack l s) := by
  unfold handBack
  repeat' first
    | with_reducible assumption | with_reducible intro _ | with_reducible apply keeps_odAdd | with_reducible apply keeps_setPort
    | with_reducible apply keeps_identify | with_reducible apply keeps_requestWake | with_reducible apply keeps_trySleep
    | with_reducible apply keeps_rewriteFrag | with_reducible apply keeps_driveLost | with_reducible apply keeps_flushWaiting
    | with_reducible apply keeps_ite | with_reducible apply keeps_foldl

theorem keeps_resendPower {s00 s : State} (l : Nat) (hk : Keeps s00 s) : Keeps s00 (resendPower l s) := by
  unfold resendPower
  repeat' first
    | with_reducible assumption | with_reducible intro _ | with_reducible apply keeps_setPort | with_reducible apply keeps_setShelf
    | with_reducible apply keeps_powerSet | with_reducible apply keeps_ite | with_reducible apply keeps_foldl

theorem keeps_sendCtl {s00 s : State} (l op arg : Nat) (request : Bool) (hk : Keeps s00 s) : Keeps s00 (sendCtl l op arg request s) := by
  unfold sendCtl
  repeat' first
    | with_reducible assumption | with_reducible apply keeps_setLink

theorem keeps_acceptCtl {s00 s : State} (l : Nat) (h : BitVec 40) (hk : Keeps s00 s) : Keeps s00 (acceptCtl l h s).2 := by
  unfold acceptCtl
  repeat' first
    | with_reducible assumption | with_reducible apply keeps_setLink | with_reducible apply keeps_pair_ite

theorem keeps_failQuadSpare {s00 s : State} (q : Nat) (hk : Keeps s00 s) : Keeps s00 (failQuadSpare q s) := by
  unfold failQuadSpare
  repeat' first
    | with_reducible assumption | with_reducible apply keeps_storeOd

theorem keeps_mapSpare {s00 s : State} (l lane : Nat) (hk : Keeps s00 s) : Keeps s00 (mapSpare l lane s) := by
  unfold mapSpare
  repeat' first
    | with_reducible assumption | with_reducible apply keeps_storeOd

theorem keeps_linkRecordIn {s00 s : State} (inc : Option (BitVec 32)) (res action outcome : Nat) (hk : Keeps s00 s) : Keeps s00 (linkRecordIn inc res action outcome s) := by
  unfold linkRecordIn
  repeat' first
    | with_reducible assumption | with_reducible apply keeps_recordIn | with_reducible apply keeps_record | split

theorem keeps_linkRecord {s00 s : State} (res action outcome : Nat) (hk : Keeps s00 s) : Keeps s00 (linkRecord res action outcome s) := by
  unfold linkRecord
  repeat' first
    | with_reducible assumption | with_reducible apply keeps_linkRecordIn

theorem keeps_spareRunning {s00 s : State} (l lane : Nat) (hk : Keeps s00 s) : Keeps s00 (spareRunning l lane s) := by
  unfold spareRunning
  repeat' first
    | with_reducible assumption | with_reducible apply keeps_setLink | with_reducible apply keeps_beginRepair
    | with_reducible apply keeps_sendCtl | with_reducible apply keeps_linkRecord | with_reducible apply keeps_ite

theorem keeps_spareTraining {s00 s : State} (l lane : Nat) (hk : Keeps s00 s) : Keeps s00 (spareTraining l lane s) := by
  unfold spareTraining
  repeat' first
    | with_reducible assumption | with_reducible apply keeps_beginRepair | with_reducible apply keeps_endRepair
    | with_reducible apply keeps_mapSpare | with_reducible apply keeps_ite

theorem keeps_toDetect {s00 s : State} (l : Nat) (hk : Keeps s00 s) : Keeps s00 (toDetect l s) := by
  unfold toDetect
  repeat' first
    | with_reducible assumption | with_reducible apply keeps_setLink | with_reducible apply keeps_setLinkState
    | with_reducible apply keeps_sendFrames

theorem keeps_failbackResult {s00 s : State} (j v : Nat) (hk : Keeps s00 s) : Keeps s00 (failbackResult j v s) := by
  unfold failbackResult
  repeat' first
    | with_reducible assumption | with_reducible apply keeps_pathSet | with_reducible apply keeps_setLink | split

theorem keeps_failoverFails {s00 s : State} (j : Nat) (outcome : Nat) (hk : Keeps s00 s) : Keeps s00 (failoverFails j outcome s) := by
  unfold failoverFails
  repeat' first
    | with_reducible assumption | with_reducible apply keeps_setLink | with_reducible apply keeps_endRepair
    | with_reducible apply keeps_portsOffline | split

theorem keeps_stopSparing {s00 s : State} (l : Nat) (hk : Keeps s00 s) : Keeps s00 (stopSparing l s) := by
  unfold stopSparing
  repeat' first
    | with_reducible assumption | with_reducible apply keeps_setLink | with_reducible apply keeps_endRepair | split

theorem keeps_dropGuests {s00 s : State} (l : Nat) (hk : Keeps s00 s) : Keeps s00 (dropGuests l s) := by
  unfold dropGuests
  repeat' first
    | with_reducible assumption | with_reducible intro _ | with_reducible apply keeps_portsOffline
    | with_reducible apply keeps_failbackResult | with_reducible apply keeps_failoverFails | with_reducible apply keeps_foldl

theorem keeps_failLink {s00 s : State} (l : Nat) (hk : Keeps s00 s) : Keeps s00 (failLink l s) := by
  unfold failLink
  repeat' first
    | with_reducible assumption | with_reducible apply keeps_setLink | with_reducible apply keeps_beginRepair
    | with_reducible apply keeps_setLinkState | with_reducible apply keeps_portsOffline | with_reducible apply keeps_sendCtl
    | with_reducible apply keeps_linkRecordIn | with_reducible apply keeps_failbackResult | with_reducible apply keeps_stopSparing
    | with_reducible apply keeps_dropGuests | with_reducible apply keeps_ite | split

theorem keeps_enterRetrain {s00 s : State} (l : Nat) (counted : Bool) (hk : Keeps s00 s) : Keeps s00 (enterRetrain l counted s) := by
  unfold enterRetrain
  repeat' first
    | with_reducible assumption | with_reducible apply keeps_odBump | with_reducible apply keeps_setLink
    | with_reducible apply keeps_setLinkState | with_reducible apply keeps_sendFrames | with_reducible apply keeps_failLink
    | with_reducible apply keeps_ite

theorem keeps_trainingFailure {s00 s : State} (l : Nat) (culprit : Option Nat) (hk : Keeps s00 s) : Keeps s00 (trainingFailure l culprit s) := by
  unfold trainingFailure
  repeat' first
    | with_reducible assumption | with_reducible apply keeps_odBump | with_reducible apply keeps_setLink
    | with_reducible apply keeps_spareTraining | with_reducible apply keeps_toDetect | with_reducible apply keeps_failLink
    | with_reducible apply keeps_ite | split

theorem keeps_startParam {s00 s : State} (l : Nat) (hk : Keeps s00 s) : Keeps s00 (startParam l s) := by
  unfold startParam
  repeat' first
    | with_reducible assumption | with_reducible apply keeps_setLink | with_reducible apply keeps_setLinkState
    | with_reducible apply keeps_sendCtl | with_reducible apply keeps_ite

theorem keeps_tryActive {s00 s : State} (l : Nat) (hk : Keeps s00 s) : Keeps s00 (tryActive l s) := by
  unfold tryActive
  repeat' first
    | with_reducible assumption | with_reducible intro _ | with_reducible apply keeps_setLink | with_reducible apply keeps_identify
    | with_reducible apply keeps_setLinkState | with_reducible apply keeps_spareRunning | with_reducible apply keeps_ite
    | with_reducible apply keeps_foldl | split

theorem keeps_abandonFailback {s00 s : State} (j t : Nat) (hk : Keeps s00 s) : Keeps s00 (abandonFailback j t s) := by
  unfold abandonFailback
  repeat' first
    | with_reducible assumption | with_reducible apply keeps_setLink | with_reducible apply keeps_handBack
    | with_reducible apply keeps_resendPower | with_reducible apply keeps_sendCtl | with_reducible apply keeps_failbackResult

theorem keeps_execSignalDetect {s00 s : State} (l : LinkId) (hk : Keeps s00 s) : Goes s00 (execSignalDetect l s) := by
  unfold execSignalDetect
  repeat' first
    | with_reducible assumption | with_reducible apply keeps_setLink | with_reducible apply keeps_wakeDevice
    | with_reducible apply keeps_setLinkState | with_reducible apply keeps_enterRetrain | with_reducible apply goes_next | split

theorem keeps_spareFrame {s00 s : State} (l lane : Nat) (ctl sts : BitVec 16) (hk : Keeps s00 s) : Keeps s00 (spareFrame l lane ctl sts s) := by
  unfold spareFrame
  repeat' first
    | with_reducible assumption | with_reducible apply keeps_emit | with_reducible apply keeps_setLink | with_reducible apply keeps_ite

theorem keeps_trainingFrame {s00 s : State} (l lane : Nat) (ctl sts : BitVec 16) (hk : Keeps s00 s) : Keeps s00 (trainingFrame l lane ctl sts s) := by
  unfold trainingFrame
  repeat' first
    | with_reducible assumption | with_reducible apply keeps_setLink | with_reducible apply keeps_wakeDevice
    | with_reducible apply keeps_setLinkState | with_reducible apply keeps_sendFrames | with_reducible apply keeps_sendCountdown
    | with_reducible apply keeps_enterRetrain | with_reducible apply keeps_trainingFailure | with_reducible apply keeps_spareFrame
    | with_reducible apply keeps_ite

theorem keeps_execTrainingFrame {s00 s : State} (l : LinkId) (lane : Fin 2) (ctl sts : FrameField) (hk : Keeps s00 s) : Goes s00 (execTrainingFrame l lane ctl sts s) := by
  unfold execTrainingFrame
  repeat' first
    | with_reducible assumption | with_reducible apply keeps_trainingFrame | with_reducible apply goes_next
    | with_reducible apply keeps_ite

theorem keeps_execTrainingTimeout {s00 s : State} (l : LinkId) (culprit : Option (Fin 2)) (hk : Keeps s00 s) : Goes s00 (execTrainingTimeout l culprit s) := by
  unfold execTrainingTimeout
  repeat' first
    | with_reducible assumption | with_reducible apply keeps_trainingFailure | with_reducible apply goes_next | split

theorem keeps_lockLoss {s00 s : State} (l : Nat) (hk : Keeps s00 s) : Keeps s00 (lockLoss l s) := by
  unfold lockLoss
  repeat' first
    | with_reducible assumption | with_reducible apply keeps_enterRetrain | with_reducible apply keeps_ite

theorem keeps_markerFlit {s00 s : State} (l : Nat) (f : Flit) (hk : Keeps s00 s) : Keeps s00 (markerFlit l f s) := by
  unfold markerFlit
  repeat' first
    | with_reducible assumption | with_reducible apply keeps_setLink | with_reducible apply keeps_badFlit
    | with_reducible apply keeps_startParam | with_reducible apply keeps_lockLoss | with_reducible apply keeps_ite

theorem keeps_execMarkerFlit {s00 s : State} (l : LinkId) (f : Flit) (hk : Keeps s00 s) : Goes s00 (execMarkerFlit l f s) := by
  unfold execMarkerFlit
  repeat' first
    | with_reducible assumption | with_reducible apply keeps_markerFlit | with_reducible apply goes_next

theorem keeps_execReceiveLockLoss {s00 s : State} (l : LinkId) (hk : Keeps s00 s) : Goes s00 (execReceiveLockLoss l s) := by
  unfold execReceiveLockLoss
  repeat' first
    | with_reducible assumption | with_reducible apply keeps_lockLoss | with_reducible apply goes_next

theorem keeps_sendPlain {s00 s : State} (l : Nat) (f : Flit) (k : Link) (hk : Keeps s00 s) : Keeps s00 (sendPlain l f k s) := by
  unfold sendPlain
  repeat' first
    | with_reducible assumption | with_reducible apply keeps_emit | with_reducible apply keeps_setLink

theorem keeps_sendSequenced {s00 s : State} (l : Nat) (ty vc boundary : Nat) (payload : List Byte) (links : List Nat) (k : Link) (hk : Keeps s00 s) : Keeps s00 (sendSequenced l ty vc boundary payload links k s) := by
  unfold sendSequenced
  repeat' first
    | with_reducible assumption | with_reducible apply keeps_emit | with_reducible apply keeps_setLink

theorem keeps_countTether {s00 s : State} (l event : Nat) (hk : Keeps s00 s) : Keeps s00 (countTether l event s) := by
  unfold countTether
  repeat' first
    | with_reducible assumption | with_reducible apply keeps_countUncore

theorem keeps_flitSlot {s00 s : State} (l : Nat) (hk : Keeps s00 s) : Keeps s00 (flitSlot l s) := by
  unfold flitSlot
  repeat' first
    | with_reducible assumption | with_reducible apply keeps_odBump | with_reducible apply keeps_enterRetrain
    | with_reducible apply keeps_sendPlain | with_reducible apply keeps_sendSequenced | with_reducible apply keeps_countTether
    | with_reducible apply keeps_ite | split | dsimp only

theorem keeps_payloadFlit {s00 s : State} (l : Nat) (f : Flit) (hk : Keeps s00 s) : Keeps s00 (payloadFlit l f s) := by
  unfold payloadFlit
  repeat' first
    | with_reducible assumption | with_reducible apply keeps_setLink | with_reducible apply keeps_badFlit
    | with_reducible apply keeps_countTether | with_reducible apply keeps_ite

theorem keeps_execPayloadFlit {s00 s : State} (l : LinkId) (f : Flit) (hk : Keeps s00 s) : Goes s00 (execPayloadFlit l f s) := by
  unfold execPayloadFlit
  repeat' first
    | with_reducible assumption | with_reducible apply keeps_payloadFlit | with_reducible apply goes_next

theorem keeps_nullFlit {s00 s : State} (l : Nat) (f : Flit) (hk : Keeps s00 s) : Keeps s00 (nullFlit l f s) := by
  unfold nullFlit
  repeat' first
    | with_reducible assumption | with_reducible apply keeps_setLink | with_reducible apply keeps_badFlit
    | with_reducible apply keeps_ite

theorem keeps_execNullFlit {s00 s : State} (l : LinkId) (f : Flit) (hk : Keeps s00 s) : Goes s00 (execNullFlit l f s) := by
  unfold execNullFlit
  repeat' first
    | with_reducible assumption | with_reducible apply keeps_nullFlit | with_reducible apply goes_next

theorem keeps_startReplay {s00 s : State} (l : Nat) (hk : Keeps s00 s) : Keeps s00 (startReplay l s) := by
  unfold startReplay
  repeat' first
    | with_reducible assumption | with_reducible apply keeps_odBump | with_reducible apply keeps_setLink
    | with_reducible apply keeps_linkRecord | with_reducible apply keeps_enterRetrain | with_reducible apply keeps_ite | split
    | dsimp only

theorem keeps_nakFlit {s00 s : State} (l : Nat) (f : Flit) (hk : Keeps s00 s) : Keeps s00 (nakFlit l f s) := by
  unfold nakFlit
  repeat' first
    | with_reducible assumption | with_reducible apply keeps_setLink | with_reducible apply keeps_badFlit
    | with_reducible apply keeps_startReplay | with_reducible apply keeps_ite

theorem keeps_execNakFlit {s00 s : State} (l : LinkId) (f : Flit) (hk : Keeps s00 s) : Goes s00 (execNakFlit l f s) := by
  unfold execNakFlit
  repeat' first
    | with_reducible assumption | with_reducible apply keeps_nakFlit | with_reducible apply goes_next

theorem keeps_execNakRepeatTimeout {s00 s : State} (l : LinkId) (hk : Keeps s00 s) : Goes s00 (execNakRepeatTimeout l s) := by
  unfold execNakRepeatTimeout
  repeat' first
    | with_reducible assumption | with_reducible apply keeps_setLink | with_reducible apply goes_next | with_reducible apply goes_ite

theorem keeps_execReplayTimeout {s00 s : State} (l : LinkId) (hk : Keeps s00 s) : Goes s00 (execReplayTimeout l s) := by
  unfold execReplayTimeout
  repeat' first
    | with_reducible assumption | with_reducible apply keeps_odBump | with_reducible apply keeps_startReplay
    | with_reducible apply goes_next | with_reducible apply goes_ite

theorem keeps_holdExpiry {s00 s : State} (l : Nat) (hk : Keeps s00 s) : Keeps s00 (holdExpiry l s) := by
  unfold holdExpiry
  repeat' first
    | with_reducible assumption | with_reducible intro _ | with_reducible apply keeps_setLink | with_reducible apply keeps_handBack
    | with_reducible apply keeps_resendPower | with_reducible apply keeps_ite | with_reducible apply keeps_foldl

theorem keeps_execLinkHoldExpiry {s00 s : State} (l : LinkId) (hk : Keeps s00 s) : Goes s00 (execLinkHoldExpiry l s) := by
  unfold execLinkHoldExpiry
  repeat' first
    | with_reducible assumption | with_reducible apply keeps_holdExpiry | with_reducible apply goes_next

theorem keeps_paramReceived {s00 s : State} (l : Nat) (h : BitVec 40) (b : ParamBody) (hk : Keeps s00 s) : Keeps s00 (paramReceived l h b s) := by
  unfold paramReceived
  repeat' first
    | with_reducible assumption | with_reducible intro _ | with_reducible apply keeps_setLink | with_reducible apply keeps_storeOd
    | with_reducible apply keeps_setLinkState | with_reducible apply keeps_portsOffline | with_reducible apply keeps_sendCtl
    | with_reducible apply keeps_acceptCtl | with_reducible apply keeps_trainingFailure | with_reducible apply keeps_tryActive
    | with_reducible apply keeps_ite | with_reducible apply keeps_foldl

theorem keeps_execParam {s00 s : State} (l : LinkId) (hdr : BitVec 40) (b : ParamBody) (hk : Keeps s00 s) : Goes s00 (execParam l hdr b s) := by
  unfold execParam
  repeat' first
    | with_reducible assumption | with_reducible apply keeps_paramReceived | with_reducible apply goes_next

theorem keeps_execParamAck {s00 s : State} (l : LinkId) (hdr : BitVec 40) (hk : Keeps s00 s) : Goes s00 (execParamAck l hdr s) := by
  unfold execParamAck
  repeat' first
    | with_reducible assumption | with_reducible apply keeps_setLink | with_reducible apply keeps_acceptCtl
    | with_reducible apply keeps_tryActive | with_reducible apply goes_next | with_reducible apply goes_ite

theorem keeps_execRetrainReq {s00 s : State} (l : LinkId) (hdr : BitVec 40) (hk : Keeps s00 s) : Goes s00 (execRetrainReq l hdr s) := by
  unfold execRetrainReq
  repeat' first
    | with_reducible assumption | with_reducible apply keeps_acceptCtl | with_reducible apply keeps_enterRetrain
    | with_reducible apply goes_next | with_reducible apply goes_ite | with_reducible apply keeps_ite

theorem keeps_execSpareReady {s00 s : State} (l : LinkId) (hdr : BitVec 40) (lane link spare : BitVec 8) (hk : Keeps s00 s) : Goes s00 (execSpareReady l hdr lane link spare s) := by
  unfold execSpareReady
  repeat' first
    | with_reducible assumption | with_reducible apply keeps_setLink | with_reducible apply keeps_sendCtl
    | with_reducible apply keeps_acceptCtl | with_reducible apply goes_next | with_reducible apply goes_ite

theorem keeps_execSpareSwitchSuperframe {s00 s : State} (l : LinkId) (hk : Keeps s00 s) : Goes s00 (execSpareSwitchSuperframe l s) := by
  unfold execSpareSwitchSuperframe
  repeat' first
    | with_reducible assumption | with_reducible apply keeps_setLink | with_reducible apply keeps_endRepair
    | with_reducible apply keeps_mapSpare | with_reducible apply goes_next | split | dsimp only

theorem keeps_execSpareReadyTimeout {s00 s : State} (l : LinkId) (hk : Keeps s00 s) : Goes s00 (execSpareReadyTimeout l s) := by
  unfold execSpareReadyTimeout
  repeat' first
    | with_reducible assumption | with_reducible apply keeps_setLink | with_reducible apply keeps_endRepair
    | with_reducible apply keeps_failQuadSpare | with_reducible apply goes_next | split | dsimp only

theorem keeps_failoverDone {s00 s : State} (t j : Nat) (hk : Keeps s00 s) : Keeps s00 (failoverDone t j s) := by
  unfold failoverDone
  repeat' first
    | with_reducible assumption | with_reducible apply keeps_odBump | with_reducible apply keeps_setLink
    | with_reducible apply keeps_endRepair | with_reducible apply keeps_handBack | with_reducible apply keeps_resendPower
    | with_reducible apply keeps_ite | split | dsimp only

theorem keeps_execFailoverAck {s00 s : State} (l : LinkId) (hdr : BitVec 40) (failed : BitVec 8) (hk : Keeps s00 s) : Goes s00 (execFailoverAck l hdr failed s) := by
  unfold execFailoverAck
  repeat' first
    | with_reducible assumption | with_reducible apply keeps_acceptCtl | with_reducible apply keeps_failoverDone
    | with_reducible apply goes_next | with_reducible apply goes_ite | with_reducible apply keeps_ite

theorem keeps_failbackDone {s00 s : State} (t j : Nat) (hk : Keeps s00 s) : Keeps s00 (failbackDone t j s) := by
  unfold failbackDone
  repeat' first
    | with_reducible assumption | with_reducible apply keeps_odBump | with_reducible apply keeps_setLink
    | with_reducible apply keeps_handBack | with_reducible apply keeps_resendPower | with_reducible apply keeps_failbackResult
    | with_reducible apply keeps_abandonFailback | with_reducible apply keeps_ite

theorem keeps_execFailbackAck {s00 s : State} (l : LinkId) (hdr : BitVec 40) (failed : BitVec 8) (hk : Keeps s00 s) : Goes s00 (execFailbackAck l hdr failed s) := by
  unfold execFailbackAck
  repeat' first
    | with_reducible assumption | with_reducible apply keeps_acceptCtl | with_reducible apply keeps_failbackDone
    | with_reducible apply goes_next | with_reducible apply goes_ite | with_reducible apply keeps_ite

theorem keeps_ctlRepeat {s00 s : State} (l : Nat) (hk : Keeps s00 s) : Keeps s00 (ctlRepeat l s) := by
  unfold ctlRepeat
  repeat' first
    | with_reducible assumption | with_reducible apply keeps_setLink | with_reducible apply keeps_failbackResult
    | with_reducible apply keeps_failoverFails | with_reducible apply keeps_abandonFailback | with_reducible apply keeps_ite | split
    | dsimp only

theorem keeps_execLinkCtlRepeat {s00 s : State} (l : LinkId) (hk : Keeps s00 s) : Goes s00 (execLinkCtlRepeat l s) := by
  unfold execLinkCtlRepeat
  repeat' first
    | with_reducible assumption | with_reducible apply keeps_ctlRepeat | with_reducible apply goes_next

theorem keeps_laneWindow {s00 s : State} (l lane n : Nat) (hk : Keeps s00 s) : Keeps s00 (laneWindow l lane n s) := by
  unfold laneWindow
  repeat' first
    | with_reducible assumption | with_reducible apply keeps_odAdd | with_reducible apply keeps_setLink
    | with_reducible apply keeps_spareRunning | with_reducible apply keeps_ite

theorem keeps_serWindow {s00 s : State} (l : Nat) (corrected : List Nat) (ucw : Nat) (hk : Keeps s00 s) : Keeps s00 (serWindow l corrected ucw s) := by
  unfold serWindow
  repeat' first
    | with_reducible assumption | with_reducible intro _ | with_reducible apply keeps_odAdd | with_reducible apply keeps_setLink
    | with_reducible apply keeps_linkRecord | with_reducible apply keeps_spareRunning | with_reducible apply keeps_enterRetrain
    | with_reducible apply keeps_laneWindow | with_reducible apply keeps_ite | with_reducible apply keeps_foldl

theorem keeps_execSerWindow {s00 s : State} (l : LinkId) (corrected : List Nat) (ucw : Nat) (hk : Keeps s00 s) : Goes s00 (execSerWindow l corrected ucw s) := by
  unfold execSerWindow
  repeat' first
    | with_reducible assumption | with_reducible apply keeps_serWindow | with_reducible apply goes_next

theorem keeps_linkResult {s00 s : State} (path : Path) (l v : Nat) (hk : Keeps s00 s) : Keeps s00 (linkResult path l v s) := by
  unfold linkResult
  repeat' first
    | with_reducible assumption | with_reducible apply keeps_pathSet

theorem keeps_linkRequest {s00 s : State} (path : Path) (l : Nat) (fits : Bool) (f : State → State) (hf : ∀ b t, Keeps b t → Keeps b (f t)) (hk : Keeps s00 s) : Keeps s00 (linkRequest path l fits f s) := by
  unfold linkRequest
  repeat' first
    | with_reducible assumption | with_reducible apply keeps_linkResult | with_reducible apply hf | with_reducible apply keeps_ite

theorem keeps_acceptIdentity {s00 s : State} (l : Nat) (hk : Keeps s00 s) : Keeps s00 (acceptIdentity l s) := by
  unfold acceptIdentity
  repeat' first
    | with_reducible assumption | with_reducible apply keeps_setLink | with_reducible apply keeps_storeOd
    | with_reducible apply keeps_setLinkState | with_reducible apply keeps_sendCtl

theorem keeps_execAcceptIdentity {s00 s : State} (path : Path) (l : LinkId) (hk : Keeps s00 s) : Goes s00 (execAcceptIdentity path l s) := by
  unfold execAcceptIdentity
  repeat' first
    | with_reducible assumption | with_reducible intro _ | with_reducible apply keeps_odWriteNat | with_reducible apply keeps_linkRequest
    | with_reducible apply keeps_acceptIdentity | with_reducible apply goes_next

theorem keeps_askFailback {s00 s : State} (path : Path) (l : Nat) (hk : Keeps s00 s) : Keeps s00 (askFailback path l s) := by
  unfold askFailback
  repeat' first
    | with_reducible assumption | with_reducible apply keeps_setLink | with_reducible apply keeps_linkResult
    | with_reducible apply keeps_ite

theorem keeps_execLinkFailback {s00 s : State} (path : Path) (l : LinkId) (hk : Keeps s00 s) : Goes s00 (execLinkFailback path l s) := by
  unfold execLinkFailback
  repeat' first
    | with_reducible assumption | with_reducible intro _ | with_reducible apply keeps_odWriteNat | with_reducible apply keeps_askFailback
    | with_reducible apply goes_next

theorem keeps_execFailbackSend {s00 s : State} (l : LinkId) (hk : Keeps s00 s) : Goes s00 (execFailbackSend l s) := by
  unfold execFailbackSend
  repeat' first
    | with_reducible assumption | with_reducible apply keeps_setLink | with_reducible apply keeps_sendCtl
    | with_reducible apply keeps_failbackResult | with_reducible apply goes_next | with_reducible apply goes_ite

theorem keeps_execForceRetrain {s00 s : State} (path : Path) (l : LinkId) (hk : Keeps s00 s) : Goes s00 (execForceRetrain path l s) := by
  unfold execForceRetrain
  repeat' first
    | with_reducible assumption | with_reducible intro _ | with_reducible apply keeps_odWriteNat
    | with_reducible apply keeps_enterRetrain | with_reducible apply keeps_linkRequest | with_reducible apply goes_next

theorem keeps_execLinkReenable {s00 s : State} (path : Path) (l : LinkId) (hk : Keeps s00 s) : Goes s00 (execLinkReenable path l s) := by
  unfold execLinkReenable
  repeat' first
    | with_reducible assumption | with_reducible intro _ | with_reducible apply keeps_setLink | with_reducible apply keeps_odWriteNat
    | with_reducible apply keeps_toDetect | with_reducible apply keeps_linkRequest | with_reducible apply goes_next

theorem keeps_execLinkDisable {s00 s : State} (l : LinkId) (hk : Keeps s00 s) : Goes s00 (execLinkDisable l s) := by
  unfold execLinkDisable
  repeat' first
    | with_reducible assumption | with_reducible apply keeps_setLink | with_reducible apply keeps_setLinkState
    | with_reducible apply keeps_portsOffline | with_reducible apply keeps_failoverFails | with_reducible apply keeps_stopSparing
    | with_reducible apply keeps_dropGuests | with_reducible apply goes_next | with_reducible apply goes_ite
    | with_reducible apply keeps_ite

end Sys2Proof.Machine
end

