-- ==== Sys2Proof/Laws/KeepsHost.lean ====
section
/-! SUPPORT. The host endpoint keeps the queue and the invariant. -/

namespace Sys2Proof.Machine

theorem keeps_setHostLink {s00 s : State} (l : Nat) (k : HostLink) (hk : Keeps s00 s) : Keeps s00 (setHostLink l k s) := by
  unfold setHostLink
  repeat' first
    | with_reducible assumption | with_reducible apply keeps_setCtl | with_reducible apply keeps_raise | with_reducible apply keeps_ite

theorem keeps_exitL1 {s00 s : State} (l : Nat) (hk : Keeps s00 s) : Keeps s00 (exitL1 l s) := by
  unfold exitL1
  repeat' first
    | with_reducible assumption | with_reducible intro _ | with_reducible apply keeps_odBump | with_reducible apply keeps_wakeDom
    | with_reducible apply keeps_wakeDevice | with_reducible apply keeps_setHostLink | with_reducible apply keeps_ite
    | with_reducible apply keeps_foldl

theorem keeps_arrive {s00 s : State} (l : Nat) (t : HostTlp) (act : State → State) (hf : ∀ b t, Keeps b t → Keeps b (act t))
    (hk : Keeps s00 s) : Keeps s00 (arrive l t act s) := by
  have quiet : ∀ (ds : List Domain) (u : State), (ds.foldl (fun u d => wakeDom d u) u).host = u.host := by
    intro ds
    induction ds with
    | nil => exact fun _ => rfl
    | cons d r ih =>
      intro u
      refine (ih _).trans ?_
      show (wakeDom d u).host = u.host
      unfold wakeDom
      split
      · rfl
      · rfl
  have h1 : Keeps s00 (wakeDevice 1 (countLink l 1 1 (exitL1 l s))) := keeps_wakeDevice _ (keeps_countLink _ _ _ (keeps_exitL1 _ hk))
  unfold arrive
  generalize wakeDevice 1 (countLink l 1 1 (exitL1 l s)) = v at h1
  refine keeps_ite hk (keeps_ite (hf _ _ h1) ?_)
  exact keeps_congr (keeps_foldl (hostDomains l) (fun _ d k => keeps_wakeDom d k) h1) rfl rfl rfl rfl rfl rfl rfl
    (congrArg HostEp.fatal (quiet (hostDomains l) v)).symm rfl

theorem keeps_unsupported {s00 s : State} (p fn : Nat) (hk : Keeps s00 s) : Keeps s00 (unsupported p fn s) := by
  unfold unsupported
  repeat' first
    | with_reducible assumption | with_reducible apply keeps_emitTlp | with_reducible apply keeps_odBump
    | with_reducible apply keeps_aerAdvisory | with_reducible apply keeps_mapFn

theorem keeps_completerAbort {s00 s : State} (p fn : Nat) (hk : Keeps s00 s) : Keeps s00 (completerAbort p fn s) := by
  unfold completerAbort
  repeat' first
    | with_reducible assumption | with_reducible apply keeps_emitTlp | with_reducible apply keeps_aerAdvisory

theorem keeps_discardWrite {s00 s : State} (p fn : Nat) (hk : Keeps s00 s) : Keeps s00 (discardWrite p fn s) := by
  unfold discardWrite
  repeat' first
    | with_reducible assumption | with_reducible apply keeps_odBump

theorem keeps_queueError {s00 s : State} (k : Nat) (hk : Keeps s00 s) : Keeps s00 (queueError k s) := by
  unfold queueError
  repeat' first
    | with_reducible assumption | with_reducible apply keeps_odBump | with_reducible apply keeps_sendMsix
    | with_reducible apply keeps_raise | with_reducible apply keeps_setQp

theorem keeps_doorbell {s00 s : State} (p fn q : Nat) (act : Nat → State → State) (hf : ∀ b x t, Keeps b t → Keeps b (act x t)) (hk : Keeps s00 s) : Keeps s00 (doorbell p fn q act s) := by
  unfold doorbell
  repeat' first
    | with_reducible assumption | with_reducible apply keeps_countLink | with_reducible apply keeps_unsupported
    | with_reducible apply keeps_discardWrite | with_reducible apply hf | with_reducible apply keeps_ite

theorem keeps_setSqTail {s00 t : State} (v : BitVec 32) (k : Nat) (hk : Keeps s00 t) : Keeps s00 (setSqTail v k t) := by
  unfold setSqTail
  repeat' first
    | with_reducible assumption | with_reducible apply keeps_setQp | with_reducible apply keeps_queueError
    | with_reducible apply keeps_ite

theorem keeps_setCqHead {s00 t : State} (v : BitVec 32) (k : Nat) (hk : Keeps s00 t) : Keeps s00 (setCqHead v k t) := by
  unfold setCqHead
  repeat' first
    | with_reducible assumption | with_reducible apply keeps_setQp | with_reducible apply keeps_queueError
    | with_reducible apply keeps_ite

theorem keeps_sqTail {s00 s : State} (p fn q : Nat) (v : BitVec 32) (hk : Keeps s00 s) : Keeps s00 (sqTail p fn q v s) := by
  unfold sqTail
  repeat' first
    | with_reducible assumption | with_reducible intro _ | with_reducible apply keeps_doorbell | with_reducible apply keeps_setSqTail

theorem keeps_doorbells {s00 s : State} (p fn q : Nat) (tail head : BitVec 32) (hk : Keeps s00 s) : Keeps s00 (doorbells p fn q tail head s) := by
  unfold doorbells
  repeat' first
    | with_reducible assumption | with_reducible intro _ | with_reducible apply keeps_doorbell | with_reducible apply keeps_setSqTail
    | with_reducible apply keeps_setCqHead

theorem keeps_barAccess {s00 s : State} (p fn : Nat) (a : BarAcc) (bad f : State → State) (hb : ∀ b t, Keeps b t → Keeps b (bad t))
    (hf : ∀ b t, Keeps b t → Keeps b (f t)) (hk : Keeps s00 s) : Keeps s00 (barAccess p fn a bad f s) :=
  keeps_ite (hf _ _ hk) (keeps_ite hk (keeps_ite (keeps_unsupported _ _ hk) (hb _ _ hk)))

theorem keeps_barWrite {s00 s : State} (p fn : Nat) (a : BarAcc) (f : State → State) (hf : ∀ b t, Keeps b t → Keeps b (f t)) (hk : Keeps s00 s) : Keeps s00 (barWrite p fn a f s) := by
  unfold barWrite
  repeat' first
    | with_reducible assumption | with_reducible intro _ | with_reducible apply keeps_discardWrite | with_reducible apply keeps_barAccess

theorem keeps_execSqTailDoorbell {s00 s : State} (p : HPort) (fn : FnId) (q : QueueId) (v : BarValue) (hk : Keeps s00 s) : Goes s00 (execSqTailDoorbell p fn q v s) := by
  unfold execSqTailDoorbell
  repeat' first
    | with_reducible assumption | with_reducible intro _ | with_reducible apply keeps_arrive | with_reducible apply keeps_sqTail
    | with_reducible apply keeps_doorbells | with_reducible apply keeps_barWrite | with_reducible apply goes_next
    | with_reducible apply keeps_ite

theorem keeps_cqHead {s00 s : State} (p fn q : Nat) (v : BitVec 32) (hk : Keeps s00 s) : Keeps s00 (cqHead p fn q v s) := by
  unfold cqHead
  repeat' first
    | with_reducible assumption | with_reducible intro _ | with_reducible apply keeps_doorbell | with_reducible apply keeps_setCqHead

theorem keeps_execCqHeadDoorbell {s00 s : State} (p : HPort) (fn : FnId) (q : QueueId) (v : BarValue) (hk : Keeps s00 s) : Goes s00 (execCqHeadDoorbell p fn q v s) := by
  unfold execCqHeadDoorbell
  repeat' first
    | with_reducible assumption | with_reducible intro _ | with_reducible apply keeps_arrive | with_reducible apply keeps_barWrite
    | with_reducible apply keeps_cqHead | with_reducible apply goes_next

theorem keeps_fetchCommands {s00 s : State} (l : Nat) (hk : Keeps s00 s) : Keeps s00 (fetchCommands l s) := by
  unfold fetchCommands
  repeat' first
    | with_reducible assumption | with_reducible apply keeps_setCtl | with_reducible apply keeps_hostRead
    | with_reducible apply keeps_setQp | split

theorem keeps_execCommandFetch {s00 s : State} (l : CtlId) (hk : Keeps s00 s) : Goes s00 (execCommandFetch l s) := by
  unfold execCommandFetch
  repeat' first
    | with_reducible assumption | with_reducible apply keeps_fetchCommands | with_reducible apply goes_next

theorem keeps_deliverInbox {s00 s : State} (k i : Nat) (c : BitVec 512) (hk : Keeps s00 s) : Keeps s00 (deliverInbox k i c s) := by
  unfold deliverInbox
  repeat' first
    | with_reducible assumption | with_reducible apply keeps_raiseInbox | with_reducible apply keeps_ioLookup
    | with_reducible apply keeps_dmaWrite | with_reducible apply keeps_postCompletion | split | dsimp only
    | refine keeps_mk ?_ rfl rfl rfl rfl rfl rfl rfl rfl rfl

theorem keeps_takeCommands {s00 s : State} (l k : Nat) (cmds : List (BitVec 512)) (hk : Keeps s00 s) : Keeps s00 (takeCommands l k cmds s) := by
  induction cmds generalizing s with
  | nil => exact hk
  | cons c r ih =>
    unfold takeCommands
    refine keeps_ite hk (ih (keeps_ite ?_ ?_))
    · exact keeps_deliverInbox _ _ _ (keeps_countLink _ _ _ (keeps_setQp _ _ hk))
    · exact keeps_acceptDescriptor _ _ _ (keeps_countLink _ _ _ (keeps_setQp _ _ hk))

theorem keeps_commandsArrive {s00 s : State} (l : Nat) (cmds : List (BitVec 512)) (hk : Keeps s00 s) : Keeps s00 (commandsArrive l cmds s) := by
  unfold commandsArrive
  repeat' first
    | with_reducible assumption | with_reducible apply keeps_setCtl | with_reducible apply keeps_setQp | with_reducible apply keeps_pump
    | with_reducible apply keeps_takeCommands | with_reducible apply keeps_ite | split | dsimp only

theorem keeps_execCommandReadCompletion {s00 s : State} (l : CtlId) (cmds : List (BitVec 512)) (hk : Keeps s00 s) : Goes s00 (execCommandReadCompletion l cmds s) := by
  unfold execCommandReadCompletion
  repeat' first
    | with_reducible assumption | with_reducible apply keeps_countLink | with_reducible apply keeps_commandsArrive
    | with_reducible apply goes_next

theorem keeps_readReply {s00 s : State} (k i : Nat) (hk : Keeps s00 s) : Keeps s00 (readReply k i s).2 := by
  unfold readReply
  repeat' first
    | with_reducible assumption | with_reducible apply keeps_ioLookup | with_reducible apply keeps_dmaRead | split | dsimp only

theorem keeps_pollEntry {s00 s : State} (x : Nat × Nat) (hk : Keeps s00 s) : Keeps s00 (pollEntry x s) := by
  unfold pollEntry
  repeat' first
    | with_reducible assumption | with_reducible apply keeps_postWord | with_reducible apply keeps_readReply
    | with_reducible apply keeps_ite | split | dsimp only | refine keeps_mk ?_ rfl rfl rfl rfl rfl rfl rfl rfl rfl

theorem keeps_execReplyPoll {s00 s : State} (p : HPort) (hk : Keeps s00 s) : Goes s00 (execReplyPoll p s) := by
  unfold execReplyPoll
  repeat' first
    | with_reducible assumption | with_reducible intro _ | with_reducible apply keeps_pollEntry | with_reducible apply goes_next
    | with_reducible apply keeps_foldl

theorem keeps_execCqCoalesceTimeout {s00 s : State} (p : HPort) (fn : FnId) (q : QueueId) (hk : Keeps s00 s) : Goes s00 (execCqCoalesceTimeout p fn q s) := by
  unfold execCqCoalesceTimeout
  repeat' first
    | with_reducible assumption | with_reducible apply keeps_sendMsix | with_reducible apply keeps_setQp | with_reducible apply goes_next
    | with_reducible apply goes_ite

theorem keeps_mailboxGo {s00 s : State} (p : HPort) (fn : FnId) (write : Bool) (idx : BitVec 16) (sub : BitVec 8) (len : BitVec 9) (irq : Bool) (data : List Byte) (hk : Keeps s00 s) : Keeps s00 (mailboxGo p fn write idx sub len irq data s) := by
  unfold mailboxGo
  repeat' first
    | with_reducible assumption | with_reducible apply keeps_setFn | with_reducible apply keeps_raise
    | with_reducible apply keeps_unsupported | with_reducible apply keeps_discardWrite | with_reducible apply keeps_ite | dsimp only
    | refine keeps_mk ?_ rfl rfl rfl rfl rfl rfl rfl rfl rfl

theorem keeps_execMailboxRead {s00 s : State} (p : HPort) (fn : FnId) (idx : BitVec 16) (sub : BitVec 8) (irq : BarGo) (hk : Keeps s00 s) : Goes s00 (execMailboxRead p fn idx sub irq s) := by
  unfold execMailboxRead
  repeat' first
    | with_reducible assumption | with_reducible intro _ | with_reducible apply keeps_arrive | with_reducible apply keeps_barWrite
    | with_reducible apply keeps_mailboxGo | with_reducible apply goes_next

theorem keeps_execMailboxWrite {s00 s : State} (p : HPort) (fn : FnId) (idx : BitVec 16) (sub : BitVec 8) (len : BitVec 9) (irq : BarGo) (data : List Byte) (hk : Keeps s00 s) : Goes s00 (execMailboxWrite p fn idx sub len irq data s) := by
  unfold execMailboxWrite
  repeat' first
    | with_reducible assumption | with_reducible intro _ | with_reducible apply keeps_arrive | with_reducible apply keeps_barWrite
    | with_reducible apply keeps_mailboxGo | with_reducible apply goes_next

theorem keeps_qpResult {s00 s : State} (path : Path) (r : Nat) (hk : Keeps s00 s) : Keeps s00 (qpResult path r s) := by
  unfold qpResult
  repeat' first
    | with_reducible assumption | with_reducible apply keeps_pathSet

theorem keeps_writeRecord {s00 s : State} (path : Path) (w : BitVec 512) (hk : Keeps s00 s) : Keeps s00 (writeRecord path w s) := by
  unfold writeRecord
  repeat' first
    | with_reducible assumption | with_reducible apply keeps_setQp | with_reducible apply keeps_qpResult | with_reducible apply keeps_ite
    | split

theorem keeps_execQpCreate {s00 s : State} (path : Path) (record : BitVec 512) (hk : Keeps s00 s) : Goes s00 (execQpCreate path record s) := by
  unfold execQpCreate
  repeat' first
    | with_reducible assumption | with_reducible intro _ | with_reducible apply keeps_odWriteNat | with_reducible apply keeps_writeRecord
    | with_reducible apply goes_next

theorem keeps_execQpDelete {s00 s : State} (path : Path) (record : BitVec 512) (hk : Keeps s00 s) : Goes s00 (execQpDelete path record s) := by
  unfold execQpDelete
  repeat' first
    | with_reducible assumption | with_reducible intro _ | with_reducible apply keeps_odWriteNat | with_reducible apply keeps_writeRecord
    | with_reducible apply goes_next

theorem keeps_execQpModify {s00 s : State} (path : Path) (record : BitVec 512) (hk : Keeps s00 s) : Goes s00 (execQpModify path record s) := by
  unfold execQpModify
  repeat' first
    | with_reducible assumption | with_reducible intro _ | with_reducible apply keeps_odWriteNat | with_reducible apply keeps_writeRecord
    | with_reducible apply goes_next

theorem keeps_removeQp {s00 s : State} (k : Nat) (hk : Keeps s00 s) : Keeps s00 (removeQp k s) := by
  unfold removeQp
  repeat' first
    | with_reducible assumption | with_reducible apply keeps_qpResult | with_reducible apply keeps_ite | dsimp only
    | refine keeps_mk ?_ rfl rfl rfl rfl rfl rfl rfl rfl rfl

theorem keeps_execQpDeleted {s00 s : State} (p : HPort) (fn : FnId) (q : QueueId) (hk : Keeps s00 s) : Goes s00 (execQpDeleted p fn q s) := by
  unfold execQpDeleted
  repeat' first
    | with_reducible assumption | with_reducible apply keeps_removeQp | with_reducible apply goes_next | with_reducible apply goes_ite

theorem keeps_windowResult {s00 s : State} (path : Path) (p r : Nat) (hk : Keeps s00 s) : Keeps s00 (windowResult path p r s) := by
  unfold windowResult
  repeat' first
    | with_reducible assumption | with_reducible apply keeps_pathSet

theorem keeps_execWindowCommit {s00 s : State} (path : Path) (p : HPort) (hk : Keeps s00 s) : Goes s00 (execWindowCommit path p s) := by
  unfold execWindowCommit
  repeat' first
    | with_reducible assumption | with_reducible intro _ | with_reducible apply keeps_odWriteNat
    | with_reducible apply keeps_windowResult | with_reducible apply goes_next | with_reducible apply keeps_ite | dsimp only
    | refine keeps_mk ?_ rfl rfl rfl rfl rfl rfl rfl rfl rfl

theorem keeps_commitWindows {s00 s : State} (p : Nat) (hk : Keeps s00 s) : Keeps s00 (commitWindows p s) := by
  unfold commitWindows
  repeat' first
    | with_reducible assumption | with_reducible apply keeps_odSet | dsimp only | refine keeps_mk ?_ rfl rfl rfl rfl rfl rfl rfl rfl rfl

theorem keeps_execWindowCommitPoint {s00 s : State} (p : HPort) (hk : Keeps s00 s) : Goes s00 (execWindowCommitPoint p s) := by
  unfold execWindowCommitPoint
  repeat' first
    | with_reducible assumption | with_reducible apply keeps_commitWindows | with_reducible apply goes_next
    | with_reducible apply goes_ite

theorem keeps_windowMiss {s00 s : State} (p : Nat) (hk : Keeps s00 s) : Keeps s00 (windowMiss p s) := by
  unfold windowMiss
  repeat' first
    | with_reducible assumption | with_reducible apply keeps_odBump | with_reducible apply keeps_unsupported

theorem keeps_inbound {s00 s : State} (p : Nat) (seen : Option Window) (translated : Bool) (off : Word) (len most : Nat) (act : Window → State → State) (hf : ∀ b x t, Keeps b t → Keeps b (act x t)) (hk : Keeps s00 s) : Keeps s00 (inbound p seen translated off len most act s) := by
  unfold inbound
  repeat' first
    | with_reducible assumption | with_reducible apply keeps_emitTlp | with_reducible apply keeps_odBump
    | with_reducible apply keeps_aerUncorrected | with_reducible apply keeps_unsupported | with_reducible apply keeps_windowMiss
    | with_reducible apply hf | with_reducible apply keeps_ite | split

theorem keeps_poisonTouched {s00 s : State} (a : Attr) (pa len : Nat) (hk : Keeps s00 s) : Keeps s00 (poisonTouched a pa len s) := by
  unfold poisonTouched
  repeat' first
    | with_reducible assumption | with_reducible intro _ | with_reducible apply keeps_writeAtHome | with_reducible apply keeps_ite
    | with_reducible apply keeps_foldl

theorem keeps_inboundWrite {s00 s : State} (p : Nat) (seen : Option Window) (translated : Bool) (off : Word) (data : List Byte) (ep : Bool) (hk : Keeps s00 s) : Keeps s00 (inboundWrite p seen translated off data ep s) := by
  unfold inboundWrite
  repeat' first
    | with_reducible assumption | with_reducible intro _ | with_reducible apply keeps_odBump | with_reducible apply keeps_aerUncorrected
    | with_reducible apply keeps_ioLookup | with_reducible apply keeps_dmaWrite | with_reducible apply keeps_inbound
    | with_reducible apply keeps_poisonTouched | split | dsimp only

theorem keeps_execInboundWriteTlp {s00 s : State} (p : HPort) (translated : Bool) (off : Word) (data : List Byte) (ep : Bool) (hk : Keeps s00 s) : Goes s00 (execInboundWriteTlp p translated off data ep s) := by
  unfold execInboundWriteTlp
  repeat' first
    | with_reducible assumption | with_reducible intro _ | with_reducible apply keeps_arrive | with_reducible apply keeps_inboundWrite
    | with_reducible apply goes_next

theorem keeps_inboundRead {s00 s : State} (p : Nat) (seen : Option Window) (translated : Bool) (off : Word) (len : Nat) (hk : Keeps s00 s) : Keeps s00 (inboundRead p seen translated off len s) := by
  unfold inboundRead
  repeat' first
    | with_reducible assumption | with_reducible intro _ | with_reducible apply keeps_emitTlp | with_reducible apply keeps_odBump
    | with_reducible apply keeps_ioLookup | with_reducible apply keeps_dmaRead | with_reducible apply keeps_completerAbort
    | with_reducible apply keeps_inbound | split | dsimp only

theorem keeps_execInboundReadTlp {s00 s : State} (p : HPort) (translated : Bool) (off : Word) (len : Nat) (hk : Keeps s00 s) : Goes s00 (execInboundReadTlp p translated off len s) := by
  unfold execInboundReadTlp
  repeat' first
    | with_reducible assumption | with_reducible intro _ | with_reducible apply keeps_arrive | with_reducible apply keeps_inboundRead
    | with_reducible apply goes_next

theorem keeps_ackVector {s00 s : State} (p v : Nat) (hk : Keeps s00 s) : Keeps s00 (ackVector p v s) := by
  unfold ackVector
  repeat' first
    | with_reducible assumption | with_reducible apply keeps_emitTlp | with_reducible apply keeps_sendMsix
    | with_reducible apply keeps_clearSource | with_reducible apply keeps_unsupported | with_reducible apply keeps_ite | split

theorem keeps_execMsixAckRead {s00 s : State} (p : HPort) (v : BarPlace) (hk : Keeps s00 s) : Goes s00 (execMsixAckRead p v s) := by
  unfold execMsixAckRead
  repeat' first
    | with_reducible assumption | with_reducible intro _ | with_reducible apply keeps_arrive | with_reducible apply keeps_completerAbort
    | with_reducible apply keeps_barAccess | with_reducible apply keeps_ackVector | with_reducible apply goes_next

theorem keeps_sendPending {s00 s : State} (p fn : Nat) (hk : Keeps s00 s) : Keeps s00 (sendPending p fn s) := by
  unfold sendPending
  repeat' first
    | with_reducible assumption | with_reducible intro _ | with_reducible apply keeps_setFn | with_reducible apply keeps_sendMsix
    | with_reducible apply keeps_ite | with_reducible apply keeps_foldl

theorem keeps_writeMsix {s00 s : State} (p fn entry : Nat) (addr : Word) (data : BitVec 32) (mask : Bool) (hk : Keeps s00 s) : Keeps s00 (writeMsix p fn entry addr data mask s) := by
  unfold writeMsix
  repeat' first
    | with_reducible assumption | with_reducible apply keeps_setFn | with_reducible apply keeps_unsupported
    | with_reducible apply keeps_sendPending | with_reducible apply keeps_ite

theorem keeps_execMsixTableWrite {s00 s : State} (p : HPort) (fn : FnId) (entry : BarPlace) (addr : Word) (data : BitVec 32) (mask : Bool) (hk : Keeps s00 s) : Goes s00 (execMsixTableWrite p fn entry addr data mask s) := by
  unfold execMsixTableWrite
  repeat' first
    | with_reducible assumption | with_reducible intro _ | with_reducible apply keeps_arrive | with_reducible apply keeps_barWrite
    | with_reducible apply keeps_writeMsix | with_reducible apply goes_next

theorem keeps_performTlp {s00 s : State} (t : HostTlp) (hk : Keeps s00 s) : Keeps s00 (performTlp t s) := by
  unfold performTlp
  repeat' first
    | with_reducible assumption | with_reducible apply keeps_sqTail | with_reducible apply keeps_doorbells
    | with_reducible apply keeps_cqHead | with_reducible apply keeps_mailboxGo | with_reducible apply keeps_inboundWrite
    | with_reducible apply keeps_inboundRead | with_reducible apply keeps_ackVector | with_reducible apply keeps_writeMsix | split

theorem keeps_releaseTlps {s00 s : State}  (hk : Keeps s00 s) : Keeps s00 (releaseTlps s) := by
  unfold releaseTlps
  repeat' first
    | with_reducible assumption | with_reducible intro _ | with_reducible apply keeps_performTlp | with_reducible apply keeps_foldl
    | dsimp only | refine keeps_mk ?_ rfl rfl rfl rfl rfl rfl rfl rfl rfl

theorem keeps_atcInsert {s00 s : State} (p : Nat) (e : AtcEntry) (hk : Keeps s00 s) : Keeps s00 (atcInsert p e s) := by
  unfold atcInsert
  repeat' first
    | with_reducible assumption | with_reducible apply keeps_took | split | dsimp only
    | refine keeps_mk ?_ rfl rfl rfl rfl rfl rfl rfl rfl rfl

theorem keeps_sendHeld {s00 s : State} (page trans : Nat) (r w : Bool) (hpage : Nat) (o : Out) (hk : Keeps s00 s) : Keeps s00 (sendHeld page trans r w hpage o s) := by
  unfold sendHeld
  repeat' first
    | with_reducible assumption | with_reducible apply keeps_emit | with_reducible apply keeps_emitTlp | split

theorem keeps_atsComplete {s00 s : State} (p fn page pages trans : Nat) (r w : Bool) (hk : Keeps s00 s) : Keeps s00 (atsComplete p fn page pages trans r w s) := by
  unfold atsComplete
  repeat' first
    | with_reducible assumption | with_reducible intro _ | with_reducible apply keeps_releaseOrdered
    | with_reducible apply keeps_atcInsert | with_reducible apply keeps_sendHeld | with_reducible apply keeps_ite
    | with_reducible apply keeps_foldl | dsimp only | refine keeps_mk ?_ rfl rfl rfl rfl rfl rfl rfl rfl rfl

theorem keeps_execAtsTranslationCompletion {s00 s : State} (p : HPort) (fn : FnId) (page pages trans : Nat) (r w : Bool) (hk : Keeps s00 s) : Goes s00 (execAtsTranslationCompletion p fn page pages trans r w s) := by
  unfold execAtsTranslationCompletion
  repeat' first
    | with_reducible assumption | with_reducible apply keeps_countLink | with_reducible apply keeps_atsComplete
    | with_reducible apply goes_next

theorem keeps_dropAtc {s00 s : State} (p fn : Nat) (c : AtcEntry → Bool) (hk : Keeps s00 s) : Keeps s00 (dropAtc p fn c s) := by
  unfold dropAtc
  repeat' first
    | with_reducible assumption | dsimp only | refine keeps_mk ?_ rfl rfl rfl rfl rfl rfl rfl rfl rfl

theorem keeps_execAtsInvalidateRequest {s00 s : State} (p : HPort) (fn : FnId) (page pages : Nat) (itag : BitVec 5) (hk : Keeps s00 s) : Goes s00 (execAtsInvalidateRequest p fn page pages itag s) := by
  unfold execAtsInvalidateRequest
  repeat' first
    | with_reducible assumption | with_reducible apply keeps_countLink | with_reducible apply keeps_odBump
    | with_reducible apply keeps_dropAtc | with_reducible apply goes_next | dsimp only
    | refine keeps_mk ?_ rfl rfl rfl rfl rfl rfl rfl rfl rfl

theorem keeps_execInvalidationCompletion {s00 s : State} (p : HPort) (hk : Keeps s00 s) : Goes s00 (execInvalidationCompletion p s) := by
  unfold execInvalidationCompletion
  repeat' first
    | with_reducible assumption | with_reducible apply keeps_emitTlp | with_reducible apply goes_next | with_reducible apply goes_ite
    | split | dsimp only | refine keeps_mk ?_ rfl rfl rfl rfl rfl rfl rfl rfl rfl

theorem keeps_mapFnAt {s00 s : State} (k : Nat) (f : HFn → HFn) (hk : Keeps s00 s) : Keeps s00 (mapFnAt k f s) := by
  unfold mapFnAt
  repeat' first
    | with_reducible assumption | with_reducible apply keeps_setFnAt

theorem keeps_cfgBit {s00 s : State} (k off i : Nat) (b : Bool) (hk : Keeps s00 s) : Keeps s00 (cfgBit k off i b s) := by
  unfold cfgBit
  repeat' first
    | with_reducible assumption | with_reducible apply keeps_mapFnAt

theorem keeps_clearSelections {s00 s : State} (p fn : Nat) (hk : Keeps s00 s) : Keeps s00 (clearSelections p fn s) := by
  unfold clearSelections
  repeat' first
    | with_reducible assumption | with_reducible apply keeps_pathSet | split

theorem keeps_resendSources {s00 s : State} (p fn : Nat) (hk : Keeps s00 s) : Keeps s00 (resendSources p fn s) := by
  unfold resendSources
  repeat' first
    | with_reducible assumption | with_reducible intro _ | with_reducible apply keeps_setSource | with_reducible apply keeps_signalQuiet
    | with_reducible apply keeps_ite | with_reducible apply keeps_foldl | split

theorem keeps_applyLatched {s00 s : State} (l fn : Nat) (x : Latched) (hk : Keeps s00 s) : Keeps s00 (applyLatched l fn x s) := by
  unfold applyLatched
  repeat' first
    | with_reducible assumption | with_reducible apply keeps_mapFnAt | with_reducible apply keeps_cfgBit | with_reducible apply keeps_ite

theorem keeps_applyVfEnable {s00 s : State} (l : Nat) (hk : Keeps s00 s) : Keeps s00 (applyVfEnable l s) := by
  unfold applyVfEnable
  repeat' first
    | with_reducible assumption | with_reducible apply keeps_mapFnAt | with_reducible apply keeps_cfgBit | with_reducible apply keeps_ite

theorem keeps_endDrain {s00 s : State} (l fn : Nat) (hk : Keeps s00 s) : Keeps s00 (endDrain l fn s) := by
  unfold endDrain
  repeat' first
    | with_reducible assumption | with_reducible intro _ | with_reducible apply keeps_setFnAt | with_reducible apply keeps_removeQp
    | with_reducible apply keeps_mapFnAt | with_reducible apply keeps_clearSelections | with_reducible apply keeps_resendSources
    | with_reducible apply keeps_applyLatched | with_reducible apply keeps_applyVfEnable | with_reducible apply keeps_ite
    | with_reducible apply keeps_foldl | split | dsimp only

theorem keeps_startDrain {s00 s : State} (kind : DrainKind) (l fn : Nat) (hk : Keeps s00 s) : Keeps s00 (startDrain kind l fn s) := by
  unfold startDrain
  repeat' first
    | with_reducible assumption | with_reducible apply keeps_silenceFn | with_reducible apply keeps_dropAtc
    | with_reducible apply keeps_mapFnAt | with_reducible apply keeps_endDrain | with_reducible apply keeps_ite | dsimp only
    | refine keeps_mk ?_ rfl rfl rfl rfl rfl rfl rfl rfl rfl

theorem keeps_disableVfs {s00 s : State} (l : Nat) (hk : Keeps s00 s) : Keeps s00 (disableVfs l s) := by
  unfold disableVfs
  repeat' first
    | with_reducible assumption | with_reducible intro _ | with_reducible apply keeps_cfgBit | with_reducible apply keeps_startDrain
    | with_reducible apply keeps_foldl

theorem keeps_startFlr {s00 s : State} (l fn : Nat) (hk : Keeps s00 s) : Keeps s00 (startFlr l fn s) := by
  unfold startFlr
  repeat' first
    | with_reducible assumption | with_reducible apply keeps_startDrain | with_reducible apply keeps_disableVfs
    | with_reducible apply keeps_ite

theorem keeps_execFlr {s00 s : State} (l : CtlId) (fn : FnId) (hk : Keeps s00 s) : Goes s00 (execFlr l fn s) := by
  unfold execFlr
  repeat' first
    | with_reducible assumption | with_reducible apply keeps_startFlr | with_reducible apply goes_next | with_reducible apply goes_ite

theorem keeps_execVfDisable {s00 s : State} (l : CtlId) (hk : Keeps s00 s) : Goes s00 (execVfDisable l s) := by
  unfold execVfDisable
  repeat' first
    | with_reducible assumption | with_reducible apply keeps_disableVfs | with_reducible apply goes_next

theorem keeps_enterD3 {s00 s : State} (l fn : Nat) (hk : Keeps s00 s) : Keeps s00 (enterD3 l fn s) := by
  unfold enterD3
  repeat' first
    | with_reducible assumption | with_reducible apply keeps_startDrain | with_reducible apply keeps_ite

theorem keeps_execD3hotEntry {s00 s : State} (l : CtlId) (fn : FnId) (hk : Keeps s00 s) : Goes s00 (execD3hotEntry l fn s) := by
  unfold execD3hotEntry
  repeat' first
    | with_reducible assumption | with_reducible apply keeps_enterD3 | with_reducible apply goes_next

theorem keeps_returnD0 {s00 s : State} (l fn : Nat) (hk : Keeps s00 s) : Keeps s00 (returnD0 l fn s) := by
  unfold returnD0
  repeat' first
    | with_reducible assumption | with_reducible apply keeps_setFnAt | with_reducible apply keeps_mapFnAt
    | with_reducible apply keeps_ite

theorem keeps_execD0Return {s00 s : State} (l : CtlId) (fn : FnId) (hk : Keeps s00 s) : Goes s00 (execD0Return l fn s) := by
  unfold execD0Return
  repeat' first
    | with_reducible assumption | with_reducible apply keeps_returnD0 | with_reducible apply goes_next

theorem keeps_execDrainEnd {s00 s : State} (l : CtlId) (fn : FnId) (hk : Keeps s00 s) : Goes s00 (execDrainEnd l fn s) := by
  unfold execDrainEnd
  repeat' first
    | with_reducible assumption | with_reducible apply keeps_endDrain | with_reducible apply goes_next | with_reducible apply goes_ite

theorem keeps_execDlFlrExpiry {s00 s : State} (l : CtlId) (fn : FnId) (hk : Keeps s00 s) : Goes s00 (execDlFlrExpiry l fn s) := by
  unfold execDlFlrExpiry
  repeat' first
    | with_reducible assumption | with_reducible apply keeps_odBump | with_reducible apply keeps_recordDeadline
    | with_reducible apply keeps_endDrain | with_reducible apply goes_next | with_reducible apply goes_ite

theorem keeps_cfgWrite {s00 s : State} (l fn off : Nat) (v : BitVec 32) (hk : Keeps s00 s) : Keeps s00 (cfgWrite l fn off v s) := by
  unfold cfgWrite
  repeat' first
    | with_reducible assumption | with_reducible apply keeps_setFnAt | with_reducible apply keeps_sendLtr
    | with_reducible apply keeps_sendPending | with_reducible apply keeps_dropAtc | with_reducible apply keeps_mapFnAt
    | with_reducible apply keeps_cfgBit | with_reducible apply keeps_disableVfs | with_reducible apply keeps_startFlr
    | with_reducible apply keeps_enterD3 | with_reducible apply keeps_returnD0 | with_reducible apply keeps_ite

theorem keeps_latchWrite {s00 s : State} (k off : Nat) (v : BitVec 32) (hk : Keeps s00 s) : Keeps s00 (latchWrite k off v s) := by
  unfold latchWrite
  repeat' first
    | with_reducible assumption | with_reducible apply keeps_mapFnAt

theorem keeps_configRequest {s00 s : State} (l fn : Nat) (r : CfgReq) (hk : Keeps s00 s) : Keeps s00 (configRequest l fn r s) := by
  unfold configRequest
  repeat' first
    | with_reducible assumption | with_reducible apply keeps_emitTlp | with_reducible apply keeps_odBump
    | with_reducible apply keeps_cfgWrite | with_reducible apply keeps_latchWrite | with_reducible apply keeps_ite | split

theorem keeps_execConfigRequest {s00 s : State} (l : CtlId) (fn : FnId) (r : CfgReq) (hk : Keeps s00 s) : Goes s00 (execConfigRequest l fn r s) := by
  unfold execConfigRequest
  repeat' first
    | with_reducible assumption | with_reducible apply keeps_countLink | with_reducible apply keeps_exitL1
    | with_reducible apply keeps_configRequest | with_reducible apply goes_next

theorem keeps_execPerstAssert {s00 s : State} (p : HPort) (hk : Keeps s00 s) : Goes s00 (execPerstAssert p s) := by
  unfold execPerstAssert
  repeat' first
    | with_reducible assumption | with_reducible intro _ | with_reducible apply keeps_setHostLink | with_reducible apply goes_next
    | with_reducible apply goes_ite | with_reducible apply keeps_ite | with_reducible apply keeps_foldl | dsimp only
    | refine keeps_mk ?_ rfl rfl rfl rfl rfl rfl rfl rfl rfl

theorem keeps_execPerstDeassert {s00 s : State} (p : HPort) (hk : Keeps s00 s) : Goes s00 (execPerstDeassert p s) := by
  unfold execPerstDeassert
  repeat' first
    | with_reducible assumption | with_reducible apply goes_next | dsimp only | refine keeps_mk ?_ rfl rfl rfl rfl rfl rfl rfl rfl rfl

theorem keeps_execHostLinkTrainingStart {s00 s : State} (l : CtlId) (hk : Keeps s00 s) : Goes s00 (execHostLinkTrainingStart l s) := by
  unfold execHostLinkTrainingStart
  repeat' first
    | with_reducible assumption | with_reducible apply keeps_setHostLink | with_reducible apply goes_next | with_reducible apply goes_ite

theorem keeps_hostLaneSteps {s00 s : State} (quad lane : Nat) (hk : Keeps s00 s) : Keeps s00 (hostLaneSteps quad lane s) := by
  unfold hostLaneSteps
  repeat' first
    | with_reducible assumption | with_reducible apply keeps_odSet | with_reducible apply keeps_odBump
    | with_reducible apply keeps_setCtl | with_reducible apply keeps_setHostLink | with_reducible apply keeps_ite

theorem keeps_startHostLane {s00 s : State} (quad lane : Nat) (hk : Keeps s00 s) : Keeps s00 (startHostLane quad lane s) := by
  unfold startHostLane
  repeat' first
    | with_reducible assumption | with_reducible apply keeps_odBump | with_reducible apply keeps_setCtl
    | with_reducible apply keeps_beginRepair | with_reducible apply keeps_setHostLink | with_reducible apply keeps_hostLaneSteps
    | with_reducible apply keeps_ite

theorem keeps_execHostLinkL0 {s00 s : State} (l : CtlId) (rate width : BitVec 8) (hk : Keeps s00 s) : Goes s00 (execHostLinkL0 l rate width s) := by
  unfold execHostLinkL0
  repeat' first
    | with_reducible assumption | with_reducible intro _ | with_reducible apply keeps_odSet | with_reducible apply keeps_setCtl
    | with_reducible apply keeps_endRepair | with_reducible apply keeps_setHostLink | with_reducible apply goes_next
    | with_reducible apply goes_ite | with_reducible apply keeps_foldl

theorem keeps_execAspmL1Idle {s00 s : State} (l : CtlId) (hk : Keeps s00 s) : Goes s00 (execAspmL1Idle l s) := by
  unfold execAspmL1Idle
  repeat' first
    | with_reducible assumption | with_reducible apply keeps_emit | with_reducible apply keeps_setHostLink
    | with_reducible apply goes_next | with_reducible apply goes_ite

theorem keeps_execHostL1Exit {s00 s : State} (l : CtlId) (hk : Keeps s00 s) : Goes s00 (execHostL1Exit l s) := by
  unfold execHostL1Exit
  repeat' first
    | with_reducible assumption | with_reducible apply keeps_exitL1 | with_reducible apply goes_next

theorem keeps_laneErrors {s00 s : State} (l lane n : Nat) (hk : Keeps s00 s) : Keeps s00 (laneErrors l lane n s) := by
  unfold laneErrors
  repeat' first
    | with_reducible assumption | with_reducible apply keeps_setCtl | with_reducible apply keeps_startHostLane
    | with_reducible apply keeps_ite

theorem keeps_execHostLaneErrorWindow {s00 s : State} (l : CtlId) (errs : List Nat) (hk : Keeps s00 s) : Goes s00 (execHostLaneErrorWindow l errs s) := by
  unfold execHostLaneErrorWindow
  repeat' first
    | with_reducible assumption | with_reducible intro _ | with_reducible apply keeps_odAdd | with_reducible apply keeps_laneErrors
    | with_reducible apply goes_next | with_reducible apply keeps_foldl

theorem keeps_execHostLinkDown {s00 s : State} (l : CtlId) (hk : Keeps s00 s) : Goes s00 (execHostLinkDown l s) := by
  unfold execHostLinkDown
  repeat' first
    | with_reducible assumption | with_reducible apply keeps_setHostLink | with_reducible apply goes_next | with_reducible apply goes_ite

theorem keeps_noteTimeout {s00 s : State} (p fn : Nat) (hk : Keeps s00 s) : Keeps s00 (noteTimeout p fn s) := by
  unfold noteTimeout
  repeat' first
    | with_reducible assumption | with_reducible apply keeps_aerUncorrected

theorem keeps_execPcieCompletionTimeout {s00 s : State} (l : CtlId) (r : TimedOut) (hk : Keeps s00 s) : Goes s00 (execPcieCompletionTimeout l r s) := by
  unfold execPcieCompletionTimeout
  repeat' first
    | with_reducible assumption | with_reducible apply keeps_setCtl | with_reducible apply keeps_setQp
    | with_reducible apply keeps_hostReadAnswer | with_reducible apply keeps_noteTimeout | with_reducible apply goes_next | split
    | dsimp only

end Sys2Proof.Machine
end

