-- ==== Sys2Proof/Laws/KeepsControl.lean ====
section
/-! SUPPORT. Stalls, the Farrier, the Groom cores and the rings keep the queue and the invariant. -/

namespace Sys2Proof.Machine

theorem keeps_unlessEnding {s00 s : State} (path : Path) (n : Nat) (act : State → State) (hf : ∀ b t, Keeps b t → Keeps b (act t)) (hk : Keeps s00 s) : Keeps s00 (unlessEnding path n act s) := by
  unfold unlessEnding
  repeat' first
    | with_reducible assumption | with_reducible apply keeps_stallResult | with_reducible apply hf | with_reducible apply keeps_ite

theorem keeps_storeStall {s00 s : State} (path : Path) (n sub v : Nat) (hk : Keeps s00 s) : Keeps s00 (storeStall path n sub v s) := by
  unfold storeStall
  repeat' first
    | with_reducible assumption | with_reducible apply keeps_evalStalls | with_reducible apply keeps_storeOd
    | with_reducible apply keeps_stallResult

theorem keeps_invalidateStall {s00 s : State} (n : Nat) (hk : Keeps s00 s) : Keeps s00 (invalidateStall n s) := by
  unfold invalidateStall
  repeat' first
    | with_reducible assumption | with_reducible apply keeps_invalidate | with_reducible apply keeps_ioInvalidate

theorem keeps_clearRange {s00 s : State} (a len : Nat) (hk : Keeps s00 s) : Keeps s00 (clearRange a len s) := by
  unfold clearRange
  repeat' first
    | with_reducible assumption | with_reducible intro _ | with_reducible apply keeps_lookup | with_reducible apply keeps_spanZero
    | with_reducible apply keeps_ite | with_reducible apply keeps_foldl

theorem keeps_clearFrames {s00 s : State} (a len : Nat) (kept : List (Nat × Nat)) (hk : Keeps s00 s) : Keeps s00 (clearFrames a len kept s) := by
  unfold clearFrames
  repeat' first
    | with_reducible assumption | with_reducible intro _ | with_reducible apply keeps_clearRange | with_reducible apply keeps_ite
    | with_reducible apply keeps_foldl

theorem keeps_beginStall {s00 s : State} (n : Nat) (hk : Keeps s00 s) : Keeps s00 (beginStall n s) := by
  unfold beginStall
  repeat' first
    | with_reducible assumption | with_reducible intro _ | with_reducible apply keeps_odSet | with_reducible apply keeps_setStall
    | with_reducible apply keeps_startStall | with_reducible apply keeps_passSources | with_reducible apply keeps_evalStalls
    | with_reducible apply keeps_setStallState | with_reducible apply keeps_foldl

theorem keeps_createStall {s00 s : State} (path : Path) (n : Nat) (hk : Keeps s00 s) : Keeps s00 (createStall path n s) := by
  unfold createStall
  repeat' first
    | with_reducible assumption | with_reducible apply keeps_odBump | with_reducible apply keeps_stallResult
    | with_reducible apply keeps_beginStall | with_reducible apply keeps_ite | split

theorem keeps_execStallCreate {s00 s : State} (path : Path) (n : StallId) (hk : Keeps s00 s) : Goes s00 (execStallCreate path n s) := by
  unfold execStallCreate
  repeat' first
    | with_reducible assumption | with_reducible intro _ | with_reducible apply keeps_odWriteNat | with_reducible apply keeps_createStall
    | with_reducible apply goes_next

theorem keeps_execStallLive {s00 s : State} (n : StallId) (hk : Keeps s00 s) : Goes s00 (execStallLive n s) := by
  unfold execStallLive
  repeat' first
    | with_reducible assumption | with_reducible apply keeps_evalStalls | with_reducible apply keeps_setStallState
    | with_reducible apply goes_next | with_reducible apply goes_ite

theorem keeps_beginTeardown {s00 s : State} (n : Nat) (hk : Keeps s00 s) : Keeps s00 (beginTeardown n s) := by
  unfold beginTeardown
  repeat' first
    | with_reducible assumption | with_reducible intro _ | with_reducible apply keeps_setStall | with_reducible apply keeps_evalStalls
    | with_reducible apply keeps_setStallState | with_reducible apply keeps_freeCtx | with_reducible apply keeps_foldl

theorem keeps_teardownStall {s00 s : State} (path : Path) (n : Nat) (hk : Keeps s00 s) : Keeps s00 (teardownStall path n s) := by
  unfold teardownStall
  repeat' first
    | with_reducible assumption | with_reducible apply keeps_stallResult | with_reducible apply keeps_beginTeardown
    | with_reducible apply keeps_ite | split

theorem keeps_execStallTeardown {s00 s : State} (path : Path) (n : StallId) (hk : Keeps s00 s) : Goes s00 (execStallTeardown path n s) := by
  unfold execStallTeardown
  repeat' first
    | with_reducible assumption | with_reducible intro _ | with_reducible apply keeps_odWriteNat
    | with_reducible apply keeps_teardownStall | with_reducible apply goes_next

theorem keeps_dropStallCore {s00 s0 : State} (n k : Nat) (hk : Keeps s00 s0) : Keeps s00 (dropStallCore n k s0) := by
  unfold dropStallCore
  repeat' first
    | with_reducible assumption | with_reducible apply keeps_setCore | with_reducible apply keeps_dropSpec
    | with_reducible apply keeps_leaveWindow | with_reducible apply keeps_ite

theorem keeps_resetEntry {s00 s : State} (idx sub : Nat) (hk : Keeps s00 s) : Keeps s00 (resetEntry idx sub s) := by
  unfold resetEntry
  repeat' first
    | with_reducible assumption | with_reducible apply keeps_storeOd | split

theorem keeps_endTeardown {s00 s : State} (n : Nat) (hk : Keeps s00 s) : Keeps s00 (endTeardown n s) := by
  unfold endTeardown
  repeat' first
    | with_reducible assumption | with_reducible intro _ | with_reducible apply keeps_setStall | with_reducible apply keeps_resetSource
    | with_reducible apply keeps_evalStalls | with_reducible apply keeps_setStallState | with_reducible apply keeps_storeOd
    | with_reducible apply keeps_invalidateStall | with_reducible apply keeps_clearRange | with_reducible apply keeps_dropStallCore
    | with_reducible apply keeps_resetEntry | with_reducible apply keeps_ite | with_reducible apply keeps_foldl

theorem keeps_teardownStep {s00 s : State} (n : Nat) (hk : Keeps s00 s) : Keeps s00 (teardownStep n s) := by
  unfold teardownStep
  repeat' first
    | with_reducible assumption | with_reducible apply keeps_setStall | with_reducible refine keeps_performTranslated ?_ _ ‹_›
    | with_reducible apply keeps_startDrain | with_reducible apply keeps_endTeardown | with_reducible apply keeps_ite | split
    | refine keeps_mk ?_ rfl rfl rfl rfl rfl rfl rfl rfl rfl

theorem keeps_execTeardownProgress {s00 s : State} (n : StallId) (hk : Keeps s00 s) : Goes s00 (execTeardownProgress n s) := by
  unfold execTeardownProgress
  repeat' first
    | with_reducible assumption | with_reducible apply keeps_teardownStep | with_reducible apply goes_next

theorem keeps_fenceStall {s00 s : State} (n : Nat) (hk : Keeps s00 s) : Keeps s00 (fenceStall n s) := by
  unfold fenceStall
  repeat' first
    | with_reducible assumption | with_reducible intro _ | with_reducible apply keeps_setCore | with_reducible apply keeps_setStall
    | with_reducible apply keeps_evalStalls | with_reducible apply keeps_setStallState | with_reducible apply keeps_mapFn
    | with_reducible apply keeps_fenceCtx | with_reducible apply keeps_ite | with_reducible apply keeps_foldl | split

theorem keeps_removeCores {s00 s : State} (path : Path) (n : Nat) (shared : Bool) (gone : Nat) (hk : Keeps s00 s) : Keeps s00 (removeCores path n shared gone s) := by
  unfold removeCores
  repeat' first
    | with_reducible assumption | with_reducible intro _ | with_reducible apply keeps_setStall | with_reducible apply keeps_raise
    | with_reducible apply keeps_leaveCore | with_reducible apply keeps_leaveAtWfi | with_reducible apply keeps_stallResult
    | with_reducible apply keeps_ite | with_reducible apply keeps_foldl

theorem keeps_startIdle {s00 s : State} (cores : List Nat) (hk : Keeps s00 s) : Keeps s00 (startIdle cores s) := by
  unfold startIdle
  repeat' first
    | with_reducible assumption | with_reducible intro _ | with_reducible apply keeps_startStall | with_reducible apply keeps_ite
    | with_reducible apply keeps_foldl

theorem keeps_keepCores {s00 s : State} (n : Nat) (shared : Bool) (v : Nat) (hk : Keeps s00 s) : Keeps s00 (keepCores n shared v s) := by
  unfold keepCores
  repeat' first
    | with_reducible assumption | with_reducible apply keeps_setStall

theorem keeps_writeCores {s00 s : State} (path : Path) (n : Nat) (shared : Bool) (v : Nat) (hk : Keeps s00 s) : Keeps s00 (writeCores path n shared v s) := by
  unfold writeCores
  repeat' first
    | with_reducible assumption | with_reducible intro _ | with_reducible apply keeps_startStall | with_reducible apply keeps_passSources
    | with_reducible apply keeps_evalStalls | with_reducible apply keeps_stallResult | with_reducible apply keeps_unlessEnding
    | with_reducible apply keeps_storeStall | with_reducible apply keeps_removeCores | with_reducible apply keeps_startIdle
    | with_reducible apply keeps_keepCores | with_reducible apply keeps_ite | with_reducible apply keeps_foldl

theorem keeps_execCoresWrite {s00 s : State} (path : Path) (n : StallId) (mask : BitVec 128) (hk : Keeps s00 s) : Goes s00 (execCoresWrite path n mask s) := by
  unfold execCoresWrite
  repeat' first
    | with_reducible assumption | with_reducible intro _ | with_reducible apply keeps_odWriteNat | with_reducible apply keeps_writeCores
    | with_reducible apply goes_next

theorem keeps_execSharedCoresWrite {s00 s : State} (path : Path) (n : StallId) (mask : BitVec 128) (hk : Keeps s00 s) : Goes s00 (execSharedCoresWrite path n mask s) := by
  unfold execSharedCoresWrite
  repeat' first
    | with_reducible assumption | with_reducible intro _ | with_reducible apply keeps_odWriteNat | with_reducible apply keeps_writeCores
    | with_reducible apply goes_next

theorem keeps_execCoreRemovalTimeout {s00 s : State} (c : CoreId) (hk : Keeps s00 s) : Goes s00 (execCoreRemovalTimeout c s) := by
  unfold execCoreRemovalTimeout
  repeat' first
    | with_reducible assumption | with_reducible apply keeps_record | with_reducible apply keeps_leaveCore
    | with_reducible apply goes_next | split

theorem keeps_sliceEnd {s00 s : State} (k : Nat) (hk : Keeps s00 s) : Keeps s00 (sliceEnd k s) := by
  unfold sliceEnd
  repeat' first
    | with_reducible assumption | with_reducible refine keeps_drainStores _ ?_ _ ‹_› | with_reducible apply keeps_switchStall
    | with_reducible apply keeps_evalStalls | with_reducible apply keeps_ite | split
    | refine keeps_mk ?_ rfl rfl rfl rfl rfl rfl rfl rfl rfl

theorem keeps_execSliceEnd {s00 s : State} (c : CoreId) (hk : Keeps s00 s) : Goes s00 (execSliceEnd c s) := by
  unfold execSliceEnd
  repeat' first
    | with_reducible assumption | with_reducible apply keeps_sliceEnd | with_reducible apply goes_next | with_reducible apply goes_ite

theorem keeps_deferGrant {s00 s : State} (path : Path) (n : Nat) (g : GrantPending) (same : GrantPending → Bool) (hk : Keeps s00 s) : Keeps s00 (deferGrant path n g same s) := by
  unfold deferGrant
  repeat' first
    | with_reducible assumption | with_reducible apply keeps_setStall | with_reducible apply keeps_stallResult
    | with_reducible apply keeps_ite

theorem keeps_writeGrant {s00 s : State} (path : Path) (n k v : Nat) (hk : Keeps s00 s) : Keeps s00 (writeGrant path n k v s) := by
  unfold writeGrant
  repeat' first
    | with_reducible assumption | with_reducible apply keeps_stallResult | with_reducible apply keeps_storeStall
    | with_reducible apply keeps_deferGrant | with_reducible apply keeps_ite

theorem keeps_execGrantWrite {s00 s : State} (path : Path) (n : StallId) (k : Fin 16) (v : Word) (hk : Keeps s00 s) : Goes s00 (execGrantWrite path n k v s) := by
  unfold execGrantWrite
  repeat' first
    | with_reducible assumption | with_reducible intro _ | with_reducible apply keeps_odWriteNat | with_reducible apply keeps_writeGrant
    | with_reducible apply goes_next

theorem keeps_writeIoRoot {s00 s : State} (path : Path) (n v : Nat) (hk : Keeps s00 s) : Keeps s00 (writeIoRoot path n v s) := by
  unfold writeIoRoot
  repeat' first
    | with_reducible assumption | with_reducible apply keeps_storeStall | with_reducible apply keeps_deferGrant
    | with_reducible apply keeps_ite

theorem keeps_execIoRootWrite {s00 s : State} (path : Path) (n : StallId) (v : Word) (hk : Keeps s00 s) : Goes s00 (execIoRootWrite path n v s) := by
  unfold execIoRootWrite
  repeat' first
    | with_reducible assumption | with_reducible intro _ | with_reducible apply keeps_odWriteNat | with_reducible apply keeps_writeIoRoot
    | with_reducible apply goes_next

theorem keeps_grantDone {s00 s : State} (path : Path) (n : Nat) (rest : List GrantPending) (hk : Keeps s00 s) : Keeps s00 (grantDone path n rest s) := by
  unfold grantDone
  repeat' first
    | with_reducible assumption | with_reducible apply keeps_stallResult | with_reducible apply keeps_ite

theorem keeps_completeGrant {s00 s : State} (n : Nat) (hk : Keeps s00 s) : Keeps s00 (completeGrant n s) := by
  unfold completeGrant
  repeat' first
    | with_reducible assumption | with_reducible apply keeps_setStall | with_reducible apply keeps_evalStalls
    | with_reducible apply keeps_storeOd | with_reducible apply keeps_invalidateStall | with_reducible apply keeps_clearFrames
    | with_reducible apply keeps_grantDone | with_reducible apply keeps_ite | split | dsimp only

theorem keeps_execGrantWriteComplete {s00 s : State} (n : StallId) (hk : Keeps s00 s) : Goes s00 (execGrantWriteComplete n s) := by
  refine goes_next (keeps_ite hk ?_)
  cases h : performTranslated s with
  | none => exact hk
  | some t => exact keeps_completeGrant _ (keeps_performTranslated hk t h)

theorem keeps_writeVfBind {s00 s : State} (path : Path) (n v : Nat) (hk : Keeps s00 s) : Keeps s00 (writeVfBind path n v s) := by
  unfold writeVfBind
  repeat' first
    | with_reducible assumption | with_reducible intro _ | with_reducible apply keeps_stallResult
    | with_reducible apply keeps_unlessEnding | with_reducible apply keeps_storeStall | with_reducible apply keeps_ite

theorem keeps_execVfBindWrite {s00 s : State} (path : Path) (n : StallId) (v : BitVec 16) (hk : Keeps s00 s) : Goes s00 (execVfBindWrite path n v s) := by
  unfold execVfBindWrite
  repeat' first
    | with_reducible assumption | with_reducible intro _ | with_reducible apply keeps_odWriteNat | with_reducible apply keeps_writeVfBind
    | with_reducible apply goes_next

theorem keeps_writeBoot {s00 s : State} (path : Path) (n sub v : Nat) (hk : Keeps s00 s) : Keeps s00 (writeBoot path n sub v s) := by
  unfold writeBoot
  repeat' first
    | with_reducible assumption | with_reducible intro _ | with_reducible apply keeps_unlessEnding
    | with_reducible apply keeps_storeStall

theorem keeps_execStrictWrite {s00 s : State} (path : Path) (n : StallId) (b : Bool) (hk : Keeps s00 s) : Goes s00 (execStrictWrite path n b s) := by
  unfold execStrictWrite
  repeat' first
    | with_reducible assumption | with_reducible intro _ | with_reducible apply keeps_odWriteNat | with_reducible apply keeps_writeBoot
    | with_reducible apply goes_next

theorem keeps_execStrictWayCleanDone {s00 s : State} (n : StallId) (hk : Keeps s00 s) : Goes s00 (execStrictWayCleanDone n s) := by
  unfold execStrictWayCleanDone
  repeat' first
    | with_reducible assumption | with_reducible intro _ | with_reducible apply keeps_setStall | with_reducible apply keeps_evictSector
    | with_reducible apply keeps_evalStalls | with_reducible apply goes_next | with_reducible apply goes_ite
    | with_reducible apply keeps_foldl

theorem keeps_writeCoreMode {s00 s : State} (path : Path) (n v : Nat) (hk : Keeps s00 s) : Keeps s00 (writeCoreMode path n v s) := by
  unfold writeCoreMode
  repeat' first
    | with_reducible assumption | with_reducible intro _ | with_reducible apply keeps_setCore | with_reducible apply keeps_evalStalls
    | with_reducible apply keeps_storeOd | with_reducible apply keeps_stallResult | with_reducible apply keeps_ite
    | with_reducible apply keeps_foldl

theorem keeps_execCoreModeWrite {s00 s : State} (path : Path) (n : StallId) (v : BitVec 32) (hk : Keeps s00 s) : Goes s00 (execCoreModeWrite path n v s) := by
  unfold execCoreModeWrite
  repeat' first
    | with_reducible assumption | with_reducible intro _ | with_reducible apply keeps_odWriteNat
    | with_reducible apply keeps_writeCoreMode | with_reducible apply goes_next

theorem keeps_writeRingGroups {s00 s : State} (path : Path) (n v : Nat) (hk : Keeps s00 s) : Keeps s00 (writeRingGroups path n v s) := by
  unfold writeRingGroups
  repeat' first
    | with_reducible assumption | with_reducible apply keeps_setStall | with_reducible apply keeps_evalStalls
    | with_reducible apply keeps_storeOd | with_reducible apply keeps_stallResult | with_reducible apply keeps_ite

theorem keeps_execRingGroupsWrite {s00 s : State} (path : Path) (n : StallId) (v : BitVec 32) (hk : Keeps s00 s) : Goes s00 (execRingGroupsWrite path n v s) := by
  unfold execRingGroupsWrite
  repeat' first
    | with_reducible assumption | with_reducible intro _ | with_reducible apply keeps_odWriteNat
    | with_reducible apply keeps_writeRingGroups | with_reducible apply goes_next

theorem keeps_writeMemSlots {s00 s : State} (path : Path) (n v : Nat) (hk : Keeps s00 s) : Keeps s00 (writeMemSlots path n v s) := by
  unfold writeMemSlots
  repeat' first
    | with_reducible assumption | with_reducible apply keeps_setStall | with_reducible apply keeps_evalStalls
    | with_reducible apply keeps_storeOd | with_reducible apply keeps_stallResult | with_reducible apply keeps_ite

theorem keeps_execMemSlotsWrite {s00 s : State} (path : Path) (n : StallId) (v : BitVec 32) (hk : Keeps s00 s) : Goes s00 (execMemSlotsWrite path n v s) := by
  unfold execMemSlotsWrite
  repeat' first
    | with_reducible assumption | with_reducible intro _ | with_reducible apply keeps_odWriteNat
    | with_reducible apply keeps_writeMemSlots | with_reducible apply goes_next

theorem keeps_writeLlcWays {s00 s : State} (path : Path) (n v : Nat) (hk : Keeps s00 s) : Keeps s00 (writeLlcWays path n v s) := by
  unfold writeLlcWays
  repeat' first
    | with_reducible assumption | with_reducible apply keeps_stallResult | with_reducible apply keeps_storeStall
    | with_reducible apply keeps_ite

theorem keeps_execLlcWaysWrite {s00 s : State} (path : Path) (n : StallId) (v : BitVec 16) (hk : Keeps s00 s) : Goes s00 (execLlcWaysWrite path n v s) := by
  unfold execLlcWaysWrite
  repeat' first
    | with_reducible assumption | with_reducible intro _ | with_reducible apply keeps_odWriteNat
    | with_reducible apply keeps_writeLlcWays | with_reducible apply goes_next

theorem keeps_writeWayLock {s00 s : State} (path : Path) (w v : Nat) (hk : Keeps s00 s) : Keeps s00 (writeWayLock path w v s) := by
  unfold writeWayLock
  repeat' first
    | with_reducible assumption | with_reducible apply keeps_evalStalls | with_reducible apply keeps_storeOd
    | with_reducible apply keeps_stallResult | with_reducible apply keeps_ite

theorem keeps_execWayLockWrite {s00 s : State} (path : Path) (w : Fin 16) (v : BitVec 32) (hk : Keeps s00 s) : Goes s00 (execWayLockWrite path w v s) := by
  unfold execWayLockWrite
  repeat' first
    | with_reducible assumption | with_reducible intro _ | with_reducible apply keeps_odWriteNat
    | with_reducible apply keeps_writeWayLock | with_reducible apply goes_next

theorem keeps_execRetireChannel {s00 s : State} (path : Path) (c : ChanId) (hk : Keeps s00 s) : Goes s00 (execRetireChannel path c s) := by
  unfold execRetireChannel
  repeat' first
    | with_reducible assumption | with_reducible intro _ | with_reducible apply keeps_writeChanAction
    | with_reducible apply keeps_odWriteNat | with_reducible apply goes_next

theorem keeps_execSpareRankRequest {s00 s : State} (path : Path) (c : ChanId) (rank : Fin 8) (hk : Keeps s00 s) : Goes s00 (execSpareRankRequest path c rank s) := by
  unfold execSpareRankRequest
  repeat' first
    | with_reducible assumption | with_reducible intro _ | with_reducible apply keeps_writeChanAction
    | with_reducible apply keeps_odWriteNat | with_reducible apply goes_next

theorem keeps_execSourceCoalesceTimeout {s00 s : State} (src : SourceId) (hk : Keeps s00 s) : Goes s00 (execSourceCoalesceTimeout src s) := by
  unfold execSourceCoalesceTimeout
  repeat' first
    | with_reducible assumption | with_reducible apply keeps_signalSource | with_reducible apply goes_next
    | with_reducible apply goes_ite

theorem keeps_execDlCoalesceExpiry {s00 s : State} (src : SourceId) (hk : Keeps s00 s) : Goes s00 (execDlCoalesceExpiry src s) := by
  unfold execDlCoalesceExpiry
  repeat' first
    | with_reducible assumption | with_reducible apply keeps_odBump | with_reducible apply keeps_signalSource
    | with_reducible apply keeps_recordDeadline | with_reducible apply goes_next | with_reducible apply goes_ite

theorem keeps_retarget {s00 s : State} (i : Nat) (hk : Keeps s00 s) : Keeps s00 (retarget i s) := by
  unfold retarget
  repeat' first
    | with_reducible assumption | with_reducible apply keeps_setSource | with_reducible apply keeps_wakeTarget
    | with_reducible apply keeps_signalQuiet | with_reducible apply keeps_ite

theorem keeps_writeSource {s00 s : State} (path : Path) (w : Word) (hk : Keeps s00 s) : Keeps s00 (writeSource path w s) := by
  unfold writeSource
  repeat' first
    | with_reducible assumption | with_reducible apply keeps_noteBag | with_reducible apply keeps_pathSet
    | with_reducible apply keeps_setSource | with_reducible apply keeps_evalSource | with_reducible apply keeps_retarget
    | with_reducible apply keeps_ite

theorem keeps_execSourceConfigWrite {s00 s : State} (path : Path) (w : Word) (hk : Keeps s00 s) : Goes s00 (execSourceConfigWrite path w s) := by
  unfold execSourceConfigWrite
  repeat' first
    | with_reducible assumption | with_reducible intro _ | with_reducible apply keeps_odWriteNat | with_reducible apply keeps_writeSource
    | with_reducible apply goes_next

theorem keeps_wealarRespond {s00 s : State} (node : Nat) (h : WealarHdr) (service : Nat) (body : List Byte) (hk : Keeps s00 s) : Keeps s00 (wealarRespond node h service body s) := by
  unfold wealarRespond
  repeat' first
    | with_reducible assumption | with_reducible intro _ | with_reducible apply keeps_sendFrame | with_reducible apply keeps_ite
    | with_reducible apply keeps_foldl

theorem keeps_segmentError {s00 s : State} (h : WealarHdr) (service : Nat) (hk : Keeps s00 s) : Keeps s00 (segmentError h service s) := by
  unfold segmentError
  repeat' first
    | with_reducible assumption | with_reducible apply keeps_odBump | with_reducible apply keeps_wealarRespond
    | with_reducible apply keeps_ite

theorem keeps_endTransfers {s00 s : State}  (hk : Keeps s00 s) : Keeps s00 (endTransfers s) := by
  unfold endTransfers
  repeat' first
    | with_reducible assumption | with_reducible intro _ | with_reducible apply keeps_segmentError | with_reducible apply keeps_foldl
    | dsimp only | refine keeps_mk ?_ rfl rfl rfl rfl rfl rfl rfl rfl rfl

theorem keeps_fenceUnder {s00 s : State} (inc : BitVec 32) (n : Nat) (hk : Keeps s00 s) : Keeps s00 (fenceUnder inc n s) := by
  unfold fenceUnder
  repeat' first
    | with_reducible assumption | with_reducible apply keeps_recordIn | with_reducible apply keeps_fenceStall
    | with_reducible apply keeps_ite

theorem keeps_machineCheck {s00 s : State} (core : Option Nat) (hk : Keeps s00 s) : Keeps s00 (machineCheck core s) := by
  unfold machineCheck
  repeat' first
    | with_reducible assumption | with_reducible apply keeps_takeExceptionAt | split | dsimp only

theorem keeps_containedAt {s00 s : State} (inc : BitVec 32) (n : Nat) (core : Option Nat) (hk : Keeps s00 s) : Keeps s00 (containedAt inc n core s) := by
  unfold containedAt
  repeat' first
    | with_reducible assumption | with_reducible apply keeps_fenceUnder | with_reducible apply keeps_machineCheck
    | with_reducible apply keeps_ite

theorem keeps_fatalSignals {s00 s : State} (inc : BitVec 32) (dw1 : BitVec 32) (hk : Keeps s00 s) : Keeps s00 (fatalSignals inc dw1 s) := by
  unfold fatalSignals
  repeat' first
    | with_reducible assumption | with_reducible intro _ | with_reducible apply keeps_aerSignal | with_reducible apply keeps_foldl

theorem keeps_deviceFatal {s00 s : State} (g : Nat) (inc : BitVec 32) (hk : Keeps s00 s) : Keeps s00 (deviceFatal g inc s) := by
  have h := keeps_fatalSignals inc (BitVec.ofNat 32 (0x0C + 3 * 256))
    (keeps_recordIn inc { kind := 0x0C, cls := 3, resource := resource 9 g, action := 0x0E, outcome := 4 } hk)
  unfold deviceFatal
  refine keeps_storeBag ⟨h.1, fun k => ?_⟩
  obtain ⟨h1, h2, -, -⟩ := h.2 k
  exact ⟨h1, h2, fun _ => ⟨rfl, rfl⟩, fun _ => rfl⟩

theorem keeps_coreOffline {s00 s : State} (k cause : Nat) (inc : BitVec 32) (hk : Keeps s00 s) : Keeps s00 (coreOffline k cause inc s) := by
  unfold coreOffline
  repeat' first
    | with_reducible assumption | with_reducible apply keeps_setCore | with_reducible apply keeps_recordIn
    | with_reducible apply keeps_containedAt | dsimp only | refine keeps_mk ?_ rfl rfl rfl rfl rfl rfl rfl rfl rfl

theorem keeps_spareFailed {s00 s : State} (stop : Nat) (hk : Keeps s00 s) : Keeps s00 (spareFailed stop s) := by
  unfold spareFailed
  repeat' first
    | with_reducible assumption | dsimp only | refine keeps_mk ?_ rfl rfl rfl rfl rfl rfl rfl rfl rfl

theorem keeps_abortSubst {s00 s : State}  (hk : Keeps s00 s) : Keeps s00 (abortSubst s) := by
  unfold abortSubst
  repeat' first
    | with_reducible assumption | with_reducible apply keeps_endRepair | with_reducible apply keeps_coreOffline | split | dsimp only
    | refine keeps_mk ?_ rfl rfl rfl rfl rfl rfl rfl rfl rfl

theorem keeps_abortRehome {s00 s : State} (r : Repair) (hk : Keeps s00 s) : Keeps s00 (abortRehome r s) := by
  unfold abortRehome
  repeat' first
    | with_reducible assumption | with_reducible intro _ | with_reducible apply keeps_dropSector | with_reducible apply keeps_poisonMem
    | with_reducible apply keeps_endRepair | with_reducible apply keeps_foldl | split | dsimp only
    | refine keeps_mk ?_ rfl rfl rfl rfl rfl rfl rfl rfl rfl

theorem keeps_abortRetire {s00 s : State} (r : Repair) (hk : Keeps s00 s) : Keeps s00 (abortRetire r s) := by
  unfold abortRetire
  repeat' first
    | with_reducible assumption | with_reducible intro _ | with_reducible apply keeps_endRepair | with_reducible apply keeps_finishRetire
    | with_reducible apply keeps_fenceCtx | with_reducible apply keeps_containedAt | with_reducible apply keeps_foldl

theorem keeps_abortRepair {s00 s0 : State} (r : Repair) (hk : Keeps s00 s0) : Keeps s00 (abortRepair r s0) := by
  unfold abortRepair
  repeat' first
    | with_reducible assumption | with_reducible apply keeps_odBump | with_reducible apply keeps_abortMigration
    | with_reducible apply keeps_failoverFails | with_reducible apply keeps_abortSubst | with_reducible apply keeps_abortRehome
    | with_reducible apply keeps_abortRetire | split

theorem keeps_strike {s00 s : State} (res : Nat) (hk : Keeps s00 s) : Keeps s00 (strike res s).2 := by
  unfold strike
  repeat' first
    | with_reducible assumption | with_reducible intro _ | with_reducible apply keeps_abortRepair | with_reducible apply keeps_foldl
    | split

theorem keeps_setTileDom {s00 s : State} (stop : Nat) (v : DomState) (hk : Keeps s00 s) : Keeps s00 (setTileDom stop v s) := by
  unfold setTileDom
  repeat' first
    | with_reducible assumption | with_reducible apply keeps_setDom | split

theorem keeps_reserveSpare {s00 s : State} (stop : Nat) (hk : Keeps s00 s) : Keeps s00 (reserveSpare stop s) := by
  unfold reserveSpare
  repeat' first
    | with_reducible assumption | with_reducible apply keeps_setTileDom | dsimp only
    | refine keeps_mk ?_ rfl rfl rfl rfl rfl rfl rfl rfl rfl

theorem keeps_substSteps {s00 s : State} (k cause : Nat) (inc : BitVec 32) (hk : Keeps s00 s) : Keeps s00 (substSteps k cause inc s) := by
  unfold substSteps
  repeat' first
    | with_reducible assumption | with_reducible apply keeps_endRepair | with_reducible apply keeps_coreOffline
    | with_reducible apply keeps_reserveSpare | split | dsimp only | refine keeps_mk ?_ rfl rfl rfl rfl rfl rfl rfl rfl rfl

theorem keeps_startSubst {s00 s : State} (k cause : Nat) (inc : BitVec 32) (hk : Keeps s00 s) : Keeps s00 (startSubst k cause inc s) := by
  unfold startSubst
  repeat' first
    | with_reducible assumption | with_reducible apply keeps_recordIn | with_reducible apply keeps_takeIncident
    | with_reducible apply keeps_beginRepair | with_reducible apply keeps_coreOffline | with_reducible apply keeps_substSteps
    | with_reducible apply keeps_ite

theorem keeps_modSubst {s00 s : State} (f : Subst → Subst) (hk : Keeps s00 s) : Keeps s00 (modSubst f s) := by
  unfold modSubst
  repeat' first
    | with_reducible assumption | dsimp only | refine keeps_mk ?_ rfl rfl rfl rfl rfl rfl rfl rfl rfl

theorem keeps_finishSubst {s00 s : State}  (hk : Keeps s00 s) : Keeps s00 (finishSubst s) := by
  unfold finishSubst
  repeat' first
    | with_reducible assumption | with_reducible apply keeps_odBump | with_reducible apply keeps_setCore
    | with_reducible apply keeps_endRepair | with_reducible apply keeps_setTileDom | with_reducible apply keeps_ite | split | dsimp only
    | refine keeps_mk ?_ rfl rfl rfl rfl rfl rfl rfl rfl rfl

theorem keeps_poisonLine {s00 s : State} (inc : BitVec 32) (tile : Nat) (stop : Nat) (line : Nat) (hk : Keeps s00 s) : Keeps s00 (poisonLine inc tile stop line s) := by
  unfold poisonLine
  repeat' first
    | with_reducible assumption | with_reducible apply keeps_recordIn | with_reducible apply keeps_poisonSpan
    | with_reducible apply keeps_evictL2 | with_reducible apply keeps_quietRange | with_reducible apply keeps_ite | split

theorem keeps_emptyTile {s00 s : State} (tile : Nat) (hk : Keeps s00 s) : Keeps s00 (emptyTile tile s) := by
  unfold emptyTile
  repeat' first
    | with_reducible assumption | with_reducible intro _ | with_reducible apply keeps_evictL2 | with_reducible apply keeps_foldl

theorem keeps_rehomeSteps {s00 s : State} (n : Nat) (inc : BitVec 32) (hk : Keeps s00 s) : Keeps s00 (rehomeSteps n inc s) := by
  unfold rehomeSteps
  repeat' first
    | with_reducible assumption | with_reducible apply keeps_odSet | dsimp only | refine keeps_mk ?_ rfl rfl rfl rfl rfl rfl rfl rfl rfl

theorem keeps_startRehome {s00 s : State} (n : Nat) (inc : BitVec 32) (hk : Keeps s00 s) : Keeps s00 (startRehome n inc s) := by
  unfold startRehome
  repeat' first
    | with_reducible assumption | with_reducible apply keeps_recordIn | with_reducible apply keeps_takeIncident
    | with_reducible apply keeps_beginRepair | with_reducible apply keeps_rehomeSteps | with_reducible apply keeps_ite

theorem keeps_takeDir {s00 s : State} (w line : Nat) (d : DirEntry) (hk : Keeps s00 s) : Keeps s00 (takeDir w line d s) := by
  unfold takeDir
  repeat' first
    | with_reducible assumption | with_reducible apply keeps_setSlice | with_reducible apply keeps_setDir
    | with_reducible apply keeps_dirReplace | with_reducible apply keeps_ite

theorem keeps_moveEntry {s00 s : State} (n i target : Nat) (unreadable : List Nat) (inc : BitVec 32) (hk : Keeps s00 s) : Keeps s00 (moveEntry n i target unreadable inc s) := by
  unfold moveEntry
  repeat' first
    | with_reducible assumption | with_reducible intro _ | with_reducible apply keeps_setSlice | with_reducible apply keeps_recordIn
    | with_reducible apply keeps_dropSector | with_reducible apply keeps_evictSector | with_reducible apply keeps_poisonMem
    | with_reducible apply keeps_takeDir | with_reducible apply keeps_ite | with_reducible apply keeps_foldl | dsimp only
    | refine keeps_mk ?_ rfl rfl rfl rfl rfl rfl rfl rfl rfl

theorem keeps_retireSlice {s00 s : State} (n : Nat) (hk : Keeps s00 s) : Keeps s00 (retireSlice n s) := by
  unfold retireSlice
  repeat' first
    | with_reducible assumption | with_reducible apply keeps_odSet | with_reducible apply keeps_setDom
    | with_reducible apply keeps_endRepair | split | dsimp only | refine keeps_mk ?_ rfl rfl rfl rfl rfl rfl rfl rfl rfl

theorem keeps_setPair {s00 s : State} (g : Nat) (x : GroomState) (hk : Keeps s00 s) : Keeps s00 (setPair g x s) := by
  unfold setPair
  refine keeps_congr hk rfl rfl rfl rfl rfl rfl ?_ rfl rfl
  dsimp only
  split
  · rfl
  · rfl

theorem keeps_pairFromRom {s00 s : State} (g : Nat) (hk : Keeps s00 s) : Keeps s00 (pairFromRom g s) := by
  unfold pairFromRom
  repeat' first
    | with_reducible assumption | with_reducible apply keeps_setRein

theorem keeps_failPair {s00 s0 : State} (g : Nat) (inc : BitVec 32) (hk : Keeps s00 s0) : Keeps s00 (failPair g inc s0) := by
  unfold failPair
  repeat' first
    | with_reducible assumption | with_reducible apply keeps_setRein | with_reducible apply keeps_recordIn
    | with_reducible apply keeps_takeIncident | with_reducible apply keeps_endTransfers | with_reducible apply keeps_deviceFatal
    | with_reducible apply keeps_setPair | with_reducible apply keeps_pairFromRom | with_reducible apply keeps_ite | dsimp only
    | refine keeps_mk ?_ rfl rfl rfl rfl rfl rfl rfl rfl rfl

theorem keeps_reportStopped {s00 s : State} (k : Nat) (hk : Keeps s00 s) : Keeps s00 (reportStopped k s) := by
  unfold reportStopped
  repeat' first
    | with_reducible assumption | with_reducible apply keeps_recordIn | with_reducible apply keeps_takeIncident
    | with_reducible apply keeps_containedAt | with_reducible apply keeps_strike | with_reducible apply keeps_startSubst
    | with_reducible apply keeps_ite

theorem keeps_reportSlice {s00 s : State} (n : Nat) (hk : Keeps s00 s) : Keeps s00 (reportSlice n s) := by
  unfold reportSlice
  repeat' first
    | with_reducible assumption | with_reducible apply keeps_recordIn | with_reducible apply keeps_takeIncident
    | with_reducible apply keeps_strike | with_reducible apply keeps_startRehome | with_reducible apply keeps_ite | dsimp only
    | refine keeps_mk ?_ rfl rfl rfl rfl rfl rfl rfl rfl rfl

theorem keeps_reportEngine {s00 s : State} (e n : Nat) (hk : Keeps s00 s) : Keeps s00 (reportEngine e n s) := by
  unfold reportEngine
  repeat' first
    | with_reducible assumption | with_reducible apply keeps_recordIn | with_reducible apply keeps_takeIncident
    | with_reducible apply keeps_retireEngine | with_reducible apply keeps_containedAt | with_reducible apply keeps_strike
    | with_reducible apply keeps_ite

theorem keeps_reportSpare {s00 s : State} (stop : Nat) (hk : Keeps s00 s) : Keeps s00 (reportSpare stop s) := by
  unfold reportSpare
  repeat' first
    | with_reducible assumption | with_reducible apply keeps_spareFailed | with_reducible apply keeps_abortRepair
    | with_reducible apply keeps_substSteps | with_reducible apply keeps_ite | split

theorem keeps_reportParity {s00 s : State} (k : Nat) (walkCache : Bool) (i : Nat) (hk : Keeps s00 s) : Keeps s00 (reportParity k walkCache i s) := by
  unfold reportParity
  repeat' first
    | with_reducible assumption | with_reducible apply keeps_odBump | with_reducible apply keeps_setCore
    | with_reducible apply keeps_record

theorem keeps_report {s00 s : State} (r : Report) (hk : Keeps s00 s) : Keeps s00 (report r s) := by
  unfold report
  repeat' first
    | with_reducible assumption | with_reducible apply keeps_recordIn | with_reducible apply keeps_record
    | with_reducible apply keeps_takeIncident | with_reducible apply keeps_startRetirement | with_reducible apply keeps_reportTackCache
    | with_reducible apply keeps_startHostLane | with_reducible apply keeps_containedAt | with_reducible apply keeps_strike
    | with_reducible apply keeps_startSubst | with_reducible apply keeps_startRehome | with_reducible apply keeps_reportStopped
    | with_reducible apply keeps_reportSlice | with_reducible apply keeps_reportEngine | with_reducible apply keeps_reportSpare
    | with_reducible apply keeps_reportParity | with_reducible apply keeps_ite | split | dsimp only
    | refine keeps_mk ?_ rfl rfl rfl rfl rfl rfl rfl rfl rfl

theorem keeps_execFaultReport {s00 s : State} (r : Report) (hk : Keeps s00 s) : Goes s00 (execFaultReport r s) := by
  unfold execFaultReport
  repeat' first
    | with_reducible assumption | with_reducible apply keeps_report | with_reducible apply goes_next | with_reducible apply goes_ite

theorem keeps_execContextSramUe {s00 s : State} (e : EngineId) (c : CtxId) (hk : Keeps s00 s) : Goes s00 (execContextSramUe e c s) := by
  unfold execContextSramUe
  repeat' first
    | with_reducible assumption | with_reducible apply keeps_setCtx | with_reducible apply keeps_takeIncident
    | with_reducible apply keeps_fenceCtx | with_reducible apply keeps_retireEngine | with_reducible apply keeps_containedAt
    | with_reducible apply goes_next | with_reducible apply goes_ite

theorem keeps_saveLog {s00 s : State}  (hk : Keeps s00 s) : Keeps s00 (saveLog s) := by
  unfold saveLog
  repeat' first
    | with_reducible assumption | dsimp only | refine keeps_mk ?_ rfl rfl rfl rfl rfl rfl rfl rfl rfl

theorem goes_minute {s00 t : State} (h : Keeps s00 t) : Goes s00 (.next { t with far := { t.far with
    saves := (t.far.saves + 1) % 60, minute := if (t.far.saves + 1) % 60 = 0 then [] else t.far.minute } }) :=
  goes_next (keeps_congr h rfl rfl rfl rfl rfl rfl rfl rfl rfl)

theorem keeps_execLogSave {s00 s : State} (hk : Keeps s00 s) : Goes s00 (execLogSave s) := goes_minute (keeps_saveLog hk)

theorem keeps_writeSubstitute {s00 s : State} (path : Path) (v : Nat) (hk : Keeps s00 s) : Keeps s00 (writeSubstitute path v s) := by
  unfold writeSubstitute
  repeat' first
    | with_reducible assumption | with_reducible apply keeps_pathSet | with_reducible apply keeps_strike
    | with_reducible apply keeps_startSubst | with_reducible apply keeps_ite

theorem keeps_execSubstituteRequest {s00 s : State} (path : Path) (k : CoreId) (hk : Keeps s00 s) : Goes s00 (execSubstituteRequest path k s) := by
  unfold execSubstituteRequest
  repeat' first
    | with_reducible assumption | with_reducible intro _ | with_reducible apply keeps_odWriteNat
    | with_reducible apply keeps_writeSubstitute | with_reducible apply goes_next

theorem keeps_substStep {s00 s : State} (st : SubstStep) (x : Subst) (hk : Keeps s00 s) : Keeps s00 (substStep st x s) := by
  unfold substStep
  repeat' first
    | with_reducible assumption | with_reducible intro _ | with_reducible apply keeps_setCore
    | with_reducible refine keeps_drainStores _ ?_ _ ‹_› | with_reducible apply keeps_spareFailed | with_reducible apply keeps_abortSubst
    | with_reducible apply keeps_substSteps | with_reducible apply keeps_modSubst | with_reducible apply keeps_finishSubst
    | with_reducible apply keeps_poisonLine | with_reducible apply keeps_emptyTile | with_reducible apply keeps_ite
    | with_reducible apply keeps_foldl | split | dsimp only

theorem keeps_execSubstitutionStepDone {s00 s : State} (st : SubstStep) (hk : Keeps s00 s) : Goes s00 (execSubstitutionStepDone st s) := by
  unfold execSubstitutionStepDone
  repeat' first
    | with_reducible assumption | with_reducible apply keeps_substStep | with_reducible apply goes_next | split

theorem keeps_execDlSubstExpiry {s00 s : State}  (hk : Keeps s00 s) : Goes s00 (execDlSubstExpiry s) := by
  unfold execDlSubstExpiry
  repeat' first
    | with_reducible assumption | with_reducible apply keeps_odBump | with_reducible apply keeps_recordIn
    | with_reducible apply keeps_abortSubst | with_reducible apply goes_next | split

theorem keeps_execRehomeEntryDone {s00 s : State} (unreadable : List (BitVec 52)) (hk : Keeps s00 s) : Goes s00 (execRehomeEntryDone unreadable s) := by
  unfold execRehomeEntryDone
  repeat' first
    | with_reducible assumption | with_reducible apply keeps_moveEntry | with_reducible apply keeps_retireSlice
    | with_reducible apply goes_next | with_reducible apply goes_ite | with_reducible apply keeps_ite | split | dsimp only
    | refine keeps_mk ?_ rfl rfl rfl rfl rfl rfl rfl rfl rfl

theorem keeps_startSteps {s00 s : State} (r : Repair) (hk : Keeps s00 s) : Keeps s00 (startSteps r s) := by
  unfold startSteps
  repeat' first
    | with_reducible assumption | with_reducible apply keeps_endRepair | with_reducible apply keeps_sparingSteps
    | with_reducible apply keeps_retirementSteps | with_reducible apply keeps_spprSteps | with_reducible apply keeps_startRetire
    | with_reducible apply keeps_hostLaneSteps | with_reducible apply keeps_substSteps | with_reducible apply keeps_rehomeSteps
    | with_reducible apply keeps_ite | split

theorem keeps_execRepairQueueAdvance {s00 s : State} (action : BitVec 8) (hk : Keeps s00 s) : Goes s00 (execRepairQueueAdvance action s) := by
  unfold execRepairQueueAdvance
  repeat' first
    | with_reducible assumption | with_reducible apply keeps_decideAgain | with_reducible apply keeps_startSteps
    | with_reducible apply goes_next | with_reducible apply goes_ite | split | dsimp only
    | refine keeps_mk ?_ rfl rfl rfl rfl rfl rfl rfl rfl rfl

theorem keeps_execGroomMiscompare {s00 s : State} (g : PairId) (hk : Keeps s00 s) : Goes s00 (execGroomMiscompare g s) := by
  unfold execGroomMiscompare
  repeat' first
    | with_reducible assumption | with_reducible apply keeps_failPair | with_reducible apply goes_next

theorem keeps_execDlGroomExpiry {s00 s : State}  (hk : Keeps s00 s) : Goes s00 (execDlGroomExpiry s) := by
  unfold execDlGroomExpiry
  repeat' first
    | with_reducible assumption | with_reducible apply keeps_odBump | with_reducible apply keeps_allocIncident
    | with_reducible apply keeps_recordIn | with_reducible apply keeps_failPair | with_reducible apply goes_next
    | with_reducible apply goes_ite | split

theorem keeps_restartWdog {s00 s : State}  (hk : Keeps s00 s) : Keeps s00 (restartWdog s) := by
  unfold restartWdog
  repeat' first
    | with_reducible assumption | with_reducible apply keeps_ite | dsimp only | refine keeps_mk ?_ rfl rfl rfl rfl rfl rfl rfl rfl rfl

theorem keeps_execStbWdogWrite {s00 s : State}  (hk : Keeps s00 s) : Goes s00 (execStbWdogWrite s) := by
  unfold execStbWdogWrite
  repeat' first
    | with_reducible assumption | with_reducible apply keeps_restartWdog | with_reducible apply goes_next

theorem keeps_retestPair {s00 s : State} (g : Nat) (pass : Bool) (hk : Keeps s00 s) : Keeps s00 (retestPair g pass s) := by
  unfold retestPair
  repeat' first
    | with_reducible assumption | with_reducible apply keeps_record | with_reducible apply keeps_setPair
    | with_reducible apply keeps_pairFromRom | with_reducible apply keeps_ite

theorem keeps_execGroomRetest {s00 s : State} (g : PairId) (pass : Bool) (hk : Keeps s00 s) : Goes s00 (execGroomRetest g pass s) := by
  unfold execGroomRetest
  repeat' first
    | with_reducible assumption | with_reducible apply keeps_retestPair | with_reducible apply goes_next

theorem keeps_dayPasses {s00 s : State}  (hk : Keeps s00 s) : Keeps s00 (dayPasses s) := by
  unfold dayPasses
  repeat' first
    | with_reducible assumption | dsimp only | refine keeps_mk ?_ rfl rfl rfl rfl rfl rfl rfl rfl rfl

theorem keeps_hourPasses {s00 s : State}  (hk : Keeps s00 s) : Keeps s00 (hourPasses s) := by
  unfold hourPasses
  repeat' first
    | with_reducible assumption | with_reducible intro _ | with_reducible apply keeps_setEngine | with_reducible apply keeps_dayPasses
    | with_reducible apply keeps_ite | with_reducible apply keeps_foldl | dsimp only
    | refine keeps_mk ?_ rfl rfl rfl rfl rfl rfl rfl rfl rfl

theorem keeps_execStandbySelftest {s00 s : State} (pass : Bool) (hk : Keeps s00 s) : Goes s00 (execStandbySelftest pass s) := by
  unfold execStandbySelftest
  repeat' first
    | with_reducible assumption | with_reducible apply keeps_failPair | with_reducible apply keeps_hourPasses
    | with_reducible apply goes_next | with_reducible apply keeps_ite | split

theorem keeps_setWalkRecovery {s00 s : State} (b : Bool) (hk : Keeps s00 s) : Keeps s00 (setWalkRecovery b s) := by
  unfold setWalkRecovery
  repeat' first
    | with_reducible assumption | with_reducible apply keeps_record | with_reducible apply keeps_evalStalls | dsimp only
    | refine keeps_mk ?_ rfl rfl rfl rfl rfl rfl rfl rfl rfl

theorem keeps_writeWalk {s00 s : State} (path : Path) (v : Nat) (hk : Keeps s00 s) : Keeps s00 (writeWalk path v s) := by
  unfold writeWalk
  repeat' first
    | with_reducible assumption | with_reducible apply keeps_pathSet | with_reducible apply keeps_setWalkRecovery
    | with_reducible apply keeps_ite

theorem keeps_execWalkRecoveryStart {s00 s : State} (path : Path) (hk : Keeps s00 s) : Goes s00 (execWalkRecoveryStart path s) := by
  unfold execWalkRecoveryStart
  repeat' first
    | with_reducible assumption | with_reducible intro _ | with_reducible apply keeps_odWriteNat | with_reducible apply keeps_writeWalk
    | with_reducible apply goes_next

theorem keeps_execWalkRecoveryEnd {s00 s : State} (path : Path) (hk : Keeps s00 s) : Goes s00 (execWalkRecoveryEnd path s) := by
  unfold execWalkRecoveryEnd
  repeat' first
    | with_reducible assumption | with_reducible intro _ | with_reducible apply keeps_odWriteNat | with_reducible apply keeps_writeWalk
    | with_reducible apply goes_next

theorem keeps_execWalkRecoveryTimeout {s00 s : State}  (hk : Keeps s00 s) : Goes s00 (execWalkRecoveryTimeout s) := by
  unfold execWalkRecoveryTimeout
  repeat' first
    | with_reducible assumption | with_reducible apply keeps_setWalkRecovery | with_reducible apply goes_next
    | with_reducible apply keeps_ite

theorem keeps_rRaise {α : Type} (x : RExc) : KeepsRun (rRaise x : RM α) := keepsRun_throw _

/-- What follows an exception does not run. -/
theorem keeps_rRaise_bind {α β : Type} (x : RExc) (f : α → RM β) : KeepsRun ((rRaise x : RM α) >>= f) := fun _ s h => by
  rw [run_bind]
  exact h

theorem keeps_rCheck (a : Nat) (fetch write upper : Bool) : KeepsRun (rCheck a fetch write upper) := by
  unfold rCheck
  repeat' first
    | with_reducible intro _ | with_reducible apply keeps_rRaise | with_reducible apply keepsRun_get_bind
    | with_reducible exact keepsAt_pure | with_reducible apply keepsAt_ite | split | with_reducible apply keepsAt_of

theorem keeps_rAccess (a size : Nat) (write : Bool) : KeepsRun (rAccess a size write) := by
  unfold rAccess
  repeat' first
    | with_reducible intro _ | with_reducible exact keeps_rRaise_bind _ _ | with_reducible apply keeps_rRaise
    | with_reducible apply keeps_rCheck | with_reducible apply keepsRun_get_bind | with_reducible apply keepsRun_bind
    | with_reducible apply keepsRun_ite | with_reducible exact keepsAt_pure | with_reducible apply keepsAt_ite
    | with_reducible apply keepsAt_get_bind | dsimp only | with_reducible apply keepsAt_of

theorem keeps_rWait (a size : Nat) : KeepsRun (rWait a size) := by
  unfold rWait
  repeat' first
    | with_reducible assumption | with_reducible intro _ | with_reducible apply keeps_wakePath | with_reducible apply keepsRun_bind
    | with_reducible exact keepsRun_throw _ | with_reducible apply keepsRun_modify | with_reducible apply keeps_ite
    | with_reducible apply keeps_foldl | split

theorem keeps_rTouch {s00 s : State} (a size : Nat) (hk : Keeps s00 s) : Keeps s00 (rTouch a size s) := by
  unfold rTouch
  repeat' first
    | with_reducible assumption | with_reducible intro _ | with_reducible apply keeps_lookup | with_reducible apply keeps_cleanLine
    | with_reducible apply keeps_ite | with_reducible apply keeps_foldl | split

theorem keeps_rLoad (a size : Nat) : KeepsRun (rLoad a size) := by
  have w : ∀ (β : Type) (f : Unit → RM β), KeepsRun (rWait a size >>= f) := fun β f s0 s h => by
    have := keeps_rWait a size s0 s h
    rw [run_bind]
    exact this
  have t : ∀ (β : Type) (s : State) (f : State → RM β), (∀ u, KeepsRun (f u)) → KeepsAt (set (rTouch a size s) >>= fun _ => get >>= f) s :=
    fun β s f hf => keepsAt_set_bind (fun _ h => keeps_rTouch a size h) (keepsAt_of (keepsRun_bind keepsRun_get hf))
  have m : ∀ (β : Type) (n : Nat) (v : β), KeepsRun ((modify (fun t => { t with free := t.free + n }) : RM PUnit) >>= fun _ => pure v) :=
    fun β n v => keepsRun_bind (keepsRun_modify (fun _ _ h => keeps_congr h rfl rfl rfl rfl rfl rfl rfl rfl rfl)) (fun _ => keepsRun_pure _)
  unfold rLoad
  refine keepsRun_bind (keeps_rAccess _ _ _) (fun _ => keepsRun_get_bind (fun s => ?_))
  split
  · exact keepsAt_of (keepsRun_bind (keepsRun_modify (fun _ _ h => keeps_took h)) (fun _ => keepsRun_pure _))
  · split
    · exact keepsAt_pure
    · dsimp only
      split
      · exact keepsAt_of (w _ _)
      · refine t _ _ _ (fun u => ?_)
        split
        · exact keeps_rRaise _
        · exact keepsRun_pure _
  · dsimp only
    split
    · exact keepsAt_of (m _ 64 _)
    · exact keepsAt_pure

theorem keeps_rPut {s00 s : State} (a : Nat) (bs : List Byte) (hk : Keeps s00 s) : Keeps s00 (rPut a bs s) := by
  unfold rPut
  repeat' first
    | with_reducible assumption | with_reducible intro _ | with_reducible apply keeps_deviceWrite
    | with_reducible apply keeps_dmaWriteBytes | with_reducible apply keeps_restartWdog | with_reducible apply keeps_ite
    | with_reducible apply keeps_foldl | split | refine keeps_mk ?_ rfl rfl rfl rfl rfl rfl rfl rfl rfl

theorem keeps_rStore (a size : Nat) (v : Word) : KeepsRun (rStore a size v) := by
  unfold rStore
  repeat' first
    | with_reducible assumption | with_reducible intro _ | with_reducible apply keeps_rAccess | with_reducible apply keeps_rWait
    | with_reducible apply keeps_rPut | with_reducible apply keepsRun_get_bind | with_reducible apply keepsRun_bind
    | with_reducible apply keepsRun_modify | with_reducible apply keepsAt_ite | dsimp only | with_reducible apply keepsAt_of

theorem keeps_rTake {s00 s : State} (g : Nat) (x : RExc) (epc enpc : Word) (hk : Keeps s00 s) : Keeps s00 (rTake g x epc enpc s) := by
  unfold rTake
  repeat' first
    | with_reducible assumption | with_reducible apply keeps_setRein | with_reducible apply keeps_failPair
    | with_reducible apply keeps_ite

theorem keeps_rOperand (i : Rein) (size : Nat) (r : ReinSt) : KeepsRun (rOperand i size r) := by
  unfold rOperand
  repeat' first
    | with_reducible apply keeps_rLoad | with_reducible exact keepsRun_pure _ | with_reducible apply keepsRun_ite

theorem keeps_rSet (g : Nat) (f : ReinSt → ReinSt) : KeepsRun (rSet g f) := by
  unfold rSet
  repeat' first
    | with_reducible assumption | with_reducible intro _ | with_reducible apply keeps_setRein | with_reducible apply keepsRun_modify

theorem keeps_rDelay (i : Rein) (n : Fin 3) (v : Word) : KeepsRun (rDelay i n v) := by
  unfold rDelay
  repeat' first
    | with_reducible apply keeps_rSet

theorem keeps_rFlags (i : Rein) (f : FlagSet) : KeepsRun (rFlags i f) := by
  unfold rFlags
  repeat' first
    | with_reducible apply keeps_rSet

theorem keeps_rRetire {s00 s : State} (g : Nat) (old : Option (Fin 3 × Word)) (n : RNext) (hk : Keeps s00 s) : Keeps s00 (rRetire g old n s) := by
  unfold rRetire
  repeat' first
    | with_reducible assumption | with_reducible apply keeps_setRein

theorem keeps_runRein {s00 s : State} (i : Rein) (legal branch : Bool) (uses : Uses) (body : ReinSt → RM RNext)
    (hf : ∀ x, KeepsRun (body x)) (hk : Keeps s00 s) : Goes s00 (runRein i legal branch uses body s) := by
  have run : ∀ (q : Bool) (r : ReinSt) (pc : Word), KeepsRun (do
      let _ ← rCheck pc.toNat true false false
      if q then rRaise { code := 1, eaddr := pc.toNat }
      body r : RM RNext) := fun q r pc => keepsRun_bind (keeps_rCheck _ _ _ _) (fun _ => by
    dsimp only
    split
    · exact keeps_rRaise_bind _ _
    · exact hf _)
  unfold runRein
  refine goes_ite (goes_next hk) (goes_ite (goes_next (keeps_rTake _ _ _ _ hk)) (goes_ite (goes_next hk) ?_))
  have k0 : Keeps s00 (s.setRein i.pair.val { s.reinOf i.pair.val with waiting := false, load := none }) := keeps_setRein _ _ hk
  have h := run (!legal || (match (s.reinOf i.pair.val).load with | some (n, _) => uses.contains n.val | none => false) ||
    (branch && (s.reinOf i.pair.val).slot)) { s.reinOf i.pair.val with load := none } (s.reinOf i.pair.val).pc s00 _ k0
  dsimp only at h ⊢
  split
  · rename_i q
    have h := keeps_snd q h
    exact goes_next (keeps_rRetire _ _ _ h)
  · exact goes_next (keeps_congr hk rfl rfl rfl rfl rfl rfl rfl rfl rfl)
  · rename_i q
    have h := keeps_snd q h
    exact goes_next (keeps_ite (keeps_rTake _ _ _ _ (keeps_setRein _ _ h)) (keeps_rTake _ _ _ _ (keeps_setRein _ _ h)))

theorem keeps_execReinNop {s00 s : State} (i : Rein) (hk : Keeps s00 s) : Goes s00 (execReinNop i s) := by
  unfold execReinNop
  repeat' first
    | with_reducible assumption | with_reducible intro _ | with_reducible apply keeps_runRein | with_reducible exact keepsRun_pure _

theorem keeps_rGet (i : Rein) (n : Fin 3) (size : Nat) (r : ReinSt) : KeepsRun (rGet i n size r) := by
  unfold rGet
  repeat' first
    | with_reducible intro _ | with_reducible apply keeps_rOperand | with_reducible apply keeps_rDelay
    | with_reducible apply keepsRun_bind | with_reducible exact keepsRun_pure _

theorem keeps_rPutReg (i : Rein) (n size : Nat) (r : ReinSt) : KeepsRun (rPutReg i n size r) := by
  unfold rPutReg
  repeat' first
    | with_reducible intro _ | with_reducible apply keeps_rStore | with_reducible apply keepsRun_bind
    | with_reducible exact keepsRun_pure _

theorem keeps_execReinGeta {s00 s : State} (i : Rein) (hk : Keeps s00 s) : Goes s00 (execReinGeta i s) := by
  unfold execReinGeta
  repeat' first
    | with_reducible assumption | with_reducible intro _ | with_reducible apply keeps_runRein | with_reducible apply keeps_rGet

theorem keeps_execReinGetx {s00 s : State} (i : Rein) (hk : Keeps s00 s) : Goes s00 (execReinGetx i s) := by
  unfold execReinGetx
  repeat' first
    | with_reducible assumption | with_reducible intro _ | with_reducible apply keeps_runRein | with_reducible apply keeps_rGet

theorem keeps_execReinGety {s00 s : State} (i : Rein) (hk : Keeps s00 s) : Goes s00 (execReinGety i s) := by
  unfold execReinGety
  repeat' first
    | with_reducible assumption | with_reducible intro _ | with_reducible apply keeps_runRein | with_reducible apply keeps_rGet

theorem keeps_execReinGetb {s00 s : State} (i : Rein) (hk : Keeps s00 s) : Goes s00 (execReinGetb i s) := by
  unfold execReinGetb
  repeat' first
    | with_reducible assumption | with_reducible intro _ | with_reducible apply keeps_runRein | with_reducible apply keeps_rGet

theorem keeps_execReinGetw {s00 s : State} (i : Rein) (hk : Keeps s00 s) : Goes s00 (execReinGetw i s) := by
  unfold execReinGetw
  repeat' first
    | with_reducible assumption | with_reducible intro _ | with_reducible apply keeps_runRein | with_reducible apply keeps_rGet

theorem keeps_execReinPuta {s00 s : State} (i : Rein) (hk : Keeps s00 s) : Goes s00 (execReinPuta i s) := by
  unfold execReinPuta
  repeat' first
    | with_reducible assumption | with_reducible intro _ | with_reducible apply keeps_runRein | with_reducible apply keeps_rPutReg

theorem keeps_execReinPutx {s00 s : State} (i : Rein) (hk : Keeps s00 s) : Goes s00 (execReinPutx i s) := by
  unfold execReinPutx
  repeat' first
    | with_reducible assumption | with_reducible intro _ | with_reducible apply keeps_runRein | with_reducible apply keeps_rPutReg

theorem keeps_execReinPuty {s00 s : State} (i : Rein) (hk : Keeps s00 s) : Goes s00 (execReinPuty i s) := by
  unfold execReinPuty
  repeat' first
    | with_reducible assumption | with_reducible intro _ | with_reducible apply keeps_runRein | with_reducible apply keeps_rPutReg

theorem keeps_execReinPutb {s00 s : State} (i : Rein) (hk : Keeps s00 s) : Goes s00 (execReinPutb i s) := by
  unfold execReinPutb
  repeat' first
    | with_reducible assumption | with_reducible intro _ | with_reducible apply keeps_runRein | with_reducible apply keeps_rPutReg

theorem keeps_execReinPutw {s00 s : State} (i : Rein) (hk : Keeps s00 s) : Goes s00 (execReinPutw i s) := by
  unfold execReinPutw
  repeat' first
    | with_reducible assumption | with_reducible intro _ | with_reducible apply keeps_runRein | with_reducible apply keeps_rPutReg

theorem keeps_rAlu (i : Rein) (op : Alu) (r : ReinSt) : KeepsRun (rAlu i op r) := by
  unfold rAlu
  repeat' first
    | with_reducible intro _ | with_reducible apply keeps_rOperand | with_reducible apply keeps_rSet | with_reducible apply keeps_rFlags
    | with_reducible apply keepsRun_bind | with_reducible exact keepsRun_pure _

theorem keeps_execReinAdd {s00 s : State} (i : Rein) (hk : Keeps s00 s) : Goes s00 (execReinAdd i s) := by
  unfold execReinAdd
  repeat' first
    | with_reducible assumption | with_reducible intro _ | with_reducible apply keeps_runRein | with_reducible apply keeps_rAlu

theorem keeps_execReinSub {s00 s : State} (i : Rein) (hk : Keeps s00 s) : Goes s00 (execReinSub i s) := by
  unfold execReinSub
  repeat' first
    | with_reducible assumption | with_reducible intro _ | with_reducible apply keeps_runRein | with_reducible apply keeps_rAlu

theorem keeps_execReinAnd {s00 s : State} (i : Rein) (hk : Keeps s00 s) : Goes s00 (execReinAnd i s) := by
  unfold execReinAnd
  repeat' first
    | with_reducible assumption | with_reducible intro _ | with_reducible apply keeps_runRein | with_reducible apply keeps_rAlu

theorem keeps_execReinOr {s00 s : State} (i : Rein) (hk : Keeps s00 s) : Goes s00 (execReinOr i s) := by
  unfold execReinOr
  repeat' first
    | with_reducible assumption | with_reducible intro _ | with_reducible apply keeps_runRein | with_reducible apply keeps_rAlu

theorem keeps_execReinXor {s00 s : State} (i : Rein) (hk : Keeps s00 s) : Goes s00 (execReinXor i s) := by
  unfold execReinXor
  repeat' first
    | with_reducible assumption | with_reducible intro _ | with_reducible apply keeps_runRein | with_reducible apply keeps_rAlu

theorem keeps_execReinCmp {s00 s : State} (i : Rein) (hk : Keeps s00 s) : Goes s00 (execReinCmp i s) := by
  unfold execReinCmp
  repeat' first
    | with_reducible assumption | with_reducible intro _ | with_reducible apply keeps_rOperand | with_reducible apply keeps_rFlags
    | with_reducible apply keeps_runRein | with_reducible apply keepsRun_bind | with_reducible exact keepsRun_pure _

theorem keeps_rShift (i : Rein) (op : Alu) (r : ReinSt) : KeepsRun (rShift i op r) := by
  unfold rShift
  repeat' first
    | with_reducible assumption | with_reducible intro _ | with_reducible apply keeps_took | with_reducible apply keeps_rSet
    | with_reducible apply keeps_rFlags | with_reducible apply keepsRun_get_bind | with_reducible apply keepsRun_bind
    | with_reducible exact keepsRun_pure _ | with_reducible apply keepsRun_modify | with_reducible apply keepsAt_ite | dsimp only
    | with_reducible apply keepsAt_of

theorem keeps_execReinShl {s00 s : State} (i : Rein) (hk : Keeps s00 s) : Goes s00 (execReinShl i s) := by
  unfold execReinShl
  repeat' first
    | with_reducible assumption | with_reducible intro _ | with_reducible apply keeps_runRein | with_reducible apply keeps_rShift

theorem keeps_execReinShr {s00 s : State} (i : Rein) (hk : Keeps s00 s) : Goes s00 (execReinShr i s) := by
  unfold execReinShr
  repeat' first
    | with_reducible assumption | with_reducible intro _ | with_reducible apply keeps_runRein | with_reducible apply keeps_rShift

theorem keeps_rStep (i : Rein) (n : Nat) (flags : Bool) (r : ReinSt) : KeepsRun (rStep i n flags r) := by
  unfold rStep
  repeat' first
    | with_reducible intro _ | with_reducible apply keeps_rSet | with_reducible apply keeps_rFlags | with_reducible apply keepsRun_bind
    | with_reducible exact keepsRun_pure _ | with_reducible apply keepsRun_ite

theorem keeps_execReinStepx {s00 s : State} (i : Rein) (hk : Keeps s00 s) : Goes s00 (execReinStepx i s) := by
  unfold execReinStepx
  repeat' first
    | with_reducible assumption | with_reducible intro _ | with_reducible apply keeps_runRein | with_reducible apply keeps_rStep

theorem keeps_execReinStepy {s00 s : State} (i : Rein) (hk : Keeps s00 s) : Goes s00 (execReinStepy i s) := by
  unfold execReinStepy
  repeat' first
    | with_reducible assumption | with_reducible intro _ | with_reducible apply keeps_runRein | with_reducible apply keeps_rStep

theorem keeps_execReinStepsp {s00 s : State} (i : Rein) (hk : Keeps s00 s) : Goes s00 (execReinStepsp i s) := by
  unfold execReinStepsp
  repeat' first
    | with_reducible assumption | with_reducible intro _ | with_reducible apply keeps_runRein | with_reducible apply keeps_rStep

theorem keeps_execReinCopy {s00 s : State} (i : Rein) (hk : Keeps s00 s) : Goes s00 (execReinCopy i s) := by
  unfold execReinCopy
  repeat' first
    | with_reducible assumption | with_reducible intro _ | with_reducible apply keeps_rSet | with_reducible apply keeps_runRein
    | with_reducible apply keepsRun_bind | with_reducible exact keepsRun_pure _

theorem keeps_execReinBcc {s00 s : State} (i : Rein) (hk : Keeps s00 s) : Goes s00 (execReinBcc i s) := by
  unfold execReinBcc
  repeat' first
    | with_reducible assumption | with_reducible intro _ | with_reducible apply keeps_runRein | with_reducible exact keepsRun_pure _

theorem keeps_execReinCalld {s00 s : State} (i : Rein) (hk : Keeps s00 s) : Goes s00 (execReinCalld i s) := by
  unfold execReinCalld
  repeat' first
    | with_reducible assumption | with_reducible intro _ | with_reducible apply keeps_rStore | with_reducible apply keeps_rSet
    | with_reducible apply keeps_runRein | with_reducible apply keepsRun_bind | with_reducible exact keepsRun_pure _

theorem keeps_execReinJumpa {s00 s : State} (i : Rein) (hk : Keeps s00 s) : Goes s00 (execReinJumpa i s) := by
  unfold execReinJumpa
  repeat' first
    | with_reducible assumption | with_reducible intro _ | with_reducible exact keeps_rRaise_bind _ _
    | with_reducible apply keeps_runRein | with_reducible exact keepsRun_pure _ | with_reducible apply keepsRun_ite

theorem keeps_execReinRetd {s00 s : State} (i : Rein) (hk : Keeps s00 s) : Goes s00 (execReinRetd i s) := by
  unfold execReinRetd
  repeat' first
    | with_reducible assumption | with_reducible intro _ | with_reducible apply keeps_rLoad | with_reducible apply keeps_rSet
    | with_reducible apply keeps_runRein | with_reducible apply keepsRun_bind | with_reducible exact keepsRun_pure _

theorem keeps_rCrRead {s00 s : State} (g n : Nat) (hk : Keeps s00 s) : Keeps s00 (rCrRead g n s).2 := by
  unfold rCrRead
  repeat' first
    | with_reducible assumption | with_reducible apply keeps_icAck | with_reducible apply keeps_icStatus | split

theorem keeps_rCrWrite {s00 s : State} (g n : Nat) (v : Word) (hk : Keeps s00 s) : Keeps s00 (rCrWrite g n v s).2 := by
  unfold rCrWrite
  repeat' first
    | with_reducible assumption | with_reducible apply keeps_setRein | with_reducible apply keeps_setPending
    | with_reducible apply keeps_icEoi | with_reducible apply keeps_icMode | split

theorem keeps_execReinMfcr {s00 s : State} (i : Rein) (hk : Keeps s00 s) : Goes s00 (execReinMfcr i s) := by
  unfold execReinMfcr
  repeat' first
    | with_reducible assumption | with_reducible intro _ | with_reducible apply keeps_rSet | with_reducible apply keeps_runRein
    | with_reducible apply keeps_rCrRead | with_reducible apply keepsRun_get_bind | with_reducible apply keepsRun_bind
    | with_reducible exact keepsRun_pure _ | with_reducible apply keepsAt_set_bind | with_reducible apply keepsAt_of

theorem keeps_execReinMtcr {s00 s : State} (i : Rein) (hk : Keeps s00 s) : Goes s00 (execReinMtcr i s) := by
  unfold execReinMtcr
  repeat' first
    | with_reducible assumption | with_reducible intro _ | with_reducible exact keeps_rRaise_bind _ _
    | with_reducible apply keeps_runRein | with_reducible apply keeps_rCrWrite | with_reducible apply keepsRun_get_bind
    | with_reducible apply keepsRun_ite | with_reducible exact keepsAt_pure | with_reducible apply keepsAt_ite
    | with_reducible apply keepsAt_set_bind | dsimp only | with_reducible apply keepsAt_of

theorem keeps_execReinSvc {s00 s : State} (i : Rein) (hk : Keeps s00 s) : Goes s00 (execReinSvc i s) := by
  unfold execReinSvc
  repeat' first
    | with_reducible assumption | with_reducible intro _ | with_reducible apply keeps_rRaise | with_reducible apply keeps_runRein

theorem keeps_execReinEret {s00 s : State} (i : Rein) (hk : Keeps s00 s) : Goes s00 (execReinEret i s) := by
  unfold execReinEret
  repeat' first
    | with_reducible assumption | with_reducible intro _ | with_reducible apply keeps_rSet | with_reducible apply keeps_runRein
    | with_reducible apply keepsRun_bind | with_reducible exact keepsRun_pure _

theorem keeps_execReinWfi {s00 s : State} (i : Rein) (hk : Keeps s00 s) : Goes s00 (execReinWfi i s) := by
  unfold execReinWfi
  repeat' first
    | with_reducible assumption | with_reducible intro _ | with_reducible apply keeps_rSet | with_reducible apply keeps_runRein
    | with_reducible apply keepsRun_bind | with_reducible exact keepsRun_pure _

theorem keeps_execReinFence {s00 s : State} (i : Rein) (hk : Keeps s00 s) : Goes s00 (execReinFence i s) := by
  unfold execReinFence
  repeat' first
    | with_reducible assumption | with_reducible intro _ | with_reducible apply keeps_runRein | with_reducible exact keepsRun_pure _

theorem keeps_execReinBrk {s00 s : State} (i : Rein) (hk : Keeps s00 s) : Goes s00 (execReinBrk i s) := by
  unfold execReinBrk
  repeat' first
    | with_reducible assumption | with_reducible intro _ | with_reducible apply keeps_rRaise | with_reducible apply keeps_runRein

theorem keeps_countRing {s00 s : State} (stop event : Nat) (hk : Keeps s00 s) : Keeps s00 (countRing stop event s) := by
  unfold countRing
  repeat' first
    | with_reducible assumption | with_reducible apply keeps_countUncore

theorem keeps_setLane {s00 s : State} (c : Nat) (x : LaneOut) (hk : Keeps s00 s) : Keeps s00 (State.setLane s c x) := by
  unfold State.setLane
  repeat' first
    | with_reducible assumption | dsimp only | refine keeps_mk ?_ rfl rfl rfl rfl rfl rfl rfl rfl rfl

theorem keeps_setRingQueue {s00 s : State} (stop q : Nat) (l : List QueuedPkt) (hk : Keeps s00 s) : Keeps s00 (State.setRingQueue s stop q l) := by
  unfold State.setRingQueue
  repeat' first
    | with_reducible assumption | dsimp only | refine keeps_mk ?_ rfl rfl rfl rfl rfl rfl rfl rfl rfl

theorem keeps_queuePacket {s00 s : State} (stop : Nat) (x : LocalSrc) (hk : Keeps s00 s) : Keeps s00 (queuePacket stop x s) := by
  unfold queuePacket
  repeat' first
    | with_reducible assumption | with_reducible apply keeps_setRingQueue | with_reducible apply keeps_ite | split

theorem keeps_takeCredit {s00 s : State} (h : Word) (hk : Keeps s00 s) : Keeps s00 (takeCredit h s) := by
  unfold takeCredit
  repeat' first
    | with_reducible assumption | with_reducible apply keeps_ite | split | dsimp only
    | refine keeps_mk ?_ rfl rfl rfl rfl rfl rfl rfl rfl rfl

theorem keeps_returnCredit {s00 s : State} (h : Word) (hk : Keeps s00 s) : Keeps s00 (returnCredit h s) := by
  unfold returnCredit
  repeat' first
    | with_reducible assumption | split | dsimp only | refine keeps_mk ?_ rfl rfl rfl rfl rfl rfl rfl rfl rfl

theorem keeps_arriveFlit {s00 s : State} (c : Nat) (f : RingFlit) (hk : Keeps s00 s) : Keeps s00 (arriveFlit c f s) := by
  unfold arriveFlit
  repeat' first
    | with_reducible assumption | with_reducible apply keeps_setLane | split | dsimp only

theorem keeps_ejectFlit {s00 s : State} (c : Nat) (f : RingFlit) (hk : Keeps s00 s) : Keeps s00 (ejectFlit c f s) := by
  unfold ejectFlit
  repeat' first
    | with_reducible assumption | with_reducible apply keeps_setLane | with_reducible apply keeps_returnCredit | split | dsimp only
    | refine keeps_mk ?_ rfl rfl rfl rfl rfl rfl rfl rfl rfl

theorem keeps_ejectAll {s00 s : State} (c : Nat) (hk : Keeps s00 s) : Keeps s00 (ejectAll c s) := by
  unfold ejectAll
  repeat' first
    | with_reducible assumption | with_reducible intro _ | with_reducible apply keeps_setLane | with_reducible apply keeps_ejectFlit
    | with_reducible apply keeps_foldl

theorem keeps_putFlit {s00 s : State} (c cycle : Nat) (flip : Bool) (f : RingFlit) (hk : Keeps s00 s) : Keeps s00 (putFlit c cycle flip f s) := by
  unfold putFlit
  repeat' first
    | with_reducible assumption | with_reducible apply keeps_odBump | with_reducible apply keeps_countRing
    | with_reducible apply keeps_setLane | with_reducible apply keeps_arriveFlit | with_reducible apply keeps_ite

theorem keeps_takeFlit {s00 s : State} (c : Nat) (x : Cand) (hk : Keeps s00 s) : Keeps s00 (takeFlit c x s) := by
  unfold takeFlit
  repeat' first
    | with_reducible assumption | with_reducible apply keeps_setLane | with_reducible apply keeps_setRingQueue
    | with_reducible apply keeps_takeCredit | split | dsimp only | refine keeps_mk ?_ rfl rfl rfl rfl rfl rfl rfl rfl rfl

theorem keeps_noteWinner {s00 s : State} (c : Nat) (x : Cand) (hk : Keeps s00 s) : Keeps s00 (noteWinner c x s) := by
  unfold noteWinner
  repeat' first
    | with_reducible assumption | with_reducible apply keeps_setLane

theorem keeps_injectStrict {s00 s : State} (c : Nat) (hk : Keeps s00 s) : Keeps s00 (injectStrict c s) := by
  unfold injectStrict
  repeat' first
    | with_reducible assumption | with_reducible apply keeps_setLane | with_reducible apply keeps_setRingQueue
    | with_reducible apply keeps_takeCredit | split | dsimp only | refine keeps_mk ?_ rfl rfl rfl rfl rfl rfl rfl rfl rfl

theorem keeps_joinLane {s00 s : State} (f : RingFlit) (hk : Keeps s00 s) : Keeps s00 (joinLane f s) := by
  unfold joinLane
  repeat' first
    | with_reducible assumption | with_reducible apply keeps_setLane | with_reducible apply keeps_ite | split

theorem keeps_moveFlits {s00 s : State} (c : Nat) (f : RingFlit → Option RingFlit) (hk : Keeps s00 s) : Keeps s00 (moveFlits c f s) := by
  unfold moveFlits
  repeat' first
    | with_reducible assumption | with_reducible intro _ | with_reducible apply keeps_setLane | with_reducible apply keeps_joinLane
    | with_reducible apply keeps_foldl | dsimp only | refine keeps_mk ?_ rfl rfl rfl rfl rfl rfl rfl rfl rfl

theorem keeps_cutFlits {s00 s : State} (c : Nat) (hk : Keeps s00 s) : Keeps s00 (cutFlits c s) := by
  unfold cutFlits
  repeat' first
    | with_reducible assumption | with_reducible apply keeps_moveFlits | dsimp only
    | refine keeps_mk ?_ rfl rfl rfl rfl rfl rfl rfl rfl rfl

theorem keeps_retireStop {s00 s : State} (n : Nat) (inc : BitVec 32) (hk : Keeps s00 s) : Keeps s00 (retireStop n inc s) := by
  unfold retireStop
  repeat' first
    | with_reducible assumption | with_reducible apply keeps_startRetirement | with_reducible apply keeps_retireEngine
    | with_reducible apply keeps_failLink | with_reducible apply keeps_spareFailed | with_reducible apply keeps_startSubst
    | with_reducible apply keeps_startRehome | split

theorem keeps_loseDetour {s00 s : State} (c : Nat) (hk : Keeps s00 s) : Keeps s00 (loseDetour c s) := by
  unfold loseDetour
  repeat' first
    | with_reducible assumption | with_reducible apply keeps_endRepair | dsimp only
    | refine keeps_mk ?_ rfl rfl rfl rfl rfl rfl rfl rfl rfl

theorem keeps_segFailed {s00 s : State} (c : Nat) (hk : Keeps s00 s) : Keeps s00 (segFailed c s) := by
  unfold segFailed
  repeat' first
    | with_reducible assumption | with_reducible intro _ | with_reducible apply keeps_recordIn | with_reducible apply keeps_takeIncident
    | with_reducible apply keeps_beginRepair | with_reducible apply keeps_strike | with_reducible apply keeps_cutFlits
    | with_reducible apply keeps_retireStop | with_reducible apply keeps_loseDetour | with_reducible apply keeps_ite
    | with_reducible apply keeps_foldl | split | dsimp only | refine keeps_mk ?_ rfl rfl rfl rfl rfl rfl rfl rfl rfl

theorem keeps_countSent {s00 s : State} (c : Nat) (f : RingFlit) (turn : Bool) (hk : Keeps s00 s) : Keeps s00 (countSent c f turn s) := by
  unfold countSent
  repeat' first
    | with_reducible assumption | with_reducible apply keeps_countRing | with_reducible apply keeps_ite

theorem keeps_ringSend {s00 s : State} (c cycle : Nat) (flip : Bool) (hk : Keeps s00 s) : Keeps s00 (ringSend c cycle flip s) := by
  unfold ringSend
  repeat' first
    | with_reducible assumption | with_reducible apply keeps_setLane | with_reducible apply keeps_putFlit
    | with_reducible apply keeps_takeFlit | with_reducible apply keeps_noteWinner | with_reducible apply keeps_countSent | split
    | dsimp only

theorem keeps_ejectAt {s00 s : State} (stop cycle : Nat) (hk : Keeps s00 s) : Keeps s00 (ejectAt stop cycle s) := by
  unfold ejectAt
  repeat' first
    | with_reducible assumption | with_reducible intro _ | with_reducible apply keeps_ejectAll | with_reducible apply keeps_ite
    | with_reducible apply keeps_foldl

theorem keeps_ringCycle {s00 s : State} (c cycle : Nat) (flip : Bool) (inj : List LocalSrc) (hk : Keeps s00 s) : Keeps s00 (ringCycle c cycle flip inj s) := by
  unfold ringCycle
  repeat' first
    | with_reducible assumption | with_reducible intro _ | with_reducible apply keeps_setLane | with_reducible apply keeps_queuePacket
    | with_reducible apply keeps_ejectAll | with_reducible apply keeps_injectStrict | with_reducible apply keeps_ringSend
    | with_reducible apply keeps_ejectAt | with_reducible apply keeps_ite | with_reducible apply keeps_foldl

theorem keeps_execRingArbitration {s00 s : State} (seg : BitVec 11) (cycle : RingTick) (inj : List LocalSrc) (hk : Keeps s00 s) : Goes s00 (execRingArbitration seg cycle inj s) := by
  unfold execRingArbitration
  repeat' first
    | with_reducible assumption | with_reducible apply keeps_ringCycle | with_reducible apply goes_next

theorem keeps_mapHead {s00 s : State} (p v : Nat) (g : RingFlit → RingFlit) (hk : Keeps s00 s) : Keeps s00 (mapHead p v g s) := by
  unfold mapHead
  repeat' first
    | with_reducible assumption | with_reducible apply keeps_setLane | split | dsimp only

theorem keeps_mapQueued {s00 s : State} (stop q : Nat) (g : QueuedPkt → QueuedPkt) (hk : Keeps s00 s) : Keeps s00 (mapQueued stop q g s) := by
  unfold mapQueued
  repeat' first
    | with_reducible assumption | with_reducible apply keeps_setRingQueue | split

theorem keeps_execPriorityAging {s00 s : State} (seg : BitVec 11) (k : HeadKind) (hk : Keeps s00 s) : Goes s00 (execPriorityAging seg k s) := by
  unfold execPriorityAging
  repeat' first
    | with_reducible assumption | with_reducible apply keeps_mapHead | with_reducible apply keeps_mapQueued
    | with_reducible apply goes_next | with_reducible apply keeps_ite | split | dsimp only

theorem keeps_promotion {s00 s : State} (c : Nat) (hk : Keeps s00 s) : Keeps s00 (promotion c s) := by
  unfold promotion
  repeat' first
    | with_reducible assumption | with_reducible apply keeps_odBump | with_reducible apply keeps_countRing

theorem keeps_execHeadPromotion {s00 s : State} (seg : BitVec 11) (k : HeadKind) (hk : Keeps s00 s) : Goes s00 (execHeadPromotion seg k s) := by
  unfold execHeadPromotion
  repeat' first
    | with_reducible assumption | with_reducible apply keeps_mapHead | with_reducible apply keeps_mapQueued
    | with_reducible apply keeps_promotion | with_reducible apply goes_next | with_reducible apply keeps_ite | split | dsimp only

theorem keeps_unsend {s00 s : State} (c : Nat) (f : RingFlit) (hk : Keeps s00 s) : ∀ u, unsend c f s = some u → Keeps s00 u := by
  intro u e
  simp only [unsend] at e
  repeat' split at e
  all_goals cases e
  all_goals exact keeps_setLane _ _ hk

/-- Taking flits back, one after the other. -/
theorem keeps_unsends {s00 s : State} (c : Nat) (l : List RingFlit) (hk : Keeps s00 s) :
    ∀ u, l.foldl (fun t f => t.bind (unsend c f)) (some s) = some u → Keeps s00 u := by
  have none_stays : ∀ (l : List RingFlit), l.foldl (fun t f => t.bind (unsend c f)) none = none := by
    intro l
    induction l with
    | nil => rfl
    | cons f r ih => exact ih
  induction l generalizing s with
  | nil =>
    intro u e
    cases e
    exact hk
  | cons f r ih =>
    intro u e
    rw [List.foldl_cons, Option.bind_some] at e
    cases d : unsend c f s with
    | none =>
      rw [d, none_stays] at e
      cases e
    | some t =>
      rw [d] at e
      exact ih (keeps_unsend c f hk t d) u e

theorem keeps_execFlitUeRetry {s00 s : State} (seg : FlitError) (hk : Keeps s00 s) : Goes s00 (execFlitUeRetry seg s) := by
  unfold execFlitUeRetry
  extract_lets c after l back
  split
  · rename_i h
    have k := keeps_unsends c _ hk _ h
    refine goes_ite (goes_next hk) (goes_next (keeps_ite ?_ ?_))
    · exact keeps_segFailed _ (keeps_odBump _ _ (keeps_setLane _ _ k))
    · exact keeps_odBump _ _ (keeps_setLane _ _ k)
  · exact goes_next hk

theorem keeps_takeDetour {s00 s : State} (c : Nat) (d : List Nat) (hk : Keeps s00 s) : Keeps s00 (takeDetour c d s) := by
  unfold takeDetour
  repeat' first
    | with_reducible assumption | with_reducible apply keeps_moveFlits | dsimp only
    | refine keeps_mk ?_ rfl rfl rfl rfl rfl rfl rfl rfl rfl

theorem keeps_execDetourInstalled {s00 s : State} (seg : BitVec 11) (hk : Keeps s00 s) : Goes s00 (execDetourInstalled seg s) := by
  unfold execDetourInstalled
  repeat' first
    | with_reducible assumption | with_reducible apply keeps_endRepair | with_reducible apply keeps_takeDetour
    | with_reducible apply goes_next | split | dsimp only

theorem keeps_execRingGroupsApply {s00 s : State} (n : StallId) (hk : Keeps s00 s) : Goes s00 (execRingGroupsApply n s) := by
  unfold execRingGroupsApply
  repeat' first
    | with_reducible assumption | with_reducible apply keeps_setStall | with_reducible apply keeps_evalStalls
    | with_reducible apply goes_next | with_reducible apply goes_ite

theorem keeps_writeSegFail {s00 s : State} (v : Nat) (hk : Keeps s00 s) : Keeps s00 (writeSegFail v s) := by
  unfold writeSegFail
  repeat' first
    | with_reducible assumption | with_reducible apply keeps_segFailed

theorem keeps_execSegmentFailTest {s00 s : State} (path : Path) (code : BitVec 16) (hk : Keeps s00 s) : Goes s00 (execSegmentFailTest path code s) := by
  unfold execSegmentFailTest
  repeat' first
    | with_reducible assumption | with_reducible intro _ | with_reducible apply keeps_odWriteNat
    | with_reducible apply keeps_writeSegFail | with_reducible apply goes_next

theorem keeps_resolved {s00 s : State} (stop : Nat) (hk : Keeps s00 s) : Keeps s00 (resolved stop s) := by
  unfold resolved
  repeat' first
    | with_reducible assumption | with_reducible apply keeps_odBump | with_reducible apply keeps_record

theorem keeps_execPacketToRetiredStop {s00 s : State} (k : LostPacket) (hk : Keeps s00 s) : Goes s00 (execPacketToRetiredStop k s) := by
  unfold execPacketToRetiredStop
  repeat' first
    | with_reducible assumption | with_reducible apply keeps_setSlice | with_reducible apply keeps_sendPkt
    | with_reducible refine keeps_takePkt _ _ _ ?_ _ _ ‹_› | with_reducible apply keeps_resolved | with_reducible apply goes_next
    | with_reducible apply goes_ite | split | dsimp only | refine keeps_mk ?_ rfl rfl rfl rfl rfl rfl rfl rfl rfl

end Sys2Proof.Machine
end

