-- ==== Sys2Proof/Laws/KeepsUpkeep.lean ====
section
/-! SUPPORT. Power, the side-band paths, bring-up and the test access port keep the queue and the invariant. -/

namespace Sys2Proof.Machine

theorem keeps_refuseEntry {s00 s : State} (x : PowerState) (code : Nat) (hk : Keeps s00 s) : Keeps s00 (refuseEntry x code s) := by
  unfold refuseEntry
  repeat' first
    | with_reducible assumption | with_reducible apply keeps_odSet | with_reducible apply keeps_odBump

theorem keeps_attemptEntry {s00 s : State} (x : PowerState) (enter : State → State) (hf : ∀ b t, Keeps b t → Keeps b (enter t)) (hk : Keeps s00 s) : Keeps s00 (attemptEntry x enter s) := by
  unfold attemptEntry
  repeat' first
    | with_reducible assumption | with_reducible apply keeps_odBump | with_reducible apply keeps_refuseEntry | with_reducible apply hf
    | split | dsimp only

theorem keeps_downDom {s00 s : State} (v : DomState) (d : Domain) (hk : Keeps s00 s) : Keeps s00 (downDom v d s) := by
  unfold downDom
  repeat' first
    | with_reducible assumption | with_reducible apply keeps_setDom | with_reducible apply keeps_ite

theorem keeps_dropSmallCaches {s00 s : State} (k : Nat) (hk : Keeps s00 s) : Keeps s00 (dropSmallCaches k s) := by
  unfold dropSmallCaches
  repeat' first
    | with_reducible assumption | with_reducible apply keeps_setCore

theorem keeps_retainTile {s00 s : State} (t : SliceId) (hk : Keeps s00 s) : Keeps s00 (retainTile s t) := by
  unfold retainTile
  repeat' first
    | with_reducible assumption | with_reducible intro _ | with_reducible apply keeps_setTile | with_reducible apply keeps_setDom
    | with_reducible refine keeps_drainStores _ ?_ _ ‹_› | with_reducible apply keeps_cleanTile
    | with_reducible apply keeps_dropSmallCaches | with_reducible apply keeps_getD | with_reducible apply keeps_ite | split

theorem keeps_retainChannel {s00 s : State} (c : ChanId) (hk : Keeps s00 s) : Keeps s00 (retainChannel s c) := by
  unfold retainChannel
  repeat' first
    | with_reducible assumption | with_reducible apply keeps_mapChan | with_reducible apply keeps_downDom

theorem keeps_sleepSteps {s00 s : State}  (hk : Keeps s00 s) : Keeps s00 (sleepSteps s) := by
  unfold sleepSteps
  repeat' first
    | with_reducible assumption | with_reducible intro _ | with_reducible apply keeps_downDom | with_reducible apply keeps_retainTile
    | with_reducible apply keeps_retainChannel | with_reducible apply keeps_foldl

theorem keeps_finishSleep {s00 s : State}  (hk : Keeps s00 s) : Keeps s00 (finishSleep s) := by
  unfold finishSleep
  repeat' first
    | with_reducible assumption | with_reducible apply keeps_setPower | with_reducible apply keeps_sleepSteps | dsimp only
    | refine keeps_mk ?_ rfl rfl rfl rfl rfl rfl rfl rfl rfl

theorem keeps_startSleep {s00 s : State}  (hk : Keeps s00 s) : Keeps s00 (startSleep s) := by
  unfold startSleep
  repeat' first
    | with_reducible assumption | with_reducible intro _ | with_reducible apply keeps_setLink | with_reducible apply keeps_sendCtl
    | with_reducible apply keeps_finishSleep | with_reducible apply keeps_ite | with_reducible apply keeps_foldl | dsimp only
    | refine keeps_mk ?_ rfl rfl rfl rfl rfl rfl rfl rfl rfl

theorem keeps_finishDeep {s00 s : State}  (hk : Keeps s00 s) : Keeps s00 (finishDeep s) := by
  unfold finishDeep
  repeat' first
    | with_reducible assumption | with_reducible intro _ | with_reducible apply keeps_setDom | with_reducible apply keeps_setPower
    | with_reducible apply keeps_storeBag | with_reducible apply keeps_saveLog | with_reducible apply keeps_foldl

theorem keeps_restart {s00 s : State} (flags : Nat) (hk : Keeps s00 s) : Keeps s00 (restart flags s) :=
  ⟨hk.1, fun _ => ⟨rfl, fun h => (by cases h), fun h => (by cases h), fun h => (by cases h)⟩⟩

theorem keeps_turnOff {s00 s : State} (flags : Nat) (hk : Keeps s00 s) : Keeps s00 (turnOff flags s) := by
  unfold turnOff
  repeat' first
    | with_reducible assumption | with_reducible apply keeps_restart | dsimp only
    | refine keeps_mk ?_ rfl rfl rfl rfl rfl rfl rfl rfl rfl

theorem keeps_finishOff {s00 s : State}  (hk : Keeps s00 s) : Keeps s00 (finishOff s) := by
  unfold finishOff
  repeat' first
    | with_reducible assumption | with_reducible apply keeps_setPower | with_reducible apply keeps_storeBag
    | with_reducible apply keeps_saveLog | with_reducible apply keeps_turnOff

theorem keeps_writePowerRequest {s00 s : State} (path : Path) (v : Nat) (hk : Keeps s00 s) : Keeps s00 (writePowerRequest path v s) := by
  unfold writePowerRequest
  repeat' first
    | with_reducible assumption | with_reducible apply keeps_odBump | with_reducible apply keeps_pathSet
    | with_reducible apply keeps_wakeDevice | with_reducible apply keeps_refuseEntry | with_reducible apply keeps_finishOff
    | with_reducible apply keeps_ite | split | dsimp only

theorem keeps_powerFails {s00 s : State}  (hk : Keeps s00 s) : Keeps s00 (powerFails s) := by
  unfold powerFails
  repeat' first
    | with_reducible assumption | with_reducible apply keeps_abortEntry | with_reducible apply keeps_raiseWith
    | with_reducible apply keeps_gaitEval | with_reducible apply keeps_ite | split | dsimp only
    | refine keeps_mk ?_ rfl rfl rfl rfl rfl rfl rfl rfl rfl

theorem keeps_powerFailsNow {s00 s : State}  (hk : Keeps s00 s) : Keeps s00 (powerFailsNow s) := by
  unfold powerFailsNow
  repeat' first
    | with_reducible assumption | with_reducible apply keeps_raiseWith | with_reducible apply keeps_gaitEval
    | with_reducible apply keeps_ite | dsimp only | refine keeps_mk ?_ rfl rfl rfl rfl rfl rfl rfl rfl rfl

theorem keeps_raiseDemotion {s00 s : State} (d : Demotion) (hk : Keeps s00 s) : Keeps s00 (raiseDemotion d s) := by
  unfold raiseDemotion
  repeat' first
    | with_reducible assumption | with_reducible apply keeps_raiseWith | split

theorem keeps_demote {s00 s : State} (d : Demotion) (hk : Keeps s00 s) : Keeps s00 (demote d s) := by
  unfold demote
  repeat' first
    | with_reducible assumption | with_reducible apply keeps_odBump | with_reducible apply keeps_raiseDemotion
    | with_reducible apply keeps_ite | split | dsimp only | refine keeps_mk ?_ rfl rfl rfl rfl rfl rfl rfl rfl rfl

theorem keeps_capStep {s00 s : State}  (hk : Keeps s00 s) : Keeps s00 (capStep s) := by
  unfold capStep
  repeat' first
    | with_reducible assumption | with_reducible apply keeps_odBump | with_reducible apply keeps_gaitEval
    | with_reducible apply keeps_raiseDemotion | with_reducible apply keeps_ite | split | dsimp only
    | refine keeps_mk ?_ rfl rfl rfl rfl rfl rfl rfl rfl rfl

theorem keeps_thermalTrip {s00 s : State}  (hk : Keeps s00 s) : Keeps s00 (thermalTrip s) := by
  unfold thermalTrip
  repeat' first
    | with_reducible assumption | with_reducible apply keeps_turnOff | dsimp only
    | refine keeps_mk ?_ rfl rfl rfl rfl rfl rfl rfl rfl rfl

theorem keeps_powerSample {s00 s : State} (watts : Nat) (temps : List Int) (hk : Keeps s00 s) : Keeps s00 (powerSample watts temps s) := by
  unfold powerSample
  repeat' first
    | with_reducible assumption | with_reducible apply keeps_odSet | with_reducible apply keeps_gaitEval
    | with_reducible apply keeps_demote | with_reducible apply keeps_capStep | with_reducible apply keeps_thermalTrip
    | with_reducible apply keeps_ite | split | dsimp only | refine keeps_mk ?_ rfl rfl rfl rfl rfl rfl rfl rfl rfl

theorem keeps_liftDemotion {s00 s : State} (d : Demotion) (hk : Keeps s00 s) : Keeps s00 (liftDemotion d s) := by
  unfold liftDemotion
  repeat' first
    | with_reducible assumption | with_reducible apply keeps_gaitEval | with_reducible apply keeps_ite | split | dsimp only
    | refine keeps_mk ?_ rfl rfl rfl rfl rfl rfl rfl rfl rfl

theorem keeps_linkQuiet {s00 s : State} (l : Nat) (hk : Keeps s00 s) : Keeps s00 (linkQuiet l s) := by
  unfold linkQuiet
  repeat' first
    | with_reducible assumption | with_reducible apply keeps_finishSleep | with_reducible apply keeps_ite | dsimp only
    | refine keeps_mk ?_ rfl rfl rfl rfl rfl rfl rfl rfl rfl

theorem keeps_execFlitSlot {s00 s : State} (l : LinkId) (hk : Keeps s00 s) : Goes s00 (execFlitSlot l s) := by
  unfold execFlitSlot
  repeat' first
    | with_reducible assumption | with_reducible apply keeps_setLink | with_reducible apply keeps_setLinkState
    | with_reducible apply keeps_flitSlot | with_reducible apply keeps_linkQuiet | with_reducible apply goes_next
    | with_reducible apply goes_ite

theorem keeps_quietAck {s00 s : State} (l : Nat) (hdr : BitVec 40) (hk : Keeps s00 s) : Keeps s00 (quietAck l hdr s) := by
  unfold quietAck
  repeat' first
    | with_reducible assumption | with_reducible apply keeps_setLink | with_reducible apply keeps_acceptCtl
    | with_reducible apply keeps_ite

theorem keeps_execQuietAck {s00 s : State} (l : LinkId) (hdr : BitVec 40) (hk : Keeps s00 s) : Goes s00 (execQuietAck l hdr s) := by
  unfold execQuietAck
  repeat' first
    | with_reducible assumption | with_reducible apply keeps_quietAck | with_reducible apply goes_next

theorem keeps_execQuietAckTimeout {s00 s : State} (l : LinkId) (hk : Keeps s00 s) : Goes s00 (execQuietAckTimeout l s) := by
  unfold execQuietAckTimeout
  repeat' first
    | with_reducible assumption | with_reducible intro _ | with_reducible apply keeps_setLink | with_reducible apply keeps_refuseEntry
    | with_reducible apply goes_next | with_reducible apply goes_ite | with_reducible apply keeps_foldl | dsimp only
    | refine keeps_mk ?_ rfl rfl rfl rfl rfl rfl rfl rfl rfl

theorem keeps_execIdleEntryTimeout {s00 s : State}  (hk : Keeps s00 s) : Goes s00 (execIdleEntryTimeout s) := by
  unfold execIdleEntryTimeout
  repeat' first
    | with_reducible assumption | with_reducible intro _ | with_reducible apply keeps_setPower | with_reducible apply keeps_attemptEntry
    | with_reducible apply goes_next | with_reducible apply goes_ite

theorem keeps_execSleepEntryTimeout {s00 s : State}  (hk : Keeps s00 s) : Goes s00 (execSleepEntryTimeout s) := by
  unfold execSleepEntryTimeout
  repeat' first
    | with_reducible assumption | with_reducible intro _ | with_reducible apply keeps_attemptEntry
    | with_reducible apply keeps_startSleep | with_reducible apply goes_next | with_reducible apply goes_ite

theorem keeps_execDeepEntryTimeout {s00 s : State}  (hk : Keeps s00 s) : Goes s00 (execDeepEntryTimeout s) := by
  unfold execDeepEntryTimeout
  repeat' first
    | with_reducible assumption | with_reducible intro _ | with_reducible apply keeps_attemptEntry
    | with_reducible apply keeps_finishDeep | with_reducible apply goes_next | with_reducible apply goes_ite

theorem keeps_execPowerRequestWake {s00 s : State} (path : Path) (hk : Keeps s00 s) : Goes s00 (execPowerRequestWake path s) := by
  unfold execPowerRequestWake
  repeat' first
    | with_reducible assumption | with_reducible intro _ | with_reducible apply keeps_odWriteNat
    | with_reducible apply keeps_writePowerRequest | with_reducible apply goes_next

theorem keeps_execPowerRequestOff {s00 s : State} (path : Path) (hk : Keeps s00 s) : Goes s00 (execPowerRequestOff path s) := by
  unfold execPowerRequestOff
  repeat' first
    | with_reducible assumption | with_reducible intro _ | with_reducible apply keeps_odWriteNat
    | with_reducible apply keeps_writePowerRequest | with_reducible apply goes_next

theorem keeps_execWakeNFall {s00 s : State}  (hk : Keeps s00 s) : Goes s00 (execWakeNFall s) := by
  unfold execWakeNFall
  repeat' first
    | with_reducible assumption | with_reducible apply keeps_wakeDevice | with_reducible apply goes_next | with_reducible apply goes_ite
    | dsimp only | refine keeps_mk ?_ rfl rfl rfl rfl rfl rfl rfl rfl rfl

theorem keeps_execWakeTimerExpiry {s00 s : State}  (hk : Keeps s00 s) : Goes s00 (execWakeTimerExpiry s) := by
  unfold execWakeTimerExpiry
  repeat' first
    | with_reducible assumption | with_reducible apply keeps_odSet | with_reducible apply keeps_wakeDevice
    | with_reducible apply goes_next | with_reducible apply goes_ite

theorem keeps_execHalterAddressMatch {s00 s : State} (addr : BitVec 7) (cmd : BitVec 8) (hk : Keeps s00 s) : Goes s00 (execHalterAddressMatch addr cmd s) := by
  unfold execHalterAddressMatch
  repeat' first
    | with_reducible assumption | with_reducible apply keeps_wakeDevice | with_reducible apply goes_next | with_reducible apply goes_ite
    | dsimp only | refine keeps_mk ?_ rfl rfl rfl rfl rfl rfl rfl rfl rfl

theorem keeps_execHalterHoldTimeout {s00 s : State}  (hk : Keeps s00 s) : Goes s00 (execHalterHoldTimeout s) := by
  unfold execHalterHoldTimeout
  repeat' first
    | with_reducible assumption | with_reducible apply goes_next | with_reducible apply goes_ite | dsimp only
    | refine keeps_mk ?_ rfl rfl rfl rfl rfl rfl rfl rfl rfl

theorem keeps_domainUp {s00 s : State} (d : Domain) (hk : Keeps s00 s) : Keeps s00 (domainUp d s) := by
  unfold domainUp
  repeat' first
    | with_reducible assumption | with_reducible apply keeps_applyNap | with_reducible apply keeps_mapChan
    | with_reducible apply keeps_releaseTlps | with_reducible apply keeps_ite | split

theorem keeps_execDomainWakeDone {s00 s : State} (d : Domain) (hk : Keeps s00 s) : Goes s00 (execDomainWakeDone d s) := by
  unfold execDomainWakeDone
  repeat' first
    | with_reducible assumption | with_reducible apply keeps_setDom | with_reducible apply keeps_applyNap
    | with_reducible apply keeps_domainUp | with_reducible apply goes_next | with_reducible apply goes_ite
    | with_reducible apply keeps_ite | split | dsimp only | refine keeps_mk ?_ rfl rfl rfl rfl rfl rfl rfl rfl rfl

theorem keeps_execDeepExitDone {s00 s : State}  (hk : Keeps s00 s) : Goes s00 (execDeepExitDone s) := by
  unfold execDeepExitDone
  repeat' first
    | with_reducible assumption | with_reducible apply keeps_odSet | with_reducible apply keeps_pumpCan
    | with_reducible apply keeps_setPower | with_reducible apply keeps_wakeDevice | with_reducible apply keeps_restartWdog
    | with_reducible apply keeps_powerFailsNow | with_reducible apply goes_next | split | dsimp only
    | refine keeps_mk ?_ rfl rfl rfl rfl rfl rfl rfl rfl rfl

theorem keeps_domainFailed {s00 s : State} (d : Domain) (hk : Keeps s00 s) : Keeps s00 (domainFailed d s) := by
  unfold domainFailed
  repeat' first
    | with_reducible assumption | with_reducible apply keeps_recordDeadline | with_reducible apply keeps_startRetirement
    | with_reducible apply keeps_retireEngine | with_reducible apply keeps_spareFailed | with_reducible apply keeps_strike
    | with_reducible apply keeps_startSubst | with_reducible apply keeps_startRehome | split

theorem keeps_execDlWakeExpiry {s00 s : State} (d : Domain) (hk : Keeps s00 s) : Goes s00 (execDlWakeExpiry d s) := by
  unfold execDlWakeExpiry
  repeat' first
    | with_reducible assumption | with_reducible apply keeps_odBump | with_reducible apply keeps_domainFailed
    | with_reducible apply goes_next | with_reducible apply goes_ite | dsimp only
    | refine keeps_mk ?_ rfl rfl rfl rfl rfl rfl rfl rfl rfl

theorem keeps_execGaitGrantEval {s00 s : State}  (hk : Keeps s00 s) : Goes s00 (execGaitGrantEval s) := by
  unfold execGaitGrantEval
  repeat' first
    | with_reducible assumption | with_reducible apply keeps_gaitEval | with_reducible apply goes_next | dsimp only
    | refine keeps_mk ?_ rfl rfl rfl rfl rfl rfl rfl rfl rfl

theorem keeps_execGaitVoltageRamped {s00 s : State} (c : CoreId) (hk : Keeps s00 s) : Goes s00 (execGaitVoltageRamped c s) := by
  unfold execGaitVoltageRamped
  repeat' first
    | with_reducible assumption | with_reducible apply keeps_setCorePwr | with_reducible apply goes_next | with_reducible apply keeps_ite

theorem keeps_execPowerThermalSample {s00 s : State} (watts : Nat) (temps : List Int) (hk : Keeps s00 s) : Goes s00 (execPowerThermalSample watts temps s) := by
  unfold execPowerThermalSample
  repeat' first
    | with_reducible assumption | with_reducible apply keeps_powerSample | with_reducible apply goes_next
    | with_reducible apply keeps_ite

theorem keeps_execDemotionLift {s00 s : State} (d : Demotion) (hk : Keeps s00 s) : Goes s00 (execDemotionLift d s) := by
  unfold execDemotionLift
  repeat' first
    | with_reducible assumption | with_reducible apply keeps_liftDemotion | with_reducible apply goes_next

theorem keeps_execDroopLevel1 {s00 s : State} (die : Fin 2) (hk : Keeps s00 s) : Goes s00 (execDroopLevel1 die s) := by
  unfold execDroopLevel1
  repeat' first
    | with_reducible assumption | with_reducible apply keeps_odBump | with_reducible apply keeps_gaitEval
    | with_reducible apply keeps_demote | with_reducible apply goes_next | with_reducible apply keeps_ite | dsimp only
    | refine keeps_mk ?_ rfl rfl rfl rfl rfl rfl rfl rfl rfl

theorem keeps_execClockStretchEnd {s00 s : State} (die : Fin 2) (hk : Keeps s00 s) : Goes s00 (execClockStretchEnd die s) := by
  unfold execClockStretchEnd
  repeat' first
    | with_reducible assumption | with_reducible apply goes_next | dsimp only | refine keeps_mk ?_ rfl rfl rfl rfl rfl rfl rfl rfl rfl

theorem keeps_execDroopLevel3 {s00 s : State}  (hk : Keeps s00 s) : Goes s00 (execDroopLevel3 s) := by
  unfold execDroopLevel3
  repeat' first
    | with_reducible assumption | with_reducible apply keeps_odBump | with_reducible apply keeps_powerFails
    | with_reducible apply goes_next

theorem keeps_execPwrfailAssert {s00 s : State}  (hk : Keeps s00 s) : Goes s00 (execPwrfailAssert s) := by
  unfold execPwrfailAssert
  repeat' first
    | with_reducible assumption | with_reducible apply keeps_odBump | with_reducible apply keeps_powerFails
    | with_reducible apply goes_next | with_reducible apply goes_ite

theorem keeps_execFlushSetWritten {s00 s : State}  (hk : Keeps s00 s) : Goes s00 (execFlushSetWritten s) := by
  unfold execFlushSetWritten
  repeat' first
    | with_reducible assumption | with_reducible apply keeps_storeBag | with_reducible apply keeps_saveLog
    | with_reducible apply goes_next | with_reducible apply goes_ite | dsimp only
    | refine keeps_mk ?_ rfl rfl rfl rfl rfl rfl rfl rfl rfl

theorem keeps_execDlFlushExpiry {s00 s : State}  (hk : Keeps s00 s) : Goes s00 (execDlFlushExpiry s) := by
  unfold execDlFlushExpiry
  repeat' first
    | with_reducible assumption | with_reducible apply keeps_odBump | with_reducible apply goes_next | with_reducible apply goes_ite
    | dsimp only | refine keeps_mk ?_ rfl rfl rfl rfl rfl rfl rfl rfl rfl

theorem keeps_execPwrfailDeassertStable {s00 s : State}  (hk : Keeps s00 s) : Goes s00 (execPwrfailDeassertStable s) := by
  unfold execPwrfailDeassertStable
  repeat' first
    | with_reducible assumption | with_reducible apply keeps_gaitEval | with_reducible apply goes_next | with_reducible apply goes_ite
    | dsimp only | refine keeps_mk ?_ rfl rfl rfl rfl rfl rfl rfl rfl rfl

theorem keeps_execBrownOut {s00 s : State}  (hk : Keeps s00 s) : Goes s00 (execBrownOut s) := by
  unfold execBrownOut
  repeat' first
    | with_reducible assumption | with_reducible apply keeps_restart | with_reducible apply goes_next

theorem keeps_shedEffect {s00 s : State} (r : Regulator) (again : Bool) (hk : Keeps s00 s) : Keeps s00 (shedEffect r again s) := by
  unfold shedEffect
  repeat' first
    | with_reducible assumption | with_reducible apply keeps_gaitEval | with_reducible apply keeps_retireEngine
    | with_reducible apply keeps_spareFailed | with_reducible apply keeps_strike | with_reducible apply keeps_startSubst
    | with_reducible apply keeps_ite | split

theorem keeps_shedPhase {s00 s : State} (r : Regulator) (hk : Keeps s00 s) : Keeps s00 (shedPhase r s) := by
  unfold shedPhase
  refine keeps_shedEffect _ _ (keeps_repairNow _ (keeps_congr hk rfl rfl rfl rfl rfl rfl rfl rfl ?_))
  dsimp only
  split
  · rfl
  · rfl

theorem keeps_execPhaseFault {s00 s : State} (r : Regulator) (hk : Keeps s00 s) : Goes s00 (execPhaseFault r s) := by
  unfold execPhaseFault
  repeat' first
    | with_reducible assumption | with_reducible apply keeps_shedPhase | with_reducible apply goes_next

theorem keeps_execRailOutOfTolerance {s00 s : State} (r : Rail) (hk : Keeps s00 s) : Goes s00 (execRailOutOfTolerance r s) := by
  unfold execRailOutOfTolerance
  repeat' first
    | with_reducible assumption | with_reducible apply keeps_record | with_reducible apply keeps_powerFails
    | with_reducible apply goes_next | with_reducible apply goes_ite

theorem keeps_writeLinkEnable {s00 s : State} (v : Nat) (hk : Keeps s00 s) : Keeps s00 (writeLinkEnable v s) := by
  unfold writeLinkEnable
  repeat' first
    | with_reducible assumption | with_reducible intro _ | with_reducible apply keeps_storeOd | with_reducible apply keeps_toDetect
    | with_reducible apply keeps_ite | with_reducible apply keeps_foldl

theorem keeps_writeLinkRequest {s00 s : State} (path : Path) (l v : Nat) (hk : Keeps s00 s) : Keeps s00 (writeLinkRequest path l v s) := by
  unfold writeLinkRequest
  repeat' first
    | with_reducible assumption | with_reducible intro _ | with_reducible apply keeps_setLink | with_reducible apply keeps_toDetect
    | with_reducible apply keeps_enterRetrain | with_reducible apply keeps_linkRequest | with_reducible apply keeps_acceptIdentity
    | with_reducible apply keeps_askFailback | split

theorem keeps_writePortAction {s00 s : State} (path : Path) (p v : Nat) (hk : Keeps s00 s) : Keeps s00 (writePortAction path p v s) := by
  unfold writePortAction
  repeat' first
    | with_reducible assumption | with_reducible apply keeps_acceptDrive | with_reducible apply keeps_retirePort
    | with_reducible apply keeps_reenablePort | split

theorem keeps_writeCtxControl {s00 s : State} (path : Path) (v : Nat) (hk : Keeps s00 s) : Keeps s00 (writeCtxControl path v s) := by
  unfold writeCtxControl
  repeat' first
    | with_reducible assumption | with_reducible apply keeps_createCtx | with_reducible apply keeps_freeSelected | split

theorem keeps_writeCommit {s00 s : State} (path : Path) (p : Nat) (hk : Keeps s00 s) : Keeps s00 (writeCommit path p s) := by
  unfold writeCommit
  repeat' first
    | with_reducible assumption | with_reducible apply keeps_windowResult | with_reducible apply keeps_ite | dsimp only
    | refine keeps_mk ?_ rfl rfl rfl rfl rfl rfl rfl rfl rfl

theorem keeps_writeRestore {s00 s : State} (path : Path) (v : Nat) (hk : Keeps s00 s) : Keeps s00 (writeRestore path v s) := by
  unfold writeRestore
  repeat' first
    | with_reducible assumption | with_reducible apply keeps_pathSet | with_reducible apply keeps_storeOd

theorem keeps_writeStallEntry {s00 s : State} (path : Path) (n sub v : Nat) (hk : Keeps s00 s) : Keeps s00 (writeStallEntry path n sub v s) := by
  unfold writeStallEntry
  repeat' first
    | with_reducible assumption | with_reducible apply keeps_storeOd | with_reducible apply keeps_storeStall
    | with_reducible apply keeps_createStall | with_reducible apply keeps_teardownStall | with_reducible apply keeps_writeCores
    | with_reducible apply keeps_writeGrant | with_reducible apply keeps_writeIoRoot | with_reducible apply keeps_writeVfBind
    | with_reducible apply keeps_writeBoot | with_reducible apply keeps_writeCoreMode | with_reducible apply keeps_writeRingGroups
    | with_reducible apply keeps_writeMemSlots | with_reducible apply keeps_writeLlcWays | with_reducible apply keeps_ite | split

theorem keeps_dictBehave {s00 s : State} (path : Path) (idx sub v : Nat) (hk : Keeps s00 s) : Keeps s00 (dictBehave path idx sub v s) := by
  unfold dictBehave
  repeat' first
    | with_reducible assumption | with_reducible intro _ | with_reducible apply keeps_took | with_reducible apply keeps_pathSet
    | with_reducible apply keeps_writeChanAction | with_reducible apply keeps_storeOd | with_reducible apply keeps_sendLtr
    | with_reducible apply keeps_writeShelf | with_reducible apply keeps_wakeRequest | with_reducible apply keeps_sleepRequest
    | with_reducible apply keeps_writeWindow | with_reducible apply keeps_writeRecord | with_reducible apply keeps_writeWayLock
    | with_reducible apply keeps_writeSource | with_reducible apply keeps_writeSubstitute | with_reducible apply keeps_writeWalk
    | with_reducible apply keeps_writeSegFail | with_reducible apply keeps_writePowerRequest | with_reducible apply keeps_writeLinkEnable
    | with_reducible apply keeps_writeLinkRequest | with_reducible apply keeps_writePortAction
    | with_reducible apply keeps_writeCtxControl | with_reducible apply keeps_writeCommit | with_reducible apply keeps_writeRestore
    | with_reducible apply keeps_writeStallEntry | with_reducible apply keeps_ite | with_reducible apply keeps_foldl

theorem keeps_answerMailbox {s00 s : State} (p fn : Nat) (write : Bool) (r : Res) (bytes : List Byte) (hk : Keeps s00 s) : Keeps s00 (answerMailbox p fn write r bytes s) := by
  unfold answerMailbox
  repeat' first
    | with_reducible assumption | with_reducible apply keeps_setFn | with_reducible apply keeps_sendMsix | with_reducible apply keeps_ite

theorem keeps_answerHalter {s00 s : State} (body : List Byte) (hk : Keeps s00 s) : Keeps s00 (answerHalter body s) := by
  unfold answerHalter
  repeat' first
    | with_reducible assumption | dsimp only | refine keeps_mk ?_ rfl rfl rfl rfl rfl rfl rfl rfl rfl

theorem keeps_deliverAnswer {s00 s : State} (a : Access) (node : Nat) (r : Res) (bytes : List Byte) (hk : Keeps s00 s) : Keeps s00 (deliverAnswer a node r bytes s) := by
  unfold deliverAnswer
  repeat' first
    | with_reducible assumption | with_reducible apply keeps_odBump | with_reducible apply keeps_wealarRespond
    | with_reducible apply keeps_answerMailbox | with_reducible apply keeps_answerHalter | with_reducible apply keeps_ite | split
    | dsimp only | refine keeps_mk ?_ rfl rfl rfl rfl rfl rfl rfl rfl rfl

theorem keeps_performAccess {s00 s : State} (a : Access) (hk : Keeps s00 s) : Keeps s00 (performAccess s a) := by
  unfold performAccess
  repeat' first
    | with_reducible assumption | with_reducible intro _ | with_reducible apply keeps_setAnswer | with_reducible apply keeps_took
    | with_reducible apply keeps_odWrite | with_reducible apply keeps_dictBehave | with_reducible apply keeps_deliverAnswer
    | with_reducible apply keeps_ite

theorem keeps_serializerSlot {s00 s : State}  (hk : Keeps s00 s) : Keeps s00 (serializerSlot s) := by
  unfold serializerSlot
  repeat' first
    | with_reducible assumption | with_reducible intro _ | with_reducible apply keeps_performAccess | with_reducible apply keeps_foldl
    | refine keeps_mk ?_ rfl rfl rfl rfl rfl rfl rfl rfl rfl

theorem keeps_queueAccess {s00 s : State} (a : Access) (hk : Keeps s00 s) : Keeps s00 (queueAccess a s) := by
  unfold queueAccess
  repeat' first
    | with_reducible assumption | with_reducible apply keeps_raise | refine keeps_mk ?_ rfl rfl rfl rfl rfl rfl rfl rfl rfl

theorem keeps_execDictWrite {s00 s : State} (path : Path) (idx : BitVec 16) (sub : BitVec 8) (data : List Byte) (hk : Keeps s00 s) : Goes s00 (execDictWrite path idx sub data s) := by
  unfold execDictWrite
  repeat' first
    | with_reducible assumption | with_reducible intro _ | with_reducible apply keeps_odWrite | with_reducible apply keeps_dictBehave
    | with_reducible apply goes_next

theorem keeps_canAccess {s00 s : State} (h : WealarHdr) (write : Bool) (idx sub : Nat) (data : List Byte) (hk : Keeps s00 s) : Keeps s00 (canAccess h write idx sub data s) := by
  unfold canAccess
  repeat' first
    | with_reducible assumption | with_reducible apply keeps_odBump | with_reducible apply keeps_wealarRespond
    | with_reducible apply keeps_queueAccess | with_reducible apply keeps_ite

theorem keeps_canIdentify {s00 s : State} (h : WealarHdr) (hk : Keeps s00 s) : Keeps s00 (canIdentify h s) := by
  unfold canIdentify
  repeat' first
    | with_reducible assumption | with_reducible apply keeps_wealarRespond

theorem keeps_canWake {s00 s : State} (h : WealarHdr) (hk : Keeps s00 s) : Keeps s00 (canWake h s) := by
  unfold canWake
  repeat' first
    | with_reducible assumption | with_reducible apply keeps_wakeDevice | with_reducible apply keeps_wealarRespond
    | with_reducible apply keeps_ite | dsimp only | refine keeps_mk ?_ rfl rfl rfl rfl rfl rfl rfl rfl rfl

theorem keeps_canAbort {s00 s : State} (h : WealarHdr) (tid : BitVec 6) (hk : Keeps s00 s) : Keeps s00 (canAbort h tid s) := by
  unfold canAbort
  repeat' first
    | with_reducible assumption | with_reducible apply keeps_wealarRespond | dsimp only
    | refine keeps_mk ?_ rfl rfl rfl rfl rfl rfl rfl rfl rfl

theorem keeps_canService {s00 s : State} (h : WealarHdr) (svc : Nat) (body : List Byte) (hk : Keeps s00 s) : Keeps s00 (canService h svc body s) := by
  unfold canService
  repeat' first
    | with_reducible assumption | with_reducible apply keeps_wealarRespond | with_reducible apply keeps_canAccess
    | with_reducible apply keeps_canIdentify | with_reducible apply keeps_canWake | with_reducible apply keeps_canAbort
    | with_reducible apply keeps_ite | split

theorem keeps_endTransfer {s00 s : State} (src : BitVec 7) (tid : BitVec 6) (hk : Keeps s00 s) : Keeps s00 (endTransfer src tid s) := by
  unfold endTransfer
  repeat' first
    | with_reducible assumption | with_reducible apply keeps_segmentError | split | dsimp only
    | refine keeps_mk ?_ rfl rfl rfl rfl rfl rfl rfl rfl rfl

theorem keeps_firstSegment {s00 s0 : State} (h : WealarHdr) (svc : BitVec 5) (data : List Byte) (hk : Keeps s00 s0) : Keeps s00 (firstSegment h svc data s0) := by
  unfold firstSegment
  repeat' first
    | with_reducible assumption | with_reducible apply keeps_segmentError | with_reducible apply keeps_endTransfer
    | with_reducible apply keeps_ite | dsimp only | refine keeps_mk ?_ rfl rfl rfl rfl rfl rfl rfl rfl rfl

theorem keeps_nextSegment {s00 s : State} (h : WealarHdr) (last : Bool) (data : List Byte) (hk : Keeps s00 s) : Keeps s00 (nextSegment h last data s) := by
  unfold nextSegment
  repeat' first
    | with_reducible assumption | with_reducible apply keeps_canService | with_reducible apply keeps_endTransfer
    | with_reducible apply keeps_ite | split | dsimp only | refine keeps_mk ?_ rfl rfl rfl rfl rfl rfl rfl rfl rfl

theorem keeps_takeFrame {s00 s : State} (f : BitVec 29 × List Byte) (hk : Keeps s00 s) : Keeps s00 (takeFrame s f) := by
  unfold takeFrame
  repeat' first
    | with_reducible assumption | with_reducible apply keeps_canService | with_reducible apply keeps_endTransfer
    | with_reducible apply keeps_firstSegment | with_reducible apply keeps_nextSegment | split

theorem keeps_frameReceived {s00 s : State}  (hk : Keeps s00 s) : Keeps s00 (frameReceived s) := by
  unfold frameReceived
  repeat' first
    | with_reducible assumption | with_reducible apply keeps_odBump | with_reducible apply keeps_raise

theorem keeps_keepFrame {s00 s : State} (id : BitVec 29) (data : List Byte) (hk : Keeps s00 s) : Keeps s00 (keepFrame id data s) := by
  unfold keepFrame
  repeat' first
    | with_reducible assumption | with_reducible apply keeps_frameReceived | with_reducible apply keeps_ite | dsimp only
    | refine keeps_mk ?_ rfl rfl rfl rfl rfl rfl rfl rfl rfl

theorem keeps_oneFrame {s00 s : State} (act : State → State) (hf : ∀ b t, Keeps b t → Keeps b (act t)) (hk : Keeps s00 s) : Keeps s00 (oneFrame act s) := by
  unfold oneFrame
  repeat' first
    | with_reducible assumption | with_reducible apply keeps_pumpCan | with_reducible apply keeps_wakeDevice
    | with_reducible apply keeps_frameReceived | with_reducible apply hf | with_reducible apply keeps_ite | dsimp only
    | refine keeps_mk ?_ rfl rfl rfl rfl rfl rfl rfl rfl rfl

theorem keeps_canSegment {s00 s : State} (id : BitVec 29) (data : List Byte) (brs : Bool) (hk : Keeps s00 s) : Keeps s00 (canSegment id data brs s) := by
  unfold canSegment
  repeat' first
    | with_reducible assumption | with_reducible intro _ | with_reducible apply keeps_took | with_reducible apply keeps_wakeDevice
    | with_reducible apply keeps_takeFrame | with_reducible apply keeps_keepFrame | with_reducible apply keeps_oneFrame
    | with_reducible apply keeps_ite

theorem keeps_execCanSegment {s00 s : State} (id : BitVec 29) (data : List Byte) (brs : Bool) (hk : Keeps s00 s) : Goes s00 (execCanSegment id data brs s) := by
  unfold execCanSegment
  repeat' first
    | with_reducible assumption | with_reducible apply keeps_canSegment | with_reducible apply goes_next

theorem keeps_execSegmentTimeout {s00 s : State} (src : BitVec 7) (tid : BitVec 6) (hk : Keeps s00 s) : Goes s00 (execSegmentTimeout src tid s) := by
  unfold execSegmentTimeout
  repeat' first
    | with_reducible assumption | with_reducible apply keeps_endTransfer | with_reducible apply goes_next

theorem keeps_execCanBusOff {s00 s : State}  (hk : Keeps s00 s) : Goes s00 (execCanBusOff s) := by
  unfold execCanBusOff
  repeat' first
    | with_reducible assumption | with_reducible apply keeps_odBump | with_reducible apply goes_next | dsimp only
    | refine keeps_mk ?_ rfl rfl rfl rfl rfl rfl rfl rfl rfl

theorem keeps_execWealarRead {s00 s : State} (h : WealarHdr) (idx : BitVec 16) (sub : BitVec 8) (hk : Keeps s00 s) : Goes s00 (execWealarRead h idx sub s) := by
  unfold execWealarRead
  repeat' first
    | with_reducible assumption | with_reducible intro _ | with_reducible apply keeps_canAccess | with_reducible apply keeps_oneFrame
    | with_reducible apply goes_next

theorem keeps_execWealarWrite {s00 s : State} (h : WealarHdr) (idx : BitVec 16) (sub : BitVec 8) (data : List Byte) (hk : Keeps s00 s) : Goes s00 (execWealarWrite h idx sub data s) := by
  unfold execWealarWrite
  repeat' first
    | with_reducible assumption | with_reducible intro _ | with_reducible apply keeps_canAccess | with_reducible apply keeps_oneFrame
    | with_reducible apply goes_next

theorem keeps_execWealarIdentify {s00 s : State} (h : WealarHdr) (hk : Keeps s00 s) : Goes s00 (execWealarIdentify h s) := by
  unfold execWealarIdentify
  repeat' first
    | with_reducible assumption | with_reducible intro _ | with_reducible apply keeps_canIdentify | with_reducible apply keeps_oneFrame
    | with_reducible apply goes_next

theorem keeps_execWealarWake {s00 s : State} (h : WealarHdr) (hk : Keeps s00 s) : Goes s00 (execWealarWake h s) := by
  unfold execWealarWake
  repeat' first
    | with_reducible assumption | with_reducible intro _ | with_reducible apply keeps_canWake | with_reducible apply keeps_frameReceived
    | with_reducible apply keeps_oneFrame | with_reducible apply goes_next | with_reducible apply keeps_ite

theorem keeps_execWealarAbort {s00 s : State} (h : WealarHdr) (tid : BitVec 6) (hk : Keeps s00 s) : Goes s00 (execWealarAbort h tid s) := by
  unfold execWealarAbort
  repeat' first
    | with_reducible assumption | with_reducible intro _ | with_reducible apply keeps_canAbort | with_reducible apply keeps_oneFrame
    | with_reducible apply goes_next

theorem keeps_execHeartbeat {s00 s : State}  (hk : Keeps s00 s) : Goes s00 (execHeartbeat s) := by
  unfold execHeartbeat
  repeat' first
    | with_reducible assumption | with_reducible apply keeps_took | with_reducible apply keeps_sendFrame | with_reducible apply goes_next
    | with_reducible apply goes_ite

theorem keeps_serveKept {s00 s : State}  (hk : Keeps s00 s) : Keeps s00 (serveKept s) := by
  unfold serveKept
  repeat' first
    | with_reducible assumption | with_reducible intro _ | with_reducible apply keeps_canWake | with_reducible apply keeps_takeFrame
    | with_reducible apply keeps_ite | with_reducible apply keeps_foldl | dsimp only
    | refine keeps_mk ?_ rfl rfl rfl rfl rfl rfl rfl rfl rfl

theorem keeps_execSerializerSlot {s00 s : State}  (hk : Keeps s00 s) : Goes s00 (execSerializerSlot s) := by
  unfold execSerializerSlot
  repeat' first
    | with_reducible assumption | with_reducible apply keeps_serializerSlot | with_reducible apply keeps_serveKept
    | with_reducible apply goes_next | with_reducible apply keeps_ite

theorem keeps_releaseScl {s00 s : State}  (hk : Keeps s00 s) : Keeps s00 (releaseScl s) := by
  unfold releaseScl
  repeat' first
    | with_reducible assumption | dsimp only | refine keeps_mk ?_ rfl rfl rfl rfl rfl rfl rfl rfl rfl

theorem keeps_halterService {s00 s : State} (svc : Nat) (tid : BitVec 8) (body : List Byte) (hk : Keeps s00 s) : Keeps s00 (halterService svc tid body s) := by
  unfold halterService
  repeat' first
    | with_reducible assumption | with_reducible apply keeps_wakeDevice | with_reducible apply keeps_answerHalter
    | with_reducible apply keeps_queueAccess | with_reducible apply keeps_ite | split

theorem keeps_execHalterBlockWrite {s00 s : State} (svc tid : BitVec 8) (body : List Byte) (pecOk : Bool) (hk : Keeps s00 s) : Goes s00 (execHalterBlockWrite svc tid body pecOk s) := by
  unfold execHalterBlockWrite
  repeat' first
    | with_reducible assumption | with_reducible apply keeps_odBump | with_reducible apply keeps_releaseScl
    | with_reducible apply keeps_halterService | with_reducible apply goes_next | with_reducible apply goes_ite | dsimp only
    | refine keeps_mk ?_ rfl rfl rfl rfl rfl rfl rfl rfl rfl

theorem keeps_execHalterBlockRead {s00 s : State}  (hk : Keeps s00 s) : Goes s00 (execHalterBlockRead s) := by
  unfold execHalterBlockRead
  repeat' first
    | with_reducible assumption | with_reducible apply keeps_emit | with_reducible apply keeps_releaseScl
    | with_reducible apply goes_next | with_reducible apply goes_ite | split | dsimp only
    | refine keeps_mk ?_ rfl rfl rfl rfl rfl rfl rfl rfl rfl

theorem keeps_execHalterReadByte {s00 s : State}  (hk : Keeps s00 s) : Goes s00 (execHalterReadByte s) := by
  unfold execHalterReadByte
  repeat' first
    | with_reducible assumption | with_reducible apply keeps_emit | with_reducible apply keeps_releaseScl
    | with_reducible apply goes_next | with_reducible apply goes_ite

theorem keeps_execSaddlebagStore {s00 s : State}  (hk : Keeps s00 s) : Goes s00 (execSaddlebagStore s) := by
  unfold execSaddlebagStore
  repeat' first
    | with_reducible assumption | with_reducible apply keeps_storeBag | with_reducible apply goes_next

theorem keeps_execRestoreCancel {s00 s : State} (path : Path) (hk : Keeps s00 s) : Goes s00 (execRestoreCancel path s) := by
  unfold execRestoreCancel
  repeat' first
    | with_reducible assumption | with_reducible intro _ | with_reducible apply keeps_odWriteNat
    | with_reducible apply keeps_writeRestore | with_reducible apply goes_next

theorem keeps_execRestoreConfig {s00 s : State} (path : Path) (hk : Keeps s00 s) : Goes s00 (execRestoreConfig path s) := by
  unfold execRestoreConfig
  repeat' first
    | with_reducible assumption | with_reducible intro _ | with_reducible apply keeps_odWriteNat
    | with_reducible apply keeps_writeRestore | with_reducible apply goes_next

theorem keeps_execRestoreAll {s00 s : State} (path : Path) (hk : Keeps s00 s) : Goes s00 (execRestoreAll path s) := by
  unfold execRestoreAll
  repeat' first
    | with_reducible assumption | with_reducible intro _ | with_reducible apply keeps_odWriteNat
    | with_reducible apply keeps_writeRestore | with_reducible apply goes_next

theorem keeps_toPhase {s00 s : State} (x : BootPhase) (hk : Keeps s00 s) : Keeps s00 (toPhase x s) := by
  refine ⟨hk.1, fun k => ?_⟩
  obtain ⟨h1, -, h3, h4⟩ := hk.2 k
  refine ⟨h1, fun h => ?_, h3, h4⟩
  simpa [toPhase] using h

theorem keeps_noteBootFault {s00 s : State} (code : Nat) (hk : Keeps s00 s) : Keeps s00 (noteBootFault code s) := by
  unfold noteBootFault
  repeat' first
    | with_reducible assumption | with_reducible apply keeps_odSet | with_reducible apply keeps_ite

theorem keeps_bootFault {s00 s : State} (code : Nat) (kind : BitVec 8) (res : Nat) (hk : Keeps s00 s) : Keeps s00 (bootFault code kind res s) := by
  unfold bootFault
  repeat' first
    | with_reducible assumption | with_reducible apply keeps_record | with_reducible apply keeps_noteBootFault

theorem keeps_fatalLinks {s00 s : State}  (hk : Keeps s00 s) : Keeps s00 (fatalLinks s) := by
  unfold fatalLinks
  repeat' first
    | with_reducible assumption | with_reducible intro _ | with_reducible apply keeps_aerUncorrected | with_reducible apply keeps_foldl

theorem keeps_bootHold {s00 s : State} (code : Nat) (kind : BitVec 8) (res : Nat) (hk : Keeps s00 s) : Keeps s00 (bootHold code kind res s) := by
  have h := keeps_record { kind := kind, cls := 3, resource := res } (keeps_noteBootFault code hk)
  unfold bootHold
  refine keeps_fatalLinks ⟨h.1, fun k => ?_⟩
  obtain ⟨h1, h2, h3, -⟩ := h.2 k
  exact ⟨h1, h2, fun f => ⟨(h3 f).1, rfl⟩, fun _ => rfl⟩

theorem keeps_endStbReset {s00 s : State} (patchOff sbDefault mfg : Bool) (hk : Keeps s00 s) :
    Keeps s00 (endStbReset patchOff sbDefault mfg s) := by
  unfold endStbReset
  refine keeps_pairFromRom _ (keeps_pairFromRom _ ⟨hk.1, fun k => ?_⟩)
  obtain ⟨h1, -, h3, -⟩ := hk.2 k
  exact ⟨h1, fun h => (by cases h), h3, fun h => (by cases h)⟩

theorem keeps_noteSelftest {s00 s : State} (g : Nat) (hk : Keeps s00 s) : Keeps s00 (noteSelftest g s) := by
  unfold noteSelftest
  repeat' first
    | with_reducible assumption | dsimp only | refine keeps_mk ?_ rfl rfl rfl rfl rfl rfl rfl rfl rfl

theorem keeps_selftestPass {s00 s0 : State} (g : Nat) (hk : Keeps s00 s0) : Keeps s00 (selftestPass g s0) := by
  unfold selftestPass
  repeat' first
    | with_reducible assumption | with_reducible apply keeps_setPair | with_reducible apply keeps_toPhase
    | with_reducible apply keeps_noteSelftest | with_reducible apply keeps_ite

theorem keeps_selftestFail {s00 s0 : State} (g : Nat) (hk : Keeps s00 s0) : Keeps s00 (selftestFail g s0) := by
  unfold selftestFail
  repeat' first
    | with_reducible assumption | with_reducible apply keeps_setRein | with_reducible apply keeps_takeIncident
    | with_reducible apply keeps_deviceFatal | with_reducible apply keeps_setPair | with_reducible apply keeps_noteBootFault
    | with_reducible apply keeps_bootFault | with_reducible apply keeps_noteSelftest | with_reducible apply keeps_ite | dsimp only
    | refine keeps_mk ?_ rfl rfl rfl rfl rfl rfl rfl rfl rfl

theorem keeps_dropSources {s00 s : State}  (hk : Keeps s00 s) : Keeps s00 (dropSources s) := by
  unfold dropSources
  repeat' first
    | with_reducible assumption | refine keeps_mk ?_ rfl rfl rfl rfl rfl rfl rfl rfl rfl

theorem keeps_applyRestore {s00 s : State}  (hk : Keeps s00 s) : Keeps s00 (applyRestore s) := by
  unfold applyRestore
  repeat' first
    | with_reducible assumption | with_reducible apply keeps_dropSources | with_reducible apply keeps_ite | dsimp only
    | refine keeps_mk ?_ rfl rfl rfl rfl rfl rfl rfl rfl rfl

theorem keeps_loadValues {s00 s : State} (copy : Option (Fin 2)) (hk : Keeps s00 s) : Keeps s00 (loadValues copy s) := by
  unfold loadValues
  repeat' first
    | with_reducible assumption | with_reducible apply keeps_bootFault | with_reducible apply keeps_dropSources
    | with_reducible apply keeps_applyRestore | split | dsimp only | refine keeps_mk ?_ rfl rfl rfl rfl rfl rfl rfl rfl rfl

theorem keeps_loadPatch {s00 s : State} (patch : Option (BitVec 32)) (hk : Keeps s00 s) : Keeps s00 (loadPatch patch s) := by
  unfold loadPatch
  repeat' first
    | with_reducible assumption | with_reducible apply keeps_bootFault | with_reducible apply keeps_ite | split | dsimp only
    | refine keeps_mk ?_ rfl rfl rfl rfl rfl rfl rfl rfl rfl

theorem keeps_lastRunRecords {s00 s : State}  (hk : Keeps s00 s) : Keeps s00 (lastRunRecords s) := by
  unfold lastRunRecords
  repeat' first
    | with_reducible assumption | with_reducible apply keeps_record | with_reducible apply keeps_recordDeadline
    | with_reducible apply keeps_ite | dsimp only | refine keeps_mk ?_ rfl rfl rfl rfl rfl rfl rfl rfl rfl

theorem keeps_latchSettings {s00 s : State}  (hk : Keeps s00 s) : Keeps s00 (latchSettings s) := by
  unfold latchSettings
  repeat' first
    | with_reducible assumption | with_reducible intro _ | with_reducible apply keeps_mapChan | with_reducible apply keeps_foldl
    | dsimp only | refine keeps_mk ?_ rfl rfl rfl rfl rfl rfl rfl rfl rfl

theorem keeps_loadAll {s00 s : State} (p : PatchLoad) (hk : Keeps s00 s) : Keeps s00 (loadAll p s) := by
  unfold loadAll
  repeat' first
    | with_reducible assumption | with_reducible apply keeps_odSet | with_reducible apply keeps_pumpCan
    | with_reducible apply keeps_restartWdog | with_reducible apply keeps_toPhase | with_reducible apply keeps_loadValues
    | with_reducible apply keeps_loadPatch | with_reducible apply keeps_lastRunRecords | with_reducible apply keeps_latchSettings
    | with_reducible apply keeps_ite

theorem keeps_failTetherLane {s00 s : State} (q lane : Nat) (bad : List CalUnit) (hk : Keeps s00 s) : Keeps s00 (failTetherLane q lane bad s) := by
  unfold failTetherLane
  repeat' first
    | with_reducible assumption | with_reducible apply keeps_storeOd | with_reducible apply keeps_setLinkState
    | with_reducible apply keeps_failQuadSpare | with_reducible apply keeps_mapSpare | with_reducible apply keeps_ite | split
    | dsimp only

theorem keeps_failHostLane {s00 s : State} (quad lane : Nat) (bad : List CalUnit) (hk : Keeps s00 s) : Keeps s00 (failHostLane quad lane bad s) := by
  unfold failHostLane
  repeat' first
    | with_reducible assumption | with_reducible apply keeps_odSet | with_reducible apply keeps_setCtl | with_reducible apply keeps_ite

theorem keeps_calFault {s00 s : State} (bad : List CalUnit) (u : CalUnit) (hk : Keeps s00 s) : Keeps s00 (calFault bad s u) := by
  unfold calFault
  repeat' first
    | with_reducible assumption | with_reducible apply keeps_shedPhase | with_reducible apply keeps_noteBootFault
    | with_reducible apply keeps_bootFault | with_reducible apply keeps_bootHold | with_reducible apply keeps_failTetherLane
    | with_reducible apply keeps_failHostLane | split

theorem keeps_calibrated {s00 s : State} (bad : List CalUnit) (hk : Keeps s00 s) : Keeps s00 (calibrated bad s) := by
  unfold calibrated
  repeat' first
    | with_reducible assumption | with_reducible intro _ | with_reducible apply keeps_toPhase | with_reducible apply keeps_calFault
    | with_reducible apply keeps_ite | with_reducible apply keeps_foldl

theorem keeps_settleChannel {s00 s : State} (c : Nat) (hk : Keeps s00 s) : Keeps s00 (settleChannel c s) := by
  unfold settleChannel
  repeat' first
    | with_reducible assumption | with_reducible apply keeps_setChannel | with_reducible apply keeps_ite | split | dsimp only
    | refine keeps_mk ?_ rfl rfl rfl rfl rfl rfl rfl rfl rfl

theorem keeps_powerMapped {s00 s : State}  (hk : Keeps s00 s) : Keeps s00 (powerMapped s) := by
  unfold powerMapped
  repeat' first
    | with_reducible assumption | with_reducible intro _ | with_reducible apply keeps_setDom | with_reducible apply keeps_setTileDom
    | with_reducible apply keeps_ite | with_reducible apply keeps_foldl

theorem keeps_failTile {s00 s : State} (t : SliceId) (hk : Keeps s00 s) : Keeps s00 (failTile s t) := by
  unfold failTile
  repeat' first
    | with_reducible assumption | with_reducible apply keeps_spareFailed | with_reducible apply keeps_setTileDom
    | with_reducible apply keeps_bootFault | split | dsimp only | refine keeps_mk ?_ rfl rfl rfl rfl rfl rfl rfl rfl rfl

theorem keeps_offHalves {s00 s : State}  (hk : Keeps s00 s) : Keeps s00 (offHalves s) := by
  unfold offHalves
  repeat' first
    | with_reducible assumption | with_reducible intro _ | with_reducible apply keeps_setCtl | with_reducible apply keeps_ite
    | with_reducible apply keeps_foldl

theorem keeps_mapsDone {s00 s : State} (failed : List SliceId) (hk : Keeps s00 s) : Keeps s00 (mapsDone failed s) := by
  unfold mapsDone
  repeat' first
    | with_reducible assumption | with_reducible intro _ | with_reducible apply keeps_toPhase | with_reducible apply keeps_settleChannel
    | with_reducible apply keeps_powerMapped | with_reducible apply keeps_failTile | with_reducible apply keeps_offHalves
    | with_reducible apply keeps_foldl

theorem keeps_adjustHeat {s00 s : State}  (hk : Keeps s00 s) : Keeps s00 (adjustHeat s) := by
  unfold adjustHeat
  repeat' first
    | with_reducible assumption | with_reducible apply keeps_took | dsimp only | refine keeps_mk ?_ rfl rfl rfl rfl rfl rfl rfl rfl rfl

theorem keeps_soakStep {s00 s : State} (temps : List Int) (hk : Keeps s00 s) : Keeps s00 (soakStep temps s) := by
  unfold soakStep
  repeat' first
    | with_reducible assumption | with_reducible apply keeps_odSet | with_reducible apply keeps_toPhase
    | with_reducible apply keeps_adjustHeat | with_reducible apply keeps_ite | split | dsimp only
    | refine keeps_mk ?_ rfl rfl rfl rfl rfl rfl rfl rfl rfl

theorem keeps_failTraining {s00 s : State} (c : ChanId) (hk : Keeps s00 s) : Keeps s00 (failTraining s c) := by
  unfold failTraining
  repeat' first
    | with_reducible assumption | with_reducible apply keeps_setDom | with_reducible apply keeps_mapChan
    | with_reducible apply keeps_bootFault | with_reducible apply keeps_bootHold | with_reducible apply keeps_ite | dsimp only
    | refine keeps_mk ?_ rfl rfl rfl rfl rfl rfl rfl rfl rfl

theorem keeps_failRank {s00 s : State} (x : ChanId × Fin 8) (hk : Keeps s00 s) : Keeps s00 (failRank s x) := by
  unfold failRank
  repeat' first
    | with_reducible assumption | with_reducible apply keeps_setChannel | with_reducible apply keeps_failTraining
    | with_reducible apply keeps_ite

theorem keeps_readSpd {s00 s : State} (spd : List DimmSpd) (hk : Keeps s00 s) : Keeps s00 (readSpd spd s) := by
  unfold readSpd
  repeat' first
    | with_reducible assumption | with_reducible intro _ | with_reducible apply keeps_mapChan | with_reducible apply keeps_foldl
    | dsimp only | refine keeps_mk ?_ rfl rfl rfl rfl rfl rfl rfl rfl rfl

theorem keeps_dramTrained {s00 s0 : State} (spd : List DimmSpd) (failed : List ChanId) (ranks : List (ChanId × Fin 8)) (hk : Keeps s00 s0) : Keeps s00 (dramTrained spd failed ranks s0) := by
  unfold dramTrained
  repeat' first
    | with_reducible assumption | with_reducible intro _ | with_reducible apply keeps_toPhase | with_reducible apply keeps_bootHold
    | with_reducible apply keeps_failTraining | with_reducible apply keeps_failRank | with_reducible apply keeps_readSpd
    | with_reducible apply keeps_ite | with_reducible apply keeps_foldl

theorem keeps_zeroTack {s00 s : State} (hk : Keeps s00 s) : Keeps s00 (zeroTack s) :=
  keeps_mem hk rfl (fun h => (wf_iff _).2 ⟨((wf_iff _).1 h).1, rfl, rfl⟩) rfl rfl rfl rfl rfl rfl rfl

theorem keeps_startLinks {s00 s : State}  (hk : Keeps s00 s) : Keeps s00 (startLinks s) := by
  unfold startLinks
  repeat' first
    | with_reducible assumption | with_reducible intro _ | with_reducible apply keeps_toDetect | with_reducible apply keeps_ite
    | with_reducible apply keeps_foldl

theorem keeps_startGroups {s00 s : State}  (hk : Keeps s00 s) : Keeps s00 (startGroups s) := by
  unfold startGroups
  repeat' first
    | with_reducible assumption | with_reducible intro _ | with_reducible apply keeps_setStall | with_reducible apply keeps_foldl

theorem keeps_startUnits {s00 s0 : State} (ms : BitVec 32) (hk : Keeps s00 s0) : Keeps s00 (startUnits ms s0) := by
  unfold startUnits
  repeat' first
    | with_reducible assumption | with_reducible apply keeps_odSet | with_reducible apply keeps_raiseWith
    | with_reducible apply keeps_placeContexts | with_reducible apply keeps_commitWindows | with_reducible apply keeps_startIdle
    | with_reducible apply keeps_toPhase | with_reducible apply keeps_startLinks | with_reducible apply keeps_startGroups | dsimp only
    | refine keeps_mk ?_ rfl rfl rfl rfl rfl rfl rfl rfl rfl

theorem keeps_execStbResetEnd {s00 s : State} (patchOff sbDefault mfg : Bool) (hk : Keeps s00 s) : Goes s00 (execStbResetEnd patchOff sbDefault mfg s) := by
  unfold execStbResetEnd
  repeat' first
    | with_reducible assumption | with_reducible apply keeps_endStbReset | with_reducible apply goes_next
    | with_reducible apply keeps_ite

theorem keeps_execRomSelftestPass {s00 s : State} (g : PairId) (hk : Keeps s00 s) : Goes s00 (execRomSelftestPass g s) := by
  unfold execRomSelftestPass
  repeat' first
    | with_reducible assumption | with_reducible apply keeps_selftestPass | with_reducible apply goes_next
    | with_reducible apply keeps_ite

theorem keeps_execRomSelftestFail {s00 s : State} (g : PairId) (hk : Keeps s00 s) : Goes s00 (execRomSelftestFail g s) := by
  unfold execRomSelftestFail
  repeat' first
    | with_reducible assumption | with_reducible apply keeps_selftestFail | with_reducible apply goes_next
    | with_reducible apply keeps_ite

theorem keeps_execLoadDone {s00 s : State} (p : PatchLoad) (hk : Keeps s00 s) : Goes s00 (execLoadDone p s) := by
  unfold execLoadDone
  repeat' first
    | with_reducible assumption | with_reducible apply keeps_loadAll | with_reducible apply goes_next | with_reducible apply keeps_ite

theorem keeps_execRailsStable {s00 s : State}  (hk : Keeps s00 s) : Goes s00 (execRailsStable s) := by
  unfold execRailsStable
  repeat' first
    | with_reducible assumption | with_reducible apply keeps_toPhase | with_reducible apply goes_next | with_reducible apply keeps_ite

theorem keeps_execRailsTimeout {s00 s : State}  (hk : Keeps s00 s) : Goes s00 (execRailsTimeout s) := by
  unfold execRailsTimeout
  repeat' first
    | with_reducible assumption | with_reducible apply keeps_bootFault | with_reducible apply goes_next | with_reducible apply keeps_ite

theorem keeps_execCalibrationDone {s00 s : State} (failed : List CalUnit) (hk : Keeps s00 s) : Goes s00 (execCalibrationDone failed s) := by
  unfold execCalibrationDone
  repeat' first
    | with_reducible assumption | with_reducible apply keeps_calibrated | with_reducible apply goes_next | with_reducible apply keeps_ite

theorem keeps_execMapsDone {s00 s : State} (failedTiles : List SliceId) (hk : Keeps s00 s) : Goes s00 (execMapsDone failedTiles s) := by
  unfold execMapsDone
  repeat' first
    | with_reducible assumption | with_reducible apply keeps_mapsDone | with_reducible apply goes_next | with_reducible apply keeps_ite

theorem keeps_execColdSoakAdjust {s00 s : State} (temps : List Int) (hk : Keeps s00 s) : Goes s00 (execColdSoakAdjust temps s) := by
  unfold execColdSoakAdjust
  repeat' first
    | with_reducible assumption | with_reducible apply keeps_soakStep | with_reducible apply goes_next | with_reducible apply keeps_ite

theorem keeps_execSoakLimitExpiry {s00 s : State}  (hk : Keeps s00 s) : Goes s00 (execSoakLimitExpiry s) := by
  unfold execSoakLimitExpiry
  repeat' first
    | with_reducible assumption | with_reducible apply keeps_bootFault | with_reducible apply goes_next | with_reducible apply keeps_ite

theorem keeps_execDramTrainingDone {s00 s : State} (spd : List DimmSpd) (failed : List ChanId) (failedRanks : List (ChanId × Fin 8)) (hk : Keeps s00 s) : Goes s00 (execDramTrainingDone spd failed failedRanks s) := by
  unfold execDramTrainingDone
  repeat' first
    | with_reducible assumption | with_reducible apply keeps_dramTrained | with_reducible apply goes_next
    | with_reducible apply keeps_ite

theorem keeps_execTackZeroDone {s00 s : State}  (hk : Keeps s00 s) : Goes s00 (execTackZeroDone s) := by
  unfold execTackZeroDone
  repeat' first
    | with_reducible assumption | with_reducible apply keeps_toPhase | with_reducible apply keeps_zeroTack
    | with_reducible apply goes_next | with_reducible apply keeps_ite

theorem keeps_execUnitsReady {s00 s : State} (ms : BitVec 32) (hk : Keeps s00 s) : Goes s00 (execUnitsReady ms s) := by
  unfold execUnitsReady
  repeat' first
    | with_reducible assumption | with_reducible apply keeps_startUnits | with_reducible apply goes_next | with_reducible apply keeps_ite

theorem keeps_execFatalStateReset {s00 s : State}  (hk : Keeps s00 s) : Goes s00 (execFatalStateReset s) := by
  unfold execFatalStateReset
  repeat' first
    | with_reducible assumption | with_reducible apply keeps_restart | with_reducible apply goes_next | with_reducible apply keeps_ite

theorem keeps_loseDram {s00 s : State} (hk : Keeps s00 s) : Keeps s00 (loseDram s) :=
  keeps_mem hk rfl (fun _ => rfl) rfl rfl rfl rfl rfl rfl rfl

theorem keeps_idleLinks {s00 s : State}  (hk : Keeps s00 s) : Keeps s00 (idleLinks s) := by
  unfold idleLinks
  repeat' first
    | with_reducible assumption | with_reducible intro _ | with_reducible apply keeps_setLinkState
    | with_reducible apply keeps_setHostLink | with_reducible apply keeps_ite | with_reducible apply keeps_foldl

theorem keeps_beginHold {s00 s : State} (hk : Keeps s00 s) : Keeps s00 (beginHold s) := by
  have h := keeps_idleLinks (keeps_record { kind := 0x10, cls := 0 } hk)
  unfold beginHold
  generalize idleLinks (record { kind := 0x10, cls := 0 } s) = t at h
  refine keeps_ite hk (keeps_loseDram ⟨h.1, fun k => ?_⟩)
  obtain ⟨h1, -, h3, h4⟩ := h.2 k
  exact ⟨h1, fun f => (by cases f), h3, h4⟩

theorem keeps_endHold {s00 s : State}  (hk : Keeps s00 s) : Keeps s00 (endHold s) := by
  unfold endHold
  repeat' first
    | with_reducible assumption | with_reducible apply keeps_storeBag | with_reducible apply keeps_restart
    | with_reducible apply keeps_ite

theorem keeps_loadTap {s00 s : State} (i : TapInstr) (hk : Keeps s00 s) : Keeps s00 (loadTap i s) := by
  unfold loadTap
  repeat' first
    | with_reducible assumption | with_reducible apply keeps_endHold | with_reducible apply keeps_ite | dsimp only
    | refine keeps_mk ?_ rfl rfl rfl rfl rfl rfl rfl rfl rfl

theorem keeps_refuseTap {s00 s : State}  (hk : Keeps s00 s) : Keeps s00 (refuseTap s) := by
  unfold refuseTap
  repeat' first
    | with_reducible assumption | with_reducible apply keeps_odBump | with_reducible apply keeps_loadTap | dsimp only
    | refine keeps_mk ?_ rfl rfl rfl rfl rfl rfl rfl rfl rfl

theorem keeps_functional {s00 s : State} (i : TapInstr) (act : State → State) (hf : ∀ b t, Keeps b t → Keeps b (act t)) (hk : Keeps s00 s) : Keeps s00 (functional i act s) := by
  unfold functional
  repeat' first
    | with_reducible assumption | with_reducible apply keeps_loadTap | with_reducible apply keeps_refuseTap | with_reducible apply hf
    | with_reducible apply keeps_ite

theorem keeps_scanCells {s00 s : State} (shift : Option (BitVec 1146)) (hk : Keeps s00 s) : Keeps s00 (scanCells shift s) := by
  unfold scanCells
  repeat' first
    | with_reducible assumption | split | dsimp only | refine keeps_mk ?_ rfl rfl rfl rfl rfl rfl rfl rfl rfl

theorem keeps_driveCells {s00 s : State} (shift : Option (BitVec 1146)) (hk : Keeps s00 s) : Keeps s00 (driveCells shift s) := by
  unfold driveCells
  repeat' first
    | with_reducible assumption | with_reducible apply keeps_beginHold | split | dsimp only
    | refine keeps_mk ?_ rfl rfl rfl rfl rfl rfl rfl rfl rfl

theorem keeps_clampCells {s00 s : State}  (hk : Keeps s00 s) : Keeps s00 (clampCells s) := by
  unfold clampCells
  repeat' first
    | with_reducible assumption | with_reducible apply keeps_beginHold | dsimp only
    | refine keeps_mk ?_ rfl rfl rfl rfl rfl rfl rfl rfl rfl

theorem keeps_floatCells {s00 s : State}  (hk : Keeps s00 s) : Keeps s00 (floatCells s) := by
  unfold floatCells
  repeat' first
    | with_reducible assumption | with_reducible apply keeps_beginHold | dsimp only
    | refine keeps_mk ?_ rfl rfl rfl rfl rfl rfl rfl rfl rfl

theorem keeps_setDr {s00 s : State} (v : BitVec 80) (hk : Keeps s00 s) : Keeps s00 (setDr v s) := by
  unfold setDr
  repeat' first
    | with_reducible assumption | dsimp only | refine keeps_mk ?_ rfl rfl rfl rfl rfl rfl rfl rfl rfl

theorem keeps_debugOd {s00 s : State} (d : BitVec 72) (hk : Keeps s00 s) : Keeps s00 (debugOd d s) := by
  unfold debugOd
  repeat' first
    | with_reducible assumption | with_reducible apply keeps_queueAccess | with_reducible apply keeps_ite
    | refine keeps_mk ?_ rfl rfl rfl rfl rfl rfl rfl rfl rfl

theorem keeps_haltCore {s00 s : State} (k : Nat) (hk : Keeps s00 s) : Keeps s00 (haltCore k s) := by
  unfold haltCore
  repeat' first
    | with_reducible assumption | with_reducible apply keeps_setCore | with_reducible apply keeps_walkEnter

theorem keeps_debugOp {s00 s : State} (k : Nat) (act : State → State) (hf : ∀ b t, Keeps b t → Keeps b (act t)) (hk : Keeps s00 s) : Keeps s00 (debugOp k act s) := by
  unfold debugOp
  repeat' first
    | with_reducible assumption | with_reducible intro _ | with_reducible apply keeps_functional | with_reducible apply hf
    | with_reducible apply keeps_ite

theorem keeps_writeTapOpen {s00 s : State} (b : Bool) (hk : Keeps s00 s) : Keeps s00 (writeTapOpen b s) := by
  unfold writeTapOpen
  repeat' first
    | with_reducible assumption | with_reducible apply keeps_odSet

theorem keeps_execTapOpenWrite {s00 s : State} (path : Path) (b : Bool) (hk : Keeps s00 s) : Goes s00 (execTapOpenWrite path b s) := by
  unfold execTapOpenWrite
  repeat' first
    | with_reducible assumption | with_reducible intro _ | with_reducible apply keeps_odWriteNat
    | with_reducible apply keeps_writeTapOpen | with_reducible apply goes_next

theorem keeps_execIdcode {s00 s : State}  (hk : Keeps s00 s) : Goes s00 (execIdcode s) := by
  unfold execIdcode
  repeat' first
    | with_reducible assumption | with_reducible apply keeps_loadTap | with_reducible apply keeps_setDr | with_reducible apply goes_next

theorem keeps_execSamplePreload {s00 s : State} (shift : Option (BitVec 1146)) (hk : Keeps s00 s) : Goes s00 (execSamplePreload shift s) := by
  unfold execSamplePreload
  repeat' first
    | with_reducible assumption | with_reducible apply keeps_loadTap | with_reducible apply keeps_scanCells
    | with_reducible apply goes_next

theorem keeps_execExtest {s00 s : State} (shift : Option (BitVec 1146)) (hk : Keeps s00 s) : Goes s00 (execExtest shift s) := by
  unfold execExtest
  repeat' first
    | with_reducible assumption | with_reducible intro _ | with_reducible apply keeps_functional | with_reducible apply keeps_driveCells
    | with_reducible apply goes_next

theorem keeps_execClamp {s00 s : State}  (hk : Keeps s00 s) : Goes s00 (execClamp s) := by
  unfold execClamp
  repeat' first
    | with_reducible assumption | with_reducible intro _ | with_reducible apply keeps_functional | with_reducible apply keeps_clampCells
    | with_reducible apply goes_next

theorem keeps_execHighz {s00 s : State}  (hk : Keeps s00 s) : Goes s00 (execHighz s) := by
  unfold execHighz
  repeat' first
    | with_reducible assumption | with_reducible intro _ | with_reducible apply keeps_functional | with_reducible apply keeps_floatCells
    | with_reducible apply goes_next

theorem keeps_execDbgStatus {s00 s : State}  (hk : Keeps s00 s) : Goes s00 (execDbgStatus s) := by
  unfold execDbgStatus
  repeat' first
    | with_reducible assumption | with_reducible apply keeps_loadTap | with_reducible apply keeps_setDr | with_reducible apply goes_next
    | dsimp only | refine keeps_mk ?_ rfl rfl rfl rfl rfl rfl rfl rfl rfl

theorem keeps_execDbgOd {s00 s : State} (d : BitVec 72) (hk : Keeps s00 s) : Goes s00 (execDbgOd d s) := by
  unfold execDbgOd
  repeat' first
    | with_reducible assumption | with_reducible intro _ | with_reducible apply keeps_functional | with_reducible apply keeps_debugOd
    | with_reducible apply goes_next

theorem keeps_execDbgCoreHalt {s00 s : State} (k : BitVec 8) (hk : Keeps s00 s) : Goes s00 (execDbgCoreHalt k s) := by
  unfold execDbgCoreHalt
  repeat' first
    | with_reducible assumption | with_reducible intro _ | with_reducible apply keeps_haltCore | with_reducible apply keeps_debugOp
    | with_reducible apply goes_next

theorem keeps_execDbgCoreSingleStep {s00 s : State} (k : BitVec 8) (hk : Keeps s00 s) : Goes s00 (execDbgCoreSingleStep k s) := by
  unfold execDbgCoreSingleStep
  repeat' first
    | with_reducible assumption | with_reducible intro _ | with_reducible apply keeps_setCore | with_reducible apply keeps_debugOp
    | with_reducible apply goes_next | with_reducible apply keeps_ite

theorem keeps_execDbgCoreResume {s00 s : State} (k : BitVec 8) (hk : Keeps s00 s) : Goes s00 (execDbgCoreResume k s) := by
  unfold execDbgCoreResume
  repeat' first
    | with_reducible assumption | with_reducible intro _ | with_reducible apply keeps_setCore | with_reducible apply keeps_walkExit
    | with_reducible apply keeps_debugOp | with_reducible apply goes_next | with_reducible apply keeps_ite

theorem keeps_execDbgCoreReadRegister {s00 s : State} (k : BitVec 8) (r : BitVec 16) (hk : Keeps s00 s) : Goes s00 (execDbgCoreReadRegister k r s) := by
  unfold execDbgCoreReadRegister
  repeat' first
    | with_reducible assumption | with_reducible intro _ | with_reducible apply keeps_setDr | with_reducible apply keeps_debugOp
    | with_reducible apply goes_next | with_reducible apply keeps_ite

theorem keeps_execDbgCoreWriteRegister {s00 s : State} (k : BitVec 8) (r : BitVec 16) (v : Word) (hk : Keeps s00 s) : Goes s00 (execDbgCoreWriteRegister k r v s) := by
  unfold execDbgCoreWriteRegister
  repeat' first
    | with_reducible assumption | with_reducible intro _ | with_reducible apply keeps_setArch | with_reducible apply keeps_debugOp
    | with_reducible apply goes_next | with_reducible apply keeps_ite

theorem keeps_execBypass {s00 s : State}  (hk : Keeps s00 s) : Goes s00 (execBypass s) := by
  unfold execBypass
  repeat' first
    | with_reducible assumption | with_reducible apply keeps_loadTap | with_reducible apply keeps_setDr | with_reducible apply goes_next

theorem keeps_execTestHoldEnd {s00 s : State}  (hk : Keeps s00 s) : Goes s00 (execTestHoldEnd s) := by
  unfold execTestHoldEnd
  repeat' first
    | with_reducible assumption | with_reducible apply keeps_loadTap | with_reducible apply goes_next | with_reducible apply keeps_ite

end Sys2Proof.Machine
end

