-- ==== Sys2Proof/Machine/Fec.lean ====
section
/-! DEFINITION. FEC framing of a Tether link (R88, R97, R98): how the flits of a superframe become message bits, RS(544,514) codewords and
the PAM4 symbols of the two logical lanes. The commands of the links carry flits as this coding delivers them: whole, or lying in an
uncorrectable codeword (log entry 153). -/

namespace Sys2Proof.Machine

/-! ## The symbol field of IEEE 802.3 Clause 91 -/

/-- Multiply by x modulo x¹⁰ + x³ + 1. -/
def gf10Double (a : BitVec 10) : BitVec 10 := (a <<< 1) ^^^ (if a.getLsbD 9 then 0x009 else 0)

/-- The product of two symbols. -/
def gf10Mul (a b : BitVec 10) : BitVec 10 :=
  ((List.range 10).foldl (fun (r : BitVec 10 × BitVec 10) i => (if b.getLsbD i then r.1 ^^^ r.2 else r.1, gf10Double r.2)) (0, a)).1

/-- α^j, where α is x. -/
def gf10Pow (j : Nat) : BitVec 10 := (List.range j).foldl (fun a _ => gf10Double a) 1

/-- Multiply a polynomial, highest power first, by (x − c). -/
def polyTimes (p : List (BitVec 10)) (c : BitVec 10) : List (BitVec 10) :=
  List.zipWith (fun a b => a ^^^ b) (p ++ [0]) (0 :: p.map (gf10Mul c))

/-- The generator polynomial, the product of (x − α^j) for j = 0 to 29, highest power first. -/
def rsGenerator : List (BitVec 10) := (List.range 30).foldl (fun p j => polyTimes p (gf10Pow j)) [1]

/-! ## Codewords (R97) -/

/-- One message symbol goes into the register of 30 parity symbols. -/
def rsStep (gen : List (BitVec 10)) (r : List (BitVec 10)) (m : BitVec 10) : List (BitVec 10) :=
  let f := m ^^^ r.headD 0
  List.zipWith (fun a g => a ^^^ gf10Mul f g) (r.drop 1 ++ [0]) (gen.drop 1)

/-- A codeword: 514 message symbols with their 30 parity symbols after them. -/
def rsEncode (msg : List (BitVec 10)) : List (BitVec 10) :=
  msg ++ msg.foldl (rsStep rsGenerator) (List.replicate 30 0)

/-- The value of a word at α^j. -/
def rsSyndrome (w : List (BitVec 10)) (j : Nat) : BitVec 10 :=
  let a := gf10Pow j
  w.foldl (fun r x => gf10Mul r a ^^^ x) 0

/-- Whether a received word is a codeword. -/
def isCodeword (w : List (BitVec 10)) : Bool := (List.range 30).all (fun j => decide (rsSyndrome w j = 0))

/-! ## Correction (R97) -/

/-- The inverse of a symbol that is not zero: its power 1022. -/
def gf10Inv (a : BitVec 10) : BitVec 10 :=
  ((List.range 9).foldl (fun (x : BitVec 10 × BitVec 10) _ => let q := gf10Mul x.2 x.2; (gf10Mul x.1 q, q)) (1, a)).1

/-- The value of a polynomial, lowest power first. -/
def polyAt (p : List (BitVec 10)) (x : BitVec 10) : BitVec 10 := p.foldr (fun c r => c ^^^ gf10Mul r x) 0

/-- The error locator as it is found from the syndromes one after another (Berlekamp and Massey): the locator, that of the last change of
length moved up since, its discrepancy, and the number of errors. -/
structure Locator where
  now : List (BitVec 10)
  old : List (BitVec 10)
  disc : BitVec 10
  errors : Nat
deriving DecidableEq, Repr

/-- One syndrome more. -/
def locatorStep (synd : List (BitVec 10)) (x : Locator) (n : Nat) : Locator :=
  let d := ((List.range (x.errors + 1)).map (fun i => gf10Mul (x.now.getD i 0) (synd.getD (n - i) 0))).foldl (· ^^^ ·) 0
  let up := 0 :: x.old
  if d = 0 then { x with old := up }
  else
    let f := gf10Mul d (gf10Inv x.disc)
    let next := (List.range 31).map (fun i => x.now.getD i 0 ^^^ gf10Mul f (up.getD i 0))
    if 2 * x.errors ≤ n then { now := next, old := x.now, disc := d, errors := n + 1 - x.errors }
    else { x with now := next, old := up }

/-- The error locator of a word. -/
def locatorOf (synd : List (BitVec 10)) : Locator :=
  (List.range 30).foldl (locatorStep synd) { now := [1], old := [1], disc := 1, errors := 0 }

/-- The error at a place whose power of α is `x`, found by Forney's rule; zero where the locator is not zero there. -/
def errorAt (synd : List (BitVec 10)) (loc : List (BitVec 10)) (x : BitVec 10) : BitVec 10 :=
  let y := gf10Inv x
  if polyAt loc y ≠ 0 then 0
  else
    let omega := (List.range 30).map (fun n => ((List.range (n + 1)).map (fun i => gf10Mul (loc.getD i 0) (synd.getD (n - i) 0))).foldl (· ^^^ ·) 0)
    let slope := (List.range 31).map (fun i => if i % 2 = 0 then loc.getD (i + 1) 0 else 0)
    gf10Mul x (gf10Mul (polyAt omega y) (gf10Inv (polyAt slope y)))

/-- A received word corrected: the codeword within 15 symbols of it, or none, when it is uncorrectable. Symbol i belongs to the power 543 − i. -/
def rsDecode (w : List (BitVec 10)) : Option (List (BitVec 10)) :=
  if isCodeword w then some w
  else
    let synd := (List.range 30).map (rsSyndrome w)
    let loc := locatorOf synd
    let fixed := (w.zipIdx).map (fun x => x.1 ^^^ errorAt synd loc.now (gf10Pow (543 - x.2)))
    if loc.errors ≤ 15 ∧ isCodeword fixed then some fixed else none

/-- The symbols that a correction changed on a logical lane, which its error ratio counts (R119). -/
def correctedOn (lane : Nat) (w fixed : List (BitVec 10)) : Nat :=
  (((List.zip w fixed).zipIdx).filter (fun x => decide (x.2 % 2 = lane) && decide (x.1.1 ≠ x.1.2))).length

/-! ## Message bits -/

/-- One step of the additive PRBS31 (x³¹ + x²⁸ + 1): the bit it gives and what it holds then. R97 gives the polynomial and the seed, not the
stage that is XORed; the bit fed back, so that the first bit after all ones is zero, is the model's choice (log entry 186). -/
def prbs31 (r : BitVec 31) : Bool × BitVec 31 :=
  let b := r.getLsbD 30 != r.getLsbD 27
  (b, (r <<< 1) ||| (if b then 1 else 0))

/-- The bits of a superframe, scrambled; the generator holds all ones at the first. -/
def scramble (bits : List Bool) : List Bool :=
  (bits.foldl (fun (a : List Bool × BitVec 31) b => let x := prbs31 a.2; ((b != x.1) :: a.1, x.2)) ([], 0x7FFFFFFF)).1.reverse

/-- The bytes of a flit: header, payload and CRC, its most significant byte first (R101, R103). -/
def wireBytes (f : Flit) : List Byte := flitBytes f.hdr f.payload ++ (bytesOfNat 3 f.crc.toNat).reverse

/-- Bytes as bits, each least significant bit first. -/
def messageBits (bytes : List Byte) : List Bool := bytes.flatMap (fun b => (List.range 8).map (fun i => b.getLsbD i))

/-- A message symbol, the first bit being its bit 0. -/
def symbolOf (bits : List Bool) : BitVec 10 := BitVec.ofNat 10 (bits.zipIdx.foldl (fun n x => n + (if x.1 then 2 ^ x.2 else 0)) 0)

/-- Codeword `w` of a superframe of 1,285 flits, which has 256 of them (R98). -/
def superframeCodeword (flits : List Flit) (w : Nat) : List (BitVec 10) :=
  let bits := scramble (messageBits (flits.flatMap wireBytes))
  rsEncode ((List.range 514).map (fun i => symbolOf ((bits.drop (5140 * w + 10 * i)).take 10)))

/-- The symbols' bits, each symbol's bit 0 first. -/
def symbolBits (l : List (BitVec 10)) : List Bool := l.flatMap (fun x => (List.range 10).map (fun i => x.getLsbD i))

/-- Bits as bytes, each least significant bit first. -/
def bitsBytes (n : Nat) (bits : List Bool) : List Byte :=
  (List.range n).map (fun i => BitVec.ofNat 8 (symbolOf ((bits.drop (8 * i)).take 8)).toNat)

/-- A flit from its 128 bytes; `ucw` says that some bit of it lay in an uncorrectable codeword. -/
def flitOfBytes (bytes : List Byte) (ucw : Bool) : Flit :=
  { hdr := BitVec.ofNat 40 (natOfBytes (bytes.take 5)), payload := (bytes.drop 5).take 120,
    crc := BitVec.ofNat 24 (natOfBytes ((bytes.drop 125).take 3).reverse), ucw := ucw }

/-- The flits that the 256 received words of a superframe give (R97, R98): each word is corrected, the message bits are unscrambled, and flit k
is bits 1,024k to 1,024k + 1,023, bad where a word of those bits, of which each word has 5,140, is uncorrectable. -/
def superframeFlits (words : List (List (BitVec 10))) : List Flit :=
  let got := words.map (fun w => (w, rsDecode w))
  let bits := scramble (got.flatMap (fun x => symbolBits ((x.2.getD x.1).take 514)))
  (List.range 1285).map (fun k =>
    let ws := (List.range 256).filter (fun w => decide (5140 * w < 1024 * (k + 1)) && decide (1024 * k < 5140 * (w + 1)))
    flitOfBytes (bitsBytes 128 ((bits.drop (1024 * k)).take 1024)) (ws.any (fun w => decide ((got.getD w ([], none)).2 = none))))

/-! ## Lanes -/

/-- The level of a bit pair, whose first bit is the less significant (R88): 00, 01, 11, 10 are 0, 1, 2, 3. -/
def grayLevel (first second : Bool) : Nat :=
  if second then (if first then 2 else 3) else (if first then 1 else 0)

/-- A codeword symbol as five PAM4 symbols, starting with bits 0 and 1. -/
def pam4 (x : BitVec 10) : List Nat := (List.range 5).map (fun i => grayLevel (x.getLsbD (2 * i)) (x.getLsbD (2 * i + 1)))

/-- What a logical lane carries of a codeword: symbols 2i on lane 0, symbols 2i + 1 on lane 1. -/
def laneSymbols (codeword : List (BitVec 10)) (lane : Nat) : List Nat :=
  ((codeword.zipIdx.filter (fun x => decide (x.2 % 2 = lane))).map (·.1)).flatMap pam4

end Sys2Proof.Machine
end

