-- ==== Sys2Proof/Machine/Package.lean ====
section
/-! DEFINITION. The lands of the package: where each lies, what it carries, and the cells of the boundary-scan register (R521, R523–R527,
R536). -/

namespace Sys2Proof.Machine

/-- What a land carries, with the device-wide numbers of R526. `sub` is 0 for subchannel A and 1 for B; `neg` says the complement of a
pair. -/
inductive Land where
  | dq (chan sub dev bit : Nat) | dqs (chan sub dev : Nat) (neg : Bool) | dca (chan sub bit : Nat) | dcsN (chan sub bit : Nat)
  | dck (chan slot sub : Nat) (neg : Bool)
  | i3cScl (pair : Nat) | i3cSda (pair : Nat) | drstN (pair : Nat) | dalertN (pair : Nat)
  | tetherTx (quad lane : Nat) (neg : Bool) | tetherRx (quad lane : Nat) (neg : Bool)
  | hostTx (port lane : Nat) (neg : Bool) | hostRx (port lane : Nat) (neg : Bool)
  | refclk (half : Nat) (neg : Bool) | perstN (port : Nat) | clkreqN (ctl : Nat)
  | wakeN | pwrfailN | canTx | canRx | smbScl | smbSda | thermtripN | faultN
  | strapPatchOff | strapSbDefault | strapMfg
  | tck | tms | tdi | tdo | trstN | xtalIn | xtalOut
  | vccInSense (half : Nat) (neg : Bool) | vddqSense (half : Nat) (neg : Bool)
  | vccStb | vccIn | vddq | vccSerdes09 | vccSerdes12 | gnd | reserved
deriving DecidableEq, Repr

/-- The row and column of a land, counted from the north-west corner (R523). -/
def landPlace (n : Nat) : Nat × Nat :=
  let m := n % 2992
  (m / 44, if n < 2992 then m % 44 else 87 - m % 44)

/-- The land at an offset of a channel's block (R526; log entry 208). -/
def channelLand (c o : Nat) : Land :=
  if o < 120 then
    let r := o % 60
    if r < 40 then .dq c (o / 60) (r / 4) (r % 4) else .dqs c (o / 60) ((r - 40) / 2) (decide (r % 2 = 1))
  else if o < 142 then
    let r := (o - 120) % 11
    if r < 7 then .dca c ((o - 120) / 11) r else .dcsN c ((o - 120) / 11) (r - 7)
  else .dck c ((o - 142) / 4) ((o - 142) / 2 % 2) (decide (o % 2 = 1))

/-- The four lands of a lane: TX_P, TX_N, RX_P and RX_N (R525). -/
def laneLand (tx rx : Bool → Land) (i : Nat) : Land := if i < 2 then tx (decide (i = 1)) else rx (decide (i = 3))

/-- The single lands of the west half from 1445 to 1462 (R525). -/
def westLands : List Land :=
  [.wakeN, .pwrfailN, .canTx, .canRx, .smbScl, .smbSda, .thermtripN, .faultN, .strapPatchOff, .strapSbDefault, .strapMfg,
   .tck, .tms, .tdi, .tdo, .trstN, .xtalIn, .xtalOut]

/-- What a half-relative land carries (R525, R526): half 0 is the west half, half 1 the east half. -/
def halfLand (half m : Nat) : Land :=
  if m < 1200 then channelLand (8 * half + m / 150) (m % 150)
  else if m < 1216 then
    let k := 4 * half + (m - 1200) / 4
    (match m % 4 with | 0 => .i3cScl k | 1 => .i3cSda k | 2 => .drstN k | _ => .dalertN k)
  else if m < 1376 then
    let q := 8 * half + (m - 1216) / 20
    let p := (m - 1216) % 20 / 4
    laneLand (.tetherTx q p) (.tetherRx q p) (m % 4)
  else if m < 1440 then
    let k := (m - 1376) / 4
    laneLand (.hostTx half k) (.hostRx half k) (m % 4)
  else if m < 1442 then .refclk half (decide (m = 1441))
  else if m < 1445 then (if m = 1442 then .perstN half else .clkreqN (2 * half + (m - 1443)))
  else if m < 1463 then (if half = 0 then westLands.getD (m - 1445) .reserved else .reserved)
  else if m = 1463 then .reserved
  else if m < 1466 then .vccInSense half (decide (m = 1465))
  else if m < 1468 then .vddqSense half (decide (m = 1467))
  else if m < 1476 then (if half = 0 then .vccStb else .reserved)
  else if m < 1732 then .vccIn
  else if m < 1796 then .vddq
  else if m < 1828 then .vccSerdes09
  else if m < 1852 then .vccSerdes12
  else .gnd

/-- What a land carries (R523, R525). -/
def landOf (n : Nat) : Land := halfLand (n / 2992) (n % 2992)

/-! ## Boundary scan (R521, R536) -/

/-- The half-relative lands of a half that are scanned, in ascending order: offsets 120 to 141 of every channel block, DRST_N and DALERT_N of
every channel pair, and what carries a signal from 1442 to 1452 (R536). -/
def scannedLands (half : Nat) : List Nat :=
  (List.range 8).flatMap (fun j => (List.range 22).map (fun i => 150 * j + 120 + i)) ++
    (List.range 4).flatMap (fun k => [1200 + 4 * k + 2, 1200 + 4 * k + 3]) ++
    (List.range (if half = 0 then 11 else 3)).map (· + 1442)

/-- The scanned lands from TDI to TDO: the west die's, then the east die's (R521). -/
def scanOrder : List Nat := scannedLands 0 ++ (scannedLands 1).map (· + 2992)

/-- Whether a land is only an input, which is never driven (R531, R536). -/
def inputOnly (x : Land) : Bool :=
  match x with
  | .dalertN _ | .perstN _ | .wakeN | .pwrfailN | .canRx => true
  | _ => false

/-- The level that EXTEST or CLAMP drives on a land: its output cell, where its control cell enables the driver (R521, R536; log entry 209).
Cells 3i, 3i + 1 and 3i + 2 are the input, output and control cell of the land that is i-th from TDI. -/
def drivenLevel (s : State) (land : Nat) : Option Bool :=
  match scanOrder.findIdx? (fun n => decide (n = land)) with
  | none => none
  | some i =>
    if (s.tap.ir = .extest ∨ s.tap.ir = .clamp) ∧ s.tap.hold = true ∧ inputOnly (landOf land) = false ∧ s.tap.outputs.getLsbD (3 * i + 2) = true then
      some (s.tap.outputs.getLsbD (3 * i + 1))
    else none

end Sys2Proof.Machine
end

