-- ==== Sys2Proof/WellFormed.lean ====
section
/-! DEFINITION. The commands as their senders can send them: the bounds that the spec gives the parts of a command whose Lean type does
not carry them. A meaning is total on every command; nothing it does rests on these checks. -/

namespace Sys2Proof

/-- A flit is 128 bytes: a 5-byte header, 120 bytes of payload and a 3-byte CRC (R101). -/
def Flit.wf (f : Flit) : Bool := decide (f.payload.length = 120)

/-- An operand specifier names its mode as R202 spells it: a displacement, an index or a slot within its field. -/
def Opd.wf (o : Opd) : Bool :=
  match o with
  | .imm n v => decide (n.val = 3) || decide (v.toNat < 2 ^ (8 * 2 ^ n.val))
  | _ => true

/-- The reserved prefix bytes (R200). -/
def Prefix.wf (p : Prefix) : Bool :=
  match p with
  | .other b => [0xF0, 0xF1, 0xF2, 0xF6, 0xF7].contains b.toNat
  | _ => true

/-- The prefixes of an instruction. -/
def At.wf (a : At) : Bool := a.pfx.all Prefix.wf

/-- A report names a record kind of R438 that the body of R439 serves. -/
def Report.wf (r : Report) : Bool :=
  match r with
  | .unit kind _ _ _ _ _ => decide (3 ≤ kind.toNat) && decide (kind.toNat ≤ 0x10)
  | _ => true

/-- A placement record has a header and at most 38 entries (R64). -/
def EngStep.wf (e : EngStep) : Bool :=
  match e with
  | .post _ => true
  | .run place aux => decide ((place.getD []).length ≤ 39) && decide ((aux.getD []).length ≤ 39)

/-- The answer to a host read holds at most 1 KiB (R77). -/
def ReadAnswer.wf (a : ReadAnswer) : Bool :=
  match a with
  | .data b => decide (b.length ≤ 1024)
  | _ => true

/-- Whether a command is one that its sender can send. -/
def Instr.wf (i : Instr) : Bool :=
  match i with
  | .commandReadCompletion _ cmds => decide (cmds.length ≤ 8)
  | .mailboxWrite _ _ _ _ len _ data => decide (1 ≤ len.toNat) && decide (len.toNat ≤ 256) && decide (data.length = len.toNat)
  | .dictWrite _ _ _ data => decide (1 ≤ data.length) && decide (data.length ≤ 256)
  | .inboundWriteTlp _ _ _ data _ => decide (1 ≤ data.length) && decide (data.length ≤ 4096)
  | .inboundReadTlp _ _ _ len => decide (1 ≤ len) && decide (len ≤ 4096)
  | .hostReadCompletion _ tag a => decide (tag < 256) && a.wf
  | .hostLaneErrorWindow _ errs => decide (errs.length ≤ 16)
  | .engineNop _ st | .put _ st | .get _ st | .stage _ st | .scrub _ st | .rebuild _ st | .reencode _ st | .sealSpans _ st
  | .verify _ st | .release _ st | .engineFence _ st => st.wf
  | .markerFlit _ f | .payloadFlit _ f | .nullFlit _ f | .nakFlit _ f => f.wf
  | .serWindow _ corrected _ => decide (corrected.length = 2)
  | .sealMsg _ _ _ _ _ _ seals => decide (seals.length = 16)
  | .dataMsg _ _ _ _ data => decide (data.length = 4096)
  | .wrUc _ _ _ _ tags => decide (tags.length = 8)
  | .dmaWr _ _ _ _ tags => decide (tags.length = 8)
  | .spanWr _ data tags _ => decide (data.length = 32) && decide (tags.length = 32)
  | .faultReport r => r.wf
  | .canSegment _ data _ => decide (data.length ≤ 64)
  | .wealarWrite _ _ _ data => decide (data.length ≤ 1021)
  | .halterBlockWrite _ _ body _ => decide (body.length ≤ 253)
  | .counterOverflow block _ _ => decide (block < 0x146)
  | .counterStatusWrite _ block _ => decide (block < 0x4000)
  | .nop a | .wfi a | .brk a | .svc a _ | .eret a | .fence a | .fenceSe a | .isync a | .bcc a _ _ _ | .br a _ | .call a _ | .ret a | .enter a _
  | .leave a _ | .crangeClean a | .crangeCleanInvalidate a | .crangeDiscard a | .tlbiStall a | .tlbiStallLocal a | .tlbiAll a | .tlbiAllLocal a
  | .bcopy a _ | .bfill a _ | .bcmp a _ | .bfind a _ => a.wf
  | .mov a _ o0 o1 | .sxt a _ o0 o1 | .xchg a o0 o1 | .add a _ o0 o1 | .sub a _ o0 o1 | .and a _ o0 o1 | .or a _ o0 o1 | .xor a _ o0 o1
  | .cmp a _ o0 o1 | .tst a _ o0 o1 | .adc a _ o0 o1 | .shl a _ o0 o1 | .shr a _ o0 o1 | .sar a _ o0 o1 | .rol a _ o0 o1 | .mul a _ o0 o1
  | .mulh a _ o0 o1 | .div a _ o0 o1 | .divu a _ o0 o1 | .sbb a _ o0 o1 | .lea a o0 o1 | .leac a o0 o1 | .tagr a o0 o1 | .ptrint a o0 o1
  | .mkptr a o0 o1 | .mkcode a o0 o1 | .imovf a o0 o1 | .fmovi a o0 o1 | .fadd a _ o0 o1 | .fsub a _ o0 o1 | .fmul a _ o0 o1 | .fdiv a _ o0 o1
  | .fsqrt a _ o0 o1 | .fcmp a _ o0 o1 | .fmov a _ o0 o1 | .cvtif a o0 o1 | .cvtfi a o0 o1 | .cvtsd a o0 o1 | .cvtds a o0 o1 | .iotlbiVa a o0 o1
  | .vld a o0 o1 | .vst a o0 o1 | .vadd a o0 o1 | .vsub a o0 o1 | .vand a o0 o1 | .vor a o0 o1 | .vxor a o0 o1 | .vmul a o0 o1 | .vshl a o0 o1
  | .vshr a o0 o1 | .vcmpeq a o0 o1 _ | .vcmplt a o0 o1 _ | .vcmpltu a o0 o1 _ | .vfadd a o0 o1 | .vfsub a o0 o1 | .vfmul a o0 o1
  | .vfcmplt a o0 o1 _ | .vgfmul a o0 o1 | .vgfinv a o0 o1 | .vbcast a o0 o1 | .vsetvl a o0 o1 | .xadd a _ o0 o1 | .xchga a _ o0 o1 | .cas a _ o0 o1
  | .aadd a _ o0 o1 | .aand a _ o0 o1 | .aor a _ o0 o1 | .axor a _ o0 o1 => a.wf && o0.wf && o1.wf
  | .neg a _ o0 | .not a _ o0 | .push a o0 | .pop a o0 | .calli a o0 | .bri a o0 | .ttest a o0 _ | .tagset a o0 _ | .kill a o0 | .mfcr a o0 _
  | .mtcr a _ o0 | .mfsw a o0 | .mtsw a o0 | .cclean a o0 | .cclinv a o0 | .cdiscard a o0 | .czero a o0 | .cclear a o0 | .tlbiVa a o0
  | .tlbiVaLocal a o0 | .tlbiAsid a o0 | .tlbiAsidLocal a o0 | .tlbiStalln a o0 | .tlbiStallnLocal a o0 | .iotlbi a o0 | .mtk a _ o0 | .mfk a o0 _
  | .mtvs a _ o0 | .mfvs a o0 _ | .icAck a o0 | .icEoi a o0 | .icSetpend a o0 | .icModeWrite a o0 | .ttbrWrite a o0 | .tcrWrite a o0
  | .gaitReqWrite a o0 | .pmstatusWrite a o0 | .sampleInfoWrite a o0 | .pmfreezeWrite a o0 => a.wf && o0.wf
  | .fma a _ o0 o1 o2 | .vgather a o0 o1 o2 _ | .vgatherFf a o0 o1 o2 _ | .vscatter a o0 o1 o2 _ | .vfma a o0 o1 o2 | .vgfmac a o0 o1 o2
  | .vperm a o0 o1 o2 => a.wf && o0.wf && o1.wf && o2.wf
  | _ => true

end Sys2Proof
end

