-- ==== Sys2Proof/Tests/Slice0.lean ====
section
/-! SUPPORT. Tests: ill-formed commands, values that the spec writes out, single steps, and for each statement with hypotheses a concrete
state and operands that meet them. -/

set_option maxRecDepth 4000
set_option Elab.async false

namespace Sys2Proof.Tests

open Sys2Proof Sys2Proof.Machine

/-! ## What hypotheses come to on a concrete state -/

/-- A core instruction's computation yields `v` and `t`, of which `k` holds. -/
def okAnd {α : Type} (m : CoreRun α) (s : State) (k : α → State → Bool) : Bool :=
  match m.run s with
  | (.ok v, t) => k v t
  | _ => false

theorem okAnd_iff {α : Type} (m : CoreRun α) (s : State) (k : α → State → Bool) :
    okAnd m s k = true ↔ ∃ v t, Yields m s v t ∧ k v t = true := by
  unfold okAnd Yields
  rcases m.run s with ⟨_ | v, t⟩
  · exact ⟨fun h => absurd h Bool.false_ne_true, fun ⟨_, _, h, _⟩ => absurd (congrArg Prod.fst h) (fun q => nomatch q)⟩
  · exact ⟨fun h => ⟨v, t, rfl, h⟩, fun ⟨_, _, h, k⟩ => by cases h; exact k⟩

/-- The same of a rein instruction's computation. -/
def rokAnd {α : Type} (m : RM α) (s : State) (k : α → State → Bool) : Bool :=
  match m.run s with
  | (.ok v, t) => k v t
  | _ => false

theorem rokAnd_iff {α : Type} (m : RM α) (s : State) (k : α → State → Bool) :
    rokAnd m s k = true ↔ ∃ v t, RYields m s v t ∧ k v t = true := by
  unfold rokAnd RYields
  rcases m.run s with ⟨_ | v, t⟩
  · exact ⟨fun h => absurd h Bool.false_ne_true, fun ⟨_, _, h, _⟩ => absurd (congrArg Prod.fst h) (fun q => nomatch q)⟩
  · exact ⟨fun h => ⟨v, t, rfl, h⟩, fun ⟨_, _, h, k⟩ => by cases h; exact k⟩

/-- A core instruction starts, and `k` holds of the state after its fetch. -/
def startsAnd (a : At) (len : Nat) (legal : Bool) (level : Nat) (s : State) (k : State → Bool) : Bool :=
  coreRuns s a.core.val && legal && decide (len ≤ 24) && decide (swPl (s.core a.core.val).arch.sw ≤ level) &&
    okAnd (fetchWords (envOf s a.core.val len) (codeWords (s.core a.core.val).arch.pc.toNat len)) s (fun _ s0 => k s0)

theorem startsAnd_iff (a : At) (len : Nat) (legal : Bool) (level : Nat) (s : State) (k : State → Bool) :
    startsAnd a len legal level s k = true ↔ ∃ s0, Starts a len legal level s s0 ∧ k s0 = true := by
  simp only [startsAnd, Starts, Bool.and_eq_true, decide_eq_true_eq, okAnd_iff]
  constructor
  · rintro ⟨⟨⟨⟨h1, h2⟩, h3⟩, h4⟩, ⟨⟩, t, h5, h6⟩
    exact ⟨t, ⟨h1, h2, h3, h4, h5⟩, h6⟩
  · rintro ⟨t, ⟨h1, h2, h3, h4, h5⟩, h6⟩
    exact ⟨⟨⟨⟨h1, h2⟩, h3⟩, h4⟩, (), t, h5, h6⟩

/-- A rein instruction starts, and `k` holds of the state in which its effect begins. -/
def reinAnd (i : Rein) (legal branch : Bool) (uses : Uses) (s : State) (k : State → Bool) : Bool :=
  let r := s.reinOf i.pair.val
  let s0 := s.setRein i.pair.val { r with waiting := false, load := none }
  pairRuns s i.pair.val && !rInterrupt s i.pair.val && (!r.waiting || (winner s (.pair i.pair.val)).isSome) && legal &&
    r.load.all (fun l => !uses.contains l.1.val) && !(branch && r.slot) &&
    rokAnd (rCheck r.pc.toNat true false false) s0 (fun _ t => decide (t = s0)) && k s0

theorem reinAnd_starts {i : Rein} {legal branch : Bool} {uses : Uses} {s : State} {k : State → Bool}
    (h : reinAnd i legal branch uses s k = true) : ∃ s0, ReinStarts i legal branch uses s s0 ∧ k s0 = true := by
  simp only [reinAnd, Bool.and_eq_true, Bool.not_eq_true', Bool.or_eq_true, rokAnd_iff, decide_eq_true_eq] at h
  obtain ⟨⟨⟨⟨⟨⟨⟨h1, h2⟩, h3⟩, h4⟩, h5⟩, h6⟩, q, t, h7, h8⟩, h9⟩ := h
  subst h8
  refine ⟨_, ⟨h1, h2, fun w => ?_, h4, fun l hl => ?_, h6, rfl, q, h7⟩, h9⟩
  · rcases h3 with h3 | h3
    · rw [w] at h3; exact absurd h3 (by decide)
    · exact h3
  · rw [hl] at h5
    simpa using h5

/-- A lookup finds `v`, of which `k` holds. -/
def someAnd {α : Type} (x : Option α) (k : α → Bool) : Bool :=
  match x with
  | some v => k v
  | none => false

theorem someAnd_iff {α : Type} (x : Option α) (k : α → Bool) : someAnd x k = true ↔ ∃ v, x = some v ∧ k v = true := by
  cases x <;> simp [someAnd]

/-- A write of a dictionary entry is permitted. -/
def permitsB (p : Path) (idx sub v : Nat) (s : State) : Bool :=
  groomServes s && decide (checkWrite s p idx sub (bytesOfNat (((odLookup idx sub).map (fun e => e.ty.len)).getD 0) v) = .ok) &&
    (s.boot.ready || earlyWrite idx sub || decide (idx = 0x9000 ∧ sub = 2))

theorem permitsB_iff (p : Path) (idx sub v : Nat) (s : State) : permitsB p idx sub v s = true ↔ Permits p idx sub v s := by
  simp [permitsB, Permits, Bool.and_eq_true, and_assoc, or_assoc]

/-! ## A small machine -/

/-- Core 0 executes at PL0 with the MMU off: P1 and P12–P14 point to memory, X0 to X3 hold integers, F1 and F2 hold FLOAT 1.0 and 2.0, and
V4 and V5 hold integers. -/
def core0 : CoreSt :=
  { started := true,
    arch := { p := [(1, ⟨0x1000, .ptr⟩), (2, ⟨0, .codeptr⟩), (12, ⟨0x2000, .ptr⟩), (13, ⟨0x3000, .ptr⟩), (14, ⟨0x4000, .ptr⟩), (15, ⟨0x5000, .ptr⟩)],
              x := [(0, ⟨5, .int⟩), (1, ⟨7, .int⟩), (2, ⟨64, .int⟩), (3, ⟨1, .int⟩)],
              v := (List.range 8).map (fun w => (8 + w, ⟨0x3FF0000000000000, .float⟩)) ++
                   (List.range 8).map (fun w => (16 + w, ⟨0x4000000000000000, .float⟩)) ++
                   (List.range 16).map (fun w => (32 + w, ⟨BitVec.ofNat 64 w, .int⟩)) ++
                   (List.range 8).map (fun w => (48 + w, ⟨BitVec.ofNat 64 (w * 2 ^ 50), .int⟩)),
              bank0 := { epc := ⟨0x40, .codeptr⟩ } } }

/-- A machine in RUN past bring-up with core 0 executing; the words that hold its code and its data are INT, those at P12 a CODEPTR. -/
def st0 : State :=
  { mem := { tags := [(0, .int), (1, .int), (2, .int), (3, .int), (512, .int), (513, .int), (514, .int), (515, .int), (516, .int), (517, .int), (518, .int), (519, .int),
      (1024, .codeptr), (1536, .int), (2048, .int), (2560, .int)] },
    mc := { capacity := 32, dimmRanks := 2, rate := 5600 }, cores := [(0, core0)], pwr := { state := .run },
    boot := { phase := .ready, ready := true },
    rein := [(0, { a := 0x1000, x := 0x100000, y := 0x100010, sp := 0x100800, epc := 0x40, enpc := 0x44 })] }

def at0 : At := { core := 0, pfx := [] }
def x0 : Opd := .x 0
def x1 : Opd := .x 1
def m1 : Opd := .mem 1
def x2 : Opd := .x 2
def withX (r : Nat) (v : Word) (s : State) : State := s.setArch 0 (·.setX r ⟨v, .int⟩)
def withP (r : Nat) (v : Word) (s : State) : State := s.setArch 0 (·.setP r ⟨v, .ptr⟩)
def vp (b : BitVec 8) : At := { core := 0, pfx := [.vp b] }
def v1 : Opd := .f 1
def v3 : Opd := .f 3
def v4 : Opd := .f 4
def v5 : Opd := .f 5
def v2 : Opd := .f 2
def v6 : Opd := .f 6
def ri (m : BitVec 2) (f : BitVec 24) : Rein := { pair := 0, mode := m, field := f }
def req0 : Req := { src := 0, txn := 0, pa := 0x1000, stall := 0, strict := false, sealAttr := false }
def stripe0 : Stripe := { uid := 5, cmd := 7, index := 0, src := .host, stage := .check, write := true }
def cmd0 : Cmd := { id := 7, desc := 0, src := .firmware, started := true }
def withEngine (e : Engine) : State := { st0 with eng := { engines := [(0, e)] } }
def withCtx (x : Ctx) : State := { st0 with eng := { ctxs := [(0, x)] } }
def withFar (f : Farrier) : State := { st0 with far := f }
/-- Host link 0 in L0 and what else the host endpoint holds. -/
def withHost (h : HostEp) : State := { st0 with host := { h with ctl := [(0, { link := .l0 })] } }
def reachesB (l : Nat) (s : State) : Bool := linkTrained (s.ctl l).link && hostUp (arrived l s) l

theorem reachesB_iff (l : Nat) (s : State) : reachesB l s = true ↔ Reaches l s := by simp [reachesB, Reaches]

def qpOpenB (p fn q : Nat) (s : State) : Bool :=
  fnAnswers s p fn && s.boot.ready && !(s.fn p fn).fenced && (s.qp (qpKey p fn q)).enable && !(s.qp (qpKey p fn q)).deleting

theorem qpOpenB_iff (p fn q : Nat) (s : State) : qpOpenB p fn q s = true ↔ QpOpen p fn q s := by
  simp only [qpOpenB, QpOpen, Bool.and_eq_true, Bool.not_eq_true', and_assoc]

def qp0 : QPair := { enable := true, sqLog2 := 4, cqLog2 := 4 }
def win0 : Window := { en := true, rd := true, wr := true, sizeLog2 := 20 }
def withLink (x : Link) : State := { st0 with links := [(3, x)] }
/-- Link 3 is ACTIVE; its port 100 and shelf 0 are as given. -/
def withPort (x : Port) (h : Shelf) : State := { st0 with links := [(3, { state := .active })], ports := [(100, x)], shelves := [(0, h)] }
def flit0 : Flit := mkFlit 1 []
def marker0 : Flit := mkFlit 2 [5, 0, 0, 0, 1, 3, BitVec.ofNat 8 (odGet st0 0x6013 0x04)]
def cmdTag : DriveCmd := { op := 1, tag := some 63 }
def withPwr (p : Power) : State := { st0 with pwr := p }
def withStall (n : Nat) (x : StallSt) : State := { st0 with stalls := [(n, x)] }
def inBoot (x : BootPhase) : State := { st0 with boot := { phase := x } }
def rflit0 : RingFlit := { hdr := 0, path := [(0, 0), (1, 0)] }
def withLane (x : LaneOut) : State := { st0 with ring := { lanes := [(0, x)] } }
def hdr0 : WealarHdr := { tid := 63, src := 1, broadcast := false, prio := 7 }
/-- A strict flit that has the train of cycle 0. -/
def sflit : RingFlit := { hdr := 0x800000000, train := some (trainNow 0 0), path := [(0, 0)] }
/-- A packet for the stop next to the one where segment 0 starts, and a lane that turns there into segment 0. -/
def qhdr : Word := BitVec.ofNat 64 (segTo 0 + segFrom 0 * 2 ^ 8 + 2 ^ 31)
def turnLane : Nat := ((incoming (segFrom 0)).find? (fun p => !sameLane p 0)).getD 0
/-- One RDIMM of one rank in each channel. -/
def goodSpd : List DimmSpd :=
  (List.finRange 16).map (fun c => { chan := c, slot := 0, rdimm := true, density := 16, ranks := 1, speed := 5600 })
/-- Core 0's frame window stands at its P13. -/
def stFrame : State := st0.setCore 0 { core0 with frameAt := some (core0.arch.pReg 13) }

/-! ## Ill-formed commands are refused, one for each check -/

theorem test_wf_flit : Flit.wf { hdr := 0, payload := List.replicate 119 0, crc := 0, ucw := false } = false := by decide
theorem test_wf_operand : Opd.wf (.imm 0 256) = false := by decide
theorem test_wf_prefix : Instr.wf (.nop { core := 0, pfx := [.other 0x90] }) = false := by decide
theorem test_wf_reads : Instr.wf (.commandReadCompletion 0 (List.replicate 9 0)) = false := by decide
theorem test_wf_mailbox : Instr.wf (.mailboxWrite 0 0 0 0 2 ⟨⟨0, 8⟩, false⟩ [1]) = false := by decide
theorem test_wf_dictionary : Instr.wf (.dictWrite .fw 0 0 []) = false := by decide
theorem test_wf_tlps : Instr.wf (.inboundWriteTlp 0 false 0 [] false) = false ∧ Instr.wf (.inboundReadTlp 0 false 0 4097) = false := by decide
theorem test_wf_engine : Instr.wf (.put 0 (.run (some (List.replicate 40 0)) none)) = false ∧
    Instr.wf (.hostReadCompletion 0 256 (.data [])) = false := by decide
theorem test_wf_windows : Instr.wf (.hostLaneErrorWindow 0 (List.replicate 17 0)) = false ∧ Instr.wf (.serWindow 0 [1] 0) = false := by decide
theorem test_wf_messages : Instr.wf (.sealMsg 0 0 0 0 0 0 []) = false ∧ Instr.wf (.dataMsg 0 0 0 0 [0]) = false := by decide
theorem test_wf_packets : Instr.wf (.wrUc req0 0 0 0 []) = false ∧ Instr.wf (.dmaWr req0 0 0 0 []) = false ∧
    Instr.wf (.spanWr req0 [] [] 0) = false := by decide
theorem test_wf_report : Instr.wf (.faultReport (.unit 0x11 0 0 0 0 none)) = false := by decide
theorem test_wf_side : Instr.wf (.canSegment 0 (List.replicate 65 0) false) = false ∧
    Instr.wf (.halterBlockWrite 0 0 (List.replicate 254 0) false) = false := by decide
theorem test_wf_wealar : Instr.wf (.wealarWrite hdr0 0 0 (List.replicate 1022 0)) = false := by decide +kernel
theorem test_wf_counters : Instr.wf (.counterOverflow 0x146 0 0) = false ∧ Instr.wf (.counterStatusWrite .fw 0x4000 0) = false := by decide
theorem test_wf_good : Instr.wf (.add at0 .d x0 (.imm 0 255)) = true ∧ Instr.wf (.nop (vp 0x30)) = true := by decide

/-! ## Values that the spec writes out -/

/-- The state after a command. -/
def after (c : Instr) (s : State) : State := match exec c s with | .next t => t | _ => s

def xOf (s : State) (r : Nat) : TWord := (s.core 0).arch.xReg r
def swOf (s : State) : BitVec 64 := (s.core 0).arch.sw

/-- The reference seals of 02_cinch_seals.md. -/
theorem test_seal_reference :
    sealOf (List.replicate 255 0 ++ [1]) = 0x0001000100010001 ∧ sealOf (List.replicate 254 0 ++ [1, 0]) = 0x0154212001200100 ∧
    sealOf (List.replicate 253 0 ++ [1, 2, 3]) = 0x034B373103170323 := by decide +kernel

/-- The seal of 0x02 · B, of the example under R40. -/
theorem test_seal_scale : sealScale 2 0x034B373103170323 = 0x06966E62062E0646 := by decide +kernel

/-- The coefficients of parity 1 in the 4+2 example under R68. -/
theorem test_coefficients : (List.range 4).map (coef 1) = [0xA6, 0x46, 0xBB, 0x7B] := by decide +kernel

/-- The products of the 4+2 example under R68 and of R251's. -/
theorem test_gf8_products : gf8Mul 0xA6 0x05 = 0x04 ∧ gf8Mul 0x7B 0x06 = 0x07 ∧ gf8Mul 0x46 0x02 = 0x8C ∧ gf8Mul 0xBB 0x03 = 0xD0 ∧
    gf8Mul 0x7B 0x04 = 0xF1 ∧ gf8Inv 0 = 0 := by decide +kernel

/-- The example under R298: the channel and the channel address of PA 0x34_5678_9A40. -/
theorem test_memory_map : chanOf (0x3456789A40 / 256) = 2 ∧ caOf 0x3456789A40 = 0x345678940 := by decide +kernel

/-- The identifiers of the example under R474: the request's value, and the sum that the example writes for the response. -/
theorem test_wealar_identifiers : wealarId 3 0x01 0x10 0x01 5 false = 0x0C120045 ∧
    (wealarId 3 0x01 0x01 0x10 5 true).toNat = 3 * 2 ^ 26 + 2 ^ 25 + 0x01 * 2 ^ 20 + 0x01 * 2 ^ 13 + 0x10 * 2 ^ 6 + 5 := by decide

/-- The worked example under R526: TX_P of physical lanes 0 and 1 of Tether quad 8. -/
theorem test_lands : landOf 4208 = .tetherTx 8 0 false ∧ landPlace 4208 = (27, 59) ∧ landOf 4212 = .tetherTx 8 1 false ∧
    landPlace 4212 = (27, 55) := by decide

/-- The scanned lands of each half: 195 in the west, 187 in the east (R536). -/
theorem test_scanned_lands : (scannedLands 0).length = 195 ∧ (scannedLands 1).length = 187 := by decide +kernel

/-- IDCODE (R519). -/
theorem test_idcode : (after .idcode st0).tap.dr = 0x1213674F := by decide +kernel

/-- A write of 8 bytes to a queue pair's doorbells takes the tail and then the head (R374). -/
theorem test_doorbells :
    let t := after (.sqTailDoorbell 0 0 63 ⟨⟨0, 8⟩, 15, 1⟩) (withHost { qps := [(63, { qp0 with held := 1 })] })
    (t.qp 63).sqTail = 15 ∧ (t.qp 63).cqHead = 1 ∧ (t.qp 63).held = 0 := by decide +kernel

/-- The example under R517: the counter wraps to zero at the 100,000th event and sets OVF. -/
theorem test_counter_wraps :
    let t := countOne 16 2 4 100000 (some 2) 0 (st0.setCounter 16 2 { sel := 0x7000004, value := 0xFFFFFFFE7960 })
    (t.counter 16 2).value = 0 ∧ (t.counter 16 2).ovf = true := by decide +kernel

/-! ## One step of each kind of instruction -/

/-- 0xFF + 1 in 8 bits is 0 with C and Z, and bits 63 to 8 of the register are zero (R199, R227). -/
theorem test_add_wraps :
    let t := after (.add at0 .b x0 (.imm4 1)) (withX 0 0xFF st0)
    xOf t 0 = ⟨0, .int⟩ ∧ (swOf t).toNat % 16 = 3 ∧ (t.core 0).arch.pc = 3 := by decide +kernel

/-- 0 − 1 borrows and is negative (R198, R227). -/
theorem test_sub_borrows : xOf (after (.sub at0 .d x0 (.imm4 1)) (withX 0 0 st0)) 0 = ⟨0xFFFFFFFFFFFFFFFF, .int⟩ := by decide +kernel

/-- A store is not in memory before it drains, and the core that made it sees it (R180). -/
theorem test_store_buffer :
    let t := after (.mov at0 .d m1 x1) st0
    t.mem.byteAt 0x1000 = 0 ∧ (ownWord t 0 512).data = 7 ∧ (ownWord t 1 512).data = 0 := by decide +kernel

/-- PUSH stores below P12, which stays PTR (R227). -/
theorem test_push :
    let t := after (.push at0 x0) st0
    (t.core 0).arch.pReg 12 = ⟨0x1FF8, .ptr⟩ ∧ ownWord t 0 1023 = ⟨5, .int⟩ := by decide +kernel

/-- RET goes to the CODEPTR at P12, here 0 (R227). -/
theorem test_ret : let t := after (.ret at0) st0; (t.core 0).arch.pc = 0 ∧ ((t.core 0).arch.pReg 12).data = 0x2008 := by decide +kernel

def stVbr : State := st0.setArch 0 (fun b => { b with bank0 := { vbr := ⟨0x10000, .codeptr⟩ }, bank1 := { vbr := ⟨0x20000, .codeptr⟩ } })

/-- SVC's exception has code 0x0F: PC goes to VBR + 0x3C0 (R216, R218). -/
theorem test_svc : ((after (.svc at0 0x42) stVbr).core 0).arch.pc = 0x103C0 := by decide +kernel

/-- A POINTER operand of ADD takes TAG_OPERAND's exception, and the register stays as it was (R206, R216). -/
theorem test_add_poison :
    let t := after (.add at0 .d x0 x1) (stVbr.setArch 0 (·.setX 1 ⟨7, .poison⟩))
    xOf t 0 = ⟨5, .int⟩ ∧ (t.core 0).arch.pc ≠ 3 := by decide +kernel

/-- KILL leaves a zero with the tag UNINIT (R227). -/
theorem test_kill : xOf (after (.kill at0 x0) st0) 0 = ⟨0, .uninit⟩ := by decide +kernel

/-- VSETVL sets VL to at most the number of elements (R241). -/
theorem test_vsetvl : ((after (.vsetvl at0 x0 x2) st0).core 0).arch.vl = 8 := by decide +kernel

/-- 1.0 + 2.0 = 3.0 (R227). -/
theorem test_fadd : ((after (.fadd at0 .d v1 v2) st0).core 0).arch.vWord 1 0 = ⟨0x4008000000000000, .float⟩ := by decide +kernel

/-- GETA of an immediate writes A at once, and the pair goes on to the next word (R254, R255). -/
theorem test_rein_geta :
    let t := after (.reinGeta (ri 0 0xFFFFFF)) st0
    (t.reinOf 0).a = 0xFFFFFFFFFFFFFFFF ∧ (t.reinOf 0).pc = 4 := by decide +kernel

/-- CALLD stores PC + 8 below SP (R254). -/
theorem test_rein_calld : ((after (.reinCalld (ri 0 0x10)) st0).reinOf 0).sp = 0x1007F8 := by decide +kernel

/-- A write of a value out of range changes nothing but its answer (R466, R480). -/
theorem test_dictionary_range : (after (.dictWrite .fw 0x1000 0x0B [3]) st0).od = st0.od := by decide +kernel

/-- A shelf that sleeps joins the queue of wakes (R132). -/
theorem test_shelf_wake : (after (.shelfWakeRequest .fw 0) (withPort {} {})).wakeQueue = [(0, false)] := by decide +kernel

/-- The block idles on an empty queue, and runs its front command otherwise. -/
theorem test_step : step st0 = .next st0 ∧ step { st0 with pending := [.nop at0, .idcode] } = exec (.nop at0) { st0 with pending := [.idcode] } :=
  ⟨rfl, rfl⟩


/-! ## The hypotheses of the statements are met -/

/-- The hypotheses of each clause of AluCompletes are met. -/
theorem test_hyps_AluCompletes :
    (let p := (Instr.add, Alu.add)
    let a : At := at0
    let z : Sz := .d
    let d : Opd := x0
    let o : Opd := x1
    let s : State := st0
    let len := instrLen a 1 [d, o] 0
    let e := envOf s a.core.val len
    let n := szBytes z
    startsAnd a len (a.pfx.isEmpty && opdDst d && opdSrc o) 2 s (fun s0 =>
    okAnd (bothRead e n { write := true } {} false d o) s0 (fun v1 s1 =>
    let pd := v1.1.1
    let x := v1.2.1
    let y := v1.2.2
    let t := aluTag x.tag y.tag
    let takes := needsFree p.2 (8 * n) y.val.toNat
    let r := alu p.2 (8 * n) x.val.toNat y.val.toNat (flagC (s1.core e.c).arch.sw) ((if takes then freeValue s1 else 0).getLsbD 0)
    decide (x.passes (accepts0 p.2 n) = true) && decide (y.passes (accepts1 p.2 n x.tag) = true) && decide (pd.takes t = true) && decide
      (dividesByZero p.2 (8 * n) y.val.toNat = false) &&
    okAnd (writePlace e n pd (BitVec.ofNat 64 r.val) t) (if takes then s1.took else s1) (fun _ _ => true)))) = true ∧
    (let p := (Instr.shl, Alu.shl)
    let a : At := at0
    let z : Sz := .b
    let d : Opd := m1
    let o : Opd := x2
    let s : State := st0
    let len := instrLen a 1 [d, o] 0
    let e := envOf s a.core.val len
    let n := szBytes z
    startsAnd a len (a.pfx.isEmpty && opdDst d && opdSrc o) 2 s (fun s0 =>
    okAnd (bothRead e n { write := true } {} false d o) s0 (fun v1 s1 =>
    let pd := v1.1.1
    let x := v1.2.1
    let y := v1.2.2
    let t := aluTag x.tag y.tag
    let takes := needsFree p.2 (8 * n) y.val.toNat
    let r := alu p.2 (8 * n) x.val.toNat y.val.toNat (flagC (s1.core e.c).arch.sw) ((if takes then freeValue s1 else 0).getLsbD 0)
    decide (x.passes (accepts0 p.2 n) = true) && decide (y.passes (accepts1 p.2 n x.tag) = true) && decide (pd.takes t = true) && decide
      (dividesByZero p.2 (8 * n) y.val.toNat = false) &&
    okAnd (writePlace e n pd (BitVec.ofNat 64 r.val) t) (if takes then s1.took else s1) (fun _ _ => true)))) = true := by
  refine ⟨?_, ?_⟩ <;> decide +kernel

/-- The hypotheses of each clause of MovesComplete are met. -/
theorem test_hyps_MovesComplete :
    (let a : At := at0
    let z : Sz := .d
    let d : Opd := .mem 1
    let o : Opd := x0
    let s : State := st0
    let len := instrLen a 1 [d, o] 0
    let e := envOf s a.core.val len
    startsAnd a len (a.pfx.isEmpty && opdDst d && opdSrc o) 2 s (fun s0 =>
    okAnd (destSource e (szBytes z) (szBytes z) false d o) s0 (fun v1 s1 =>
    let pd := v1.1
    let ps := v1.2.1
    let y := v1.2.2
    decide ((transparent (szBytes z) pd ps || y.passes isIntTag) = true) && decide (pd.takes y.tag = true) &&
    okAnd (writePlace e (szBytes z) pd y.val y.tag) s1 (fun _ _ => true)))) = true ∧
    (let a : At := at0
    let z : FSz := .d
    let d : Opd := .f 3
    let o : Opd := .f 1
    let s : State := st0
    let len := instrLen a 1 [d, o] 0
    let e := envOf s a.core.val len
    startsAnd a len (a.pfx.isEmpty && opdDst d && opdFSrc (fszBytes z) o) 2 s (fun s0 =>
    okAnd (destSource e (fszBytes z) (fszBytes z) true d o) s0 (fun v1 s1 =>
    let pd := v1.1
    let ps := v1.2.1
    let y := v1.2.2
    decide ((transparent (fszBytes z) pd ps || y.passes isFpTag) = true) && decide (pd.takes y.tag = true) &&
    okAnd (writePlace e (fszBytes z) pd y.val y.tag) s1 (fun _ _ => true)))) = true ∧
    (let a : At := at0
    let z : Sz := .b
    let d : Opd := x0
    let o : Opd := x1
    let s : State := st0
    let len := instrLen a 1 [d, o] 0
    let e := envOf s a.core.val len
    startsAnd a len (a.pfx.isEmpty && decide (z ≠ .d) && opdDst d && opdSrc o) 2 s (fun s0 =>
    okAnd (destSource e 8 (szBytes z) false d o) s0 (fun v1 s1 =>
    let pd := v1.1
    let y := v1.2.2
    decide (y.passes isIntTag = true) && decide (pd.takes (intTag y.tag y.tag) = true) &&
    okAnd (writePlace e 8 pd (BitVec.ofInt 64 (sInt (8 * szBytes z) y.val.toNat)) (intTag y.tag y.tag)) s1 (fun _ _ => true)))) = true ∧
    (let a : At := at0
    let d : Opd := x0
    let o : Opd := x1
    let s : State := st0
    let len := instrLen a 1 [d, o] 0
    let e := envOf s a.core.val len
    startsAnd a len (a.pfx.isEmpty && opdDst d && opdSrc o) 2 s (fun s0 =>
    okAnd (destSource e 8 8 false d o) s0 (fun v1 s1 =>
    let pd := v1.1
    let y := v1.2.2
    decide (y.passes anyTag = true) &&
    okAnd (writePlace e 8 pd (y.tag.code.setWidth 64) .int) s1 (fun _ _ => true)))) = true ∧
    (let p := (Instr.ptrint, [Tag.int, .ptr, .codeptr], Tag.int, 2)
    let a : At := at0
    let d : Opd := x0
    let o : Opd := x1
    let s : State := st0
    let len := instrLen a 1 [d, o] 0
    let e := envOf s a.core.val len
    startsAnd a len (a.pfx.isEmpty && opdDst d && opdSrc o) p.2.2.2 s (fun s0 =>
    okAnd (destSource e 8 8 false d o) s0 (fun v1 s1 =>
    let pd := v1.1
    let y := v1.2.2
    decide (y.passes (fun t => p.2.1.contains t) = true) && decide (pd.takes p.2.2.1 = true) &&
    okAnd (writePlace e 8 pd y.val p.2.2.1) s1 (fun _ _ => true)))) = true ∧
    (let p := (Instr.lea, Tag.ptr, opdMem)
    let a : At := at0
    let d : Opd := .p 3
    let o : Opd := .memD8 1 8
    let s : State := st0
    let len := instrLen a 1 [d, o] 0
    let e := envOf s a.core.val len
    startsAnd a len (a.pfx.isEmpty && opdDst d && p.2.2 o) 2 s (fun s0 =>
    okAnd (formOpd e 0 8 { write := true } d) s0 (fun v1 s1 =>
    let pd := v1
    okAnd (formAddr e 1 o) s1 (fun v2 s2 =>
    let va := v2
    decide (pd.takes p.2.1 = true) &&
    okAnd (writePlace e 8 pd (BitVec.ofNat 64 va) p.2.1) s2 (fun _ _ => true))))) = true ∧
    (let a : At := at0
    let d : Opd := x0
    let o : Opd := m1
    let s : State := st0
    let len := instrLen a 1 [d, o] 0
    let e := envOf s a.core.val len
    startsAnd a len (a.pfx.isEmpty && opdDst d && opdDst o) 2 s (fun s0 =>
    okAnd (bothRead e 8 { write := true } { write := true } false d o) s0 (fun v1 s1 =>
    let pd := v1.1.1
    let ps := v1.1.2
    let x := v1.2.1
    let y := v1.2.2
    decide ((pd.whole && ps.whole || x.passes isIntTag && y.passes isIntTag) = true) && decide (pd.takes y.tag = true) && decide (ps.takes
      x.tag = true) &&
    okAnd (writePlace e 8 pd y.val y.tag) s1 (fun _ s2 =>
    okAnd (writePlace e 8 ps x.val x.tag) s2 (fun _ _ => true))))) = true := by
  refine ⟨?_, ?_, ?_, ?_, ?_, ?_, ?_⟩ <;> decide +kernel

/-- The hypotheses of each clause of ComparesComplete are met. -/
theorem test_hyps_ComparesComplete :
    (let a : At := at0
    let z : Sz := .w
    let d : Opd := .imm4 1
    let o : Opd := x1
    let s : State := st0
    let len := instrLen a 1 [d, o] 0
    let e := envOf s a.core.val len
    startsAnd a len (a.pfx.isEmpty && opdSrc d && opdSrc o) 2 s (fun s0 =>
    okAnd (bothRead e (szBytes z) {} {} false d o) s0 (fun v1 _ =>
    let x := v1.2.1
    let y := v1.2.2
    decide (x.passes comparable = true) && decide (y.passes comparable = true)))) = true ∧
    (let a : At := at0
    let z : FSz := .d
    let d : Opd := .f 1
    let o : Opd := .f 2
    let s : State := st0
    let len := instrLen a 1 [d, o] 0
    let e := envOf s a.core.val len
    startsAnd a len (a.pfx.isEmpty && opdFSrc (fszBytes z) d && opdFSrc (fszBytes z) o) 2 s (fun s0 =>
    okAnd (bothRead e (fszBytes z) {} {} true d o) s0 (fun v1 _ =>
    let x := v1.2.1
    let y := v1.2.2
    decide (x.passes isFpTag = true) && decide (y.passes isFpTag = true)))) = true ∧
    (let a : At := at0
    let o : Opd := .p 1
    let s : State := st0
    let len := instrLen a 1 [o] 1
    let e := envOf s a.core.val len
    startsAnd a len (a.pfx.isEmpty && opdSrc o) 2 s (fun s0 =>
    okAnd (oneRead e 8 {} false o) s0 (fun v1 _ =>
    let y := v1.2
    decide (y.passes anyTag = true)))) = true := by
  refine ⟨?_, ?_, ?_⟩ <;> decide +kernel

/-- The hypotheses of each clause of UnariesComplete are met. -/
theorem test_hyps_UnariesComplete :
    (let p := (Instr.neg, fun (b x : Nat) => subFlags b 0 x false)
    let a : At := at0
    let z : Sz := .h
    let d : Opd := m1
    let s : State := st0
    let len := instrLen a 1 [d] 0
    let e := envOf s a.core.val len
    startsAnd a len (a.pfx.isEmpty && opdDst d) 2 s (fun s0 =>
    okAnd (oneRead e (szBytes z) { write := true } false d) s0 (fun v1 s1 =>
    let pd := v1.1
    let x := v1.2
    let r := p.2 (8 * szBytes z) x.val.toNat
    decide (x.passes isIntTag = true) &&
    okAnd (writePlace e (szBytes z) pd (BitVec.ofNat 64 r.val) (intTag x.tag x.tag)) s1 (fun _ _ => true)))) = true ∧
    (let a : At := at0
    let d : Opd := x0
    let t : Tag := .poison
    let c : BitVec 8 := 7
    let s : State := st0
    let len := instrLen a 1 [d] 1
    let e := envOf s a.core.val len
    startsAnd a len (a.pfx.isEmpty && opdDst d) 0 s (fun s0 =>
    decide (Tag.ofCode (c.truncate 4) = some t) &&
    okAnd (formOpd e 0 8 { write := true } d) s0 (fun v1 s1 =>
    let pd := v1
    decide (pd.aligned = true) &&
    okAnd (readPlace e 0 8 false pd) s1 (fun v2 s2 =>
    let y := v2
    decide (pd.takes t = true) &&
    okAnd (writePlace e 8 pd y.val t) s2 (fun _ _ => true))))) = true ∧
    (let a : At := at0
    let d : Opd := m1
    let s : State := st0
    let len := instrLen a 1 [d] 0
    let e := envOf s a.core.val len
    startsAnd a len (a.pfx.isEmpty && opdDst d) 2 s (fun s0 =>
    okAnd (formOpd e 0 8 { write := true } d) s0 (fun v1 s1 =>
    let pd := v1
    decide (pd.aligned = true) && decide (pd.takes .uninit = true) &&
    okAnd (writePlace e 8 pd 0 .uninit) s1 (fun _ _ => true)))) = true := by
  refine ⟨?_, ?_, ?_⟩ <;> decide +kernel

/-- The hypotheses of each clause of StackCompletes are met. -/
theorem test_hyps_StackCompletes :
    (let a : At := at0
    let o : Opd := .p 1
    let s : State := st0
    let len := instrLen a 1 [o] 0
    let e := envOf s a.core.val len
    startsAnd a len (a.pfx.isEmpty && opdSrc o) 2 s (fun s0 =>
    okAnd (formOpd e 0 8 {} o) s0 (fun v1 s1 =>
    let ps := v1
    okAnd (stackAcc e 12 (-8) { write := true }) s1 (fun v2 s2 =>
    let acc := v2.2
    okAnd (readPlace e 0 8 false ps) s2 (fun v3 s3 =>
    let y := v3
    decide ((ps.whole || y.passes isIntTag) = true) && decide ((Place.mem acc).takes y.tag = true) &&
    okAnd (writePlace e 8 (.mem acc) y.val y.tag) s3 (fun _ _ => true)))))) = true ∧
    (let a : At := at0
    let d : Opd := .p 12
    let s : State := st0
    let len := instrLen a 1 [d] 0
    let e := envOf s a.core.val len
    startsAnd a len (a.pfx.isEmpty && opdDst d) 2 s (fun s0 =>
    okAnd (formOpd e 0 8 { write := true } d) s0 (fun v1 s1 =>
    let pd := v1
    okAnd (stackAcc e 12 0 {}) s1 (fun v2 s2 =>
    let sp := v2.1
    let acc := v2.2
    okAnd (readPlace e 3 8 false (.mem acc)) s2 (fun v3 s3 =>
    let y := v3
    decide ((pd.whole || y.passes isIntTag) = true) && decide (pd.takes y.tag = true) &&
    okAnd (writePlace e 8 pd y.val y.tag) (s3.setArch e.c (·.setP 12 ⟨BitVec.ofNat 64 (addrAdd sp 8), .ptr⟩)) (fun _ _ => true)))))) = true ∧
    (let a : At := at0
    let u : BitVec 16 := 0xFFF8
    let s : State := st0
    let len := instrLen a 1 [] 2
    let e := envOf s a.core.val len
    startsAnd a len (a.pfx.isEmpty && decide (u.toNat % 8 = 0)) 2 s (fun s0 =>
    okAnd (stackAcc e 12 (-8) { write := true }) s0 (fun v1 s1 =>
    let acc := v1.2
    let y := (s1.core e.c).arch.pReg 13
    decide ((Place.mem acc).takes y.tag = true) &&
    okAnd (writePlace e 8 (.mem acc) y.data y.tag) s1 (fun _ _ => true)))) = true ∧
    (let a : At := at0
    let u : BitVec 16 := 0
    let s : State := st0
    let len := instrLen a 1 [] 2
    let e := envOf s a.core.val len
    startsAnd a len (a.pfx.isEmpty && decide (u.toNat % 8 = 0)) 2 s (fun s0 =>
    okAnd (stackAcc e 13 u.toNat {}) s0 (fun v1 s1 =>
    let acc := v1.2
    okAnd (readPlace e 3 8 false (.mem acc)) s1 (fun _ _ => true)))) = true := by
  refine ⟨?_, ?_, ?_, ?_⟩ <;> decide +kernel

/-- The hypotheses of each clause of BranchesComplete are met. -/
theorem test_hyps_BranchesComplete :
    (let a : At := at0
    let cond : BitVec 4 := 15
    let hint : Bool := false
    let d : Disp := .rel8 0x80
    let s : State := st0
    let len := instrLen a (dispOpcode d) [] (dispBytes d)
    let e := envOf s a.core.val len
    startsAnd a len a.pfx.isEmpty 2 s (fun s0 =>
    let taken := condition cond.toNat (s0.core e.c).arch.sw
    okAnd (predictDirection e hint taken) s0 (fun _ s1 =>
    okAnd (noteTaken e (relTarget e (dispVal d))) s1 (fun _ _ => true)))) = true ∧
    (let a : At := at0
    let d : Disp := .rel32 0x7FFFFFFF
    let s : State := st0
    let len := instrLen a 1 [] (dispBytes d)
    let e := envOf s a.core.val len
    startsAnd a len a.pfx.isEmpty 2 s (fun s0 =>
    okAnd (noteTaken e (relTarget e (dispVal d))) s0 (fun _ _ => true))) = true ∧
    (let a : At := at0
    let d : BitVec 32 := 0x80000000
    let s : State := st0
    let len := instrLen a 1 [] 4
    let e := envOf s a.core.val len
    startsAnd a len a.pfx.isEmpty 2 s (fun s0 =>
    okAnd (stackAcc e 12 (-8) { write := true }) s0 (fun v1 s1 =>
    let acc := v1.2
    decide ((Place.mem acc).takes .codeptr = true) &&
    okAnd (pushLink e acc) s1 (fun _ s2 =>
    okAnd (noteTaken e (relTarget e d.toInt)) s2 (fun _ _ => true))))) = true ∧
    (let a : At := at0
    let o : Opd := .p 2
    let s : State := st0
    let len := instrLen a 1 [o] 0
    let e := envOf s a.core.val len
    startsAnd a len (a.pfx.isEmpty && opdSrc o) 2 s (fun s0 =>
    okAnd (formOpd e 0 8 {} o) s0 (fun v1 s1 =>
    let ps := v1
    okAnd (stackAcc e 12 (-8) { write := true }) s1 (fun v2 s2 =>
    let acc := v2.2
    okAnd (readPlace e 0 8 false ps) s2 (fun v3 s3 =>
    let y := v3
    decide (y.passes (fun t =>
    decide (t = .codeptr)) = true) && decide ((Place.mem acc).takes .codeptr = true) &&
    okAnd (pushLink e acc) s3 (fun _ s4 =>
    okAnd (predictTarget e (y.val.truncate 47)) s4 (fun _ s5 =>
    okAnd (noteTaken e (y.val.truncate 47)) s5 (fun _ _ => true)))))))) = true ∧
    (let a : At := at0
    let o : Opd := .p 2
    let s : State := st0
    let len := instrLen a 1 [o] 0
    let e := envOf s a.core.val len
    startsAnd a len (a.pfx.isEmpty && opdSrc o) 2 s (fun s0 =>
    okAnd (oneRead e 8 {} false o) s0 (fun v1 s1 =>
    let y := v1.2
    decide (y.passes (fun t =>
    decide (t = .codeptr)) = true) &&
    okAnd (predictTarget e (y.val.truncate 47)) s1 (fun _ s2 =>
    okAnd (noteTaken e (y.val.truncate 47)) s2 (fun _ _ => true))))) = true ∧
    (let a : At := at0
    let s : State := st0
    let len := instrLen a 1 [] 0
    let e := envOf s a.core.val len
    startsAnd a len a.pfx.isEmpty 2 s (fun s0 =>
    okAnd (stackAcc e 12 0 {}) s0 (fun v1 s1 =>
    let sp := v1.1
    let acc := v1.2
    okAnd (readPlace e 3 8 false (.mem acc)) s1 (fun v2 s2 =>
    let y := v2
    decide (y.passes (fun t =>
    decide (t = .codeptr)) = true) &&
    okAnd (predictReturn e (y.val.truncate 47)) (s2.setArch e.c (·.setP 12 ⟨BitVec.ofNat 64 (addrAdd sp 8), .ptr⟩)) (fun _ s3 =>
    okAnd (popReturn e) s3 (fun _ s4 =>
    okAnd (noteTaken e (y.val.truncate 47)) s4 (fun _ _ => true))))))) = true ∧
    (let a : At := at0
    let s : State := st0
    let len := instrLen a 1 [] 0
    startsAnd a len a.pfx.isEmpty 2 s (fun _ => true)) = true := by
  refine ⟨?_, ?_, ?_, ?_, ?_, ?_, ?_⟩ <;> decide +kernel

/-- The hypotheses of each clause of SystemCompletes are met. -/
theorem test_hyps_SystemCompletes :
    (let a : At := at0
    let s : State := st0
    let len := instrLen a 1 [] 0
    startsAnd a len a.pfx.isEmpty 1 s (fun _ => true)) = true ∧
    (let a : At := at0
    let s : State := st0
    let len := instrLen a 1 [] 1
    startsAnd a len a.pfx.isEmpty 2 s (fun _ => true)) = true ∧
    (let a : At := at0
    let s : State := st0
    let len := instrLen a 1 [] 0
    startsAnd a len a.pfx.isEmpty 2 s (fun _ => true)) = true ∧
    (let a : At := at0
    let s : State := st0
    let len := instrLen a 1 [] 0
    let e := envOf s a.core.val len
    startsAnd a len a.pfx.isEmpty 1 s (fun s0 =>
    let b := (s0.core e.c).arch.bank e.pl
    decide (b.epc.tag = .codeptr))) = true ∧
    (let a : At := at0
    let s : State := st0
    let len := instrLen a 1 [] 0
    let e := envOf s a.core.val len
    startsAnd a len a.pfx.isEmpty 2 s (fun s0 =>
    okAnd (fenceAll e) s0 (fun _ _ => true))) = true ∧
    (let a : At := at0
    let s : State := st0
    let len := instrLen a 1 [] 0
    let e := envOf s a.core.val len
    startsAnd a len a.pfx.isEmpty 2 s (fun s0 =>
    okAnd (fenceAll e) s0 (fun _ _ => true))) = true ∧
    (let a : At := at0
    let d : Opd := m1
    let s : State := st0
    let len := instrLen a 1 [d] 0
    let e := envOf s a.core.val len
    startsAnd a len (a.pfx.isEmpty && opdDst d) 2 s (fun s0 =>
    okAnd (formOpd e 0 8 { write := true } d) s0 (fun v1 s1 =>
    let pd := v1
    okAnd (writePlace e 8 pd (s1.core e.c).arch.sw .int) s1 (fun _ _ => true)))) = true ∧
    (let a : At := at0
    let o : Opd := x0
    let s : State := st0
    let len := instrLen a 1 [o] 0
    let e := envOf s a.core.val len
    startsAnd a len (a.pfx.isEmpty && opdSrc o) 2 s (fun s0 =>
    okAnd (oneRead e 8 {} false o) s0 (fun v1 _ =>
    let y := v1.2
    decide (y.passes (fun t =>
    decide (t = .int)) = true)))) = true := by
  refine ⟨?_, ?_, ?_, ?_, ?_, ?_, ?_, ?_⟩ <;> decide +kernel

/-- The hypotheses of each clause of ControlRegistersComplete are met. -/
theorem test_hyps_ControlRegistersComplete :
    (let p := (fun (a : At) (d : Opd) (_ : BitVec 8) => Instr.icAck a d, some 0x41)
    let a : At := at0
    let d : Opd := x0
    let b : BitVec 8 := 0
    let s : State := st0
    let n := p.2.getD b.toNat
    let len := instrLen a 1 [d] 1
    let e := envOf s a.core.val len
    startsAnd a len (a.pfx.isEmpty && opdDst d) 2 s (fun s0 =>
    okAnd (crGate e n false) s0 (fun _ t1 =>
    decide (t1 = s0) &&
    okAnd (formOpd e 0 8 { write := true } d) s0 (fun v2 s1 =>
    let pd := v2
    let r := crRead e n s1
    decide (pd.takes r.1.tag = true) &&
    okAnd (writePlace e 8 pd r.1.data r.1.tag) r.2 (fun _ _ => true))))) = true ∧
    (let p := (fun a d n => Instr.mfcr a d n, none)
    let a : At := at0
    let d : Opd := m1
    let b : BitVec 8 := 0x10
    let s : State := st0
    let n := p.2.getD b.toNat
    let len := instrLen a 1 [d] 1
    let e := envOf s a.core.val len
    startsAnd a len (a.pfx.isEmpty && opdDst d) 2 s (fun s0 =>
    okAnd (crGate e n false) s0 (fun _ t1 =>
    decide (t1 = s0) &&
    okAnd (formOpd e 0 8 { write := true } d) s0 (fun v2 s1 =>
    let pd := v2
    let r := crRead e n s1
    decide (pd.takes r.1.tag = true) &&
    okAnd (writePlace e 8 pd r.1.data r.1.tag) r.2 (fun _ _ => true))))) = true ∧
    (let p := (fun (a : At) (_ : BitVec 8) (o : Opd) => Instr.icEoi a o, some 0x42)
    let a : At := at0
    let b : BitVec 8 := 0
    let o : Opd := x0
    let s : State := st0
    let n := p.2.getD b.toNat
    let len := instrLen a 1 [o] 1
    let e := envOf s a.core.val len
    startsAnd a len (a.pfx.isEmpty && opdSrc o) 2 s (fun s0 =>
    okAnd (crGate e n true) s0 (fun _ t1 =>
    decide (t1 = s0) &&
    okAnd (oneRead e 8 {} false o) s0 (fun v2 s1 =>
    let y := v2.2
    decide (y.passes (crTakes n) = true) && decide (((n = 0x00 ∨ n = 0x10) → y.val.toNat % 4096 = 0)) && decide ((n = 0x45 → maySetPending
      s1 (s1.core e.c).stall (y.val.truncate 11).toNat = true)) &&
    okAnd (if crSyncs n then fenceAll e else pure ()) s1 (fun _ s2 =>
    let r := crWrite e n ⟨y.val, y.tag⟩ s2
    decide (r.1 = false)))))) = true ∧
    (let p := (fun (a : At) (n : BitVec 8) (o : Opd) => Instr.mtcr a n o, (none : Option Nat))
    let a : At := at0
    let b : BitVec 8 := 0x10
    let o : Opd := .p 2
    let s : State := st0
    let n := p.2.getD b.toNat
    let len := instrLen a 1 [o] 1
    let e := envOf s a.core.val len
    startsAnd a len (a.pfx.isEmpty && opdSrc o) 2 s (fun s0 =>
    okAnd (crGate e n true) s0 (fun _ t1 =>
    decide (t1 = s0) &&
    okAnd (oneRead e 8 {} false o) s0 (fun v2 s1 =>
    let y := v2.2
    decide (y.passes (crTakes n) = true) && decide (((n = 0x00 ∨ n = 0x10) → y.val.toNat % 4096 = 0)) && decide ((n = 0x45 → maySetPending
      s1 (s1.core e.c).stall (y.val.truncate 11).toNat = true)) &&
    okAnd (if crSyncs n then fenceAll e else pure ()) s1 (fun _ s2 =>
    let r := crWrite e n ⟨y.val, y.tag⟩ s2
    decide (r.1 = false)))))) = true := by
  refine ⟨?_, ?_, ?_, ?_⟩ <;> decide +kernel

/-- The hypotheses of each clause of FpCompletes are met. -/
theorem test_hyps_FpCompletes :
    (let p := (Instr.fadd, true, fun (f : Fmt) (rm : Nat) (l : List Nat) => fAdd f rm (arg l 0) (arg l 1))
    let a : At := at0
    let z : FSz := .d
    let d : Opd := .f 1
    let o : Opd := .f 2
    let s : State := st0
    let len := instrLen a 1 [d, o] 0
    let e := envOf s a.core.val len
    startsAnd a len (a.pfx.isEmpty && opdDst d && opdFSrc (fszBytes z) o) 2 s (fun s0 =>
    okAnd (fpRead e (fszBytes z) (fszBytes z) p.2.1 d [o]) s0 (fun v1 s1 =>
    let pd := v1.1
    let ys := v1.2
    let r := p.2.2 (fmtOf z) (swRm (s1.core e.c).arch.sw) (ys.map (·.val.toNat))
    (ys).all (fun y =>
    decide (y.passes isFpTag = true)) &&
    okAnd (writePlace e (fszBytes z) pd (BitVec.ofNat 64 r.bits) (fpTag (ys.map (·.tag)))) s1 (fun _ _ => true)))) = true ∧
    (let a : At := at0
    let z : FSz := .d
    let d : Opd := .f 1
    let o : Opd := .f 2
    let u : Opd := .f 1
    let s : State := st0
    let len := instrLen a 1 [d, o, u] 0
    let e := envOf s a.core.val len
    startsAnd a len (a.pfx.isEmpty && opdDst d && opdFSrc (fszBytes z) o && opdFSrc (fszBytes z) u) 2 s (fun s0 =>
    okAnd (fpRead e (fszBytes z) (fszBytes z) true d [o, u]) s0 (fun v1 s1 =>
    let pd := v1.1
    let ys := v1.2
    let l := ys.map (·.val.toNat)
    let r := fMulAdd (fmtOf z) (swRm (s1.core e.c).arch.sw) (arg l 0) (arg l 1) (arg l 2)
    (ys).all (fun y =>
    decide (y.passes isFpTag = true)) &&
    okAnd (writePlace e (fszBytes z) pd (BitVec.ofNat 64 r.bits) (fpTag (ys.map (·.tag)))) s1 (fun _ _ => true)))) = true ∧
    (let p := (Instr.cvtif, (8, 8, false), opdSrc, isIntTag, Tag.float, fun (rm v : Nat) => fOfInt rm (sInt 64 v))
    let a : At := at0
    let d : Opd := .f 1
    let o : Opd := x0
    let s : State := st0
    let len := instrLen a 1 [d, o] 0
    let e := envOf s a.core.val len
    let q := p.2.1
    startsAnd a len (a.pfx.isEmpty && opdDst d && p.2.2.1 o) 2 s (fun s0 =>
    okAnd (destSource e q.1 q.2.1 q.2.2 d o) s0 (fun v1 s1 =>
    let pd := v1.1
    let y := v1.2.2
    let r := p.2.2.2.2.2 (swRm (s1.core e.c).arch.sw) y.val.toNat
    decide (y.passes p.2.2.2.1 = true) &&
    okAnd (writePlace e q.1 pd (BitVec.ofNat 64 r.bits) (if y.tag = .bytes then .bytes else p.2.2.2.2.1)) s1 (fun _ _ => true)))) = true := by
  refine ⟨?_, ?_, ?_⟩ <;> decide +kernel

/-- The hypotheses of each clause of CacheMaintenanceCompletes are met. -/
theorem test_hyps_CacheMaintenanceCompletes :
    (let p := (Instr.cclean, Maint.clean, 2)
    let a : At := at0
    let m : Opd := m1
    let s : State := withP 1 0x400000000000 st0
    let len := instrLen a 2 [m] 0
    let e := envOf s a.core.val len
    let w := decide (p.2.1 = .discard)
    startsAnd a len (a.pfx.isEmpty && opdMem m) p.2.2 s (fun s0 =>
    okAnd (formAddr e 0 m) s0 (fun v1 s1 =>
    let va := v1
    okAnd (xlat e.c va { write := w } (fun f => xlatExc f va 0 w false false false)) s1 (fun v2 s2 =>
    let x := v2
    okAnd (fenceAll e) s2 (fun _ _ =>
    decide (x.side = true)))))) = true ∧
    (let p := (Instr.cclean, Maint.clean, 2)
    let a : At := at0
    let m : Opd := m1
    let s : State := st0
    let len := instrLen a 2 [m] 0
    let e := envOf s a.core.val len
    let w := decide (p.2.1 = .discard)
    startsAnd a len (a.pfx.isEmpty && opdMem m) p.2.2 s (fun s0 =>
    okAnd (formAddr e 0 m) s0 (fun v1 s1 =>
    let va := v1
    okAnd (xlat e.c va { write := w } (fun f => xlatExc f va 0 w false false false)) s1 (fun v2 s2 =>
    let x := v2
    okAnd (fenceAll e) s2 (fun _ s3 =>
    decide (x.side = false) && decide (coreWaits s3 e.c (x.pa / 64) = false) && true))))) = true ∧
    (let a : At := at0
    let m : Opd := m1
    let s : State := st0
    let len := instrLen a 2 [m] 0
    let e := envOf s a.core.val len
    startsAnd a len (a.pfx.isEmpty && opdMem m) 2 s (fun s0 =>
    okAnd (formAddr e 0 m) s0 (fun v1 s1 =>
    let va := v1
    okAnd (xlat e.c va { write := true, special := true } (fun f => xlatExc f va 0 true false false false)) s1 (fun v2 s2 =>
    let x := v2
    let k := x.pa / 256
    decide (va % 256 = 0) &&
    okAnd (fenceAll e) s2 (fun _ s3 => ([4 * k, 4 * k + 1, 4 * k + 2, 4 * k + 3]).all (fun l =>
    decide (coreWaits s3 e.c l = false))))))) = true ∧
    (let p := (Instr.crangeClean, Maint.clean, 2)
    let a : At := at0
    let s : State := withX 0 64 st0
    let len := instrLen a 2 [] 1
    let e := envOf s a.core.val len
    startsAnd a len a.pfx.isEmpty p.2.2 s (fun s0 =>
    okAnd (baseReg e 14 3) s0 (fun v1 s1 =>
    let va := v1
    let t := (s1.core e.c).arch.xReg 0
    decide (isIntTag t.tag = true) && decide (va % 64 = 0) && decide (t.data.toNat % 64 = 0) &&
    okAnd (fenceAll e) s1 (fun _ s2 =>
    okAnd (rangeLoop p.2.1 e (t.data.toNat / 64) 0) s2 (fun _ _ => true))))) = true := by
  refine ⟨?_, ?_, ?_, ?_⟩ <;> decide +kernel

/-- The hypotheses of each clause of InvalidationsComplete are met. -/
theorem test_hyps_InvalidationsComplete :
    (let p := (Instr.tlbiVa, false)
    let a : At := at0
    let m : Opd := m1
    let s : State := st0
    let len := instrLen a 2 [m] 0
    let e := envOf s a.core.val len
    startsAnd a len (a.pfx.isEmpty && opdMem m) 1 s (fun s0 =>
    okAnd (formAddr e 0 m) s0 (fun v1 s1 =>
    let va := v1
    okAnd (performInval e p.2 (invalVa (s1.core e.c).stall ((s1.core e.c).arch.ttbr.truncate 12) va)) s1 (fun v2 _ =>
    decide (v2 = e.npc))))) = true ∧
    (let p := (Instr.tlbiAsid, false, 1, fun (st : Nat) (v : Word) => invalAsid st (v.truncate 12))
    let a : At := at0
    let o : Opd := x0
    let s : State := st0
    let len := instrLen a 2 [o] 0
    let e := envOf s a.core.val len
    startsAnd a len (a.pfx.isEmpty && opdSrc o) p.2.2.1 s (fun s0 =>
    okAnd (tlbiSrc e 0 o) s0 (fun v1 s1 =>
    let v := v1
    okAnd (performInval e p.2.1 (p.2.2.2 (s1.core e.c).stall v)) s1 (fun v2 _ =>
    decide (v2 = e.npc))))) = true ∧
    (let p := (Instr.tlbiStall, false, 1, invalStall)
    let a : At := at0
    let s : State := st0
    let len := instrLen a 2 [] 0
    let e := envOf s a.core.val len
    startsAnd a len a.pfx.isEmpty p.2.2.1 s (fun s0 =>
    okAnd (performInval e p.2.1 (p.2.2.2 (s0.core e.c).stall)) s0 (fun v1 _ =>
    decide (v1 = e.npc)))) = true ∧
    (let a : At := at0
    let o : Opd := x0
    let s : State := st0
    let len := instrLen a 2 [o] 0
    let e := envOf s a.core.val len
    startsAnd a len (a.pfx.isEmpty && opdSrc o) 1 s (fun s0 =>
    okAnd (tlbiSrc e 0 o) s0 (fun v1 s1 =>
    let v := v1
    let n := natField v.toNat 0 9
    decide ((e.pl ≠ 0 → n = (s1.core e.c).stall)) &&
    okAnd (fenceAll e) s1 (fun _ _ => true)))) = true ∧
    (let a : At := at0
    let m : Opd := m1
    let o : Opd := x0
    let s : State := st0
    let len := instrLen a 2 [m, o] 0
    let e := envOf s a.core.val len
    startsAnd a len (a.pfx.isEmpty && opdMem m && opdSrc o) 1 s (fun s0 =>
    okAnd (formAddr e 0 m) s0 (fun _ s1 =>
    okAnd (tlbiSrc e 1 o) s1 (fun v2 s2 =>
    let v := v2
    let n := natField v.toNat 0 9
    decide ((e.pl ≠ 0 → n = (s2.core e.c).stall)) &&
    okAnd (fenceAll e) s2 (fun _ _ => true))))) = true ∧
    (let c : CoreId := 0
    let s : State := st0.setCore 0 { tlbiWait := true }
    decide ((s.core c.val).tlbiWait = true) &&
    someAnd (performTranslated s) (fun _ => true)) = true := by
  refine ⟨?_, ?_, ?_, ?_, ?_, ?_⟩ <;> decide +kernel

/-- The hypotheses of each clause of BlocksComplete are met. -/
theorem test_hyps_BlocksComplete :
    (let p := (Instr.bcopy, bcopyElem, false)
    let a : At := at0
    let ctl : BitVec 8 := 0
    let s : State := st0
    let len := instrLen a 2 [] 1
    let e := envOf s a.core.val len
    startsAnd a len (a.pfx.isEmpty && ctlOk ctl p.2.2) 2 s (fun s0 =>
    decide (ctlRun ctl = 0) &&
    okAnd (p.2.1 ctl e) s0 (fun _ _ => true))) = true ∧
    (let p := (Instr.bcopy, bcopyElem, false)
    let a : At := at0
    let ctl : BitVec 8 := 8
    let s : State := st0
    let len := instrLen a 2 [] 1
    let e := envOf s a.core.val len
    startsAnd a len (a.pfx.isEmpty && ctlOk ctl p.2.2) 2 s (fun s0 =>
    let x0 := (s0.core e.c).arch.xReg 0
    decide (ctlRun ctl ≠ 0) && decide (isIntTag x0.tag = true) &&
    okAnd (blockLoop (ctlRun ctl) (p.2.1 ctl) (!p.2.2 && decide (ctlBytes ctl = 8)) e x0.data.toNat true) s0 (fun _ _ => true))) = true := by
  refine ⟨?_, ?_⟩ <;> decide +kernel

/-- The hypotheses of each clause of AtomicsComplete are met. -/
theorem test_hyps_AtomicsComplete :
    (let p := (Instr.xadd, AtomOp.xadd)
    let a : At := at0
    let dbl : Bool := true
    let m : Opd := m1
    let o : Opd := x0
    let s : State := st0
    let len := instrLen a 2 [m, o] 0
    let e := envOf s a.core.val len
    let n := if dbl then 8 else 4
    startsAnd a len (atomLegal a p.2 m o) 2 s (fun s0 =>
    okAnd (formAddr e 0 m) s0 (fun v1 s1 =>
    let va := v1
    okAnd (xlat e.c va { write := true, special := true } (fun f => xlatExc f va 0 true false false false)) s1 (fun v2 s2 =>
    let x := v2
    decide (va % n = 0) &&
    okAnd (formOpd e 1 n {} o) s2 (fun v3 s3 =>
    let ps := v3
    okAnd (fenceAll e) s3 (fun _ s4 =>
    decide (coreWaits s4 e.c (x.pa / 64) = false) &&
    okAnd (readPlace e 1 n false ps) s4 (fun v5 s5 =>
    let y := v5
    let walk := (s5.core e.c).walk
    let tile := coreTile s5 e.c
    let q := if a.pfx = [.near] then (walk, s5) else if a.pfx = [.far] ∨ walk = true then (true, s5) else predictAtomic (x.pa / 64) (some
      tile) s5
    let far := q.1
    let s6 := q.2
    let s7 := atomFetch far e.c (coreAttr (s6.core e.c) x) (x.pa / 64) s6
    let w := readWord s7 (x.pa / 8)
    let cmp := (s7.core e.c).arch.xReg 1
    let r := atomCompute p.2 dbl (va % 8) w ⟨y.val, y.tag⟩ cmp
    decide (atomMemOk p.2 dbl w.tag = true) && decide (y.passes (atomSrcOk p.2 dbl) = true) && decide ((p.2 = .cas → dbl = false →
      comparable cmp.tag = true)) && decide ((far, s6) = (if a.pfx = [.near] then (walk, s5) else if a.pfx = [.far] ∨ walk = true then
      (true, s5) else predictAtomic (x.pa / 64) (some tile) s5)) &&
    okAnd (atomDeliver p.2 e n ps r.old) (withFlags (atomWrite far (coreAttr (s7.core e.c) x) tile (x.pa / 8) r.new s7) e.c r.flags) (fun _
      _ => true)))))))) = true := by
  decide +kernel

/-- The hypotheses of each clause of VectorArithmeticCompletes are met. -/
theorem test_hyps_VectorArithmeticCompletes :
    (let p := (Instr.vadd, anyEs, fun (_ x y : Nat) => x + y)
    let a : At := at0
    let d : Opd := v4
    let o : Opd := v5
    let s : State := st0
    let len := instrLen a 2 [d, o] 0
    let e := envOf s a.core.val len
    let v := vcOf (vpByte a)
    startsAnd a len (vLegal a p.2.1 && isV d && vSrcOk false v.es o) 2 s (fun s0 =>
    let act := activeOf s0 a
    okAnd (vecRead v.es false act [(0, d)] (some (1, o)) e) s0 (fun _ _ => true))) = true ∧
    (let p := (Instr.vshl, anyEs, fun (es x y : Nat) => x * 2 ^ (y % es))
    let a : At := vp 0x08
    let d : Opd := v4
    let o : Opd := v5
    let s : State := st0
    let len := instrLen a 2 [d, o] 0
    let e := envOf s a.core.val len
    let v := vcOf (vpByte a)
    startsAnd a len (vLegal a p.2.1 && isV d && vSrcOk false v.es o) 2 s (fun s0 =>
    let act := activeOf s0 a
    okAnd (vecRead v.es false act [(0, d)] (some (1, o)) e) s0 (fun _ _ => true))) = true ∧
    (let a : At := at0
    let d : Opd := v1
    let o : Opd := v2
    let s : State := st0
    let len := instrLen a 2 [d, o] 0
    let e := envOf s a.core.val len
    let v := vcOf (vpByte a)
    startsAnd a len (vLegal a fpEs && isV d && vSrcOk true v.es o) 2 s (fun s0 =>
    let act := activeOf s0 a
    okAnd (vecRead v.es true act [(0, d)] (some (1, o)) e) s0 (fun _ _ => true))) = true ∧
    (let a : At := at0
    let d : Opd := v1
    let x : Opd := v2
    let o : Opd := v1
    let s : State := st0
    let len := instrLen a 2 [d, x, o] 0
    let e := envOf s a.core.val len
    let v := vcOf (vpByte a)
    startsAnd a len (vLegal a fpEs && isV d && isV x && vSrcOk true v.es o) 2 s (fun s0 =>
    let act := activeOf s0 a
    okAnd (vecRead v.es true act [(0, d), (1, x)] (some (2, o)) e) s0 (fun _ _ => true))) = true ∧
    (let p := (fun (a : At) (d _ o : Opd) => Instr.vgfmul a d o, fun (d _ o : Opd) => ([d, o], [(0, d)], some (1, o)),
            fun (_ :
      Opd) (o : Opd) => vSrcOk false 8 o, fun (l : List Nat) => gf8 (arg l 0) (arg l 1))
    let a : At := at0
    let d : Opd := v4
    let x : Opd := v4
    let o : Opd := v5
    let s : State := st0
    let q := p.2.1 d x o
    let len := instrLen a 2 q.1 0
    let e := envOf s a.core.val len
    let v := vcOf (vpByte a)
    startsAnd a len (vLegal a anyEs && isV d && p.2.2.1 x o) 2 s (fun s0 =>
    let act := activeIn (s0.core e.c).arch v 64
    okAnd (vecRead 8 false act q.2.1 q.2.2 e) s0 (fun _ _ => true))) = true := by
  refine ⟨?_, ?_, ?_, ?_, ?_⟩ <;> decide +kernel

/-- The hypotheses of each clause of VectorComparesComplete are met. -/
theorem test_hyps_VectorComparesComplete :
    (let p := (Instr.vcmpeq, false, anyEs, fun (_ x y : Nat) => (decide (x = y), ({} : FFlags)))
    let a : At := at0
    let x : Opd := v4
    let o : Opd := v5
    let k : BitVec 8 := 7
    let s : State := st0
    let len := instrLen a 2 [x, o] 1
    let e := envOf s a.core.val len
    let v := vcOf (vpByte a)
    let n := vCount v.es
    startsAnd a len (vLegal a p.2.2.1 && isV x && vSrcOk p.2.1 v.es o && kOk k true) 2 s (fun s0 =>
    let act := activeOf s0 a
    okAnd (formVSrc e 1 p.2.1 v.es (actives n act) o) s0 (fun v1 s1 =>
    let src := v1
    let xs := vWords s1 e.c (vReg x)
    okAnd (readVSrc e 1 v.es n act src) s1 (fun v2 s2 =>
    let ys := v2
    okAnd (do checkVec 0 v.es act (if p.2.1 then isFpTag else isIntTag) xs; checkVec 1 v.es act (if p.2.1 then isFpTag else isIntTag) ys) s2
      (fun _ t3 =>
    decide (t3 = s2)))))) = true := by
  decide +kernel

/-- The hypotheses of each clause of VectorMemoryCompletes are met. -/
theorem test_hyps_VectorMemoryCompletes :
    (let a : At := at0
    let d : Opd := v4
    let m : Opd := m1
    let s : State := st0
    let len := instrLen a 2 [d, m] 0
    let e := envOf s a.core.val len
    let v := vcOf (vpByte a)
    let n := vCount v.es
    startsAnd a len (vLegal a anyEs && isV d && opdMem m) 2 s (fun s0 =>
    let act := activeOf s0 a
    okAnd (formVec e 1 m v.es (actives n act) false) s0 (fun v1 s1 =>
    let acc := v1
    okAnd (loadVec e 1 acc v.es n act) s1 (fun _ _ => true)))) = true ∧
    (let a : At := at0
    let m : Opd := m1
    let o : Opd := v4
    let s : State := st0
    let len := instrLen a 2 [m, o] 0
    let e := envOf s a.core.val len
    let v := vcOf (vpByte a)
    let n := vCount v.es
    startsAnd a len (vLegal a anyEs && opdMem m && isV o) 2 s (fun s0 =>
    let act := activeOf s0 a
    okAnd (formVec e 0 m v.es (actives n act) true) s0 (fun v1 s1 =>
    let acc := v1
    let ws := vWords s1 e.c (vReg o)
    okAnd (checkVec 1 v.es act loadable ws) s1 (fun _ t2 =>
    decide (t2 = s1) &&
    okAnd (storeVec e acc v.es n act ws) s1 (fun _ _ => true))))) = true ∧
    (let a : At := at0
    let d : Opd := v5
    let b : Opd := .p 1
    let ix : Opd := v4
    let scale : BitVec 8 := 3
    let s : State := st0.setArch 0 (fun b => { b with vri := 7 })
    let len := instrLen a 2 [d, b, ix] 1
    let e := envOf s a.core.val len
    let v := vcOf (vpByte a)
    let n := vCount v.es
    startsAnd a len (gatherLegal a false d b ix scale) 2 s (fun s0 =>
    let act := activeOf s0 a
    let start := (s0.core e.c).arch.vri.toNat
    decide (pastLast n act start = true))) = true ∧
    (let a : At := at0
    let d : Opd := v5
    let b : Opd := .p 1
    let ix : Opd := v4
    let scale : BitVec 8 := 3
    let s : State := st0
    let len := instrLen a 2 [d, b, ix] 1
    let e := envOf s a.core.val len
    let v := vcOf (vpByte a)
    let n := vCount v.es
    startsAnd a len (gatherLegal a false d b ix scale) 2 s (fun s0 =>
    let act := activeOf s0 a
    let start := (s0.core e.c).arch.vri.toNat
    let idx := vWords s0 e.c (vReg ix)
    decide (pastLast n act start = false) &&
    okAnd (gatherLoop e (fun i => gatherLoad e v.es i ((pReg b).getD 0) idx scale) act true start start (n - start) []) s0 (fun v1 _ =>
    let g := v1
    decide (g.stop = none)))) = true ∧
    (let a : At := vp 0x70
    let d : Opd := v5
    let b : Opd := .p 1
    let ix : Opd := v4
    let scale : BitVec 8 := 3
    let s : State := st0
    let len := instrLen a 2 [d, b, ix] 1
    let e := envOf s a.core.val len
    let v := vcOf (vpByte a)
    let n := vCount v.es
    startsAnd a len (gatherLegal a true d b ix scale) 2 s (fun s0 =>
    let act := activeOf s0 a
    let idx := vWords s0 e.c (vReg ix)
    okAnd (gatherLoop e (fun i => gatherLoad e v.es i ((pReg b).getD 0) idx scale) act false 0 0 n []) s0 (fun v1 _ =>
    let g := v1
    decide (g.stop = none)))) = true ∧
    (let a : At := vp 0x70
    let d : Opd := v5
    let b : Opd := .p 1
    let ix : Opd := v6
    let scale : BitVec 8 := 0
    let s : State := st0
    let len := instrLen a 2 [d, b, ix] 1
    let e := envOf s a.core.val len
    let v := vcOf (vpByte a)
    let n := vCount v.es
    startsAnd a len (gatherLegal a true d b ix scale) 2 s (fun s0 =>
    let act := activeOf s0 a
    let idx := vWords s0 e.c (vReg ix)
    okAnd (gatherLoop e (fun i => gatherLoad e v.es i ((pReg b).getD 0) idx scale) act false 0 0 n []) s0 (fun v1 _ =>
    let g := v1
    decide ((match g.stop with | some (.exc _) => true | _ => false) = true) && decide (g.vals ≠ [])))) = true ∧
    (let a : At := at0
    let b : Opd := .p 1
    let ix : Opd := v4
    let o : Opd := v5
    let scale : BitVec 8 := 3
    let s : State := st0.setArch 0 (fun b => { b with vri := 7 })
    let len := instrLen a 2 [b, ix, o] 1
    let e := envOf s a.core.val len
    let v := vcOf (vpByte a)
    let n := vCount v.es
    startsAnd a len (gatherLegal a false o b ix scale) 2 s (fun s0 =>
    let act := activeOf s0 a
    let start := (s0.core e.c).arch.vri.toNat
    decide (pastLast n act start = true))) = true ∧
    (let a : At := at0
    let b : Opd := .p 1
    let ix : Opd := v4
    let o : Opd := v5
    let scale : BitVec 8 := 3
    let s : State := st0
    let len := instrLen a 2 [b, ix, o] 1
    let e := envOf s a.core.val len
    let v := vcOf (vpByte a)
    let n := vCount v.es
    startsAnd a len (gatherLegal a false o b ix scale) 2 s (fun s0 =>
    let act := activeOf s0 a
    let start := (s0.core e.c).arch.vri.toNat
    decide (pastLast n act start = false) &&
    okAnd (gatherLoop e (fun k => scatterStore e v.es k ((pReg b).getD 0) (vWords s0 e.c (vReg ix)) (vWords s0 e.c (vReg o)) scale) act true
      start start (n - start) []) s0 (fun v1 _ =>
    let g := v1
    decide (g.stop = none)))) = true := by
  refine ⟨?_, ?_, ?_, ?_, ?_, ?_, ?_, ?_⟩ <;> decide +kernel

/-- The hypotheses of each clause of VectorControlCompletes are met. -/
theorem test_hyps_VectorControlCompletes :
    (let a : At := at0
    let d : Opd := v1
    let x : Opd := v4
    let ix : Opd := v5
    let s : State := st0
    let len := instrLen a 2 [d, x, ix] 0
    let e := envOf s a.core.val len
    let v := vcOf (vpByte a)
    startsAnd a len (vLegal a anyEs && isV d && isV x && isV ix) 2 s (fun s0 =>
    let act := activeOf s0 a
    let xs := vWords s0 e.c (vReg x)
    let is := vWords s0 e.c (vReg ix)
    okAnd (do checkVec 1 v.es act isIntTag xs; checkVec 2 v.es act isIntTag is) s0 (fun _ t1 =>
    decide (t1 = s0)))) = true ∧
    (let a : At := at0
    let d : Opd := v1
    let o : Opd := x0
    let s : State := st0
    let len := instrLen a 2 [d, o] 0
    let e := envOf s a.core.val len
    let v := vcOf (vpByte a)
    startsAnd a len (vLegal a anyEs && isV d && opdSrc o) 2 s (fun s0 =>
    okAnd (formOpd e 1 (v.es / 8) {} o) s0 (fun v1 s1 =>
    let ps := v1
    okAnd (readPlace e 1 (v.es / 8) false ps) s1 (fun v2 _ =>
    let y := v2
    decide (y.passes isIntTag = true))))) = true ∧
    (let a : At := at0
    let d : Opd := x0
    let o : Opd := x2
    let s : State := st0
    let len := instrLen a 2 [d, o] 0
    let e := envOf s a.core.val len
    startsAnd a len (vLegal a anyEs && opdDst d && opdSrc o) 2 s (fun s0 =>
    okAnd (destSource e 8 8 false d o) s0 (fun v1 s1 =>
    let pd := v1.1
    let y := v1.2.2
    let vl := min y.val.toNat (vCount (vcOf (vpByte a)).es)
    decide (y.passes isIntTag = true) &&
    okAnd (writePlace e 8 pd (BitVec.ofNat 64 vl) .int) (s1.setArch e.c (fun b => { b with vl := BitVec.ofNat 7 vl })) (fun _ _ => true)))) = true ∧
    (let a : At := at0
    let k : BitVec 8 := 1
    let o : Opd := x2
    let s : State := st0
    let len := instrLen a 2 [o] 1
    let e := envOf s a.core.val len
    startsAnd a len (vLegal a anyEs && kOk k true && opdSrc o) 2 s (fun s0 =>
    okAnd (oneRead e 8 {} false o) s0 (fun v1 _ =>
    let y := v1.2
    decide (y.passes isIntTag = true)))) = true ∧
    (let a : At := at0
    let d : Opd := x2
    let k : BitVec 8 := 0
    let s : State := st0
    let len := instrLen a 2 [d] 1
    let e := envOf s a.core.val len
    startsAnd a len (vLegal a anyEs && kOk k false && opdDst d) 2 s (fun s0 =>
    okAnd (formOpd e 0 8 { write := true } d) s0 (fun v1 s1 =>
    let pd := v1
    okAnd (writePlace e 8 pd ((s1.core e.c).arch.kReg k.toNat) .int) s1 (fun _ _ => true)))) = true ∧
    (let a : At := at0
    let r : BitVec 8 := 0
    let o : Opd := x2
    let s : State := st0
    let len := instrLen a 2 [o] 1
    let e := envOf s a.core.val len
    startsAnd a len (vLegal a anyEs && decide (r.toNat < 3) && opdSrc o) 2 s (fun s0 =>
    okAnd (oneRead e 8 {} false o) s0 (fun v1 _ =>
    let y := v1.2
    decide (y.passes (fun t =>
    decide (t = .int)) = true)))) = true ∧
    (let a : At := at0
    let r : BitVec 8 := 2
    let o : Opd := x2
    let s : State := st0
    let len := instrLen a 2 [o] 1
    let e := envOf s a.core.val len
    startsAnd a len (vLegal a anyEs && decide (r.toNat < 3) && opdSrc o) 2 s (fun s0 =>
    okAnd (oneRead e 8 {} false o) s0 (fun v1 _ =>
    let y := v1.2
    decide (y.passes (fun t =>
    decide (t = .int)) = true)))) = true ∧
    (let a : At := at0
    let d : Opd := x2
    let r : BitVec 8 := 0
    let s : State := st0
    let len := instrLen a 2 [d] 1
    let e := envOf s a.core.val len
    startsAnd a len (vLegal a anyEs && decide (r.toNat < 3) && opdDst d) 2 s (fun s0 =>
    okAnd (formOpd e 0 8 { write := true } d) s0 (fun v1 s1 =>
    let pd := v1
    let b := (s1.core e.c).arch
    okAnd (writePlace e 8 pd (if r = 0 then b.vl.setWidth 64 else if r = 1 then b.vri.setWidth 64 else b.ffm) .int) s1 (fun _ _ => true)))) = true ∧
    (let a : At := at0
    let d : Opd := m1
    let r : BitVec 8 := 2
    let s : State := st0
    let len := instrLen a 2 [d] 1
    let e := envOf s a.core.val len
    startsAnd a len (vLegal a anyEs && decide (r.toNat < 3) && opdDst d) 2 s (fun s0 =>
    okAnd (formOpd e 0 8 { write := true } d) s0 (fun v1 s1 =>
    let pd := v1
    let b := (s1.core e.c).arch
    okAnd (writePlace e 8 pd (if r = 0 then b.vl.setWidth 64 else if r = 1 then b.vri.setWidth 64 else b.ffm) .int) s1 (fun _ _ => true)))) = true := by
  refine ⟨?_, ?_, ?_, ?_, ?_, ?_, ?_, ?_, ?_⟩ <;> decide +kernel

/-- The hypotheses of each clause of ReinDataCompletes are met. -/
theorem test_hyps_ReinDataCompletes :
    (let p := (Instr.reinGeta, (0 : Fin 3), 8, true)
    let i : Rein := ri 0 0xFFFFFF
    let s : State := st0
    let r := reinAt i s
    reinAnd i (p.2.2.2 || memMode i) false (p.2.1.val :: modeUses i.mode) s (fun s0 =>
    rokAnd (rOperand i p.2.2.1 r) s0 (fun _ _ => true))) = true ∧
    (let p := (Instr.reinGetw, (0 : Fin 3), 4, false)
    let i : Rein := ri 1 8
    let s : State := st0
    let r := reinAt i s
    reinAnd i (p.2.2.2 || memMode i) false (p.2.1.val :: modeUses i.mode) s (fun s0 =>
    rokAnd (rOperand i p.2.2.1 r) s0 (fun _ _ => true))) = true ∧
    (let p := (Instr.reinPuta, 0, 8)
    let i : Rein := ri 3 0xFFFFF8
    let s : State := st0
    let r := reinAt i s
    reinAnd i (memMode i) false (p.2.1 :: modeUses i.mode) s (fun s0 =>
    rokAnd (rStore (rAddr i r) p.2.2 (r.reg p.2.1)) s0 (fun _ _ => true))) = true ∧
    (let i : Rein := ri 1 0
    let s : State := st0
    let r := reinAt i s
    reinAnd i true false (0 :: modeUses i.mode) s (fun s0 =>
    rokAnd (rOperand i 8 r) s0 (fun _ _ => true))) = true ∧
    (let i : Rein := ri 0 1
    let s : State := st0
    let r := reinAt i s
    reinAnd i true false (0 :: modeUses i.mode) s (fun s0 =>
    rokAnd (rOperand i 8 r) s0 (fun _ _ => true))) = true ∧
    (let i : Rein := ri 0 0
    let s : State := st0
    reinAnd i (subField i 6) false [0] s (fun _ => true)) = true ∧
    (let i : Rein := ri 0 63
    let s : State := st0
    reinAnd i (subField i 6) false [0] s (fun _ => true)) = true ∧
    (let p := (Instr.reinStepx, 1, true)
    let i : Rein := ri 0 8
    let s : State := st0
    reinAnd i (immMode i) false [p.2.1] s (fun _ => true)) = true ∧
    (let i : Rein := ri 0 0x33
    let s : State := st0
    let d := natField i.field.toNat 0 4
    let y := natField i.field.toNat 4 4
    reinAnd i (subField i 8 && decide (d < 4) && decide (y < 4)) false [d, y] s (fun _ => true)) = true ∧
    (let i : Rein := ri 0 0
    let s : State := st0
    reinAnd i (subField i 0) false [] s (fun _ => true)) = true := by
  refine ⟨?_, ?_, ?_, ?_, ?_, ?_, ?_, ?_, ?_, ?_⟩ <;> decide +kernel

/-- The hypotheses of each clause of ReinControlCompletes are met. -/
theorem test_hyps_ReinControlCompletes :
    (let i : Rein := ri 0 0x10
    let s : State := st0
    let c := rCond i
    reinAnd i (decide (c ≠ 15)) true [] s (fun _ => true)) = true ∧
    (let i : Rein := ri 0 0x10
    let s : State := st0
    let r := reinAt i s
    reinAnd i (subField i 21) true [3] s (fun s0 =>
    rokAnd (rStore (r.sp - 8).toNat 8 (r.pc + 8)) s0 (fun _ _ => true))) = true ∧
    (let i : Rein := ri 0 0
    let s : State := st0
    let r := reinAt i s
    reinAnd i (subField i 0) true [0] s (fun _ =>
    decide (r.a.toNat % 4 = 0))) = true ∧
    (let i : Rein := ri 0 0
    let s : State := st0
    let r := reinAt i s
    reinAnd i (subField i 0) true [3] s (fun s0 =>
    rokAnd (rLoad r.sp.toNat 8) s0 (fun _ _ => true))) = true ∧
    (let i : Rein := ri 0 0x10
    let s : State := st0
    let n := natField i.field.toNat 0 8
    reinAnd i (subField i 8 && (rCrRights n).1) false [0] s (fun _ => true)) = true ∧
    (let i : Rein := ri 0 0x10
    let s : State := st0
    let r := reinAt i s
    let n := natField i.field.toNat 0 8
    reinAnd i (subField i 8 && (rCrRights n).2) false [0] s (fun s0 =>
    let q := rCrWrite i.pair.val n r.a s0
    decide ((n = 0x10 → r.a.toNat % 4096 = 0)) && decide (q.1 = false))) = true ∧
    (let p := (Instr.reinSvc, 8, 0x0F, true)
    let i : Rein := ri 0 0xFF
    let s : State := st0
    reinAnd i (subField i p.2.1) false [] s (fun _ => true)) = true ∧
    (let i : Rein := ri 0 0
    let s : State := st0
    reinAnd i (subField i 0) false [] s (fun _ => true)) = true ∧
    (let i : Rein := ri 0 0
    let s : State := st0
    reinAnd i (subField i 0) false [] s (fun _ => true)) = true := by
  refine ⟨?_, ?_, ?_, ?_, ?_, ?_, ?_, ?_, ?_⟩ <;> decide +kernel

/-- The hypotheses of each clause of HomeRequestsComplete are met. -/
theorem test_hyps_HomeRequestsComplete :
    (let p := (Instr.rdShr, HomeOp.rdShr, 1)
    let r : Req := req0
    let s : State := st0
    decide (missRoom r s = true) && decide ((p.2.2 = 4 → specRoom r s = true))) = true ∧
    (let r : Req := req0
    let s : State := st0
    decide (missRoom r s = true)) = true ∧
    (let r : Req := req0
    let k : Nat := 0
    let st : L2State := .m
    let s : State := { st0 with coh := { tiles := [(0, { l2 := [(64, ⟨.m⟩)] })] } }
    decide (stopTile r.src.toNat = some k) && decide (l2State s k (lineOf r.pa) = some st) && decide ((s.tile k).wb.length < 16) && ((s.tile
      k).wb).all (fun e =>
    decide (e.line ≠ lineOf r.pa)) && decide (flushFrame k (lineOf r.pa) s = none)) = true ∧
    (let r : Req := { req0 with src := BitVec.ofNat 8 (engineStops.getD 0 0) }
    decide (stopTile r.src.toNat = none)) = true := by
  refine ⟨?_, ?_, ?_, ?_⟩ <;> decide +kernel

/-- The hypotheses of each clause of CoherencePacketsComplete are met. -/
theorem test_hyps_CoherencePacketsComplete :
    (let k : SliceId := ⟨homeSlice st0 16, by decide +kernel⟩
    let cycle : Nat := 0
    let s : State := st0.setSlice (homeSlice st0 16) { queue := [{ req := req0, op := .rdShr }] }
    let s1 := admitReqs s.coh.waiting.length k.val (retryEntry k.val s)
    let l := (s1.slice k.val).queue
    decide (sliceUp s1 k.val = true) &&
    someAnd (pickReq s1 (mayLookUp s1 cycle l) [] l) (fun _ => true)) = true ∧
    (let x := (Instr.snpShr, Snoop.shr)
    let k : SliceId := 0
    let pa : BitVec 52 := 0x1000
    let s : State := { st0 with coh := { net := [{ stop := tileStop 0, line := 64, kind := .snpShr }] } }
    decide (snoopSent s k.val (lineOf pa) = true) && decide (splitWaits s k.val (lineOf pa) = false) && decide (napWaits k.val (lineOf pa) s
      = false) && decide (s.coh.net.all (fun y =>
    decide (y.stop ≠ tileStop k.val ∨ y.line ≠ lineOf pa ∨ !y.kind.isGnt)) = true) &&
    someAnd (takePkt (tileStop k.val) (lineOf pa) (fun y =>
    decide (y = snoopKind x.2)) s) (fun _ => true)) = true ∧
    (let stop : BitVec 8 := 0
    let pa : BitVec 52 := 0x1000
    let t : Nat := 0
    let st : BitVec 2 := 2
    let d : Bool := true
    let w : Option Word := none
    let s : State := { st0 with coh := { net := [{ stop := tileStop 0, line := 64, kind := .gnt 2 true none }] } }
    decide (stopTile stop.toNat = some t) &&
    someAnd (takePkt stop.toNat (lineOf pa) PktKind.isGnt s) (fun v1 =>
    let p := v1.1
    let s1 := v1.2
    decide (p.kind = .gnt st d w) &&
    let v2 := takeMiss t (lineOf pa) s1
    let m := v2.1
    let s2 := v2.2
    decide (st ≠ 3) && (m).all (fun x =>
    decide (x.noInstall = false)) &&
    someAnd (installGrant t (lineOf pa) (grantState st (l2State s2 t (lineOf pa))) (if m.isSome then specInstalled t (lineOf pa) p.data s2
      else s2)) (fun _ => true))) = true ∧
    (let stop : BitVec 8 := 0
    let pa : BitVec 52 := 0x1000
    let t : Nat := 0
    let st : BitVec 2 := 2
    let d : Bool := true
    let w : Option Word := none
    let s : State :=
      { st0 with coh := { net := [{ stop := tileStop 0, line := 64, kind := .gnt 2 true none }], tiles := [(0, { misses := [{ line := 64, op := 2, noInstall := true }] })] } }
    decide (stopTile stop.toNat = some t) &&
    someAnd (takePkt stop.toNat (lineOf pa) PktKind.isGnt s) (fun v1 =>
    let p := v1.1
    let s1 := v1.2
    decide (p.kind = .gnt st d w) &&
    let v2 := takeMiss t (lineOf pa) s1
    let m := v2.1
    decide (st ≠ 3) && decide (m.any (fun x => x.noInstall) = true))) = true ∧
    (let stop : BitVec 8 := 0
    let pa : BitVec 52 := 0x1000
    let t : Nat := 0
    let st : BitVec 2 := 3
    let d : Bool := true
    let w : Option Word := none
    let s : State := { st0 with coh := { net := [{ stop := tileStop 0, line := 64, kind := .gnt 3 true none }] } }
    decide (stopTile stop.toNat = some t) &&
    someAnd (takePkt stop.toNat (lineOf pa) PktKind.isGnt s) (fun v1 =>
    let p := v1.1
    let s1 := v1.2
    decide (p.kind = .gnt st d w) &&
    let v2 := takeMiss t (lineOf pa) s1
    let m := v2.1
    decide (st = 3) && (m).all (fun x =>
    decide (x.op ≠ 4 ∨ x.noInstall = true)))) = true ∧
    (let stop : BitVec 8 := 0
    let pa : BitVec 52 := 0x1000
    let t : Nat := 0
    let st : BitVec 2 := 3
    let d : Bool := true
    let w : Option Word := none
    let s : State :=
      { st0 with coh := { net := [{ stop := tileStop 0, line := 64, kind := .gnt 3 true none }], tiles := [(0, { misses := [{ line := 64, op := 4 }] })] } }
    decide (stopTile stop.toNat = some t) &&
    someAnd (takePkt stop.toNat (lineOf pa) PktKind.isGnt s) (fun v1 =>
    let p := v1.1
    let s1 := v1.2
    decide (p.kind = .gnt st d w) &&
    let v2 := takeMiss t (lineOf pa) s1
    let m := v2.1
    let s2 := v2.2
    decide (st = 3) && decide (m.any (fun x =>
    decide (x.op = 4) && !x.noInstall) = true) &&
    someAnd (tileCore s2 t) (fun _ => true))) = true ∧
    (let k : SliceId := 0
    let pa : BitVec 52 := 0x1000
    let s : State := { st0 with coh := { net := [{ stop := tileStop 0, line := 64, kind := .retry }] } }
    someAnd (takePkt (tileStop k.val) (lineOf pa) (fun y =>
    decide (y = .retry)) s) (fun _ => true)) = true ∧
    (let k : SliceId := 0
    let pa : BitVec 52 := 0x1000
    let s : State := { st0 with coh := { net := [{ stop := tileStop 0, line := 64, kind := .wbPull }] } }
    someAnd (takePkt (tileStop k.val) (lineOf pa) (fun y =>
    decide (y = .wbPull)) s) (fun _ => true)) = true ∧
    (let k : SliceId := 0
    let pa : BitVec 52 := 0x1000
    let s : State := { st0 with coh := { net := [{ stop := tileStop 0, line := 64, kind := .evictAck }] } }
    someAnd (takePkt (tileStop k.val) (lineOf pa) (fun y =>
    decide (y = .evictAck)) s) (fun _ => true)) = true ∧
    (let stop : BitVec 8 := 0
    let pa : BitVec 52 := 0x1000
    let s : State := { st0 with coh := { net := [{ stop := tileStop 0, line := 64, kind := .done }] } }
    someAnd (takePkt stop.toNat (lineOf pa) (fun y =>
    decide (y = .done)) s) (fun _ => true)) = true ∧
    (let x := (Instr.ack, PktKind.isAck)
    let k : SliceId := 0
    let pa : BitVec 52 := 0x1000
    let s : State := { st0 with coh := { net := [{ stop := tileStop 0, line := 64, kind := .ack true none }] } }
    someAnd (takePkt (tileStop k.val) (lineOf pa) x.2 s) (fun _ => true)) = true ∧
    (let k : SliceId := 0
    let pa : BitVec 52 := 0x1000
    let s : State := { st0 with coh := { net := [{ stop := tileStop 0, line := 64, kind := .wbData }] } }
    someAnd (takePkt (tileStop k.val) (lineOf pa) (fun y =>
    decide (y = .wbData)) s) (fun v1 =>
    let s1 := v1.2
    decide (fillPending s1 (lineOf pa / 4) = false))) = true ∧
    (let pa : BitVec 52 := 0x1000
    let s : State := st0.setSlice (homeSlice st0 16) { busy := [{ hr := { req := req0, op := .rdShr }, lines := [64], needFill := true }] }
    someAnd ((s.slice (homeSlice s (secOf pa))).busy.find? (fun y => y.lines.contains (lineOf pa) && y.needFill)) (fun v1 =>
    let x := v1
    decide (x.hr.op ≠ .rdNi) && decide (readUnderWay s (pa.toNat / 256) = false))) = true := by
  refine ⟨?_, ?_, ?_, ?_, ?_, ?_, ?_, ?_, ?_, ?_, ?_, ?_, ?_⟩ <;> decide +kernel

/-- The hypotheses of each clause of TileEventsComplete are met. -/
theorem test_hyps_TileEventsComplete :
    (let op : BitVec 8 := 0xFF
    decide (knownOp op.toNat = false)) = true ∧
    (let c : CoreId := 0
    let en : StoreEntry := { writes := [{ w := 512, mask := 1, data := 0, tag := .int }] }
    let r : List StoreEntry := []
    let s : State := st0.setCore 0 { core0 with storeBuf := [en] }
    decide ((s.core c.val).storeBuf = en :: r) && (storeLines en).all (fun l =>
    decide (lineReady c.val l s = true)) && true) = true ∧
    (let c : CoreId := 0
    let pa : BitVec 52 := 0x1000
    let l2 : Bool := true
    let s : State := st0.setCore 0 { core0 with streamsL1 := [0], streamsL2 := [0] }
    decide (coreRuns s c.val = true) && decide ((s.core c.val).walk = false) && decide ((s.core c.val).modeNow.getLsbD (if l2 then 2 else 1)
      = true) && decide ((if l2 then (s.core c.val).streamsL2 else (s.core c.val).streamsL1).contains (lineOf pa / 256) = true) && decide
      (region s pa.toNat = .normal) && decide (coreWaits s c.val (lineOf pa) = false) && true) = true ∧
    (let c : CoreId := 0
    let pa : BitVec 52 := 0x1000
    let l2 : Bool := false
    let s : State := st0.setCore 0 { core0 with streamsL1 := [0], streamsL2 := [0] }
    decide (coreRuns s c.val = true) && decide ((s.core c.val).walk = false) && decide ((s.core c.val).modeNow.getLsbD (if l2 then 2 else 1)
      = true) && decide ((if l2 then (s.core c.val).streamsL2 else (s.core c.val).streamsL1).contains (lineOf pa / 256) = true) && decide
      (region s pa.toNat = .normal) && decide (coreWaits s c.val (lineOf pa) = false) && true) = true ∧
    (let c : CoreId := 0
    let s : State := st0
    someAnd (drainStores c.val s) (fun v1 =>
    let s1 := v1
    decide ((s1.core c.val).walk = false) && decide (tileQuiet s1 (coreTile s1 c.val) = true) && true)) = true ∧
    (let c : CoreId := 0
    let s : State := st0.setCore 0 { core0 with walk := true }
    decide ((s.core c.val).walk = true)) = true ∧
    (let c : CoreId := 0
    let s : State := st0.setCore 0 { core0 with walk := true }
    decide ((s.core c.val).walk = true) && decide ((s.core c.val).modePending = false)) = true ∧
    (let c : CoreId := 0
    let s : State := st0.setCore 0 { core0 with modePending := true }
    decide ((s.core c.val).modePending = true) && decide ((s.core c.val).walk = false)) = true := by
  refine ⟨?_, ?_, ?_, ?_, ?_, ?_, ?_, ?_⟩ <;> decide +kernel

/-- The hypotheses of each clause of MemoryChannelsComplete are met. -/
theorem test_hyps_MemoryChannelsComplete :
    (let c : ChanId := ⟨(placeOf st0 0x1000).1, by decide +kernel⟩
    let pa : BitVec 52 := 0x1000
    let s : State := st0
    let place := placeOf s pa.toNat
    decide (place.1 = c.val)) = true ∧
    (let c : ChanId := ⟨(placeOf st0 0x1000).1, by decide +kernel⟩
    let pa : BitVec 52 := 0x1000
    let s : State := st0
    let place := placeOf s pa.toNat
    decide (place.1 = c.val)) = true ∧
    (let c : ChanId := 3
    let s : State := { st0 with mc := { st0.mc with channels := [(3, { ranks := 2, postponed := [(1, 4)] })] } }
    let k := 1
    decide (fixedMode s = false) && decide (chanRuns (s.channel c.val) = true) &&
    let ch := s.channel c.val
    decide (refreshForced ch = some k)) = true ∧
    (let c : ChanId := 3
    let aged : Nat := 0
    let s : State :=
      { st0 with mc := { st0.mc with channels := [(3, { ranks := 2, queue := [{ kind := .sectorFill, pa := 0x1000, ca := 0x1000, stall := 0, pri := 0, src := 0 }] })] } }
    let i := 0
    decide (fixedMode s = false) && decide (chanRuns (s.channel c.val) = true) &&
    let ch := s.channel c.val
    decide (refreshForced ch = none) && decide (mcPick ch aged (fun _ => true) = some i)) = true ∧
    (let c : ChanId := 3
    let aged : Nat := 0
    let s : State := { st0 with mc := { st0.mc with channels := [(3, { ranks := 2, postponed := [(1, 1)] })] } }
    let k := 1
    decide (fixedMode s = false) && decide (chanRuns (s.channel c.val) = true) &&
    let ch := s.channel c.val
    decide (refreshForced ch = none) && decide (mcPick ch aged (fun _ => true) = none) && decide (refreshWaiting ch = some k)) = true ∧
    (let c : ChanId := 3
    let aged : Nat := 0
    let s : State := st0
    decide (fixedMode s = false) && decide (chanRuns (s.channel c.val) = true) &&
    let ch := s.channel c.val
    decide (refreshForced ch = none) && decide (mcPick ch aged (fun _ => true) = none) && decide (refreshWaiting ch = none)) = true ∧
    (let c : ChanId := 3
    let slot : Fin 32 := 31
    let s : State :=
      { st0 with stalls := [(2, { slotsNow := 0x80000000 })], mc := { st0.mc with channels := [(3, { ranks := 2, queue := [{ kind := .sectorFill, pa := 0x1000, ca := 0x1000, stall := 1, pri := 0, src := 0 }] })] } }
    let n := 2
    decide (fixedMode s = true) && decide (chanRuns (s.channel c.val) = true) &&
    let ch := s.channel c.val
    decide (slotOwner s slot.val = some n) && (ch.queue).all (fun r =>
    decide (r.stall = n → ownedKind r.kind = false))) = true ∧
    (let c : ChanId := 3
    let slot : Fin 32 := 31
    let s : State :=
      { st0 with stalls := [(2, { slotsNow := 0x80000000 })], mc := { st0.mc with channels := [(3, { ranks := 2, queue := [{ kind := .sectorFill, pa := 0x1000, ca := 0x1000, stall := 2, pri := 0, src := 0 }] })] } }
    let n := 2
    let i := 0
    decide (fixedMode s = true) && decide (chanRuns (s.channel c.val) = true) &&
    let ch := s.channel c.val
    decide (slotOwner s slot.val = some n) && decide (ch.queue.findIdx? (fun x =>
    decide (x.stall = n) && ownedKind x.kind) = some i) &&
    someAnd (ch.queue[i]?) (fun v1 =>
    let r := v1
    decide (mcEligible ch r = true))) = true ∧
    (let c : ChanId := 3
    let slot : Fin 32 := 31
    let s : State :=
      { st0 with stalls := [(2, { slotsNow := 0x80000000 })], mc := { st0.mc with channels := [(3, { ranks := 2, queue := [{ kind := .sectorFill, pa := 0x1000, ca := 0x1000, stall := 2, pri := 0, src := 0 }], migration := some (.channel 16) })] } }
    let n := 2
    let i := 0
    decide (fixedMode s = true) && decide (chanRuns (s.channel c.val) = true) &&
    let ch := s.channel c.val
    decide (slotOwner s slot.val = some n) && decide (ch.queue.findIdx? (fun x =>
    decide (x.stall = n) && ownedKind x.kind) = some i) &&
    someAnd (ch.queue[i]?) (fun v1 =>
    let r := v1
    decide (mcEligible ch r = false))) = true ∧
    (let c : ChanId := 3
    let slot : Fin 32 := 0
    let s : State :=
      { st0 with stalls := [(2, { slotsNow := 0x80000000 })], mc := { st0.mc with channels := [(3, { ranks := 2, oddFrame := true, postponed := [(1, 1)] })] } }
    let k := 1
    decide (fixedMode s = true) && decide (chanRuns (s.channel c.val) = true) &&
    let ch := s.channel c.val
    let refresh := decide (slot.val < 8) && (ch.oddFrame || ch.frameFast)
    decide (slotOwner s slot.val = none) && decide (refresh = true) && decide (refreshWaiting ch = some k)) = true ∧
    (let c : ChanId := 3
    let slot : Fin 32 := 30
    let aged : Nat := 0
    let s : State :=
      { st0 with stalls := [(2, { slotsNow := 0x80000000 })], mc := { st0.mc with channels := [(3, { ranks := 2, queue := [{ kind := .sectorFill, pa := 0x1000, ca := 0x1000, stall := 1, pri := 0, src := 0 }] })] } }
    let i := 0
    decide (fixedMode s = true) && decide (chanRuns (s.channel c.val) = true) &&
    let ch := s.channel c.val
    let refresh := decide (slot.val < 8) && (ch.oddFrame || ch.frameFast)
    let free (r : McReq) : Bool := !(ownedKind r.kind && decide ((s.stall r.stall).slotsNow ≠ 0)) && decide (Tbl.get ch.postponed (reqLoc ch
      r).rank 0 < 4)
    decide (slotOwner s slot.val = none) && decide (refresh = false ∨ refreshWaiting ch = none) && decide (mcPick ch aged free = some i)) = true ∧
    (let c : ChanId := 3
    let slot : Fin 32 := 30
    let aged : Nat := 0
    let s : State :=
      { st0 with stalls := [(2, { slotsNow := 0x80000000 })], mc := { st0.mc with channels := [(3, { ranks := 2, queue := [] })] } }
    decide (fixedMode s = true) && decide (chanRuns (s.channel c.val) = true) &&
    let ch := s.channel c.val
    let refresh := decide (slot.val < 8) && (ch.oddFrame || ch.frameFast)
    let free (r : McReq) : Bool := !(ownedKind r.kind && decide ((s.stall r.stall).slotsNow ≠ 0)) && decide (Tbl.get ch.postponed (reqLoc ch
      r).rank 0 < 4)
    decide (slotOwner s slot.val = none) && decide (refresh = false ∨ refreshWaiting ch = none) && decide (mcPick ch aged free = none)) = true ∧
    (let c : ChanId := 3
    let r : McReq := { kind := .sectorFill, pa := 0x1000, ca := 0x1000, stall := 0, pri := 0, src := 0 }
    let rest : List McReq := []
    let s : State :=
      { st0 with mc := { st0.mc with channels := [(3, { issued := [{ kind := .sectorFill, pa := 0x1000, ca := 0x1000, stall := 0, pri := 0, src := 0 }] })] } }
    decide ((s.channel c.val).issued = r :: rest) && decide (mcSeals r.kind = true)) = true ∧
    (let c : ChanId := 3
    let r : McReq := { kind := .oldSub 3, pa := 0x1000, ca := 0x1000, stall := 0, pri := 0, src := 0 }
    let rest : List McReq := []
    let s : State :=
      { st0 with mc := { st0.mc with channels := [(3, { issued := [{ kind := .oldSub 3, pa := 0x1000, ca := 0x1000, stall := 0, pri := 0, src := 0 }] })] } }
    decide ((s.channel c.val).issued = r :: rest) && decide (mcSeals r.kind = false)) = true ∧
    (let c : ChanId := 3
    let b : Nat := 5
    let s : State :=
      { st0 with mc := { st0.mc with channels := [(3, { ranks := 2, queue := [{ kind := .sectorFill, pa := 0, ca := 0, stall := 0, pri := 0, src := 0 }] })] } }
    ((s.channel c.val).queue).all (fun r =>
    decide ((reqLoc (s.channel c.val) r).bankNo = b → rowHit (s.channel c.val) r = false))) = true ∧
    (let n : StallId := 2
    let s : State :=
      { ({ st0 with stalls := [(2, { slotsNow := 0x80000000 })], mc := { st0.mc with channels := [(3, { ranks := 2, queue := [{ kind := .sectorFill, pa := 0x1000, ca := 0x1000, stall := 1, pri := 0, src := 0 }] })] } } : State) with stalls := [(2, { slotsPending := true })] }
    decide ((s.stall n.val).slotsPending = true) && (s.mc.channels).all (fun x =>
    decide (∀ r ∈ x.2.queue, r.stall ≠ n.val))) = true ∧
    (let c : ChanId := 3
    let rank : Fin 8 := 7
    let s : State := { st0 with mc := { st0.mc with channels := [(3, { postponed := [(7, 3)] })] } }
    decide (chanRuns (s.channel c.val) = true) &&
    let n := Tbl.get (s.channel c.val).postponed rank.val 0
    let held := (s.channel c.val).sppr.map (fun p =>
    decide (p.rank = rank.val)) = some true
    decide (¬held) && decide (n < 4)) = true ∧
    (let c : ChanId := 3
    let rank : Fin 8 := 7
    let s : State := { st0 with mc := { st0.mc with channels := [(3, { postponed := [(7, 4)] })] } }
    decide (chanRuns (s.channel c.val) = true) &&
    let n := Tbl.get (s.channel c.val).postponed rank.val 0
    let held := (s.channel c.val).sppr.map (fun p =>
    decide (p.rank = rank.val)) = some true
    decide (held ∨ 4 ≤ n)) = true ∧
    (let c : ChanId := 3
    let rank : Fin 8 := 7
    let s : State := { st0 with mc := { st0.mc with channels := [(3, { postponed := [(7, 4)] })] } }
    decide (chanRuns (s.channel c.val) = true) && decide (Tbl.get (s.channel c.val).postponed rank.val 0 ≠ 0)) = true ∧
    (let c : ChanId := 3
    let s : State := { st0 with mc := { st0.mc with channels := [(3, { rankPass := [(1, 7)] })] } }
    let k := 1
    let i := 7
    let rest := []
    decide (chanRuns (s.channel c.val) = true) && decide (stepMay s c.val true = true) &&
    let ch := s.channel c.val
    decide (ch.rankPass = (k, i) :: rest)) = true ∧
    (let c : ChanId := 3
    let s : State := { st0 with mc := { st0.mc with channels := [(3, { patrol := 32 * 2 ^ 24 - 2 })] } }
    decide (chanRuns (s.channel c.val) = true) && decide (stepMay s c.val true = true) &&
    let ch := s.channel c.val
    let lines := chanCap s / 64
    decide (ch.rankPass = []) && decide (ch.patrol + 1 < lines)) = true ∧
    (let c : ChanId := 3
    let s : State := { st0 with mc := { st0.mc with channels := [(3, { patrol := 32 * 2 ^ 24 - 1 })] } }
    decide (chanRuns (s.channel c.val) = true) && decide (stepMay s c.val true = true) &&
    let ch := s.channel c.val
    let lines := chanCap s / 64
    decide (ch.rankPass = []) && decide (lines ≤ ch.patrol + 1)) = true ∧
    (let c : ChanId := 3
    let s : State := { st0 with mc := { st0.mc with channels := [(3, { sppr := some { rank := 1, bank := 2, row := 3, device := 4 } })] } }
    someAnd ((s.channel c.val).sppr) (fun _ =>
    decide (stepMay s c.val false = true))) = true ∧
    (let c : ChanId := 3
    let f : Nat := 1
    let ptr : Nat := 0
    let s : State := { st0 with mc := { st0.mc with channels := [(3, { ranks := 2, migration := some (.rank 1 0) })] } }
    let ch := s.channel c.val
    let lines := chanCap s / 64
    decide (s.pwr.pwrfail = false) && decide (stepMay s c.val false = true) && decide (ch.migration = some (.rank f ptr)) &&
    someAnd (((List.range (ch.ranks * 64)).map (· + ptr + 1)).find? (fun l =>
    decide ((locOf ch.ranks (64 * l)).rank = f))) (fun v1 =>
    let n := v1
    decide (n < lines))) = true ∧
    (let c : ChanId := 3
    let f : Nat := 1
    let ptr : Nat := 32 * 2 ^ 24 - 1
    let s : State := { st0 with mc := { st0.mc with channels := [(3, { ranks := 2, migration := some (.rank 1 (32 * 2 ^ 24 - 1)) })] } }
    let ch := s.channel c.val
    let lines := chanCap s / 64
    decide (s.pwr.pwrfail = false) && decide (stepMay s c.val false = true) && decide (ch.migration = some (.rank f ptr)) &&
    someAnd (((List.range (ch.ranks * 64)).map (· + ptr + 1)).find? (fun l =>
    decide ((locOf ch.ranks (64 * l)).rank = f))) (fun v1 =>
    let n := v1
    decide (lines ≤ n))) = true ∧
    (let c : ChanId := 3
    let ptr : Nat := 29 * 2 ^ 22 - 2
    let s : State := { st0 with mc := { st0.mc with channels := [(3, { migration := some (.channel (29 * 2 ^ 22 - 2)) })] } }
    let sectors := chanNormal s / 256
    decide (s.pwr.pwrfail = false) && decide (stepMay s c.val false = true) && decide ((s.channel c.val).migration = some (.channel ptr)) &&
      decide (ptr + 1 < sectors)) = true ∧
    (let c : ChanId := 3
    let ptr : Nat := 29 * 2 ^ 22 - 1
    let s : State := { st0 with mc := { st0.mc with channels := [(3, { migration := some (.channel (29 * 2 ^ 22 - 1)) })] } }
    let sectors := chanNormal s / 256
    decide (s.pwr.pwrfail = false) && decide (stepMay s c.val false = true) && decide ((s.channel c.val).migration = some (.channel ptr)) &&
      decide (sectors ≤ ptr + 1)) = true := by
  refine ⟨?_, ?_, ?_, ?_, ?_, ?_, ?_, ?_, ?_, ?_, ?_, ?_, ?_, ?_, ?_, ?_, ?_, ?_, ?_, ?_, ?_, ?_, ?_, ?_, ?_, ?_, ?_⟩ <;> decide +kernel

/-- The hypotheses of each clause of EngineCommandsAndContextsComplete are met. -/
theorem test_hyps_EngineCommandsAndContextsComplete :
    (let d : BitVec 512 := 0
    let s : State := withCtx { state := .idle }
    decide (engineRoom s (dCtx d) = true) && decide (acceptStatus s d 0 = 0) && decide (anyEngine s = true)) = true ∧
    (let p := (Instr.engineNop, 0)
    let e : EngineId := 0
    let place : Option (List Word) := none
    let aux : Option (List Word) := none
    let s : State := withEngine { active := [cmd0] }
    someAnd (nextStarted s e.val p.2) (fun v1 =>
    let c := v1
    let uses := decide (1 ≤ p.2 ∧ p.2 ≤ 6)
    let r1 := fetchPlace e.val c uses (dPlace c.desc) place s
    let r2 := fetchPlace e.val c (uses && namesAux c.desc) (dAux c.desc) aux r1.2
    let st := startStatus r2.2 c r1.1 r2.1
    decide (st = 0))) = true ∧
    (let p := (Instr.put, 1)
    let e : EngineId := 0
    let place : Option (List Word) := none
    let aux : Option (List Word) := none
    let s : State := withEngine { active := [{ cmd0 with desc := 1 }] }
    someAnd (nextStarted s e.val p.2) (fun v1 =>
    let c := v1
    let uses := decide (1 ≤ p.2 ∧ p.2 ≤ 6)
    let r1 := fetchPlace e.val c uses (dPlace c.desc) place s
    let r2 := fetchPlace e.val c (uses && namesAux c.desc) (dAux c.desc) aux r1.2
    let st := startStatus r2.2 c r1.1 r2.1
    decide (st ≠ 0))) = true ∧
    (let p : Path := .fw
    let stall : BitVec 9 := 0
    let cls : BitVec 2 := 2
    let sealsReq : Bool := true
    let forceBuf : Bool := false
    let s : State := withCtx {}
    let n := selectedCtx s p
    permitsB p 0x7100 0x03 (ctxControl 1 stall cls sealsReq forceBuf) s && decide ((s.ctx n).state = .free) && decide ((makeRoom (ctxEngine
      s n) s).1 = true) && true) = true ∧
    (let q := (Instr.ctxFree, 2)
    let p : Path := .fw
    let s : State := withCtx { state := .idle }
    let n := selectedCtx s p
    permitsB p 0x7100 0x03 q.2 s && decide ((s.ctx n).state = .idle)) = true ∧
    (let q := (Instr.ctxFree, 2)
    let p : Path := .fw
    let s : State := withCtx { state := .active }
    let n := selectedCtx s p
    permitsB p 0x7100 0x03 q.2 s && decide ((s.ctx n).state = .active)) = true ∧
    (let q := (Instr.ctxFree, 2)
    let p : Path := .fw
    let s : State := withCtx {}
    let n := selectedCtx s p
    permitsB p 0x7100 0x03 q.2 s && decide ((s.ctx n).state = .free)) = true ∧
    (let p : Path := .fw
    let s : State := withCtx { state := .fenced, active := 1 }
    let n := selectedCtx s p
    permitsB p 0x7100 0x03 3 s && decide ((s.ctx n).state = .fenced)) = true ∧
    (let p : Path := .fw
    let s : State := withCtx { state := .fenced }
    let n := selectedCtx s p
    permitsB p 0x7100 0x03 3 s && decide ((s.ctx n).state = .fenced)) = true ∧
    (let e : EngineId := 0
    let c : CtxId := 0
    let s : State := { st0 with eng := { ctxs := [(0, { spilled := true })], loading := [0] } }
    decide (s.eng.loading.contains c.toNat = true) && decide ((s.ctx c.toNat).spilled = true) && decide (ctxEngine s c.toNat = e.val) &&
      decide ((makeRoom e.val s).1 = true) && true) = true ∧
    (let c : CtxId := 0
    let t : EngineId := 1
    let s : State := withCtx { state := .moving, landing := some 1 }
    let n := c.toNat
    let x := s.ctx n
    decide (x.state = .moving) && decide (x.landing = some t.val) && decide ((s.engine t.val).state = 0) && decide (x.active = 0) && decide
      (x.queued = 0) && decide (x.freeing = false) && decide (heldRecords s t.val < 9472)) = true := by
  refine ⟨?_, ?_, ?_, ?_, ?_, ?_, ?_, ?_, ?_, ?_, ?_⟩ <;> decide +kernel

/-- The hypotheses of each clause of EngineWorkCompletes are met. -/
theorem test_hyps_EngineWorkCompletes :
    (let e : EngineId := 0
    let s : State := withEngine { queue := [{ cmd0 with started := false }], active := List.replicate 63 { cmd0 with id := 1 } }
    let x := s.engine e.val
    let el := x.queue.filter (eligible s e.val)
    let classes := (el.map (cmdClass s)).eraseDups
    let served := servedNow s x classes
    decide (domState s (.engine e) = .up) && decide (x.state = 0) && decide (x.active.length < 64) && decide (s.pwr.pwrfail = false) &&
      decide (s.eng.stopped = false) &&
    someAnd (pickClass (creditsNow s served) x.lastClass classes) (fun v1 =>
    let k := v1
    someAnd (el.find? (fun y =>
    decide (cmdClass s y = k))) (fun _ => true))) = true ∧
    (let e : EngineId := 0
    let s : State := withEngine { slots := [(0, stripe0), (1, stripe0), (2, stripe0)] }
    decide ((s.engine e.val).state = 0) && decide (domState s (.engine e) = .up) &&
    someAnd (freeSlot (sweepSent e.val s) e.val) (fun _ => true)) = true ∧
    (let e : EngineId := 0
    let slot : Fin 4 := 3
    let s : State := withEngine { active := [cmd0], slots := [(3, stripe0)] }
    someAnd (slotStripe s e.val slot.val) (fun v1 =>
    let st := v1
    someAnd (cmdAt s st.cmd) (fun _ =>
    decide (st.stage = .check)))) = true ∧
    (let e : EngineId := 0
    let slot : Fin 4 := 3
    let s : State := withEngine { active := [cmd0], slots := [(3, { stripe0 with stage := .rebuilt })] }
    someAnd (slotStripe s e.val slot.val) (fun v1 =>
    let st := v1
    someAnd (cmdAt s st.cmd) (fun _ =>
    decide (st.stage = .rebuilt)))) = true ∧
    (let e : EngineId := 0
    let slot : Fin 4 := 3
    let s : State := withEngine
      { active := [cmd0], slots := [(3, { stripe0 with stage := .reading })], flying := [{ stripe0 with uid := 6, stage := .rebuilt, feeds := some 5 }] }
    let y := { stripe0 with uid := 6, stage := .rebuilt, feeds := some 5 }
    someAnd (slotStripe s e.val slot.val) (fun v1 =>
    let st := v1
    someAnd (cmdAt s st.cmd) (fun _ =>
    decide (st.stage ≠ .check) && decide (st.stage ≠ .rebuilt) && decide ((s.engine e.val).flying.find? (fun z =>
    decide (z.feeds = some st.uid) && decide (z.stage = .rebuilt)) = some y)))) = true ∧
    (let e : EngineId := 0
    let slot : Fin 4 := 0
    let s : State :=
      { st0 with eng := { engines := [(0, { active := [cmd0], slots := [(0, { stripe0 with stage := .readback, feeds := some 6 })] })], pool := [{ stripe0 with uid := 6 }] } }
    let bad : List SpanBad := ([⟨0, 1, 2⟩] : List SpanBad)
    someAnd (slotStripe s e.val slot.val) (fun v1 =>
    let st := v1
    decide (st.stage = .readback) &&
    someAnd (st.feeds.bind (findStripe s)) (fun v2 =>
    let pooled := v2
    let r := readPool pooled s
    someAnd (cmdAt s pooled.cmd) (fun v3 =>
    let c := v3.2
    let g := stGeo c pooled
    let fresh := (bad.map (fun b => (b.span / g.spans, b.span % g.spans))).filter (fun b => !r.1.bad.contains b)
    decide (r.1.bad ++ fresh ≠ []))))) = true ∧
    (let e : EngineId := 0
    let slot : Fin 4 := 0
    let s : State :=
      { st0 with eng := { engines := [(0, { active := [cmd0], slots := [(0, { stripe0 with stage := .readback, feeds := some 6 })] })], pool := [{ stripe0 with uid := 6 }] } }
    someAnd (slotStripe s e.val slot.val) (fun v1 =>
    let st := v1
    decide (st.stage = .readback) &&
    someAnd (st.feeds.bind (findStripe s)) (fun v2 =>
    let pooled := v2
    let r := readPool pooled s
    someAnd (cmdAt s pooled.cmd) (fun _ =>
    decide (r.1.bad = []) && true)))) = true ∧
    (let bank : EngineId := Config.interlockBank 0 0
    let e : EngineId := 0
    let a : Nat := 0
    let b : Nat := 0
    let uid : Nat := 5
    let rest : List (Nat × Nat × Nat) := []
    let s : State :=
      { st0 with eng := { engines := [(0, { active := [cmd0], slots := [(3, { stripe0 with stage := .lock })] })], lockWait := [(0, 0, 5)] } }
    decide (s.eng.lockWait = (a, b, uid) :: rest) && decide (keyFree s (a, b) = true) && decide (bankCount s bank.val < 4096) &&
    someAnd (findStripe s uid) (fun v1 =>
    let st := v1
    decide (stripeEngine s st = e.val))) = true ∧
    (let e : EngineId := 0
    let tag : Nat := 9
    let s : State := withEngine
      { active := [cmd0], slots := [(3, { stripe0 with stage := .pull })], reads := [(9, 5, { addr := 0, len := 1024, off := 0 })] }
    let s0 := countAnswer e.val tag s
    let x := s0.engine e.val
    let s1 := s0.setEngine e.val { x with reads := x.reads.filter (fun y =>
    decide (y.1 ≠ tag)) }
    someAnd (x.reads.find? (fun y =>
    decide (y.1 = tag))) (fun v1 =>
    decide (v1.1 = tag) &&
    let uid := v1.2.1
    let r := v1.2.2
    someAnd (findStripe s1 uid) (fun _ =>
    decide (r.isSeal = false)))) = true ∧
    (let e : EngineId := 0
    let s : State := withEngine { flying := [stripe0] }
    decide (((s.engine e.val).slots.isEmpty && (s.engine e.val).flying.isEmpty && (s.engine e.val).regen.isEmpty) = false)) = true ∧
    (let e : EngineId := 0
    let slot : Fin 4 := 3
    let s : State := withEngine { active := [cmd0], slots := [(3, { stripe0 with stage := .pull })] }
    someAnd (slotStripe s e.val slot.val) (fun v1 =>
    let st := v1
    decide (st.src ≠ .pool) &&
    someAnd (cmdAt s st.cmd) (fun _ =>
    decide (st.stage = .pull) && decide (st.sramTries = 0)))) = true ∧
    (let e : EngineId := 0
    let slot : Fin 4 := 3
    let s : State := withEngine { active := [cmd0], slots := [(3, { stripe0 with stage := .pull, sramTries := 1 })] }
    someAnd (slotStripe s e.val slot.val) (fun v1 =>
    let st := v1
    decide (st.src ≠ .pool) &&
    someAnd (cmdAt s st.cmd) (fun _ =>
    decide (st.stage = .pull) && decide (st.sramTries ≠ 0)))) = true ∧
    (let e : EngineId := 0
    let slot : Fin 4 := 3
    let span : Nat := 0
    let s : State := withEngine
      { active := [cmd0], slots := [(3, { stripe0 with stage := .reading, frags := [{ noFrag with state := .good }] })] }
    someAnd (slotStripe s e.val slot.val) (fun v1 =>
    let st := v1
    decide (st.src ≠ .pool) &&
    someAnd (cmdAt s st.cmd) (fun v2 =>
    let c := v2.2
    decide (st.stage = .reading) && decide ((st.frags.getD (span / (stGeo c st).spans) noFrag).state = .good)))) = true ∧
    (let e : EngineId := 0
    let slot : Fin 4 := 0
    let s : State :=
      { st0 with eng := { engines := [(0, { active := [cmd0], slots := [(0, { stripe0 with stage := .readback, src := .pool, feeds := some 6 })] })], pool := [{ stripe0 with uid := 6, sramTries := 0 }] } }
    someAnd (slotStripe s e.val slot.val) (fun v1 =>
    let st := v1
    decide (st.src = .pool) && decide (st.stage = .readback) &&
    someAnd (st.feeds.bind (findStripe s)) (fun v2 =>
    let pooled := v2
    someAnd (cmdAt s pooled.cmd) (fun _ =>
    decide (pooled.sramTries = 0))))) = true ∧
    (let e : EngineId := 0
    let slot : Fin 4 := 0
    let s : State :=
      { st0 with eng := { engines := [(0, { active := [cmd0], slots := [(0, { stripe0 with stage := .readback, src := .pool, feeds := some 6 })] })], pool := [{ stripe0 with uid := 6, sramTries := 1 }] } }
    someAnd (slotStripe s e.val slot.val) (fun v1 =>
    let st := v1
    decide (st.src = .pool) && decide (st.stage = .readback) &&
    someAnd (st.feeds.bind (findStripe s)) (fun v2 =>
    let pooled := v2
    someAnd (cmdAt s pooled.cmd) (fun _ =>
    decide (pooled.sramTries ≠ 0))))) = true := by
  refine ⟨?_, ?_, ?_, ?_, ?_, ?_, ?_, ?_, ?_, ?_, ?_, ?_, ?_, ?_, ?_⟩ <;> decide +kernel

/-- The hypotheses of each clause of FarrierCompletes are met. -/
theorem test_hyps_FarrierCompletes :
    (let s : State := st0
    decide (s.far.fatal = false)) = true ∧
    (let e : EngineId := 0
    let c : CtxId := 0
    let s : State := withCtx {}
    decide (ctxEngine s c.toNat = e.val) && decide ((s.ctx c.toNat).spilled = false) && decide ((s.ctx c.toNat).state = .free)) = true ∧
    (let e : EngineId := 0
    let c : CtxId := 0
    let s : State := withCtx { state := .active }
    decide (ctxEngine s c.toNat = e.val) && decide ((s.ctx c.toNat).spilled = false) && decide ((s.ctx c.toNat).state ≠ .free)) = true ∧
    (let p : Path := .fw
    let k : CoreId := 0
    let s : State := st0
    permitsB p 0x3000 0x18 k.val s) = true ∧
    (let s : State := withFar { subst := some { core := 0, source := 0, spare := 68, incident := 1, cause := 0 } }
    someAnd (s.far.subst) (fun _ => true)) = true ∧
    (let s : State := withFar { subst := some { core := 0, source := 0, spare := 68, incident := 1, cause := 0 } }
    someAnd (s.far.subst) (fun _ => true)) = true ∧
    (let i : Nat := 0
    let rest : List Nat := [136]
    let s : State := withFar { rehome := some { slice := 0, entries := [0, 136], incident := 1 } }
    someAnd (s.far.rehome) (fun v1 =>
    let x := v1
    decide (x.entries = i :: rest) && decide (entryBusy s x.slice i = false))) = true ∧
    (let a : BitVec 8 := 4
    let s : State := withFar { queued := [{ action := 4, resource := 0, incident := 1, cls := 0 }] }
    decide (mustWait s a = false) &&
    someAnd (s.far.queued.find? (fun q =>
    decide (q.action = a))) (fun _ => true)) = true ∧
    (let s : State := { st0 with side := { wdogRunning := true } }
    someAnd (servingPair s) (fun _ =>
    decide (s.side.wdogRunning = true) && decide (s.pwr.state ≠ .deep))) = true ∧
    (let s : State := withFar { pair0 := .standby, pair1 := .serving }
    decide (s.far.pair0 = .standby)) = true ∧
    (let s : State := withFar { pair0 := .serving }
    decide (s.far.pair0 ≠ .standby) && decide (s.far.pair1 = .standby)) = true ∧
    (let p : Path := .fw
    let s : State := st0
    permitsB p 0x3000 0x0E 1 s) = true ∧
    (let p : Path := .fw
    let s : State := st0
    permitsB p 0x3000 0x0E 2 s) = true ∧
    (let s : State := withFar { walkRecovery := true }
    decide (s.far.walkRecovery = true)) = true := by
  refine ⟨?_, ?_, ?_, ?_, ?_, ?_, ?_, ?_, ?_, ?_, ?_, ?_, ?_, ?_⟩ <;> decide +kernel

/-- The hypotheses of each clause of QueuePairsAndMailboxesComplete are met. -/
theorem test_hyps_QueuePairsAndMailboxesComplete :
    (let p : HPort := 0
    let fn : FnId := 0
    let q : QueueId := 63
    let acc : BarAcc := ⟨4, 4⟩
    let v : BitVec 32 := 15
    let s : State := withHost { qps := [(63, qp0)] }
    let l := fnLink s p.val fn.val
    let k := qpKey p.val fn.val q.val
    let s1 := arrived l s
    let s2 := countLink (fnLink s1 p.val fn.val) 3 1 s1
    let x := s2.qp k
    decide (barOk acc = true) && reachesB l s && qpOpenB p.val fn.val q.val s1 && decide (acc.size = 4) && decide (natField v.toNat 0 16 < 2
      ^ x.sqLog2.toNat)) = true ∧
    (let p : HPort := 0
    let fn : FnId := 0
    let q : QueueId := 63
    let acc : BarAcc := ⟨0, 8⟩
    let s : State := withHost { qps := [(63, { qp0 with held := 1 })] }
    let l := fnLink s p.val fn.val
    let s1 := arrived l s
    decide (barOk acc = true) && reachesB l s && qpOpenB p.val fn.val q.val s1 && decide (acc.size = 8)) = true ∧
    (let p : HPort := 0
    let fn : FnId := 0
    let q : QueueId := 0
    let acc : BarAcc := ⟨0, 8⟩
    let v : BitVec 32 := 15
    let s : State := withHost { qps := [(0, { qp0 with cqHead := 14, held := 1 })] }
    let l := fnLink s p.val fn.val
    let k := qpKey p.val fn.val q.val
    let s1 := arrived l s
    let s2 := countLink (fnLink s1 p.val fn.val) 3 1 s1
    let x := s2.qp k
    decide (barOk acc = true) && reachesB l s && qpOpenB p.val fn.val q.val s1 &&
    let depth := 2 ^ x.cqLog2.toNat
    let h := natField v.toNat 0 16
    let used := (h + depth - x.cqHead.toNat) % depth
    decide (h < depth) && decide (used ≤ x.held)) = true ∧
    (let p : HPort := 0
    let fn : FnId := 0
    let acc : BarAcc := ⟨2, 8⟩
    let s : State := withHost {}
    decide (barOk acc = false) && decide (linkTrained (s.ctl (fnLink s p.val fn.val)).link = true) && decide (fnAnswers s p.val fn.val =
      true)) = true ∧
    (let l : CtlId := 0
    let s : State := withHost { qps := [(0, { qp0 with sqTail := 15 })] }
    someAnd (fetchWinner s l.val) (fun _ => true)) = true ∧
    (let l : CtlId := 0
    let k : Nat := 0
    let n : Nat := 8
    let rest : List (Nat × Nat) := []
    let s0 : State := { st0 with host := { ctl := [(0, { reads := [(0, 8)] })], qps := [(0, { qp0 with reading := 8 })] } }
    let s := countLink l.val 1 1 s0
    decide ((s.ctl l.val).reads = (k, n) :: rest) && decide ((s.qp k).reading ≠ 0) && decide ((s.qp k).enable = true) && decide ((s.qp
      k).deleting = false) && decide ((s.qp k).error = false) && decide ((s.fn (qpPort k) (qpFn k)).drain = none) && decide (s.host.fatal =
      false)) = true ∧
    (let p : HPort := 1
    let x : Nat × Nat := (16448, 3)
    let s : State := withHost { inbox := [(0, 1), (16448, 3)] }
    decide (s.host.inbox.filter (fun y =>
    decide (qpPort y.1 = p.val)) = [x])) = true ∧
    (let p : HPort := 0
    let fn : FnId := 0
    let q : QueueId := 0
    let s : State := withHost { qps := [(0, { qp0 with irqEn := true, unsignalled := true })] }
    let k := qpKey p.val fn.val q.val
    let x := s.qp k
    decide (x.enable = true) && decide (x.irqEn = true) && decide (x.unsignalled = true)) = true ∧
    (let path : Path := .fw
    let w : BitVec 512 := 0x10841
    let s : State := withHost {}
    permitsB path 0x8020 0x02 w.toNat s &&
    someAnd (selectedQp s path) (fun v1 =>
    let k := v1
    decide ((s.qp k).deleting = false) && decide ((s.qp k).enable = false) && decide (w.getLsbD 0 = true) && decide (createDenied s k w =
      false))) = true ∧
    (let path : Path := .fw
    let w : BitVec 512 := 0
    let s : State := withHost { qps := [(0, qp0)] }
    permitsB path 0x8020 0x02 w.toNat s &&
    someAnd (selectedQp s path) (fun v1 =>
    let k := v1
    decide ((s.qp k).deleting = false) && decide ((s.qp k).enable = true) && decide (w.getLsbD 0 = false))) = true ∧
    (let path : Path := .fw
    let w : BitVec 512 := 0x10841
    let s : State := withHost { qps := [(0, qp0)] }
    permitsB path 0x8020 0x02 w.toNat s &&
    someAnd (selectedQp s path) (fun v1 =>
    let k := v1
    decide ((s.qp k).deleting = false) && decide ((s.qp k).enable = true) && decide (w.getLsbD 0 = true) && decide (1 ≤ recField w 16 7) &&
      decide (recField w 16 7 ≤ 64) && decide (recField w 32 16 ≤ 10000))) = true ∧
    (let p : HPort := 0
    let fn : FnId := 0
    let q : QueueId := 0
    let s : State := withHost { qps := [(0, { qp0 with deleting := true })] }
    decide ((s.qp (qpKey p.val fn.val q.val)).deleting = true) && decide ((s.qp (qpKey p.val fn.val q.val)).fetched = 0)) = true ∧
    (let p : HPort := 0
    let fn : FnId := 0
    let acc : BarAcc := ⟨0, 8⟩
    let s : State := withHost {}
    let l := fnLink s p.val fn.val
    let s1 := arrived l s
    let f := s1.fn p.val fn.val
    decide (barOk acc = true) && reachesB l s && decide (fnAnswers s1 p.val fn.val = true) && decide (f.mbox.busy = false)) = true ∧
    (let p : HPort := 0
    let fn : FnId := 0
    let acc : BarAcc := ⟨0, 8⟩
    let s : State := withHost {}
    let l := fnLink s p.val fn.val
    let s1 := arrived l s
    let f := s1.fn p.val fn.val
    decide (barOk acc = true) && reachesB l s && decide (fnAnswers s1 p.val fn.val = true) && decide (f.mbox.busy = false)) = true := by
  refine ⟨?_, ?_, ?_, ?_, ?_, ?_, ?_, ?_, ?_, ?_, ?_, ?_, ?_, ?_⟩ <;> decide +kernel

/-- The hypotheses of each clause of HostMemoryCompletes are met. -/
theorem test_hyps_HostMemoryCompletes :
    (let p : HPort := 0
    let off : Word := 0xFF0
    let data : List Byte := List.replicate 16 0
    let s : State := withHost { live := [(0, win0)] }
    let s1 := arrived (2 * p.val) s; reachesB (2 * p.val) s && decide (data.length ≤ 512) && decide (off.toNat % 4096 + data.length ≤ 4096)
      && decide (s1.boot.ready = true) && decide (fnAnswers s1 p.val 0 = true) &&
    someAnd (matchWindow s p.val off data.length true) (fun v1 =>
    let w := v1
    let x := (ioLookup p.val w.stall.toNat (windowTarget w off) true s1).1.getD { pa := 0 }
    let v2 := ioLookup p.val w.stall.toNat (windowTarget w off) true s1
    decide (v2.1 = some x) && true)) = true ∧
    (let p : HPort := 0
    let off : Word := 0
    let len : Nat := 4096
    let s : State := withHost { live := [(0, win0)] }
    let s1 := arrived (2 * p.val) s; reachesB (2 * p.val) s && decide (len ≤ 4096) && decide (off.toNat % 4096 + len ≤ 4096) && decide
      (s1.boot.ready = true) && decide (fnAnswers s1 p.val 0 = true) &&
    someAnd (matchWindow s p.val off len false) (fun v1 =>
    let w := v1
    let x := (ioLookup p.val w.stall.toNat (windowTarget w off) false s1).1.getD { pa := 0 }
    let v2 := ioLookup p.val w.stall.toNat (windowTarget w off) false s1
    decide (v2.1 = some x) && true)) = true ∧
    (let p : HPort := 0
    let acc : BarAcc := ⟨0, 8⟩
    let v : Fin 128 := 1
    let s : State := { withHost {} with irq := [(0x300, { cfg := some 0x40041, signalled := true, count := 1 })] }
    let s1 := arrived (2 * p.val) s
    decide (barOk acc = true) && reachesB (2 * p.val) s && decide (fnAnswers s1 p.val 0 = true) &&
    someAnd (vectorWinner s1 p.val v.val) (fun _ => true)) = true ∧
    (let p : HPort := 0
    let acc : BarAcc := ⟨4, 8⟩
    let s : State := withHost {}
    decide (barOk acc = false) && decide (linkTrained (s.ctl (2 * p.val)).link = true) && decide (fnAnswers s p.val 0 = true)) = true ∧
    (let p : HPort := 0
    let fn : FnId := 0
    let acc : BarAcc := ⟨4, 8⟩
    let s : State := withHost {}
    decide (barOk acc = false) && decide (linkTrained (s.ctl (fnLink s p.val fn.val)).link = true) && decide (fnAnswers s p.val fn.val =
      true)) = true ∧
    (let p : HPort := 0
    let fn : FnId := 0
    let acc : BarAcc := ⟨0, 8⟩
    let i : Fin 128 := 127
    let s : State := withHost {}
    let s1 := arrived (fnLink s p.val fn.val) s
    decide (barOk acc = true) && reachesB (fnLink s p.val fn.val) s && decide (fnAnswers s1 p.val fn.val = true) && decide (i.val <
      msixEntries fn.val)) = true ∧
    (let path : Path := .fw
    let p : HPort := 0
    let s : State := withHost {}
    permitsB path (0x8030 + p.val) 0x21 1 s && decide (s.host.commitPending.any (fun x =>
    decide (x.1 = p.val)) = false) && decide (commitDenied s p.val = false)) = true ∧
    (let p : HPort := 1
    let s : State := withHost { commitPending := [(1, .fw)] }
    decide (s.host.commitPending.any (fun x =>
    decide (x.1 = p.val)) = true)) = true ∧
    (let r : Bool := true
    let w : Bool := false
    let s : State := withHost {}
    decide ((r || w) = true) && decide (s.host.heldOut = [])) = true ∧
    (let p : HPort := 0
    let v : AtsInval := { itag := 3, reads := [] }
    let rest : List AtsInval := []
    let s : State := { st0 with vm := { invalidations := [(0, [v])] } }
    decide (Tbl.get s.vm.invalidations p.val [] = v :: rest) && decide (v.reads.any (readOpen s) = false)) = true := by
  refine ⟨?_, ?_, ?_, ?_, ?_, ?_, ?_, ?_, ?_, ?_⟩ <;> decide +kernel

/-- The hypotheses of each clause of HostLinksComplete are met. -/
theorem test_hyps_HostLinksComplete :
    (let l : CtlId := 0
    let fn : FnId := 0
    let s : State := withHost {}
    decide (presented s l.val fn.val = true)) = true ∧
    (let l : CtlId := 0
    let fn : FnId := 0
    let s : State := withHost {}
    decide (fn.val = 0) && decide ((s.fnAt (linkFnKey l.val fn.val)).d3hot = false)) = true ∧
    (let l : CtlId := 0
    let fn : FnId := 0
    let s : State := { st0 with host := { fns := [(0, { drain := some .flr })] } }
    let k := linkFnKey l.val fn.val
    let f := s.fnAt k
    decide (f.drain.isSome = true)) = true ∧
    (let l : CtlId := 0
    let fn : FnId := 0
    let s : State := { st0 with host := { fns := [(0, { d3hot := true })] } }
    let k := linkFnKey l.val fn.val
    let f := s.fnAt k
    decide (f.drain = none) && decide (f.d3hot = true)) = true ∧
    (let l : CtlId := 1
    let fn : FnId := 0
    let s : State := withHost {}
    decide (s.host.fatal = false) && decide ((ownsQueues l.val fn.val && fnReads s (l.val / 2) fn.val) = false)) = true ∧
    (let l : CtlId := 0
    let fn : FnId := 0
    let s : State := { st0 with host := { fns := [(0, { drain := some .d3hot })] } }
    decide (s.host.fatal = false) && decide ((s.fnAt (linkFnKey l.val fn.val)).drain.isSome = true)) = true ∧
    (let l : CtlId := 0
    let fn : FnId := 0
    let s : State := withHost {}
    let s1 := exitL1 l.val (countLink l.val 1 1 s)
    decide (linkTrained (s1.ctl l.val).link = true) && decide (presented s1 l.val fn.val = true) && decide ((s1.fnAt (linkFnKey l.val
      fn.val)).drain = none)) = true ∧
    (let l : CtlId := 0
    let fn : FnId := 0
    let s : State := withHost {}
    let s1 := exitL1 l.val (countLink l.val 1 1 s)
    decide (linkTrained (s1.ctl l.val).link = true) && decide (presented s1 l.val fn.val = true) && decide ((s1.fnAt (linkFnKey l.val
      fn.val)).drain = none) && decide (s1.host.fatal = false)) = true ∧
    (let s : State := withHost {}
    decide (s.pwr.state ≠ .deep) && decide (s.pwr.state ≠ .off)) = true ∧
    (let l : CtlId := 0
    let s : State := st0
    decide (6 ≤ s.boot.phase.code) && decide (s.host.perst.getLsbD (l.val / 2) = false) && decide (ctlUsed s l.val = true) && decide ((s.ctl
      l.val).link = .down) && decide (s.pwr.state ≠ .deep) && decide (s.pwr.state ≠ .off) && decide (s.tap.hold = false)) = true ∧
    (let l : CtlId := 0
    let s : State := { st0 with host := { ctl := [(0, { link := .training })] } }
    decide ((s.ctl l.val).link = .training) && decide ((s.ctl l.val).spareWaiting = [])) = true ∧
    (let l : CtlId := 0
    let s : State := withHost { fns := [(0, { cfg := [(0x080, 2)] })] }
    decide ((s.ctl l.val).link = .l0) && decide ((cfgKept (s.fnAt (pfKey l.val)) 0x080).getLsbD 1 = true) && decide (linkIdle s l.val =
      true) && true) = true ∧
    (let l : CtlId := 0
    let s : State := { st0 with host := { ctl := [(0, { link := .l12 })] } }
    decide (inL1 (s.ctl l.val).link = true) && true) = true ∧
    (let l : CtlId := 0
    let s : State := withHost {}
    decide (linkTrained (s.ctl l.val).link = true)) = true ∧
    (let l : CtlId := 0
    let k : Nat := 0
    let n : Nat := 8
    let rest : List (Nat × Nat) := []
    let s : State := { st0 with host := { ctl := [(0, { reads := [(0, 8)] })] } }
    decide ((s.ctl l.val).reads = (k, n) :: rest)) = true := by
  refine ⟨?_, ?_, ?_, ?_, ?_, ?_, ?_, ?_, ?_, ?_, ?_, ?_, ?_, ?_, ?_⟩ <;> decide +kernel

/-- The hypotheses of each clause of LinkTrainingAndFlitsComplete are met. -/
theorem test_hyps_LinkTrainingAndFlitsComplete :
    (let l : LinkId := 3
    let s : State := withLink { state := .detect }
    decide ((s.link l.val).state = .detect)) = true ∧
    (let l : LinkId := 3
    let lane : Fin 2 := 1
    let sts : BitVec 16 := BitVec.ofNat 16 (0x3000 + 512 * physLane st0 3 1)
    let s : State := withLink { state := .cdr }
    decide ((s.link l.val).state = .cdr) && decide (natField sts.toNat 13 1 = 1) && decide (natField sts.toNat 9 3 = physLane s l.val
      lane.val) && decide (natField sts.toNat 12 1 = lane.val) && true) = true ∧
    (let ctl : BitVec 16 := 0
    let ctlInv : BitVec 16 := 0
    let sts : BitVec 16 := 0
    let stsInv : BitVec 16 := 0xFFFF
    decide (ctlInv ≠ ~~~ctl ∨ stsInv ≠ ~~~sts)) = true ∧
    (let l : LinkId := 3
    let s : State := withLink { state := .retrain }
    decide ((s.link l.val).state ∈ [LinkState.cdr, .equalize, .align, .param, .retrain])) = true ∧
    (let l : LinkId := 3
    let f : Flit := marker0
    let s : State := withLink { state := .active, farSf := some 4 }
    decide ((s.link l.val).state = .active) && decide (flitGood f = true) && decide (seqAhead (hdrSeq f.hdr) (s.link l.val).expSeq = false)
      && decide (markerFits s l.val f = true) &&
    let sf := BitVec.ofNat 32 (natOfBytes (f.payload.take 4))
    ((s.link l.val).farSf).all (fun x =>
    decide (sf = x + 1))) = true ∧
    (let l : LinkId := 3
    let s : State := withLink { state := .active }
    decide ((s.link l.val).state = .active)) = true ∧
    (let l : LinkId := 3
    let s : State := withLink { state := .active, quietNext := true }
    let k := s.link l.val
    decide (k.state = .active) && decide (k.slot = 0) && decide (k.quietNext = true)) = true ∧
    (let l : LinkId := 3
    let s : State := withLink { state := .active }
    let k := s.link l.val
    decide (k.state = .active) && decide (k.slot = 0) && decide (k.quietNext = false)) = true ∧
    (let l : LinkId := 3
    let s : State := withLink { state := .active, slot := 1, nakPending := true }
    let k := s.link l.val
    decide (k.state = .active) && decide (k.slot ≠ 0) && decide (k.nakPending = true) && true) = true ∧
    (let l : LinkId := 3
    let s : State := withLink { state := .active, slot := 1, replay := [⟨flit0, []⟩], replayAt := some 0 }
    let i := 0
    let f := (⟨flit0, []⟩ : Sent)
    let k := s.link l.val
    decide (k.state = .active) && decide (k.slot ≠ 0) && decide (k.nakPending = false) && decide (k.replayAt = some i) && decide
      (k.replay[i]? = some f)) = true ∧
    (let l : LinkId := 3
    let s : State := withLink { state := .active, slot := 1, credits := [(3, 1)], txq := [{ vc := 3, port := 100, units := [0] }] }
    let vc := 3
    let k := s.link l.val
    decide (k.state = .active) && decide (k.slot ≠ 0) && decide (k.nakPending = false) && decide (k.replayAt = none) && decide
      (k.replay.length < outstandingLimit) && decide (k.ctlOut = []) && decide (payloadVc k = some vc)) = true ∧
    (let l : LinkId := 3
    let f : Flit := flit0
    let s : State := withLink { state := .active }
    decide ((s.link l.val).state = .active) && decide (flitGood f = true) &&
    let k := takeHeader f.hdr (s.link l.val)
    decide (hdrSeq f.hdr = k.expSeq)) = true ∧
    (let l : LinkId := 3
    let f : Flit := flit0
    let s : State := withLink { state := .active }
    decide ((s.link l.val).state = .active) && decide (flitGood f = true) &&
    let k := takeHeader f.hdr (s.link l.val)
    decide (seqAhead (hdrSeq f.hdr) k.expSeq = false)) = true ∧
    (let l : LinkId := 3
    let f : Flit := flit0
    let s : State := withLink { state := .active, replay := [⟨flit0, []⟩, ⟨flit0, []⟩], replayCount := 3, nextSeq := 2 }
    decide ((s.link l.val).state = .active) && decide (flitGood f = true) && decide (seqAhead (hdrSeq f.hdr) (s.link l.val).expSeq = false)) = true ∧
    (let l : LinkId := 3
    let s : State := withLink { state := .active, nakOut := true }
    decide ((s.link l.val).state = .active) && decide ((s.link l.val).nakOut = true)) = true ∧
    (let l : LinkId := 3
    let s : State := withLink { state := .active, replay := [⟨flit0, []⟩] }
    decide ((s.link l.val).state = .active) && decide ((s.link l.val).replay ≠ [])) = true ∧
    (let l : LinkId := 3
    let s : State := withLink { state := .detect, holding := true }
    decide ((s.link l.val).holding = true) && decide ((s.link l.val).state ≠ .active) && true) = true := by
  refine ⟨?_, ?_, ?_, ?_, ?_, ?_, ?_, ?_, ?_, ?_, ?_, ?_, ?_, ?_, ?_, ?_, ?_⟩ <;> decide +kernel

/-- The hypotheses of each clause of LinkControlCompletes are met. -/
theorem test_hyps_LinkControlCompletes :
    (let l : LinkId := 3
    let h : BitVec 40 := 1
    let b : ParamBody :=
      { version := 1, role := 1, link := 3, identity := 9, credits := [8, 32, 256, 4095], depth := 511, seq := 0, afterRetrain := false }
    let s : State := odSet 0x6013 0x05 9 (withLink { state := .param })
    decide (receives (s.link l.val) = true) && decide ((s.link l.val).state ≠ .active) && decide ((acceptCtl l.val h s).1 = true) && decide
      (b.version = 1) && decide (b.role = 1) && decide (creditsOk b.credits = true) && decide (b.identity.toNat ≠ 0) && decide (odGet s
      (0x6010 + l.val) 0x05 = b.identity.toNat) && true) = true ∧
    (let l : LinkId := 3
    let h : BitVec 40 := 1
    let s : State := withLink { state := .param, ctl := [{ op := 1, arg := 0 }] }
    decide (receives (s.link l.val) = true) && decide ((acceptCtl l.val h s).1 = true) &&
    let s1 := (acceptCtl l.val h s).2
    decide ((s1.link l.val).ctl.any (fun c =>
    decide (c.op = 1)) = true)) = true ∧
    (let l : LinkId := 3
    let h : BitVec 40 := 1
    let s : State := withLink { state := .active }
    decide (receives (s.link l.val) = true) && decide ((acceptCtl l.val h s).1 = true) && decide ((s.link l.val).state = .active)) = true ∧
    (let l : LinkId := 3
    let h : BitVec 40 := 1
    let s : State := withLink { state := .active, spareLane := some 1 }
    let lane : BitVec 8 := 1
    decide (receives (s.link l.val) = true) && decide ((acceptCtl l.val h s).1 = true) &&
    let s1 := (acceptCtl l.val h s).2
    decide ((s1.link l.val).spareLane = some lane.toNat) && decide ((s1.link l.val).switchAt = none) && true) = true ∧
    (let l : LinkId := 3
    let h : BitVec 40 := 1
    let s : State := withLink { state := .active }
    decide (receives (s.link l.val) = true) && decide ((acceptCtl l.val h s).1 = true) && true) = true ∧
    (let l : LinkId := 3
    let lane : Nat := 1
    let s : State := withLink { state := .active, spareLane := some 1, switchAt := some 16 }
    let n := 16
    decide ((s.link l.val).spareLane = some lane) && decide ((s.link l.val).switchAt = some n)) = true ∧
    (let l : LinkId := 3
    let lane : Nat := 1
    let s : State := withLink { state := .active, spareLane := some 1 }
    decide ((s.link l.val).spareLane = some lane) && decide ((s.link l.val).switchAt = none)) = true ∧
    (let l : LinkId := 3
    let c : CtlPending := { op := 1, arg := 0, repeats := 8 }
    let r : List CtlPending := []
    let s : State := withLink { state := .active, ctl := [{ op := 1, arg := 0, repeats := 8 }] }
    decide ((s.link l.val).ctl = c :: r) && decide (c.repeats < 9)) = true ∧
    (let a : Nat := 0
    let b : Nat := 0
    let ucw : Nat := 0
    let s : State := withLink { state := .active }
    decide (serHigh s a = false) && decide (serHigh s b = false) && decide (ucw ≤ odGet s 0x6000 0x04)) = true ∧
    (let path : Path := .fw
    let l : LinkId := 3
    let s : State := withLink { state := .mismatch }
    decide ((s.link l.val).failbackPath = none) && permitsB path (0x6010 + l.val) 0x06 1 s && decide ((s.link l.val).state = .mismatch)) = true ∧
    (let path : Path := .fw
    let l : LinkId := 3
    let s : State := withLink { state := .active, carrier := some 4 }
    decide ((s.link l.val).failbackPath = none) && permitsB path (0x6010 + l.val) 0x06 2 s && decide ((s.link l.val).state = .active) &&
      decide (carrierOf s l.val ≠ l.val)) = true ∧
    (let path : Path := .fw
    let l : LinkId := 3
    let s : State := withLink { state := .active }
    decide ((s.link l.val).failbackPath = none) && permitsB path (0x6010 + l.val) 0x06 3 s && decide ((s.link l.val).state = .active)) = true ∧
    (let path : Path := .fw
    let l : LinkId := 3
    let s : State := withLink { state := .failed }
    decide ((s.link l.val).failbackPath = none) && permitsB path (0x6010 + l.val) 0x06 4 s && decide ((s.link l.val).state = .failed)) = true ∧
    (let l : LinkId := 3
    let s : State := withLink { state := .active, carrier := some 4, failbackPath := some .fw }
    decide ((s.link l.val).failbackPath.isSome = true) && decide ((s.link l.val).failbackSent = false) &&
    let t := carrierOf s l.val
    decide ((s.link l.val).state = .active) && decide (t ≠ l.val) && ((s.link t).replay).all (fun f =>
    decide (l.val ∉ f.links)) && ((s.link t).txq).all (fun m =>
    decide (m.port / 32 ≠ l.val))) = true ∧
    (let l : LinkId := 3
    let s : State := odSet 0x6000 0x07 0 (withLink { state := .active })
    decide (natBit (odGet s 0x6000 0x07) l.val = false) && decide ((s.link l.val).state ≠ .disabled) && true) = true := by
  refine ⟨?_, ?_, ?_, ?_, ?_, ?_, ?_, ?_, ?_, ?_, ?_, ?_, ?_, ?_, ?_⟩ <;> decide +kernel

/-- The hypotheses of each clause of DrivePortsComplete are met. -/
theorem test_hyps_DrivePortsComplete :
    (let p : PortId := 100
    let s : State := withPort { waiting := [{ op := 5 }] } {}
    someAnd ((s.port p.val).waiting.find? (mayIssue s p.val)) (fun _ => true)) = true ∧
    (let p : PortId := 100
    let tag : BitVec 8 := 63
    let s : State := withPort { state := .ready, cmds := [{ cmdTag with outcomeGiven := true }] } {}
    someAnd (tagCmd (s.port p.val) tag) (fun v1 =>
    let c := v1
    decide (c.abortSent = false) && decide (c.outcomeGiven = true))) = true ∧
    (let p : PortId := 100
    let tag : BitVec 8 := 63
    let s : State := withPort { state := .ready, cmds := [cmdTag] } {}
    someAnd (tagCmd (s.port p.val) tag) (fun v1 =>
    let c := v1
    decide (c.abortSent = false) && decide (c.outcomeGiven = false))) = true ∧
    (let p : PortId := 100
    let tag : BitVec 8 := 63
    let s : State := withPort { state := .ready, cmds := [{ cmdTag with abortSent := true }] } {}
    someAnd (tagCmd (s.port p.val) tag) (fun v1 =>
    let c := v1
    decide (c.abortSent = true))) = true ∧
    (let l : LinkId := 3
    let p : PortId := 100
    let tag : BitVec 8 := 63
    let s : State := withPort { state := .ready, cmds := [cmdTag] } {}
    let code : BitVec 8 := 9
    someAnd (tagCmd (s.port p.val) tag) (fun v1 =>
    let c := v1
    decide (carrierOf s (p.val / 32) = l.val) && decide (code.toNat ≤ 9) && decide (c.outcomeGiven = false) && true)) = true ∧
    (let l : LinkId := 3
    let p : PortId := 100
    let tag : BitVec 8 := 63
    let s : State := withPort { state := .ready, cmds := [cmdTag] } {}
    let blk : Fin 16 := 0
    someAnd (tagCmd (s.port p.val) tag) (fun v1 =>
    let c := v1
    decide (carrierOf s (p.val / 32) = l.val) && decide (c.op = 1) && decide (c.outcomeGiven = false) && decide (blk.val < c.count) && true)) = true ∧
    (let l : LinkId := 3
    let p : PortId := 100
    let tag : BitVec 8 := 63
    let s : State := withPort { state := .ready, cmds := [cmdTag] } {}
    let blk : Fin 16 := 0
    someAnd (tagCmd (s.port p.val) tag) (fun v1 =>
    let c := v1
    decide (carrierOf s (p.val / 32) = l.val) && decide (c.op = 1) && decide (c.outcomeGiven = false) && decide (blk.val < c.count))) = true ∧
    (let l : LinkId := 3
    let p : PortId := 100
    let tag : BitVec 8 := 63
    let s : State := withPort { state := .asleep, cmds := [{ cmdTag with op := 5 }] } {}
    someAnd (tagCmd (s.port p.val) tag) (fun v1 =>
    let c := v1
    decide (carrierOf s (p.val / 32) = l.val) && decide (c.op = 5) && decide (c.outcomeGiven = false) && true)) = true ∧
    (let l : LinkId := 3
    let p : PortId := 100
    let s : State := withPort { state := .ready } {}
    decide (carrierOf s (p.val / 32) = l.val)) = true ∧
    (let ty : BitVec 8 := 0xFF
    let len : Nat := 8
    decide ((ty.toNat, len) ∉ bridgeMessages)) = true ∧
    (let path : Path := .fw
    let p : PortId := 100
    let s : State := withPort { state := .new } {}
    permitsB path (0x6400 + p.val) 0x07 1 s && decide ((s.port p.val).state = .new)) = true ∧
    (let path : Path := .fw
    let p : PortId := 100
    let s : State := withPort { state := .ready } {}
    permitsB path (0x6400 + p.val) 0x07 2 s && decide ((s.port p.val).state ≠ .retired)) = true ∧
    (let path : Path := .fw
    let p : PortId := 100
    let s : State := withPort { state := .late } {}
    permitsB path (0x6400 + p.val) 0x07 3 s && decide ((s.port p.val).state = .late)) = true ∧
    (let path : Path := .fw
    let p : PortId := 100
    let s : State := withPort {} {}
    let h : BitVec 8 := 127
    permitsB path (0x6400 + p.val) 0x03 h.toNat s && true) = true ∧
    (let paths : List Path := [.fw]
    let p : PortId := 100
    let h : Nat := 127
    let s : State := withPort { shelfMove := some (127, [.fw]) } {}
    decide ((s.port p.val).shelfMove = some (h, paths)) && decide ((s.shelf h).state = .asleep) && decide ((s.shelf (portShelf s
      p.val)).state = .asleep)) = true := by
  refine ⟨?_, ?_, ?_, ?_, ?_, ?_, ?_, ?_, ?_, ?_, ?_, ?_, ?_, ?_, ?_⟩ <;> decide +kernel

/-- The hypotheses of each clause of ShelvesComplete are met. -/
theorem test_hyps_ShelvesComplete :
    (let l : LinkId := 3
    let req : BitVec 8 := 7
    let h : Nat := 0
    let ll : Nat := 3
    let up : Bool := true
    let s : State := withPort {} { state := .waking, awaiting := [(3, 7, true)] }
    decide ((List.range 128).findSome? (fun h => ((s.shelf h).awaiting.find? (fun a =>
    decide (carrierOf s a.1 = l.val) && decide (a.2.1 = req))).map (fun a => (h, a.1, a.2.2))) = some (h, ll, up))) = true ∧
    (let path : Path := .fw
    let h : ShelfId := 0
    let s : State := withPort {} { state := .awake }
    permitsB path (0x6100 + h.val) 0x02 1 s && decide ((s.shelf h.val).state = .awake) && decide ((s.shelf h.val).requests = [])) = true ∧
    (let path : Path := .fw
    let h : ShelfId := 0
    let s : State := withPort {} {}
    permitsB path (0x6100 + h.val) 0x02 1 s && decide ((s.shelf h.val).state = .asleep) && decide ((s.shelf h.val).requests = []) && decide
      ((h.val, false) ∉ s.wakeQueue)) = true ∧
    (let path : Path := .fw
    let h : ShelfId := 0
    let s : State := withPort {} { state := .awake }
    permitsB path (0x6100 + h.val) 0x02 2 s && decide ((s.shelf h.val).state = .awake)) = true ∧
    (let path : Path := .fw
    let h : ShelfId := 0
    let s : State := withPort {} {}
    let v : BitVec 32 := 0x3C
    permitsB path (0x6100 + h.val) 0x04 v.toNat s && decide ((s.shelf h.val).state ≠ .awake)) = true ∧
    (let h : Nat := 0
    let work : Bool := true
    let s : State := { withPort {} {} with wakeQueue := [(0, true)] }
    decide (wakingShelves s < odGet s 0x6000 0x0C) && decide (s.pwr.pwrfail = false) && decide (s.wakeQueue.find? (fun r =>
    decide ((s.shelf r.1).state = .asleep)) = some (h, work))) = true ∧
    (let h : ShelfId := 0
    let s : State := withPort {} { state := .waking }
    decide ((s.shelf h.val).state = .waking) && true) = true ∧
    (let q : PortId := 100
    let s : State := withPort { state := .waking, joinReq := some 1 } { state := .awake }
    decide ((s.port q.val).joinReq.isSome = true) && decide ((s.port q.val).state = .waking)) = true ∧
    (let h : ShelfId := 0
    let s : State := withPort {} { state := .awake }
    decide ((s.shelf h.val).state = .awake)) = true ∧
    (let h : ShelfId := 0
    let s : State := withPort {} { state := .closing }
    decide ((s.shelf h.val).state = .closing) && decide ((s.shelf h.val).pastWindow = false) && (shelfPorts s h.val).all (fun p =>
    decide ((s.port p).waiting = [])) && true) = true ∧
    (let h : ShelfId := 0
    let s : State := withPort {} { state := .sleeping }
    decide ((s.shelf h.val).state = .sleeping) && true) = true := by
  refine ⟨?_, ?_, ?_, ?_, ?_, ?_, ?_, ?_, ?_, ?_, ?_⟩ <;> decide +kernel

/-- The hypotheses of each clause of PowerTransitionsComplete are met. -/
theorem test_hyps_PowerTransitionsComplete :
    (let l : LinkId := 3
    let h : BitVec 40 := 1
    let s : State := withLink { state := .active, quietSent := true }
    decide (receives (s.link l.val) = true) && decide ((acceptCtl l.val h s).1 = true) &&
    let s1 := (acceptCtl l.val h s).2
    decide ((s1.link l.val).quietSent = true) && decide ((s1.link l.val).state = .active)) = true ∧
    (let l : LinkId := 31
    let s : State := withPwr { entering := some .sleep, quietWait := [31] }
    decide (s.pwr.entering = some .sleep) && decide (s.pwr.quietWait.contains l.val = true)) = true ∧
    (let s : State := odSet 0x2000 0x02 1 { st0 with cores := [] }
    decide (s.pwr.state = .run) && decide (entryPermitted s .idle = true) && decide (((List.range 128).all (fun k => coreIdle s k)) = true)) = true ∧
    (let s : State := odSet 0x2000 0x02 2 (withPwr { state := .idle })
    decide (s.pwr.state = .idle) && decide (entryPermitted s .sleep = true)) = true ∧
    (let s : State := odSet 0x2000 0x02 3 (withPwr { state := .sleep })
    decide (s.pwr.state = .sleep) && decide (entryPermitted s .deep = true)) = true ∧
    (let path : Path := .fw
    let s : State := st0
    permitsB path 0x2000 0x06 1 s) = true ∧
    (let path : Path := .fw
    let s : State := { st0 with cores := [] }
    permitsB path 0x2000 0x06 2 s && decide (s.pwr.entering = none) && decide (s.boot.ready = true) && decide (refuser (odBump 0x2014 0x01
      s) .off = none)) = true ∧
    (let s : State := withPwr { state := .off }
    decide (s.pwr.state = .off)) = true ∧
    (let s : State := withPwr { state := .deep }
    decide (s.pwr.state ≠ .off) && decide (s.boot.ready = true) && decide (s.far.fatal = false)) = true ∧
    (let s : State := odSet 0x2000 0x08 1 (withPwr { state := .deep })
    decide (odGet s 0x2000 0x08 ≠ 0) && decide (s.pwr.state ≠ .off)) = true ∧
    (let a : BitVec 7 := BitVec.ofNat 7 (sideVal st0 0x16)
    let s : State := st0
    decide (a.toNat = halterAddr s) && true) = true ∧
    (let s : State := { st0 with side := { sclHeld := true } }
    decide (s.side.sclHeld = true)) = true ∧
    (let d : Domain := .ring 0
    let s : State := withPwr { domains := [(.ring 0, .waking)] }
    decide (domState s d = .waking)) = true ∧
    (let cause : Nat := 5
    let s : State := withPwr { state := .deep, deepExit := some 5 }
    decide (s.pwr.state = .deep) && decide (s.pwr.deepExit = some cause) && true) = true ∧
    (let d : Domain := .ring 0
    let s : State := withPwr { domains := [(.ring 0, .waking)], wakeTries := [(.ring 1, 1)] }
    decide (domState s d = .waking) && decide ((∀ q, d ≠ .quad q)) && (s.pwr.wakeTries).all (fun x =>
    decide (x.1 ≠ d)) && true) = true := by
  refine ⟨?_, ?_, ?_, ?_, ?_, ?_, ?_, ?_, ?_, ?_, ?_, ?_, ?_, ?_, ?_⟩ <;> decide +kernel

/-- The hypotheses of each clause of SupplyAndGaitsComplete are met. -/
theorem test_hyps_SupplyAndGaitsComplete :
    (let c : CoreId := 0
    let s : State := withPwr { cores := [(0, { grant := 2, gait := 1 })] }
    decide ((s.corePwr c.val).gait < (s.corePwr c.val).grant)) = true ∧
    (let s : State := st0
    decide (samples s = true)) = true ∧
    (let d : Demotion := .droop 0
    let s : State := withPwr { demotions := [.droop 0], droopCount := [(0, 20)] }
    decide (s.pwr.demotions.find? (fun x => !causePresent s x) = some d) && decide (d ≠ .powerCap)) = true ∧
    (let die : Fin 2 := 1
    let s : State := withPwr { droopCount := [(1, 19)] }
    let n := Tbl.get s.pwr.droopCount die.val 0 + 1
    decide (n ≤ 20)) = true ∧
    (let s : State := st0
    decide (s.pwr.state ≠ .off) && decide (¬(s.pwr.state = .deep ∧ s.pwr.deepExit = none))) = true ∧
    (let s : State := withPwr { flushing := true }
    decide (s.pwr.flushing = true) && true) = true ∧
    (let s : State := withPwr { pwrfail := true }
    decide (s.pwr.pwrfail = true)) = true ∧
    (let r : Regulator := .uncore 0
    let s : State := withPwr { lost := [.uncore 1] }
    decide (s.pwr.lost.contains r = false)) = true ∧
    (let r : Rail := .vddq
    let s : State := st0
    decide (r ≠ .vccIn) && decide (s.pwr.state ∉ [PowerState.deep, .off])) = true := by
  refine ⟨?_, ?_, ?_, ?_, ?_, ?_, ?_, ?_, ?_⟩ <;> decide +kernel

/-- The hypotheses of each clause of RingsComplete are met. -/
theorem test_hyps_RingsComplete :
    (let seg : BitVec 11 := 0
    let cycle : Nat := 0
    let inj : List LocalSrc := []
    let s : State := withLane { retry := [rflit0] }
    let f := rflit0
    let r := []
    let c := seg.toNat
    let s1 := ejectAt (segFrom c) cycle (ejectAll c (inj.foldl (fun t x => queuePacket (segFrom c) x t) s))
    let s2 := s1.setLane c { s1.lane c with now := cycle }
    let s3 := injectStrict c s2
    let ln := s3.lane c
    decide (segValid c = true) && decide (c ∉ s2.ring.failedSegs) && decide (ln.retry = f :: r)) = true ∧
    (let seg : BitVec 11 := 0
    let cycle : Nat := 0
    let inj : List LocalSrc := []
    let s : State := withLane { strict := [sflit] }
    let f := sflit
    let c := seg.toNat
    let s1 := ejectAt (segFrom c) cycle (ejectAll c (inj.foldl (fun t x => queuePacket (segFrom c) x t) s))
    let s2 := s1.setLane c { s1.lane c with now := cycle }
    let s3 := injectStrict c s2
    let ln := s3.lane c
    decide (segValid c = true) && decide (c ∉ s2.ring.failedSegs) && decide (ln.retry = []) && decide (strictFlit s3 c cycle = some f)) = true ∧
    (let seg : BitVec 11 := 0
    let cycle : Nat := 0
    let inj : List LocalSrc := []
    let s : State := withLane { cont := [(0, [rflit0])] }
    let c := seg.toNat
    let s1 := ejectAt (segFrom c) cycle (ejectAll c (inj.foldl (fun t x => queuePacket (segFrom c) x t) s))
    let s2 := s1.setLane c { s1.lane c with now := cycle }
    let s3 := injectStrict c s2
    let ln := s3.lane c
    decide (segValid c = true) && decide (c ∉ s2.ring.failedSegs) && decide (ln.retry = []) && decide (strictFlit s3 c cycle = none) &&
      decide (groupStall s3 (trainGroup c cycle) = none) &&
    someAnd (pickCand ln (candidates s3 c cycle)) (fun _ => true)) = true ∧
    (let seg : BitVec 11 := 0
    let p : BitVec 11 := BitVec.ofNat 11 turnLane
    let v : Fin 16 := 0
    let f : RingFlit := { rflit0 with path := [(0, 0), (1, 0)] }
    let s : State := { st0 with ring := { lanes := [(turnLane, { inBuf := [(0, [rflit0])] })] } }
    decide (bufferHead s seg.toNat p.toNat v.val = some f) && decide (hPri f.hdr ≤ 1)) = true ∧
    (let seg : BitVec 11 := 0
    let p : BitVec 11 := BitVec.ofNat 11 turnLane
    let v : Fin 16 := 0
    let f : RingFlit := { rflit0 with path := [(0, 0), (1, 0)] }
    let s : State := { st0 with ring := { lanes := [(turnLane, { inBuf := [(0, [rflit0])] })] } }
    decide (bufferHead s seg.toNat p.toNat v.val = some f) && decide (sameLane p.toNat seg.toNat = false) && decide (f.promoted = false)) = true ∧
    (let seg : BitVec 11 := 0
    let q : Fin 16 := 15
    let x : QueuedPkt := { hdr := qhdr, body := [] }
    let s : State := st0.setRingQueue (segFrom 0) 15 [{ hdr := qhdr, body := [] }]
    decide ((s.ringQueue (segFrom seg.toNat) q.val).head? = some x) && decide (nextSeg (injectFlit s x) = some seg.toNat) && decide (hPri
      x.hdr ≤ 1)) = true ∧
    (let seg : BitVec 11 := 0
    let q : Fin 16 := 15
    let x : QueuedPkt := { hdr := qhdr, body := [] }
    let s : State := st0.setRingQueue (segFrom 0) 15 [{ hdr := qhdr, body := [] }]
    decide ((s.ringQueue (segFrom seg.toNat) q.val).head? = some x) && decide (nextSeg (injectFlit s x) = some seg.toNat) && decide
      (x.promoted = false)) = true ∧
    (let seg : BitVec 11 := 0
    let after : Fin 8 := 0
    let f : RingFlit := { rflit0 with path := [(0, 0)] }
    let r : List RingFlit := []
    let s : State := withLane
      { sent := [{ rflit0 with path := [(0, 0)] }], eject := [{ rflit0 with path := [(0, 0)] }], retries := List.replicate 15 0 }
    let c := seg.toNat
    let l := s.lane c
    let back := l.sent.drop (l.sent.length - (after.val + 1))
    decide (back = f :: r) && decide (back.length = after.val + 1) &&
    someAnd (back.reverse.foldl (fun t g => t.bind (unsend c g)) (some s)) (fun _ => true)) = true ∧
    (let seg : BitVec 11 := 0
    let s : State :=
      { st0 with ring := { failedSegs := [0], table := [(0, [1])] }, far := { running := [{ action := 4, resource := BitVec.ofNat 16 (resource 1 0), incident := 1, cls := 0 }] } }
    someAnd (s.far.running.find? (fun r =>
    decide (r.action = 0x04) && decide (r.resource.toNat = resource 1 seg.toNat))) (fun _ =>
    someAnd (detourFor s seg.toNat) (fun _ => true))) = true ∧
    (let n : StallId := 2
    let s : State := withStall 2 { ringPending := true }
    decide ((s.stall n.val).ringPending = true) && (ringFlits s).all (fun f =>
    decide (hStrict f.hdr = true → hStall f.hdr ≠ n.val))) = true ∧
    (let path : Path := .fw
    let code : BitVec 16 := 0
    let s : State := st0
    permitsB path 0xF010 0x07 code.toNat s) = true ∧
    (let t : SliceId := 0
    let pa : BitVec 52 := 0x1000
    let s : State := { st0 with coh := { net := [{ stop := tileStop 0, line := 64, kind := .snpInv }] } }
    decide (agentLost s (stopDie (tileStop t.val)) = false) &&
    someAnd (takePkt (tileStop t.val) (lineOf pa) PktKind.isSnp s) (fun _ => true)) = true ∧
    (let r : Req := req0
    let old : SliceId := ⟨(homeSlice st0 16 + 1) % 136, by decide +kernel⟩
    let q : HomeReq := { req := req0, op := .rdShr }
    let rest : List HomeReq := []
    let s : State := st0.setSlice ((homeSlice st0 16 + 1) % 136) { queue := [{ req := req0, op := .rdShr }] }
    decide (agentLost s (stopDie (tileStop old.val)) = false) && decide (takeFirst (fun x =>
    decide (x.req = r)) (s.slice old.val).queue = some (q, rest)) && decide (homeSlice s (r.pa.toNat / 256) ≠ old.val) && true) = true := by
  refine ⟨?_, ?_, ?_, ?_, ?_, ?_, ?_, ?_, ?_, ?_, ?_, ?_, ?_⟩ <;> decide +kernel

/-- The hypotheses of each clause of StallLifeCompletes are met. -/
theorem test_hyps_StallLifeCompletes :
    (let path : Path := .fw
    let n : StallId := 256
    let s : State := odSet 0x4200 0x06 2 (odSet 0x4200 0x30 (2 ^ 38) (withStall 256 {}))
    decide (n.val ≠ 0) && permitsB path (0x4100 + n.val) 0x02 1 s && decide ((s.stall n.val).state = .free) && decide (createStallDenied s
      n.val = false)) = true ∧
    (let path : Path := .fw
    let n : StallId := 1
    let s : State := withStall 1 { state := .live }
    decide (n.val ≠ 0) && permitsB path (0x4100 + n.val) 0x02 2 s && decide (((s.stall n.val).state = .live ∨ (s.stall n.val).state =
      .fenced))) = true ∧
    (let path : Path := .fw
    let n : StallId := 1
    let s : State := withStall 1 { state := .fenced }
    decide (n.val ≠ 0) && permitsB path (0x4100 + n.val) 0x02 2 s && decide (((s.stall n.val).state = .live ∨ (s.stall n.val).state =
      .fenced))) = true ∧
    (let n : StallId := 1
    let s : State := odSet 0x4101 0x06 2 (withStall 1 { state := .creating, started := 2 })
    decide (n.val ≠ 0) && decide ((s.stall n.val).state = .creating) && decide ((maskCores (stallCores s n.val ||| stallShared s n.val)).all
      (fun k => (s.stall n.val).started.getLsbD k) = true)) = true ∧
    (let n : StallId := 1
    let s : State := withStall 1 { state := .teardown, step := 1 }
    decide ((s.stall n.val).state = .teardown) && decide ((s.stall n.val).step = 1) && decide (stallCtxs s n.val = []) && decide (stallVf s
      n.val = none)) = true ∧
    (let n : StallId := 1
    let s : State := withStall 1 { state := .teardown, step := 2 }
    decide ((s.stall n.val).state = .teardown) && decide ((s.stall n.val).step = 2) && decide (stallVf s n.val = none) &&
    someAnd (performTranslated s) (fun _ => true)) = true ∧
    (let path : Path := .fw
    let n : StallId := 1
    let mask : BitVec 128 := 2
    let s : State := withStall 1 {}
    decide (n.val ≠ 0) && decide ((s.stall n.val).state = .free) && decide (mask.toNat &&& s.far.offline.toNat = 0) && permitsB path (0x4100
      + n.val) 0x06 mask.toNat s) = true ∧
    (let path : Path := .fw
    let n : StallId := 1
    let mask : BitVec 128 := 2
    let s : State := withStall 1 {}
    decide (n.val ≠ 0) && decide ((s.stall n.val).state = .free) && decide (mask.toNat &&& s.far.offline.toNat = 0) && permitsB path (0x4100
      + n.val) 0x07 mask.toNat s) = true ∧
    (let c : CoreId := 127
    let s : State := withStall 1 { leaving := 2 ^ 127 }
    someAnd ((s.stalls.map (·.1)).find? (fun n => (s.stall n).leaving.getLsbD c.val || (s.stall n).leavingShared.getLsbD c.val)) (fun _ =>
      true)) = true ∧
    (let c : CoreId := 0
    let s : State := odSet 0x4101 0x07 1 (withStall 1 { state := .live })
    decide (coreOwner s c.val = 0) && decide (s.far.offline.getLsbD c.val = false) &&
    someAnd (drainStores c.val s) (fun _ =>
    decide ((s.core c.val).halted = false) &&
    someAnd ((rotation s c.val).find? (fun n =>
    decide ((s.core c.val).stall < n))) (fun _ => true))) = true := by
  refine ⟨?_, ?_, ?_, ?_, ?_, ?_, ?_, ?_, ?_, ?_⟩ <;> decide +kernel

/-- The hypotheses of each clause of StallResourcesComplete are met. -/
theorem test_hyps_StallResourcesComplete :
    (let path : Path := .fw
    let n : StallId := 1
    let s : State := withStall 1 {}
    let k : Fin 16 := 15
    let v : Word := 0x4000000001
    decide ((s.stall n.val).state = .free) && permitsB path (0x4100 + n.val) (0x30 + k.val) v.toNat s &&
    let within := rangeIn (grantRange (odGet s (0x4100 + n.val) (0x30 + k.val))) (grantRange v.toNat)
    decide (within = true)) = true ∧
    (let path : Path := .fw
    let n : StallId := 1
    let s : State := odSet 0x4101 0x3F 0x4000000001 (withStall 1 {})
    let k : Fin 16 := 15
    let v : Word := 0
    decide ((s.stall n.val).state = .free) && permitsB path (0x4100 + n.val) (0x30 + k.val) v.toNat s &&
    let within := rangeIn (grantRange (odGet s (0x4100 + n.val) (0x30 + k.val))) (grantRange v.toNat)
    decide (within = false) && decide ((s.stall n.val).grantPending = [])) = true ∧
    (let path : Path := .fw
    let n : StallId := 1
    let s : State := withStall 1 {}
    let v : BitVec 16 := 256
    decide ((s.stall n.val).state = .free) && permitsB path (0x4100 + n.val) 0x09 v.toNat s) = true ∧
    (let path : Path := .fw
    let n : StallId := 1
    let s : State := withStall 1 {}
    let b : Bool := true
    decide ((s.stall n.val).state = .free) && permitsB path (0x4100 + n.val) 0x0C (if b then 1 else 0) s) = true ∧
    (let path : Path := .fw
    let n : StallId := 1
    let v : Word := 0x4000
    let s : State := withStall 1 { state := .live }
    permitsB path (0x4100 + n.val) 0x24 v.toNat s && decide (odGet s (0x4100 + n.val) 0x24 ≠ v.toNat) && decide ((s.stall
      n.val).grantPending = [])) = true ∧
    (let n : StallId := 1
    let v : Word := 0x4000
    let path : Path := .fw
    let rest : List GrantPending := []
    let s : State := withStall 1 { state := .live, grantPending := [.ioRoot 0x4000 .fw] }
    decide ((s.stall n.val).grantPending ≠ []) &&
    someAnd (performTranslated s) (fun v1 =>
    let s0 := v1
    decide ((s0.stall n.val).grantPending = .ioRoot v path :: rest) && true)) = true ∧
    (let n : StallId := 1
    let s : State := withStall 1 { state := .creating, cleaning := true }
    decide ((s.stall n.val).cleaning = true) && true) = true ∧
    (let path : Path := .fw
    let n : StallId := 1
    let v : BitVec 32 := 7
    let s : State := st0
    permitsB path (0x4100 + n.val) 0x21 v.toNat s && decide (((List.range 128).all (fun k =>
    decide ((s.core k).stall = n.val → (s.core k).started = false))) = true)) = true ∧
    (let path : Path := .fw
    let n : StallId := 1
    let v : BitVec 32 := 0xFFFFFF00
    let s : State := withStall 1 { state := .live }
    permitsB path (0x4100 + n.val) 0x20 v.toNat s && decide (v.toNat % 256 = 0) && decide (groupsHeld s n.val v.toNat = false) && true) = true ∧
    (let path : Path := .fw
    let n : StallId := 1
    let v : BitVec 32 := 0xFFFFFF00
    let s : State := withStall 1 { state := .live }
    permitsB path (0x4100 + n.val) 0x23 v.toNat s && decide (slotsDenied s n.val v.toNat = false) && true) = true ∧
    (let path : Path := .fw
    let n : StallId := 1
    let v : BitVec 16 := 0xFFFF
    let s : State := withStall 1 { state := .live }
    permitsB path (0x4100 + n.val) 0x22 v.toNat s && decide (v ≠ 0) && decide (waysMeetStrict s n.val v.toNat = false)) = true ∧
    (let path : Path := .fw
    let w : Fin 16 := 15
    let v : BitVec 32 := 0
    let s : State := st0
    permitsB path 0x5100 (0x10 + w.val) v.toNat s && decide (natBit v.toNat 0 = false)) = true ∧
    (let path : Path := .fw
    let c : ChanId := 15
    let s : State := st0
    permitsB path (0x5010 + c.val) 0x0E 1 s) = true ∧
    (let path : Path := .fw
    let c : ChanId := 15
    let rank : Fin 8 := 7
    let s : State := st0
    permitsB path (0x5010 + c.val) 0x0E (2 + 16 * rank.val) s) = true ∧
    (let n : SourceId := 0x541
    let s : State := { st0 with irq := [(0x541, { count := 1 })] }
    decide (srcEn (srcCfg s n.val) = true) && decide (0 < (s.source n.val).count) && decide ((s.source n.val).signalled = false)) = true ∧
    (let path : Path := .fw
    let w : Word := 1
    let s : State := pathSet .fw 0x9000 0x01 0x600 st0
    permitsB path 0x9000 0x02 w.toNat s && decide (pathClass path ≠ .t) &&
    let n := pathGet s path 0x9000 0x01 % 2048
    decide (srcReserved n = false) && decide (targetDenied s n w = false) && decide ((s.source n).signalled = false)) = true := by
  refine ⟨?_, ?_, ?_, ?_, ?_, ?_, ?_, ?_, ?_, ?_, ?_, ?_, ?_, ?_, ?_, ?_⟩ <;> decide +kernel

/-- The hypotheses of each clause of DictionaryCompletes are met. -/
theorem test_hyps_DictionaryCompletes :
    (let path : Path := .fw
    let idx : BitVec 16 := 0x1000
    let sub : BitVec 8 := 0x0B
    let data : List Byte := [1]
    let s : State := st0
    decide (groomServes s = true) && decide (checkWrite s path idx.toNat sub.toNat data = .ok) && decide (s.boot.ready = true)) = true ∧
    (let s : State := st0
    decide (groomServes s = true) && true) = true ∧
    (let x := (Instr.restoreCancel, 0)
    let path : Path := .fw
    let s : State := st0
    permitsB path 0x1000 0x0B x.2 s) = true := by
  refine ⟨?_, ?_, ?_⟩ <;> decide +kernel

/-- The hypotheses of each clause of SideBandCompletes are met. -/
theorem test_hyps_SideBandCompletes :
    (let id : BitVec 29 := BitVec.ofNat 29 (nodeId st0 * 2 ^ 13)
    let s : State := st0
    decide (idResp id = false) && decide (idDst id = nodeId s) && decide (canServes s = true) && decide (s.far.fatal = false) && decide
      (s.boot.mfg = false) && decide (s.pwr.state ≠ .off) && decide (s.pwr.state ≠ .deep)) = true ∧
    (let src : BitVec 7 := 1
    let tid : BitVec 6 := 63
    let s : State :=
      { st0 with side := { transfers := [{ src := 1, tid := 63, hdr := hdr0, service := 1, counter := 0, length := 9, bytes := [] }] } }
    someAnd (s.side.transfers.find? (fun t =>
    decide (t.src = src) && decide (t.tid = tid))) (fun _ => true)) = true ∧
    (let s : State := { st0 with serial := List.replicate 7 { path := .can, write := false, idx := 0, sub := 0, can := some (hdr0, 1) } }
    decide (canServes s = true) &&
    let u := wakeDevice 3 (pumpCan (frameReceived { s with side := { s.side with busOff := false } }))
    decide (canWaits u < 8)) = true ∧
    (let s : State := st0
    decide (canServes s = true) && true) = true ∧
    (let s : State := st0
    decide (canServes s = true) &&
    let u := wakeDevice 3 (pumpCan (frameReceived { s with side := { s.side with busOff := false } }))
    decide (s.pwr.state ≠ .deep) && decide ((wakeDevice 3 u).pwr.state ≠ .deep)) = true ∧
    (let s : State := st0
    decide (canServes s = true) && true) = true ∧
    (let s : State := odSet 0x1000 0x13 1 st0
    decide (canServes s = true) && decide (sideVal s 0x13 ≠ 0) && true) = true ∧
    (let s : State := st0
    decide (halterServes s = true) && decide (s.side.halterNack = false) && decide (s.side.halterPending = false)) = true ∧
    (let s : State := { st0 with side := { halterReply := some [1, 2, 3] } }
    let b : List Byte := [1, 2, 3]
    decide (halterServes s = true) && decide (s.side.halterNack = false) && decide (s.side.halterReply = some b)) = true ∧
    (let s : State := st0
    decide (halterServes s = true) && decide (s.side.halterNack = false) && decide (s.side.halterReply = none)) = true ∧
    (let s : State := st0
    decide (halterServes s = true) && decide (s.side.halterNack = false) && true) = true := by
  refine ⟨?_, ?_, ?_, ?_, ?_, ?_, ?_, ?_, ?_, ?_, ?_⟩ <;> decide +kernel

/-- The hypotheses of each clause of BringUpCompletes are met. -/
theorem test_hyps_BringUpCompletes :
    (let s : State := inBoot .reset
    decide (inPhase .reset s = true)) = true ∧
    (let g : PairId := 1
    let s : State := inBoot .rom
    decide (selftestRuns g.val s = true)) = true ∧
    (let s : State := inBoot .load
    decide (inPhase .load s = true)) = true ∧
    (let s : State := inBoot .power
    decide (inPhase .power s = true)) = true ∧
    (let s : State := odSet 0xB000 0x03 0 (inBoot .power)
    decide (inPhase .power s = true) && decide (natBit (odGet s 0xB000 0x03) 3 = false)) = true ∧
    (let s : State := inBoot .calibrate
    decide (inPhase .calibrate s = true) && decide (s.boot.hold = false)) = true ∧
    (let s : State := inBoot .calibrate
    decide (inPhase .calibrate s = true)) = true ∧
    (let s : State := inBoot .maps
    decide (inPhase .maps s = true)) = true ∧
    (let s : State := inBoot .coldSoak
    let t : Int := 0
    let r : List Int := []
    decide (inPhase .coldSoak s = true) && (t :: r).all (fun u =>
    decide (0 ≤ u))) = true ∧
    (let s : State := odSet 0xB000 0x03 0 (inBoot .coldSoak)
    decide (inPhase .coldSoak s = true) && decide (natBit (odGet s 0xB000 0x03) 7 = false)) = true ∧
    (let s : State := inBoot .dram
    let spd : List DimmSpd := goodSpd
    decide (inPhase .dram s = true) && decide (s.boot.hold = false) && decide (populationOk spd = true)) = true ∧
    (let s : State := inBoot .dram
    let spd : List DimmSpd := []
    decide (inPhase .dram s = true) && decide (s.boot.hold = false) && decide (populationOk spd = false)) = true ∧
    (let s : State := inBoot .tack
    decide (inPhase .tack s = true)) = true ∧
    (let s : State := inBoot .units
    decide (inPhase .units s = true)) = true ∧
    (let s : State := withFar { fatal := true }
    decide (s.far.fatal = true)) = true := by
  refine ⟨?_, ?_, ?_, ?_, ?_, ?_, ?_, ?_, ?_, ?_, ?_, ?_, ?_, ?_, ?_⟩ <;> decide +kernel

/-- The hypotheses of each clause of TestPortCompletes are met. -/
theorem test_hyps_TestPortCompletes :
    (let path : Path := .fw
    let b : Bool := true
    let s : State := st0
    permitsB path 0xF000 0x01 (boolNat b) s) = true ∧
    (let path : Path := .fw
    let b : Bool := false
    let s : State := st0
    permitsB path 0xF000 0x01 (boolNat b) s) = true ∧
    (let s : State := st0
    decide (s.tap.hold = false)) = true ∧
    (let s : State := st0
    decide (s.tap.hold = false)) = true ∧
    (let s : State := odSet 0xF000 0x01 1 st0
    decide (tapOpen s = true)) = true ∧
    (let s : State := odSet 0xF000 0x01 1 st0
    decide (tapOpen s = true)) = true ∧
    (let d : BitVec 72 := 2 ^ 63
    let s : State := odSet 0xF000 0x01 1 st0
    decide (tapOpen s = true) && decide (s.tap.hold = false) && decide (natBit d.toNat 63 = true) && decide (groomServes s = true)) = true ∧
    (let k : BitVec 8 := 0x80
    let s : State := odSet 0xF000 0x01 1 st0
    decide (tapOpen s = true) && decide (s.tap.hold = false) &&
    let c := k.toNat % 128
    decide (coreOwner s c = 0) && decide (coreStall s c = 0)) = true ∧
    (let k : BitVec 8 := 0
    let s : State := odSet 0xF000 0x01 1 (st0.setCore 0 { core0 with halted := true })
    decide (tapOpen s = true) && decide (s.tap.hold = false) &&
    let c := k.toNat % 128
    decide (coreOwner s c = 0) && decide (coreStall s c = 0) && decide ((s.core c).halted = true)) = true ∧
    (let k : BitVec 8 := 0
    let s : State := odSet 0xF000 0x01 1 (st0.setCore 0 { core0 with halted := true })
    decide (tapOpen s = true) && decide (s.tap.hold = false) &&
    let c := k.toNat % 128
    decide (coreOwner s c = 0) && decide (coreStall s c = 0) && decide ((s.core c).halted = true)) = true ∧
    (let k : BitVec 8 := 0
    let s : State := odSet 0xF000 0x01 1 (st0.setCore 0 { core0 with halted := true })
    decide (tapOpen s = true) && decide (s.tap.hold = false) &&
    let c := k.toNat % 128
    decide (coreOwner s c = 0) && decide (coreStall s c = 0) && decide ((s.core c).halted = true)) = true ∧
    (let s : State := { st0 with tap := { hold := true } }
    decide (s.tap.hold = true)) = true ∧
    (let s : State := st0
    decide (tapOpen s = false) && decide (s.tap.hold = false)) = true := by
  refine ⟨?_, ?_, ?_, ?_, ?_, ?_, ?_, ?_, ?_, ?_, ?_, ?_, ?_⟩ <;> decide +kernel

/-- The hypotheses of each clause of CountersAndInterruptsComplete are met. -/
theorem test_hyps_CountersAndInterruptsComplete :
    (let b : Nat := 0x145
    let i : Fin 8 := 3
    let s : State := st0.setCounter 0x145 3 { sel := 0x4000000 }
    decide (i.val < blockCounters b) && decide (selEn (s.counter b i.val) = true) && decide (s.pmu.freeze = false)) = true ∧
    (let b : Nat := 0
    let i : Nat := 7
    let event : Nat := 1
    let pl : Option Nat := none
    let s : State := st0.setCounter 0 7 { sel := 0x4000001, value := 0xFFFFFFFFFFFF }
    decide (ticks s b (s.counter b i) pl = false) && decide (counts s (s.counter b i) event pl = true) && true) = true ∧
    (let c : CoreId := 0
    let s : State :=
      { (st0.setCore 0 { core0 with waiting := true, arch := { core0.arch with sw := 0x400 } }) with irq := [(0x300, { cfg := some 0x3, count := 1, signalled := true })] }
    let s1 := s.setCore c.val { s.core c.val with waiting := false }
    decide (coreRuns s1 c.val = true) && decide ((winner s (.core c.val)).isSome = true) && decide (swIe (s.core c.val).arch.sw = true)) = true ∧
    (let c : CoreId := 0
    let s : State :=
      { (st0.setCore 0 { core0 with waiting := true, arch := { core0.arch with sw := 0 } }) with irq := [(0x300, { cfg := some 0x3, count := 1, signalled := true })] }
    let s1 := s.setCore c.val { s.core c.val with waiting := false }
    decide (coreRuns s1 c.val = true) && decide ((winner s (.core c.val)).isSome = true) && decide (swIe (s.core c.val).arch.sw = false)) = true := by
  refine ⟨?_, ?_, ?_, ?_⟩ <;> decide +kernel

/-- The hypotheses of each clause of StepRunsTheFrontCommand are met. -/
theorem test_hyps_StepRunsTheFrontCommand :
    (let s : State := st0
    decide (s.pending = [])) = true := by
  decide +kernel

/-- The hypotheses of each clause of RegisterFormsFrame are met. -/
theorem test_hyps_RegisterFormsFrame :
    (let p := (Instr.add, Alu.add)
    let a : At := at0
    let z : Sz := .d
    let d : Opd := x0
    let o : Opd := x1
    let s : State := stFrame
    let len := instrLen a 1 [d, o] 0
    let e := envOf s a.core.val len
    let n := szBytes z
    startsAnd a len (a.pfx.isEmpty && opdDst d && opdSrc o) 2 s (fun s0 =>
    decide (Opd.isReg d = true) && decide (Opd.isRegImm o = true) &&
    okAnd (bothRead e n { write := true } {} false d o) s0 (fun v1 t1 =>
    let x := v1.2.1
    let y := v1.2.2
    decide (t1 = s0) && decide (x.passes (accepts0 p.2 n) = true) && decide (y.passes (accepts1 p.2 n x.tag) = true) && decide
      (dividesByZero p.2 (8 * n) y.val.toNat = false) && decide (swSs (s.core a.core.val).arch.sw = false)))) = true ∧
    (let a : At := at0
    let z : Sz := .d
    let d : Opd := x0
    let o : Opd := .imm4 1
    let s : State := stFrame
    let len := instrLen a 1 [d, o] 0
    startsAnd a len (a.pfx.isEmpty && opdSrc d && opdSrc o) 2 s (fun s0 =>
    decide (Opd.isRegImm d = true) && decide (Opd.isRegImm o = true) &&
    okAnd (bothRead (envOf s a.core.val len) (szBytes z) {} {} false d o) s0 (fun v1 t1 =>
    let x := v1.2.1
    let y := v1.2.2
    decide (t1 = s0) && decide (x.passes comparable = true) && decide (y.passes comparable = true) && decide (swSs (s.core
      a.core.val).arch.sw = false)))) = true ∧
    (let a : At := at0
    let z : Sz := .d
    let d : Opd := .p 3
    let o : Opd := .p 1
    let s : State := stFrame
    let len := instrLen a 1 [d, o] 0
    startsAnd a len (a.pfx.isEmpty && opdDst d && opdSrc o) 2 s (fun s0 =>
    decide (Opd.isReg d = true) && decide (Opd.isRegImm o = true) &&
    okAnd (destSource (envOf s a.core.val len) (szBytes z) (szBytes z) false d o) s0 (fun v1 t1 =>
    let pd := v1.1
    let ps := v1.2.1
    let y := v1.2.2
    decide (t1 = s0) && decide ((transparent (szBytes z) pd ps || y.passes isIntTag) = true) && decide (swSs (s.core a.core.val).arch.sw =
      false)))) = true := by
  refine ⟨?_, ?_, ?_⟩ <;> decide +kernel

/-- The hypotheses of each clause of StoresFrame are met. -/
theorem test_hyps_StoresFrame :
    (let e : Env := envOf st0 0 4
    let a : Acc := { va := 0x1038, size := 8, lo := { pa := 0x1038 }, hi := { pa := 0x1038 }, opnd := 0 }
    let v : Word := 1
    let t : Tag := .int
    let s : State := st0
    decide (a.lo.side = false) && decide (a.frame = false) && decide (crosses a.va a.size = false) && decide ((s.core e.c).walk = false) &&
      decide ((s.core e.c).storeBuf.length < 64) &&
    let en : StoreEntry :=
      { writes := a.writes ((wordBytes v).take a.size) (fun _ => t), noAlloc := a.lo.noAlloc, sealPage := a.lo.sealPage }
    decide (en.writes.any (fun w => frameWord (s.core e.c) w.w) = false) && true) = true ∧
    (let e : Env := envOf st0 0 4
    let a : Acc := { va := 0x1038, size := 8, lo := { pa := 0x1038 }, hi := { pa := 0x1038 }, opnd := 0 }
    let v : Word := 1
    let t : Tag := .int
    let s : State := st0
    let w := 512
    decide (a.lo.side = false) && decide (a.frame = false) && decide (crosses a.va a.size = false) && decide ((s.core e.c).walk = false) &&
      decide ((s.core e.c).storeBuf.length < 64) &&
    let en : StoreEntry :=
      { writes := a.writes ((wordBytes v).take a.size) (fun _ => t), noAlloc := a.lo.noAlloc, sealPage := a.lo.sealPage }
    decide (en.writes.any (fun w => frameWord (s.core e.c) w.w) = false) && decide (w ∉ en.writes.map (·.w))) = true ∧
    (let e : Env := envOf st0 0 4
    let a : Acc := { va := 0x1038, size := 8, lo := { pa := 0x1038 }, hi := { pa := 0x1038 }, opnd := 0 }
    let v : Word := 1
    let t : Tag := .int
    let s : State := st0
    let w := 519
    let c := 1
    decide (a.lo.side = false) && decide (a.frame = false) && decide (crosses a.va a.size = false) && decide ((s.core e.c).walk = false) &&
      decide ((s.core e.c).storeBuf.length < 64) &&
    let en : StoreEntry :=
      { writes := a.writes ((wordBytes v).take a.size) (fun _ => t), noAlloc := a.lo.noAlloc, sealPage := a.lo.sealPage }
    decide (en.writes.any (fun w => frameWord (s.core e.c) w.w) = false) && decide (c ≠ e.c)) = true := by
  refine ⟨?_, ?_, ?_⟩ <;> decide +kernel

/-- The hypotheses of each clause of ExceptionEntry are met. -/
theorem test_hyps_ExceptionEntry :
    (let c : Nat := 0
    let k : Nat := 1
    let s : State := st0.setArch 0 (fun b => { b with bank0 := { vbr := ⟨0x10000, .codeptr⟩ }, bank1 := { vbr := ⟨0x20000, .codeptr⟩ } })
    decide (k ≤ 1) && decide (doubleFault (s.core c).arch k = false) && true) = true ∧
    (let c : Nat := 0
    let k : Nat := 0
    let s : State := st0.setArch 0 (fun b => { b with bank0 := { vbr := ⟨0x10000, .codeptr⟩ }, bank1 := { vbr := ⟨0x20000, .codeptr⟩ } })
    let j := 7
    decide (k ≤ 1) && decide (doubleFault (s.core c).arch k = false) && decide (j ∉ [8, 9, 10, 11, 12])) = true ∧
    (let c : Nat := 0
    let k : Nat := 0
    let s : State := st0.setArch 0 (fun b => { b with bank0 := { vbr := ⟨0x10000, .codeptr⟩ }, bank1 := { vbr := ⟨0x20000, .codeptr⟩ } })
    let j := 1
    decide (k ≤ 1) && decide (doubleFault (s.core c).arch k = false) && decide (j ≠ c)) = true := by
  refine ⟨?_, ?_, ?_⟩ <;> decide +kernel

/-- The hypotheses of each clause of CauseLayout are met. -/
theorem test_hyps_CauseLayout :
    (let x : Exc := { code := 0xFF, opnd := 3, tag := .poison }
    let pl : Nat := 3
    let code : Nat := 255
    decide (code < 256) && decide (x.opnd < 4) && decide (pl < 4) && true) = true := by
  decide +kernel

/-- The hypotheses of each clause of ExceptionReturn are met. -/
theorem test_hyps_ExceptionReturn :
    (let a : At := at0
    let s : State := st0
    let len := instrLen a 1 [] 0
    let e := envOf s a.core.val len
    startsAnd a len a.pfx.isEmpty 1 s (fun s0 =>
    let b := (s0.core e.c).arch.bank e.pl
    decide (b.epc.tag = .codeptr))) = true ∧
    (let a : At := at0
    let s : State := st0.setArch 0 (fun b => { b with bank0 := {} })
    let len := instrLen a 1 [] 0
    let e := envOf s a.core.val len
    startsAnd a len a.pfx.isEmpty 1 s (fun s0 =>
    let b := (s0.core e.c).arch.bank e.pl
    decide (b.epc.tag ≠ .codeptr))) = true := by
  refine ⟨?_, ?_⟩ <;> decide +kernel

/-- The hypotheses of each clause of TagCodes are met. -/
theorem test_hyps_TagCodes :
    (let a : At := at0
    let d : Opd := x0
    let c : BitVec 8 := 6
    let s : State := st0
    decide (coreRuns s a.core.val = true) && decide (Tag.ofCode (c.truncate 4) = none) &&
    let len := instrLen a 1 [d] 1
    let e := envOf s a.core.val len
    okAnd (fetchWords e (codeWords (s.core a.core.val).arch.pc.toNat (min len 24))) s (fun _ _ => true)) = true ∧
    (let a : At := at0
    let d : Opd := x0
    let c : BitVec 8 := 8
    let s : State := st0
    decide (coreRuns s a.core.val = true) && decide (Tag.ofCode (c.truncate 4) = none) &&
    let len := instrLen a 1 [d] 1
    let e := envOf s a.core.val len
    okAnd (fetchWords e (codeWords (s.core a.core.val).arch.pc.toNat (min len 24))) s (fun _ _ => true)) = true := by
  refine ⟨?_, ?_⟩ <;> decide +kernel

/-- The hypotheses of each clause of StableBudget are met. -/
theorem test_hyps_StableBudget :
    (let s : State := odSet 0x2000 0x0A 0xF (withPwr { state := .sleep })
    decide (s.pwr.state = .sleep) && decide (220 < deepLoad s)) = true := by
  decide +kernel

/-- The hypotheses of each clause of EntriesOfAPath are met. -/
theorem test_hyps_EntriesOfAPath :
    (let i : Nat := 65535
    let j : Nat := 255
    let m : Nat := 0
    let n : Nat := 0
    decide (i < 65536) && decide (m < 65536) && decide (j < 256) && decide (n < 256)) = true ∧
    (let p : HPort := 1
    let fn : FnId := 256
    let l : Nat := 3
    let i : Nat := 0x7100
    let j : Nat := 1
    let s : State := st0.setFnAt (linkFnKey 3 256) { drain := some .flr }
    decide (l < 4) && decide (l / 2 = p.val) && decide (fn.val ≠ 0) && decide ((s.fnAt (linkFnKey l fn.val)).drain.isSome = true) && decide
      (isSelection i j = true)) = true := by
  refine ⟨?_, ?_⟩ <;> decide +kernel

/-- The hypotheses of each clause of TenantsCannotWriteOtherStalls are met. -/
theorem test_hyps_TenantsCannotWriteOtherStalls :
    (let h : HPort := 0
    let fn : FnId := 1
    let n : Nat := 1
    let m : Nat := 256
    let s : State := odSet 0x4101 0x09 1 (withStall 1 { state := .live })
    decide (vfStall s h.val fn.val = some n) && decide (m ≠ n) && decide (m ≤ 256) && decide (groomServes s = true)) = true := by
  decide +kernel

/-- The hypotheses of each clause of AccessChecksInOrder are met. -/
theorem test_hyps_AccessChecksInOrder :
    (let p : Path := .vf 0 1
    let s : State := st0
    decide (groomServes s = true) && decide (pathClass p = .t) && decide (pathStall s p = none)) = true ∧
    (let p : Path := .fw
    let idx : BitVec 16 := 0xFFFF
    let sub : BitVec 8 := 1
    let s : State := st0
    decide (groomServes s = true) && decide ((pathClass p = .t → pathStall s p ≠ none)) && decide (odLookup idx.toNat sub.toNat = none)) = true ∧
    (let p : Path := .fw
    let idx : BitVec 16 := 0x1000
    let sub : BitVec 8 := 1
    let s : State := st0
    decide (groomServes s = true) && decide ((pathClass p = .t → pathStall s p ≠ none)) &&
    someAnd (odLookup idx.toNat sub.toNat) (fun v1 =>
    let e := v1
    decide (hasRight s p true idx.toNat sub.toNat e = false))) = true ∧
    (let p : Path := .fw
    let idx : BitVec 16 := 0x1000
    let sub : BitVec 8 := 0x0B
    let data : List Byte := []
    let s : State := st0
    decide (groomServes s = true) && decide ((pathClass p = .t → pathStall s p ≠ none)) &&
    someAnd (odLookup idx.toNat sub.toNat) (fun v1 =>
    let e := v1
    decide (hasRight s p true idx.toNat sub.toNat e = true) && decide (selectionDenied s p idx.toNat sub.toNat (natOfBytes data) = false) &&
      decide (fencedPath s p = false) && decide (tapDenied s idx.toNat sub.toNat (natOfBytes data) = false) && decide (s.boot.ready = true)
      && decide (lengthOk e data.length = false))) = true ∧
    (let p : Path := .fw
    let idx : BitVec 16 := 0x1000
    let sub : BitVec 8 := 0x0B
    let data : List Byte := [3]
    let s : State := st0
    decide (groomServes s = true) && decide ((pathClass p = .t → pathStall s p ≠ none)) &&
    someAnd (odLookup idx.toNat sub.toNat) (fun v1 =>
    let e := v1
    decide (hasRight s p true idx.toNat sub.toNat e = true) && decide (selectionDenied s p idx.toNat sub.toNat (natOfBytes data) = false) &&
      decide (fencedPath s p = false) && decide (tapDenied s idx.toNat sub.toNat (natOfBytes data) = false) && decide (s.boot.ready = true)
      && decide (lengthOk e data.length = true) && decide (inRange e (natOfBytes data) = false))) = true := by
  refine ⟨?_, ?_, ?_, ?_, ?_⟩ <;> decide +kernel

/-- The hypotheses of each clause of CrcDetectsSingleBitErrors are met. -/
theorem test_hyps_CrcDetectsSingleBitErrors :
    (let k : Nat := 7
    decide (k < 8)) = true := by
  decide +kernel

/-- A fold that answers something at each element answers something on a list that is not empty. -/
theorem foldl_isSome {α : Type} (f : Option α → α → Option α) (hf : ∀ b k, (f b k).isSome = true) :
    ∀ (l : List α) (b : Option α), l ≠ [] → (l.foldl f b).isSome = true
  | [x], b, _ => hf b x
  | x :: y :: r, b, _ => foldl_isSome f hf (y :: r) (f b x) (List.cons_ne_nil y r)

/-- A rehoming finds a slice to move to (the last hypothesis of its clause in FarrierCompletes). -/
theorem test_rehome_target : ∃ j, fewestSlice (withFar { rehome := some { slice := 0, entries := [0, 136], incident := 1 } }) 0 = some j := by
  refine Option.isSome_iff_exists.mp ?_
  unfold fewestSlice
  refine foldl_isSome _ (fun b k => ?_) _ _ ?_
  · rcases b with _ | m
    · rfl
    · dsimp only
      split <;> rfl
  · decide +kernel

/-- The hypotheses of StepsKeepTheInvariant are met: the state after reset is sound and idles. -/
theorem test_hyps_StepsKeepTheInvariant : Sound State.reset ∧ step State.reset = .next State.reset :=
  ⟨⟨by decide, by decide, by decide, by decide⟩, rfl⟩

/-- A memory that lists a byte, a tag and a seal. -/
def mem0 : Memory := { bytes := [⟨0x1000, 5⟩], tags := [(512, .int)], seals := [(16, 9)] }

/-- The hypotheses of MemoryReadsWhatWasWritten are met. -/
theorem test_hyps_MemoryReadsWhatWasWritten : mem0.wf = true ∧ (∀ a, mem0.byteAt a = mem0.byteAt a) := ⟨by decide, fun _ => rfl⟩

end Sys2Proof.Tests
end

section
/-! SUPPORT. What the stripe engines do by themselves (R62-R84): for each of their rows, what it comes to under the conditions in which it
does its work, and the settling of the obligation on them. -/

namespace Sys2Proof.Proofs

open Sys2Proof Sys2Proof.Machine

/-! ## The scheduler (R62, R82) -/

/-- An engine once its queued descriptor `c`, served in class `k`, is active. -/
def engineStarted (x : Engine) (served : Tbl Nat) (k : Nat) (c : Cmd) : Engine :=
  { x with queue := x.queue.filter (fun z => decide (z.id ≠ c.id)), active := x.active ++ [{ c with started := true }],
           lastClass := k, served := served.set k (Tbl.get served k 0 + 1) }

/-- The state once an engine has become `y` by starting the descriptor `c`: its context counts it as active and is the most recently used. -/
def descriptorStarted (e : Nat) (y : Engine) (c : Cmd) (s : State) : State :=
  let n := dCtx c.desc
  let s1 := (s.setEngine e y).setCtx n { s.ctx n with queued := (s.ctx n).queued - 1, active := (s.ctx n).active + 1 }
  { s1 with eng := { s1.eng with lru := n :: s1.eng.lru.filter (fun m => decide (m ≠ n)) } }

@[simp] theorem descriptorStarted_engine (e : Nat) (y : Engine) (c : Cmd) (s : State) : (descriptorStarted e y c s).engine e = y := by
  show (s.setEngine e y).engine e = y
  simp

@[simp] theorem descriptorStarted_mem (e : Nat) (y : Engine) (c : Cmd) (s : State) : (descriptorStarted e y c s).mem = s.mem := rfl

/-- An active engine with room, under power, starts the oldest eligible descriptor of the class that its credits choose; shares count
descriptors (log entry 54). -/
theorem startDescriptor_picks {e k : Nat} {c : Cmd} {s : State} (active : (s.engine e).state = 0) (room : (s.engine e).active.length < 64)
    (powered : s.pwr.pwrfail = false) (running : s.eng.stopped = false) :
    let x := s.engine e
    let el := x.queue.filter (eligible s e)
    let classes := (el.map (cmdClass s)).eraseDups
    let served := servedNow s x classes
    pickClass (creditsNow s served) x.lastClass classes = some k → el.find? (fun y => decide (cmdClass s y = k)) = some c →
    startDescriptor e s = descriptorStarted e (engineStarted x served k c) c s := by
  intro x el classes served pick oldest
  have starts : ¬(x.state ≠ 0 ∨ 64 ≤ x.active.length ∨ s.pwr.pwrfail = true ∨ s.eng.stopped = true) := by
    simp [x, active, powered, running, room]
  simp only [startDescriptor]
  rw [if_neg starts, pick]
  dsimp only
  rw [oldest]
  rfl

/-! ## Stripes -/

/-- An active engine whose domain is up gives a stripe the slot found free once the sent ones are swept (R69, R71;
log entry 51). -/
theorem execStripeStart_free {e : EngineId} {i : Nat} {s : State} (active : (s.engine e.val).state = 0) (up : domState s (.engine e) = .up)
    (free : freeSlot (sweepSent e.val s) e.val = some i) : execStripeStart e s = .next (startStripe e.val i (sweepSent e.val s)) := by
  simp [execStripeStart, active, up, free]

section
variable {e : EngineId} {slot : Fin 4} {st : Stripe} {j : Nat} {c : Cmd} {s : State} (bad : List SpanBad)
  (held : slotStripe s e.val slot.val = some st) (cmd : cmdAt s st.cmd = some (j, c))
include held cmd

/-- The comparison that ends for an encoded stripe is its parity comparison (R69, R70). -/
theorem execStripeCheckDone_check (check : st.stage = .check) :
    execStripeCheckDone e slot bad s = .next (parityChecked e.val c st bad s) := by
  simp only [execStripeCheckDone, held, cmd, if_pos check]

/-- The comparison that ends for a stripe with rebuilt fragments is its rebuild cross-check (R21, R73). -/
theorem execStripeCheckDone_rebuilt (rebuilt : st.stage = .rebuilt) :
    execStripeCheckDone e slot bad s = .next (rebuildChecked e.val c st bad s) := by
  have unchecked : st.stage ≠ .check := by simp [rebuilt]
  simp only [execStripeCheckDone, held, cmd, if_neg unchecked, if_pos rebuilt]

/-- The comparison that ends for a stripe that awaits neither is that of a rebuilt stripe read again for it (R72). -/
theorem execStripeCheckDone_readAgain {y : Stripe} (unchecked : st.stage ≠ .check) (unrebuilt : st.stage ≠ .rebuilt)
    (read : (s.engine e.val).flying.find? (fun z => decide (z.feeds = some st.uid) && decide (z.stage = .rebuilt)) = some y) :
    execStripeCheckDone e slot bad s = .next (rebuildChecked e.val c y bad s) := by
  simp only [execStripeCheckDone, held, cmd, if_neg unchecked, if_neg unrebuilt, read]

end

/-! ## Readback from the pool (R71) -/

section
variable {e : EngineId} {slot : Fin 4} {st pooled : Stripe} {j : Nat} {c : Cmd} {s : State}
  (held : slotStripe s e.val slot.val = some st) (back : st.stage = .readback) (fed : st.feeds.bind (findStripe s) = some pooled)
  (cmd : cmdAt s pooled.cmd = some (j, c))
include held back fed cmd

/-- A readback with spans that failed their check returns the slot and fails the buffered stripe. -/
theorem execReleaseReadbackDone_failed (bad : List SpanBad) :
    let g := stGeo c pooled
    let r := readPool pooled s
    let fails := r.1.bad ++ (bad.map (fun b => (b.span / g.spans, b.span % g.spans))).filter (fun b => !r.1.bad.contains b)
    fails ≠ [] →
    execReleaseReadbackDone e slot bad s = .next (releasePart st (readbackFailed pooled fails
      (poisonPool g pooled (bad.filter (fun b => !r.1.bad.contains (b.span / g.spans, b.span % g.spans))) (takeStripe st.uid r.2)))) := by
  intro g r fails some_bad
  have failing : (!fails.isEmpty) = true := by simpa using some_bad
  simp only [execReleaseReadbackDone, held, fed, cmd]
  rw [if_neg (not_not_intro back), if_pos failing]

/-- A readback whose spans all pass sends the fragments whose shelf is awake. -/
theorem execReleaseReadbackDone_whole :
    let r := readPool pooled s
    let whole := { pooled with frags := r.1.frags, sramTries := if pooled.sramTries = 1 then 2 else pooled.sramTries }
    let s0 := settleReadback e.val pooled r.2
    let which := releaseFrags s0 st.cmd whole
    let s1 := if which.isEmpty then takeStripe st.uid s0 else setStripe { st with stage := .flying } s0
    r.1.bad = [] →
    execReleaseReadbackDone e slot [] s = .next (releasePart st
      (sendFrags (stGeo c pooled) whole which (setStripe (markSent whole which true) s1))) := by
  intro r whole s0 which s1 none_bad
  have passing : ¬(!(r.1.bad ++ []).isEmpty) = true := by simp [none_bad]
  simp only [execReleaseReadbackDone, held, fed, cmd, List.map_nil, List.filter_nil]
  rw [if_neg (not_not_intro back), if_neg passing]

end

/-! ## The interlock (R80) -/

/-- The first stripe that waits enters its key where that is free and its bank has room. -/
theorem execInterlockEntryFree_first {bank e : EngineId} {a b uid : Nat} {rest : List (Nat × Nat × Nat)} {st : Stripe} {s : State}
    (line : s.eng.lockWait = (a, b, uid) :: rest) (inBank : bankOf (a, b) = bank.val) (free : keyFree s (a, b) = true)
    (room : bankCount s bank.val < 4096) (found : findStripe s uid = some st) (mine : stripeEngine s st = e.val) :
    execInterlockEntryFree bank e s = .next (beginStripe e.val uid (enterKey (a, b) uid s)) := by
  simp [execInterlockEntryFree, line, inBank, free, room, found, mine]

/-! ## Host reads (R77) -/

/-- Payload bytes that the host answers take their place in the stripe; with the last of them its pull is done. -/
theorem hostReadAnswer_payload {e tag uid : Nat} {r : HRead} {st : Stripe} (bytes : List Byte) {s : State} :
    let x := s.engine e
    let s1 := s.setEngine e { x with reads := x.reads.filter (fun y => decide (y.1 ≠ tag)) }
    let st1 : Stripe := { st with payload := overlay st.payload r.off (takePad r.len 0 bytes), pendingReads := st.pendingReads - 1 }
    let s2 := pump e (setStripe st1 s1)
    x.reads.find? (fun y => decide (y.1 = tag)) = some (tag, uid, r) → findStripe s1 uid = some st → r.isSeal = false →
    hostReadAnswer e tag (.data bytes) s =
      if st1.pendingReads = 0 ∧ st1.todoReads = [] ∧ st1.stage = .pull then pullDone e uid s2 else s2 := by
  intro x s1 st1 s2 asked found payload
  dsimp only [x] at asked
  dsimp only [s1, x] at found
  simp only [hostReadAnswer, asked, found, payload]
  rfl

/-! ## Faults (R84) -/

/-- An engine with a stripe in hand that makes no progress is retired. -/
theorem execEngineNoProgress_busy {e : EngineId} {s : State}
    (busy : ((s.engine e.val).slots.isEmpty && (s.engine e.val).flying.isEmpty && (s.engine e.val).regen.isEmpty) = false) :
    execEngineNoProgress e s = .next (retireEngine e.val 2 0 0 s) := by
  have busy' : ¬((s.engine e.val).slots.isEmpty ∧ (s.engine e.val).flying.isEmpty ∧ (s.engine e.val).regen.isEmpty) := by
    simpa [and_assoc] using busy
  exact if_neg busy'

theorem sramAgain_first {e : Nat} {c : Cmd} {st : Stripe} (again : Stripe → State → State) {s : State} (first : st.sramTries = 0) :
    sramAgain e c st again s = again { st with sramTries := 1 } s := if_pos first

theorem sramAgain_second {e : Nat} {c : Cmd} {st : Stripe} (again : Stripe → State → State) {s : State} (second : st.sramTries ≠ 0) :
    sramAgain e c st again s =
      failStripe st 0x13 [spanIndex (stGeo c st) st 0 0] (countEngineFault e (engineRec e 5 2 (cmdStall s c) s)) := if_neg second

section
variable {e : EngineId} {slot : Fin 4} {st : Stripe} {j : Nat} {c : Cmd} {s : State} (span : Nat)
  (held : slotStripe s e.val slot.val = some st) (own : st.src ≠ .pool) (cmd : cmdAt s st.cmd = some (j, c))
include held own cmd

/-- A stripe whose pull the staging SRAM lost starts its pull again, with its open host reads forgotten, or fails. -/
theorem execStagingSramUe_pull (pull : st.stage = .pull) :
    execStagingSramUe e slot span s = .next (sramAgain e.val c st (fun y t =>
      beginStripe e.val y.uid (setStripe (restartStripe y) (t.setEngine e.val { t.engine e.val with
        reads := (t.engine e.val).reads.filter (fun r => decide (r.2.1 ≠ st.uid)) }))) s) := by
  simp [execStagingSramUe, held, own, cmd, pull]

/-- A fragment that was read and that the staging SRAM lost is missing, and the stripe reads on. -/
theorem execStagingSramUe_read (reading : st.stage = .reading)
    (good : (st.frags.getD (span / (stGeo c st).spans) noFrag).state = .good) :
    execStagingSramUe e slot span s = .next (readMore e.val st.uid 64
      (setStripe { setFrag st (span / (stGeo c st).spans) { st.frags.getD (span / (stGeo c st).spans) noFrag with
          state := .missing, bytes := [], sramUe := true } with stage := .reading, rebuilt := false } s)) := by
  simp only [execStagingSramUe, held, cmd, if_neg own, if_pos (Or.inl reading), if_pos good]

end

/-- A loss in a slot that reads back from the pool is a loss of the buffered stripe. -/
theorem execStagingSramUe_readback {e : EngineId} {slot : Fin 4} {st pooled : Stripe} {j : Nat} {c : Cmd} {s : State} (span : Nat)
    (held : slotStripe s e.val slot.val = some st) (src : st.src = .pool) (back : st.stage = .readback)
    (fed : st.feeds.bind (findStripe s) = some pooled) (cmd : cmdAt s pooled.cmd = some (j, c)) :
    execStagingSramUe e slot span s = .next
      (if pooled.sramTries = 0 then sramAgain e.val c pooled setStripe s
       else releasePart st (sramAgain e.val c pooled setStripe (takeStripe st.uid s))) := by
  simp [execStagingSramUe, held, src, fed, cmd, sramPooled, back]

/-! ## The obligation -/

/-- Settles O25: each row's meaning, by the lemma above for the conditions that its clause states. -/
theorem engineWorkCompletes : Obligations.EngineWorkCompletes := by
  refine ⟨?start, ?stripe, ?check, ?pool, ?readback, ?interlock, ?hostRead, ?noProgress, ?sramUe, ?sramUePool, ?sramCe⟩
  case start =>
    intro e c k s x el classes served up active room powered running pick oldest
    refine ⟨descriptorStarted e.val (engineStarted x served k c) c s, ?_, ?_⟩
    · exact (if_pos up).trans (congrArg _ (startDescriptor_picks active room powered running pick oldest))
    · simp [engineStarted]
  case stripe =>
    exact fun e i s active up free => execStripeStart_free active up free
  case check =>
    exact fun e slot bad st j c s held cmd =>
      ⟨execStripeCheckDone_check bad held cmd, execStripeCheckDone_rebuilt bad held cmd,
        fun y unchecked unrebuilt read => execStripeCheckDone_readAgain bad held cmd unchecked unrebuilt read⟩
  case pool =>
    exact fun e s => ⟨rfl, rfl⟩
  case readback =>
    intro e slot st pooled j c s g r held back fed cmd
    exact ⟨execReleaseReadbackDone_failed held back fed cmd, execReleaseReadbackDone_whole held back fed cmd⟩
  case interlock =>
    exact fun bank e a b uid rest st s line inBank free room found mine => execInterlockEntryFree_first line inBank free room found mine
  case hostRead =>
    intro e tag uid r st bytes s s0 x s1 st1 s2 asked found payload
    exact congrArg _ (hostReadAnswer_payload bytes asked found payload)
  case noProgress =>
    exact fun e s busy => execEngineNoProgress_busy busy
  case sramUe =>
    refine fun e slot span st j c s held own cmd => ⟨fun pull first => ?_, fun pull second => ?_, fun reading good => ?_⟩
    · exact (execStagingSramUe_pull span held own cmd pull).trans (congrArg _ (sramAgain_first _ first))
    · exact (execStagingSramUe_pull span held own cmd pull).trans (congrArg _ (sramAgain_second _ second))
    · exact execStagingSramUe_read span held own cmd reading good
  case sramUePool =>
    refine fun e slot span st pooled j c s held src back fed cmd => ⟨fun first => ?_, fun second => ?_⟩
    · refine (execStagingSramUe_readback span held src back fed cmd).trans (congrArg _ ?_)
      rw [if_pos first, sramAgain_first _ first]
    · refine (execStagingSramUe_readback span held src back fed cmd).trans (congrArg _ ?_)
      rw [if_neg second, sramAgain_second _ second]
  case sramCe =>
    exact fun e s => rfl

end Sys2Proof.Proofs
end

section
/-! SUPPORT. How descriptors and context commands act (R57-R66, R82, R85): what accepting and validating a descriptor comes to, what a write of
CTX_CONTROL does to the selected context, where a record that is loaded or moved ends, and the settling of the obligation on them. -/

namespace Sys2Proof.Proofs

open Sys2Proof Sys2Proof.Machine

/-! ## Accepting a descriptor (R65 steps 1 and 2, R82) -/

/-- The state once the descriptor of `c` has joined the queue of its context's engine, whatever engine its row names (log entry 45). -/
def descriptorQueued (c : Cmd) (s : State) : State :=
  let n := dCtx c.desc
  let x := s.ctx n
  let e := ctxEngine s n
  let y := s.engine e
  let s1 := { s with eng := { s.eng with nextCmd := s.eng.nextCmd + 1 } }
  (s1.setEngine e { y with queue := y.queue ++ [c] }).setCtx n
    { x with queued := x.queued + 1, state := if x.state = .idle then .active else x.state }

theorem descriptorQueued_engine (c : Cmd) (s : State) :
    ((descriptorQueued c s).engine (ctxEngine s (dCtx c.desc))).queue = (s.engine (ctxEngine s (dCtx c.desc))).queue ++ [c] := by
  simp [descriptorQueued]

theorem descriptorQueued_ctx (c : Cmd) (s : State) :
    ((descriptorQueued c s).ctx (dCtx c.desc)).queued = (s.ctx (dCtx c.desc)).queued + 1 := by
  simp [descriptorQueued]

/-- The engine tile `e` wakes for a descriptor (R418). -/
def wakeEngine (e : Nat) (s : State) : State := if h : e < 8 then wakeDom (.engine ⟨e, h⟩) s else s

theorem wakeEngine_others (e : Nat) (s : State) : (wakeEngine e s).eng = s.eng ∧ (wakeEngine e s).mem = s.mem := by
  unfold wakeEngine wakeDom
  split
  · split <;> exact ⟨rfl, rfl⟩
  · exact ⟨rfl, rfl⟩

/-- The load of the record of context `n` is asked for, once, where the record is spilled (R61). -/
def askRecord (n : Nat) (spilled : Bool) (s : State) : State :=
  if spilled ∧ ¬s.eng.loading.contains n then { s with eng := { s.eng with loading := s.eng.loading ++ [n] } } else s

theorem askRecord_others (n : Nat) (spilled : Bool) (s : State) :
    (askRecord n spilled s).eng.engines = s.eng.engines ∧ (askRecord n spilled s).eng.ctxs = s.eng.ctxs ∧
      (askRecord n spilled s).eng.nextCmd = s.eng.nextCmd ∧ (askRecord n spilled s).mem = s.mem := by
  unfold askRecord
  split <;> exact ⟨rfl, rfl, rfl, rfl⟩

/-- While an engine is active, a descriptor that passes the first checks joins its queue, wakes the engine and asks for its context's record. -/
theorem acceptDescriptor_queues (src : DescSrc) (issuer : Nat) (d : BitVec 512) {s : State} (passes : acceptStatus s d issuer = 0)
    (active : anyEngine s = true) :
    acceptDescriptor src issuer d s = askRecord (dCtx d) (s.ctx (dCtx d)).spilled (wakeEngine (ctxEngine s (dCtx d))
      (descriptorQueued { id := s.eng.nextCmd, desc := d, src := src, issuer := issuer } s)) := by
  have served : ¬((!anyEngine s) = true ∧ dOp d ≠ 0 ∧ dOp d ≠ 10) := by simp [active]
  have noHold : ¬(!anyEngine s) = true := by simp [active]
  simp only [acceptDescriptor]
  rw [if_neg served, if_neg (not_not_intro passes), if_neg noHold]
  rfl

/-- Firmware's accepted descriptor stands last in its engine's queue and counts for its context; memory is as it was. -/
theorem engineRow_post {e op : Nat} {d : BitVec 512} {s : State} (room : engineRoom s (dCtx d) = true) (passes : acceptStatus s d 0 = 0)
    (active : anyEngine s = true) :
    let t := engineRow e op (.post d) s
    (t.engine (ctxEngine s (dCtx d))).queue =
        (s.engine (ctxEngine s (dCtx d))).queue ++ [{ id := s.eng.nextCmd, desc := d, src := .firmware, issuer := 0 }] ∧
      (t.ctx (dCtx d)).queued = (s.ctx (dCtx d)).queued + 1 ∧ t.eng.nextCmd = s.eng.nextCmd + 1 ∧ t.mem = s.mem := by
  let c : Cmd := { id := s.eng.nextCmd, desc := d, src := .firmware, issuer := 0 }
  let awake := wakeEngine (ctxEngine s (dCtx d)) (descriptorQueued c s)
  have row : engineRow e op (.post d) s = askRecord (dCtx d) (s.ctx (dCtx d)).spilled awake :=
    (if_pos (by simp [room])).trans (acceptDescriptor_queues .firmware 0 d passes active)
  obtain ⟨eng, mem⟩ := wakeEngine_others (ctxEngine s (dCtx d)) (descriptorQueued c s)
  obtain ⟨engines, ctxs, next, mem'⟩ := askRecord_others (dCtx d) (s.ctx (dCtx d)).spilled awake
  rw [row]
  refine ⟨?queue, ?queued, ?next, mem'.trans mem⟩
  case queue =>
    rw [State.engine, engines, eng]
    exact descriptorQueued_engine c s
  case queued =>
    rw [State.ctx, ctxs, eng]
    exact descriptorQueued_ctx c s
  case next =>
    rw [next, eng]
    rfl

/-! ## Validating a descriptor (R65 steps 3 and 4, R66) -/

section
variable {e op : Nat} {c : Cmd} {s : State} (place aux : Option (List Word)) (started : nextStarted s e op = some c)
include started

/-- The oldest started descriptor that passes the validation at its start begins its work. -/
theorem runCmd_valid :
    let uses := decide (1 ≤ op ∧ op ≤ 6)
    let r1 := fetchPlace e c uses (dPlace c.desc) place s
    let r2 := fetchPlace e c (uses && namesAux c.desc) (dAux c.desc) aux r1.2
    let c1 : Cmd := { c with checked := true, place := r1.1, aux := r2.1, stripes := cmdStripes c.desc r2.1,
                             release := if op = 9 then releaseList r2.2 (natField (dAuxWord c.desc) 0 10) else [] }
    startStatus r2.2 c r1.1 r2.1 = 0 → runCmd e op place aux s = finishCmd c.id (wakeFor c1 (setCmd c1 r2.2)) := by
  intro uses r1 r2 c1 valid
  simp only [runCmd, started]
  exact if_neg (not_not_intro valid)

/-- The oldest started descriptor that fails its validation ends with the status of the check. -/
theorem runCmd_invalid :
    let uses := decide (1 ≤ op ∧ op ≤ 6)
    let r1 := fetchPlace e c uses (dPlace c.desc) place s
    let r2 := fetchPlace e c (uses && namesAux c.desc) (dAux c.desc) aux r1.2
    let st := startStatus r2.2 c r1.1 r2.1
    st ≠ 0 → runCmd e op place aux s = endCmd c st r2.2 := by
  intro uses r1 r2 st invalid
  simp only [runCmd, started]
  exact if_pos invalid

end

/-- Each engine command is the row of its opcode (R66). -/
theorem exec_engineRow :
    ∀ p ∈ [(Instr.engineNop, 0), (Instr.put, 1), (Instr.get, 2), (Instr.stage, 3), (Instr.scrub, 4), (Instr.rebuild, 5), (Instr.reencode, 6),
           (Instr.sealSpans, 7), (Instr.verify, 8), (Instr.release, 9), (Instr.engineFence, 10)],
    ∀ (e : EngineId) (st : EngStep) (s : State), exec (p.1 e st) s = .next (engineRow e.val p.2 st s) := by
  simp only [List.forall_mem_cons, List.not_mem_nil, false_imp_iff, implies_true, and_true]
  exact ⟨fun _ _ _ => rfl, fun _ _ _ => rfl, fun _ _ _ => rfl, fun _ _ _ => rfl, fun _ _ _ => rfl, fun _ _ _ => rfl, fun _ _ _ => rfl,
    fun _ _ _ => rfl, fun _ _ _ => rfl, fun _ _ _ => rfl, fun _ _ _ => rfl⟩

/-! ## Context commands (R60, R87) -/

/-- A create of a FREE context for whose record its engine has room. -/
theorem createCtx_free {p : Path} {stall : BitVec 9} {cls : BitVec 2} {sealsReq forceBuf : Bool} {s : State}
    (free : (s.ctx (selectedCtx s p)).state = .free) (room : (makeRoom (ctxEngine s (selectedCtx s p)) s).1 = true) :
    let n := selectedCtx s p
    let s1 := (makeRoom (ctxEngine s n) s).2.setCtx n
      { state := .idle, stall := stall, cls := cls, sealsReq := sealsReq, forceBuf := forceBuf, engine := (s.ctx n).engine }
    createCtx p stall cls sealsReq forceBuf s =
      ctxResult p 0 (if (s.ctx n).spilled then recordArrives (ctxEngine s n) s1 else s1) := by
  simp [createCtx, free, room]

/-- A free of an IDLE context: it is FREE, and its record stays where it was. -/
theorem freeSelected_idle {p : Path} (unfence : Bool) {s : State} (idle : (s.ctx (selectedCtx s p)).state = .idle) :
    freeSelected p unfence s = ctxResult p 0 (s.setCtx (selectedCtx s p)
      { engine := (s.ctx (selectedCtx s p)).engine, spilled := (s.ctx (selectedCtx s p)).spilled }) := by
  simp [freeSelected, freeCtx, idle]

/-- A free of an ACTIVE context: it drains. -/
theorem freeSelected_active {p : Path} (unfence : Bool) {s : State} (active : (s.ctx (selectedCtx s p)).state = .active) :
    freeSelected p unfence s =
      ctxResult p 0 (s.setCtx (selectedCtx s p) { s.ctx (selectedCtx s p) with state := .draining }) := by
  simp [freeSelected, freeCtx, active]

/-- A free of a FREE context is denied. -/
theorem freeSelected_free {p : Path} (unfence : Bool) {s : State} (free : (s.ctx (selectedCtx s p)).state = .free) :
    freeSelected p unfence s = ctxResult p 3 s := by
  simp [freeSelected, freeCtx, free]

/-- An unfencing free of a FENCED context: it drains while a descriptor of it is active, and is FREE otherwise. -/
theorem freeSelected_fenced {p : Path} {s : State} (fenced : (s.ctx (selectedCtx s p)).state = .fenced) :
    let n := selectedCtx s p
    freeSelected p true s = ctxResult p 0
      (if 0 < (s.ctx n).active then s.setCtx n { s.ctx n with state := .draining }
       else s.setCtx n { engine := (s.ctx n).engine, spilled := (s.ctx n).spilled }) := by
  intro n
  by_cases busy : 0 < (s.ctx n).active
  · simp [freeSelected, freeCtx, fenced, n, busy]
  · simp [freeSelected, freeCtx, fenced, n, busy]

/-- CTX_FREE and CTX_UNFENCE_FREE are permitted writes that free the selected context. -/
theorem exec_ctxFrees :
    ∀ q ∈ [(Instr.ctxFree, 2), (Instr.ctxUnfenceFree, 3)], ∀ (p : Path) (s : State), Permits p 0x7100 0x03 q.2 s →
      ∃ unfence, exec (q.1 p) s = .next (setAnswer p .ok (freeSelected p unfence s)) := by
  simp only [List.forall_mem_cons, List.not_mem_nil, false_imp_iff, implies_true, and_true]
  exact ⟨fun _ _ permits => ⟨false, congrArg _ (Laws.permits_write permits)⟩,
    fun _ _ permits => ⟨true, congrArg _ (Laws.permits_write permits)⟩⟩

/-! ## Records that load and move (R61, R85) -/

/-- A spilled record that is being loaded takes the room that its engine has or makes. -/
theorem execContextLoadDone_room {e : EngineId} {c : CtxId} {s : State} (asked : s.eng.loading.contains c.toNat = true)
    (spilled : (s.ctx c.toNat).spilled = true) (mine : ctxEngine s c.toNat = e.val) (room : (makeRoom e.val s).1 = true) :
    let s1 := recordArrives e.val ((makeRoom e.val s).2.setCtx c.toNat { (makeRoom e.val s).2.ctx c.toNat with spilled := false })
    execContextLoadDone e c s =
      .next { s1 with eng := { s1.eng with loading := s1.eng.loading.filter (fun m => decide (m ≠ c.toNat)) } } := by
  exact (if_pos ⟨asked, spilled, mine⟩).trans (if_pos room)

/-- A moved record without work, not freed on its way, lands IDLE on an active engine that has a slot for it. -/
theorem landRecord_idle {n t : Nat} {s : State} (moving : (s.ctx n).state = .moving) (landing : (s.ctx n).landing = some t)
    (active : (s.engine t).state = 0) (unstarted : (s.ctx n).active = 0) (unqueued : (s.ctx n).queued = 0)
    (kept : (s.ctx n).freeing = false) (room : heldRecords s t < 9472) :
    landRecord n s = finishRetire (ctxEngine s n) (recordArrives t (moveWork n (ctxEngine s n) t (s.setCtx n
      { s.ctx n with engine := engineId t, landing := none, freeing := false, spilled := false, state := .idle }))) := by
  have notFull : ¬9472 ≤ heldRecords s t := by omega
  simp [landRecord, moving, landing, active, unstarted, unqueued, kept, notFull]

/-! ## The obligation -/

/-- Settles O24: each engine command is the row of its opcode, and each context command or event is the lemma above for the state of the context
that its clause names. -/
theorem engineCommandsAndContextsComplete : Obligations.EngineCommandsAndContextsComplete := by
  intro p isRow
  refine ⟨?post, ?run, ?create, ?free, ?unfence, ?load, ?land⟩
  case post =>
    exact fun e d s room passes active => ⟨_, exec_engineRow p isRow e (.post d) s, engineRow_post room passes active⟩
  case run =>
    intro e place aux c s started uses r1 r2 st c1
    have row := exec_engineRow p isRow e (.run place aux) s
    exact ⟨fun valid => row.trans (congrArg _ (runCmd_valid place aux started valid)),
      fun invalid => row.trans (congrArg _ (runCmd_invalid place aux started invalid))⟩
  case create =>
    intro p stall cls sealsReq forceBuf s n permits free room s1
    exact congrArg _ ((Laws.permits_write permits).trans (congrArg _ (createCtx_free free room)))
  case free =>
    intro q isFree p s n permits
    obtain ⟨unfence, frees⟩ := exec_ctxFrees q isFree p s permits
    rw [frees]
    exact ⟨fun idle => congrArg _ (congrArg _ (freeSelected_idle unfence idle)),
      fun active => congrArg _ (congrArg _ (freeSelected_active unfence active)),
      fun free => congrArg _ (congrArg _ (freeSelected_free unfence free))⟩
  case unfence =>
    intro p s n permits fenced
    exact congrArg _ ((Laws.permits_write permits).trans (congrArg _ (freeSelected_fenced fenced)))
  case load =>
    exact fun e c s asked spilled mine room => execContextLoadDone_room asked spilled mine room
  case land =>
    intro c t s n x e s1 moving landing active unstarted unqueued kept room
    exact congrArg _ (landRecord_idle moving landing active unstarted unqueued kept room)

end Sys2Proof.Proofs
end

section
/-! SUPPORT. The CRC-24 of a flit (R103) as a run over the bits it covers, and the settling of the obligation on single-bit errors. -/

namespace Sys2Proof.Proofs

open Sys2Proof Sys2Proof.Machine

/-! ## One bit -/

/-- The polynomial's constant term is 1, so that the lowest bit after a step is the bit that was fed back. -/
theorem crc24Bit_low (r : BitVec 24) (b : Bool) : (crc24Bit r b).getLsbD 0 = (r.getLsbD 23 != b) := by
  unfold crc24Bit
  split
  · simp_all
  · simp_all

/-- From one register, different bits lead to different registers. -/
theorem crc24Bit_not_ne (r : BitVec 24) (b : Bool) : crc24Bit r (!b) ≠ crc24Bit r b := by
  intro same
  have low := congrArg (fun x => x.getLsbD 0) same
  simp only [crc24Bit_low] at low
  cases b <;> simp at low

/-- Two registers with the same highest bit that agree once shifted are the same. -/
theorem eq_of_shiftLeft_one {r t : BitVec 24} (top : r.getLsbD 23 = t.getLsbD 23) (shifted : r <<< 1 = t <<< 1) : r = t := by
  refine BitVec.eq_of_getLsbD_eq fun i hi => ?_
  by_cases last : i = 23
  · rw [last, top]
  · have above : i + 1 < 24 := by omega
    have moved := congrArg (fun x => x.getLsbD (i + 1)) shifted
    simpa only [BitVec.getLsbD_shiftLeft, above, Nat.add_sub_cancel, Nat.not_lt_of_le (Nat.le_add_left 1 i), decide_true, decide_false,
      Bool.not_false, Bool.true_and] using moved

/-- A step with a given bit loses nothing of the register. -/
theorem crc24Bit_injective (b : Bool) : Function.Injective (fun r => crc24Bit r b) := by
  intro r t same
  dsimp only at same
  have top : r.getLsbD 23 = t.getLsbD 23 := by
    have low := congrArg (fun x => x.getLsbD 0) same
    simp only [crc24Bit_low] at low
    exact Bool.xor_left_inj.mp low
  refine eq_of_shiftLeft_one top ?_
  unfold crc24Bit at same
  rw [top] at same
  split at same
  · exact (BitVec.xor_left_inj _).mp same
  · exact same

/-! ## A string of bits -/

/-- A run over the same bits leads from different registers to different registers. -/
theorem crc24Bits_injective (bits : List Bool) : Function.Injective (fun r => bits.foldl crc24Bit r) := by
  induction bits with
  | nil => exact Function.injective_id
  | cons b rest ih => exact ih.comp (crc24Bit_injective b)

/-- A run over a string of bits with one bit inverted ends in another register. -/
theorem crc24Bits_modify_not {bits : List Bool} {i : Nat} (inside : i < bits.length) (r : BitVec 24) :
    (bits.modify i not).foldl crc24Bit r ≠ bits.foldl crc24Bit r := by
  induction bits generalizing i r with
  | nil => exact absurd inside (Nat.not_lt_zero i)
  | cons b rest ih =>
    cases i with
    | zero => exact (crc24Bits_injective rest).ne (crc24Bit_not_ne r b)
    | succ j => exact ih (Nat.lt_of_succ_lt_succ inside) (crc24Bit r b)

/-! ## A string of bytes -/

/-- The bits of a byte in the order in which the CRC takes them, most significant first. -/
def crcBits (x : Byte) : List Bool := (List.range 8).map (fun i => x.getLsbD (7 - i))

/-- The CRC of a byte is the run over its bits. -/
theorem crc24Byte_eq_crcBits (r : BitVec 24) (x : Byte) : crc24Byte r x = (crcBits x).foldl crc24Bit r :=
  List.foldl_map.symm

/-- A byte with bit `k` inverted has the bits of the byte with that bit inverted. -/
theorem crcBits_flip (b : Byte) {k : Nat} (hk : k < 8) : crcBits (b ^^^ ((1 : BitVec 8) <<< k)) = (crcBits b).modify (7 - k) not := by
  refine List.ext_getElem (by simp [crcBits]) fun i hi _ => ?_
  have inside : i < 8 := by simpa [crcBits] using hi
  simp only [crcBits, List.getElem_modify, List.getElem_map, List.getElem_range, BitVec.getLsbD_xor]
  have place : ((1 : BitVec 8) <<< k).getLsbD (7 - i) = decide (7 - k = i) := by
    rw [BitVec.getLsbD_shiftLeft, show (1 : BitVec 8) = 1#8 from rfl, BitVec.getLsbD_one, Bool.eq_iff_iff]
    simp only [Bool.and_eq_true, Bool.not_eq_true', decide_eq_true_eq, decide_eq_false_iff_not]
    omega
  rw [place]
  by_cases at_k : 7 - k = i
  · simp [at_k]
  · simp [at_k]

/-- The CRC of a byte with one bit inverted is another one. -/
theorem crc24Byte_flip_ne (r : BitVec 24) (b : Byte) {k : Nat} (hk : k < 8) :
    crc24Byte r (b ^^^ ((1 : BitVec 8) <<< k)) ≠ crc24Byte r b := by
  rw [crc24Byte_eq_crcBits, crc24Byte_eq_crcBits, crcBits_flip b hk]
  exact crc24Bits_modify_not (by simp [crcBits]; omega) r

/-- A run over the same bytes leads from different registers to different registers. -/
theorem crc24Bytes_injective (ys : List Byte) : Function.Injective (fun r => ys.foldl crc24Byte r) := by
  induction ys with
  | nil => exact Function.injective_id
  | cons y rest ih =>
    refine ih.comp fun r t same => ?_
    rw [crc24Byte_eq_crcBits, crc24Byte_eq_crcBits] at same
    exact crc24Bits_injective (crcBits y) same

/-! ## The obligation -/

/-- Settles O60: the run over the bytes before the error ends in one register, the byte with the error leads from it to two, and the bytes
after it keep these apart. -/
theorem crcDetectsSingleBitErrors : Obligations.CrcDetectsSingleBitErrors := by
  intro xs ys b k hk
  simp only [crc24, List.foldl_append, List.foldl_cons]
  exact (crc24Bytes_injective ys).ne (crc24Byte_flip_ne _ b hk)

end Sys2Proof.Proofs
end

section
/-! SUPPORT. How Tether links train and carry flits (R93–R112): what each event of a link comes to in the state its clause names, and the
settling of the obligation on them. -/

namespace Sys2Proof.Proofs

open Sys2Proof Sys2Proof.Machine

/-! ## Training (R93–R95) -/

/-- A frame whose fields name its lane trains a link in CDR: the lane's coefficients and counts move, a frame on lane 1 is answered on both
lanes (log entry 61), and with 8 good frames on both lanes equalization begins. -/
theorem trainingFrame_cdr {l lane : Nat} {ctl sts : BitVec 16} {s : State} (cdr : (s.link l).state = .cdr)
    (marked : natField sts.toNat 13 1 = 1) (phys : natField sts.toNat 9 3 = physLane s l lane) (logical : natField sts.toNat 12 1 = lane) :
    let x := Tbl.get (s.link l).lanes lane {}
    let y := coefficients ctl { x with good := min 8 (x.good + 1), ready := if sts.getLsbD 4 then min 8 (x.ready + 1) else 0 }
    let lanes := (s.link l).lanes.set lane y
    let s0 := s.setLink l { s.link l with lanes := lanes }
    let s1 := if lane = 1 then sendFrames l 15 s0 else s0
    trainingFrame l lane ctl sts s =
      if 8 ≤ (Tbl.get lanes 0 {}).good ∧ 8 ≤ (Tbl.get lanes 1 {}).good then setLinkState l .equalize s1 else s1 := by
  intro x y lanes s0 s1
  simp [trainingFrame, cdr, marked, phys, logical, x, y, lanes, s0, s1]

/-- A link that trains has a training failure when its state's time is over. -/
theorem execTrainingTimeout_training {l : LinkId} (c : Option (Fin 2)) {s : State}
    (trains : (s.link l.val).state ∈ [LinkState.cdr, .equalize, .align, .param, .retrain]) :
    execTrainingTimeout l c s = .next (trainingFailure l.val (c.map (·.val)) s) := by
  simp only [List.mem_cons, List.not_mem_nil, or_false] at trains
  rcases trains with state | state | state | state | state <;> simp only [execTrainingTimeout, state]

/-! ## Markers (R99, R100) -/

/-- A good MARKER with the next SF_COUNT is taken by an ACTIVE end. -/
theorem markerFlit_active {l : Nat} {f : Flit} {s : State} (active : (s.link l).state = .active) (good : flitGood f = true)
    (inOrder : seqAhead (hdrSeq f.hdr) (s.link l).expSeq = false) (fits : markerFits s l f = true) :
    let sf := BitVec.ofNat 32 (natOfBytes (f.payload.take 4))
    (∀ x, (s.link l).farSf = some x → sf = x + 1) →
      markerFlit l f s = s.setLink l { takeHeader f.hdr (s.link l) with farSf := some sf, badSf := 0 } := by
  intro sf next
  cases far : (s.link l).farSf with
  | none => simp [markerFlit, active, good, inOrder, fits, far, sf]
  | some x => simp [markerFlit, active, good, inOrder, fits, far, next x far, sf]

/-! ## What sending leaves of a link end (R104, R105, R112) -/

/-- Advancing to the next slot leaves what a link sends and holds. -/
@[simp] theorem nextSlot_holds (k : Link) :
    (nextSlot k).credits = k.credits ∧ (nextSlot k).nextSeq = k.nextSeq ∧ (nextSlot k).replay = k.replay := ⟨rfl, rfl, rfl⟩

/-- Taking units of a channel's stream leaves the sequence number and the replay buffer. -/
theorem takeUnits_holds (vc fuel : Nat) : ∀ (n : Nat) (a : Taken) (k : Link),
    (takeUnits vc n a fuel k).2.nextSeq = k.nextSeq ∧ (takeUnits vc n a fuel k).2.replay = k.replay := by
  induction fuel with
  | zero => exact fun n a k => ⟨rfl, rfl⟩
  | succ fuel ih =>
    intro n a k
    unfold takeUnits
    split
    · exact ⟨rfl, rfl⟩
    · split
      · exact ⟨rfl, rfl⟩
      · exact ih _ _ _

/-- Counting a flit changes no link end. -/
@[simp] theorem countTether_link (l event : Nat) (s : State) (j : Nat) : (countTether l event s).link j = s.link j := by
  have counted : OnlyCounted s (countTether l event s) := onlyCounted_countUncore _ _ _ s
  rw [counted]
  rfl

/-- A sequenced flit takes the next number and a place in the replay buffer, and the credits stay. -/
theorem sendSequenced_link (l ty vc boundary : Nat) (payload : List Byte) (links : List Nat) (k : Link) (s : State) :
    let t := sendSequenced l ty vc boundary payload links k s
    (t.link l).credits = k.credits ∧ (t.link l).nextSeq = k.nextSeq + 1 ∧ (t.link l).replay.length = k.replay.length + 1 := by
  simp [sendSequenced]

/-! ## The flit of a slot (R112, R114) -/

section
variable {l : LinkId} {s : State}

/-- At the boundary after QUIET_ACK the link goes to electrical idle. -/
theorem execFlitSlot_quiet (active : (s.link l.val).state = .active) (boundary : (s.link l.val).slot = 0)
    (quiet : (s.link l.val).quietNext = true) :
    execFlitSlot l s = .next (linkQuiet l.val (setLinkState l.val .quiet (s.setLink l.val { s.link l.val with quietNext := false }))) :=
  if_pos ⟨quiet, boundary, active⟩

/-- Every other slot is that of the Tether link itself. -/
theorem execFlitSlot_sends (stays : ¬((s.link l.val).quietNext = true ∧ (s.link l.val).slot = 0)) :
    execFlitSlot l s = .next (flitSlot l.val s) :=
  if_neg fun h => stays ⟨h.1, h.2.1⟩

end

section
variable {l : Nat} {s : State} (active : (s.link l).state = .active)
include active

/-- A superframe begins with its MARKER. -/
theorem flitSlot_marker (boundary : (s.link l).slot = 0) :
    let k := s.link l
    flitSlot l s = sendPlain l (mkFlit (slotHdr k 2 0 0xF k.nextSeq) (markerPayload s l k)) k s := by
  simp [flitSlot, active, boundary]

variable (inside : (s.link l).slot ≠ 0)
include inside

/-- A NAK that is due comes before everything else. -/
theorem flitSlot_nak (due : (s.link l).nakPending = true) :
    let k1 := { s.link l with nakPending := false }
    flitSlot l s = odBump (0x6010 + l) 0x0A (sendPlain l (mkFlit (slotHdr k1 3 0 0xF k1.nextSeq) []) k1 s) := by
  simp [flitSlot, active, inside, due]

variable (noNak : (s.link l).nakPending = false)
include noNak

/-- A replay goes on with its next flit. -/
theorem flitSlot_replay {i : Nat} {f : Sent} (replays : (s.link l).replayAt = some i) (held : (s.link l).replay[i]? = some f) :
    let k := s.link l
    flitSlot l s = sendPlain l (resend k f.flit)
      { k with replayAt := if i + 1 < k.replay.length then some (i + 1) else none } (countTether l 3 s) := by
  simp [flitSlot, active, inside, noNak, replays, held]

/-- A channel that may send takes units of its stream into a sequenced flit, for one credit. -/
theorem flitSlot_payload {vc : Nat} (noReplay : (s.link l).replayAt = none) (room : (s.link l).replay.length < outstandingLimit)
    (noCtl : (s.link l).ctlOut = []) (sends : payloadVc (s.link l) = some vc) :
    let k := s.link l
    let r := takeUnits vc 15 {} 16 k
    let k1 := { r.2 with credits := k.credits.set vc (Tbl.get k.credits vc 0 - 1), lastVc := if vc = 0 then k.lastVc else vc }
    flitSlot l s = sendSequenced l 1 vc (r.1.start.getD 0xF) (r.1.units.flatMap wordBytes) r.1.links k1 (countTether l 1 s) := by
  simp [flitSlot, active, inside, noNak, noReplay, room, noCtl, sends]

end

/-! ## Receiving (R106–R111) -/

section
variable {l : Nat} {f : Flit} {s : State} (good : flitGood f = true)
include good

/-- A good flit that takes no number and shows no lost one is not bad. -/
theorem plainBad_inOrder (inOrder : seqAhead (hdrSeq f.hdr) (s.link l).expSeq = false) : plainBad (s.link l) f = false := by
  simp [plainBad, good, inOrder]

variable (active : (s.link l).state = .active)
include active

/-- A good PAYLOAD flit in sequence is accepted: its units join its channel's stream and its buffer is freed. -/
theorem payloadFlit_inSequence :
    let k := takeHeader f.hdr (s.link l)
    let vc := hdrVc f.hdr
    hdrSeq f.hdr = k.expSeq → payloadFlit l f s = (countTether l 2 s).setLink l (freeBuffer vc
      { k with expSeq := k.expSeq + 1, accepted := true, nakOut := false,
               rx := k.rx.set vc (dropMessages_ (Tbl.get k.rx vc [] ++ wordsOf 15 (takePad 120 0 f.payload)) 16) }) := by
  intro k vc inSequence
  simp [payloadFlit, active, good, inSequence, k, vc]

variable (inOrder : seqAhead (hdrSeq f.hdr) (s.link l).expSeq = false)
include inOrder

/-- Of a NULL flit the ACK and credit fields are taken. -/
theorem nullFlit_active : nullFlit l f s = s.setLink l (takeHeader f.hdr (s.link l)) := by
  simp [nullFlit, receives, active, plainBad_inOrder good inOrder]

/-- A NAK starts a replay of what it does not release, unless it names the point already being replayed. -/
theorem nakFlit_active :
    let k := takeHeader f.hdr (s.link l)
    nakFlit l f s = if k.replayAt.isSome ∧ hdrAck f.hdr + 1 = k.replayFrom then s.setLink l k else startReplay l (s.setLink l k) := by
  simp [nakFlit, active, plainBad_inOrder good inOrder]

end

/-! ## Timeouts (R96, R107, R108) -/

/-- A NAK without an answer is sent again. -/
theorem execNakRepeatTimeout_out {l : LinkId} {s : State} (active : (s.link l.val).state = .active) (out : (s.link l.val).nakOut = true) :
    execNakRepeatTimeout l s = .next (s.setLink l.val { s.link l.val with nakPending := true }) :=
  if_pos ⟨out, active⟩

/-- Flits that stay unacknowledged are replayed. -/
theorem execReplayTimeout_held {l : LinkId} {s : State} (active : (s.link l.val).state = .active) (held : (s.link l.val).replay ≠ []) :
    execReplayTimeout l s = .next (startReplay l.val (odBump (0x6010 + l.val) 0x0C s)) :=
  if_neg (by simp [active, held])

/-- The buffers of a link that did not come back in LINK_HOLD are emptied, and its messages go back to the port layer. -/
theorem holdExpiry_holding {l : Nat} {s : State} (holding : (s.link l).holding = true) (left : (s.link l).state ≠ .active) :
    let s1 := s.setLink l { s.link l with
      holding := false, fresh := true, replay := [], replayAt := none, replayCount := 0, txq := [], rx := [] }
    holdExpiry l s = (carriedLinks s1 l).foldl (fun t j => resendPower j (handBack j t)) s1 :=
  if_neg (by simp [holding, left])

/-! ## The obligation -/

/-- Settles O30: each event of a link, by the lemma above for the state that its clause names. -/
theorem linkTrainingAndFlitsComplete : Obligations.LinkTrainingAndFlitsComplete := by
  refine ⟨?detect, ?frame, ?disagrees, ?timeout, ?marker, ?lockLoss, ?slot, ?received, ?timeouts, ?hold⟩
  case detect =>
    intro l s detect
    show execSignalDetect l s = _
    simp only [execSignalDetect, detect]
  case frame =>
    intro l lane ctl sts s cdr marked phys logical
    exact (congrArg _ (if_pos ⟨rfl, rfl⟩)).trans (congrArg _ (trainingFrame_cdr cdr marked phys logical))
  case disagrees =>
    intro l lane ctl ctlInv sts stsInv s differs
    exact congrArg _ (if_neg fun agree => differs.elim (fun ctlDiffers => ctlDiffers agree.1) (fun stsDiffers => stsDiffers agree.2))
  case timeout =>
    exact fun l c s trains => execTrainingTimeout_training c trains
  case marker =>
    intro l f s active good inOrder fits sf next
    exact congrArg _ (markerFlit_active active good inOrder fits next)
  case lockLoss =>
    exact fun l s active => congrArg _ (if_pos active)
  case slot =>
    intro l s k active
    refine ⟨fun boundary quiet => execFlitSlot_quiet active boundary quiet, fun boundary stays => ?_, fun inside due => ?_,
      fun inside noNak i f replays held => ?_, fun inside noNak noReplay room noCtl vc sends => ?_⟩
    · exact (execFlitSlot_sends fun h => Bool.false_ne_true (stays.symm.trans h.1)).trans (congrArg _ (flitSlot_marker active boundary))
    · exact (execFlitSlot_sends fun h => inside h.2).trans (congrArg _ (flitSlot_nak active inside due))
    · exact (execFlitSlot_sends fun h => inside h.2).trans (congrArg _ (flitSlot_replay active inside noNak replays held))
    · refine ⟨_, (execFlitSlot_sends fun h => inside h.2).trans
        (congrArg _ (flitSlot_payload active inside noNak noReplay room noCtl sends)), ?_⟩
      obtain ⟨seq, replay⟩ := takeUnits_holds vc 16 15 {} k
      obtain ⟨credits, nextSeq, length⟩ := sendSequenced_link l.val 1 vc _ _ _ _ (countTether l.val 1 s)
      rw [credits, nextSeq, length]
      exact ⟨by simp [Tbl.get_set, k], congrArg (· + 1) seq, congrArg (·.length + 1) replay⟩
  case received =>
    intro l f s active good k vc
    exact ⟨fun inSequence => congrArg _ (payloadFlit_inSequence good active inSequence),
      fun inOrder => congrArg _ (nullFlit_active good active inOrder),
      fun inOrder => congrArg _ (nakFlit_active good active inOrder)⟩
  case timeouts =>
    exact fun l s active => ⟨execNakRepeatTimeout_out active, execReplayTimeout_held active⟩
  case hold =>
    exact fun l s holding left => congrArg _ (holdExpiry_holding holding left)

end Sys2Proof.Proofs
end

section
/-! SUPPORT. Link control, lane sparing, failover and the requests of a path (R113–R121): what each event of a link comes to in the state its
clause names, and the settling of the obligation on them. -/

namespace Sys2Proof.Proofs

open Sys2Proof Sys2Proof.Machine

/-! ## What accepting a LINK_CTL flit leaves (R106, R113) -/

/-- What a LINK_CTL flit does to the end of its link alone. -/
theorem acceptCtl_setLink (l : Nat) (h : BitVec 40) (s : State) :
    ∃ k, (acceptCtl l h s).2 = s.setLink l k ∧ k.state = (s.link l).state := by
  unfold acceptCtl
  dsimp only
  split
  · exact ⟨_, rfl, rfl⟩
  · split
    · exact ⟨_, rfl, rfl⟩
    · refine ⟨_, rfl, ?_⟩
      unfold nakOnce
      split <;> rfl

@[simp] theorem acceptCtl_state (l : Nat) (h : BitVec 40) (s : State) : ((acceptCtl l h s).2.link l).state = (s.link l).state := by
  obtain ⟨k, accepted, state⟩ := acceptCtl_setLink l h s
  simp [accepted, state]

@[simp] theorem acceptCtl_odGet (l : Nat) (h : BitVec 40) (s : State) (i sub : Nat) : odGet (acceptCtl l h s).2 i sub = odGet s i sub := by
  obtain ⟨k, accepted, state⟩ := acceptCtl_setLink l h s
  rw [accepted]
  rfl

/-! ## Link control and sparing (R96, R113, R115) -/

section
variable {l : LinkId} {h : BitVec 40} {s : State} (receiving : receives (s.link l.val) = true) (taken : (acceptCtl l.val h s).1 = true)
include receiving taken

/-- A PARAM that meets R109, with the identity recorded for the link, is acknowledged and taken. -/
theorem execParam_known {b : ParamBody} (inactive : (s.link l.val).state ≠ .active) (version : b.version = 1) (role : b.role = 1)
    (credits : creditsOk b.credits = true) (named : b.identity.toNat ≠ 0) (known : odGet s (0x6010 + l.val) 0x05 = b.identity.toNat) :
    let s1 := (acceptCtl l.val h s).2
    execParam l h b s = .next (tryActive l.val (sendCtl l.val 0x02 0 false (s1.setLink l.val (takeParam b (s1.link l.val))))) := by
  simp [execParam, paramReceived, receiving, taken, inactive, version, role, credits, known, named]

/-- The answer to this end's PARAM settles it. -/
theorem execParamAck_asked :
    let s1 := (acceptCtl l.val h s).2
    (s1.link l.val).ctl.any (fun c => decide (c.op = 1)) = true →
      execParamAck l h s = .next (tryActive l.val (s1.setLink l.val (answered 1 { s1.link l.val with paramAcked := true }))) := by
  intro s1 asked
  have fits : (acceptCtl l.val h s).1 = true ∧ (s1.link l.val).ctl.any (fun c => decide (c.op = 1)) = true := ⟨taken, asked⟩
  simp only [execParamAck, receiving, Bool.not_true, Bool.false_eq_true, if_false]
  exact if_pos fits

/-- The bridge is ready on the spare: SPARE_SWITCH names the superframe 16 after this one. -/
theorem execSpareReady_sparing {lane : BitVec 8} :
    let s1 := (acceptCtl l.val h s).2
    (s1.link l.val).spareLane = some lane.toNat → (s1.link l.val).switchAt = none →
      let n := (s1.link l.val).sfCount + 16
      execSpareReady l h lane (BitVec.ofNat 8 l.val) 4 s = .next (sendCtl l.val 0x05 (lane.toNat % 2 + 2 * n.toNat) false
        (s1.setLink l.val (answered 3 { s1.link l.val with switchAt := some n }))) := by
  intro s1 sparing unswitched n
  have link : (BitVec.ofNat 8 l.val).toNat = l.val := by
    have := l.isLt
    simp
    omega
  simp only [execSpareReady, receiving, Bool.not_true, Bool.false_eq_true, if_false]
  exact if_pos ⟨taken, sparing, link, trivial, unswitched⟩

/-- FAILOVER_ACK and FAILBACK_ACK end the exchange that they answer. -/
theorem execExchangeAcks (j : BitVec 8) :
    let s1 := (acceptCtl l.val h s).2
    execFailoverAck l h j s = .next (failoverDone l.val j.toNat s1) ∧ execFailbackAck l h j s = .next (failbackDone l.val j.toNat s1) := by
  simp [execFailoverAck, execFailbackAck, receiving, taken]

end

/-- An ACTIVE end that is asked to retrain does so. -/
theorem execRetrainReq_active {l : LinkId} {h : BitVec 40} {s : State} (active : (s.link l.val).state = .active)
    (taken : (acceptCtl l.val h s).1 = true) : execRetrainReq l h s = .next (enterRetrain l.val true (acceptCtl l.val h s).2) := by
  simp [execRetrainReq, active, taken]

section
variable {l : LinkId} {lane : Nat} {s : State} (sparing : (s.link l.val).spareLane = some lane)
include sparing

/-- At the superframe of the switch the lane is on the spare, and its repair ends. -/
theorem execSpareSwitchSuperframe_set {n : BitVec 32} (set : (s.link l.val).switchAt = some n) :
    execSpareSwitchSuperframe l s =
      .next (endRepair 0x06 0x09 (resource 4 (l.val / 2 * 5 + physLane s l.val lane)) {} (mapSpare l.val lane (s.setLink l.val
        { s.link l.val with spareLane := none, switchAt := none, spareBoth := false,
                            lanes := (s.link l.val).lanes.set lane (s.link l.val).spareTrain }))) := by
  simp only [execSpareSwitchSuperframe, sparing, set]

/-- A spare that is not ready in time has failed, and so has the repair. -/
theorem execSpareReadyTimeout_unset (unset : (s.link l.val).switchAt = none) :
    execSpareReadyTimeout l s =
      .next (endRepair 0x06 0x09 (resource 4 (l.val / 2 * 5 + physLane s l.val lane)) { outcome := 3 } (failQuadSpare (l.val / 2)
        (s.setLink l.val (answered 3 { s.link l.val with spareLane := none })))) := by
  simp only [execSpareReadyTimeout, sparing, unset]

end

/-- A request is sent again while it has been repeated fewer than nine times. -/
theorem ctlRepeat_again {l : Nat} {c : CtlPending} {r : List CtlPending} {s : State} (oldest : (s.link l).ctl = c :: r)
    (few : c.repeats < 9) :
    ctlRepeat l s = s.setLink l { s.link l with
      ctl := r ++ [{ c with repeats := c.repeats + 1 }], ctlOut := (s.link l).ctlOut ++ [(c.op, c.arg)] } := by
  simp only [ctlRepeat, oldest]
  exact if_pos few

/-! ## Windows (R119) -/

/-- Adding to a counter leaves every entry of a lower index. -/
theorem odGet_odAdd_above {i sub m n : Nat} (v : Nat) (s : State) (above : m < i) (byte : n < 256) :
    odGet (odAdd i sub v s) m n = odGet s m n := by
  have apart : odKey m n ≠ odKey i sub := by
    unfold odKey
    omega
  rw [odAdd, odGet_odSet, if_neg apart]

/-- The settings of all links (0x6000) are as they were. -/
def LinkSettingsKept (s t : State) : Prop := ∀ sub < 256, odGet t 0x6000 sub = odGet s 0x6000 sub

theorem linkSettingsKept_trans {s t u : State} (first : LinkSettingsKept s t) (second : LinkSettingsKept t u) : LinkSettingsKept s u :=
  fun sub byte => (second sub byte).trans (first sub byte)

/-- SER_EXP alone decides which number of corrected symbols is high. -/
theorem serHigh_of_kept {s t : State} (kept : LinkSettingsKept s t) (n : Nat) : serHigh t n = serHigh s n := by
  unfold serHigh
  rw [kept 3 (by decide)]

/-- A lane's window at or under the limit ends the lane's run of high ones. -/
theorem laneWindow_low {l lane n : Nat} {s : State} (low : serHigh s n = false) :
    (laneWindow l lane n s).link l = { s.link l with serRuns := (s.link l).serRuns.set lane 0 } ∧
      LinkSettingsKept s (laneWindow l lane n s) := by
  have window : laneWindow l lane n s = (odAdd (0x6040 + l / 2) (0x02 + physLane s l lane) n s).setLink l
      { s.link l with serRuns := (s.link l).serRuns.set lane 0 } := if_pos (by rw [low]; rfl)
  rw [window]
  exact ⟨by simp, fun sub byte => odGet_odAdd_above n s (by omega) byte⟩

/-- A link at the end of a window, before its lanes are judged: what the window measured is kept, and its uncorrectable codewords counted. -/
def windowNoted (l : Nat) (corrected : List Nat) (ucw : Nat) (s : State) : State :=
  let k := s.link l
  odAdd (0x6010 + l) 0x09 ucw (s.setLink l
    { k with serLast := corrected, serNoted := k.serNoted.map (fun x => (x.1, x.2 - 1)),
             retrains := (k.retrains.map (· + 1)).filter (fun a => decide (a < 10)), ucwAgo := min 10 (k.ucwAgo + 1) })

theorem windowNoted_link (l : Nat) (corrected : List Nat) (ucw : Nat) (s : State) :
    ((windowNoted l corrected ucw s).link l).state = (s.link l).state ∧ ((windowNoted l corrected ucw s).link l).serLast = corrected := by
  simp [windowNoted, odAdd]

theorem windowNoted_settings (l : Nat) (corrected : List Nat) (ucw : Nat) (s : State) :
    LinkSettingsKept s (windowNoted l corrected ucw s) :=
  fun _ byte => (odGet_odAdd_above ucw _ (by omega) byte).trans rfl

/-- A window with both lanes and the uncorrectable codewords under their limits: no lane has a run of high windows. -/
theorem serWindow_low {l a b ucw : Nat} {s : State} (lowA : serHigh s a = false) (lowB : serHigh s b = false)
    (few : ucw ≤ odGet s 0x6000 0x04) :
    let t := serWindow l [a, b] ucw s
    (t.link l).state = (s.link l).state ∧ (t.link l).serLast = [a, b] ∧
      Tbl.get (t.link l).serRuns 0 0 = 0 ∧ Tbl.get (t.link l).serRuns 1 0 = 0 := by
  let s0 := windowNoted l [a, b] ucw s
  let sA := laneWindow l 0 a s0
  let sB := laneWindow l 1 b sA
  obtain ⟨state, last⟩ := windowNoted_link l [a, b] ucw s
  have kept0 : LinkSettingsKept s s0 := windowNoted_settings l [a, b] ucw s
  obtain ⟨linkA, keptByA⟩ := laneWindow_low (l := l) (lane := 0) ((serHigh_of_kept kept0 a).trans lowA)
  have keptA : LinkSettingsKept s sA := linkSettingsKept_trans kept0 keptByA
  obtain ⟨linkB, keptByB⟩ := laneWindow_low (l := l) (lane := 1) ((serHigh_of_kept keptA b).trans lowB)
  have keptB : LinkSettingsKept s sB := linkSettingsKept_trans keptA keptByB
  have fewB : ucw ≤ odGet sB 0x6000 0x04 := by
    rw [keptB 4 (by decide)]
    exact few
  have window : serWindow l [a, b] ucw s = sB := if_pos (Or.inl fewB)
  have linkEnd : sB.link l = { s0.link l with serRuns := ((s0.link l).serRuns.set 0 0).set 1 0 } := by
    rw [linkB, linkA]
  simp only [window, linkEnd]
  exact ⟨state, last, by simp [Tbl.get_set], by simp [Tbl.get_set]⟩

/-! ## Requests of a path (R118, R121) -/

section
variable {path : Path} {l : LinkId} {s : State} (idle : (s.link l.val).failbackPath = none)
include idle

/-- A request that fits the state of a link on which none is in progress has its effect, and its result is 0. -/
theorem linkRequest_fits (f : State → State) : linkRequest path l.val true f s = linkResult path l.val 0 (f s) := by
  simp [linkRequest, idle]

/-- Request 1 in MISMATCH accepts the new identity. -/
theorem execAcceptIdentity_mismatch (permits : Permits path (0x6010 + l.val) 0x06 1 s) (mismatch : (s.link l.val).state = .mismatch) :
    execAcceptIdentity path l s = .next (setAnswer path .ok (linkResult path l.val 0 (acceptIdentity l.val s))) := by
  rw [execAcceptIdentity, Laws.permits_write permits, decide_eq_true mismatch, linkRequest_fits idle]

/-- Request 2 of an ACTIVE link that another one carries begins a failback. -/
theorem execLinkFailback_carried (permits : Permits path (0x6010 + l.val) 0x06 2 s) (active : (s.link l.val).state = .active)
    (carried : carrierOf s l.val ≠ l.val) :
    execLinkFailback path l s = .next (setAnswer path .ok (linkResult path l.val 1
      (s.setLink l.val { s.link l.val with failbackPath := some path, failbackSent := false }))) := by
  rw [execLinkFailback, Laws.permits_write permits]
  simp [askFailback, idle, active, carried]

/-- Request 3 retrains an ACTIVE link. -/
theorem execForceRetrain_active (permits : Permits path (0x6010 + l.val) 0x06 3 s) (active : (s.link l.val).state = .active) :
    execForceRetrain path l s = .next (setAnswer path .ok (linkResult path l.val 0 (enterRetrain l.val false s))) := by
  rw [execForceRetrain, Laws.permits_write permits, decide_eq_true active, linkRequest_fits idle]

/-- Request 4 trains a FAILED link from DETECT. -/
theorem execLinkReenable_failed (permits : Permits path (0x6010 + l.val) 0x06 4 s) (failed : (s.link l.val).state = .failed) :
    execLinkReenable path l s = .next (setAnswer path .ok (linkResult path l.val 0
      (toDetect l.val (s.setLink l.val (restartLink (s.link l.val)))))) := by
  rw [execLinkReenable, Laws.permits_write permits, decide_eq_true failed, linkRequest_fits idle]

end

/-- FAILBACK is sent once the target holds nothing of the ports. -/
theorem execFailbackSend_drained {l : LinkId} {s : State} (asked : (s.link l.val).failbackPath.isSome = true)
    (unsent : (s.link l.val).failbackSent = false) :
    let t := carrierOf s l.val
    (s.link l.val).state = .active → t ≠ l.val → (∀ f ∈ (s.link t).replay, l.val ∉ f.links) → (∀ m ∈ (s.link t).txq, m.port / 32 ≠ l.val) →
      execFailbackSend l s = .next
        (sendCtl t 0x0B l.val true (s.setLink l.val { s.link l.val with failbackSent := true, failbackGone := false })) := by
  intro t active carried acknowledged sent
  have kept : ¬((s.link l.val).failbackPath.isSome ∧ (s.link l.val).failbackSent = false ∧ (s.link l.val).state ≠ .active) := by simp [active]
  exact (if_neg kept).trans (if_pos ⟨asked, unsent, carried, by simpa using acknowledged, by simpa using sent⟩)

/-- A link whose LINK_ENABLE bit is clear is disabled, with what it held. -/
theorem execLinkDisable_clear {l : LinkId} {s : State} (clear : natBit (odGet s 0x6000 0x07) l.val = false)
    (used : (s.link l.val).state ≠ .disabled) :
    let s1 := failoverFails l.val 2 (stopSparing l.val s)
    let k1 := { s1.link l.val with replay := [], replayAt := none, txq := [], rx := [], holding := false, fresh := true }
    let s2 := dropGuests l.val (setLinkState l.val .disabled (s1.setLink l.val { k1 with ctl := [], ctlOut := [], phase := 0 }))
    execLinkDisable l s = .next (if carrierOf s2 l.val = l.val then portsOffline l.val s2 else s2) :=
  if_neg (by simp [clear, used])

/-! ## The obligation -/

/-- Settles O31: each event and request, by the lemma above for the state of the link that its clause names. -/
theorem linkControlCompletes : Obligations.LinkControlCompletes := by
  refine ⟨?param, ?answers, ?sparing, ?again, ?window, ?requests, ?failback, ?disable⟩
  case param =>
    exact fun l h b s receiving inactive taken version role credits named known =>
      execParam_known receiving taken inactive version role credits named known
  case answers =>
    intro l h s receiving taken s1
    exact ⟨execParamAck_asked receiving taken, fun active => execRetrainReq_active active taken,
      fun lane sparing unswitched => execSpareReady_sparing receiving taken sparing unswitched,
      fun j => execExchangeAcks receiving taken j⟩
  case sparing =>
    exact fun l lane s sparing => ⟨fun n set => execSpareSwitchSuperframe_set sparing set, execSpareReadyTimeout_unset sparing⟩
  case again =>
    exact fun l c r s oldest few => congrArg _ (ctlRepeat_again oldest few)
  case window =>
    exact fun l a b ucw s lowA lowB few => ⟨_, rfl, serWindow_low lowA lowB few⟩
  case requests =>
    exact fun path l s idle => ⟨execAcceptIdentity_mismatch idle, execLinkFailback_carried idle, execForceRetrain_active idle,
      execLinkReenable_failed idle⟩
  case failback =>
    exact fun l s asked unsent => execFailbackSend_drained asked unsent
  case disable =>
    exact fun l s clear used => execLinkDisable_clear clear used

end Sys2Proof.Proofs
end

section
/-! SUPPORT. Power states, wake sources and domains (R114, R414–R421, R476): what each entry, request and wake comes to under the conditions of
its clause, and the settling of the obligation on them. -/

namespace Sys2Proof.Proofs

open Sys2Proof Sys2Proof.Machine

/-! ## QUIET (R114, R415) -/

/-- A QUIET_ACK that was asked for takes the link to electrical idle at its next superframe boundary. -/
theorem quietAck_asked {l : Nat} {h : BitVec 40} {s : State} (receiving : receives (s.link l) = true) (taken : (acceptCtl l h s).1 = true) :
    let s1 := (acceptCtl l h s).2
    (s1.link l).quietSent = true → (s1.link l).state = .active →
      quietAck l h s = s1.setLink l (answered 6 { s1.link l with quietSent := false, quietNext := true }) := by
  intro s1 asked active
  have listening : ¬(!receives (s.link l)) = true := by simp [receiving]
  exact (if_neg listening).trans (if_pos ⟨taken, asked, active⟩)

/-- Links whose QUIET_REQ is no longer to be answered. -/
def quietDropped (links : List Nat) (s : State) : State :=
  links.foldl (fun t j => t.setLink j (answered 6 { t.link j with quietSent := false })) s

theorem quietDropped_pwr (links : List Nat) (s : State) : (quietDropped links s).pwr = s.pwr := by
  induction links generalizing s with
  | nil => rfl
  | cons j rest ih => exact ih _

/-- A link that does not answer in time ends the entry into SLEEP under its own refuser code. -/
theorem execQuietAckTimeout_waiting {l : LinkId} {s : State} (entering : s.pwr.entering = some .sleep)
    (waits : s.pwr.quietWait.contains l.val = true) :
    let s1 := quietDropped s.pwr.quietWait s
    execQuietAckTimeout l s = .next (refuseEntry .sleep 10 { s1 with pwr := { s1.pwr with entering := none, quietWait := [] } }) :=
  if_pos ⟨entering, waits⟩

/-- A refused entry is counted, and the power controller is as it was. -/
@[simp] theorem refuseEntry_pwr (x : PowerState) (code : Nat) (s : State) : (refuseEntry x code s).pwr = s.pwr := rfl

/-! ## Requests and OFF (R414, R416) -/

/-- POWER_REQUEST 1 wakes the device. -/
theorem execPowerRequestWake_permitted {path : Path} {s : State} (permits : Permits path 0x2000 0x06 1 s) :
    execPowerRequestWake path s = .next (setAnswer path .ok (wakeDevice 8 (pathSet path 0x2000 0x07 0 s))) :=
  congrArg _ ((Laws.permits_write permits).trans rfl)

/-- What OFF leaves: memory, the cores' registers and the writes that flash does not hold are gone. -/
@[simp] theorem finishOff_lost (s : State) :
    (finishOff s).pwr.state = .off ∧ (finishOff s).mem = {} ∧ (finishOff s).cores = [] ∧ (finishOff s).bagPending = [] :=
  ⟨rfl, rfl, rfl, rfl⟩

/-- POWER_REQUEST 2 turns the device off where nothing refuses it. -/
theorem execPowerRequestOff_free {path : Path} {s : State} (permits : Permits path 0x2000 0x06 2 s) (idle : s.pwr.entering = none)
    (ready : s.boot.ready = true) (free : refuser (odBump 0x2014 0x01 s) .off = none) :
    execPowerRequestOff path s = .next (setAnswer path .ok (finishOff (pathSet path 0x2000 0x07 resOk (odBump 0x2014 0x01 s)))) := by
  rw [execPowerRequestOff, Laws.permits_write permits]
  simp [writePowerRequest, idle, ready, free]

/-! ## Wake sources (R420, R421, R476) -/

/-- WAKE_N wakes a device that has been brought up. -/
theorem execWakeNFall_on {s : State} (on : s.pwr.state ≠ .off) (ready : s.boot.ready = true) (whole : s.far.fatal = false) :
    execWakeNFall s = .next (wakeDevice 5 s) :=
  (if_neg on).trans (if_neg (by simp [ready, whole]))

/-- WAKE_AT wakes the device once, unless it is off. -/
theorem execWakeTimerExpiry_set {s : State} (set : odGet s 0x2000 0x08 ≠ 0) (on : s.pwr.state ≠ .off) :
    execWakeTimerExpiry s = .next (wakeDevice 6 (odSet 0x2000 0x08 0 s)) :=
  if_neg (not_or.mpr ⟨set, on⟩)

/-- A transaction for the halter port holds SCL and wakes the device, apart from the read that DEEP answers by itself. -/
theorem execHalterAddressMatch_own {a : BitVec 7} {cmd : BitVec 8} {s : State} (own : a.toNat = halterAddr s) :
    let s1 := { s with side := { s.side with sclHeld := true, halterNack := false, halterAddr := a.toNat } }
    execHalterAddressMatch a cmd s =
      .next (if s.pwr.state = .deep ∧ natBit (odGet s 0x2000 0x0A) 2 = true ∧ cmd = 3 then s1 else wakeDevice 4 s1) :=
  (if_neg (not_not_intro own)).trans (apply_ite Host.Outcome.next _ _ _).symm

/-! ## Domains (R418, R419) -/

/-- A unit's first failed wake is counted and starts again. -/
theorem execDlWakeExpiry_first {d : Domain} {s : State} (waking : domState s d = .waking) (unit : ∀ q, d ≠ .quad q)
    (first : ∀ x ∈ s.pwr.wakeTries, x.1 ≠ d) :
    let s1 := odBump 0x2000 0x17 s
    execDlWakeExpiry d s = .next { s1 with pwr := { s1.pwr with wakeTries := (d, 1) :: s1.pwr.wakeTries } } := by
  intro s1
  have untried : s.pwr.wakeTries.any (fun x => decide (x.1 = d)) = false := by simpa using first
  cases d with
  | quad q => exact absurd rfl (unit q)
  | _ => simp [execDlWakeExpiry, waking, untried, s1]

/-- The wake event that ends DEEP is handled as in SLEEP. -/
theorem execDeepExitDone_caused {cause : Nat} {s : State} (deep : s.pwr.state = .deep) (caused : s.pwr.deepExit = some cause) :
    let s1 := setPower .sleep (odSet 0x2000 0x09 cause { s with pwr := { s.pwr with deepExit := none } })
    execDeepExitDone s = .next (pumpCan (powerFailsNow (wakeDevice cause (restartWdog s1)))) := by
  simp only [execDeepExitDone, deep, caused]

/-! ## The obligation -/

/-- Settles O34: each entry, request and wake, by the lemma above for the conditions that its clause states. -/
theorem powerTransitionsComplete : Obligations.PowerTransitionsComplete := by
  refine ⟨?quietAck, ?quietTimeout, ?entries, ?requests, ?wakes, ?halter, ?hold, ?domainUp, ?deepExit, ?wakeExpiry⟩
  case quietAck =>
    intro l h s receiving taken s1 asked active
    exact congrArg _ (quietAck_asked receiving taken asked active)
  case quietTimeout =>
    refine fun l s entering waits => ⟨_, execQuietAckTimeout_waiting entering waits, ?_⟩
    simp [quietDropped_pwr]
  case entries =>
    refine fun s => ⟨fun run permitted idle => if_pos ⟨run, permitted, ?_⟩, fun idle permitted => if_pos ⟨idle, permitted⟩,
      fun sleep permitted => if_pos ⟨sleep, permitted⟩⟩
    simpa using idle
  case requests =>
    exact fun path s => ⟨execPowerRequestWake_permitted,
      fun permits idle ready free => ⟨_, execPowerRequestOff_free permits idle ready free, by simp⟩⟩
  case wakes =>
    exact fun s => ⟨fun off => if_pos off, execWakeNFall_on, execWakeTimerExpiry_set⟩
  case halter =>
    exact fun a cmd s own => execHalterAddressMatch_own own
  case hold =>
    exact fun s held => if_pos held
  case domainUp =>
    exact fun d s waking => if_pos waking
  case deepExit =>
    exact fun cause s deep caused => execDeepExitDone_caused deep caused
  case wakeExpiry =>
    exact fun d s waking unit first => execDlWakeExpiry_first waking unit first

end Sys2Proof.Proofs
end

section
/-! SUPPORT. Drive ports (R124–R131, R138): what each answer of the bridge, expiry and request comes to in the state its clause names, and the
settling of the obligation on them. -/

namespace Sys2Proof.Proofs

open Sys2Proof Sys2Proof.Machine

/-! ## Commands and their expiries (R129) -/

/-- The oldest waiting command that may go leaves the queue and is sent. -/
theorem issueNext_waiting {p : Nat} {c : DriveCmd} {s : State} (oldest : (s.port p).waiting.find? (mayIssue s p) = some c) :
    issueNext p s = issueCmd p c (s.setPort p { s.port p with waiting := (s.port p).waiting.erase c }) := by
  simp only [issueNext, oldest]

/-- The state once ABORT has been sent for the command that holds a tag: its outcome is no longer open. -/
def commandAborted (p : Nat) (tag : BitVec 8) (s : State) : State :=
  sendAbort p tag.toNat (modTag p tag (fun y => { y with abortSent := true, outcomeGiven := true }) s)

section
variable {p : Nat} {tag : BitVec 8} {c : DriveCmd} {s : State} (held : tagCmd (s.port p) tag = some c)
include held

/-- A command whose outcome was given is aborted, and nothing else. -/
theorem driveExpiry_given (unsent : c.abortSent = false) (given : c.outcomeGiven = true) : driveExpiry p tag s = commandAborted p tag s := by
  have unaborted : ¬c.abortSent = true := by simp [unsent]
  simp only [driveExpiry, held, if_neg unaborted, if_pos given]
  rfl

/-- A command whose outcome is open is aborted and lost, which counts as a failure of its port; an IDENTIFY is sent again. -/
theorem driveExpiry_open (unsent : c.abortSent = false) (undecided : c.outcomeGiven = false) :
    let s2 := driveLost c [] (odBump (0x6400 + p) 0x0A (commandAborted p tag s))
    let s3 := if c.op = 5 then identify p s2 else s2
    driveExpiry p tag s = trySleep (portShelf s3 p) (countFail p s3) := by
  have unaborted : ¬c.abortSent = true := by simp [unsent]
  have lost : ¬c.outcomeGiven = true := by simp [undecided]
  simp only [driveExpiry, held, if_neg unaborted, if_neg lost]
  rfl

/-- A STATUS of the table of R127 frees the tag and gives the outcome of its code. -/
theorem statusMsg_open {l : Nat} {code : BitVec 8} (blk span : Nat) (carried : carrierOf s (p / 32) = l) (listed : code.toNat ≤ 9)
    (undecided : c.outcomeGiven = false) :
    let s1 := statusOutcome p c code.toNat blk span (freeTagOf p tag s)
    statusMsg l p tag code blk span s = trySleep (portShelf s1 p) s1 := by
  have known : ¬9 < code.toNat := by omega
  have counts : ¬c.outcomeGiven = true := by simp [undecided]
  simp only [statusMsg, held, if_neg (not_not_intro carried), if_neg known, if_neg counts]

end

/-- An ABORT that no answer follows fails the port. -/
theorem execAbortTimeout_sent {p : PortId} {tag : BitVec 8} {c : DriveCmd} {s : State} (held : tagCmd (s.port p.val) tag = some c)
    (sent : c.abortSent = true) : execAbortTimeout p tag s = .next (dropPort p.val .failed s) := by
  simp only [execAbortTimeout, held, if_pos sent]

/-! ## What the bridge answers (R125, R127, R130) -/

section
variable {l : LinkId} {p : PortId} {tag : BitVec 8} {c : DriveCmd} {s : State} (held : tagCmd (s.port p.val) tag = some c)
  (carried : carrierOf s (p.val / 32) = l.val) (undecided : c.outcomeGiven = false)
include held carried undecided

section
variable {blk : Fin 16} (read : c.op = 1) (asked : blk.val < c.count)
include read asked

omit held in
/-- A block of an open READ is taken: its link carries the port, and it is one of the blocks asked for. -/
theorem block_taken : ¬(carrierOf s (p.val / 32) ≠ l.val ∨ c.op ≠ 1 ∨ c.outcomeGiven = true ∨ c.count ≤ blk.val) := by
  simp [carried, undecided, read, asked]

/-- A block's seals and POISON bits are kept for its READ, and its marks counted. -/
theorem execSealMsg_asked (poison : BitVec 16) (block : BitVec 40) (seals : List Word) :
    let marks := ((List.range 16).filter (fun i => poison.getLsbD i)).length
    execSealMsg l p tag blk poison block seals s = .next (modTag p.val tag
      (fun y => { y with gotSeals := y.gotSeals.set blk.val seals, gotPoison := y.gotPoison.set blk.val poison })
      (odAdd (0x6400 + p.val) 0x0D marks s)) := by
  simp only [execSealMsg, held, if_neg (block_taken carried undecided read asked)]

/-- A block's data is kept for its READ. -/
theorem execDataMsg_asked (data : List Byte) :
    execDataMsg l p tag blk data s =
      .next (modTag p.val tag (fun y => { y with gotData := y.gotData.set blk.val data }) s) := by
  simp only [execDataMsg, held, if_neg (block_taken carried undecided read asked)]

end

/-- The answer to an open IDENTIFY frees its tag and settles what the port holds. -/
theorem execIdentData_open (identifies : c.op = 5) (present : Bool) (serial : BitVec 128) (cap : BitVec 40) :
    let s1 := identified p.val present serial cap.toNat (freeTagOf p.val tag s)
    execIdentData l p tag present serial cap s = .next (trySleep (portShelf s1 p.val) s1) := by
  have taken : ¬(carrierOf s (p.val / 32) ≠ l.val ∨ c.op ≠ 5) := by simp [carried, identifies]
  have counts : ¬c.outcomeGiven = true := by simp [undecided]
  simp only [execIdentData, held, if_neg taken, if_neg counts]

end

/-- A message that no bridge sends counts against its link. -/
theorem execUnknownMessage_unlisted {l : LinkId} {ty : BitVec 8} {len : Nat} {s : State} (unlisted : (ty.toNat, len) ∉ bridgeMessages) :
    execUnknownMessage l ty len s = .next (odBump (0x6010 + l.val) 0x10 s) :=
  if_neg (by simpa using unlisted)

/-! ## Requests of a path (R130, R133, R138) -/

/-- A write of a port's shelf waits beside those of other paths that it replaces. -/
theorem writeShelf_waits (path : Path) (p h : Nat) (s : State) :
    let others := ((s.port p).shelfMove.map (fun m => m.2.filter (fun q => decide (q ≠ path)))).getD []
    writeShelf path p h s =
      portResult path p 1 (noteBag (0x6400 + p) 0x03 (s.setPort p { s.port p with shelfMove := some (h, path :: others) })) := by
  cases waits : (s.port p).shelfMove with
  | none => simp [writeShelf, waits]
  | some move => simp [writeShelf, waits]

section
variable {path : Path} {p : PortId} {s : State}

/-- Request 1 at a NEW port records the identity that was reported. -/
theorem execAcceptDrive_new (permits : Permits path (0x6400 + p.val) 0x07 1 s) (new : (s.port p.val).state = .new) :
    execAcceptDrive path p s = .next (setAnswer path .ok
      (requestResult path p.val 0 (setPortState p.val .asleep (recordSerial p.val (s.port p.val).newSerial s)))) := by
  rw [execAcceptDrive, Laws.permits_write permits]
  simp only [acceptDrive, new]

/-- Request 2 retires a port that is not RETIRED. -/
theorem execRetirePort_unretired (permits : Permits path (0x6400 + p.val) 0x07 2 s) (unretired : (s.port p.val).state ≠ .retired) :
    execRetirePort path p s = .next (setAnswer path .ok
      (requestResult path p.val 0 (dropPort p.val .retired (s.setPort p.val { s.port p.val with joinReq := none, takeNext := false })))) := by
  rw [execRetirePort, Laws.permits_write permits]
  simp only [retirePort, if_neg unretired]

/-- Request 3 at a LATE port: it joins the wake of its shelf, or sleeps with it. -/
theorem execReenablePort_late (permits : Permits path (0x6400 + p.val) 0x07 3 s) (late : (s.port p.val).state = .late) :
    execReenablePort path p s = .next (setAnswer path .ok
      (requestResult path p.val 0 (if shelfUp s p.val then joinWake p.val s else setPortState p.val .asleep s))) := by
  rw [execReenablePort, Laws.permits_write permits]
  simp only [reenablePort, late]

/-- A permitted write of a port's shelf answers OK and waits. -/
theorem execPortShelfWrite_permitted {h : BitVec 8} (permits : Permits path (0x6400 + p.val) 0x03 h.toNat s) :
    let others := ((s.port p.val).shelfMove.map (fun m => m.2.filter (fun q => decide (q ≠ path)))).getD []
    execPortShelfWrite path p h s = .next (setAnswer path .ok (portResult path p.val 1 (noteBag (0x6400 + p.val) 0x03
      (s.setPort p.val { s.port p.val with shelfMove := some (h.toNat, path :: others) })))) := by
  rw [execPortShelfWrite, Laws.permits_write permits, writeShelf_waits]

end

/-- A move takes effect while both shelves are ASLEEP, and answers every path that waits for it. -/
theorem execPortShelfMove_asleep {paths : List Path} {p : PortId} {h : Nat} {s : State}
    (waits : (s.port p.val).shelfMove = some (h, paths)) (target : (s.shelf h).state = .asleep)
    (source : (s.shelf (portShelf s p.val)).state = .asleep) :
    execPortShelfMove p s = .next (paths.foldl (fun t path => portResult path p.val 0 t)
      (odSet (0x6400 + p.val) 0x03 h (s.setPort p.val { s.port p.val with shelfMove := none }))) := by
  simp only [execPortShelfMove, waits]
  exact if_pos ⟨target, source⟩

/-! ## The obligation -/

/-- Settles O32: each answer, expiry and request, by the lemma above for the state of the port that its clause names. -/
theorem drivePortsComplete : Obligations.DrivePortsComplete := by
  refine ⟨?issue, ?expiry, ?abort, ?answers, ?change, ?alert, ?unknown, ?requests, ?move⟩
  case issue =>
    exact fun p c s oldest => congrArg _ (issueNext_waiting oldest)
  case expiry =>
    intro p tag c s held unsent s1 s2 s3
    exact ⟨fun given => congrArg _ (driveExpiry_given held unsent given),
      fun undecided => congrArg _ (driveExpiry_open held unsent undecided)⟩
  case abort =>
    exact fun p tag c s held sent => execAbortTimeout_sent held sent
  case answers =>
    refine fun l p tag c s held carried => ⟨?status, ?seals, ?data, ?identity⟩
    case status =>
      exact fun code blk span listed undecided =>
        congrArg _ (statusMsg_open held blk.toNat span.val carried listed undecided)
    case seals =>
      exact fun blk poison block seals read undecided asked =>
        execSealMsg_asked held carried undecided read asked poison block seals
    case data =>
      exact fun blk data read undecided asked => execDataMsg_asked held carried undecided read asked data
    case identity =>
      exact fun present serial cap identifies undecided =>
        execIdentData_open held carried undecided identifies present serial cap
  case change =>
    exact fun l p present s carried => if_neg (not_not_intro carried)
  case alert =>
    exact fun l code value s => rfl
  case unknown =>
    exact fun l ty len s unlisted => execUnknownMessage_unlisted unlisted
  case requests =>
    exact fun path p s => ⟨execAcceptDrive_new, execRetirePort_unretired, execReenablePort_late,
      fun h permits => execPortShelfWrite_permitted permits⟩
  case move =>
    exact fun paths p h s waits target source => execPortShelfMove_asleep waits target source

end Sys2Proof.Proofs
end

section
/-! SUPPORT. Shelves (R130, R132–R135): what each request, wake, window and power-down comes to in the state its clause names, and the settling
of the obligation on them. -/

namespace Sys2Proof.Proofs

open Sys2Proof Sys2Proof.Machine

/-! ## POWER_DONE (R132, R134) -/

/-- A POWER_DONE whose REQ a shelf awaits on this link is that shelf's. -/
theorem powerDone_awaited {l : Nat} {req : BitVec 8} {h ll : Nat} {up : Bool} {s : State} (ok failed : BitVec 32)
    (awaited : (List.range 128).findSome? (fun h =>
      ((s.shelf h).awaiting.find? (fun a => decide (carrierOf s a.1 = l) && decide (a.2.1 = req))).map
        (fun a => (h, a.1, a.2.2))) = some (h, ll, up)) :
    powerDone l req ok failed s = shelfPowerDone h ll req up ok failed s := by
  simp only [powerDone, awaited]

/-- A shelf that falls asleep without every answer is recorded, and the ports of its quiet links have missed their sleep. -/
theorem execPowerDoneTimeout_sleeping {h : ShelfId} {s : State} (sleeping : (s.shelf h.val).state = .sleeping) :
    let links := ((s.shelf h.val).awaiting.filter (fun a => !a.2.2)).map (·.1)
    let quiet := (shelfPorts s h.val).filter (fun p => links.contains (p / 32))
    execPowerDoneTimeout h s = .next (shelfAsleep h.val (quiet.foldl (fun t p => missSleep p t)
      (record { kind := 0x06, cls := 0, resource := resource 12 h.val } s))) :=
  if_neg (not_not_intro sleeping)

/-! ## CONTROL (R132) -/

/-- With no request held, there is none to answer. -/
theorem answerHeld_none {h : Nat} {s : State} (wake : Bool) (v : Nat) (unrequested : (s.shelf h).requests = []) :
    answerHeld h wake v s = s.setShelf h (s.shelf h) := by
  have unchanged : { s.shelf h with requests := [] } = s.shelf h := by rw [← unrequested]
  simp [answerHeld, unrequested, unchanged]

/-- A permitted CONTROL = 1 answers OK and has the effect of the request. -/
theorem execShelfWakeRequest_permitted {path : Path} {h : ShelfId} {s : State} (permits : Permits path (0x6100 + h.val) 0x02 1 s) :
    execShelfWakeRequest path h s = .next (setAnswer path .ok (wakeRequest path h.val s)) :=
  congrArg _ (Laws.permits_write permits)

/-- CONTROL = 1 has no effect on an AWAKE shelf. -/
theorem wakeRequest_awake {path : Path} {h : Nat} {s : State} (awake : (s.shelf h).state = .awake) (unrequested : (s.shelf h).requests = []) :
    wakeRequest path h s = shelfResult path h 0 (s.setShelf h (s.shelf h)) := by
  simp [wakeRequest, answerHeld_none false 2 unrequested, awake]

/-- CONTROL = 1 is held by an ASLEEP shelf, which asks for its wake. -/
theorem wakeRequest_asleep {path : Path} {h : Nat} {s : State} (asleep : (s.shelf h).state = .asleep)
    (unrequested : (s.shelf h).requests = []) (unasked : (h, false) ∉ s.wakeQueue) :
    let t := wakeRequest path h s
    t.wakeQueue = s.wakeQueue ++ [(h, false)] ∧ (t.shelf h).requests = [{ wake := true, path := path }] := by
  let s2 := (s.setShelf h (s.shelf h)).setShelf h { s.shelf h with requests := [{ wake := true, path := path }] }
  have asks : askWake h false s2 = { s2 with wakeQueue := s2.wakeQueue ++ [(h, false)] } := if_neg (by simpa [s2] using unasked)
  have request : wakeRequest path h s = shelfResult path h 1 (askWake h false s2) := by
    simp [wakeRequest, answerHeld_none false 2 unrequested, asleep, unrequested, s2]
  have held : s2.shelf h = { s.shelf h with requests := [{ wake := true, path := path }] } := by simp [s2]
  simp only [request, asks, shelfResult, pathSet_others]
  exact ⟨rfl, congrArg Shelf.requests held⟩

/-- CONTROL = 2 closes an AWAKE shelf. -/
theorem execShelfSleepRequest_awake {path : Path} {h : ShelfId} {s : State} (permits : Permits path (0x6100 + h.val) 0x02 2 s)
    (awake : (s.shelf h.val).state = .awake) :
    execShelfSleepRequest path h s = .next (setAnswer path .ok (shelfResult path h.val 0 (startClosing h.val s))) := by
  rw [execShelfSleepRequest, Laws.permits_write permits]
  simp only [sleepRequest, awake]

/-! ## Wakes (R132, R133) -/

/-- A wake is admitted while there is power and WAKE_CONCURRENCY leaves room. -/
theorem execShelfWakeAdmit_room {h : Nat} {work : Bool} {s : State} (room : wakingShelves s < odGet s 0x6000 0x0C)
    (powered : s.pwr.pwrfail = false)
    (first : s.wakeQueue.find? (fun r => decide ((s.shelf r.1).state = .asleep)) = some (h, work)) :
    execShelfWakeAdmit s = .next (admitWake h s) := by
  have admits : ¬(odGet s 0x6000 0x0C ≤ wakingShelves s ∨ s.pwr.pwrfail = true) := by simp [room, powered]
  simp only [execShelfWakeAdmit, if_neg admits, first]

/-! ## Windows (R134, R135) -/

/-- Storing an entry changes no shelf. -/
theorem storeOd_shelf (i sub v h : Nat) (s : State) : (storeOd i sub v s).shelf h = s.shelf h := by
  unfold storeOd
  dsimp only
  repeat' split
  all_goals rfl

/-- WINDOW_LEN of a shelf that is not AWAKE is stored alone. -/
theorem execWindowLenWrite_closed {path : Path} {h : ShelfId} {v : BitVec 32} {e : Nat} {s : State}
    (permits : Permits path (0x6100 + h.val) 0x04 v.toNat s) (closed : (s.shelf h.val).state ≠ .awake) :
    execWindowLenWrite path h v e s = .next (setAnswer path .ok (storeOd (0x6100 + h.val) 0x04 v.toNat s)) := by
  rw [execWindowLenWrite, Laws.permits_write permits]
  simp [writeWindow, storeOd_shelf, closed]

/-- Counting in another entry moves no port to another shelf. -/
theorem shelfPorts_odBump {sub : Nat} (byte : sub < 256) (other : sub ≠ 3) (i h : Nat) (s : State) :
    shelfPorts (odBump i sub s) h = shelfPorts s h := by
  have apart (p : Nat) : odKey (0x6400 + p) 0x03 ≠ odKey i sub := fun same => other ((odKey_eq (by decide) byte).mp same).2.symm
  have kept (p : Nat) : portShelf (odBump i sub s) p = portShelf s p := (odGet_odSet s i sub _ _ _).trans (if_neg (apart p))
  exact List.filter_congr fun p _ => by rw [kept p]

/-- What the end of a window does at one port: its waiting commands wait for the next one, apart from IDENTIFY. -/
def holdWaiting (t : State) (p : Nat) : State :=
  let y := t.port p
  if y.waiting.isEmpty then t
  else t.setPort p { y with waiting := y.waiting.map (fun c => { c with held := decide (c.op ≠ 5) }) }

/-- Ports at which nothing waits are as they were. -/
theorem foldl_holdWaiting_idle {ports : List Nat} {s : State} (idle : ∀ p ∈ ports, (s.port p).waiting = []) :
    ports.foldl holdWaiting s = s := by
  induction ports with
  | nil => rfl
  | cons p rest ih =>
    have unheld : holdWaiting s p = s := if_pos (by simp [idle p])
    rw [List.foldl_cons, unheld]
    exact ih fun q later => idle q (List.mem_cons_of_mem p later)

/-- The window of a CLOSING shelf ends: it is past, counted, and the shelf sleeps once nothing is left to do. -/
theorem windowExpiry_idle {h : Nat} {s : State} (closing : (s.shelf h).state = .closing) (within : (s.shelf h).pastWindow = false)
    (idle : ∀ p ∈ shelfPorts s h, (s.port p).waiting = []) :
    let s1 := odBump (0x6100 + h) 0x0A (s.setShelf h { s.shelf h with pastWindow := true })
    windowExpiry h s = trySleep h s1 := by
  intro s1
  have ends : ¬((s.shelf h).state ≠ .closing ∨ (s.shelf h).pastWindow = true) := by simp [closing, within]
  have members : shelfPorts s1 h = shelfPorts s h := shelfPorts_odBump (by decide) (by decide) _ h _
  have idle1 : ∀ p ∈ shelfPorts s1 h, (s1.port p).waiting = [] := by
    rw [members]
    simpa [s1] using idle
  have asksNot : ¬(shelfPorts s1 h).any (fun p => (s1.port p).waiting.any (fun c => decide (c.op ≠ 5))) = true := by
    simp +contextual [idle1]
  calc windowExpiry h s
      = trySleep h (if (shelfPorts s1 h).any (fun p => (s1.port p).waiting.any (fun c => decide (c.op ≠ 5))) then
          requestWake h ((shelfPorts s1 h).foldl holdWaiting s1) else (shelfPorts s1 h).foldl holdWaiting s1) := if_neg ends
    _ = trySleep h s1 := by rw [if_neg asksNot, foldl_holdWaiting_idle idle1]

/-! ## The obligation -/

/-- Settles O33: each request, wake, window and power-down, by the lemma above for the state of the shelf that its clause names. -/
theorem shelvesComplete : Obligations.ShelvesComplete := by
  refine ⟨?done, ?requests, ?wakes, ?limit, ?joined, ?windows⟩
  case done =>
    exact fun l req ok failed h ll up s awaited => congrArg _ (powerDone_awaited ok failed awaited)
  case requests =>
    refine fun path h s => ⟨fun permits awake unrequested => ?awake, fun permits asleep unrequested unasked => ?asleep,
      execShelfSleepRequest_awake, fun v e permits closed => execWindowLenWrite_closed permits closed⟩
    case awake =>
      refine ⟨_, execShelfWakeRequest_permitted permits, ?_⟩
      simp [wakeRequest_awake awake unrequested, shelfResult]
    case asleep =>
      refine ⟨_, execShelfWakeRequest_permitted permits, ?_⟩
      simpa using wakeRequest_asleep asleep unrequested unasked
  case wakes =>
    exact fun h work s room powered first => execShelfWakeAdmit_room room powered first
  case limit =>
    exact fun h s waking => if_neg (not_not_intro waking)
  case joined =>
    exact fun h q s joined waking => if_pos ⟨joined, waking⟩
  case windows =>
    exact fun h s => ⟨fun awake => if_pos awake, fun closing within idle => congrArg _ (windowExpiry_idle closing within idle),
      execPowerDoneTimeout_sleeping⟩

end Sys2Proof.Proofs
end

section
/-! SUPPORT. The Longe rings (R148–R166, R447): what a cycle of a lane, a head that waits, a failed check, a detour, a change of groups and a
packet for a retired stop come to under the conditions of their clauses, and the settling of the obligation on them. -/

namespace Sys2Proof.Proofs

open Sys2Proof Sys2Proof.Machine

/-! ## A cycle of a lane (R153, R155, R166) -/

/-- A segment that exists and has not failed sends, once the flits of its cycle have come in and strict packets have entered its buffer. -/
theorem ringCycle_sends {c cycle : Nat} (flip : Bool) {inj : List LocalSrc} {s : State} (valid : segValid c = true) :
    let s1 := ejectAt (segFrom c) cycle (ejectAll c (inj.foldl (fun t x => queuePacket (segFrom c) x t) s))
    let s2 := s1.setLane c { s1.lane c with now := cycle }
    c ∉ s2.ring.failedSegs → ringCycle c cycle flip inj s = ringSend c cycle flip (injectStrict c s2) := by
  intro s1 s2 working
  have present : ¬segValid c = false := by simp [valid]
  have unfailed : ¬s2.ring.failedSegs.contains c = true := by simpa using working
  exact (if_neg present).trans (if_neg unfailed)

section
variable {c cycle : Nat} {flip : Bool} {s : State}

/-- A retry comes first. -/
theorem ringSend_retry {f : RingFlit} {r : List RingFlit} (resends : (s.lane c).retry = f :: r) :
    ringSend c cycle flip s = putFlit c cycle flip f (s.setLane c { s.lane c with retry := r }) := by
  simp only [ringSend, resends]

variable (noRetry : (s.lane c).retry = [])
include noRetry

/-- Without a retry, a strict flit that has its train is sent. -/
theorem ringSend_strict {f : RingFlit} (rides : strictFlit s c cycle = some f) :
    ringSend c cycle flip s = putFlit c cycle flip f
      (countSent c f (decide (f.train = none)) (s.setLane c { s.lane c with strict := (s.lane c).strict.erase f })) := by
  simp only [ringSend, noRetry, rides]

/-- Without either, and in a group that is not reserved, the winner of arbitration is sent. -/
theorem ringSend_winner {x : Cand} (noStrict : strictFlit s c cycle = none) (unreserved : groupStall s (trainGroup c cycle) = none)
    (wins : pickCand (s.lane c) (candidates s c cycle) = some x) :
    ringSend c cycle flip s = putFlit c cycle flip x.flit (countSent c x.flit (turns c x) (noteWinner c x (takeFlit c x s))) := by
  simp only [ringSend, noRetry, noStrict, unreserved, wins]
  rfl

end

/-! ## Heads that wait (R154, R156, R165) -/

section
variable {seg p : BitVec 11} {v : Fin 16} {f : RingFlit} {s : State} (heads : bufferHead s seg.toNat p.toNat v.val = some f)
include heads

/-- The head of an input buffer with PRI 0 or 1 ages. -/
theorem execPriorityAging_input (low : hPri f.hdr ≤ 1) :
    execPriorityAging seg (.input p v) s = .next (mapHead p.toNat v.val (fun x => { x with aged := true }) s) := by
  simp only [execPriorityAging, heads, if_pos low]

/-- The head of an input buffer that turns is promoted once. -/
theorem execHeadPromotion_input (turning : sameLane p.toNat seg.toNat = false) (first : f.promoted = false) :
    execHeadPromotion seg (.input p v) s =
      .next (promotion seg.toNat (mapHead p.toNat v.val (fun x => { x with promoted := true }) s)) := by
  have promotes : ¬(sameLane p.toNat seg.toNat = true ∨ f.promoted = true) := by simp [turning, first]
  simp only [execHeadPromotion, heads, if_neg promotes]

end

section
variable {seg : BitVec 11} {q : Fin 16} {x : QueuedPkt} {s : State} (heads : (s.ringQueue (segFrom seg.toNat) q.val).head? = some x)
  (goes : nextSeg (injectFlit s x) = some seg.toNat)
include heads goes

/-- The head of a local queue with PRI 0 or 1 ages. -/
theorem execPriorityAging_inject (low : hPri x.hdr ≤ 1) :
    execPriorityAging seg (.inject q) s = .next (mapQueued (segFrom seg.toNat) q.val (fun y => { y with aged := true }) s) := by
  simp only [execPriorityAging, heads]
  exact congrArg _ (if_pos ⟨goes, low⟩)

/-- The head of a local queue is promoted once. -/
theorem execHeadPromotion_inject (first : x.promoted = false) :
    execHeadPromotion seg (.inject q) s =
      .next (promotion seg.toNat (mapQueued (segFrom seg.toNat) q.val (fun y => { y with promoted := true }) s)) := by
  simp only [execHeadPromotion, heads]
  exact congrArg _ (if_pos ⟨goes, first⟩)

end

/-! ## Failed checks and detours (R149, R162, R163, R165) -/

/-- The bad flit and those sent after it, all still where they arrived, go back before the lane's other retries; a bad resend or the sixteenth
retry within 1 ms, counted as 2,000,000 cycles (log entry 93), fails the segment. -/
theorem execFlitUeRetry_takesBack {seg : BitVec 11} {after : Fin 8} {f : RingFlit} {r : List RingFlit} {s s1 : State} :
    let c := seg.toNat
    let l := s.lane c
    let back := l.sent.drop (l.sent.length - (after.val + 1))
    back = f :: r → back.length = after.val + 1 → back.reverse.foldl (fun t g => t.bind (unsend c g)) (some s) = some s1 →
    let times := l.now :: l.retries.filter (fun x => decide (l.now - x < 2000000))
    let s2 := odBump 0xF010 0x04 (s1.setLane c { s1.lane c with
      sent := l.sent.take (l.sent.length - back.length), retries := times,
      retry := (f :: r).map (fun g => { g with bad := true }) ++ (s1.lane c).retry })
    execFlitUeRetry ⟨seg, after⟩ s = .next (if f.bad = true ∨ 16 ≤ times.length then segFailed c s2 else s2) := by
  intro c l back taken complete undone times s2
  have sentLast : (s.lane seg.toNat).sent.drop ((s.lane seg.toNat).sent.length - (after.val + 1)) = f :: r := taken
  simp only [taken, c] at complete undone
  simp only [execFlitUeRetry, sentLast, undone, if_neg (not_not_intro complete), s2, taken]
  rfl

/-- A repair that runs and has a detour ends with the detour taken. -/
theorem execDetourInstalled_running {seg : BitVec 11} {r : Repair} {d : List Nat} {s : State}
    (runs : s.far.running.find? (fun r => decide (r.action = 0x04) && decide (r.resource.toNat = resource 1 seg.toNat)) = some r)
    (detour : detourFor s seg.toNat = some d) :
    execDetourInstalled seg s = .next (endRepair 0x05 0x04 (resource 1 seg.toNat) {} (takeDetour seg.toNat d s)) := by
  simp only [execDetourInstalled, runs, detour]

/-! ## Groups (R158) -/

/-- Written groups take effect once no strict flit of the stall is on the rings. -/
theorem execRingGroupsApply_drained {n : StallId} {s : State} (waits : (s.stall n.val).ringPending = true)
    (drained : ∀ f ∈ ringFlits s, hStrict f.hdr = true → hStall f.hdr ≠ n.val) :
    execRingGroupsApply n s = .next (evalStalls (s.setStall n.val { s.stall n.val with
      ringNow := BitVec.ofNat 32 (odGet s (0x4100 + n.val) 0x20), ringPending := false })) := by
  have idle : (ringFlits s).any (fun f => hStrict f.hdr && decide (hStall f.hdr = n.val)) = false := by simpa using drained
  exact if_pos ⟨waits, idle⟩

/-! ## Packets for retired stops (R433, R447) -/

/-- A snoop that comes to a Farrier agent is answered GONE. -/
theorem execPacketToRetiredStop_snoop {t : SliceId} {pa : BitVec 52} {p : Pkt} {s s1 : State}
    (agent : agentLost s (stopDie (tileStop t.val)) = false)
    (arrived : takePkt (tileStop t.val) (lineOf pa) PktKind.isSnp s = some (p, s1)) :
    execPacketToRetiredStop (.snoop t pa) s = .next (resolved (tileStop t.val)
      (sendPkt { stop := tileStop t.val, line := lineOf pa, kind := .gone, ref := p.ref } s1)) := by
  simp only [execPacketToRetiredStop, agent, Bool.false_eq_true, if_false]
  split
  case h_1 p' s1' taken =>
    have same : some (p', s1') = some (p, s1) := taken.symm.trans arrived
    cases same
    rfl
  case h_2 noneTaken =>
    have impossible : none = some (p, s1) := noneTaken.symm.trans arrived
    cases impossible

/-- A request that waits at a retired home goes to the new one (log entry 95). -/
theorem execPacketToRetiredStop_request {r : Req} {old : SliceId} {q : HomeReq} {rest : List HomeReq} {s : State}
    (agent : agentLost s (stopDie (tileStop old.val)) = false)
    (waits : takeFirst (fun x => decide (x.req = r)) (s.slice old.val).queue = some (q, rest))
    (moved : homeSlice s (r.pa.toNat / 256) ≠ old.val) :
    let s1 := s.setSlice old.val { s.slice old.val with queue := rest }
    let home := homeSlice s (r.pa.toNat / 256)
    execPacketToRetiredStop (.request r old) s = .next (resolved (tileStop old.val)
      (s1.setSlice home { s1.slice home with queue := (s1.slice home).queue ++ [q] })) := by
  simp only [execPacketToRetiredStop, agent, waits, if_neg moved]
  rfl

/-! ## The obligation -/

/-- Settles O36: each cycle, head, failed check, detour, change of groups and lost packet, by the lemma above for the conditions of its clause. -/
theorem ringsComplete : Obligations.RingsComplete := by
  refine ⟨?cycle, ?buffers, ?queues, ?failedCheck, ?detour, ?groups, ?failTest, ?snoop, ?request⟩
  case cycle =>
    intro seg cycle flip inj s c s1 s2 s3 ln valid working
    have sends : exec (.ringArbitration seg ⟨cycle, flip⟩ inj) s = .next (ringSend c cycle flip s3) :=
      congrArg _ (ringCycle_sends flip valid working)
    rw [sends]
    exact ⟨fun f r resends => congrArg _ (ringSend_retry resends),
      fun noRetry => ⟨fun f rides => congrArg _ (ringSend_strict noRetry rides),
        fun noStrict unreserved x wins => congrArg _ (ringSend_winner noRetry noStrict unreserved wins)⟩⟩
  case buffers =>
    exact fun seg p v f s heads => ⟨execPriorityAging_input heads, execHeadPromotion_input heads⟩
  case queues =>
    exact fun seg q x s heads goes => ⟨execPriorityAging_inject heads goes, execHeadPromotion_inject heads goes⟩
  case failedCheck =>
    exact fun seg after f r s s1 => execFlitUeRetry_takesBack
  case detour =>
    exact fun seg r d s runs detour => execDetourInstalled_running runs detour
  case groups =>
    exact fun n s waits drained => execRingGroupsApply_drained waits drained
  case failTest =>
    exact fun path code s permits => congrArg _ (Laws.permits_write permits)
  case snoop =>
    exact fun t pa p s s1 agent arrived => execPacketToRetiredStop_snoop agent arrived
  case request =>
    exact fun r old q rest s agent waits moved => execPacketToRetiredStop_request agent waits moved

end Sys2Proof.Proofs
end

section
/-! SUPPORT. The entries that give a stall its resources (R158, R188, R278, R286, R312, R314, R336, R358, R395–R398): what each permitted write
and each completion comes to under the conditions of its clause, and the settling of the obligation on them. -/

namespace Sys2Proof.Proofs

open Sys2Proof Sys2Proof.Machine

/-! ## Permitted writes -/

/-- A permitted write of an entry answers OK over what its effect comes to. -/
theorem permittedWrite_answersOk {path : Path} {i sub v : Nat} {effect : State → State} {s t : State} (permits : Permits path i sub v s)
    (does : effect s = t) : (.next (odWriteNat path i sub v effect s) : Answer) = .next (setAnswer path .ok t) := by
  rw [Laws.permits_write permits, does]

/-! ## Grants and I/O roots (R336, R345, R350) -/

/-- While no write of a stall waits, one that is deferred is the only one that waits, and its result is BUSY. -/
theorem deferGrant_first {path : Path} {n : Nat} {g : GrantPending} {same : GrantPending → Bool} {s : State}
    (noneWaits : (s.stall n).grantPending = []) :
    deferGrant path n g same s = stallResult path n resBusy (s.setStall n { s.stall n with grantPending := [g] }) := by
  simp [deferGrant, noneWaits]

section
variable {path : Path} {n : Nat} {s : State} (free : (s.stall n).state = .free)
include free

/-- A grant that leaves out nothing of a FREE stall's old range is stored. -/
theorem writeGrant_within {k v : Nat} (within : rangeIn (grantRange (odGet s (0x4100 + n) (0x30 + k))) (grantRange v) = true) :
    writeGrant path n k v s = storeStall path n (0x30 + k) v s := by
  simp [writeGrant, free, within]

/-- A grant that leaves out a part of a FREE stall's old range waits for its invalidations. -/
theorem writeGrant_beyond {k : Nat} {v : Word}
    (beyond : rangeIn (grantRange (odGet s (0x4100 + n) (0x30 + k))) (grantRange v.toNat) = false)
    (noneWaits : (s.stall n).grantPending = []) :
    writeGrant path n k v.toNat s = stallResult path n resBusy
      (s.setStall n { s.stall n with grantPending := [.grant k v path] }) := by
  simp [writeGrant, free, beyond, deferGrant_first noneWaits]

/-- An entry of a FREE stall takes its write. -/
theorem unlessEnding_free (act : State → State) : unlessEnding path n act s = act s :=
  if_neg (by simp [free])

/-- VF_BIND of a FREE stall is stored. -/
theorem writeVfBind_free {v : Nat} : writeVfBind path n v s = storeStall path n 0x09 v s := by
  simp [writeVfBind, unlessEnding_free free, free]

end

/-- A new I/O root waits for its invalidations. -/
theorem writeIoRoot_new {path : Path} {n : Nat} {v : Word} {s : State} (new : odGet s (0x4100 + n) 0x24 ≠ v.toNat)
    (noneWaits : (s.stall n).grantPending = []) :
    writeIoRoot path n v.toNat s = stallResult path n resBusy (s.setStall n { s.stall n with grantPending := [.ioRoot v path] }) := by
  simp [writeIoRoot, new, deferGrant_first noneWaits]

/-- The oldest write that waits, one of IO_ROOT, completes: its invalidations, then the new value and its result. -/
theorem completeGrant_ioRoot {n : Nat} {v : Word} {path : Path} {rest : List GrantPending} {s : State}
    (oldest : (s.stall n).grantPending = .ioRoot v path :: rest) :
    let s1 := invalidateStall n (s.setStall n { s.stall n with grantPending := rest })
    completeGrant n s = evalStalls (grantDone path n rest (storeOd (0x4100 + n) 0x24 v.toNat s1)) := by
  simp only [completeGrant, oldest]

/-- A write that waits completes once every access already translated has been performed. -/
theorem execGrantWriteComplete_performed {n : StallId} {s s0 : State} (waits : (s.stall n.val).grantPending ≠ [])
    (performed : performTranslated s = some s0) : execGrantWriteComplete n s = .next (completeGrant n.val s0) := by
  simp [execGrantWriteComplete, waits, performed]

/-! ## Modes, ring groups, memory slots and cache ways (R158, R188, R278, R286, R312) -/

/-- Storing an entry changes no core. -/
theorem storeOd_core (i sub v k : Nat) (s : State) : (storeOd i sub v s).core k = s.core k := by
  unfold storeOd
  dsimp only
  repeat' split
  all_goals rfl

/-- What a write of CORE_MODE does to one core: where it runs the stall, it is to apply the value at its next boundary. -/
def markMode (n : Nat) (t : State) (k : Nat) : State :=
  if (t.core k).stall = n ∧ (t.core k).started = true then t.setCore k { t.core k with modePending := true } else t

/-- A stall that runs on no core marks none. -/
theorem foldl_markMode_unstarted {n : Nat} {s : State}
    (unstarted : ∀ k, k < 128 → (s.core k).stall = n → (s.core k).started = false) : (List.range 128).foldl (markMode n) s = s := by
  refine List.foldlRecOn (List.range 128) (markMode n) (motive := fun t => t = s) rfl fun t same k inRange => ?_
  subst same
  exact if_neg fun ⟨runs, started⟩ =>
    Bool.false_ne_true ((unstarted k (List.mem_range.mp inRange) runs).symm.trans started)

/-- CORE_MODE of a stall that runs on no core is stored without its reserved bits. -/
theorem writeCoreMode_unstarted {path : Path} {n v : Nat} {s : State}
    (unstarted : ∀ k, k < 128 → (s.core k).stall = n → (s.core k).started = false) :
    writeCoreMode path n v s = evalStalls (stallResult path n resOk (storeOd (0x4100 + n) 0x21 (v % 8) s)) := by
  have unmarked : (List.range 128).foldl (markMode n) (storeOd (0x4100 + n) 0x21 (v % 8) s) = storeOd (0x4100 + n) 0x21 (v % 8) s :=
    foldl_markMode_unstarted (by simpa only [storeOd_core] using unstarted)
  exact congrArg (fun t => evalStalls (stallResult path n resOk t)) unmarked

/-- Ring groups that no other stall holds are stored, and take effect later. -/
theorem writeRingGroups_unheld {path : Path} {n v : Nat} {s : State} (reserved : v % 256 = 0) (unheld : groupsHeld s n v = false) :
    let s1 := storeOd (0x4100 + n) 0x20 v s
    writeRingGroups path n v s = evalStalls (stallResult path n resOk (s1.setStall n { s1.stall n with ringPending := true })) :=
  if_neg (by simp [valueDenied, reserved, unheld])

/-- Memory slots that no other stall owns are stored, and take effect later. -/
theorem writeMemSlots_unowned {path : Path} {n v : Nat} {s : State} (unowned : slotsDenied s n v = false) :
    let s1 := storeOd (0x4100 + n) 0x23 v s
    writeMemSlots path n v s = evalStalls (stallResult path n resOk (s1.setStall n { s1.stall n with slotsPending := true })) :=
  if_neg (by simp [valueDenied, unowned])

/-- A way mask that names a way and meets no strict stall is stored. -/
theorem writeLlcWays_apart {path : Path} {n v : Nat} {s : State} (someWay : v ≠ 0) (apart : waysMeetStrict s n v = false) :
    writeLlcWays path n v s = storeStall path n 0x22 v s :=
  if_neg (by simp [someWay, apart])

/-- A way lock that is cleared is stored without its reserved bits. -/
theorem writeWayLock_clear {path : Path} {w v : Nat} {s : State} (clear : natBit v 0 = false) :
    writeWayLock path w v s = evalStalls (storeOd 0x5100 (0x10 + w) (v % 2 ^ 14) s) :=
  if_neg (by simp [clear])

/-! ## Interrupt sources (R395–R398, R405) -/

section
variable {n : SourceId} {s : State} (enabled : srcEn (srcCfg s n.val) = true) (counted : 0 < (s.source n.val).count)
  (unsignalled : (s.source n.val).signalled = false)
include enabled counted unsignalled

/-- An enabled source with events that were not signalled is signalled when COAL_TIME is over. -/
theorem execSourceCoalesceTimeout_counted : execSourceCoalesceTimeout n s = .next (signalSource n.val s) :=
  if_pos ⟨enabled, counted, unsignalled⟩

/-- At its deadline such a source is signalled, counted and recorded. -/
theorem execDlCoalesceExpiry_counted :
    execDlCoalesceExpiry n s = .next (recordDeadline 8 0xF000 (odBump 0x9000 0x07 (signalSource n.val s))) :=
  if_pos ⟨enabled, counted, unsignalled⟩

end

/-- The word of a source that is neither reserved nor signalled, with a target it may name, written by no tenant, is stored for the saddlebag
and evaluated. -/
theorem writeSource_accepted {path : Path} {w : Word} {s : State} (untenanted : pathClass path ≠ .t) :
    let n := pathGet s path 0x9000 0x01 % 2048
    srcReserved n = false → targetDenied s n w = false → (s.source n).signalled = false →
      writeSource path w s = pathSet path 0x9000 0x04 resOk (evalSource n
        (noteBag (srcIdx n) 0x02 (s.setSource n { s.source n with cfg := some (cfgWord n w) }))) := by
  intro n unreserved allowed unsignalled
  let s1 := noteBag (srcIdx n) 0x02 (s.setSource n { s.source n with cfg := some (cfgWord n w) })
  have accepted : ¬((srcReserved n && srcEn w) ||
      (decide (pathClass path = .t) && (decide (srcKind w ≠ srcKind (srcCfg s n)) || decide (srcOwnerField w ≠ srcOwnerField (srcCfg s n)))) ||
      targetDenied s n w) = true := by
    simp [unreserved, untenanted, allowed]
  have quiet : (!(s1.source n).signalled) = true := by
    have word : s1.source n = { s.source n with cfg := some (cfgWord n w) } := by
      show (s.setSource n _).source n = _
      simp
    simp [word, unsignalled]
  exact (if_neg accepted).trans (congrArg _ (if_pos quiet))

/-! ## The obligation -/

/-- Settles O38: each permitted write and each completion, by the lemma above for the conditions of its clause. -/
theorem stallResourcesComplete : Obligations.StallResourcesComplete := by
  refine ⟨?free, ?ioRoot, ?complete, ?cleaned, ?values, ?ways, ?lock, ?channels, ?sources, ?configure⟩
  case free =>
    intro path n s free
    refine ⟨?grant, fun v permits => ?vf, fun b permits => ?strict⟩
    case grant =>
      intro k v permits within
      refine ⟨fun inside => ?_, fun beyond noneWaits => ?_⟩
      · exact permittedWrite_answersOk permits (writeGrant_within free inside)
      · exact permittedWrite_answersOk permits (writeGrant_beyond free beyond noneWaits)
    case vf =>
      exact permittedWrite_answersOk permits (writeVfBind_free free)
    case strict =>
      exact permittedWrite_answersOk permits (unlessEnding_free free _)
  case ioRoot =>
    intro path n v s permits new noneWaits
    exact permittedWrite_answersOk permits (writeIoRoot_new new noneWaits)
  case complete =>
    intro n v path rest s s0 waits performed oldest
    exact (execGrantWriteComplete_performed waits performed).trans (congrArg _ (completeGrant_ioRoot oldest))
  case cleaned =>
    exact fun n s cleaning => if_pos cleaning
  case values =>
    refine fun path n v s => ⟨fun permits unstarted => ?mode, fun permits reserved unheld => ?groups, fun permits unowned => ?slots⟩
    case mode =>
      exact permittedWrite_answersOk permits (writeCoreMode_unstarted unstarted)
    case groups =>
      exact permittedWrite_answersOk permits (writeRingGroups_unheld reserved unheld)
    case slots =>
      exact permittedWrite_answersOk permits (writeMemSlots_unowned unowned)
  case ways =>
    intro path n v s permits someWay apart
    have named : v.toNat ≠ 0 := fun zero => someWay (BitVec.eq_of_toNat_eq zero)
    exact permittedWrite_answersOk permits (writeLlcWays_apart named apart)
  case lock =>
    exact fun path w v s permits clear => permittedWrite_answersOk permits (writeWayLock_clear clear)
  case channels =>
    exact fun path c rank s => ⟨fun permits => permittedWrite_answersOk permits rfl, fun permits => permittedWrite_answersOk permits rfl⟩
  case sources =>
    exact fun n s enabled counted unsignalled =>
      ⟨execSourceCoalesceTimeout_counted enabled counted unsignalled, execDlCoalesceExpiry_counted enabled counted unsignalled⟩
  case configure =>
    intro path w s permits untenanted n unreserved allowed unsignalled
    exact permittedWrite_answersOk permits (writeSource_accepted untenanted unreserved allowed unsignalled)

end Sys2Proof.Proofs
end

section
/-! SUPPORT. Signals, counts and records: raising an interrupt source, counting an event, changing the power state and making a record leave
everything else as it was: memory, caches, translation, the cores and the test access port among it. One equation for each operation, which
`simp` chains. -/

namespace Sys2Proof.Proofs

open Sys2Proof Sys2Proof.Machine

/-! ## What raising an interrupt, signalling and recording leave -/

/-- A state made of what signals, counts and records leave: free values, dictionary entries, outputs, the host endpoint, interrupt sources,
power, the Farrier's log, the side-band paths and the event counters are those of reset. -/
def stateBeside (pending : List Instr) (perPath : Tbl Nat) (bagPending : List Nat) (flash : Tbl Nat) (serial : List Access) (mem : Memory)
    (sram : List Host.Cell) (cores : Tbl CoreSt) (coh : Coh) (mc : McSys) (vm : Vm) (stalls : Tbl StallSt) (eng : EngSys) (links : Tbl Link)
    (ports : Tbl Port) (shelves : Tbl Shelf) (wakeQueue : List (Nat × Bool)) (ring : RingSys) (boot : Boot) (tap : Tap) (rein : Tbl ReinSt) :
    State :=
  { pending, perPath, bagPending, flash, serial, mem, sram, cores, coh, mc, vm, stalls, eng, links, ports, shelves, wakeQueue, ring, boot, tap,
    rein }

/-- Of a state, what signals, counts and records leave. -/
def besideSignals (s : State) : State :=
  stateBeside s.pending s.perPath s.bagPending s.flash s.serial s.mem s.sram s.cores s.coh s.mc s.vm s.stalls s.eng s.links s.ports s.shelves
    s.wakeQueue s.ring s.boot s.tap s.rein

@[simp] theorem besideSignals_mk (pending : List Instr) (free : Nat) (od perPath : Tbl Nat) (bagPending : List Nat) (flash : Tbl Nat)
    (serial : List Access) (out : List Out) (mem : Memory) (sram : List Host.Cell) (cores : Tbl CoreSt) (coh : Coh) (mc : McSys) (vm : Vm)
    (stalls : Tbl StallSt) (host : HostEp) (eng : EngSys) (links : Tbl Link) (ports : Tbl Port) (shelves : Tbl Shelf)
    (wakeQueue : List (Nat × Bool)) (ring : RingSys) (irq : Tbl Source) (pwr : Power) (far : Farrier) (side : Side) (boot : Boot) (pmu : Pmu)
    (tap : Tap) (rein : Tbl ReinSt) :
    besideSignals ⟨pending, free, od, perPath, bagPending, flash, serial, out, mem, sram, cores, coh, mc, vm, stalls, host, eng, links, ports,
      shelves, wakeQueue, ring, irq, pwr, far, side, boot, pmu, tap, rein⟩ =
    stateBeside pending perPath bagPending flash serial mem sram cores coh mc vm stalls eng links ports shelves wakeQueue ring boot tap rein := rfl

@[simp] theorem stateBeside_parts (s : State) :
    stateBeside s.pending s.perPath s.bagPending s.flash s.serial s.mem s.sram s.cores s.coh s.mc s.vm s.stalls s.eng s.links s.ports s.shelves
      s.wakeQueue s.ring s.boot s.tap s.rein = besideSignals s := rfl

section
variable {s t : State} (same : besideSignals t = besideSignals s)
include same

/-- Equal states beside signals hold the same units. -/
theorem units_of_besideSignals : t.mem = s.mem ∧ t.sram = s.sram ∧ t.coh = s.coh ∧ t.mc = s.mc ∧ t.vm = s.vm ∧ t.serial = s.serial ∧
    t.tap = s.tap ∧ t.cores = s.cores := by
  have units : ∀ {α : Type} (f : State → α), f (besideSignals t) = f (besideSignals s) := fun f => congrArg f same
  exact ⟨units State.mem, units State.sram, units State.coh, units State.mc, units State.vm, units State.serial, units State.tap,
    units State.cores⟩

theorem core_of_besideSignals (k : Nat) : t.core k = s.core k := by
  obtain ⟨-, -, -, -, -, -, -, cores⟩ := units_of_besideSignals same
  simp only [State.core, cores]

end

theorem besideSignals_foldl {α : Type} {f : State → α → State} (keeps : ∀ t x, besideSignals (f t x) = besideSignals t) (l : List α)
    (s : State) : besideSignals (l.foldl f s) = besideSignals s :=
  List.foldlRecOn l f (motive := fun t => besideSignals t = besideSignals s) rfl fun t same x _ => (keeps t x).trans same

@[simp] theorem besideSignals_took (s : State) : besideSignals s.took = besideSignals s := rfl
@[simp] theorem besideSignals_emit (o : Out) (s : State) : besideSignals (emit o s) = besideSignals s := rfl
@[simp] theorem besideSignals_odSet (i j v : Nat) (s : State) : besideSignals (odSet i j v s) = besideSignals s := rfl
@[simp] theorem besideSignals_odBump (i j : Nat) (s : State) : besideSignals (odBump i j s) = besideSignals s := rfl
@[simp] theorem besideSignals_setSource (s : State) (n : Nat) (x : Source) : besideSignals (s.setSource n x) = besideSignals s := rfl
@[simp] theorem besideSignals_setFn (s : State) (p fn : Nat) (x : HFn) : besideSignals (s.setFn p fn x) = besideSignals s := rfl
@[simp] theorem besideSignals_setCounter (s : State) (b i : Nat) (c : Counter) : besideSignals (s.setCounter b i c) = besideSignals s := rfl
@[simp] theorem besideSignals_setDom (d : Domain) (v : DomState) (s : State) : besideSignals (setDom d v s) = besideSignals s := rfl
@[simp] theorem besideSignals_clearSource (n : Nat) (s : State) : besideSignals (clearSource n s) = besideSignals s := rfl

@[simp] theorem besideSignals_countLink (l event n : Nat) (s : State) : besideSignals (countLink l event n s) = besideSignals s := by
  rw [onlyCounted_countLink l event n s]; rfl

@[simp] theorem besideSignals_countUncore (l event n : Nat) (s : State) : besideSignals (countUncore l event n s) = besideSignals s := by
  rw [onlyCounted_countUncore l event n s]; rfl

@[simp] theorem besideSignals_emitTlp (l : Nat) (o : Out) (s : State) : besideSignals (emitTlp l o s) = besideSignals s := by
  simp [emitTlp]

@[simp] theorem besideSignals_sendMsix (p fn v : Nat) (s : State) : besideSignals (sendMsix p fn v s) = besideSignals s := by
  simp [sendMsix, emitOrdered, apply_ite besideSignals]

@[simp] theorem besideSignals_wakeCore (k : Nat) (s : State) : besideSignals (wakeCore k s) = besideSignals s := by
  unfold wakeCore wakeDom
  split <;> simp [apply_ite besideSignals]

@[simp] theorem besideSignals_wakeTarget (n : Nat) (s : State) : besideSignals (wakeTarget n s) = besideSignals s := by
  unfold wakeTarget
  split
  · exact besideSignals_foldl (fun t k => besideSignals_wakeCore k t) _ s
  · split <;> simp

@[simp] theorem besideSignals_signalQuiet (n : Nat) (s : State) : besideSignals (signalQuiet n s) = besideSignals s := by
  unfold signalQuiet
  dsimp only
  split
  · rfl
  · split <;> simp [apply_ite besideSignals]

@[simp] theorem besideSignals_countSource (n : Nat) (s : State) : besideSignals (countSource n s) = besideSignals s := by
  simp [countSource, apply_ite besideSignals]

@[simp] theorem besideSignals_canOut (id : BitVec 29) (data : List Byte) (s : State) : besideSignals (canOut id data s) = besideSignals s := rfl

@[simp] theorem besideSignals_eventOut (body : List Byte) (s : State) : besideSignals (eventOut body s) = besideSignals s := rfl

@[simp] theorem besideSignals_pumpCan (s : State) : besideSignals (pumpCan s) = besideSignals s := by
  unfold pumpCan
  split
  · exact (besideSignals_foldl (fun t b => besideSignals_eventOut b t) _ _).trans
      (besideSignals_foldl (fun t (x : BitVec 29 × List Byte) => besideSignals_canOut x.1 x.2 t) _ _)
  · rfl

@[simp] theorem besideSignals_eventOf (n : Nat) (corrected : Bool) (info : List Byte) (s : State) :
    besideSignals (eventOf n corrected info s) = besideSignals s := by
  unfold eventOf
  split
  · rfl
  · simp [queueEvent]

theorem besideSignals_raiseBy {sig : Nat → State → State} (keeps : ∀ n t, besideSignals (sig n t) = besideSignals t) (n : Nat) (corrected : Bool)
    (info : List Byte) (s : State) : besideSignals (raiseBy sig n corrected info s) = besideSignals s := by
  simp [raiseBy, keeps, apply_ite besideSignals]

@[simp] theorem besideSignals_setPower (x : PowerState) (s : State) : besideSignals (setPower x s) = besideSignals s :=
  besideSignals_raiseBy besideSignals_signalQuiet _ _ _ _

@[simp] theorem besideSignals_wakeDevice (cause : Nat) (s : State) : besideSignals (wakeDevice cause s) = besideSignals s := by
  unfold wakeDevice
  split
  · rfl
  · split <;> simp [apply_ite besideSignals]

@[simp] theorem besideSignals_signalSource (n : Nat) (s : State) : besideSignals (signalSource n s) = besideSignals s := by
  simp [signalSource, apply_ite besideSignals]

@[simp] theorem besideSignals_raiseWith (n : Nat) (corrected : Bool) (info : List Byte) (s : State) :
    besideSignals (raiseWith n corrected info s) = besideSignals s := besideSignals_raiseBy besideSignals_signalSource n corrected info s

@[simp] theorem besideSignals_raise (n : Nat) (s : State) : besideSignals (raise n s) = besideSignals s := besideSignals_raiseWith n false [] s

@[simp] theorem besideSignals_overflow (b i : Nat) (pc : BitVec 47) (v : BitVec 48) (s : State) :
    besideSignals (overflow b i pc v s) = besideSignals s := by
  unfold overflow
  dsimp only
  split <;> simp

@[simp] theorem besideSignals_addCount (b i n : Nat) (pc : BitVec 47) (s : State) : besideSignals (addCount b i n pc s) = besideSignals s := by
  simp [addCount, apply_ite besideSignals]

@[simp] theorem besideSignals_countOne (b i event n : Nat) (pl : Option Nat) (pc : BitVec 47) (s : State) :
    besideSignals (countOne b i event n pl pc s) = besideSignals s := by
  simp [countOne, apply_ite besideSignals]

@[simp] theorem besideSignals_countEvent (b event n : Nat) (pl : Option Nat) (pc : BitVec 47) (s : State) :
    besideSignals (countEvent b event n pl pc s) = besideSignals s := by
  unfold countEvent
  split
  · rfl
  · exact besideSignals_foldl (fun t i => besideSignals_countOne b i event n pl pc t) _ s

/-! ### Records -/

@[simp] theorem besideSignals_errorReport (k : Nat) (sev : ErrSeverity) (shown : Bool) (s : State) :
    besideSignals (errorReport k sev shown s) = besideSignals s := by
  simp [errorReport, apply_ite besideSignals]

@[simp] theorem besideSignals_aerSignal (k : Nat) (cls : BitVec 2) (incident dw1 : BitVec 32) (s : State) :
    besideSignals (aerSignal k cls incident dw1 s) = besideSignals s := by
  unfold aerSignal
  split <;> simp [aerCorrected, aerUncorrected, aerNote]

@[simp] theorem besideSignals_aerRecord (kind : BitVec 8) (cls : BitVec 2) (stall : Nat) (incident : BitVec 32) (s : State) :
    besideSignals (aerRecord kind cls stall incident s) = besideSignals s := by
  unfold aerRecord
  dsimp only
  split <;> simp

@[simp] theorem besideSignals_pushLog (kind : BitVec 8) (cls : BitVec 2) (stall key : Nat) (incident : BitVec 32) (body : BitVec 256) (s : State) :
    besideSignals (pushLog kind cls stall key incident body s) = besideSignals s := by
  unfold pushLog
  dsimp only
  split
  · rfl
  · split
    · rfl
    · simp

@[simp] theorem besideSignals_record (r : Rec) (s : State) : besideSignals (record r s) = besideSignals s := by
  simp [record, recordIn, allocIncident]

@[simp] theorem besideSignals_recordSeal (r : SealRec) (s : State) : besideSignals (recordSeal r s) = besideSignals s := by
  have incident : ∀ t : State, besideSignals (sealIncident t).2 = besideSignals t := fun t => by
    unfold sealIncident
    split <;> rfl
  simp [recordSeal, incident, apply_ite besideSignals]

end Sys2Proof.Proofs
end

section
/-! SUPPORT. The registers of the cores: fills, evictions, snoops, page-table walks and a frame window that slides leave them as they were. One
equation for each operation, which `simp` chains. -/

namespace Sys2Proof.Proofs

open Sys2Proof Sys2Proof.Machine

/-! ## What caches, homes and translation leave of the registers -/

/-- The architectural registers of the cores in a table. -/
def archs (t : Tbl CoreSt) (k : Nat) : Arch := (Tbl.get t k {}).arch

/-- The architectural registers of every core. -/
def registers (s : State) : Nat → Arch := archs s.cores

@[simp] theorem registers_mk (pending : List Instr) (free : Nat) (od perPath : Tbl Nat) (bagPending : List Nat) (flash : Tbl Nat)
    (serial : List Access) (out : List Out) (mem : Memory) (sram : List Host.Cell) (cores : Tbl CoreSt) (coh : Coh) (mc : McSys) (vm : Vm)
    (stalls : Tbl StallSt) (host : HostEp) (eng : EngSys) (links : Tbl Link) (ports : Tbl Port) (shelves : Tbl Shelf)
    (wakeQueue : List (Nat × Bool)) (ring : RingSys) (irq : Tbl Source) (pwr : Power) (far : Farrier) (side : Side) (boot : Boot) (pmu : Pmu)
    (tap : Tap) (rein : Tbl ReinSt) :
    registers ⟨pending, free, od, perPath, bagPending, flash, serial, out, mem, sram, cores, coh, mc, vm, stalls, host, eng, links, ports,
      shelves, wakeQueue, ring, irq, pwr, far, side, boot, pmu, tap, rein⟩ = archs cores := rfl

@[simp] theorem archs_cores (s : State) : archs s.cores = registers s := rfl

/-- Signals, counts and records leave the registers. -/
theorem registers_of_besideSignals {s t : State} (same : besideSignals t = besideSignals s) : registers t = registers s :=
  funext fun k => congrArg CoreSt.arch (core_of_besideSignals same k)

theorem registers_foldl {α : Type} {f : State → α → State} (keeps : ∀ t x, registers (f t x) = registers t) (l : List α) (s : State) :
    registers (l.foldl f s) = registers s :=
  List.foldlRecOn l f (motive := fun t => registers t = registers s) rfl fun t same x _ => (keeps t x).trans same

/-- A change of one core that is none of its registers leaves every core's. -/
theorem registers_setCore {s : State} {k : Nat} {x : CoreSt} (same : x.arch = (s.core k).arch) : registers (s.setCore k x) = registers s := by
  funext j
  show ((s.setCore k x).core j).arch = (s.core j).arch
  rw [State.setCore_core]
  split
  · rw [same, ‹j = k›]
  · rfl

@[simp] theorem registers_took (s : State) : registers s.took = registers s := rfl
@[simp] theorem registers_odBump (i j : Nat) (s : State) : registers (odBump i j s) = registers s := rfl
@[simp] theorem registers_setTile (s : State) (t : Nat) (x : Tile) : registers (s.setTile t x) = registers s := rfl
@[simp] theorem registers_setSlice (s : State) (k : Nat) (x : Slice) : registers (s.setSlice k x) = registers s := rfl
@[simp] theorem registers_setChannel (s : State) (c : Nat) (x : Channel) : registers (s.setChannel c x) = registers s := rfl
@[simp] theorem registers_record (r : Rec) (s : State) : registers (record r s) = registers s := registers_of_besideSignals (by simp)
@[simp] theorem registers_recordSeal (r : SealRec) (s : State) : registers (recordSeal r s) = registers s := registers_of_besideSignals (by simp)
@[simp] theorem registers_countEvent (b event n : Nat) (pl : Option Nat) (pc : BitVec 47) (s : State) :
    registers (countEvent b event n pl pc s) = registers s := registers_of_besideSignals (by simp)
@[simp] theorem registers_countHome (line event n : Nat) (s : State) : registers (countHome line event n s) = registers s :=
  registers_of_besideSignals (besideSignals_countUncore _ _ _ _)
@[simp] theorem registers_lookup (line : Nat) (s : State) : registers (lookup line s) = registers s := registers_countHome line 1 1 s

/-! ### The home of a line -/

@[simp] theorem registers_closePatrol (sec : Nat) (poisoned : Bool) (s : State) : registers (closePatrol sec poisoned s) = registers s := by
  unfold closePatrol
  dsimp only
  split <;> simp

@[simp] theorem registers_countLost (sec : Nat) (s : State) : registers (countLost sec s) = registers s := by simp [countLost]
@[simp] theorem registers_putSector (sec : Nat) (x : Sector) (s : State) : registers (putSector sec x s) = registers s := rfl
@[simp] theorem registers_dropSector (sec : Nat) (s : State) : registers (dropSector sec s) = registers s := rfl
@[simp] theorem registers_poisonMem (sec : Nat) (s : State) : registers (poisonMem sec s) = registers s := by simp [poisonMem]
@[simp] theorem registers_countNoAlloc (sec : Nat) (s : State) : registers (countNoAlloc sec s) = registers s := rfl

@[simp] theorem registers_touchSector (sec : Nat) (s : State) : registers (touchSector sec s) = registers s := by
  simp [touchSector, apply_ite registers]

@[simp] theorem registers_memWriteSub (line : Nat) (ws : List TWord) (s : State) : registers (memWriteSub line ws s) = registers s := by
  simp [memWriteSub, apply_ite registers]

@[simp] theorem registers_writeBackSector (sec : Nat) (x : Sector) (s : State) : registers (writeBackSector sec x s) = registers s := by
  unfold writeBackSector
  dsimp only
  split
  · rfl
  · split <;> simp

@[simp] theorem registers_evictSector (sec : Nat) (s : State) : registers (evictSector sec s) = registers s := by
  unfold evictSector
  split <;> simp

@[simp] theorem registers_allocSector (a : Attr) (sec : Nat) (valid dirty : BitVec 4) (ws : List TWord) (sl : Word) (s : State) :
    registers (allocSector a sec valid dirty ws sl s).2 = registers s := by
  unfold allocSector
  split
  · rfl
  · dsimp only
    split <;> simp

@[simp] theorem registers_poisonSpan (sec : Nat) (s : State) : registers (poisonSpan sec s) = registers s := by
  unfold poisonSpan
  dsimp only
  split <;> simp

@[simp] theorem registers_checkFill (sec : Nat) (s : State) : registers (checkFill sec s) = registers s := by
  simp [checkFill, apply_ite registers]

@[simp] theorem registers_rebased (sec : Nat) (y : Sector) (s : State) : registers (rebased sec y s) = registers s := by
  simp [rebased, apply_ite registers]

@[simp] theorem registers_fetchSub (line : Nat) (s : State) : registers (fetchSub line s) = registers s := by
  unfold fetchSub
  dsimp only
  split <;> simp [apply_ite registers]

@[simp] theorem registers_fillLine (a : Attr) (line : Nat) (s : State) : registers (fillLine a line s) = registers s := by
  unfold fillLine
  dsimp only
  split
  · split
    · simp
    · split
      · split <;> simp
      · simp
  · simp [apply_ite registers]

@[simp] theorem registers_fillHome (a : Attr) (line : Nat) (s : State) : registers (fillHome a line s) = registers s := by
  simp [fillHome, apply_ite registers]

@[simp] theorem registers_homeWrite (a : Attr) (line : Nat) (ws : List TWord) (s : State) : registers (homeWrite a line ws s) = registers s := by
  unfold homeWrite
  dsimp only
  split <;> simp [apply_ite registers]

/-! ### Directory, tiles and snoops -/

@[simp] theorem registers_setDir (line : Nat) (d : DirEntry) (s : State) : registers (setDir line d s) = registers s := rfl
@[simp] theorem registers_clearDir (line : Nat) (s : State) : registers (clearDir line s) = registers s := rfl
@[simp] theorem registers_setL2 (t line : Nat) (st : L2State) (s : State) : registers (setL2 t line st s) = registers s := rfl
@[simp] theorem registers_dropL2 (t line : Nat) (s : State) : registers (dropL2 t line s) = registers s := rfl
@[simp] theorem registers_touchL2 (t line : Nat) (s : State) : registers (touchL2 t line s) = registers s := rfl

@[simp] theorem registers_dropL1 (t line : Nat) (s : State) : registers (dropL1 t line s) = registers s := by
  unfold dropL1
  split
  · exact registers_setCore rfl
  · rfl

theorem registers_flushFrame {t line : Nat} {s u : State} (flushed : flushFrame t line s = some u) : registers u = registers s := by
  unfold flushFrame at flushed
  split at flushed
  · cases flushed
  · dsimp only at flushed
    split at flushed
    · cases flushed
    · cases flushed
      exact registers_setCore rfl

@[simp] theorem registers_flushFrame_getD (t line : Nat) (s : State) : registers ((flushFrame t line s).getD s) = registers s := by
  cases flushed : flushFrame t line s with
  | none => rfl
  | some u => exact registers_flushFrame flushed

@[simp] theorem registers_frameSnoop (t line : Nat) (s : State) : registers (frameSnoop t line s) = registers s := by
  unfold frameSnoop
  split
  · rename_i flushed _
    simp [registers_flushFrame flushed]
  · rfl

@[simp] theorem registers_snoopAwake (k : Snoop) (t line : Nat) (s : State) : registers (snoopAwake k t line s).2 = registers s := by
  unfold snoopAwake
  dsimp only
  split
  · split <;> simp
  · split <;> simp

@[simp] theorem registers_applyNap (t : Nat) (s : State) : registers (applyNap t s) = registers s :=
  (registers_foldl (fun u (e : Nat × Nat) => registers_snoopAwake (snoopOfCode e.2) t e.1 u) _ _).trans rfl

@[simp] theorem registers_snoopTile (k : Snoop) (t line : Nat) (s : State) : registers (snoopTile k t line s).2 = registers s := by
  simp [snoopTile, apply_ite Prod.snd, apply_ite registers]

@[simp] theorem registers_noteDropped (t line : Nat) (ans : SnoopAns) (s : State) : registers (noteDropped t line ans s) = registers s := by
  unfold noteDropped
  split <;> rfl

@[simp] theorem registers_settleLine (a : Attr) (line : Nat) (s : State) : registers (settleLine a line s) = registers s := by
  unfold settleLine
  split <;> simp

@[simp] theorem registers_snoopAll (k : Snoop) (ts : List Nat) (line : Nat) (s : State) : registers (snoopAll k ts line s).2 = registers s := by
  induction ts generalizing s with
  | nil => rfl
  | cons t r ih => simp [snoopAll, ih]

/-! ### Whole transactions -/

@[simp] theorem registers_dirReplace (a : Attr) (line : Nat) (s : State) : registers (dirReplace a line s) = registers s := by
  unfold dirReplace
  dsimp only
  split
  · rfl
  · split
    · rfl
    · split <;> simp

@[simp] theorem registers_evictL2 (a : Attr) (t line : Nat) (s : State) : registers (evictL2 a t line s) = registers s := by
  unfold evictL2
  split
  · rfl
  · dsimp only
    split <;> simp [apply_ite registers]

@[simp] theorem registers_installL2 (a : Attr) (t line : Nat) (st : L2State) (s : State) : registers (installL2 a t line st s) = registers s := by
  unfold installL2
  split <;> simp

@[simp] theorem registers_acquireShared (a : Attr) (t line : Nat) (s : State) : registers (acquireShared a t line s) = registers s := by
  unfold acquireShared
  split
  · simp
  · dsimp only
    split <;> simp [apply_ite registers]

@[simp] theorem registers_recallLine (a : Attr) (line : Nat) (s : State) : registers (recallLine a line s) = registers s := by
  unfold recallLine
  split <;> simp

@[simp] theorem registers_cleanLine (a : Attr) (line : Nat) (s : State) : registers (cleanLine a line s) = registers s := by
  unfold cleanLine
  split
  · simp
  · simp [apply_ite registers]

/-! ### Translation -/

/-- A computation leaves the registers. -/
def KeepsRegisters {ε α : Type} (m : ExceptT ε (StateM State) α) : Prop := ∀ s, registers (m.run s).2 = registers s

theorem keepsRegisters_bind {ε α β : Type} {m : ExceptT ε (StateM State) α} {f : α → ExceptT ε (StateM State) β} (first : KeepsRegisters m)
    (second : ∀ v, KeepsRegisters (f v)) : KeepsRegisters (m >>= f) := by
  intro s
  have kept := first s
  rw [run_bind]
  split
  · rename_i v t ran
    rw [ran] at kept
    exact (second v t).trans kept
  · rename_i x t ran
    rw [ran] at kept
    exact kept

@[simp] theorem registers_walkRead (unit : Option Nat) (stall ea : Nat) (s : State) : registers (walkRead unit stall ea s).2 = registers s := by
  unfold walkRead
  cases unit <;> simp

theorem walkFrom_keepsRegisters (unit : Option Nat) (stall va level ptr fuel : Nat) (seen : List (Nat × Nat)) (lastE lastL : Nat) :
    KeepsRegisters (walkFrom unit stall va level ptr fuel seen lastE lastL) := by
  induction fuel generalizing level ptr seen lastE lastL with
  | zero => exact fun s => rfl
  | succ fuel ih =>
    intro s
    have again : ∀ level ptr seen lastE lastL t, registers ((walkFrom unit stall va level ptr fuel seen lastE lastL).run t).2 = registers t :=
      fun level ptr seen lastE lastL t => ih level ptr seen lastE lastL t
    simp [walkFrom, run_bind, run_get, run_set, run_ite, run_throw, run_pure, again, apply_ite Prod.snd, apply_ite registers]

@[simp] theorem registers_setEntry (stall entry : Nat) (old : TWord) (v : Word) (s : State) :
    registers (setEntry stall entry old v s).2 = registers s := by
  simp [setEntry, apply_ite Prod.snd, apply_ite registers]

@[simp] theorem registers_fillTlb (c va : Nat) (leaf : Word) (tables : List (Nat × Nat)) (s : State) :
    registers (fillTlb c va leaf tables s) = registers s := by
  simp [fillTlb, registers_setCore]

theorem finishWalk_keepsRegisters (c va : Nat) (k : AccKind) (w : WalkOk) : KeepsRegisters (finishWalk c va k w) := by
  intro s
  unfold finishWalk
  rw [run_bind, run_get]
  dsimp only
  split
  · rfl
  · simp only [run_bind, run_set, run_ite, run_throw, run_pure, apply_ite Prod.snd, apply_ite registers]
    simp

theorem coreWalk_keepsRegisters (c va : Nat) (k : AccKind) (start : Nat × Nat) (fuel : Nat) : KeepsRegisters (coreWalk c va k start fuel) := by
  induction fuel generalizing start with
  | zero => exact fun s => rfl
  | succ fuel ih =>
    refine keepsRegisters_bind (fun s => rfl) fun s => keepsRegisters_bind (walkFrom_keepsRegisters _ _ _ _ _ _ _ _ _) fun w =>
      keepsRegisters_bind (finishWalk_keepsRegisters c va k w) fun r => ?_
    cases r with
    | some x => exact fun s => rfl
    | none => exact keepsRegisters_bind (fun s => rfl) fun _ => ih _

theorem translate_keepsRegisters (c va : Nat) (k : AccKind) : KeepsRegisters (Machine.translate c va k) := by
  have walk : ∀ start s, registers ((coreWalk c va k start 8).run s).2 = registers s := fun start => coreWalk_keepsRegisters c va k start 8
  intro s
  unfold Machine.translate
  rw [run_bind, run_get]
  dsimp only
  split
  · rfl
  · split
    · split <;> rfl
    · split
      · split
        · rfl
        · split
          · exact walk _ s
          · rfl
      · exact walk _ s

/-! ### The frame window -/

@[simp] theorem registers_nameLine (c vline line : Nat) (s : State) : registers (nameLine c vline line s) = registers s := registers_setCore rfl

@[simp] theorem registers_enterLine (c vline : Nat) (s : State) : registers (enterLine c vline s) = registers s := by
  have translated := translate_keepsRegisters c (64 * vline) {} s
  unfold enterLine
  split
  · rfl
  · rename_i x s1 ran
    rw [ran] at translated
    dsimp only at translated ⊢
    split
    · rfl
    · simp [apply_ite registers, registers_setCore, translated]

@[simp] theorem registers_leaveLines (c : Nat) (out : List Nat) (s : State) : registers (leaveLines c out s) = registers s :=
  registers_foldl (fun t l => by simp [apply_ite registers]) out s

/-- A window that slides changes no register. -/
@[simp] theorem registers_slideFrame (c : Nat) (s : State) : registers (slideFrame c s) = registers s := by
  unfold slideFrame coreEvent
  dsimp only
  split
  · rfl
  · have entered : ∀ (l : List Nat) (t : State), registers (l.foldl (fun st v => enterLine c v st) t) = registers t :=
      registers_foldl fun t v => registers_enterLine c v t
    simp [apply_ite registers, entered, registers_setCore]

end Sys2Proof.Proofs
end

section
/-! SUPPORT. The frame of the integer instructions on registers (R172, R197, R198, R227): what a register destination changes of a core, what
retirement adds, and the settling of the obligation. -/

namespace Sys2Proof.Proofs

open Sys2Proof Sys2Proof.Machine

/-! ## What an instruction with a register destination changes -/

/-- Beside the registers that an operand names, SW and PC, the registers of one core are the same. -/
def ArchKept (d : Opd) (a b : Arch) : Prop :=
  (∀ r, Opd.isP d r = false → b.pReg r = a.pReg r) ∧ (∀ r, Opd.isX d r = false → b.xReg r = a.xReg r) ∧
    (∀ r w, w < 8 → Opd.isF d r = false → b.vWord r w = a.vWord r w) ∧
    b = { a with p := b.p, x := b.x, v := b.v, sw := b.sw, pc := b.pc }

theorem archKept_refl (d : Opd) (a : Arch) : ArchKept d a a := ⟨fun _ _ => rfl, fun _ _ => rfl, fun _ _ _ _ => rfl, rfl⟩

theorem archKept_trans {d : Opd} {a b c : Arch} (ab : ArchKept d a b) (bc : ArchKept d b c) : ArchKept d a c := by
  obtain ⟨p, x, v, rest⟩ := ab
  obtain ⟨p', x', v', rest'⟩ := bc
  refine ⟨fun r other => (p' r other).trans (p r other), fun r other => (x' r other).trans (x r other),
    fun r w word other => (v' r w word other).trans (v r w word other), ?_⟩
  rw [rest', rest]

theorem archKept_sw (d : Opd) (a : Arch) (w : BitVec 64) : ArchKept d a { a with sw := w } :=
  ⟨fun _ _ => rfl, fun _ _ => rfl, fun _ _ _ _ => rfl, rfl⟩

theorem archKept_pc (d : Opd) (a : Arch) (pc : BitVec 47) : ArchKept d a { a with pc := pc } :=
  ⟨fun _ _ => rfl, fun _ _ => rfl, fun _ _ _ _ => rfl, rfl⟩

theorem archKept_setP {k : Fin 16} (a : Arch) (v : TWord) : ArchKept (.p k) a (a.setP k.val v) := by
  refine ⟨fun r other => ?_, fun _ _ => rfl, fun _ _ _ _ => rfl, rfl⟩
  have apart : r ≠ k.val := fun same => by simp [Opd.isP, same] at other
  exact (Tbl.get_set _ _ _ _ _).trans (if_neg apart)

theorem archKept_setX {k : BitVec 4} (a : Arch) (v : TWord) : ArchKept (.x k) a (a.setX k.toNat v) := by
  refine ⟨fun _ _ => rfl, fun r other => ?_, fun _ _ _ _ => rfl, rfl⟩
  have apart : r ≠ k.toNat := fun same => by simp [Opd.isX, same] at other
  exact (Tbl.get_set _ _ _ _ _).trans (if_neg apart)

theorem archKept_setVWord {k : Fin 32} {w : Nat} (word : w < 8) (a : Arch) (v : TWord) : ArchKept (.f k) a (a.setVWord k.val w v) := by
  refine ⟨fun _ _ => rfl, fun _ _ => rfl, fun r u inside other => ?_, rfl⟩
  have apart : r ≠ k.val := fun same => by simp [Opd.isF, same] at other
  have keys : 8 * r + u ≠ 8 * k.val + w := by omega
  exact (Tbl.get_set _ _ _ _ _).trans (if_neg keys)

/-- A scalar result in F n changes the words of V n alone (R197). -/
theorem archKept_setF {k : Fin 32} (a : Arch) (v : TWord) : ArchKept (.f k) a (a.setF k.val v) :=
  List.foldlRecOn (List.range 7) _ (motive := ArchKept (.f k) a) (archKept_setVWord (by decide) a v) fun b kept w inRange =>
    archKept_trans kept (archKept_setVWord (by have := List.mem_range.mp inRange; omega) b _)

/-- The registers once the register that an operand names holds a word. -/
def putRegister (d : Opd) (v : TWord) (a : Arch) : Arch :=
  match d with
  | .p k => a.setP k.val v
  | .x k => a.setX k.toNat v
  | .f k => a.setF k.val v
  | _ => a

theorem archKept_putRegister (d : Opd) (v : TWord) (a : Arch) : ArchKept d a (putRegister d v a) := by
  cases d with
  | p k => exact archKept_setP a v
  | x k => exact archKept_setX a v
  | f k => exact archKept_setF a v
  | _ => exact archKept_refl _ a

/-- Between two states a core's registers may have changed where `d`, SW and PC are; its frame window has its place, and of everything else
only what `OnlyRegister` leaves open. -/
def RegisterStep (c : Nat) (d : Opd) (s t : State) : Prop :=
  ArchKept d (s.core c).arch (t.core c).arch ∧ OnlyRegister c s t ∧ (t.core c).frameAt = (s.core c).frameAt

theorem onlyRegister_trans {c : Nat} {s t u : State} (st : OnlyRegister c s t) (tu : OnlyRegister c t u) : OnlyRegister c s u := by
  obtain ⟨mem, sram, coh, mc, vm, others, stores, frame⟩ := st
  obtain ⟨mem', sram', coh', mc', vm', others', stores', frame'⟩ := tu
  exact ⟨mem'.trans mem, sram'.trans sram, coh'.trans coh, mc'.trans mc, vm'.trans vm, fun k other => (others' k other).trans (others k other),
    stores'.trans stores, frame'.trans frame⟩

theorem registerStep_trans {c : Nat} {d : Opd} {s t u : State} (st : RegisterStep c d s t) (tu : RegisterStep c d t u) :
    RegisterStep c d s u := by
  obtain ⟨kept, only, window⟩ := st
  obtain ⟨kept', only', window'⟩ := tu
  exact ⟨archKept_trans kept kept', onlyRegister_trans only only', window'.trans window⟩

/-- A change of the instruction's core alone. -/
theorem registerStep_setCore {c : Nat} {d : Opd} {s : State} {x : CoreSt} (arch : ArchKept d (s.core c).arch x.arch)
    (stores : x.storeBuf = (s.core c).storeBuf) (frame : x.frameRegs = (s.core c).frameRegs) (window : x.frameAt = (s.core c).frameAt) :
    RegisterStep c d s (s.setCore c x) := by
  have own : (s.setCore c x).core c = x := (State.setCore_core s c x c).trans (if_pos rfl)
  have others : ∀ k, k ≠ c → (s.setCore c x).core k = s.core k := fun k other => (State.setCore_core s c x k).trans (if_neg other)
  unfold RegisterStep OnlyRegister
  rw [own]
  exact ⟨arch, ⟨rfl, rfl, rfl, rfl, rfl, others, stores, frame⟩, window⟩

theorem registerStep_setArch {c : Nat} {d : Opd} {s : State} {f : Arch → Arch} (arch : ArchKept d (s.core c).arch (f (s.core c).arch)) :
    RegisterStep c d s (s.setArch c f) := registerStep_setCore arch rfl rfl rfl

/-- Signals, counts and records change no register. -/
theorem registerStep_of_besideSignals {c : Nat} {d : Opd} {s t : State} (same : besideSignals t = besideSignals s) : RegisterStep c d s t := by
  have core := core_of_besideSignals same
  unfold RegisterStep OnlyRegister
  rw [core c]
  obtain ⟨mem, sram, coh, mc, vm, -, -, -⟩ := units_of_besideSignals same
  exact ⟨archKept_refl d _, ⟨mem, sram, coh, mc, vm, fun k _ => core k, rfl, rfl⟩, rfl⟩

/-! ## Retirement -/

/-- Training the prefetchers changes their streams alone (R186). -/
theorem trainStreams_foldl (l : List (Nat × Bool)) (cs : CoreSt) :
    l.foldl trainStreams cs =
      { cs with streamsL1 := (l.foldl trainStreams cs).streamsL1, streamsL2 := (l.foldl trainStreams cs).streamsL2 } := by
  refine List.foldlRecOn l trainStreams (b := cs) (motive := fun x => x = { cs with streamsL1 := x.streamsL1, streamsL2 := x.streamsL2 }) rfl
    fun x same y _ => ?_
  rw [same]
  rfl

/-- Counting a retirement changes no register and no window. -/
theorem registerStep_countRetired (e : Env) (d : Opd) (s : State) : RegisterStep e.c d s (countRetired e s) := by
  refine registerStep_trans (t := s.setCore e.c _) (registerStep_setCore ?arch ?stores ?frame ?window)
    (registerStep_of_besideSignals (besideSignals_foldl (fun t ev => besideSignals_countEvent e.c ev 1 (some e.pl) e.pc t) _ _))
  case arch =>
    rw [trainStreams_foldl]
    exact archKept_refl d _
  all_goals rw [trainStreams_foldl]

theorem slideFrame_unmoved {c : Nat} {s : State} (stays : (s.core c).frameAt = some ((s.core c).arch.pReg 13)) : slideFrame c s = s :=
  if_pos stays

theorem besideSignals_toRun (s : State) : besideSignals (toRun s) = besideSignals s := by
  simp [toRun, apply_ite besideSignals]

/-- The state after an instruction's end and before its frame window slides: PC has moved on. -/
def pcMoved (a : At) (len : Nat) (npc : BitVec 47) (s t : State) : State :=
  (countRetired (envOf s a.core.val len) t).setArch a.core.val (fun b => { b with pc := npc })

theorem registerStep_pcMoved (a : At) (len : Nat) (npc : BitVec 47) (d : Opd) (s t : State) :
    RegisterStep a.core.val d t (pcMoved a len npc s t) :=
  registerStep_trans (registerStep_countRetired (envOf s a.core.val len) d t) (registerStep_setArch (archKept_pc d _ npc))

section
variable {a : At} {len : Nat} {npc : BitVec 47} {d : Opd} {s s0 t : State} (noStep : swSs (s.core a.core.val).arch.sw = false)
include noStep

theorem ended_unstepped : ended a len npc s t = toRun (slideFrame a.core.val (pcMoved a len npc s t)) := by
  unfold ended retire
  rw [noStep]
  rfl

/-- An instruction that has changed a register retires with the registers beside it, SW and PC as they were. -/
theorem ended_registersKept (body : RegisterStep a.core.val d s0 t) : RegistersKept a.core.val d s0 (ended a len npc s t) := by
  obtain ⟨kept, only, -⟩ := registerStep_trans body (registerStep_pcMoved a len npc d s t)
  obtain ⟨-, -, -, -, -, others, -, -⟩ := only
  have same : registers (ended a len npc s t) = registers (pcMoved a len npc s t) := by
    rw [ended_unstepped noStep, registers_of_besideSignals (besideSignals_toRun _), registers_slideFrame]
  have core : ∀ k, ((ended a len npc s t).core k).arch = ((pcMoved a len npc s t).core k).arch := congrFun same
  refine ⟨fun k other => (core k).trans (congrArg CoreSt.arch (others k other)), ?_⟩
  rw [core]
  exact kept

/-- Where its frame window stays, nothing but its registers has changed. -/
theorem ended_onlyRegister (body : RegisterStep a.core.val d s0 t) (stays : WindowStays a.core.val d s0) :
    OnlyRegister a.core.val s0 (ended a len npc s t) := by
  obtain ⟨⟨pointers, -⟩, only, window⟩ := registerStep_trans body (registerStep_pcMoved a len npc d s t)
  obtain ⟨placed, other⟩ := stays
  have unmoved : slideFrame a.core.val (pcMoved a len npc s t) = pcMoved a len npc s t :=
    slideFrame_unmoved (by rw [window, placed, pointers 13 other])
  rw [ended_unstepped noStep, unmoved]
  obtain ⟨-, run, -⟩ := registerStep_of_besideSignals (c := a.core.val) (d := d) (besideSignals_toRun (pcMoved a len npc s t))
  exact onlyRegister_trans only run

/-- An instruction that starts, and whose body changes a register at most, completes with its frame. -/
theorem runInstr_frame {legal : Bool} {level : Nat} {body : Env → CoreRun (BitVec 47)} (starts : Starts a len legal level s s0)
    (runs : Yields (body (envOf s a.core.val len)) s0 npc t) (step : RegisterStep a.core.val d s0 t) {i : Instr}
    (row : exec i s = runInstr a len legal level body s) :
    Completes i s (fun t => RegistersKept a.core.val d s0 t ∧ (WindowStays a.core.val d s0 → OnlyRegister a.core.val s0 t)) :=
  ⟨_, row.trans (runInstr_ends starts runs), ended_registersKept noStep step, ended_onlyRegister noStep step⟩

end

/-! ## Operands in registers and immediates -/

/-- The place of an operand that is a register or an immediate. -/
def regPlace (o : Opd) : Place :=
  match o with
  | .p r => .p r.val
  | .x r => .x r.toNat
  | .f r => .f r.val
  | .imm4 v => .imm (v.signExtend 64)
  | .imm n v => .imm (immVal n v)
  | _ => .imm 0

theorem isRegImm_of_isReg {o : Opd} (reg : Opd.isReg o = true) : Opd.isRegImm o = true := by
  cases o with
  | p _ | x _ | f _ => rfl
  | _ => cases reg

theorem formOpd_regImm {o : Opd} (reg : Opd.isRegImm o = true) (e : Env) (k n : Nat) (kind : AccKind) (s : State) :
    (formOpd e k n kind o).run s = (.ok (regPlace o), s) := by
  cases o with
  | p _ | x _ | f _ | imm4 _ | imm _ _ => rfl
  | _ => cases reg

/-- Reading a register or an immediate changes nothing. -/
theorem readPlace_regPlace (o : Opd) (e : Env) (k n : Nat) (fp : Bool) (s : State) :
    ∃ y, (readPlace e k n fp (regPlace o)).run s = (.ok y, s) := by
  cases o <;> exact ⟨_, rfl⟩

theorem writePlace_register {d : Opd} (reg : Opd.isReg d = true) (e : Env) (n : Nat) (v : Word) (t : Tag) (s : State) :
    (writePlace e n (regPlace d) v t).run s = (.ok (), s.setArch e.c (putRegister d ⟨lowBytes n v, t⟩)) := by
  cases d with
  | p _ | x _ | f _ => rfl
  | _ => cases reg

theorem regPlace_takes (o : Opd) (t : Tag) : (regPlace o).takes t = true := by
  cases o <;> rfl

section
variable {e : Env} {n m : Nat} {k0 k1 : AccKind} {fp : Bool} {d o : Opd} {s s1 : State} {pd ps : Place} {x y : Src}

/-- Two operands that are registers or immediates: what reading them yields. -/
theorem bothRead_regImm (dst : Opd.isRegImm d = true) (src : Opd.isRegImm o = true)
    (reads : Yields (bothRead e n k0 k1 fp d o) s ((pd, ps), (x, y)) s1) :
    (readPlace e 0 n fp (regPlace d)).run s = (.ok x, s) ∧ (readPlace e 1 n fp (regPlace o)).run s = (.ok y, s) := by
  obtain ⟨x', readX⟩ := readPlace_regPlace d e 0 n fp s
  obtain ⟨y', readY⟩ := readPlace_regPlace o e 1 n fp s
  simp only [Yields, bothRead, run_bind, run_pure, formOpd_regImm dst, formOpd_regImm src, readX, readY] at reads
  cases reads
  exact ⟨readX, readY⟩

/-- A register destination and a source that is a register or an immediate: where they are, and what reading the source yields. -/
theorem destSource_regImm (dst : Opd.isRegImm d = true) (src : Opd.isRegImm o = true)
    (reads : Yields (destSource e n m fp d o) s (pd, ps, y) s1) :
    pd = regPlace d ∧ ps = regPlace o ∧ (readPlace e 1 m fp (regPlace o)).run s = (.ok y, s) := by
  obtain ⟨y', readY⟩ := readPlace_regPlace o e 1 m fp s
  simp only [Yields, destSource, run_bind, run_pure, formOpd_regImm dst, formOpd_regImm src, readY] at reads
  cases reads
  exact ⟨rfl, rfl, readY⟩

/-- Writing a register, then SW. -/
theorem registerStep_result (c : Nat) (d : Opd) (v : TWord) (g : BitVec 64 → BitVec 64) (s : State) :
    RegisterStep c d s ((s.setArch c (putRegister d v)).setArch c (fun b => { b with sw := g b.sw })) :=
  registerStep_trans (registerStep_setArch (archKept_putRegister d v _)) (registerStep_setArch (archKept_sw d _ _))

/-- dst ← dst op src on registers writes the destination and SW. -/
theorem aluBody_regImm {op : Alu} (dst : Opd.isReg d = true) (src : Opd.isRegImm o = true)
    (reads : Yields (bothRead e n { write := true } {} false d o) s ((pd, ps), (x, y)) s1) (x_ok : x.passes (accepts0 op n) = true)
    (y_ok : y.passes (accepts1 op n x.tag) = true) (divides : dividesByZero op (8 * n) y.val.toNat = false) :
    ∃ t, Yields (aluBody op n d o e) s e.npc t ∧ RegisterStep e.c d s t := by
  have dst' := isRegImm_of_isReg dst
  obtain ⟨readX, readY⟩ := bothRead_regImm dst' src reads
  simp only [Yields, aluBody, run_bind, formOpd_regImm dst', formOpd_regImm src, readX, readY, run_checkSrc x_ok, run_checkSrc y_ok,
    run_checkDst (regPlace_takes d _), divides, Bool.false_eq_true, if_false]
  split
  · simp only [run_bind, run_takeFree, run_getArch, writePlace_register dst, run_changeArch]
    exact ⟨_, rfl, registerStep_trans (t := s.took) (registerStep_of_besideSignals rfl) (registerStep_result _ _ _ _ _)⟩
  · simp only [run_bind, run_pure, run_getArch, writePlace_register dst, run_changeArch]
    exact ⟨_, rfl, registerStep_result _ _ _ _ _⟩

/-- A compare of registers changes SW alone. -/
theorem compareBody_regImm {op : Alu} (first : Opd.isRegImm d = true) (second : Opd.isRegImm o = true)
    (reads : Yields (bothRead e n {} {} false d o) s ((pd, ps), (x, y)) s1) (x_ok : x.passes comparable = true)
    (y_ok : y.passes comparable = true) :
    ∃ t, Yields (compareBody op n d o e) s e.npc t ∧ RegisterStep e.c (.imm4 0) s t := by
  obtain ⟨readX, readY⟩ := bothRead_regImm first second reads
  simp only [Yields, compareBody, run_bind, formOpd_regImm first, formOpd_regImm second, readX, readY, run_checkSrc x_ok, run_checkSrc y_ok,
    run_changeArch]
  exact ⟨_, rfl, registerStep_setArch (archKept_sw _ _ _)⟩

/-- A move to a register writes it alone. -/
theorem moveBody_regImm (dst : Opd.isReg d = true) (src : Opd.isRegImm o = true)
    (reads : Yields (destSource e n n false d o) s (pd, ps, y) s1) (ok : (transparent n pd ps || y.passes isIntTag) = true) :
    ∃ t, Yields (moveBody false n d o e) s e.npc t ∧ RegisterStep e.c d s t := by
  have dst' := isRegImm_of_isReg dst
  obtain ⟨rfl, rfl, readY⟩ := destSource_regImm dst' src reads
  refine ⟨s.setArch e.c (putRegister d ⟨lowBytes n y.val, y.tag⟩), ?_, registerStep_setArch (archKept_putRegister d _ _)⟩
  unfold transparent at ok
  simp only [Yields, moveBody, run_bind, formOpd_regImm dst', formOpd_regImm src, readY]
  cases clear : decide (n = 8) && (regPlace d).whole && (regPlace o).whole with
  | true =>
    simp only [Bool.not_true, Bool.false_eq_true, if_false, run_bind, run_pure, run_checkDst (regPlace_takes d _), writePlace_register dst]
  | false =>
    rw [clear, Bool.false_or] at ok
    simp only [Bool.not_false, if_true, Bool.false_eq_true, if_false, run_bind, run_pure, run_checkSrc ok, run_checkDst (regPlace_takes d _),
      writePlace_register dst]

end

/-! ## The obligation -/

/-- The instructions dst ← dst op src, with their operations (R227). -/
def aluRows : List ((At → Sz → Opd → Opd → Instr) × Alu) :=
  [(Instr.add, Alu.add), (Instr.sub, Alu.sub), (Instr.and, Alu.and), (Instr.or, Alu.or), (Instr.xor, Alu.xor),
    (Instr.adc, Alu.adc), (Instr.sbb, Alu.sbb), (Instr.shl, Alu.shl), (Instr.shr, Alu.shr), (Instr.sar, Alu.sar),
    (Instr.rol, Alu.rol), (Instr.mul, Alu.mul), (Instr.mulh, Alu.mulh), (Instr.div, Alu.div), (Instr.divu, Alu.divu)]

theorem exec_aluRow {p : (At → Sz → Opd → Opd → Instr) × Alu} (row : p ∈ aluRows) (a : At) (z : Sz) (d o : Opd) (s : State) :
    exec (p.1 a z d o) s = aluInstr p.2 a z d o s := by
  simp only [aluRows, List.mem_cons, List.not_mem_nil, or_false] at row
  rcases row with rfl | rfl | rfl | rfl | rfl | rfl | rfl | rfl | rfl | rfl | rfl | rfl | rfl | rfl | rfl <;> rfl

/-- Settles O50: the body of each instruction writes its register and SW at most, and what retires is that, with the window where it stays. -/
theorem registerFormsFrame : Obligations.RegisterFormsFrame := by
  refine ⟨?alu, ?compare, ?move⟩
  case alu =>
    intro p row a z d o s s0 pd ps x y len e n starts dst src reads x_ok y_ok divides noStep
    obtain ⟨t, runs, step⟩ := aluBody_regImm dst src reads x_ok y_ok divides
    exact runInstr_frame noStep starts runs step (exec_aluRow row a z d o s)
  case compare =>
    intro p row a z d o s s0 pd ps x y len starts first second reads x_ok y_ok noStep
    have either : p = Instr.cmp ∨ p = Instr.tst := by simpa using row
    rcases either with rfl | rfl
    · obtain ⟨t, runs, step⟩ := compareBody_regImm (op := .sub) first second reads x_ok y_ok
      exact runInstr_frame noStep starts runs step rfl
    · obtain ⟨t, runs, step⟩ := compareBody_regImm (op := .and) first second reads x_ok y_ok
      exact runInstr_frame noStep starts runs step rfl
  case move =>
    intro a z d o s s0 pd ps y len starts dst src reads ok noStep
    obtain ⟨t, runs, step⟩ := moveBody_regImm dst src reads ok
    exact runInstr_frame noStep starts runs step rfl

end Sys2Proof.Proofs
end

section
/-! SUPPORT. Stores to normal memory (R180, R204, R209, R221): what joining the store buffer leaves, and the settling of the obligation. -/

namespace Sys2Proof.Proofs

open Sys2Proof Sys2Proof.Machine

/-- The state once a store has joined a core's store buffer. -/
def storeBuffered (c : Nat) (en : StoreEntry) (s : State) : State :=
  s.setCore c { s.core c with storeBuf := (s.core c).storeBuf ++ [en] }

/-- A store of a core that is not in Walk joins a store buffer with room (R180, R192). -/
theorem pushStore_room {e : Env} {s : State} (en : StoreEntry) (room : (s.core e.c).storeBuf.length < 64) (awake : (s.core e.c).walk = false) :
    Yields (pushStore e en) s () (storeBuffered e.c en s) := by
  have notFull : ¬ 64 ≤ (s.core e.c).storeBuf.length := Nat.not_le.mpr room
  have stillAwake : ((storeBuffered e.c en s).core e.c).walk = false := by
    simpa [storeBuffered] using awake
  simp only [storeBuffered] at stillAwake ⊢
  simp only [Yields, pushStore, run_bind, run_get, run_pure, if_neg notFull, run_change, stillAwake, Bool.false_eq_true, if_false]

/-- A store to a line of normal memory that is no frame access and meets no word of the window is pushed as one entry (R175, R182, R183). -/
theorem storeBytes_normal {e : Env} {a : Acc} {bytes : List Byte} {tag : Nat → Tag} {s : State} (normal : a.lo.side = false)
    (unframed : a.frame = false) (oneLine : crosses a.va a.size = false) :
    let en : StoreEntry := { writes := a.writes bytes tag, noAlloc := a.lo.noAlloc, sealPage := a.lo.sealPage }
    en.writes.any (fun w => frameWord (s.core e.c) w.w) = false → (storeBytes e a bytes tag).run s = (pushStore e en).run s := by
  intro en apart
  dsimp only [en] at apart
  simp only [storeBytes, normal, unframed, oneLine, apart, Bool.false_eq_true, if_false, run_bind, run_get]
  rfl

/-- A core sees a word as before where a store that joined its store buffer does not write it (R181). -/
theorem ownWord_storeBuffered_other {c w : Nat} {en : StoreEntry} {s : State} (unwritten : w ∉ en.writes.map (·.w)) :
    ownWord (storeBuffered c en s) c w = ownWord s c w := by
  have own : (storeBuffered c en s).core c = { s.core c with storeBuf := (s.core c).storeBuf ++ [en] } :=
    (State.setCore_core s c _ c).trans (if_pos rfl)
  have skips : ∀ t : TWord, en.writes.foldl (fun t x => if x.w = w then overlayWord t x.mask x.data x.tag else t) t = t := fun t =>
    List.foldlRecOn en.writes _ (motive := fun u => u = t) rfl fun u same x written => by
      have other : x.w ≠ w := fun it => unwritten (List.mem_map.mpr ⟨x, written, it⟩)
      rw [if_neg other, same]
  simp only [ownWord, own, List.flatMap_append, List.foldl_append, List.flatMap_cons, List.flatMap_nil, List.append_nil, skips]
  rfl

/-- No other core sees a store that has joined a store buffer (R180, R221). -/
theorem ownWord_storeBuffered_otherCore {c k w : Nat} {en : StoreEntry} {s : State} (other : k ≠ c) :
    ownWord (storeBuffered c en s) k w = ownWord s k w := by
  have same : (storeBuffered c en s).core k = s.core k := (State.setCore_core s c _ k).trans (if_neg other)
  simp only [ownWord, same]
  rfl

/-! ## The obligation -/

/-- Settles O51: such a store is pushed into a buffer with room, where only its own words change and only for its own core. -/
theorem storesFrame : Obligations.StoresFrame := by
  intro e a n v t s normal unframed oneLine awake room en apart s1
  refine ⟨?_, fun w unwritten => ownWord_storeBuffered_other unwritten, fun w c other => ownWord_storeBuffered_otherCore other⟩
  exact (storeBytes_normal normal unframed oneLine apart).trans (pushStore_room en room awake)

end Sys2Proof.Proofs
end

section
/-! SUPPORT. The system instructions (R173, R198, R213, R214, R220, R225): the body of each, and the settling of the obligation. -/

namespace Sys2Proof.Proofs

open Sys2Proof Sys2Proof.Machine

/-! ## The parts of the bodies -/

theorem yields_change (f : State → State) (s : State) : Yields (change f) s () (f s) := run_change f s

theorem yields_changeArch (e : Env) (f : Arch → Arch) (s : State) : Yields (changeArch e f) s () (s.setArch e.c f) := run_changeArch e f s

theorem yields_getArch (e : Env) (s : State) : Yields (getArch e) s (s.core e.c).arch s := run_getArch e s

/-- What one operand yields is what forming it and then reading its place yield. -/
theorem oneRead_parts {e : Env} {n : Nat} {k : AccKind} {fp : Bool} {o : Opd} {s t : State} {p : Place} {y : Src}
    (reads : Yields (oneRead e n k fp o) s (p, y) t) :
    ∃ u, Yields (formOpd e 0 n k o) s p u ∧ Yields (readPlace e 0 n fp p) u y t := by
  unfold Yields oneRead at reads
  rw [run_bind] at reads
  split at reads
  · rename_i q u formed
    rw [run_bind] at reads
    split at reads
    · rename_i x v read
      cases reads
      exact ⟨u, formed, read⟩
    · cases reads
  · cases reads

/-! ## WFI, ERET and MTSW -/

/-- WFI retires with its core waiting; one that its stall has given up then leaves the stall (R173, R350). -/
theorem execWfi_starts {a : At} {s s0 : State} :
    let len := instrLen a 1 [] 0
    Starts a len a.pfx.isEmpty 1 s s0 →
    execWfi a s = .next (leaveAtWfi a.core.val (ended a len (envOf s a.core.val len).npc s
      (s0.setCore a.core.val { s0.core a.core.val with waiting := true }))) := by
  intro len starts
  unfold execWfi
  rw [runInstr_ends starts]
  exact yields_bind (yields_change _ _) (yields_pure _ _)

/-- ERET at a level whose EPC holds a CODEPTR returns from it (R220). -/
theorem execEret_starts {a : At} {s s0 : State} :
    let len := instrLen a 1 [] 0
    let e := envOf s a.core.val len
    let b := (s0.core e.c).arch.bank e.pl
    Starts a len a.pfx.isEmpty 1 s s0 → b.epc.tag = .codeptr →
    execEret a s = .next (ended a len (b.epc.data.truncate 47) s (s0.setArch e.c (fun x => returnFrom x e.pl))) := by
  intro len e b starts target
  refine runInstr_ends starts (yields_bind (yields_getArch e s0) ?_)
  have accepted : ¬ b.epc.tag ≠ .codeptr := not_not_intro target
  rw [if_neg accepted]
  exact yields_bind (yields_changeArch e _ s0) (yields_pure _ _)

/-- MTSW of an INT writes the bits of SW that the level may write (R198). -/
theorem execMtsw_starts {a : At} {o : Opd} {s s0 s1 : State} {ps : Place} {y : Src} :
    let len := instrLen a 1 [o] 0
    let e := envOf s a.core.val len
    Starts a len (a.pfx.isEmpty && opdSrc o) 2 s s0 → Yields (oneRead e 8 {} false o) s0 (ps, y) s1 →
    y.passes (fun t => decide (t = .int)) = true →
    execMtsw a o s = .next (ended a len e.npc s (s1.setArch e.c (fun b => { b with sw := mtswWord e.pl b.sw y.val }))) := by
  intro len e starts reads isInt
  obtain ⟨u, formed, read⟩ := oneRead_parts reads
  exact runInstr_ends starts (yields_bind formed (yields_bind read (yields_bind (run_checkSrc isInt s1)
    (yields_bind (yields_changeArch e _ s1) (yields_pure _ _)))))

/-! ## The obligation -/

/-- Settles O7: each body in the order of its parts; SVC and BRK raise their exceptions and do nothing else. -/
theorem systemCompletes : Obligations.SystemCompletes := by
  refine ⟨?wfi, ?svc, ?brk, ?eret, ?fences, ?isync, ?mfsw, ?mtsw⟩
  case wfi =>
    exact fun a s s0 starts => execWfi_starts starts
  case svc =>
    intro a v s s0 len e starts
    show execSvc a v s = _
    exact runInstr_traps starts (run_raiseX _ _)
  case brk =>
    intro a s s0 len e starts
    show execBrk a s = _
    exact runInstr_traps starts (run_raiseX _ _)
  case eret =>
    exact fun a s s0 starts target => execEret_starts starts target
  case fences =>
    intro i row a s s0 s1 len e starts drained
    have either : i = Instr.fence ∨ i = Instr.fenceSe := by simpa using row
    rcases either with rfl | rfl
    · show execFence a s = _
      exact runInstr_ends starts (yields_bind drained (yields_pure _ _))
    · show execFenceSe a s = _
      exact runInstr_ends starts (yields_bind drained (yields_pure _ _))
  case isync =>
    intro a s s0 s1 len e starts drained
    show execIsync a s = _
    exact runInstr_ends starts (yields_bind drained (yields_bind (yields_change _ _) (yields_pure _ _)))
  case mfsw =>
    intro a d s s0 s1 s2 pd len e starts formed written
    show execMfsw a d s = _
    exact runInstr_ends starts (yields_bind formed (yields_bind (yields_getArch e s1) (yields_bind written (yields_pure _ _))))
  case mtsw =>
    exact fun a o s s0 s1 ps y starts reads isInt => execMtsw_starts starts reads isInt

end Sys2Proof.Proofs
end

section
/-! SUPPORT. What a tile does beside packets (R180, R186, R188, R193, R265): store-buffer writes, prefetches, Walk and CORE_MODE, and the settling
of the obligation. -/

namespace Sys2Proof.Proofs

open Sys2Proof Sys2Proof.Machine

/-! ## Store buffers and prefetchers -/

/-- The oldest store is written where every line of it can be had (R180). -/
theorem drainOne_ready {c : Nat} {en : StoreEntry} {r : List StoreEntry} {s : State} (oldest : (s.core c).storeBuf = en :: r)
    (ready : ∀ l ∈ storeLines en, lineReady c l s = true) :
    let s1 := (storeLines en).foldl (fun st l => storeLine c en l st) s
    drainOne c s = some (s1.setCore c { s1.core c with storeBuf := r }) := by
  simp only [drainOne, oldest, if_pos (List.all_eq_true.mpr ready)]

/-- An enabled prefetcher brings a line of one of its streams that its home can give now (R186, R188). -/
theorem execPrefetchIssue_enabled {c : CoreId} {pa : BitVec 52} {l2 : Bool} {s : State} (runs : coreRuns s c.val = true)
    (awake : (s.core c.val).walk = false) (enabled : (s.core c.val).modeNow.getLsbD (if l2 then 2 else 1) = true)
    (stream : (if l2 then (s.core c.val).streamsL2 else (s.core c.val).streamsL1).contains (lineOf pa / 256) = true)
    (normal : region s pa.toNat = .normal) (ready : coreWaits s c.val (lineOf pa) = false) :
    let s1 := acquireShared { stall := (s.core c.val).stall } (coreTile s c.val) (lineOf pa) s
    execPrefetchIssue c pa l2 s =
      .next (if l2 then s1 else s1.setCore c.val { s1.core c.val with l1d := l1Insert (s1.core c.val).l1d (lineOf pa) s1.free }) := by
  have on : (if l2 then (s.core c.val).modeNow.getLsbD 2 else (s.core c.val).modeNow.getLsbD 1) = true := by
    cases l2 <;> exact enabled
  exact if_pos ⟨runs, by rw [awake]; rfl, on, stream, normal, by rw [ready]; rfl⟩

/-! ## Walk and CORE_MODE -/

/-- A core whose stores are written and whose tile is quiet enters Walk (R191, R193). -/
theorem walkEnter_quiet {k : Nat} {s s1 : State} (drained : drainStores k s = some s1) (awake : (s1.core k).walk = false)
    (quiet : tileQuiet s1 (coreTile s1 k) = true) :
    let s2 := flushTile (coreTile s1 k) s1 (renamed (s1.core k))
    let p := s2.corePwr k
    let s3 := s2.setCorePwr k { grant := if p.grant = 2 then 1 else p.grant, gait := if p.gait = 2 then 1 else p.gait }
    walkEnter k s = gaitEval (s3.setCore k
      { s3.core k with walk := true, l1i := [], l1d := [], specFill := [], returnStack := [], btb := [], direction := [] }) := by
  have enters : ¬((s1.core k).walk = true ∨ (!tileQuiet s1 (coreTile s1 k)) = true) := by simp [awake, quiet]
  simp only [walkEnter, drained]
  rw [if_neg enters]

/-- A core applies the CORE_MODE of its stall that waits (R188). -/
theorem applyMode_pending {k : Nat} {s : State} (pending : (s.core k).modePending = true) :
    applyMode k s = evalStalls ((dropSpec k s).setCore k
      { (dropSpec k s).core k with modeNow := BitVec.ofNat 32 (odGet s (0x4100 + (s.core k).stall) 0x21), modePending := false }) :=
  if_pos pending

theorem applyMode_settled {k : Nat} {s : State} (settled : (s.core k).modePending = false) : applyMode k s = s :=
  if_neg (by simp [settled])

/-- Granting gaits changes power alone (R424, R425). -/
theorem besideSignals_grantGait (gallop : List Nat) (k : Nat) (s : State) : besideSignals (grantGait gallop k s) = besideSignals s := by
  have granted : ∀ x : CorePwr, besideSignals (s.setCorePwr k x) = besideSignals s := fun _ => rfl
  simp [grantGait, apply_ite besideSignals, granted]

theorem besideSignals_gaitEval (s : State) : besideSignals (gaitEval s) = besideSignals s :=
  besideSignals_foldl (fun t k => by simp [apply_ite besideSignals, besideSignals_grantGait]) _ s

/-- A core that leaves Walk with no CORE_MODE waiting has empty caches and its registers (R193). -/
theorem walkExit_settled {k : Nat} {s : State} (walking : (s.core k).walk = true) (settled : (s.core k).modePending = false) :
    (walkExit k s).core k = { s.core k with walk := false, l1i := [], l1d := [] } := by
  have settledAfter : ((s.setCore k { s.core k with walk := false, l1i := [], l1d := [] }).core k).modePending = false := by simp [settled]
  rw [walkExit, if_pos walking, core_of_besideSignals (besideSignals_gaitEval _), applyMode_settled settledAfter]
  simp

/-! ## The obligation -/

/-- Settles O22: each event, by the lemma above for the state that its clause names. -/
theorem tileEventsComplete : Obligations.TileEventsComplete := by
  refine ⟨?unknown, ?store, ?prefetch, ?enter, ?exit, ?left, ?mode⟩
  case unknown =>
    exact fun k op s unknown => congrArg Host.Outcome.next (if_neg (by simp [unknown]))
  case store =>
    exact fun c en r s oldest ready => congrArg (fun o : Option State => Host.Outcome.next (o.getD s)) (drainOne_ready oldest ready)
  case prefetch =>
    exact fun c pa l2 s runs awake enabled stream normal ready => execPrefetchIssue_enabled runs awake enabled stream normal ready
  case enter =>
    exact fun c s s1 drained awake quiet => congrArg Host.Outcome.next (walkEnter_quiet drained awake quiet)
  case exit =>
    exact fun c s walking => congrArg Host.Outcome.next (if_pos walking)
  case left =>
    intro c s walking settled
    refine ⟨walkExit c.val s, rfl, ?_⟩
    dsimp only
    rw [walkExit_settled walking settled]
    exact ⟨rfl, rfl, rfl, rfl⟩
  case mode =>
    intro c s pending awake
    have boundary : ¬ (s.core c.val).walk = true := by simp [awake]
    exact congrArg Host.Outcome.next ((if_neg boundary).trans (applyMode_pending pending))

end Sys2Proof.Proofs
end

section
/-! SUPPORT. The test access port (R193, R519–R521): loading an instruction, the test hold and the refusal of functional instructions, and the
settling of the obligation. -/

namespace Sys2Proof.Proofs

open Sys2Proof Sys2Proof.Machine

/-! ## Loading an instruction (R520) -/

/-- The state with another instruction in the port's instruction register; only the three of the test hold keep the outputs floating. -/
def tapLoaded (i : TapInstr) (s : State) : State :=
  { s with tap := { s.tap with ir := i, floating := s.tap.floating && testInstr i } }

/-- While no test holds the device, loading an instruction changes the port alone. -/
theorem loadTap_unheld {s : State} (unheld : s.tap.hold = false) (i : TapInstr) : loadTap i s = tapLoaded i s := by
  have stays : endHold s = s := if_neg (by simp [unheld])
  simp only [loadTap, stays, ite_self]
  rfl

/-- EXTEST, CLAMP and HIGHZ are loaded in a test hold too. -/
theorem loadTap_testInstr {i : TapInstr} (test : testInstr i = true) (s : State) : loadTap i s = tapLoaded i s := by
  simp only [loadTap, if_pos test]
  rfl

theorem functional_open {s : State} (opened : tapOpen s = true) (i : TapInstr) (act : State → State) : functional i act s = act (loadTap i s) :=
  if_pos opened

/-- With TAP_OPEN at 0 a functional instruction selects bypass, is counted and sets REFUSED (R520). -/
theorem functional_closed {s : State} (closed : tapOpen s = false) (unheld : s.tap.hold = false) (i : TapInstr) (act : State → State) :
    functional i act s =
      { odBump 0xF000 0x02 s with tap := { s.tap with ir := .bypass, floating := false, refused := true } } := by
  have bypassed : (s.tap.floating && testInstr .bypass) = false := by simp [testInstr]
  refine (if_neg (by simp [closed])).trans ?_
  rw [refuseTap, loadTap_unheld unheld, tapLoaded, bypassed]
  rfl

/-- Without a test hold DBG_CORE acts on a core that stall 0 holds and that runs stall 0 (R519). -/
theorem debugOp_open {k : Nat} {s : State} (opened : tapOpen s = true) (unheld : s.tap.hold = false) (owned : coreOwner s k = 0)
    (runs : coreStall s k = 0) (act : State → State) : debugOp k act s = act (loadTap .dbgCore s) := by
  have loaded := loadTap_unheld unheld .dbgCore
  have acts : debugCore (loadTap .dbgCore s) k = true := by
    rw [loaded]
    exact Bool.and_eq_true_iff.mpr ⟨decide_eq_true owned, decide_eq_true runs⟩
  exact (functional_open opened _ _).trans (if_pos acts)

/-! ## The test hold (R520, R521) -/

theorem tap_raise (n : Nat) (s : State) : (raise n s).tap = s.tap := by
  obtain ⟨-, -, -, -, -, -, tap, -⟩ := units_of_besideSignals (besideSignals_raise n s)
  exact tap

theorem tap_record (r : Rec) (s : State) : (record r s).tap = s.tap := by
  obtain ⟨-, -, -, -, -, -, tap, -⟩ := units_of_besideSignals (besideSignals_record r s)
  exact tap

/-- Holding the links in electrical idle leaves the port. -/
theorem tap_idleLinks (s : State) : (idleLinks s).tap = s.tap := by
  unfold idleLinks
  dsimp only
  refine List.foldlRecOn (List.range 4) _ (motive := fun t : State => t.tap = s.tap) ?tethers fun t same l _ => ?host
  case tethers =>
    refine List.foldlRecOn (List.range 32) _ (motive := fun t : State => t.tap = s.tap) rfl fun t same l _ => ?_
    unfold setLinkState
    dsimp only
    split
    · exact same
    · exact (tap_raise _ _).trans same
  case host =>
    unfold setHostLink
    split
    · exact same
    · split
      · exact same
      · exact (tap_raise _ _).trans same

/-- A test hold begins, or goes on, with the port as it was. -/
theorem tap_beginHold (s : State) : (beginHold s).tap = { s.tap with hold := true } := by
  unfold beginHold
  split
  · rename_i held
    rw [← held]
  · dsimp only [loseDram]
    rw [tap_idleLinks, tap_record]

/-- When a test hold begins, READY reads 0 and the engines stop. -/
theorem beginHold_stops {s : State} (unheld : s.tap.hold = false) : (beginHold s).boot.ready = false ∧ (beginHold s).eng.stopped = true := by
  unfold beginHold
  rw [if_neg (by simp [unheld])]
  exact ⟨rfl, rfl⟩

/-! ## The obligation -/

/-- GO of DBG_OD queues one access in the serializer (R519). -/
theorem debugOd_go {d : BitVec 72} {s : State} (go : natBit d.toNat 63 = true) (serves : groomServes s = true) :
    (debugOd d s).serial = s.serial ++ [tapAccess s d] ∧ (debugOd d s).mem = s.mem ∧ (debugOd d s).cores = s.cores := by
  unfold debugOd
  rw [if_pos ⟨go, serves⟩]
  obtain ⟨mem, -, -, -, -, serial, -, cores⟩ :=
    units_of_besideSignals (besideSignals_raise 0x545 { s with free := s.free + 256, serial := s.serial ++ [tapAccess s d] })
  exact ⟨serial, mem, cores⟩

/-- Settles O42: each instruction, by the lemma above for a port that is open, closed or in no test hold. -/
theorem testPortCompletes : Obligations.TestPortCompletes := by
  refine ⟨?entry, ?scans, ?tests, ?access, ?cores, ?holdEnd, ?refused⟩
  case entry =>
    exact fun path b s permits => permittedWrite_answersOk permits rfl
  case scans =>
    intro s unheld
    have loaded := loadTap_unheld unheld
    refine ⟨⟨_, rfl, ?idcode⟩, ⟨_, rfl, ?bypass⟩, ⟨_, rfl, ?status⟩, fun v => ⟨_, rfl, ?preload⟩⟩
    case idcode =>
      rw [loaded]
      exact ⟨rfl, rfl, rfl, rfl⟩
    case bypass =>
      rw [loaded]
      exact ⟨rfl, rfl, rfl, rfl⟩
    case status =>
      rw [loaded]
      exact ⟨rfl, rfl, rfl⟩
    case preload =>
      rw [loaded]
      exact ⟨rfl, rfl, rfl⟩
  case tests =>
    intro s opened
    have loaded : ∀ {i}, testInstr i = true → ∀ act, functional i act s = act (tapLoaded i s) := fun test act => by
      rw [functional_open opened, loadTap_testInstr test]
    refine ⟨fun v => ⟨_, congrArg Host.Outcome.next (loaded rfl _), ?extest⟩, ⟨_, congrArg Host.Outcome.next (loaded rfl _), ?clamp⟩,
      ⟨_, congrArg Host.Outcome.next (loaded rfl _), ?highz⟩⟩
    case extest =>
      have held := tap_beginHold (tapLoaded .extest s)
      exact ⟨rfl, rfl, congrArg Tap.hold held, fun unheld => beginHold_stops unheld⟩
    case clamp =>
      have held := tap_beginHold (tapLoaded .clamp s)
      have cells : (beginHold (tapLoaded .clamp s)).tap.cells = s.tap.cells := by rw [held]; rfl
      exact ⟨cells, rfl, congrArg Tap.hold held⟩
    case highz =>
      have held := tap_beginHold (tapLoaded .highz s)
      exact ⟨rfl, congrArg Tap.hold held⟩
  case access =>
    intro d s opened unheld go serves
    refine ⟨_, congrArg Host.Outcome.next (functional_open opened _ _), ?_⟩
    rw [loadTap_unheld unheld]
    exact debugOd_go (s := tapLoaded .dbgOd s) go serves
  case cores =>
    intro k s opened unheld c s1 owned runs
    have acts : ∀ act, debugOp c act s = act s1 := debugOp_open opened unheld owned runs
    have same : s1.core c = s.core c := by rw [show s1 = _ from loadTap_unheld unheld .dbgCore]; rfl
    refine ⟨congrArg Host.Outcome.next (acts _), fun halted => ?_⟩
    have halts : (s1.core c).halted = true := by rw [same]; exact halted
    refine ⟨?step, ?resume, fun r => ?read, fun r v => ?write⟩
    case step =>
      exact congrArg Host.Outcome.next ((acts _).trans (if_pos halts))
    case resume =>
      exact congrArg Host.Outcome.next ((acts _).trans (if_pos halts))
    case read =>
      rw [← same]
      exact congrArg Host.Outcome.next ((acts _).trans (if_pos halts))
    case write =>
      exact congrArg Host.Outcome.next ((acts _).trans (if_pos halts))
  case holdEnd =>
    exact fun s held => congrArg Host.Outcome.next (if_pos held)
  case refused =>
    intro v d k s closed unheld i row
    have refuses := functional_closed closed unheld
    simp only [List.mem_cons, List.not_mem_nil, or_false] at row
    rcases row with rfl | rfl | rfl | rfl | rfl | rfl | rfl <;> exact congrArg Host.Outcome.next (refuses _ _)

end Sys2Proof.Proofs
end

section
/-! SUPPORT. Event counters and the taking of interrupts (R173, R401, R402, R510–R517): what an event adds to a counter, what the overflow's
own signals can add to it, and the settling of the obligation. -/

namespace Sys2Proof.Proofs

open Sys2Proof Sys2Proof.Machine

/-! ## Signals that leave the counters -/

theorem pmu_foldl {α : Type} {f : State → α → State} (keeps : ∀ t x, (f t x).pmu = t.pmu) (l : List α) (s : State) :
    (l.foldl f s).pmu = s.pmu :=
  List.foldlRecOn l f (motive := fun t : State => t.pmu = s.pmu) rfl fun t same x _ => (keeps t x).trans same

theorem pmu_wakeCore (k : Nat) (s : State) : (wakeCore k s).pmu = s.pmu := by
  unfold wakeCore wakeDom
  split
  · split <;> rfl
  · rfl

theorem pmu_wakeTarget (n : Nat) (s : State) : (wakeTarget n s).pmu = s.pmu := by
  unfold wakeTarget
  split
  · exact pmu_foldl (fun t k => pmu_wakeCore k t) _ s
  · split
    · rfl
    · exact pmu_wakeCore _ s

theorem pmu_countSource (n : Nat) (s : State) : (countSource n s).pmu = s.pmu := by
  unfold countSource
  dsimp only
  split
  · rfl
  · split <;> rfl

theorem pmu_pumpCan (s : State) : (pumpCan s).pmu = s.pmu := by
  unfold pumpCan
  split
  · exact (pmu_foldl (f := fun t b => eventOut b t) (fun t b => rfl) _ _).trans
      (pmu_foldl (f := fun t (x : BitVec 29 × List Byte) => canOut x.1 x.2 t) (fun t x => rfl) _ _)
  · rfl

theorem pmu_eventOf (n : Nat) (corrected : Bool) (info : List Byte) (s : State) : (eventOf n corrected info s).pmu = s.pmu := by
  unfold eventOf
  split
  · rfl
  · exact pmu_pumpCan _

/-! ## Signals that count a TLP (R513) -/

theorem counter_of_pmu {s t : State} (same : t.pmu = s.pmu) (b i : Nat) : t.counter b i = s.counter b i := by
  simp only [State.counter, same]

/-- A counter that counts no TLP which the device sends (event 2 of a host link), in whatever block it stands. -/
def CountsNoTlp (c : Counter) : Prop := selEvent c ≠ 2 ∧ selThresh c = 0

section
variable {b i : Nat} {c : Counter} {s : State} (noTlp : CountsNoTlp c) (reads : s.counter b i = c)
include noTlp reads

/-- A TLP that a link counts leaves such a counter. -/
theorem counter_addUncore_link (l j : Nat) : (addUncore (0x140 + l) j 2 1 s).counter b i = c := by
  obtain ⟨other, plain⟩ := noTlp
  by_cases same : ctrKey (0x140 + l) j = ctrKey b i
  · have it : s.counter (0x140 + l) j = c := by rw [← reads, State.counter, State.counter, same]
    have untimed : timed (0x140 + l) c = false := by
      have noOccupancy : occEvent (0x140 + l) (selEvent c) = false := by
        unfold occEvent
        rw [if_neg (by omega)]
        simp; omega
      simp [timed, noOccupancy, plain]; omega
    simp [addUncore, it, ticks, untimed, counts, other, reads]
  · have others : ∀ (t : State) (d : Counter), t.counter b i = c → (t.setCounter (0x140 + l) j d).counter b i = c := fun t d reads =>
      (Tbl.get_set _ _ _ _ _).trans ((if_neg (Ne.symm same)).trans reads)
    unfold addUncore
    dsimp only
    split
    · exact others _ _ reads
    · split
      · exact others _ _ reads
      · exact reads

theorem counter_countLink (l : Nat) : (countLink l 2 1 s).counter b i = c := by
  unfold countLink countUncore
  split
  · exact reads
  · exact List.foldlRecOn _ _ (motive := fun t : State => t.counter b i = c) reads fun t kept j _ => counter_addUncore_link noTlp kept l j

theorem counter_sendMsix (p fn v : Nat) : (sendMsix p fn v s).counter b i = c := by
  unfold sendMsix
  dsimp only
  split
  · exact reads
  · split
    · exact reads
    · unfold emitOrdered
      split
      · exact reads
      · exact counter_countLink noTlp reads _

theorem counter_signalQuiet (n : Nat) : (signalQuiet n s).counter b i = c := by
  have marked : (s.setSource n { s.source n with signalled := true }).counter b i = c := reads
  unfold signalQuiet
  dsimp only
  split
  · exact reads
  · split
    · exact (counter_of_pmu (pmu_wakeTarget n _) b i).trans reads
    · have sent := fun p fn v => counter_sendMsix noTlp marked p fn v
      split
      · exact marked
      · split
        · split
          · exact marked
          · exact sent _ _ _
        · exact sent _ _ _

end

/-- An event of a source leaves the counter where its signal does. -/
theorem counter_raiseBy {b i : Nat} {c : Counter} {sig : Nat → State → State} (leaves : ∀ n t, t.counter b i = c → (sig n t).counter b i = c)
    {s : State} (reads : s.counter b i = c) (n : Nat) (corrected : Bool) (info : List Byte) :
    (raiseBy sig n corrected info s).counter b i = c := by
  have counted : (countSource n s).counter b i = c := (counter_of_pmu (pmu_countSource n s) b i).trans reads
  refine (counter_of_pmu (pmu_eventOf n corrected info _) b i).trans ?_
  split
  · exact leaves n _ counted
  · exact counted

section
variable {b i : Nat} {c : Counter} (noTlp : CountsNoTlp c)
include noTlp

theorem counter_setPower (x : PowerState) {s : State} (reads : s.counter b i = c) : (setPower x s).counter b i = c :=
  counter_raiseBy (s := { s with pwr := { s.pwr with state := x } }) (fun n _ kept => counter_signalQuiet noTlp kept n) reads _ _ _

theorem counter_wakeDevice (cause : Nat) {s : State} (reads : s.counter b i = c) : (wakeDevice cause s).counter b i = c := by
  unfold wakeDevice
  split
  · exact reads
  · split
    · exact counter_setPower noTlp _ reads
    · split
      · exact reads
      · exact reads
    · exact reads

theorem counter_signalSource (n : Nat) {s : State} (reads : s.counter b i = c) : (signalSource n s).counter b i = c := by
  have quiet := counter_signalQuiet noTlp reads n
  unfold signalSource
  dsimp only
  split
  · exact reads
  · split
    · exact quiet
    · exact counter_wakeDevice noTlp 7 quiet

/-- Raising a source leaves a counter that counts no TLP. -/
theorem counter_raise (n : Nat) {s : State} (reads : s.counter b i = c) : (raise n s).counter b i = c :=
  counter_raiseBy (fun n _ kept => counter_signalSource noTlp n kept) reads _ _ _

end

/-! ## Counting (R510–R513) -/

theorem counter_setCounter (b i : Nat) (c : Counter) (s : State) : (s.setCounter b i c).counter b i = c :=
  (Tbl.get_set _ _ _ _ _).trans (if_pos rfl)

/-- A counter that wraps holds its new value with OVF set, whatever its sample raises (R510, R515). -/
theorem counter_overflow {b i : Nat} {s : State} (noTlp : b < 0x80 → CountsNoTlp (s.counter b i)) (pc : BitVec 47) (v : BitVec 48) :
    (overflow b i pc v s).counter b i = { s.counter b i with value := v, ovf := true } := by
  have wrapped := counter_setCounter b i { s.counter b i with value := v, ovf := true } s
  unfold overflow
  dsimp only
  split
  · rename_i samples
    have same : CountsNoTlp { s.counter b i with value := v, ovf := true } := noTlp samples.1
    exact counter_raise same _ wrapped
  · exact wrapped

/-- An event that an untimed counter of a core counts is no 2, which hangs on time there (R512, R513). -/
theorem countsNoTlp_of_core {b event : Nat} {pl : Option Nat} {c : Counter} {s : State} (untimed : ticks s b c pl = false)
    (counted : counts s c event pl = true) (core : b < 0x80) : CountsNoTlp c := by
  simp only [counts, Bool.and_eq_true, decide_eq_true_eq] at counted
  obtain ⟨⟨⟨⟨runs, enabled⟩, -⟩, plain⟩, level⟩ := counted
  refine ⟨fun cycles => ?_, plain⟩
  have isTimed : timed b c = true := by
    have inCore : b ≤ 0x07F := by omega
    simp [timed, occEvent, lastEvent, cycles, inCore]
  have ticking : ticks s b c pl = true := by
    simp only [ticks, Bool.and_eq_true]
    exact ⟨⟨⟨runs, enabled⟩, isTimed⟩, level⟩
  exact absurd (ticking.symm.trans untimed) (by decide)

/-- One event adds 1 to a counter modulo 2^48, and the wrap sets OVF. -/
theorem counter_addCount_one {b i : Nat} {s : State} (noTlp : b < 0x80 → CountsNoTlp (s.counter b i)) (pc : BitVec 47) :
    (addCount b i 1 pc s).counter b i =
      { s.counter b i with value := (s.counter b i).value + 1,
                           ovf := (s.counter b i).ovf || decide ((s.counter b i).value = 0xFFFFFFFFFFFF) } := by
  have sum : BitVec.ofNat 48 ((s.counter b i).value.toNat + 1) = (s.counter b i).value + 1 := by bv_omega
  unfold addCount
  dsimp only
  rw [sum]
  split
  · rename_i room
    have below : (s.counter b i).value ≠ 0xFFFFFFFFFFFF := fun full => by rw [full] at room; exact absurd room (by decide)
    rw [counter_setCounter, decide_eq_false below, Bool.or_false]
  · rename_i full
    have last : (s.counter b i).value = 0xFFFFFFFFFFFF := by bv_omega
    rw [counter_overflow noTlp, decide_eq_true last, Bool.or_true]

/-! ## The obligation -/

/-- Settles O43: a counted event adds 1 and sets OVF at the wrap; the other rows act under the conditions of their clauses. A core in WFI goes on
with SW.IE 0 as the model chooses (log entry 13). -/
theorem countersAndInterruptsComplete : Obligations.CountersAndInterruptsComplete := by
  refine ⟨?overflow, fun _ _ _ => ⟨rfl, rfl⟩, fun _ _ _ _ => ⟨rfl, rfl⟩, ?count, ?interrupt⟩
  case overflow =>
    exact fun b i pc s inBlock enabled runs => if_pos ⟨inBlock, enabled, runs⟩
  case count =>
    intro b i event pl pc s untimed counted t
    have adds : t = addCount b i 1 pc s := (if_neg (by simp [untimed])).trans (if_pos counted)
    have after := counter_addCount_one (b := b) (i := i) (s := s) (countsNoTlp_of_core untimed counted) pc
    obtain ⟨mem, -⟩ := units_of_besideSignals (besideSignals_addCount b i 1 pc s)
    rw [adds, after]
    exact ⟨rfl, rfl, mem⟩
  case interrupt =>
    intro c s s1 runs won
    refine ⟨fun enabled => ?_, fun disabled => ?_⟩
    · exact (if_pos ⟨runs, won⟩).trans (congrArg Host.Outcome.next (if_pos enabled))
    · exact (if_pos ⟨runs, won⟩).trans (congrArg Host.Outcome.next (if_neg (by simp [disabled])))

end Sys2Proof.Proofs
end

section
/-! SUPPORT. Memory (R205, R209, R299): what a word reads after a write, that two canonical memories which read alike are one, and the settling
of the obligation. -/

namespace Sys2Proof.Proofs

open Sys2Proof Sys2Proof.Machine

/-! ## Words and their bytes -/

/-- The `n` lowest bytes of a number put together are that number modulo 256 ^ n. -/
theorem natOfBytes_lowBytes (v n : Nat) : natOfBytes ((List.range n).map (fun i => BitVec.ofNat 8 (v / 256 ^ i))) = v % 256 ^ n := by
  induction n generalizing v with
  | zero => simp [natOfBytes, Nat.mod_one]
  | succ n ih =>
    have rest : (fun i => BitVec.ofNat 8 (v / 256 ^ i)) ∘ Nat.succ = fun i => BitVec.ofNat 8 (v / 256 / 256 ^ i) := by
      funext i
      simp only [Function.comp, Nat.div_div_eq_div_mul, Nat.succ_eq_add_one, Nat.pow_succ']
    rw [List.range_succ_eq_map, List.map_cons, List.map_map, rest, natOfBytes, ih, Nat.pow_succ', Nat.mod_mul]
    simp

theorem wordByte_eq_ofNat (w : Word) (i : Nat) : wordByte w i = BitVec.ofNat 8 (w.toNat / 256 ^ i) := by
  apply BitVec.eq_of_toNat_eq
  simp [wordByte, Nat.shiftRight_eq_div_pow, Nat.pow_mul]

/-- A word is what its bytes say. -/
theorem wordOfBytes_wordBytes (w : Word) : wordOfBytes (wordBytes w) = w := by
  have bytes : wordBytes w = (List.range 8).map (fun i => BitVec.ofNat 8 (w.toNat / 256 ^ i)) :=
    List.map_congr_left fun i _ => wordByte_eq_ofNat w i
  have small : w.toNat % 256 ^ 8 = w.toNat := Nat.mod_eq_of_lt w.isLt
  rw [wordOfBytes, bytes, natOfBytes_lowBytes, small, BitVec.ofNat_toNat, BitVec.setWidth_eq]

/-! ## What a word reads after a write -/

/-- A byte that was stored among consecutive ones is read back. -/
theorem byteAt_setBytes_inside {m : Memory} (canonical : m.wf = true) (a : Nat) {l : List Byte} {i : Nat} (inside : i < l.length) :
    (m.setBytes a l).byteAt (a + i) = l[i] := by
  induction l generalizing m a i with
  | nil => exact absurd inside (Nat.not_lt_zero i)
  | cons v r ih =>
    have kept := wf_setByte canonical a v
    show ((m.setByte a v).setBytes (a + 1) r).byteAt (a + i) = _
    cases i with
    | zero =>
      obtain ⟨-, -, outside⟩ := setBytes_frame kept (a + 1) r
      rw [outside _ (Or.inl (by omega)), byteAt_setByte canonical, if_pos (Nat.add_zero a)]
      rfl
    | succ i =>
      have inRest : i < r.length := Nat.lt_of_succ_lt_succ inside
      rw [show a + (i + 1) = a + 1 + i by omega, ih kept (a + 1) inRest]
      rfl

theorem bytesAt_setBytes_same {m : Memory} (canonical : m.wf = true) (a : Nat) (l : List Byte) :
    (m.setBytes a l).bytesAt a l.length = l := by
  apply List.ext_getElem
  · simp [Memory.bytesAt]
  · intro i _ inside
    simpa [Memory.bytesAt] using byteAt_setBytes_inside canonical a inside

theorem bytesAt_setBytes_apart {m : Memory} (canonical : m.wf = true) {a b n : Nat} {l : List Byte} (apart : b + n ≤ a ∨ a + l.length ≤ b) :
    (m.setBytes a l).bytesAt b n = m.bytesAt b n := by
  obtain ⟨-, -, outside⟩ := setBytes_frame canonical a l
  refine List.map_congr_left fun i inRange => outside _ ?_
  have := List.mem_range.mp inRange
  omega

/-- A word that was written is read back, and every other one as before (R222). -/
theorem wordAt_setWord {m : Memory} (canonical : m.wf = true) (w u : Nat) (t : TWord) :
    (m.setWord w t).wordAt u = if u = w then t else m.wordAt u := by
  have eight : (wordBytes t.data).length = 8 := by simp [wordBytes]
  have stored := wf_setBytes canonical (8 * w) (wordBytes t.data)
  obtain ⟨tags, -, -⟩ := setBytes_frame canonical (8 * w) (wordBytes t.data)
  have tag : (m.setWord w t).tagAt u = if u = w then t.tag else m.tagAt u := by
    rw [Memory.setWord, tagAt_setTag stored, Memory.tagAt, tags]
    rfl
  have data : (m.setWord w t).bytesAt (8 * u) 8 = if u = w then wordBytes t.data else m.bytesAt (8 * u) 8 := by
    show (m.setBytes (8 * w) (wordBytes t.data)).bytesAt (8 * u) 8 = _
    split
    · rename_i same
      have back := bytesAt_setBytes_same canonical (8 * w) (wordBytes t.data)
      rw [eight] at back
      rw [same, back]
    · exact bytesAt_setBytes_apart canonical (by omega)
  rw [Memory.wordAt, tag, data]
  split
  · rw [wordOfBytes_wordBytes]
  · rfl

theorem setWord_seals {m : Memory} (canonical : m.wf = true) (w : Nat) (t : TWord) : (m.setWord w t).seals = m.seals := by
  obtain ⟨-, seals, -⟩ := setBytes_frame canonical (8 * w) (wordBytes t.data)
  exact seals

/-! ## The canonical form is unique -/

section
variable {α : Type} [DecidableEq α] {d : α}

/-- A key below the first listed one reads the default. -/
theorem get_belowHead {b : Option Nat} {c k : Nat} {w : α} {r : List (Nat × α)} (canonical : canonAbove d b ((c, w) :: r) = true) (below : k < c) :
    Tbl.get ((c, w) :: r) k d = d := by
  simp only [canonAbove, Bool.and_eq_true] at canonical
  obtain ⟨-, rest⟩ := canonical
  have apart : c ≠ k := by omega
  exact (if_neg apart).trans (get_above rest (fun j same => by cases same; omega) (by simp))

/-- The first listed key reads no default. -/
theorem get_head_ne {b : Option Nat} {c : Nat} {w : α} {r : List (Nat × α)} (canonical : canonAbove d b ((c, w) :: r) = true) :
    Tbl.get ((c, w) :: r) c d ≠ d := by
  simp only [canonAbove, Bool.and_eq_true, decide_eq_true_eq] at canonical
  obtain ⟨⟨-, listed⟩, -⟩ := canonical
  simpa [Tbl.get] using listed

/-- Two canonical tables that read alike at every key are equal. -/
theorem canonAbove_ext {t u : List (Nat × α)} {b : Option Nat} (ct : canonAbove d b t = true) (cu : canonAbove d b u = true)
    (alike : ∀ k, Tbl.get t k d = Tbl.get u k d) : t = u := by
  induction t generalizing u b with
  | nil =>
    cases u with
    | nil => rfl
    | cons y q => exact absurd (alike y.1).symm (get_head_ne cu)
  | cons x r ih =>
    cases u with
    | nil => exact absurd (alike x.1) (get_head_ne ct)
    | cons y q =>
      obtain ⟨a, v⟩ := x
      obtain ⟨c, w⟩ := y
      have notBelow : ¬ a < c := fun below => get_head_ne ct ((alike a).trans (get_belowHead cu below))
      have notAbove : ¬ c < a := fun below => get_head_ne cu ((alike c).symm.trans (get_belowHead ct below))
      obtain rfl : a = c := by omega
      obtain rfl : v = w := by simpa [Tbl.get] using alike a
      simp only [canonAbove, Bool.and_eq_true] at ct cu
      obtain ⟨-, cr⟩ := ct
      obtain ⟨-, cq⟩ := cu
      have tails : ∀ k, Tbl.get r k d = Tbl.get q k d := by
        intro k
        by_cases same : a = k
        · have atHead : ∀ j, some a = some j → k ≤ j := fun j it => by cases it; omega
          rw [get_above cr atHead (by simp), get_above cq atHead (by simp)]
        · simpa [Tbl.get, same] using alike k
      rw [ih cr cq tails]

end

/-- Canonical memories that read alike everywhere are equal. -/
theorem memory_ext {m n : Memory} (cm : m.wf = true) (cn : n.wf = true) (bytes : ∀ a, m.byteAt a = n.byteAt a)
    (tags : ∀ w, m.tagAt w = n.tagAt w) (seals : ∀ k, m.sealAt k = n.sealAt k) : m = n := by
  obtain ⟨mb, mt, ms⟩ := (wf_iff m).1 cm
  obtain ⟨nb, nt, ns⟩ := (wf_iff n).1 cn
  have sameBytes : m.bytes = n.bytes := canonAbove_ext mb nb bytes
  have sameTags : m.tags = n.tags := canonAbove_ext mt nt tags
  have sameSeals : m.seals = n.seals := canonAbove_ext ms ns seals
  cases m
  cases n
  congr

/-! ## The obligation -/

/-- Settles O48: each write by its table's read after write; equality by the uniqueness of the canonical form. -/
theorem memoryReadsWhatWasWritten : Obligations.MemoryReadsWhatWasWritten := by
  refine ⟨fun m canonical => ⟨?bytes, ?tags, ?seals, ?words⟩, fun m n cm cn bytes tags seals => memory_ext cm cn bytes tags seals⟩
  case bytes =>
    exact fun a b v => ⟨byteAt_setByte canonical a b v, rfl, rfl, wf_setByte canonical a v⟩
  case tags =>
    exact fun w u t => ⟨tagAt_setTag canonical w u t, rfl, rfl, wf_setTag canonical w t⟩
  case seals =>
    exact fun k j v => ⟨sealAt_setSeal canonical k j v, rfl, rfl, wf_setSeal canonical k v⟩
  case words =>
    exact fun w u t => ⟨wordAt_setWord canonical w u t, setWord_seals canonical w t, wf_setWord canonical w t⟩

end Sys2Proof.Proofs
end

section
/-! SUPPORT. The flags of addition and subtraction (R198, R227): the signed value of a width as a balanced remainder, what a result says of its
exact sum, and the settling of the obligation. -/

namespace Sys2Proof.Proofs

open Sys2Proof Sys2Proof.Machine

/-! ## Signed values -/

theorem bmod_sum (x y k : Int) (n : Nat) : Int.bmod (Int.bmod x n + Int.bmod y n + k) n = Int.bmod (x + y + k) n := by
  rw [Int.add_assoc, Int.bmod_add_bmod, Int.add_left_comm, Int.bmod_add_bmod, Int.add_left_comm, ← Int.add_assoc]

theorem bmod_difference (x y k : Int) (n : Nat) : Int.bmod (Int.bmod x n - Int.bmod y n - k) n = Int.bmod (x - y - k) n := by
  rw [Int.sub_sub, Int.bmod_sub_bmod, Int.add_comm _ k, ← Int.sub_sub, Int.sub_bmod_bmod, Int.sub_sub, Int.add_comm k y, ← Int.sub_sub]

section
variable {b : Nat} (pos : 0 < b)
include pos

/-- The signed value of the low `b` bits is the remainder of 2 ^ b that is balanced about 0. -/
theorem sInt_eq_bmod (n : Nat) : sInt b n = Int.bmod n (2 ^ b) := by
  have double := Nat.two_pow_pred_mul_two pos
  have half : (((2 ^ b : Nat) : Int) + 1) / 2 = ((2 ^ (b - 1) : Nat) : Int) := by omega
  rw [sInt, Int.bmod_def, half, ← Int.natCast_emod]
  split <;> split <;> omega

/-- An exact value differs from its balanced remainder where it is out of the signed range. -/
theorem ne_bmod_iff (v : Int) : v ≠ Int.bmod v (2 ^ b) ↔ v < -(2 ^ (b - 1) : Int) ∨ (2 ^ (b - 1) : Int) ≤ v := by
  have double := Nat.two_pow_pred_mul_two pos
  have wide : 0 < 2 ^ b := Nat.two_pow_pos b
  have low := Int.le_bmod (x := v) wide
  have high := Int.bmod_lt (x := v) wide
  have cast : ((2 ^ (b - 1) : Nat) : Int) = (2 : Int) ^ (b - 1) := by push_cast; rfl
  rw [← cast]
  constructor
  · intro differs
    refine Decidable.byContradiction fun inside => ?_
    exact differs (Int.bmod_eq_of_le (by omega) (by omega)).symm
  · intro outside same
    rw [← same] at low high
    omega

/-- The top bit of a result is set where it is at least half of the range. -/
theorem negative_eq {r : Nat} (small : r < 2 ^ b) : negative b r = decide (2 ^ (b - 1) ≤ r) := by
  have double := Nat.two_pow_pred_mul_two pos
  have half : 0 < 2 ^ (b - 1) := Nat.two_pow_pos _
  rw [negative, Nat.testBit_eq_decide_div_mod_eq]
  refine decide_eq_decide.mpr ⟨fun odd => ?_, fun top => ?_⟩
  · refine Nat.le_of_not_lt fun below => ?_
    rw [Nat.div_eq_of_lt below] at odd
    omega
  · have once : r / 2 ^ (b - 1) = 1 := Nat.div_eq_of_lt_le (by omega) (by omega)
    rw [once]

/-- Z and N of a result of `b` bits. -/
theorem zn_eq {r : Nat} (small : r < 2 ^ b) : zn b r = { z := some (decide (r = 0)), n := some (decide (2 ^ (b - 1) ≤ r)) } := by
  rw [zn, Nat.mod_eq_of_lt small, negative_eq pos small]

/-! ## Addition and subtraction -/

omit pos in
theorem lowBits_bmod (n : Nat) : Int.bmod ((n % 2 ^ b : Nat) : Int) (2 ^ b) = Int.bmod n (2 ^ b) := by
  rw [Int.natCast_emod, Int.emod_bmod]

omit pos in
theorem natCast_wrap (v : Int) : ((wrap b v : Nat) : Int) = v % ((2 ^ b : Nat) : Int) :=
  Int.toNat_of_nonneg (Int.emod_nonneg _ (Int.natCast_ne_zero.mpr (Nat.ne_of_gt (Nat.two_pow_pos b))))

omit pos in
theorem wrap_lt (v : Int) : wrap b v < 2 ^ b := by
  have below := Int.emod_lt_of_pos v (b := ((2 ^ b : Nat) : Int)) (by exact_mod_cast Nat.two_pow_pos b)
  rw [← natCast_wrap] at below
  exact_mod_cast below

omit pos in
theorem wrap_bmod (v : Int) : Int.bmod (wrap b v : Nat) (2 ^ b) = Int.bmod v (2 ^ b) := by
  rw [natCast_wrap, Int.emod_bmod]

/-- What an addition of `n`, `m` and a carry of `k` gives at `b` bits. -/
def Adds (b n m k : Nat) (r : AluOut) : Prop :=
  r.val = (n + m + k) % 2 ^ b ∧ r.flags.c = some (decide (2 ^ b ≤ n + m + k)) ∧ r.flags.z = some (decide (r.val = 0)) ∧
    r.flags.n = some (decide (2 ^ (b - 1) ≤ r.val)) ∧
    r.flags.v = some (decide (sInt b n + sInt b m + k < -(2 ^ (b - 1) : Int) ∨ (2 ^ (b - 1) : Int) ≤ sInt b n + sInt b m + k))

/-- What a subtraction of `m` and a borrow of `k` from `n` gives at `b` bits. -/
def Subtracts (b n m k : Nat) (r : AluOut) : Prop :=
  (r.val + m + k) % 2 ^ b = n ∧ r.val < 2 ^ b ∧ r.flags.c = some (decide (n < m + k)) ∧ r.flags.z = some (decide (r.val = 0)) ∧
    r.flags.n = some (decide (2 ^ (b - 1) ≤ r.val)) ∧
    r.flags.v = some (decide (sInt b n - sInt b m - k < -(2 ^ (b - 1) : Int) ∨ (2 ^ (b - 1) : Int) ≤ sInt b n - sInt b m - k))

theorem addFlags_adds (x y : Nat) (cin : Bool) : Adds b (x % 2 ^ b) (y % 2 ^ b) cin.toNat (addFlags b x y cin) := by
  have small : (x % 2 ^ b + y % 2 ^ b + cin.toNat) % 2 ^ b < 2 ^ b := Nat.mod_lt _ (Nat.two_pow_pos b)
  refine ⟨rfl, rfl, ?z, ?n, ?v⟩
  case z => simp only [addFlags, zn_eq pos small]
  case n => simp only [addFlags, zn_eq pos small]
  case v =>
    simp only [addFlags, sInt_eq_bmod pos, lowBits_bmod]
    rw [Int.natCast_add, Int.natCast_add, ← bmod_sum, lowBits_bmod, lowBits_bmod]
    exact congrArg some (decide_eq_decide.mpr (ne_bmod_iff pos _))

theorem subFlags_subtracts (x y : Nat) (bin : Bool) : Subtracts b (x % 2 ^ b) (y % 2 ^ b) bin.toNat (subFlags b x y bin) := by
  refine ⟨?back, wrap_lt _, rfl, ?z, ?n, ?v⟩
  case back =>
    apply Int.natCast_inj.mp
    simp only [subFlags, Int.natCast_emod _ (2 ^ b), Int.natCast_add, natCast_wrap]
    rw [Int.add_assoc, Int.emod_add_emod, Int.sub_sub, Int.sub_add_cancel, Int.emod_emod]
  case z => simp only [subFlags, zn_eq pos (wrap_lt _)]
  case n => simp only [subFlags, zn_eq pos (wrap_lt _)]
  case v =>
    simp only [subFlags, sInt_eq_bmod pos, wrap_bmod, lowBits_bmod]
    rw [← bmod_difference, lowBits_bmod, lowBits_bmod]
    exact congrArg some (decide_eq_decide.mpr (ne_bmod_iff pos _))

end

/-! ## The obligation -/

/-- Settles O49: at every width the flags say where the exact sum or difference leaves the range of the result. -/
theorem additionAndSubtractionFlags : Obligations.AdditionAndSubtractionFlags := by
  intro b size x y c free n m k
  have pos : 0 < b := by
    simp only [List.mem_cons, List.not_mem_nil, or_false] at size
    omega
  have carry : k = c.toNat := by cases c <;> rfl
  rw [carry]
  refine ⟨fun p row => ?add, fun p row => ?subtract⟩
  case add =>
    have either : p = (Alu.add, 0) ∨ p = (Alu.adc, c.toNat) := by simpa using row
    rcases either with rfl | rfl
    · exact addFlags_adds pos x.toNat y.toNat false
    · exact addFlags_adds pos x.toNat y.toNat c
  case subtract =>
    have either : p = (Alu.sub, 0) ∨ p = (Alu.sbb, c.toNat) := by simpa using row
    rcases either with rfl | rfl
    · exact subFlags_subtracts pos x.toNat y.toNat false
    · exact subFlags_subtracts pos x.toNat y.toNat c

end Sys2Proof.Proofs
end

section
/-! SUPPORT. SW, ECAUSE, tags and reset (R198, R205, R213, R217, R218, R220, R493): the fields of a word after a bit or PL is replaced, entering
an exception and returning from one, and the settling of the obligations on them. -/

namespace Sys2Proof.Proofs

open Sys2Proof Sys2Proof.Machine

/-! ## Fields of a word -/

theorem testBit_natField (n lo w i : Nat) : (natField n lo w).testBit i = (decide (i < w) && n.testBit (lo + i)) := by
  rw [natField, Nat.testBit_mod_two_pow, Nat.testBit_div_two_pow, Nat.add_comm]

/-- A field hangs on its own bits alone. -/
theorem natField_congr {x y : Word} {lo w : Nat} (same : ∀ j, lo ≤ j → j < lo + w → x.getLsbD j = y.getLsbD j) :
    natField x.toNat lo w = natField y.toNat lo w := by
  refine Nat.eq_of_testBit_eq fun i => ?_
  rw [testBit_natField, testBit_natField, BitVec.testBit_toNat, BitVec.testBit_toNat]
  by_cases inside : i < w
  · rw [same (lo + i) (by omega) (by omega)]
  · simp [inside]

theorem getLsbD_one_shiftLeft {i : Nat} (inWord : i < 64) (j : Nat) : ((1 : BitVec 64) <<< i).getLsbD j = decide (j = i) := by
  refine (congrArg (BitVec.getLsbD · j) (BitVec.twoPow_eq 64 i).symm).trans ?_
  simp [BitVec.getLsbD_twoPow, inWord, eq_comm]

theorem getLsbD_setBit {i : Nat} (inWord : i < 64) (w : BitVec 64) (b : Bool) (j : Nat) :
    (setBit w i b).getLsbD j = if j = i then b else w.getLsbD j := by
  have bit := getLsbD_one_shiftLeft inWord j
  cases b with
  | true =>
    simp only [setBit, if_true, BitVec.getLsbD_or, bit]
    by_cases same : j = i <;> simp [same]
  | false =>
    simp only [setBit, Bool.false_eq_true, if_false, BitVec.getLsbD_and, BitVec.getLsbD_not, bit]
    by_cases same : j = i
    · simp [same]
    · simpa [same] using BitVec.lt_of_getLsbD

theorem getLsbD_plMask (j : Nat) : (0x300 : BitVec 64).getLsbD j = (decide (j = 8) || decide (j = 9)) := by
  by_cases inWord : j < 64
  · have each : ∀ i : Fin 64, (0x300 : BitVec 64).getLsbD i.val = (decide (i.val = 8) || decide (i.val = 9)) := by decide
    exact each ⟨j, inWord⟩
  · rw [BitVec.getLsbD_of_ge _ _ (by omega), decide_eq_false (by omega : ¬ j = 8), decide_eq_false (by omega : ¬ j = 9)]
    rfl

/-- Replacing PL changes bits 8 and 9 alone. -/
theorem getLsbD_setPl (w : BitVec 64) (pl j : Nat) :
    (setPl w pl).getLsbD j = if j = 8 then pl.testBit 0 else if j = 9 then pl.testBit 1 else w.getLsbD j := by
  have low : ∀ i, (pl % 4).testBit i = (decide (i < 2) && pl.testBit i) := Nat.testBit_mod_two_pow pl 2
  by_cases inWord : j < 64
  · simp only [setPl, BitVec.getLsbD_or, BitVec.getLsbD_and, BitVec.getLsbD_not, getLsbD_plMask, BitVec.getLsbD_shiftLeft, BitVec.getLsbD_ofNat,
      low, inWord]
    by_cases is8 : j = 8
    · simp [is8]
    · by_cases is9 : j = 9
      · simp [is9]
      · by_cases below : j < 8
        · simp [is8, is9, below]
        · have above : ¬ j - 8 < 2 := by omega
          simp [is8, is9, below, above]
  · rw [BitVec.getLsbD_of_ge _ _ (by omega), BitVec.getLsbD_of_ge _ _ (by omega), if_neg (by omega), if_neg (by omega)]

theorem natField_setPl (w : BitVec 64) {pl : Nat} (small : pl < 4) : natField (setPl w pl).toNat 8 2 = pl := by
  refine Nat.eq_of_testBit_eq fun i => ?_
  rw [testBit_natField, BitVec.testBit_toNat, getLsbD_setPl]
  by_cases inField : i < 2
  · have either : i = 0 ∨ i = 1 := by omega
    rcases either with rfl | rfl <;> rfl
  · have wide : 2 ^ 2 ≤ 2 ^ i := Nat.pow_le_pow_right (by decide) (by omega)
    have above : pl.testBit i = false := Nat.testBit_lt_two_pow (by omega)
    simp [inField, above]

/-! ## Entering an exception (R213) -/

/-- SW at the entry to a level. -/
theorem enterException_sw (a : Arch) (x : Exc) {k : Nat} (level : k < 4) (code : Nat) (epc : BitVec 47) :
    let w := (enterException a x k code epc).sw
    natField w.toNat 8 2 = k ∧ swIe w = false ∧ swExl w = true ∧ swSs w = false ∧
      ∀ j, j ∉ [8, 9, 10, 11, 12] → w.getLsbD j = a.sw.getLsbD j := by
  intro w
  have bits : ∀ j, w.getLsbD j = if j = 12 then false else if j = 11 then true else if j = 10 then false else (setPl a.sw k).getLsbD j :=
    fun j => by simp only [w, enterException, getLsbD_setBit (show 12 < 64 by omega), getLsbD_setBit (show 11 < 64 by omega),
      getLsbD_setBit (show 10 < 64 by omega)]
  refine ⟨?_, bits 10, bits 11, bits 12, fun j other => ?_⟩
  · rw [← natField_setPl a.sw level]
    refine natField_congr fun j low high => ?_
    rw [bits, if_neg (by omega), if_neg (by omega), if_neg (by omega)]
  · simp only [List.mem_cons, List.not_mem_nil, or_false, not_or] at other
    obtain ⟨not8, not9, not10, not11, not12⟩ := other
    rw [bits, if_neg not12, if_neg not11, if_neg not10, getLsbD_setPl, if_neg not8, if_neg not9]

/-- The banks at the entry to a level: its own holds the exception, the other is as it was. -/
theorem enterException_banks (a : Arch) (x : Exc) {k : Nat} (level : k ≤ 1) (code : Nat) (epc : BitVec 47) :
    let b := enterException a x k code epc
    b.bank k = { a.bank k with esw := a.sw, epc := ⟨epc.setWidth 64, .codeptr⟩, ecause := excCause x (swPl a.sw) code,
                               eaddr := BitVec.ofNat 64 x.eaddr, einfo := BitVec.ofNat 64 x.einfo,
                               walkinfo := x.walkinfo.getD (a.bank k).walkinfo } ∧
      b.bank (1 - k) = a.bank (1 - k) ∧ b = { a with bank0 := b.bank0, bank1 := b.bank1, sw := b.sw, pc := b.pc } := by
  have either : k = 0 ∨ k = 1 := by omega
  rcases either with rfl | rfl <;> exact ⟨rfl, rfl, rfl⟩

/-- An exception that is no double fault enters its level. -/
theorem takeExceptionAt_single {c k : Nat} {s : State} (single : doubleFault (s.core c).arch k = false) (x : Exc) (epc : BitVec 47) :
    takeExceptionAt c x k epc s =
      s.setCore c { s.core c with arch := enterException (s.core c).arch x k x.code epc, waiting := false } :=
  if_neg (by simp [single])

/-- Settles O52: such an exception changes its core alone, and of that core's registers the level's bank, SW and PC. -/
theorem exceptionEntry : Obligations.ExceptionEntry := by
  intro c x k epc s level single t a b
  have entered := takeExceptionAt_single single x epc
  have own : t.core c = { s.core c with arch := enterException a x k x.code epc, waiting := false } := by simp [t, entered, a]
  have arch : b = enterException a x k x.code epc := congrArg CoreSt.arch own
  obtain ⟨bank, other, rest⟩ := enterException_banks a x level x.code epc
  obtain ⟨pl, ie, exl, ss, bits⟩ := enterException_sw a x (k := k) (by omega) x.code epc
  rw [arch]
  refine ⟨bank, other, rfl, pl, ie, exl, ss, bits, rest, congrArg CoreSt.waiting own, fun j apart => ?_, ?_, ?_⟩
  · rw [show t = _ from entered, State.setCore_core, if_neg apart]
  · rw [show t = _ from entered]
    rfl
  · rw [show t = _ from entered]
    rfl

/-! ## ECAUSE (R217) -/

/-- The digits of ECAUSE as a number. -/
theorem excCause_toNat {x : Exc} {pl code : Nat} (code_lt : code < 256) (opnd_lt : x.opnd < 4) (pl_lt : pl < 4) :
    (excCause x pl code).toNat = code + x.fetch.toNat * 2 ^ 8 + x.write.toNat * 2 ^ 9 + x.opnd * 2 ^ 10 + x.upper.toNat * 2 ^ 12 +
      x.tag.code.toNat * 2 ^ 13 + x.indirect.toNat * 2 ^ 17 + pl * 2 ^ 18 ∧ (excCause x pl code).toNat < 2 ^ 20 := by
  have tag := x.tag.code.isLt
  have fetch := x.fetch.toNat_lt
  have write := x.write.toNat_lt
  have upper := x.upper.toNat_lt
  have indirect := x.indirect.toNat_lt
  have digit : ∀ (b : Bool) (n : Nat), (if b then 2 ^ n else 0) = b.toNat * 2 ^ n := fun b n => by cases b <;> simp
  simp only [excCause, digit, BitVec.toNat_ofNat]
  omega

/-- Settles O53: each field is one digit of ECAUSE as a number. That a write of ECAUSE0 changes nothing is the model's choice (log entry 159), and
ECAUSE1 takes none by R218. -/
theorem causeLayout : Obligations.CauseLayout := by
  refine ⟨fun x pl code code_lt opnd_lt pl_lt => ?layout, fun c k => ?reset, fun e s => ⟨_, rfl⟩, fun e t s => ?kept⟩
  case layout =>
    obtain ⟨digits, small⟩ := excCause_toNat (x := x) code_lt opnd_lt pl_lt
    have tag := x.tag.code.isLt
    have fetch := x.fetch.toNat_lt
    have write := x.write.toNat_lt
    have upper := x.upper.toNat_lt
    have indirect := x.indirect.toNat_lt
    have flag : ∀ (i : Nat) (b : Bool), (excCause x pl code).toNat / 2 ^ i % 2 = b.toNat → (excCause x pl code).getLsbD i = b := by
      intro i b digit
      rw [← BitVec.testBit_toNat, Nat.testBit_eq_decide_div_mod_eq, digit]
      cases b <;> rfl
    unfold natField
    refine ⟨?_, flag _ _ ?_, flag _ _ ?_, ?_, flag _ _ ?_, ?_, flag _ _ ?_, ?_, small⟩ <;> omega
  case reset =>
    unfold Arch.bank
    split <;> rfl
  case kept =>
    show ((s.setArch e.c _).core e.c).arch = _
    rw [State.setArch, State.setCore_core, if_pos rfl]
    rfl

/-! ## ERET (R220) -/

theorem returnFrom_sw (a : Arch) {k : Nat} (level : k < 4) :
    let w := (returnFrom a k).sw
    natField w.toNat 8 2 = max k (natField (a.bank k).esw.toNat 8 2) ∧ ∀ j, j ≠ 8 → j ≠ 9 → w.getLsbD j = (a.bank k).esw.getLsbD j := by
  intro w
  simp only [w, returnFrom]
  split
  · rename_i morePrivileged
    exact ⟨by rw [natField_setPl _ level]; omega, fun j not8 not9 => by rw [getLsbD_setPl, if_neg not8, if_neg not9]⟩
  · exact ⟨by omega, fun _ _ _ => rfl⟩

/-- ERET at a level whose EPC holds no CODEPTR takes TAG_TARGET (R220). -/
theorem execEret_traps {a : At} {s s0 : State} :
    let len := instrLen a 1 [] 0
    let e := envOf s a.core.val len
    let b := (s0.core e.c).arch.bank e.pl
    Starts a len a.pfx.isEmpty 1 s s0 → b.epc.tag ≠ .codeptr →
    execEret a s = .next (trapped a len { code := 7, eaddr := b.epc.data.toNat, tag := b.epc.tag } s s0) := by
  intro len e b starts target
  refine runInstr_traps starts ?_
  simp only [Raises, run_bind, run_getArch]
  rw [if_pos target]
  rfl

/-- Settles O54: a CODEPTR in EPC lets ERET restore SW and PC, with PL by `returnFrom_sw`; any other tag takes TAG_TARGET. -/
theorem exceptionReturn : Obligations.ExceptionReturn := by
  intro a s s0 len e b starts
  refine ⟨fun target => ?_, fun target => execEret_traps starts target⟩
  have level : e.pl < 4 := by
    have : e.pl ≤ 2 := Nat.min_le_left _ _
    omega
  obtain ⟨pl, bits⟩ := returnFrom_sw (s0.core e.c).arch level
  exact ⟨returnFrom (s0.core e.c).arch e.pl, execEret_starts starts target, pl, bits, rfl, rfl⟩

/-! ## Tags (R205) -/

/-- An encoding that is not legal takes ILLEGAL once its bytes are fetched (R215). -/
theorem runInstr_illegal {a : At} {len : Nat} {legal : Bool} {level : Nat} {body : Env → CoreRun (BitVec 47)} {s s0 : State}
    (runs : coreRuns s a.core.val = true) (illegal : legal = false)
    (fetched : Yields (fetchWords (envOf s a.core.val len) (codeWords (s.core a.core.val).arch.pc.toNat (min len 24))) s () s0) :
    runInstr a len legal level body s =
      .next (trapped a len { code := 1, eaddr := (envOf s a.core.val len).pc.toNat } s s0) := by
  have stops : (do enterInstr (envOf s a.core.val len) len legal level; body (envOf s a.core.val len) : CoreRun (BitVec 47)).run s =
      (.error (.exc { code := 1, eaddr := (envOf s a.core.val len).pc.toNat }), s0) := by
    have refused : (!legal) = true ∨ 24 < len := Or.inl (by rw [illegal]; rfl)
    have words : (fetchWords (envOf s a.core.val len) (codeWords (envOf s a.core.val len).pc.toNat (min len 24))).run s = (.ok (), s0) := fetched
    simp only [enterInstr, run_bind, words, if_pos refused, run_raiseX]
  unfold runInstr
  have own : coreRuns s (envOf s a.core.val len).c = true := runs
  simp only [own, if_true]
  rw [stops]
  rfl

/-- Settles O55: the codes by the table of R205; TAGSET with a reserved code is no legal encoding. -/
theorem tagCodes : Obligations.TagCodes := by
  refine ⟨rfl, rfl, rfl, rfl, rfl, rfl, rfl, fun t => ?names, by decide, fun a d c s runs reserved => ?tagset⟩
  case names =>
    cases t <;> rfl
  case tagset =>
    intro len e s0 fetched
    have illegal : (a.pfx.isEmpty && opdDst d && (Tag.ofCode (c.truncate 4)).isSome) = false := by rw [reserved]; exact Bool.and_false _
    show execTagset a d c s = _
    exact runInstr_illegal runs illegal fetched

/-! ## Reset (R198, R218, R493, R496) -/

/-- Settles O47: each value as `State.reset` gives it. -/
theorem resetIsAsTheSpecSays : Obligations.ResetIsAsTheSpecSays := by
  refine ⟨?sound, rfl, rfl, rfl, rfl, fun c => ⟨rfl, fun k => ?banks⟩, fun l => rfl⟩
  case sound => exact ⟨rfl, by simp [State.reset], by simp [State.reset], by simp [State.reset]⟩
  case banks =>
    unfold Arch.bank
    split <;> exact ⟨rfl, rfl, rfl, rfl, rfl⟩

end Sys2Proof.Proofs
end

section
/-! SUPPORT. How the bodies of core instructions go on after the operands they read and the checks they make: one rule for each part that several
bodies share. -/

namespace Sys2Proof.Proofs

open Sys2Proof Sys2Proof.Machine

theorem yields_get (s : State) : Yields get s s s := run_get s

theorem yields_set (t s : State) : Yields (set t) s () t := run_set t s

/-! ## Operands -/

section
variable {β : Type} {e : Env} {n m : Nat} {k0 k1 : AccKind} {fp : Bool} {d o : Opd} {s s1 s2 : State} {pd ps : Place} {x y : Src} {w : β}

theorem oneRead_then {f : Place → Src → CoreRun β} (reads : Yields (oneRead e n k0 fp o) s (ps, y) s1) (rest : Yields (f ps y) s1 w s2) :
    Yields (do let p ← formOpd e 0 n k0 o; let x ← readPlace e 0 n fp p; f p x) s w s2 := by
  simpa only [oneRead, bind_assoc, pure_bind] using yields_bind (f := fun r => f r.1 r.2) reads rest

theorem destSource_then {f : Place → Place → Src → CoreRun β} (reads : Yields (destSource e n m fp d o) s (pd, ps, y) s1)
    (rest : Yields (f pd ps y) s1 w s2) :
    Yields (do let p ← formOpd e 0 n { write := true } d; let q ← formOpd e 1 m {} o; let x ← readPlace e 1 m fp q; f p q x) s w s2 := by
  simpa only [destSource, bind_assoc, pure_bind] using yields_bind (f := fun r => f r.1 r.2.1 r.2.2) reads rest

theorem bothRead_then {f : Place → Place → Src → Src → CoreRun β} (reads : Yields (bothRead e n k0 k1 fp d o) s ((pd, ps), (x, y)) s1)
    (rest : Yields (f pd ps x y) s1 w s2) :
    Yields (do let p ← formOpd e 0 n k0 d; let q ← formOpd e 1 n k1 o; let x ← readPlace e 0 n fp p; let y ← readPlace e 1 n fp q; f p q x y)
      s w s2 := by
  simpa only [bothRead, bind_assoc, pure_bind] using yields_bind (f := fun r => f r.1.1 r.1.2 r.2.1 r.2.2) reads rest

theorem stackAcc_then {r : Nat} {off : Int} {k : AccKind} {sp : Nat} {acc : Acc} {f : Nat → Acc → CoreRun β}
    (formed : Yields (stackAcc e r off k) s (sp, acc) s1) (rest : Yields (f sp acc) s1 w s2) :
    Yields (do let a ← stackAddr e r off; let b ← formAcc e a 8 3 k; f a b) s w s2 := by
  simpa only [stackAcc, bind_assoc, pure_bind] using yields_bind (f := fun r => f r.1 r.2) formed rest

end

/-! ## Steps that are taken on a condition -/

section
variable {β : Type} {s s1 t : State} {w : β}

/-- A step whose condition fails, such as raising an exception, is passed over. -/
theorem yields_skip {c : Prop} [Decidable c] {m k : CoreRun β} (fails : ¬ c) (rest : Yields k s w t) : Yields (if c then m else k) s w t := by
  rwa [if_neg fails]

theorem yields_take {c : Prop} [Decidable c] {m k : CoreRun β} (holds : c) (first : Yields m s w t) : Yields (if c then m else k) s w t := by
  rwa [if_pos holds]

/-- A step of no value that is taken where its condition holds. -/
theorem yields_when {c : Prop} [Decidable c] {m : CoreRun Unit} {f : Unit → CoreRun β}
    (step : Yields (if c then m else pure ()) s () s1) (rest : Yields (f ()) s1 w t) : Yields (if c then m >>= f else f ()) s w t := by
  by_cases holds : c
  · rw [if_pos holds] at step ⊢
    exact yields_bind step rest
  · rw [if_neg holds] at step ⊢
    cases step
    exact rest

/-- A source is checked unless its move is tag-transparent (R206). -/
theorem yields_checkUnless {clear : Bool} {y : Src} {ok : Tag → Bool} {f : Unit → CoreRun β} (passes : (clear || y.passes ok) = true)
    (rest : Yields (f ()) s w t) : Yields (if (!clear) = true then checkSrc y ok >>= f else f ()) s w t := by
  refine yields_when ?_ rest
  cases clear with
  | true => exact yields_pure () s
  | false => exact run_checkSrc passes s

/-- Both operands are checked unless their exchange is tag-transparent (R206). -/
theorem yields_checkBothUnless {clear : Bool} {x y : Src} {ok : Tag → Bool} {f : Unit → CoreRun β}
    (pass : (clear || x.passes ok && y.passes ok) = true) (rest : Yields (f ()) s w t) :
    Yields (if (!clear) = true then (do checkSrc x ok; let r ← checkSrc y ok; f r) else f ()) s w t := by
  cases clear with
  | true => exact rest
  | false =>
    obtain ⟨x_ok, y_ok⟩ := Bool.and_eq_true_iff.mp pass
    exact yields_bind (run_checkSrc x_ok s) (yields_bind (run_checkSrc y_ok s) rest)

/-- A free value is taken where one is needed. -/
theorem yields_freeIf {c : Prop} [Decidable c] {f : Word → CoreRun β}
    (rest : Yields (f (if c then freeValue s else 0)) (if c then s.took else s) w t) :
    Yields (if c then takeFree >>= f else pure 0 >>= f) s w t := by
  split at rest
  · rename_i holds
    rw [if_pos holds]
    exact yields_bind (run_takeFree s) rest
  · rename_i fails
    rw [if_neg fails]
    exact yields_bind (yields_pure 0 s) rest

end

/-! ## Checks of one operand -/

/-- A CODEPTR is a target (R210). -/
theorem yields_checkTarget {y : Src} (passes : y.passes (fun t => decide (t = .codeptr)) = true) (s : State) : Yields (checkTarget y) s () s := by
  simp only [Src.passes, Bool.and_eq_true, Option.isNone_iff_eq_none, decide_eq_true_eq] at passes
  obtain ⟨whole, target⟩ := passes
  simp [Yields, checkTarget, whole, target, run_pure]

/-- Tag instructions take a register or an aligned word (R211). -/
theorem yields_checkAligned {p : Place} (aligned : p.aligned = true) (s : State) : Yields (checkAligned p) s () s := by
  cases p with
  | mem a => exact yields_skip (not_not_intro (of_decide_eq_true aligned)) (yields_pure () s)
  | _ => exact yields_pure () s

end Sys2Proof.Proofs
end

section
/-! SUPPORT. The integer instructions, moves and compares (R204–R211, R227): what the body of each yields, and the settling of the obligations. -/

namespace Sys2Proof.Proofs

open Sys2Proof Sys2Proof.Machine

/-! ## The bodies -/

section
variable {e : Env} {n : Nat} {d o : Opd} {s s1 s2 : State} {pd ps : Place} {x y : Src}

/-- dst ← dst op src writes the result, then its flags. -/
theorem aluBody_yields {op : Alu} :
    let takes := needsFree op (8 * n) y.val.toNat
    let r := alu op (8 * n) x.val.toNat y.val.toNat (flagC (s1.core e.c).arch.sw) ((if takes then freeValue s1 else 0).getLsbD 0)
    Yields (bothRead e n { write := true } {} false d o) s ((pd, ps), (x, y)) s1 →
    x.passes (accepts0 op n) = true → y.passes (accepts1 op n x.tag) = true → pd.takes (aluTag x.tag y.tag) = true →
    dividesByZero op (8 * n) y.val.toNat = false →
    Yields (writePlace e n pd (BitVec.ofNat 64 r.val) (aluTag x.tag y.tag)) (if takes then s1.took else s1) () s2 →
    Yields (aluBody op n d o e) s e.npc (withFlags s2 e.c r.flags) := by
  intro takes r reads x_ok y_ok d_ok divides written
  have sameSw : ((if takes then s1.took else s1).core e.c).arch = (s1.core e.c).arch := by split <;> rfl
  refine bothRead_then reads (yields_bind (run_checkSrc x_ok s1) (yields_bind (run_checkSrc y_ok s1) (yields_bind (run_checkDst d_ok 0 s1)
    (yields_skip (by simp [divides]) (yields_freeIf (yields_bind (yields_getArch e _) ?_))))))
  rw [sameSw]
  exact yields_bind written (yields_bind (yields_changeArch e _ s2) (yields_pure _ _))

/-- A move writes its source with its tag. -/
theorem moveBody_yields {fp : Bool} (reads : Yields (destSource e n n fp d o) s (pd, ps, y) s1)
    (ok : (transparent n pd ps || y.passes (if fp then isFpTag else isIntTag)) = true) (d_ok : pd.takes y.tag = true)
    (written : Yields (writePlace e n pd y.val y.tag) s1 () s2) : Yields (moveBody fp n d o e) s e.npc s2 :=
  destSource_then reads (yields_checkUnless ok (yields_bind (run_checkDst d_ok 0 s1) (yields_bind written (yields_pure _ _))))

/-- A compare changes the flags alone. -/
theorem compareBody_yields {op : Alu} (reads : Yields (bothRead e n {} {} false d o) s ((pd, ps), (x, y)) s1)
    (x_ok : x.passes comparable = true) (y_ok : y.passes comparable = true) :
    Yields (compareBody op n d o e) s e.npc (withFlags s1 e.c (alu op (8 * n) x.val.toNat y.val.toNat false false).flags) :=
  bothRead_then reads (yields_bind (run_checkSrc x_ok s1) (yields_bind (run_checkSrc y_ok s1)
    (yields_bind (yields_changeArch e _ s1) (yields_pure _ _))))

theorem unaryBody_yields {f : Nat → AluOut} (reads : Yields (oneRead e n { write := true } false d) s (pd, x) s1)
    (x_ok : x.passes isIntTag = true)
    (written : Yields (writePlace e n pd (BitVec.ofNat 64 (f x.val.toNat).val) (intTag x.tag x.tag)) s1 () s2) :
    Yields (unaryBody n d f e) s e.npc (withFlags s2 e.c (f x.val.toNat).flags) :=
  oneRead_then reads (yields_bind (run_checkSrc x_ok s1) (yields_bind written (yields_bind (yields_changeArch e _ s2) (yields_pure _ _))))

/-- A move that replaces a tag (R211). -/
theorem retagBody_yields {ok : Tag → Bool} {t : Tag} (reads : Yields (destSource e 8 8 false d o) s (pd, ps, y) s1)
    (y_ok : y.passes ok = true) (d_ok : pd.takes t = true) (written : Yields (writePlace e 8 pd y.val t) s1 () s2) :
    Yields (retagBody ok t d o e) s e.npc s2 :=
  destSource_then reads (yields_bind (run_checkSrc y_ok s1) (yields_bind (run_checkDst d_ok 0 s1) (yields_bind written (yields_pure _ _))))

theorem passes_congr (y : Src) {ok ok' : Tag → Bool} (same : ∀ t, ok t = ok' t) : y.passes ok = y.passes ok' := by
  rw [funext same]

/-- The tags that MKPTR and MKCODE accept, as a list and as the test they make. -/
theorem int_contains (t : Tag) : [Tag.int].contains t = decide (t = .int) := by
  cases t <;> rfl

/-- The tags that PTRINT accepts, as a list and as the test it makes. -/
theorem pointerOrInt_contains (t : Tag) :
    [Tag.int, .ptr, .codeptr].contains t = (decide (t = .int) || decide (t = .ptr) || decide (t = .codeptr)) := by
  cases t <;> rfl

/-- LEA and LEAC form the address of operand 1 and access nothing. -/
theorem leaBody_yields {t : Tag} {va : Nat} {s3 : State} (formed : Yields (formOpd e 0 8 { write := true } d) s pd s1)
    (address : Yields (formAddr e 1 o) s1 va s2) (d_ok : pd.takes t = true)
    (written : Yields (writePlace e 8 pd (BitVec.ofNat 64 va) t) s2 () s3) : Yields (leaBody t d o e) s e.npc s3 :=
  yields_bind formed (yields_bind address (yields_bind (run_checkDst d_ok 0 s2) (yields_bind written (yields_pure _ _))))

end

/-! ## The obligations -/

/-- Settles O1: each row is `aluInstr` of its operation. -/
theorem aluCompletes : Obligations.AluCompletes := by
  intro p row a z d o s s0 s1 s2 pd ps x y len e n t takes r starts reads x_ok y_ok d_ok divides written
  rw [exec_aluRow row]
  exact runInstr_ends starts (aluBody_yields reads x_ok y_ok d_ok divides written)

/-- Settles O2: each body in the order of its parts. -/
theorem movesComplete : Obligations.MovesComplete := by
  refine ⟨?mov, ?fmov, ?sxt, ?tagr, ?retag, ?lea, ?xchg⟩
  case mov =>
    exact fun a z d o s s0 s1 s2 pd ps y starts reads ok d_ok written => runInstr_ends starts (moveBody_yields reads ok d_ok written)
  case fmov =>
    exact fun a z d o s s0 s1 s2 pd ps y starts reads ok d_ok written => runInstr_ends starts (moveBody_yields reads ok d_ok written)
  case sxt =>
    intro a z d o s s0 s1 s2 pd ps y len e starts reads y_ok d_ok written
    show execSxt a z d o s = _
    exact runInstr_ends starts (destSource_then reads (yields_bind (run_checkSrc y_ok s1) (yields_bind (run_checkDst d_ok 0 s1)
      (yields_bind written (yields_pure _ _)))))
  case tagr =>
    intro a d o s s0 s1 s2 pd ps y len e starts reads y_ok written
    show execTagr a d o s = _
    exact runInstr_ends starts (destSource_then reads (yields_bind (run_checkSrc y_ok s1) (yields_bind written (yields_pure _ _))))
  case retag =>
    intro p row a d o s s0 s1 s2 pd ps y len e starts reads y_ok d_ok written
    simp only [List.mem_cons, List.not_mem_nil, or_false] at row
    rcases row with rfl | rfl | rfl
    · exact runInstr_ends starts (retagBody_yields reads ((passes_congr y pointerOrInt_contains).symm.trans y_ok) d_ok written)
    · exact runInstr_ends starts (retagBody_yields reads ((passes_congr y int_contains).symm.trans y_ok) d_ok written)
    · exact runInstr_ends starts (retagBody_yields reads ((passes_congr y int_contains).symm.trans y_ok) d_ok written)
  case lea =>
    intro p row a d o s s0 s1 s2 s3 pd va len e starts formed address d_ok written
    have either : p = (Instr.lea, Tag.ptr, opdMem) ∨ p = (Instr.leac, Tag.codeptr, Opd.isPc) := by simpa using row
    rcases either with rfl | rfl
    · exact runInstr_ends starts (leaBody_yields formed address d_ok written)
    · exact runInstr_ends starts (leaBody_yields formed address d_ok written)
  case xchg =>
    intro a d o s s0 s1 s2 s3 pd ps x y len e starts reads ok d_ok o_ok first second
    show execXchg a d o s = _
    exact runInstr_ends starts (bothRead_then reads (yields_checkBothUnless ok (yields_bind (run_checkDst d_ok 0 s1)
      (yields_bind (run_checkDst o_ok 1 s1) (yields_bind first (yields_bind second (yields_pure _ _)))))))

/-- Settles O3: each body reads its operands, checks them and changes SW. -/
theorem comparesComplete : Obligations.ComparesComplete := by
  refine ⟨?compare, ?fcmp, ?ttest⟩
  case compare =>
    intro p row a z d o s s0 s1 pd ps x y len e starts reads x_ok y_ok
    have either : p = (Instr.cmp, Alu.sub) ∨ p = (Instr.tst, Alu.and) := by simpa using row
    rcases either with rfl | rfl
    · exact runInstr_ends starts (compareBody_yields reads x_ok y_ok)
    · exact runInstr_ends starts (compareBody_yields reads x_ok y_ok)
  case fcmp =>
    intro a z d o s s0 s1 pd ps x y len e r starts reads x_ok y_ok
    show execFcmp a z d o s = _
    exact runInstr_ends starts (bothRead_then reads (yields_bind (run_checkSrc x_ok s1) (yields_bind (run_checkSrc y_ok s1)
      (yields_bind (yields_changeArch e _ s1) (yields_pure _ _)))))
  case ttest =>
    intro a o t s s0 s1 ps y len e starts reads y_ok
    show execTtest a o t s = _
    exact runInstr_ends starts (oneRead_then reads (yields_bind (run_checkSrc y_ok s1) (yields_bind (yields_changeArch e _ s1) (yields_pure _ _))))

/-- Settles O4: each body in the order of its parts. -/
theorem unariesComplete : Obligations.UnariesComplete := by
  refine ⟨?unary, ?tagset, ?kill⟩
  case unary =>
    intro p row a z d s s0 s1 s2 pd x len e r starts reads x_ok written
    simp only [List.mem_cons, List.not_mem_nil, or_false] at row
    rcases row with rfl | rfl
    · exact runInstr_ends starts (unaryBody_yields reads x_ok written)
    · exact runInstr_ends starts (unaryBody_yields reads x_ok written)
  case tagset =>
    intro a d t c s s0 s1 s2 s3 pd y len e starts named formed aligned read d_ok written
    have legal : (a.pfx.isEmpty && opdDst d && (Tag.ofCode (c.truncate 4)).isSome) = (a.pfx.isEmpty && opdDst d) := by
      rw [named]
      exact Bool.and_true _
    have tag : (Tag.ofCode (c.truncate 4)).getD .int = t := by rw [named]; rfl
    show execTagset a d c s = _
    unfold execTagset
    rw [legal, tag]
    exact runInstr_ends starts (yields_bind formed (yields_bind (yields_checkAligned aligned s1) (yields_bind read
      (yields_bind (run_checkDst d_ok 0 s2) (yields_bind written (yields_pure _ _))))))
  case kill =>
    intro a d s s0 s1 s2 pd len e starts formed aligned d_ok written
    show execKill a d s = _
    exact runInstr_ends starts (yields_bind formed (yields_bind (yields_checkAligned aligned s1) (yields_bind (run_checkDst d_ok 0 s1)
      (yields_bind written (yields_pure _ _)))))

end Sys2Proof.Proofs
end

section
/-! SUPPORT. The stack, control flow and control registers (R208, R210, R218, R227, R228): the settling of the obligations. -/

namespace Sys2Proof.Proofs

open Sys2Proof Sys2Proof.Machine

/-! ## The stack -/

/-- Settles O5: each body in the order of its parts. That POP moves P12 before it writes its destination is the model's choice (log entry 9). -/
theorem stackCompletes : Obligations.StackCompletes := by
  refine ⟨?push, ?pop, ?enter, ?leave⟩
  case push =>
    intro a o s s0 s1 s2 s3 s4 ps sp acc y len e starts formed stack read ok m_ok written
    show execPush a o s = _
    exact runInstr_ends starts (yields_bind formed (stackAcc_then stack (yields_bind read (yields_checkUnless ok
      (yields_bind (run_checkDst m_ok 3 s3) (yields_bind written (yields_bind (yields_changeArch e _ s4) (yields_pure _ _))))))))
  case pop =>
    intro a d s s0 s1 s2 s3 s4 pd sp acc y len e starts formed stack read ok d_ok written
    show execPop a d s = _
    exact runInstr_ends starts (yields_bind formed (stackAcc_then stack (yields_bind read (yields_checkUnless ok
      (yields_bind (run_checkDst d_ok 0 s3) (yields_bind (yields_changeArch e _ s3) (yields_bind written (yields_pure _ _))))))))
  case enter =>
    intro a u s s0 s1 s2 sp acc len e y fp starts stack m_ok written
    show execEnter a u s = _
    exact runInstr_ends starts (stackAcc_then stack (yields_bind (yields_getArch e s1) (yields_bind (run_checkDst m_ok 3 s1)
      (yields_bind written (yields_bind (yields_changeArch e _ s2) (yields_pure _ _))))))
  case leave =>
    intro a u s s0 s1 s2 sp acc y len e starts stack read
    show execLeave a u s = _
    exact runInstr_ends starts (stackAcc_then stack (yields_bind read (yields_bind (yields_changeArch e _ s2) (yields_pure _ _))))

/-! ## Control flow -/

/-- Settles O6: each body in the order of its parts; BCC by whether its condition holds. -/
theorem branchesComplete : Obligations.BranchesComplete := by
  refine ⟨?bcc, ?br, ?call, ?calli, ?bri, ?ret, ?nop⟩
  case bcc =>
    intro a cond hint d s s0 s1 s2 len e taken starts predicted noted
    show execBcc a cond hint d s = _
    cases holds : taken with
    | true =>
      exact runInstr_ends starts (yields_bind (yields_getArch e s0) (yields_bind predicted
        (yields_take holds (yields_bind noted (yields_pure _ _)))))
    | false =>
      exact runInstr_ends starts (yields_bind (yields_getArch e s0) (yields_bind predicted
        (yields_skip (Bool.eq_false_iff.mp holds) (yields_pure _ _))))
  case br =>
    intro a d s s0 s1 len e starts noted
    show execBr a d s = _
    exact runInstr_ends starts (yields_bind noted (yields_pure _ _))
  case call =>
    intro a d s s0 s1 s2 s3 sp acc len e starts stack m_ok pushed noted
    show execCall a d s = _
    exact runInstr_ends starts (stackAcc_then stack (yields_bind (run_checkDst m_ok 3 s1) (yields_bind pushed (yields_bind noted
      (yields_pure _ _)))))
  case calli =>
    intro a o s s0 s1 s2 s3 s4 s5 s6 ps sp acc y len e starts formed stack read target m_ok pushed predicted noted
    show execCalli a o s = _
    exact runInstr_ends starts (yields_bind formed (stackAcc_then stack (yields_bind read (yields_bind (yields_checkTarget target s3)
      (yields_bind (run_checkDst m_ok 3 s3) (yields_bind pushed (yields_bind predicted (yields_bind noted (yields_pure _ _)))))))))
  case bri =>
    intro a o s s0 s1 s2 s3 ps y len e starts reads target predicted noted
    show execBri a o s = _
    exact runInstr_ends starts (oneRead_then reads (yields_bind (yields_checkTarget target s1) (yields_bind predicted
      (yields_bind noted (yields_pure _ _)))))
  case ret =>
    intro a s s0 s1 s2 s3 s4 s5 sp acc y len e starts stack read target predicted popped noted
    show execRet a s = _
    exact runInstr_ends starts (stackAcc_then stack (yields_bind read (yields_bind (yields_checkTarget target s2)
      (yields_bind (yields_changeArch e _ s2) (yields_bind predicted (yields_bind popped (yields_bind noted (yields_pure _ _))))))))
  case nop =>
    intro a s s0 len starts
    show execNop a s = _
    exact runInstr_ends starts (yields_pure _ s0)

/-! ## Control registers -/

/-- Reading a control register writes its value to the destination (R218). -/
theorem mfcrBody_yields {e : Env} {n : Nat} {d : Opd} {s0 s1 s2 : State} {pd : Place} (permitted : Yields (crGate e n false) s0 () s0)
    (formed : Yields (formOpd e 0 8 { write := true } d) s0 pd s1) (d_ok : pd.takes (crRead e n s1).1.tag = true)
    (written : Yields (writePlace e 8 pd (crRead e n s1).1.data (crRead e n s1).1.tag) (crRead e n s1).2 () s2) :
    Yields (mfcrBody n d e) s0 e.npc s2 :=
  yields_bind permitted (yields_bind formed (yields_bind (yields_get s1) (yields_bind (run_checkDst d_ok 0 s1) (yields_bind (yields_set _ s1)
    (yields_bind written (yields_pure _ _))))))

/-- Writing a control register: an aligned VBR, and a source that the stall may set pending, are accepted; TTBR and TCR fence first. -/
theorem mtcrBody_yields {e : Env} {n : Nat} {o : Opd} {s0 s1 s2 : State} {ps : Place} {y : Src} (permitted : Yields (crGate e n true) s0 () s0)
    (reads : Yields (oneRead e 8 {} false o) s0 (ps, y) s1) (y_ok : y.passes (crTakes n) = true)
    (aligned : (n = 0x00 ∨ n = 0x10) → y.val.toNat % 4096 = 0)
    (owned : n = 0x45 → maySetPending s1 (s1.core e.c).stall (y.val.truncate 11).toNat = true)
    (fenced : Yields (if crSyncs n then fenceAll e else pure ()) s1 () s2) (quiet : (crWrite e n ⟨y.val, y.tag⟩ s2).1 = false) :
    Yields (mtcrBody n o e) s0 e.npc (crWrite e n ⟨y.val, y.tag⟩ s2).2 := by
  have noAlign : ¬((n = 0x00 ∨ n = 0x10) ∧ y.val.toNat % 4096 ≠ 0) := fun ⟨vbr, unaligned⟩ => unaligned (aligned vbr)
  have noPrivilege : ¬(n = 0x45 ∧ (!maySetPending s1 (s1.core e.c).stall (y.val.truncate 11).toNat) = true) := fun ⟨setpend, refused⟩ => by
    rw [owned setpend] at refused
    cases refused
  exact yields_bind permitted (oneRead_then reads (yields_bind (run_checkSrc y_ok s1) (yields_skip noAlign (yields_bind (yields_get s1)
    (yields_skip noPrivilege (yields_when fenced (yields_bind (yields_get s2) (yields_bind (yields_set _ s2)
      (yields_skip (by simp [quiet]) (yields_pure _ _))))))))))

/-- Settles O8: every row is MFCR or MTCR of its register. -/
theorem controlRegistersComplete : Obligations.ControlRegistersComplete := by
  refine ⟨?reads, ?writes⟩
  case reads =>
    intro p row a d b s s0 s1 s2 pd n len e r starts permitted formed d_ok written
    have body : Yields (mfcrBody n d e) s0 e.npc s2 := mfcrBody_yields permitted formed d_ok written
    simp only [List.mem_cons, List.not_mem_nil, or_false] at row
    rcases row with rfl | rfl
    · exact runInstr_ends starts body
    · exact runInstr_ends starts body
  case writes =>
    intro p row a b o s s0 s1 s2 ps y n len e r starts permitted reads y_ok aligned owned fenced quiet
    have body : Yields (mtcrBody n o e) s0 e.npc r.2 := mtcrBody_yields permitted reads y_ok aligned owned fenced quiet
    simp only [List.mem_cons, List.not_mem_nil, or_false] at row
    rcases row with rfl | rfl | rfl | rfl | rfl | rfl | rfl | rfl | rfl | rfl <;> exact runInstr_ends starts body

end Sys2Proof.Proofs
end

section
/-! SUPPORT. The scalar floating-point instructions and conversions (R198, R206, R207, R227): what the body of each yields, and the settling of the
obligation. -/

namespace Sys2Proof.Proofs

open Sys2Proof Sys2Proof.Machine

/-! ## The bodies -/

theorem yields_forM_checkSrc {ok : Tag → Bool} {ys : List Src} (pass : ∀ y ∈ ys, y.passes ok = true) (s : State) :
    Yields (ys.forM (fun y => checkSrc y ok)) s () s := by
  induction ys with
  | nil => exact yields_pure () s
  | cons y r ih =>
    obtain ⟨first, rest⟩ := List.forall_mem_cons.mp pass
    exact yields_bind (run_checkSrc first s) (ih rest)

/-- What a floating-point instruction does with its operands once they are read: checks, result and sticky flags. -/
def fpResult (n : Nat) (f : Nat → List Nat → FRes) (e : Env) (pd : Place) (ys : List Src) : CoreRun (BitVec 47) := do
  ys.forM (fun y => checkSrc y isFpTag)
  let r := f (swRm (← getArch e).sw) (ys.map (·.val.toNat))
  writePlace e n pd (BitVec.ofNat 64 r.bits) (fpTag (ys.map (·.tag)))
  changeArch e (fun a => { a with sw := addFpf r.flags a.sw })
  return e.npc

/-- A floating-point instruction reads its operands, dst among them where it is a source, and then has its result. -/
theorem fpBody_eq (n m : Nat) (readDst : Bool) (d : Opd) (ss : List Opd) (f : Nat → List Nat → FRes) (e : Env) :
    fpBody n m readDst d ss f e = fpRead e n m readDst d ss >>= fun r => fpResult n f e r.1 r.2 := by
  cases readDst with
  | true => simp only [fpBody, fpRead, fpResult, if_true, bind_assoc, pure_bind]
  | false => simp only [fpBody, fpRead, fpResult, Bool.false_eq_true, if_false, bind_assoc, pure_bind]

/-- A floating-point operation writes its result, then its sticky flags (R198, R227). -/
theorem fpBody_yields {e : Env} {n m : Nat} {readDst : Bool} {d : Opd} {ss : List Opd} {f : Nat → List Nat → FRes} {s s1 s2 : State} {pd : Place}
    {ys : List Src} :
    let r := f (swRm (s1.core e.c).arch.sw) (ys.map (·.val.toNat))
    Yields (fpRead e n m readDst d ss) s (pd, ys) s1 → (∀ y ∈ ys, y.passes isFpTag = true) →
    Yields (writePlace e n pd (BitVec.ofNat 64 r.bits) (fpTag (ys.map (·.tag)))) s1 () s2 →
    Yields (fpBody n m readDst d ss f e) s e.npc (withFpf s2 e.c r.flags) := by
  intro r reads pass written
  rw [fpBody_eq]
  exact yields_bind reads (yields_bind (yields_forM_checkSrc pass s1) (yields_bind (yields_getArch e s1) (yields_bind written
    (yields_bind (yields_changeArch e _ s2) (yields_pure _ _)))))

/-- A conversion writes its result, then its sticky flags (R207, R227). -/
theorem cvtBody_yields {e : Env} {n m : Nat} {fp : Bool} {ok : Tag → Bool} {t : Tag} {d o : Opd} {f : Nat → Nat → FRes} {s s1 s2 : State}
    {pd ps : Place} {y : Src} :
    let r := f (swRm (s1.core e.c).arch.sw) y.val.toNat
    Yields (destSource e n m fp d o) s (pd, ps, y) s1 → y.passes ok = true →
    Yields (writePlace e n pd (BitVec.ofNat 64 r.bits) (if y.tag = .bytes then .bytes else t)) s1 () s2 →
    Yields (cvtBody n m fp ok t d o f e) s e.npc (withFpf s2 e.c r.flags) := by
  intro r reads y_ok written
  exact destSource_then reads (yields_bind (run_checkSrc y_ok s1) (yields_bind (yields_getArch e s1) (yields_bind written
    (yields_bind (yields_changeArch e _ s2) (yields_pure _ _)))))

/-! ## The obligation -/

/-- Settles O9: every row is a floating-point operation or a conversion of its own function. -/
theorem fpCompletes : Obligations.FpCompletes := by
  refine ⟨?binary, ?fma, ?convert⟩
  case binary =>
    intro p row a z d o s s0 s1 s2 pd ys len e r starts reads pass written
    have body := fpBody_yields (f := p.2.2 (fmtOf z)) reads pass written
    simp only [List.mem_cons, List.not_mem_nil, or_false] at row
    rcases row with rfl | rfl | rfl | rfl | rfl <;> exact runInstr_ends starts body
  case fma =>
    intro a z d o u s s0 s1 s2 pd ys len e l r starts reads pass written
    exact runInstr_ends starts
      (fpBody_yields (f := fun rm l => fMulAdd (fmtOf z) rm (arg l 0) (arg l 1) (arg l 2)) reads pass written)
  case convert =>
    intro p row a d o s s0 s1 s2 pd ps y len e q r starts reads y_ok written
    have body := cvtBody_yields (f := p.2.2.2.2.2) reads y_ok written
    simp only [List.mem_cons, List.not_mem_nil, or_false] at row
    rcases row with rfl | rfl | rfl | rfl | rfl | rfl <;> exact runInstr_ends starts body

end Sys2Proof.Proofs
end

section
/-! SUPPORT. The rein profile (R218, R252–R257): how the bodies of rein instructions compose, what starting and ending one comes to, and the
settling of the obligations. -/

namespace Sys2Proof.Proofs

open Sys2Proof Sys2Proof.Machine

/-! ## Computations of rein instructions -/

section
variable {α β : Type} {s s1 t : State}

theorem ryields_bind {m : RM α} {f : α → RM β} {v : α} {w : β} (first : RYields m s v s1) (rest : RYields (f v) s1 w t) :
    RYields (m >>= f) s w t := by
  unfold RYields at *
  rw [run_bind, first]
  exact rest

theorem ryields_pure (v : α) (s : State) : RYields (pure v) s v s := rfl

theorem ryields_get (s : State) : RYields get s s s := rfl

theorem ryields_set (t s : State) : RYields (set t) s () t := rfl

theorem ryields_rSet (g : Nat) (f : ReinSt → ReinSt) (s : State) : RYields (rSet g f) s () (withRein s g f) := rfl

/-- A step whose condition fails, such as raising an exception, is passed over. -/
theorem ryields_skip {c : Prop} [Decidable c] {m k : RM β} {w : β} (fails : ¬ c) (rest : RYields k s w t) :
    RYields (if c then m else k) s w t := by
  rwa [if_neg fails]

/-- A change of the state that is made where its condition holds. -/
theorem ryields_modifyIf {c : Prop} [Decidable c] {g : State → State} {f : Unit → RM β} {w : β}
    (rest : RYields (f ()) (if c then g s else s) w t) : RYields (if c then modify g >>= f else f ()) s w t := by
  split at rest
  · rename_i holds
    rw [if_pos holds]
    exact ryields_bind (m := modify g) (v := ()) rfl rest
  · rename_i fails
    exact ryields_skip fails rest

end

/-! ## Starting and ending an instruction (R255, R256) -/

/-- What a rein instruction answers once its body has run: it retires, waits, or takes its exception with the load before it landed. -/
def reinAnswer (i : Rein) (s : State) (outcome : Except RStop RNext × State) : Answer :=
  let r := s.reinOf i.pair.val
  match outcome with
  | (.ok n, s1) => .next (rRetire i.pair.val r.load n s1)
  | (.error .wait, s1) => .next { s with pwr := { s.pwr with domains := s1.pwr.domains } }
  | (.error (.exc x), s1) =>
    let s2 := withRein s1 i.pair.val (fun g => g.land r.load)
    .next (if x.next then rTake i.pair.val x r.npc (r.npc + 4) s2 else rTake i.pair.val x r.pc r.npc s2)

section
variable {i : Rein} {legal branch : Bool} {uses : Uses} {body : ReinSt → RM RNext} {s s0 t : State}

/-- A rein instruction that starts answers what its body comes to. -/
theorem runRein_starts (starts : ReinStarts i legal branch uses s s0) :
    runRein i legal branch uses body s = reinAnswer i s ((body (reinAt i s)).run s0) := by
  obtain ⟨runs, quiet, awake, ok, free, slot, begins, q, fetched⟩ := starts
  have stays : ((s.reinOf i.pair.val).waiting && (winner s (.pair i.pair.val)).isNone) = false := by
    cases waits : (s.reinOf i.pair.val).waiting with
    | false => rfl
    | true => rw [Bool.true_and, ← Option.not_isSome, awake waits]; rfl
  unfold RYields at fetched
  unfold runRein reinAnswer
  simp only [runs, quiet, stays, Bool.not_true, Bool.false_eq_true, if_false]
  rw [← begins]
  cases waits : (s.reinOf i.pair.val).load with
  | none =>
    simp only [run_bind, fetched, ok, slot, Bool.not_true, Bool.or_self, Bool.false_eq_true, if_false]
    rfl
  | some l =>
    simp only [run_bind, fetched, ok, slot, free l waits, Bool.not_true, Bool.or_self, Bool.false_eq_true, if_false]
    rfl

/-- A rein instruction that starts and whose body ends retires. -/
theorem runRein_ends {n : RNext} (starts : ReinStarts i legal branch uses s s0) (ends : RYields (body (reinAt i s)) s0 n t) :
    runRein i legal branch uses body s = .next (rRetire i.pair.val (s.reinOf i.pair.val).load n t) := by
  unfold RYields at ends
  rw [runRein_starts starts, ends]
  rfl

/-- A rein instruction that raises an exception after it completes takes it with the load before it landed (R257). -/
theorem runRein_traps {x : RExc} (starts : ReinStarts i legal branch uses s s0) (after : x.next = true)
    (raises : (body (reinAt i s)).run s0 = (.error (.exc x), t)) :
    let r := s.reinOf i.pair.val
    runRein i legal branch uses body s = .next (rTake i.pair.val x r.npc (r.npc + 4) (withRein t i.pair.val (fun g => g.land r.load))) := by
  rw [runRein_starts starts, raises]
  exact congrArg Host.Outcome.next (if_pos after)

end

/-! ## The bodies -/

section
variable {i : Rein} {r : ReinSt} {s s1 : State}

theorem rGet_yields {n : Fin 3} {size : Nat} {v : Word} (loaded : RYields (rOperand i size r) s v s1) :
    RYields (rGet i n size r) s (rSeq r)
      (withRein s1 i.pair.val (fun g => if i.mode = 0 then g.setReg n.val v else { g with load := some (n, v) })) :=
  ryields_bind loaded (ryields_bind (ryields_rSet _ _ s1) (ryields_pure _ _))

theorem rPutReg_yields {n size : Nat} (stored : RYields (rStore (rAddr i r) size (r.reg n)) s () s1) :
    RYields (rPutReg i n size r) s (rSeq r) s1 :=
  ryields_bind stored (ryields_pure _ _)

/-- The result of an operation in A and its flags. -/
def reinResult (i : Rein) (z : AluOut) (s : State) : State :=
  withRein (withRein s i.pair.val (fun g => { g with a := BitVec.ofNat 64 z.val })) i.pair.val (fun g => { g with sw := z.flags.apply g.sw })

theorem rAlu_yields {op : Alu} {y : Word} (loaded : RYields (rOperand i 8 r) s y s1) :
    RYields (rAlu i op r) s (rSeq r) (reinResult i (alu op 64 r.a.toNat y.toNat false false) s1) :=
  ryields_bind loaded (ryields_bind (ryields_rSet _ _ s1) (ryields_bind (ryields_rSet _ _ _) (ryields_pure _ _)))

/-- A shift by 0 takes a free value for C (log entry 8). -/
theorem rShift_yields (op : Alu) (r : ReinSt) (s : State) :
    let k := i.field.toNat % 64
    RYields (rShift i op r) s (rSeq r)
      (reinResult i (alu op 64 r.a.toNat k false ((freeValue s).getLsbD 0)) (if k = 0 then s.took else s)) := by
  intro k
  exact ryields_bind (ryields_get s) (ryields_modifyIf (ryields_bind (ryields_rSet _ _ _) (ryields_bind (ryields_rSet _ _ _) (ryields_pure _ _))))

theorem rStep_yields (n : Nat) (flags : Bool) (r : ReinSt) (s : State) :
    let v := r.reg n + rDisp i
    let s1 := withRein s i.pair.val (fun g => g.setReg n v)
    RYields (rStep i n flags r) s (rSeq r)
      (if flags then withRein s1 i.pair.val (fun g => { g with sw := (zn 64 v.toNat).apply g.sw }) else s1) := by
  intro v s1
  cases flags with
  | true => exact ryields_bind (ryields_rSet _ _ s) (ryields_bind (ryields_rSet _ _ s1) (ryields_pure _ _))
  | false => exact ryields_bind (ryields_rSet _ _ s) (ryields_pure _ s1)

end

/-! ## The obligations -/

/-- Settles O18: each row is a load, a store, an operation, a shift, a step or a copy of its own operands. C after a shift by 0 is a free value
(log entry 8). -/
theorem reinDataCompletes : Obligations.ReinDataCompletes := by
  refine ⟨?get, ?put, ?alu, ?cmp, ?shift, ?step, ?copy, ?nop⟩
  case get =>
    intro p row i s s0 s1 v r starts loaded
    simp only [List.mem_cons, List.not_mem_nil, or_false] at row
    rcases row with rfl | rfl | rfl | rfl | rfl <;> exact runRein_ends starts (rGet_yields loaded)
  case put =>
    intro p row i s s0 s1 r starts stored
    simp only [List.mem_cons, List.not_mem_nil, or_false] at row
    rcases row with rfl | rfl | rfl | rfl | rfl <;> exact runRein_ends starts (rPutReg_yields stored)
  case alu =>
    intro p row i s s0 s1 y r z starts loaded
    simp only [List.mem_cons, List.not_mem_nil, or_false] at row
    rcases row with rfl | rfl | rfl | rfl | rfl <;> exact runRein_ends starts (rAlu_yields loaded)
  case cmp =>
    intro i s s0 s1 y r starts loaded
    show execReinCmp i s = _
    exact runRein_ends starts (ryields_bind loaded (ryields_bind (ryields_rSet _ _ s1) (ryields_pure _ _)))
  case shift =>
    intro p row i s s0 r k z s1 starts
    have either : p = (Instr.reinShl, Alu.shl) ∨ p = (Instr.reinShr, Alu.shr) := by simpa using row
    rcases either with rfl | rfl
    · exact runRein_ends starts (rShift_yields .shl r s0)
    · exact runRein_ends starts (rShift_yields .shr r s0)
  case step =>
    intro p row i s s0 r v s1 starts
    simp only [List.mem_cons, List.not_mem_nil, or_false] at row
    rcases row with rfl | rfl | rfl
    · exact runRein_ends starts (rStep_yields 1 true r s0)
    · exact runRein_ends starts (rStep_yields 2 true r s0)
    · exact runRein_ends starts (rStep_yields 3 false r s0)
  case copy =>
    intro i s s0 r d y starts
    show execReinCopy i s = _
    unfold execReinCopy
    dsimp only
    exact runRein_ends starts (ryields_bind (ryields_rSet _ _ s0) (ryields_pure _ _))
  case nop =>
    intro p row i s s0 starts
    have either : p = Instr.reinNop ∨ p = Instr.reinFence := by simpa using row
    rcases either with rfl | rfl
    · show execReinNop i s = _
      exact runRein_ends starts (ryields_pure _ s0)
    · show execReinFence i s = _
      exact runRein_ends starts (ryields_pure _ s0)

/-- Settles O19: each body in the order of its parts; SVC and BRK are taken after they complete. That ERET makes the instruction at EPC a slot where
ENPC does not follow it is the model's choice (log entry 82). -/
theorem reinControlCompletes : Obligations.ReinControlCompletes := by
  refine ⟨?bcc, ?calld, ?jumpa, ?retd, ?mfcr, ?mtcr, ?traps, ?eret, ?wfi⟩
  case bcc =>
    intro i s s0 r c starts
    show execReinBcc i s = _
    unfold execReinBcc
    dsimp only
    exact runRein_ends starts (ryields_pure _ s0)
  case calld =>
    intro i s s0 s1 r starts stored
    show execReinCalld i s = _
    exact runRein_ends starts (ryields_bind stored (ryields_bind (ryields_rSet _ _ s1) (ryields_pure _ _)))
  case jumpa =>
    intro i s s0 r starts aligned
    show execReinJumpa i s = _
    exact runRein_ends starts (ryields_skip (not_not_intro aligned) (ryields_pure _ s0))
  case retd =>
    intro i s s0 s1 t r starts loaded
    show execReinRetd i s = _
    exact runRein_ends starts (ryields_bind loaded (ryields_bind (ryields_rSet _ _ s1) (ryields_pure _ _)))
  case mfcr =>
    intro i s s0 r n q starts
    show execReinMfcr i s = _
    unfold execReinMfcr
    dsimp only
    exact runRein_ends starts (ryields_bind (ryields_get s0) (ryields_bind (ryields_set _ s0) (ryields_bind (ryields_rSet _ _ _)
      (ryields_pure _ _))))
  case mtcr =>
    intro i s s0 r n q starts aligned quiet
    have noAlign : ¬(n = 0x10 ∧ r.a.toNat % 4096 ≠ 0) := fun ⟨vbr, unaligned⟩ => unaligned (aligned vbr)
    show execReinMtcr i s = _
    unfold execReinMtcr
    dsimp only
    exact runRein_ends starts (ryields_skip noAlign (ryields_bind (ryields_get s0) (ryields_bind (ryields_set _ s0)
      (ryields_skip (Bool.eq_false_iff.mp quiet) (ryields_pure _ _)))))
  case traps =>
    intro p row i s s0 r starts
    have either : p = (Instr.reinSvc, 8, 0x0F, true) ∨ p = (Instr.reinBrk, 0, 0x0D, false) := by simpa using row
    rcases either with rfl | rfl
    · show execReinSvc i s = _
      exact runRein_traps starts rfl rfl
    · show execReinBrk i s = _
      exact runRein_traps starts rfl rfl
  case eret =>
    intro i s s0 r starts
    show execReinEret i s = _
    exact runRein_ends starts (ryields_bind (ryields_rSet _ _ s0) (ryields_pure _ _))
  case wfi =>
    intro i s s0 starts
    show execReinWfi i s = _
    exact runRein_ends starts (ryields_bind (ryields_rSet _ _ s0) (ryields_pure _ _))

end Sys2Proof.Proofs
end

section
/-! SUPPORT. Block instructions and atomics (R230–R239): what the body of each yields, and the settling of the obligations. -/

namespace Sys2Proof.Proofs

open Sys2Proof Sys2Proof.Machine

/-! ## Block instructions (R230–R234) -/

section
variable {ctl : BitVec 8} {elem : BitVec 8 → Env → CoreRun Unit} {stores : Bool} {e : Env} {s s1 : State}

/-- ONCE performs one element. -/
theorem blockBody_once (once : ctlRun ctl = 0) (performed : Yields (elem ctl e) s () s1) : Yields (blockBody ctl elem stores e) s e.npc s1 :=
  yields_take once (yields_bind performed (yields_pure _ _))

/-- A run takes its count from X0 and performs elements until X0 or its condition ends it. -/
theorem blockBody_run (run : ctlRun ctl ≠ 0) :
    let x0 := (s.core e.c).arch.xReg 0
    isIntTag x0.tag = true →
    Yields (blockLoop (ctlRun ctl) (elem ctl) (stores && decide (ctlBytes ctl = 8)) e x0.data.toNat true) s () s1 →
    Yields (blockBody ctl elem stores e) s e.npc s1 := by
  intro x0 isInt performed
  have counts : ¬ (!isIntTag x0.tag) = true := by simp [isInt]
  exact yields_skip run (yields_bind (yields_getArch e s) (yields_skip counts (yields_bind performed (yields_pure _ _))))

end

/-- Settles O12: each row is `blockBody` of its element, which performs one element or a run of them. -/
theorem blocksComplete : Obligations.BlocksComplete := by
  intro p row a ctl s s0 s1 len e x0 starts
  have once (o : ctlRun ctl = 0) (performed : Yields (p.2.1 ctl e) s0 () s1) : Yields (blockBody ctl p.2.1 (!p.2.2) e) s0 e.npc s1 :=
    blockBody_once o performed
  have run (r : ctlRun ctl ≠ 0) (isInt : isIntTag x0.tag = true)
      (performed : Yields (blockLoop (ctlRun ctl) (p.2.1 ctl) (!p.2.2 && decide (ctlBytes ctl = 8)) e x0.data.toNat true) s0 () s1) :
      Yields (blockBody ctl p.2.1 (!p.2.2) e) s0 e.npc s1 :=
    blockBody_run r isInt performed
  simp only [List.mem_cons, List.not_mem_nil, or_false] at row
  rcases row with rfl | rfl | rfl | rfl <;>
    exact ⟨fun o performed => runInstr_ends starts (once o performed),
      fun r isInt performed => runInstr_ends starts (run r isInt performed)⟩

/-! ## Atomics (R236–R239) -/

/-- Lines whose homes are free are not waited for (R269). -/
theorem yields_waitLines {e : Env} {lines : List Nat} {s : State} (free : ∀ l ∈ lines, coreWaits s e.c l = false) :
    Yields (waitLines e lines) s () s := by
  have none_waits : lines.find? (fun l => coreWaits s e.c l) = none :=
    List.find?_eq_none.mpr (fun l mem => Bool.eq_false_iff.mp (free l mem))
  refine yields_bind (yields_get s) ?_
  rw [none_waits]
  exact yields_pure () s

/-- NEAR and FAR place an atomic, and its core's Walk state; the home's predictor places the others (R238, R275). The body goes on with the
place. -/
theorem atomPlacement_then {β : Type} {a : At} {walk far : Bool} {line : Nat} {tile : Option Nat} {s t u : State} {w : β} {f : Bool → CoreRun β}
    (placed : (far, t) = if a.pfx = [.near] then (walk, s) else if a.pfx = [.far] ∨ walk = true then (true, s) else predictAtomic line tile s)
    (rest : Yields (f far) t w u) :
    Yields (if a.pfx = [.near] then pure walk >>= f
            else if a.pfx = [.far] ∨ walk = true then pure true >>= f
            else do
              set (predictAtomic line tile s).2
              pure (predictAtomic line tile s).1 >>= f) s w u := by
  by_cases near : a.pfx = [.near]
  · rw [if_pos near] at placed
    cases placed
    exact yields_take near (yields_bind (yields_pure walk s) rest)
  rw [if_neg near] at placed
  refine yields_skip near ?_
  by_cases goesFar : a.pfx = [.far] ∨ walk = true
  · rw [if_pos goesFar] at placed
    cases placed
    exact yields_take goesFar (yields_bind (yields_pure true s) rest)
  rw [if_neg goesFar] at placed
  refine yields_skip goesFar ?_
  rw [← placed]
  exact yields_bind (yields_set t s) (yields_bind (yields_pure far t) rest)

/-- After an atomic has delivered its old value its body goes on. -/
theorem atomDeliver_then {β : Type} {op : AtomOp} {e : Env} {n : Nat} {ps : Place} {old : TWord} {f : Unit → CoreRun β} {s s1 t : State} {w : β}
    (delivered : Yields (atomDeliver op e n ps old) s () s1) (rest : Yields (f ()) s1 w t) :
    Yields (do
      if op = .xadd ∨ op = .xchga then writePlace e n ps old.data old.tag
      if op = .cas then changeArch e (·.setX 1 old)
      f ()) s w t := by
  have whole := yields_bind (f := f) delivered rest
  unfold atomDeliver at whole
  by_cases toSource : op = .xadd ∨ op = .xchga
  · have notCas : op ≠ .cas := by rcases toSource with rfl | rfl <;> decide
    rw [if_pos toSource] at whole ⊢
    simpa only [if_neg notCas, bind_assoc, pure_bind] using whole
  · rw [if_neg toSource] at whole ⊢
    by_cases toX1 : op = .cas
    · simpa only [if_pos toX1, bind_assoc] using whole
    · simpa only [if_neg toX1, pure_bind] using whole

/-- An atomic forms its operands, drains the store buffer, waits for its line, is placed, and performs its operation there. -/
theorem atomBody_yields {op : AtomOp} {dbl : Bool} {a : At} {m o : Opd} {e : Env} {s0 s1 s2 s3 s4 s5 s6 s8 : State} {va : Nat} {x : Xlat}
    {ps : Place} {y : Src} {far : Bool} :
    let n := if dbl then 8 else 4
    let walk := (s5.core e.c).walk
    let tile := coreTile s5 e.c
    let s7 := atomFetch far e.c (coreAttr (s6.core e.c) x) (x.pa / 64) s6
    let w := readWord s7 (x.pa / 8)
    let cmp := (s7.core e.c).arch.xReg 1
    let r := atomCompute op dbl (va % 8) w ⟨y.val, y.tag⟩ cmp
    Yields (formAddr e 0 m) s0 va s1 →
    Yields (xlat e.c va { write := true, special := true } (fun f => xlatExc f va 0 true false false false)) s1 x s2 → va % n = 0 →
    Yields (formOpd e 1 n {} o) s2 ps s3 → Yields (fenceAll e) s3 () s4 → coreWaits s4 e.c (x.pa / 64) = false →
    Yields (readPlace e 1 n false ps) s4 y s5 →
    atomMemOk op dbl w.tag = true → y.passes (atomSrcOk op dbl) = true → (op = .cas → dbl = false → comparable cmp.tag = true) →
    (far, s6) = (if a.pfx = [.near] then (walk, s5) else if a.pfx = [.far] ∨ walk = true then (true, s5)
                 else predictAtomic (x.pa / 64) (some tile) s5) →
    Yields (atomDeliver op e n ps r.old)
      (withFlags (atomWrite far (coreAttr (s7.core e.c) x) tile (x.pa / 8) r.new s7) e.c r.flags) () s8 →
    Yields (atomBody op dbl a m o e) s0 e.npc s8 := by
  intro n walk tile s7 w cmp r address translated aligned formed drained free read mem_ok src_ok cmp_ok placed delivered
  have noTag : ¬ (!atomMemOk op dbl w.tag) = true := by simp [mem_ok]
  have noCmp : ¬(op = .cas ∧ (!dbl) = true ∧ (!comparable cmp.tag) = true) := fun ⟨cas, word, refused⟩ => by
    simp [cmp_ok cas (by simpa using word)] at refused
  exact yields_bind address (yields_bind translated (yields_skip (not_not_intro aligned) (yields_bind formed (yields_bind drained
    (yields_bind (yields_waitLines (by simpa using free)) (yields_bind read (yields_bind (yields_get s5)
    (atomPlacement_then placed (yields_bind (yields_change _ s6) (yields_bind (yields_get s7)
    (yields_bind (yields_getArch e s7) (yields_skip noTag (yields_bind (run_checkSrc src_ok s7) (yields_skip noCmp
    (yields_bind (yields_change _ s7) (yields_bind (yields_changeArch e _ _)
    (atomDeliver_then (f := fun _ => pure e.npc) delivered (yields_pure e.npc s8))))))))))))))))))

/-- Settles O13: each row is `atomBody` of its operation. -/
theorem atomicsComplete : Obligations.AtomicsComplete := by
  intro p row a dbl m o s s0 s1 s2 s3 s4 s5 s6 s8 va x ps y far len e n walk tile s7 w cmp r
    starts address translated aligned formed drained free read mem_ok src_ok cmp_ok placed delivered
  have body : Yields (atomBody p.2 dbl a m o e) s0 e.npc s8 :=
    atomBody_yields address translated aligned formed drained free read mem_ok src_ok cmp_ok placed delivered
  simp only [List.mem_cons, List.not_mem_nil, or_false] at row
  rcases row with rfl | rfl | rfl | rfl | rfl | rfl | rfl <;> exact runInstr_ends starts body

end Sys2Proof.Proofs
end

section
/-! SUPPORT. Element-wise vector instructions and compares (R240–R245, R251): what the body of each yields, and the settling of the obligations. -/

namespace Sys2Proof.Proofs

open Sys2Proof Sys2Proof.Machine

/-! ## The V registers -/

theorem yields_getV (e : Env) (r : Nat) (s : State) : Yields (getV e r) s (vWords s e.c r) s :=
  yields_bind (yields_getArch e s) (yields_pure _ s)

theorem yields_setV (e : Env) (r : Nat) (ws : List TWord) (s : State) : Yields (setV e r ws) s () (withV s e.c r ws) :=
  yields_changeArch e _ s

/-- After two checks that pass the body goes on. -/
theorem checks_then {β : Type} {m k : CoreRun Unit} {f : Unit → CoreRun β} {s s1 t : State} {w : β} (checked : Yields (do m; k) s () s1)
    (rest : Yields (f ()) s1 w t) : Yields (do m; let r ← k; f r) s w t := by
  simpa only [bind_assoc] using yields_bind (f := f) checked rest

/-! ## Element-wise instructions (R243, R251) -/

section
variable {a : At} {es : Nat} {fp : Bool} {d : Opd} {regs : List (Nat × Opd)} {src : Option (Nat × Opd)} {f : Nat → List Nat → FRes} {e : Env}
  {s s1 : State} {all : List (Nat × List TWord)}

/-- The result of each element, from the elements of the sources (R243). -/
def vecElem (es : Nat) (f : Nat → List Nat → FRes) (rm : Nat) (all : List (Nat × List TWord)) (i : Nat) : FRes :=
  f rm (all.map (fun x => elemOf es x.2 i))

/-- What an element-wise vector instruction does with its sources once they are read and checked: the merge and the sticky flags. -/
def vecResult (a : At) (es : Nat) (fp : Bool) (d : Opd) (f : Nat → List Nat → FRes) (e : Env) (ar : Arch) (all : List (Nat × List TWord)) :
    CoreRun (BitVec 47) := do
  let v := vcOf (vpByte a)
  let n := vCount es
  let act := activeIn ar v n
  let res := vecElem es f (swRm ar.sw) all
  let old ← getV e (vReg d)
  setV e (vReg d) (mergeReg es old (fun i => decide (i < n) && act i) (zeroedIn v n act) (fun i => (res i).bits)
    (vTag (if fp then .float else .int) (all.map (·.2))))
  if fp then
    changeArch e (fun b => { b with sw := (actives n act).foldl (fun sw i => addFpf (res i).flags sw) b.sw })
  return e.npc

/-- An element-wise vector instruction reads and checks its sources and then has its result. -/
theorem vecBody_eq (a : At) (es : Nat) (fp : Bool) (d : Opd) (regs : List (Nat × Opd)) (src : Option (Nat × Opd)) (f : Nat → List Nat → FRes)
    (e : Env) :
    vecBody a es fp d regs src f e = getArch e >>= fun ar =>
      vecRead es fp (activeIn ar (vcOf (vpByte a)) (vCount es)) regs src e >>= vecResult a es fp d f e ar := by
  cases src with
  | none => simp only [vecBody, vecRead, vecResult, vecElem, bind_assoc, pure_bind]
  | some x => simp only [vecBody, vecRead, vecResult, vecElem, bind_assoc, pure_bind]

/-- The state after an element-wise instruction has written its destination: active elements take their results, inactive ones stay or become
zero (R241, R245). -/
def vecMerged (a : At) (es : Nat) (base : Tag) (d : Opd) (act : Nat → Bool) (g : Nat → Nat) (c : Nat) (all : List (Nat × List TWord))
    (s : State) : State :=
  withV s c (vReg d) (mergeReg es (vWords s c (vReg d)) (fun i => decide (i < vCount es) && act i) (zeroedIn (vcOf (vpByte a)) (vCount es) act) g
    (vTag base (all.map (·.2))))

/-- An integer element-wise instruction writes its destination alone. -/
theorem vecBody_int_yields :
    let act := activeIn (s.core e.c).arch (vcOf (vpByte a)) (vCount es)
    let res := vecElem es f (swRm (s.core e.c).arch.sw) all
    Yields (vecRead es false act regs src e) s all s1 →
    Yields (vecBody a es false d regs src f e) s e.npc (vecMerged a es .int d act (fun i => (res i).bits) e.c all s1) := by
  intro act res reads
  rw [vecBody_eq]
  exact yields_bind (yields_getArch e s) (yields_bind reads (yields_bind (yields_getV e _ s1) (yields_bind (yields_setV e _ _ s1)
    (yields_pure _ _))))

/-- A floating-point one then adds the sticky flags of its active elements (R198, R243). -/
theorem vecBody_fp_yields :
    let act := activeIn (s.core e.c).arch (vcOf (vpByte a)) (vCount es)
    let res := vecElem es f (swRm (s.core e.c).arch.sw) all
    Yields (vecRead es true act regs src e) s all s1 →
    Yields (vecBody a es true d regs src f e) s e.npc ((vecMerged a es .float d act (fun i => (res i).bits) e.c all s1).setArch e.c
      (fun b => { b with sw := (actives (vCount es) act).foldl (fun sw i => addFpf (res i).flags sw) b.sw })) := by
  intro act res reads
  rw [vecBody_eq]
  exact yields_bind (yields_getArch e s) (yields_bind reads (yields_bind (yields_getV e _ s1) (yields_bind (yields_setV e _ _ s1)
    (yields_bind (yields_changeArch e _ _) (yields_pure _ _)))))

end

/-- Settles O14: each row is `vecBody` of its function. -/
theorem vectorArithmeticCompletes : Obligations.VectorArithmeticCompletes := by
  refine ⟨?integer, ?float, ?fma, ?gf⟩
  case integer =>
    intro p row a d o s s0 s1 all len e v n act starts reads
    have body := vecBody_int_yields (a := a) (d := d) (e := e) (s := s0) (f := fun _ l => { bits := p.2.2 v.es (arg l 0) (arg l 1) }) reads
    simp only [List.mem_cons, List.not_mem_nil, or_false] at row
    rcases row with rfl | rfl | rfl | rfl | rfl | rfl | rfl | rfl <;> exact runInstr_ends starts body
  case float =>
    intro p row a d o s s0 s1 all len e v n act rm res t starts reads
    have body := vecBody_fp_yields (a := a) (d := d) (e := e) (s := s0)
      (f := fun rm l => p.2 (if v.es = 32 then fmtS else fmtD) rm (arg l 0) (arg l 1)) reads
    simp only [List.mem_cons, List.not_mem_nil, or_false] at row
    rcases row with rfl | rfl | rfl <;> exact runInstr_ends starts body
  case fma =>
    intro a d x o s s0 s1 all len e v n act rm res t starts reads
    exact runInstr_ends starts (vecBody_fp_yields (e := e) (s := s0)
      (f := fun rm l => fMulAdd (if v.es = 32 then fmtS else fmtD) rm (arg l 0) (arg l 1) (arg l 2)) reads)
  case gf =>
    intro p row a d x o s s0 s1 all q len e v act starts reads
    have body := vecBody_int_yields (a := a) (d := d) (e := e) (s := s0) (f := fun _ l => { bits := p.2.2.2 l }) reads
    simp only [List.mem_cons, List.not_mem_nil, or_false] at row
    rcases row with rfl | rfl | rfl
    · exact runInstr_ends starts body
    · have accepted : Starts a len (vLegal a anyEs && isV d && isV x && gfCoeffOk o) 2 s s0 := by
        rw [Bool.and_assoc _ (isV x)]
        exact starts
      exact runInstr_ends accepted body
    · exact runInstr_ends starts body

/-! ## Compares (R244) -/

/-- A vector compare forms its source, reads both, checks them and writes its predicate, with the sticky flags of a floating-point one. -/
theorem vCmpBody_yields {a : At} {fp : Bool} {x o : Opd} {k : BitVec 8} {f : Nat → Nat → Nat → Bool × FFlags} {e : Env} {s s1 s2 : State}
    {src : VSrc} {ys : List TWord} :
    let v := vcOf (vpByte a)
    let n := vCount v.es
    let act := activeIn (s.core e.c).arch v n
    let xs := vWords s1 e.c (vReg x)
    let ok := if fp then isFpTag else isIntTag
    let r (i : Nat) := f v.es (elemOf v.es xs i) (elemOf v.es ys i)
    let new := (List.range n).foldl (fun m i => if act i then setBit m i (r i).1 else if v.zero then setBit m i false else m)
      ((s.core e.c).arch.kReg k.toNat)
    Yields (formVSrc e 1 fp v.es (actives n act) o) s src s1 → Yields (readVSrc e 1 v.es n act src) s1 ys s2 →
    Yields (do checkVec 0 v.es act ok xs; checkVec 1 v.es act ok ys) s2 () s2 →
    Yields (vCmpBody a fp x o k f e) s e.npc (s2.setArch e.c (fun b =>
      { b.setK k.toNat new with sw := if fp then (actives n act).foldl (fun sw i => addFpf (r i).2 sw) b.sw else b.sw })) := by
  intro v n act xs ok r new formed read checked
  exact yields_bind (yields_getArch e s) (yields_bind formed (yields_bind (yields_getV e _ s1) (yields_bind read (checks_then checked
    (yields_bind (yields_changeArch e _ s2) (yields_pure _ _))))))

/-- Settles O15: each row is `vCmpBody` of its relation. -/
theorem vectorComparesComplete : Obligations.VectorComparesComplete := by
  intro p row a x o k s s0 s1 s2 src ys len e v n act xs r new starts formed read checked
  have body := vCmpBody_yields (a := a) (k := k) (e := e) (s := s0) (f := p.2.2.2) formed read checked
  simp only [List.mem_cons, List.not_mem_nil, or_false] at row
  rcases row with rfl | rfl | rfl | rfl <;> exact runInstr_ends starts body

end Sys2Proof.Proofs
end

section
/-! SUPPORT. Vector memory, permutes, broadcasts and the vector control registers (R240, R243, R246–R250): what the body of each yields, and the
settling of the obligations. -/

namespace Sys2Proof.Proofs

open Sys2Proof Sys2Proof.Machine

/-! ## Gathers (R248, R250) -/

/-- The FF bit is set in the first-fault form alone (R242). -/
theorem ff_of_gatherLegal {a : At} {ff : Bool} {d b ix : Opd} {scale : BitVec 8} (legal : gatherLegal a ff d b ix scale = true) :
    (vcOf (vpByte a)).ff = ff := by
  simp only [gatherLegal, Bool.and_eq_true] at legal
  obtain ⟨⟨⟨⟨⟨prefixed, -⟩, -⟩, -⟩, -⟩, -⟩ := legal
  unfold vpOk at prefixed
  unfold vpByte
  split at prefixed
  next noPrefix =>
    rw [noPrefix]
    simpa [vcOf] using prefixed
  next oneVp =>
    rw [oneVp]
    simpa [vcOf] using (Bool.and_eq_true_iff.mp prefixed).2
  next => cases prefixed

theorem legal_of_starts {a : At} {len level : Nat} {legal : Bool} {s s0 : State} (starts : Starts a len legal level s s0) : legal = true := by
  obtain ⟨-, isLegal, -⟩ := starts
  exact isLegal

section
variable {a : At} {d ix : Opd} {b : Fin 16} {scale : BitVec 8} {e : Env} {s s1 : State} {g : Gathered}

/-- A native gather that starts at or beyond its last active element leaves VRI 0 (R248). -/
theorem gatherBody_beyond (native : (vcOf (vpByte a)).ff = false) :
    let v := vcOf (vpByte a)
    let n := vCount v.es
    pastLast n (activeIn (s.core e.c).arch v n) (s.core e.c).arch.vri.toNat = true →
    Yields (gatherBody a d b ix scale e) s e.npc (s.setArch e.c (fun c => { c with vri := 0 })) := by
  intro v n beyond
  unfold gatherBody
  simp only [native, Bool.not_false, Bool.true_and, Bool.false_eq_true, if_false]
  exact yields_bind (yields_getArch e s) (yields_bind (yields_getV e _ s) (yields_bind (yields_getV e _ s) (yields_take beyond
    (yields_bind (yields_changeArch e _ s) (yields_pure _ _)))))

/-- A native gather that works through every element from VRI on merges what it loaded and leaves VRI 0 (R248). -/
theorem gatherBody_native (native : (vcOf (vpByte a)).ff = false) :
    let v := vcOf (vpByte a)
    let n := vCount v.es
    let act := activeIn (s.core e.c).arch v n
    let start := (s.core e.c).arch.vri.toNat
    pastLast n act start = false →
    Yields (gatherLoop e (fun i => gatherLoad e v.es i b (vWords s e.c (vReg ix)) scale) act true start start (n - start) []) s g s1 →
    g.stop = none →
    Yields (gatherBody a d b ix scale e) s e.npc
      ((withV s1 e.c (vReg d) (gatherMerge v n start act g (vWords s e.c (vReg d)))).setArch e.c (fun c => { c with vri := 0 })) := by
  intro v n act start within loaded through
  unfold gatherBody
  simp only [native, Bool.not_false, Bool.true_and, Bool.false_eq_true, if_false]
  refine yields_bind (yields_getArch e s) (yields_bind (yields_getV e _ s) (yields_bind (yields_getV e _ s)
    (yields_skip (Bool.eq_false_iff.mp within) (yields_bind loaded ?_))))
  rw [through]
  exact yields_bind (yields_setV e _ _ s1) (yields_bind (yields_changeArch e _ _) (yields_pure _ _))

/-- A first-fault gather that loads every element leaves VRI 0 and FFM naming them all (R250). -/
theorem gatherBody_firstFault_all (firstFault : (vcOf (vpByte a)).ff = true) :
    let v := vcOf (vpByte a)
    let n := vCount v.es
    let act := activeIn (s.core e.c).arch v n
    Yields (gatherLoop e (fun i => gatherLoad e v.es i b (vWords s e.c (vReg ix)) scale) act false 0 0 n []) s g s1 → g.stop = none →
    Yields (gatherBody a d b ix scale e) s e.npc
      ((withV s1 e.c (vReg d) (gatherMerge v n 0 act g (vWords s e.c (vReg d)))).setArch e.c
        (fun c => { c with vri := 0, ffm := (actives n act).foldl (fun m i => setBit m i true) 0 })) := by
  intro v n act loaded through
  unfold gatherBody
  simp only [firstFault, Bool.not_true, Bool.false_and, Bool.false_eq_true, if_true, if_false]
  refine yields_bind (yields_getArch e s) (yields_bind (yields_getV e _ s) (yields_bind (yields_getV e _ s) (yields_bind loaded ?_)))
  rw [through]
  exact yields_bind (yields_setV e _ _ s1) (yields_bind (yields_changeArch e _ _) (yields_pure _ _))

/-- A first-fault gather that stops after its first element completes, with FFM naming what it loaded (R250). -/
theorem gatherBody_firstFault_stopped (firstFault : (vcOf (vpByte a)).ff = true) :
    let v := vcOf (vpByte a)
    let n := vCount v.es
    let act := activeIn (s.core e.c).arch v n
    Yields (gatherLoop e (fun i => gatherLoad e v.es i b (vWords s e.c (vReg ix)) scale) act false 0 0 n []) s g s1 →
    (∃ x, g.stop = some (.exc x)) → g.vals ≠ [] →
    Yields (gatherBody a d b ix scale e) s e.npc
      (withV (s1.setArch e.c (fun c => { c with vri := 0, ffm := g.vals.foldl (fun m y => setBit m y.1 true) 0 })) e.c (vReg d)
        (gatherMerge v n 0 act g (vWords s e.c (vReg d)))) := by
  intro v n act loaded stopped someLoaded
  obtain ⟨x, stopped⟩ := stopped
  have notEmpty : ¬ g.vals.isEmpty = true := by simpa using someLoaded
  unfold gatherBody
  simp only [firstFault, Bool.not_true, Bool.false_and, Bool.false_eq_true, if_true, if_false]
  refine yields_bind (yields_getArch e s) (yields_bind (yields_getV e _ s) (yields_bind (yields_getV e _ s) (yields_bind loaded ?_)))
  rw [stopped]
  exact yields_bind (yields_changeArch e _ s1) (yields_skip notEmpty (yields_bind (yields_setV e _ _ _) (yields_pure _ _)))

end

/-! ## The obligations -/

/-- Settles O16: each body in the order of its parts; a gather by its form and by how its loop ended. -/
theorem vectorMemoryCompletes : Obligations.VectorMemoryCompletes := by
  refine ⟨?vld, ?vst, ?gather, ?gatherFf, ?scatter⟩
  case vld =>
    intro a d m s s0 s1 s2 acc ws len e v n act starts formed loaded
    show execVld a d m s = _
    unfold execVld
    dsimp only
    exact runInstr_ends starts (yields_bind (yields_getArch e s0) (yields_bind formed (yields_bind loaded
      (yields_bind (yields_getV e _ s2) (yields_bind (yields_setV e _ _ s2) (yields_pure _ _))))))
  case vst =>
    intro a m o s s0 s1 s2 acc len e v n act ws starts formed checked stored
    show execVst a m o s = _
    unfold execVst
    dsimp only
    exact runInstr_ends starts (yields_bind (yields_getArch e s0) (yields_bind formed (yields_bind (yields_getV e _ s1)
      (yields_bind checked (yields_bind stored (yields_pure _ _))))))
  case gather =>
    intro a d b ix scale s s0 s1 g len e v n act start idx starts
    have native : v.ff = false := ff_of_gatherLegal (legal_of_starts starts)
    exact ⟨fun beyond => runInstr_ends starts (gatherBody_beyond native beyond),
      fun within loaded through => runInstr_ends starts (gatherBody_native native within loaded through)⟩
  case gatherFf =>
    intro a d b ix scale s s0 s1 g len e v n act idx merged starts loaded
    have firstFault : v.ff = true := ff_of_gatherLegal (legal_of_starts starts)
    exact ⟨fun through => runInstr_ends starts (gatherBody_firstFault_all firstFault loaded through),
      fun stopped someLoaded => runInstr_ends starts (gatherBody_firstFault_stopped firstFault loaded stopped someLoaded)⟩
  case scatter =>
    intro a b ix o scale s s0 s1 g len e v n act start starts
    refine ⟨fun beyond => ?_, fun within stored through => ?_⟩
    · show execVscatter a b ix o scale s = _
      unfold execVscatter
      dsimp only
      exact runInstr_ends starts (yields_bind (yields_getArch e s0) (yields_bind (yields_getV e _ s0) (yields_bind (yields_getV e _ s0)
        (yields_take beyond (yields_bind (yields_changeArch e _ s0) (yields_pure _ _))))))
    · show execVscatter a b ix o scale s = _
      unfold execVscatter
      dsimp only
      refine runInstr_ends starts (yields_bind (yields_getArch e s0) (yields_bind (yields_getV e _ s0) (yields_bind (yields_getV e _ s0)
        (yields_skip (Bool.eq_false_iff.mp within) (yields_bind stored ?_)))))
      rw [through]
      exact yields_bind (yields_changeArch e _ s1) (yields_pure _ _)

/-- Settles O17: each body in the order of its parts. That MTVS clamps its whole source (log entry 27) and VPERM's tag (log entry 177) are the
model's choices. -/
theorem vectorControlCompletes : Obligations.VectorControlCompletes := by
  refine ⟨?vperm, ?vbcast, ?vsetvl, ?mtk, ?mfk, ?mtvs, ?mfvs⟩
  case vperm =>
    intro a d x ix s s0 len e v n act xs is starts checked
    show execVperm a d x ix s = _
    unfold execVperm
    dsimp only
    exact runInstr_ends starts (yields_bind (yields_getArch e s0) (yields_bind (yields_getV e _ s0) (yields_bind (yields_getV e _ s0)
      (checks_then checked (yields_bind (yields_getV e _ s0) (yields_bind (yields_setV e _ _ s0) (yields_pure _ _)))))))
  case vbcast =>
    intro a d o s s0 s1 s2 ps y len e v n act starts formed read isInt
    show execVbcast a d o s = _
    unfold execVbcast
    dsimp only
    exact runInstr_ends starts (yields_bind (yields_getArch e s0) (yields_bind formed (yields_bind read (yields_bind (run_checkSrc isInt s2)
      (yields_bind (yields_getV e _ s2) (yields_bind (yields_setV e _ _ s2) (yields_pure _ _)))))))
  case vsetvl =>
    intro a d o s s0 s1 s2 pd ps y len e vl starts reads isInt written
    show execVsetvl a d o s = _
    unfold execVsetvl
    dsimp only
    exact runInstr_ends starts (destSource_then reads (yields_bind (run_checkSrc isInt s1) (yields_bind (yields_changeArch e _ s1)
      (yields_bind written (yields_pure _ _)))))
  case mtk =>
    intro a k o s s0 s1 ps y len e starts reads isInt
    show execMtk a k o s = _
    exact runInstr_ends starts (oneRead_then reads (yields_bind (run_checkSrc isInt s1) (yields_bind (yields_changeArch e _ s1)
      (yields_pure _ _))))
  case mfk =>
    intro a d k s s0 s1 s2 pd len e starts formed written
    show execMfk a d k s = _
    exact runInstr_ends starts (yields_bind formed (yields_bind (yields_getArch e s1) (yields_bind written (yields_pure _ _))))
  case mtvs =>
    intro a r o s s0 s1 ps y len e starts reads isInt
    show execMtvs a r o s = _
    exact runInstr_ends starts (oneRead_then reads (yields_bind (run_checkSrc isInt s1) (yields_bind (yields_changeArch e _ s1)
      (yields_pure _ _))))
  case mfvs =>
    intro a d r s s0 s1 s2 pd len e b starts formed written
    show execMfvs a d r s = _
    exact runInstr_ends starts (yields_bind formed (yields_bind (yields_getArch e s1) (yields_bind written (yields_pure _ _))))

end Sys2Proof.Proofs
end

section
/-! SUPPORT. Cache maintenance and span instructions (R269, R279–R281, R283): what maintaining a line, a span and a range yields, and the
settling of the obligation. -/

namespace Sys2Proof.Proofs

open Sys2Proof Sys2Proof.Machine

/-! ## One line (R279) -/

section
variable {op : Maint} {e : Env} {x : Xlat} {s : State}

/-- On a side-effect page nothing is maintained. -/
theorem maintainAt_side (side : x.side = true) : Yields (maintainAt op e x) s () s :=
  yields_take side (yields_pure () s)

/-- Elsewhere the outstanding misses of the tile for the line are marked, and the line is looked up and maintained, once its home is free. -/
theorem maintainAt_normal (normal : x.side = false) (free : coreWaits s e.c (x.pa / 64) = false) :
    let marked := markMisses (coreTile s e.c) (x.pa / 64) s
    Yields (maintainAt op e x) s ()
      (maintainLine op (coreAttr (marked.core e.c) x) (decide (e.pl = 0)) (x.pa / 64) (lookup (x.pa / 64) marked)) :=
  yields_skip (Bool.eq_false_iff.mp normal) (yields_bind (yields_waitLines (by simpa using free))
    (yields_bind (yields_change _ s) (yields_change _ _)))

end

/-! ## The bodies -/

section
variable {op : Maint} {m : Opd} {e : Env} {s s1 s2 s3 t : State} {va : Nat} {x : Xlat}

/-- CCLEAN, CCLINV and CDISCARD translate their address, drain the store buffer and maintain the line there. -/
theorem maintBody_yields :
    let w := decide (op = .discard)
    Yields (formAddr e 0 m) s va s1 → Yields (xlat e.c va { write := w } (fun f => xlatExc f va 0 w false false false)) s1 x s2 →
    Yields (fenceAll e) s2 () s3 → Yields (maintainAt op e x) s3 () t → Yields (maintBody op m e) s e.npc t := by
  intro w formed translated drained maintained
  exact yields_bind formed (yields_bind translated (yields_bind drained (yields_bind maintained (yields_pure _ t))))

/-- CZERO and CCLEAR write the whole span of an aligned address, once the store buffer is drained and the homes of its lines are free. -/
theorem zeroBody_yields {tag : Tag} :
    let k := x.pa / 256
    Yields (formAddr e 0 m) s va s1 →
    Yields (xlat e.c va { write := true, special := true } (fun f => xlatExc f va 0 true false false false)) s1 x s2 → va % 256 = 0 →
    Yields (fenceAll e) s2 () s3 → (∀ l ∈ [4 * k, 4 * k + 1, 4 * k + 2, 4 * k + 3], coreWaits s3 e.c l = false) →
    Yields (zeroBody tag m e) s e.npc (spanZero (coreAttr (s3.core e.c) x) k tag (lookup (4 * k) s3)) := by
  intro k formed translated aligned drained free
  exact yields_bind formed (yields_bind translated (yields_skip (not_not_intro aligned) (yields_bind drained
    (yields_bind (yields_waitLines free) (yields_bind (yields_change _ s3) (yields_pure _ _))))))

/-- CRANGE takes its first line from P14 and its length from X0, both of whole lines, and maintains the lines after the store buffer is drained. -/
theorem rangeBody_yields :
    let len := (s1.core e.c).arch.xReg 0
    Yields (baseReg e 14 3) s va s1 → isIntTag len.tag = true → va % 64 = 0 → len.data.toNat % 64 = 0 → Yields (fenceAll e) s1 () s2 →
    Yields (rangeLoop op e (len.data.toNat / 64) 0) s2 () s3 → Yields (rangeBody op e) s e.npc s3 := by
  intro len based isInt aligned whole drained maintained
  have counts : ¬ (!isIntTag len.tag) = true := by simp [isInt]
  exact yields_bind based (yields_bind (yields_getArch e s1) (yields_skip counts (yields_skip (not_not_intro aligned)
    (yields_skip (not_not_intro whole) (yields_bind drained (yields_bind maintained (yields_pure _ s3)))))))

end

/-! ## The obligation -/

/-- Settles O10: each row is the body of its kind of maintenance; a line operation by whether its page has side effects. -/
theorem cacheMaintenanceCompletes : Obligations.CacheMaintenanceCompletes := by
  refine ⟨?line, ?span, ?range⟩
  case line =>
    intro p row a m s s0 s1 s2 s3 va x len e w starts formed translated drained
    have ends {t : State} (maintained : Yields (maintainAt p.2.1 e x) s3 () t) : exec (p.1 a m) s = .next (ended a len e.npc s t) := by
      have body : Yields (maintBody p.2.1 m e) s0 e.npc t := maintBody_yields formed translated drained maintained
      simp only [List.mem_cons, List.not_mem_nil, or_false] at row
      rcases row with rfl | rfl | rfl <;> exact runInstr_ends starts body
    exact ⟨fun side => ends (maintainAt_side side), fun normal free => ends (maintainAt_normal normal free)⟩
  case span =>
    intro p row a m s s0 s1 s2 s3 va x len e k starts formed translated aligned drained free
    have body := zeroBody_yields (tag := p.2) formed translated aligned drained free
    simp only [List.mem_cons, List.not_mem_nil, or_false] at row
    rcases row with rfl | rfl <;> exact runInstr_ends starts body
  case range =>
    intro p row a s s0 s1 s2 s3 va len e t starts based isInt aligned whole drained maintained
    have body : Yields (rangeBody p.2.1 e) s0 e.npc s3 := rangeBody_yields based isInt aligned whole drained maintained
    simp only [List.mem_cons, List.not_mem_nil, or_false] at row
    rcases row with rfl | rfl | rfl <;> exact runInstr_ends starts body

end Sys2Proof.Proofs
end

section
/-! SUPPORT. Requests to the homes (R152, R153, R262, R265–R272, R275, R284): how a request joins the queue of its home or waits for a credit, what
its tile notes of it, and the settling of the obligation. -/

namespace Sys2Proof.Proofs

open Sys2Proof Sys2Proof.Machine

/-! ## Joining a queue (R153, R262, R269) -/

/-- Waking a slice touches neither homes nor memory (R273, R418). -/
theorem wakeSlice_others (h : Nat) (s : State) : (wakeSlice h s).coh = s.coh ∧ (wakeSlice h s).mem = s.mem := by
  unfold wakeSlice wakeDom
  split
  · dsimp only
    split <;> exact ⟨rfl, rfl⟩
  · exact ⟨rfl, rfl⟩

/-- A request that enters the queue of a home joins it there; the other slices, the tiles and memory stay. -/
theorem enterQueue_joins (h : Nat) (q : HomeReq) (s : State) :
    ((enterQueue h q s).slice h).queue = joined (s.slice h).pointer q (s.slice h).queue ∧
      (∀ k, k ≠ h → (enterQueue h q s).slice k = s.slice k) ∧ (enterQueue h q s).coh.waiting = s.coh.waiting ∧
      (enterQueue h q s).coh.tiles = s.coh.tiles ∧ (enterQueue h q s).mem = s.mem := by
  have woken (x : Slice) : ((wakeSlice h (s.setSlice h x)).slice h).queue = x.queue ∧
      (∀ k, k ≠ h → (wakeSlice h (s.setSlice h x)).slice k = s.slice k) ∧ (wakeSlice h (s.setSlice h x)).coh.waiting = s.coh.waiting ∧
      (wakeSlice h (s.setSlice h x)).coh.tiles = s.coh.tiles ∧ (wakeSlice h (s.setSlice h x)).mem = s.mem := by
    obtain ⟨coh, mem⟩ := wakeSlice_others h (s.setSlice h x)
    have slices (k : Nat) : (wakeSlice h (s.setSlice h x)).slice k = if k = h then x else s.slice k := by
      rw [← State.setSlice_slice, State.slice, coh]
      rfl
    exact ⟨by rw [slices, if_pos rfl], fun k other => by rw [slices, if_neg other], by rw [coh]; rfl, by rw [coh]; rfl, mem⟩
  by_cases ties : q.req.tie = true ∧ (!(s.slice h).queue.isEmpty) = true
  · rw [enterQueue, if_pos ties, joined, if_pos (Bool.and_eq_true_iff.mpr ties)]
    exact woken _
  · rw [enterQueue, if_neg ties, joined, if_neg (fun both => ties (Bool.and_eq_true_iff.mp both))]
    exact woken _

/-- Whether a request leaves for its home at once: its source has a credit there and holds no earlier request for that home (R153). -/
def sendsNow (r : Req) (s : State) : Bool :=
  let h := homeSlice s (secOf r.pa)
  hasReqCredit s h r.src.toNat && !s.coh.waiting.any (fun x => decide (x.req.src = r.src) && decide (reqHome s x = h))

section
variable {r : Req} {s : State}

theorem enqueueReq_sends (op : HomeOp) (now : sendsNow r s = true) :
    enqueueReq r op s = enterQueue (homeSlice s (secOf r.pa)) { req := r, op := op } s := if_pos now

/-- A request without a credit joins those that wait at their sources. -/
theorem enqueueReq_waits (op : HomeOp) (held : sendsNow r s = false) :
    enqueueReq r op s = { s with coh := { s.coh with
      waiting := joined (s.slice (homeSlice s (secOf r.pa))).pointer { req := r, op := op, tie := r.tie } s.coh.waiting } } := by
  have waits : ¬ sendsNow r s = true := Bool.eq_false_iff.mp held
  by_cases ties : r.tie = true ∧ (!s.coh.waiting.isEmpty) = true
  · exact ((if_neg waits).trans (if_pos ties)).trans
      (congrArg (fun l => { s with coh := { s.coh with waiting := l } }) (if_pos (Bool.and_eq_true_iff.mpr ties)).symm)
  · exact ((if_neg waits).trans (if_neg ties)).trans
      (congrArg (fun l => { s with coh := { s.coh with waiting := l } }) (if_neg (fun both => ties (Bool.and_eq_true_iff.mp both))).symm)

end

/-- A request joins the queue of its home or those that wait at their sources. -/
theorem queued_enqueueReq (r : Req) (op : HomeOp) (s : State) : Queued r op s (enqueueReq r op s) := by
  unfold Queued
  change (sendsNow r s = true → _) ∧ (sendsNow r s = false → _) ∧ _
  cases now : sendsNow r s with
  | true =>
    rw [enqueueReq_sends op now]
    obtain ⟨queue, others, waiting, -, mem⟩ := enterQueue_joins (homeSlice s (secOf r.pa)) { req := r, op := op } s
    exact ⟨fun _ => ⟨queue, waiting⟩, nofun, others, mem⟩
  | false =>
    rw [enqueueReq_waits op now]
    exact ⟨nofun, fun _ => ⟨rfl, rfl⟩, fun _ _ => rfl, rfl⟩

theorem enqueueReq_tile (r : Req) (op : HomeOp) (s : State) (k : Nat) : (enqueueReq r op s).tile k = s.tile k := by
  cases now : sendsNow r s with
  | true =>
    obtain ⟨-, -, -, tiles, -⟩ := enterQueue_joins (homeSlice s (secOf r.pa)) { req := r, op := op } s
    rw [enqueueReq_sends op now, State.tile, tiles]
    rfl
  | false =>
    rw [enqueueReq_waits op now]
    rfl

/-! ## What tiles do before their requests are queued -/

/-- Two states agree in their homes, their packets, the requests that wait at their sources and in memory. -/
def SameHomes (s u : State) : Prop :=
  u.coh.slices = s.coh.slices ∧ u.coh.net = s.coh.net ∧ u.coh.waiting = s.coh.waiting ∧ u.coh.home = s.coh.home ∧ u.mem = s.mem

/-- A request is queued alike where only tiles and cores differ. -/
theorem queued_of_sameHomes {r : Req} {op : HomeOp} {s u t : State} (same : SameHomes s u) (queued : Queued r op u t) : Queued r op s t := by
  obtain ⟨slices, net, waiting, home, mem⟩ := same
  have homeEq : homeSlice u = homeSlice s := funext fun sec => by simp only [homeSlice, home]
  have reqEq : reqHome u = reqHome s := funext fun x => by simp only [reqHome, homeEq]
  have sliceEq : u.slice = s.slice := funext fun k => by simp only [State.slice, slices]
  have returnEq : returnsCredit u = returnsCredit s := by
    unfold returnsCredit
    rw [homeEq]
  have creditEq : hasReqCredit u = hasReqCredit s := by
    unfold hasReqCredit creditsUsed
    rw [sliceEq, net, returnEq]
  unfold Queued at queued ⊢
  rwa [homeEq, reqEq, sliceEq, creditEq, waiting, mem] at queued

theorem sameHomes_trans {s u v : State} (first : SameHomes s u) (second : SameHomes u v) : SameHomes s v := by
  obtain ⟨slices, net, waiting, home, mem⟩ := first
  obtain ⟨slices', net', waiting', home', mem'⟩ := second
  exact ⟨slices'.trans slices, net'.trans net, waiting'.trans waiting, home'.trans home, mem'.trans mem⟩

theorem sameHomes_setTile (s : State) (k : Nat) (x : Tile) : SameHomes s (s.setTile k x) := ⟨rfl, rfl, rfl, rfl, rfl⟩

theorem sameHomes_noteMiss (r : Req) (n : Nat) (s : State) (atom : Option AtomWait) : SameHomes s (noteMiss r n s atom) := by
  unfold noteMiss
  split
  · exact ⟨rfl, rfl, rfl, rfl, rfl⟩
  · exact sameHomes_setTile s _ _

theorem sameHomes_markNoInstall (r : Req) (s : State) : SameHomes s (markNoInstall r s) := by
  unfold markNoInstall
  split
  · exact ⟨rfl, rfl, rfl, rfl, rfl⟩
  · exact sameHomes_setTile s _ _

/-- A tile that sends a request holds its miss last (R266, R271). -/
theorem noteMiss_misses {r : Req} {k : Nat} (own : stopTile r.src.toNat = some k) (n : Nat) (s : State) (atom : Option AtomWait) :
    ((noteMiss r n s atom).tile k).misses =
      (s.tile k).misses ++ [{ line := lineOf r.pa, op := n, atom := atom, l1 := decide (r.traffic ≠ .bulk) }] := by
  simp [noteMiss, own]

/-! ## The request rows -/

section
variable {i : Instr} {r : Req} {op : HomeOp} {s : State}

/-- A row that queues its request, whatever its tile has done before, completes. -/
theorem completes_queued {u : State} (same : SameHomes s u) (row : exec i s = .next (enqueueReq r op u)) : Completes i s (Queued r op s) :=
  ⟨_, row, queued_of_sameHomes same (queued_enqueueReq r op u)⟩

/-- A row that notes a miss and queues its request completes. -/
theorem completes_noted {n : Nat} {atom : Option AtomWait} (row : exec i s = .next (enqueueReq r op (noteMiss r n s atom))) :
    Completes i s (fun t => Queued r op s t ∧ ∀ k, stopTile r.src.toNat = some k → (t.tile k).misses =
      (s.tile k).misses ++ [{ line := lineOf r.pa, op := n, atom := atom, l1 := decide (r.traffic ≠ .bulk) }]) := by
  refine ⟨_, row, queued_of_sameHomes (sameHomes_noteMiss r n s atom) (queued_enqueueReq r op _), fun k own => ?_⟩
  rw [enqueueReq_tile, noteMiss_misses own]

end

/-! ## EVICT (R266, R272) -/

section
variable {k line : Nat} {txn : BitVec 16} {s : State}

theorem dropL1_others (t l : Nat) (u : State) : (dropL1 t l u).coh = u.coh ∧ (dropL1 t l u).mem = u.mem := by
  unfold dropL1
  split <;> exact ⟨rfl, rfl⟩

theorem sameHomes_dropped (k line : Nat) (s : State) : SameHomes s (dropL1 k line (dropL2 k line s)) := by
  obtain ⟨coh, mem⟩ := dropL1_others k line (dropL2 k line s)
  unfold SameHomes
  rw [coh, mem]
  exact sameHomes_setTile s _ _

theorem dropped_wb (k line : Nat) (s : State) : ((dropL1 k line (dropL2 k line s)).tile k).wb = (s.tile k).wb := by
  obtain ⟨coh, -⟩ := dropL1_others k line (dropL2 k line s)
  have tile : (dropL1 k line (dropL2 k line s)).tile k = (dropL2 k line s).tile k := by simp only [State.tile, coh]
  rw [tile]
  simp [dropL2]

variable {st : L2State} (held : l2State s k line = some st) (unframed : flushFrame k line s = none)
include held unframed

/-- A line of the L2 whose frame registers hold nothing newer leaves both caches for the write-back buffer, dirty where it is M or O. -/
theorem toWriteBack_held :
    toWriteBack k line txn s =
      let u := dropL1 k line (dropL2 k line s)
      u.setTile k { u.tile k with wb := (u.tile k).wb ++ [{ line := line, txn := txn, dirty := decide (st = .m ∨ st = .o) }] } := by
  simp only [toWriteBack, held, unframed, Option.getD_none]

theorem sameHomes_toWriteBack : SameHomes s (toWriteBack k line txn s) := by
  rw [toWriteBack_held held unframed]
  exact sameHomes_trans (sameHomes_dropped k line s) (sameHomes_setTile _ _ _)

theorem toWriteBack_wb :
    ((toWriteBack k line txn s).tile k).wb = (s.tile k).wb ++ [{ line := line, txn := txn, dirty := decide (st = .m ∨ st = .o) }] := by
  rw [toWriteBack_held held unframed, State.setTile_tile, if_pos rfl, dropped_wb]

/-- With no other entry for the line the buffer holds it dirty where it was M or O. -/
theorem wbDirty_toWriteBack (single : ∀ e ∈ (s.tile k).wb, e.line ≠ line) :
    wbDirty (toWriteBack k line txn s) k line = decide (st = .m ∨ st = .o) := by
  have others : (s.tile k).wb.any (fun e => decide (e.line = line) && e.dirty) = false :=
    List.any_eq_false.mpr fun e mem => by simp [single e mem]
  simp [wbDirty, toWriteBack_wb held unframed, others]

end

/-- EVICT of a line that its tile's L2 holds, while the write-back buffer has room. -/
theorem execEvict_held {r : Req} {k : Nat} {st : L2State} {s : State} (dirty : Bool) (own : stopTile r.src.toNat = some k)
    (held : l2State s k (lineOf r.pa) = some st) (room : (s.tile k).wb.length < 16) (single : ∀ e ∈ (s.tile k).wb, e.line ≠ lineOf r.pa)
    (unframed : flushFrame k (lineOf r.pa) s = none) :
    execEvict r dirty s = .next (enqueueReq r (.evict (decide (st = .m ∨ st = .o))) (toWriteBack k (lineOf r.pa) r.txn s)) := by
  simp only [execEvict, own, held, if_neg (Nat.not_le.mpr room), Option.isSome_some, if_true, wbDirty_toWriteBack held unframed single]

/-! ## The obligation -/

/-- Settles O20: each row by what its tile notes before the request is queued. -/
theorem homeRequestsComplete : Obligations.HomeRequestsComplete := by
  refine ⟨?reads, ?others, ?dmaRd, ?writes, ?spanWr, ?atomics, ?evict, ?evictNoTile⟩
  case reads =>
    intro p row r s room spec
    simp only [List.mem_cons, List.not_mem_nil, or_false] at row
    rcases row with rfl | rfl | rfl | rfl
    · exact completes_noted (congrArg Host.Outcome.next (if_pos room))
    · exact completes_noted (congrArg Host.Outcome.next (if_pos room))
    · exact completes_noted (congrArg Host.Outcome.next (if_pos room))
    · exact completes_noted (congrArg Host.Outcome.next (if_pos (Bool.and_eq_true_iff.mpr ⟨room, spec rfl⟩)))
  case others =>
    intro p row r s
    have unmarked : SameHomes s s := ⟨rfl, rfl, rfl, rfl, rfl⟩
    simp only [List.mem_cons, List.not_mem_nil, or_false] at row
    rcases row with rfl | rfl | rfl | rfl | rfl | rfl
    · exact completes_queued unmarked rfl
    · exact completes_queued unmarked rfl
    · exact completes_queued unmarked rfl
    · exact completes_queued (sameHomes_markNoInstall r s) rfl
    · exact completes_queued (sameHomes_markNoInstall r s) rfl
    · exact completes_queued (sameHomes_markNoInstall r s) rfl
  case dmaRd =>
    exact fun r subs s => ⟨_, rfl, queued_enqueueReq r _ s⟩
  case writes =>
    exact fun r k mask data tags s => ⟨⟨_, rfl, queued_enqueueReq r _ s⟩, ⟨_, rfl, queued_enqueueReq r _ s⟩⟩
  case spanWr =>
    exact fun r data tags sl s => ⟨_, rfl, queued_enqueueReq r _ s⟩
  case atomics =>
    exact fun r op dbl v c s => ⟨⟨_, rfl, queued_enqueueReq r _ s⟩, fun room => completes_noted (congrArg Host.Outcome.next (if_pos room))⟩
  case evict =>
    intro r dirty k st s own held room single unframed
    refine ⟨_, execEvict_held dirty own held room single unframed,
      queued_of_sameHomes (sameHomes_toWriteBack held unframed) (queued_enqueueReq r _ _), ?_⟩
    rw [enqueueReq_tile, toWriteBack_wb held unframed]
  case evictNoTile =>
    intro r dirty s untiled
    refine ⟨enqueueReq r (.evict dirty) s, ?_, queued_enqueueReq r _ s⟩
    show execEvict r dirty s = _
    simp only [execEvict, untiled]

end Sys2Proof.Proofs
end

section
/-! SUPPORT. Coherence packets on arrival (R153, R183, R187, R266–R275): what a lookup, a snoop, a grant, an answer, a write-back and a fill
come to in the state that each clause names, and the settling of the obligation. -/

namespace Sys2Proof.Proofs

open Sys2Proof Sys2Proof.Machine

/-- The sector of a line. -/
theorem lineOf_div (pa : BitVec 52) : lineOf pa / 4 = secOf pa := Nat.div_div_eq_div_mul _ 64 4

/-! ## Lookups (R269) -/

theorem homeLookup_picks {h cycle : Nat} {q : HomeReq} {rest : List HomeReq} {s : State} (up : sliceUp s h = true)
    (picked : pickReq s (mayLookUp s cycle (s.slice h).queue) [] (s.slice h).queue = some (q, rest)) :
    homeLookup h cycle s = startTxn h q (s.setSlice h { s.slice h with queue := rest }) := by
  simp only [homeLookup, if_pos up, picked]

/-! ## Snoops (R266, R271–R273) -/

/-- A snoop that waits for nothing is answered by its tile. -/
theorem snoopArrives_answers {op : Snoop} {t line : Nat} {p : Pkt} {s s1 : State} (sent : snoopSent s t line = true)
    (whole : splitWaits s t line = false) (awake : napWaits t line s = false)
    (ungranted : ∀ y ∈ s.coh.net, y.stop = tileStop t → y.line = line → ∀ st d w, y.kind = .gnt st d w → st = 3)
    (taken : takePkt (tileStop t) line (fun y => decide (y = snoopKind op)) s = some (p, s1)) :
    let a := snoopTile op t line (if op = .inv then dropSpecFill t line s1 else s1)
    snoopArrives op t line s =
      sendPkt { stop := tileStop t, line := line, kind := a.1.packet, ref := p.ref, txn := p.txn } a.2 := by
  simp only [snoopArrives, sent, whole, awake, Bool.not_true, Bool.false_eq_true, if_false]
  split
  next granted =>
    obtain ⟨y, inNet, held⟩ := List.any_eq_true.mp granted
    simp only [Bool.and_eq_true, decide_eq_true_eq] at held
    obtain ⟨⟨here, same⟩, grants⟩ := held
    split at grants
    next kind => exact absurd (ungranted y inNet here same _ _ _ kind) (of_decide_eq_true grants)
    next => cases grants
  next =>
    rw [taken]
    rfl

/-! ## Grants (R264, R266, R268, R274, R282) -/

/-- Data of a non-installing read goes to the speculative fill buffer of the core that asked for it (R187, R274). -/
def toSpecFill (t line : Nat) (data : List TWord) (m : Option Miss) (s : State) : State :=
  match m, tileCore s t with
  | some x, some c =>
    if x.op = 4 ∧ !x.noInstall then s.setCore c { s.core c with specFill := (s.core c).specFill.set line data } else s
  | _, _ => s

theorem toSpecFill_read {t line c : Nat} {data : List TWord} {x : Miss} {s : State} (core : tileCore s t = some c) (read : x.op = 4)
    (unmarked : x.noInstall = false) :
    toSpecFill t line data (some x) s = s.setCore c { s.core c with specFill := (s.core c).specFill.set line data } := by
  simp only [toSpecFill, core]
  exact if_pos ⟨read, by rw [unmarked]; rfl⟩

theorem toSpecFill_other {t line : Nat} {data : List TWord} {m : Option Miss} {s : State}
    (other : ∀ x, m = some x → x.op ≠ 4 ∨ x.noInstall = true) : toSpecFill t line data m s = s := by
  unfold toSpecFill
  split
  next x c _ =>
    refine if_neg fun ⟨read, unmarked⟩ => ?_
    rcases other x rfl with differs | marked
    · exact differs read
    · rw [marked] at unmarked
      cases unmarked
  next => rfl

section
variable {stop line t : Nat} {st : BitVec 2} {d : Bool} {w : Option Word} {p : Pkt} {m : Option Miss} {s s1 s2 : State}
  (own : stopTile stop = some t) (taken : takePkt stop line PktKind.isGnt s = some (p, s1)) (kind : p.kind = .gnt st d w)
  (missed : takeMiss t line s1 = (m, s2))
include own taken kind missed

/-- A grant of a state is installed, unless its miss is marked not-to-install, and the access that made the request performs; where nothing can be
installed the grant waits. -/
theorem grantArrives_lasting (lasting : st ≠ 3) :
    grantArrives stop line s =
      if m.any (·.noInstall) then deliverData stop p.data s2
      else ((installGrant t line (grantState st (l2State s2 t line)) (if m.isSome then specInstalled t line p.data s2 else s2)).map
        (performGranted stop t line p st m)).getD s := by
  unfold grantArrives
  split
  next missing => cases taken.symm.trans missing
  next p' s1' found =>
    cases taken.symm.trans found
    rw [kind, own]
    split
    next same _ =>
      cases same
      exact absurd rfl lasting
    next same sameTile =>
      cases same
      cases sameTile
      rw [missed]
      cases m with
      | none =>
        simp only [Option.any_none, Option.isSome_none, Bool.false_eq_true, if_false]
        cases installGrant t line (grantState st (l2State s2 t line)) s2 <;> rfl
      | some x =>
        simp only [Option.any_some, Option.isSome_some, if_true]
        by_cases marked : x.noInstall = true
        · rw [if_pos marked, if_pos marked]
        · rw [if_neg marked, if_neg marked]
          cases installGrant t line (grantState st (l2State s2 t line)) (specInstalled t line p.data s2) <;> rfl
    next other => exact absurd rfl (other _ _ _ _ rfl)

/-- A grant of no state brings data alone. -/
theorem grantArrives_data (stateless : st = 3) :
    grantArrives stop line s = deliverData stop p.data (toSpecFill t line p.data m s2) := by
  subst stateless
  unfold grantArrives
  split
  next missing => cases taken.symm.trans missing
  next p' s1' found =>
    cases taken.symm.trans found
    rw [kind, own]
    split
    next same sameTile =>
      cases same
      cases sameTile
      rw [missed]
      unfold toSpecFill
      dsimp only
      cases m with
      | none => rfl
      | some x =>
        cases tileCore s2 t with
        | none => rfl
        | some c => exact (apply_ite (deliverData stop p.data) _ _ _).symm
    next _ noData same _ =>
      cases same
      exact absurd rfl noData
    next other => exact absurd rfl (other _ _ _ _ rfl)

end

/-! ## Answers at a tile (R268, R270, R272, R274, R275) -/

section
variable {t stop line : Nat} {p : Pkt} {s s1 : State}

theorem retryArrives_taken (taken : takePkt (tileStop t) line (fun y => decide (y = .retry)) s = some (p, s1)) :
    retryArrives t line s = countUncore (0x080 + homeSlice s (line / 4)) 0x004 1 (takeMiss t line s1).2 := by
  simp only [retryArrives, taken]

theorem pullArrives_taken (taken : takePkt (tileStop t) line (fun y => decide (y = .wbPull)) s = some (p, s1)) :
    pullArrives t line s = sendPkt { stop := tileStop t, line := line, kind := .wbData, ref := p.ref } (freeWb t line s1) := by
  simp only [pullArrives, taken]

theorem ackArrives_taken (taken : takePkt (tileStop t) line (fun y => decide (y = .evictAck)) s = some (p, s1)) :
    ackArrives t line s = freeWb t line s1 := by
  simp only [ackArrives, taken]

theorem doneArrives_taken (taken : takePkt stop line (fun y => decide (y = .done)) s = some (p, s1)) :
    doneArrives stop line s = deliverData stop p.data (dropAtom stop p s1) := by
  simp only [doneArrives, taken]

end

/-! ## Answers at a home (R268–R270, R276, R301) -/

/-- WB_DATA goes into the LLC, its tile leaves the directory entry, and a request that waited for it goes on, where no checked fill of the sector is
on its way. -/
theorem wbDataArrives_taken {t line : Nat} {p : Pkt} {s s1 : State}
    (taken : takePkt (tileStop t) line (fun y => decide (y = .wbData)) s = some (p, s1)) (unfilled : fillPending s1 (line / 4) = false) :
    let a : Attr := { stall := ((tileCore s1 t).map (coreStall s1)).getD 0 }
    let s2 := settleLine a line s1
    wbDataArrives t line s = updateTxn line (fun x => { x with wbLines := x.wbLines.erase line, gone := (t, line) :: x.gone })
      (((dirEntry s2 line).map (fun d => putEntry line (entryWithout d t) s2)).getD s2) := by
  unfold wbDataArrives
  rw [taken]
  dsimp only
  rw [unfilled]
  cases tileCore s1 t with
  | none =>
    simp only [Option.map_none, Option.getD_none]
    cases dirEntry (settleLine { stall := 0 } line s1) line <;> rfl
  | some c =>
    simp only [Option.map_some, Option.getD_some]
    cases dirEntry (settleLine { stall := coreStall s1 c } line s1) line <;> rfl

/-- A fill that a transaction waits for fills the lines it asked for. -/
theorem fillArrives_found {line : Nat} {x : Txn} {s : State}
    (waits : (s.slice (homeSlice s (line / 4))).busy.find? (fun y => y.lines.contains line && y.needFill) = some x) (installs : x.hr.op ≠ .rdNi) :
    fillArrives line s = updateTxn line (fun y => { y with needFill := false, filled := true })
      (x.lines.foldl (fun st l => fillLine (reqAttr x.hr.req) l st) s) := by
  simp only [fillArrives, waits, if_neg installs]

/-! ## The obligation -/

/-- Settles O21: each arrival, by the lemma above for the state that its clause names. -/
theorem coherencePacketsComplete : Obligations.CoherencePacketsComplete := by
  refine ⟨?lookup, ?snoop, ?grant, ?retry, ?writeBack, ?done, ?answer, ?wbData, ?fill⟩
  case lookup =>
    exact fun k cycle q rest s up picked => congrArg Host.Outcome.next (homeLookup_picks up picked)
  case snoop =>
    intro x row k pa p s s1 sent whole awake ungranted taken a
    have answers := snoopArrives_answers sent whole awake ungranted taken
    simp only [List.mem_cons, List.not_mem_nil, or_false] at row
    rcases row with rfl | rfl | rfl <;> exact congrArg Host.Outcome.next answers
  case grant =>
    intro stop pa t st d w p m s s1 s2 s3 own taken kind missed
    refine ⟨fun lasting may installed => congrArg Host.Outcome.next ?_, fun lasting marked => congrArg Host.Outcome.next ?_,
      fun stateless other => congrArg Host.Outcome.next ?_, fun c stateless read core => congrArg Host.Outcome.next ?_⟩
    · have unmarked : ¬ m.any (·.noInstall) = true := by
        rw [Option.any_eq_true]
        rintro ⟨x, hit, marked⟩
        exact absurd marked (by simp [may x hit])
      rw [grantArrives_lasting own taken kind missed lasting, if_neg unmarked, installed]
      rfl
    · obtain ⟨x, rfl, marked⟩ := marked
      exact (grantArrives_lasting own taken kind missed lasting).trans (if_pos marked)
    · rw [grantArrives_data own taken kind missed stateless, toSpecFill_other other]
    · obtain ⟨x, rfl, read, unmarked⟩ := read
      rw [grantArrives_data own taken kind missed stateless, toSpecFill_read core read unmarked]
  case retry =>
    intro k pa p s s1 taken
    rw [← lineOf_div]
    exact congrArg Host.Outcome.next (retryArrives_taken taken)
  case writeBack =>
    exact fun k pa p s s1 => ⟨fun taken => congrArg Host.Outcome.next (pullArrives_taken taken),
      fun taken => congrArg Host.Outcome.next (ackArrives_taken taken)⟩
  case done =>
    exact fun stop pa p s s1 taken => congrArg Host.Outcome.next (doneArrives_taken taken)
  case answer =>
    intro x row k pa p s s1 taken
    simp only [List.mem_cons, List.not_mem_nil, or_false] at row
    rcases row with rfl | rfl <;> rfl
  case wbData =>
    exact fun k pa p s s1 taken unfilled => congrArg Host.Outcome.next (wbDataArrives_taken taken unfilled)
  case fill =>
    intro pa x s waits installs done
    rw [← lineOf_div] at waits
    have ready : ¬ readUnderWay s (pa.toNat / 256) = true := by simp [done]
    exact congrArg Host.Outcome.next ((if_neg ready).trans (fillArrives_found waits installs))

end Sys2Proof.Proofs
end

section
/-! SUPPORT. Requests and command slots of the memory channels (R293, R294, R301, R303, R305, R310, R311): how a request joins the queue of its
channel, and what each kind of slot issues. -/

namespace Sys2Proof.Proofs

open Sys2Proof Sys2Proof.Machine

/-! ## Changing a channel -/

@[simp] theorem mapChan_channel (c : Nat) (f : Channel → Channel) (s : State) (j : Nat) :
    (mapChan c f s).channel j = if j = c then f (s.channel c) else s.channel j := State.setChannel_channel _ _ _ _

/-- The records, signals and counts that leave a state the same beside them leave its channels. -/
theorem channel_of_besideSignals {s t : State} (same : besideSignals t = besideSignals s) (j : Nat) : t.channel j = s.channel j := by
  obtain ⟨-, -, -, mc, -⟩ := units_of_besideSignals same
  simp only [State.channel, mc]

@[simp] theorem besideSignals_wakeDom (d : Domain) (s : State) : besideSignals (wakeDom d s) = besideSignals s := by
  simp [wakeDom, apply_ite besideSignals]

/-! ## Requests (R301, R305, R310) -/

/-- A channel without a sector's place in its patrol's list. -/
def patrolClosed (sec : Nat) (ch : Channel) : Channel := { ch with patrolList := ch.patrolList.filter (fun x => decide (x.1 ≠ sec)) }

/-- Closing a patrol entry ends the place of the sector in the list of its channel; of the channels and of memory nothing else changes. -/
theorem closePatrol_closes (sec : Nat) (poisoned : Bool) (s : State) :
    (∀ j, (closePatrol sec poisoned s).channel j = if j = chanOf sec then patrolClosed sec (s.channel j) else s.channel j) ∧
      (closePatrol sec poisoned s).mem = s.mem := by
  unfold closePatrol
  dsimp only
  split
  next absent =>
    have kept : patrolClosed sec (s.channel (chanOf sec)) = s.channel (chanOf sec) := by
      have all : (s.channel (chanOf sec)).patrolList.filter (fun x => decide (x.1 ≠ sec)) = (s.channel (chanOf sec)).patrolList :=
        List.filter_eq_self.mpr (by simpa using absent)
      simp only [patrolClosed, all]
    refine ⟨fun j => ?_, rfl⟩
    split
    next here => rw [here, kept]
    next => rfl
  next =>
    have same := besideSignals_recordSeal
    refine ⟨fun j => ?_, ?_⟩
    · rw [channel_of_besideSignals (same _ _), State.setChannel_channel]
      split
      next here => rw [here]; rfl
      next => rfl
    · obtain ⟨mem, -⟩ := units_of_besideSignals (same _ _)
      rw [mem]
      rfl

/-- Draining depends on the queue and on whether the channel drained before, so deciding it again changes nothing (R310). -/
theorem drainState_again (ch : Channel) : drainState { ch with draining := drainState ch } = drainState ch := by
  by_cases full : 3 * Config.writeQueue ≤ 4 * (ch.queue.filter (fun r => mcWrites r.kind)).length
  · simp only [drainState, if_pos full]
  · by_cases low : 4 * (ch.queue.filter (fun r => mcWrites r.kind)).length ≤ Config.writeQueue
    · simp only [drainState, if_neg full, if_pos low]
    · simp only [drainState, if_neg full, if_neg low]

/-- A request joins the queue of its channel there; the patrol's lists, the other channels and memory stay. -/
theorem queueReq_joins (c : Nat) (tie : Bool) (r : McReq) (s : State) :
    let m := if tie then (s.channel c).arrivals else (s.channel c).arrivals + 1
    let t := queueReq c tie r s
    (t.channel c).queue = (s.channel c).queue ++ [{ r with cycle := m }] ∧ (t.channel c).arrivals = m ∧
      (t.channel c).draining = drainState (t.channel c) ∧ (∀ j, (t.channel j).patrolList = (s.channel j).patrolList) ∧
      (∀ j, j ≠ c → t.channel j = s.channel j) ∧ t.mem = s.mem := by
  intro m t
  simp only [t, queueReq, mapChan_channel, if_true]
  refine ⟨rfl, rfl, (drainState_again _).symm, fun j => ?_, fun j other => if_neg other, rfl⟩
  split
  next here => rw [here]
  next => rfl

/-- What a request finds when it joins the queue: the patrol entry of its sector closed and its channel waking (R305, R418). -/
def requestMet (c : ChanId) (sec : Nat) (poisoned : Bool) (s : State) : State := wakeDom (.channel c) (closePatrol sec poisoned s)

section
variable (c : ChanId) (sec : Nat) (poisoned : Bool) (s : State)

theorem requestMet_channel (j : Nat) :
    (requestMet c sec poisoned s).channel j = if j = chanOf sec then patrolClosed sec (s.channel j) else s.channel j := by
  obtain ⟨closed, -⟩ := closePatrol_closes sec poisoned s
  exact (channel_of_besideSignals (besideSignals_wakeDom _ _) j).trans (closed j)

theorem requestMet_mem : (requestMet c sec poisoned s).mem = s.mem := by
  obtain ⟨-, closed⟩ := closePatrol_closes sec poisoned s
  obtain ⟨woken, -⟩ := units_of_besideSignals (besideSignals_wakeDom (.channel c) (closePatrol sec poisoned s))
  exact woken.trans closed

theorem requestMet_queue (j : Nat) : ((requestMet c sec poisoned s).channel j).queue = (s.channel j).queue ∧
    ((requestMet c sec poisoned s).channel j).arrivals = (s.channel j).arrivals := by
  rw [requestMet_channel]
  split <;> exact ⟨rfl, rfl⟩

theorem requestMet_patrolList : ∀ x ∈ ((requestMet c sec poisoned s).channel (chanOf sec)).patrolList, x.1 ≠ sec := by
  rw [requestMet_channel, if_pos rfl]
  exact fun x listed => of_decide_eq_true (List.mem_filter.mp listed).2

end

/-- A request at the controller of its sector. -/
theorem execMcRequest_here {c : ChanId} {pa : BitVec 52} {s : State} (here : (placeOf s pa.toNat).1 = c.val) (k : McKind) (n : StallId)
    (pri : BitVec 2) (src : McSource) :
    execMcRequest c k pa n pri src s = .next (queueReq c.val src.tie
      { kind := k, pa := pa.toNat, ca := (placeOf s pa.toNat).2, stall := n.val, pri := pri.toNat, src := src.stop.toNat }
      (requestMet c (pa.toNat / 256) (!mcWrites k) s)) :=
  if_neg (not_not_intro here)

/-! ## Slots in work-conserving operation (R303, R310) -/

section
variable {c aged : Nat} {s : State}

theorem mcSlot_forced {k : Nat} (forced : refreshForced (s.channel c) = some k) : mcSlot c aged s = issueRefresh c k s := by
  simp only [mcSlot, forced]

theorem mcSlot_picked {i : Nat} (unforced : refreshForced (s.channel c) = none)
    (picked : mcPick (s.channel c) aged (fun _ => true) = some i) : mcSlot c aged s = mcIssue c i false s := by
  simp only [mcSlot, unforced, picked]

theorem mcSlot_waiting {k : Nat} (unforced : refreshForced (s.channel c) = none)
    (unpicked : mcPick (s.channel c) aged (fun _ => true) = none) (waits : refreshWaiting (s.channel c) = some k) :
    mcSlot c aged s = issueRefresh c k s := by
  simp only [mcSlot, unforced, unpicked, waits]

theorem mcSlot_idle (unforced : refreshForced (s.channel c) = none) (unpicked : mcPick (s.channel c) aged (fun _ => true) = none)
    (nothing : refreshWaiting (s.channel c) = none) : mcSlot c aged s = mcIdle c s := by
  simp only [mcSlot, unforced, unpicked, nothing]

end

theorem execDramCommandSlot_runs {c : ChanId} {s : State} (unfixed : fixedMode s = false) (runs : chanRuns (s.channel c.val) = true) (aged : Nat) :
    execDramCommandSlot c aged s = .next (mcSlot c.val aged s) :=
  congrArg Host.Outcome.next (if_neg (by simp [unfixed, runs]))

/-! ## Slots in fixed-slot mode (R303, R311) -/

section
variable {c n : Nat} {s : State}

/-- An owned slot without an operation of its stall stays idle. -/
theorem ownedSlot_idle (nothing : ∀ r ∈ (s.channel c).queue, r.stall = n → ownedKind r.kind = false) : ownedSlot c n s = s := by
  have unfound : (s.channel c).queue.findIdx? (fun r => decide (r.stall = n) && ownedKind r.kind) = none := by
    simpa [List.findIdx?_eq_none_iff] using nothing
  simp only [ownedSlot, unfound]

/-- An owned slot issues the oldest operation of its stall, where that is eligible. -/
theorem ownedSlot_oldest {i : Nat} {r : McReq} (oldest : (s.channel c).queue.findIdx? (fun x => decide (x.stall = n) && ownedKind x.kind) = some i)
    (held : (s.channel c).queue[i]? = some r) :
    ownedSlot c n s = if mcEligible (s.channel c) r then mcIssue c i true s else s := by
  simp only [ownedSlot, oldest, held, Option.map_some, Option.getD_some]

end

/-- Whether a slot's place and its frame give the slot to refresh. -/
def givenToRefresh (ch : Channel) (slot : Nat) : Bool := decide (slot < 8) && (ch.oddFrame || ch.frameFast)

/-- What an unowned slot may issue: no operation that owned slots carry, and nothing to a rank that is due its refresh. -/
def openAdmits (s : State) (ch : Channel) (r : McReq) : Bool :=
  !(ownedKind r.kind && decide ((s.stall r.stall).slotsNow ≠ 0)) && decide (Tbl.get ch.postponed (reqLoc ch r).rank 0 < 4)

section
variable {c slot aged : Nat} {s : State}

theorem openSlot_refresh {k : Nat} (given : givenToRefresh (s.channel c) slot = true) (waits : refreshWaiting (s.channel c) = some k) :
    openSlot c slot aged s = issueRefresh c k s := by
  have due : slot < 8 ∧ ((s.channel c).oddFrame || (s.channel c).frameFast) = true := by simpa [givenToRefresh] using given
  simp only [openSlot, if_pos due, waits]

variable (unrefreshed : givenToRefresh (s.channel c) slot = false ∨ refreshWaiting (s.channel c) = none)
include unrefreshed

theorem dueRefresh_none :
    (if slot < 8 ∧ ((s.channel c).oddFrame || (s.channel c).frameFast) = true then refreshWaiting (s.channel c) else none) = none := by
  rcases unrefreshed with ungiven | nothing
  · exact if_neg (by simpa [givenToRefresh] using ungiven)
  · rw [nothing, ite_self]

/-- An unowned slot without a refresh makes R310's choice among what it may issue. -/
theorem openSlot_picked {i : Nat} (picked : mcPick (s.channel c) aged (openAdmits s (s.channel c)) = some i) :
    openSlot c slot aged s = mcIssue c i true s := by
  unfold openAdmits at picked
  simp only [openSlot, dueRefresh_none unrefreshed, picked]

theorem openSlot_idle (unpicked : mcPick (s.channel c) aged (openAdmits s (s.channel c)) = none) :
    openSlot c slot aged s = mcIdle c s := by
  unfold openAdmits at unpicked
  simp only [openSlot, dueRefresh_none unrefreshed, unpicked]

end

/-- A channel whose slot has been taken: the patrol, the copies and the repairs may not use it. -/
def slotTaken (c : Nat) (s : State) : State := mapChan c (fun x => { x with slotFree := false }) s

theorem slotTaken_channel (c : Nat) (s : State) : (slotTaken c s).channel c = { s.channel c with slotFree := false } := by
  simp [slotTaken]

/-- R310's choice among what an unowned slot may issue does not depend on whether the slot is free. -/
theorem mcPick_slotTaken (c aged : Nat) (s : State) :
    mcPick ((slotTaken c s).channel c) aged (openAdmits (slotTaken c s) ((slotTaken c s).channel c)) =
      mcPick (s.channel c) aged (openAdmits s (s.channel c)) := by
  rw [slotTaken_channel]
  rfl

/-- The end of a slot: every bank closes, and the frame that the last one ends gives the next the refresh rate that stands. -/
def slotEnded (slot : Nat) (x : Channel) : Channel :=
  let y := { x with openBanks := [] }
  if slot = 31 then { y with oddFrame := !y.oddFrame, frameFast := decide (y.fastRefresh ≠ 0) } else y

section
variable {c : ChanId} {slot : Fin 32} {s : State} (fixed : fixedMode s = true) (runs : chanRuns (s.channel c.val) = true)
include fixed runs

theorem execFixedSlot_owned {n : Nat} (owned : slotOwner s slot.val = some n) (aged : Nat) :
    execFixedSlot c slot aged s = .next (mapChan c.val (slotEnded slot.val) (ownedSlot c.val n (slotTaken c.val s))) := by
  have works : ¬((!fixedMode s) = true ∨ (!chanRuns (s.channel c.val)) = true) := by simp [fixed, runs]
  simp only [execFixedSlot, if_neg works, owned]
  rfl

theorem execFixedSlot_unowned (unowned : slotOwner s slot.val = none) (aged : Nat) :
    execFixedSlot c slot aged s = .next (mapChan c.val (slotEnded slot.val) (openSlot c.val slot.val aged (slotTaken c.val s))) := by
  have works : ¬((!fixedMode s) = true ∨ (!chanRuns (s.channel c.val)) = true) := by simp [fixed, runs]
  simp only [execFixedSlot, if_neg works, unowned]
  rfl

end

end Sys2Proof.Proofs
end

section
/-! SUPPORT. Reads, refresh, sensors, patrol, repairs and copies of the memory channels (R291, R294–R297, R301–R308, R312, R315): what each event
comes to in the state that its clause names, and the settling of the obligation. -/

namespace Sys2Proof.Proofs

open Sys2Proof Sys2Proof.Machine

/-! ## Reads, banks and memory slots (R294, R301, R312) -/

/-- The oldest issued read returns; its seal line is decoded where the request reads it. -/
theorem execDramReadDone_oldest {c : ChanId} {r : McReq} {rest : List McReq} {s : State} (oldest : (s.channel c.val).issued = r :: rest)
    (data : List Ecc) (tags seals : Ecc) :
    let k := r.ca / 256
    let s1 := ((mcSubs r.kind).zip data).foldl (fun st x => lineRead c.val (256 * k + 64 * x.1) x.2 st)
      (s.setChannel c.val { s.channel c.val with issued := rest })
    execDramReadDone c data tags seals s =
      .next (if mcSeals r.kind then recordRead c.val k tags seals s1 else tackRead c.val (tagLine k) tags s1) := by
  simp only [execDramReadDone, oldest]

/-- A bank to whose open row nothing is queued closes. -/
theorem execBankCloseTimeout_unheld {c : ChanId} {bank : Nat} {s : State}
    (unheld : ∀ r ∈ (s.channel c.val).queue, (reqLoc (s.channel c.val) r).bankNo = bank → rowHit (s.channel c.val) r = false) :
    execBankCloseTimeout c bank s = .next (s.setChannel c.val
      { s.channel c.val with openBanks := (s.channel c.val).openBanks.filter (fun b => decide (b.1 ≠ bank)) }) :=
  congrArg Host.Outcome.next (if_neg (by simpa using unheld))

/-- MEM_SLOTS that waits applies once no queue holds an operation of the stall. -/
theorem execMemSlotsApply_drained {n : StallId} {s : State} (waits : (s.stall n.val).slotsPending = true)
    (drained : ∀ x ∈ s.mc.channels, ∀ r ∈ x.2.queue, r.stall ≠ n.val) :
    execMemSlotsApply n s = .next (evalStalls (s.setStall n.val
      { s.stall n.val with slotsNow := BitVec.ofNat 32 (odGet s (0x4100 + n.val) 0x23), slotsPending := false })) := by
  have unused : s.mc.channels.any (fun x => x.2.queue.any (fun r => decide (r.stall = n.val))) = false :=
    List.any_eq_false.mpr fun x listed => by simpa using drained x listed
  exact congrArg Host.Outcome.next (if_pos ⟨waits, by rw [unused]; rfl⟩)

/-! ## Refresh (R303, R306, R315) -/

section
variable {c : ChanId} {rank : Fin 8} {s : State} (runs : chanRuns (s.channel c.val) = true)
include runs

/-- A refresh that falls due in a rank that no soft repair holds is postponed while fewer than four are. -/
theorem execRefreshDue_postponed (unheld : ¬ (s.channel c.val).sppr.map (fun p => decide (p.rank = rank.val)) = some true)
    (few : Tbl.get (s.channel c.val).postponed rank.val 0 < 4) :
    execRefreshDue c rank s = .next (s.setChannel c.val { s.channel c.val with
      postponed := (s.channel c.val).postponed.set rank.val (Tbl.get (s.channel c.val).postponed rank.val 0 + 1) }) := by
  unfold execRefreshDue
  cases repair : (s.channel c.val).sppr with
  | none => simp [runs, repair, few]
  | some p =>
    have apart : p.rank ≠ rank.val := by simpa [repair] using unheld
    simp [runs, repair, apart, few]

/-- In a rank that a soft repair holds, or with four postponed, it is issued. -/
theorem execRefreshDue_issued (due : (s.channel c.val).sppr.map (fun p => decide (p.rank = rank.val)) = some true ∨
      4 ≤ Tbl.get (s.channel c.val).postponed rank.val 0) :
    execRefreshDue c rank s = .next (dramOut c.val 2 rank.val s) := by
  unfold execRefreshDue
  rcases due with held | many
  · obtain ⟨p, repair, same⟩ := Option.map_eq_some_iff.mp held
    simp [runs, repair, same]
  · simp [runs, Nat.not_lt.mpr many]

theorem execDlRefreshExpiry_outstanding (outstanding : Tbl.get (s.channel c.val).postponed rank.val 0 ≠ 0) :
    execDlRefreshExpiry c rank s = .next (recordDeadline 1 (rankRes c.val rank.val) (bumpChan c.val 0x0B
      (issueRefresh c.val rank.val (mapChan c.val (fun x => { x with rankPass := x.rankPass ++ [(rank.val, 0)] }) s)))) :=
  if_neg (by simp [runs, outstanding])

end

/-! ## Sensors and regulators (R291, R303) -/

/-- A channel's double refresh rate after a reading of the sensors of one of its DIMMs. -/
def refreshRate (mask fast : BitVec 2) (temps : List Int) : BitVec 2 :=
  if temps.any (fun t => decide (85 ≤ t)) then fast ||| mask
  else if temps.all (fun t => decide (t < 80)) then fast &&& ~~~mask else fast

/-- The bit of a DIMM in its channel's refresh rate. -/
def dimmMask (dimm : Nat) : BitVec 2 := if dimm % 2 = 0 then 1 else 2

theorem getLsbD_dimmMask (dimm : Nat) : (dimmMask dimm).getLsbD (dimm % 2) = true := by
  rcases Nat.mod_two_eq_zero_or_one dimm with even | odd
  · rw [dimmMask, if_pos even, even]; rfl
  · rw [dimmMask, if_neg (by omega), odd]; rfl

/-- A sensor at 85 °C sets the DIMM's bit. -/
theorem refreshRate_hot {temps : List Int} (hot : ∃ y ∈ temps, 85 ≤ y) (dimm : Nat) (fast : BitVec 2) :
    (refreshRate (dimmMask dimm) fast temps).getLsbD (dimm % 2) = true := by
  have some_hot : temps.any (fun t => decide (85 ≤ t)) = true := by simpa using hot
  rw [refreshRate, if_pos some_hot, BitVec.getLsbD_or, getLsbD_dimmMask, Bool.or_true]

/-- With every sensor below 80 °C it is clear. -/
theorem refreshRate_cool {temps : List Int} (cool : ∀ y ∈ temps, y < 80) (dimm : Nat) (fast : BitVec 2) :
    (refreshRate (dimmMask dimm) fast temps).getLsbD (dimm % 2) = false := by
  have none_hot : ¬ temps.any (fun t => decide (85 ≤ t)) = true := by
    simpa using fun y inside => Int.lt_trans (cool y inside) (by decide)
  have all_cool : temps.all (fun t => decide (t < 80)) = true := by simpa using cool
  rw [refreshRate, if_neg none_hot, if_pos all_cool, BitVec.getLsbD_and, BitVec.getLsbD_not, getLsbD_dimmMask]
  simp

/-- A reading of some sensors keeps their maximum and sets the channel's refresh rate. -/
theorem execDimmSensorRead_cons (k : Fin 8) (dimm : Fin 4) (x : Int) (r : List Int) (s : State) :
    let c := 2 * k.val + dimm.val / 2
    let s1 := s.setChannel c { s.channel c with fastRefresh := refreshRate (dimmMask dimm.val) (s.channel c).fastRefresh (x :: r) }
    execDimmSensorRead k dimm (x :: r) s =
      .next { s1 with mc := { s1.mc with dimmTemps := s1.mc.dimmTemps.set (4 * k.val + dimm.val) (r.foldl max x) } } := rfl

/-! ## Patrol (R303, R304) -/

section
variable {c : ChanId} {s : State} (runs : chanRuns (s.channel c.val) = true) (may : stepMay s c.val true = true) (found : SectorRead)
include runs may

/-- A rank's own pass goes first. -/
theorem execPatrolStep_pass {k i : Nat} {rest : List (Nat × Nat)} (pass : (s.channel c.val).rankPass = (k, i) :: rest) :
    let ch := s.channel c.val
    execPatrolStep c found s = .next (patrolLine c.val (rankLine ch.ranks k i) found (s.setChannel c.val
      { ch with rankPass := if (i + 1) * ch.ranks < chanCap s / 64 then (k, i + 1) :: rest else rest })) := by
  simp [execPatrolStep, runs, may, pass]

theorem execPatrolStep_next (unpassed : (s.channel c.val).rankPass = []) (more : (s.channel c.val).patrol + 1 < chanCap s / 64) :
    let ch := s.channel c.val
    execPatrolStep c found s =
      .next (patrolLine c.val ch.patrol found (s.setChannel c.val { ch with patrol := ch.patrol + 1 })) := by
  simp [execPatrolStep, runs, may, unpassed, more]

/-- After the channel's last line the patrol begins again, and the pass is counted. -/
theorem execPatrolStep_wraps (unpassed : (s.channel c.val).rankPass = []) (last : chanCap s / 64 ≤ (s.channel c.val).patrol + 1) :
    let ch := s.channel c.val
    execPatrolStep c found s =
      .next (bumpChan c.val 0x09 (patrolLine c.val ch.patrol found (s.setChannel c.val { ch with patrol := 0 }))) := by
  simp [execPatrolStep, runs, may, unpassed, Nat.not_lt.mpr last]

end

/-! ## Repairs that run in steps (R306–R308) -/

theorem execSpprComplete_repairing {c : ChanId} {p : Sppr} {s : State} (repairs : (s.channel c.val).sppr = some p)
    (may : stepMay s c.val false = true) :
    execSpprComplete c s = .next (endRepair 0x02 0x05 (rankRes c.val p.rank)
      { detail := p.device + 32 + natField p.bank 2 3 * 64 + natField p.bank 0 2 * 512 + p.row % 2 ^ 21 * 2048 }
      (bumpChan c.val 0x0A (s.setChannel c.val
        { s.channel c.val with
          sppr := none, slotFree := false, softRepairs := (s.channel c.val).softRepairs ++ [p],
          rowCe := (s.channel c.val).rowCe.erase ((p.bank * 2 ^ 24 + p.row) * 20 + p.device) }))) := by
  simp [execSpprComplete, repairs, may]

/-- The line that a rank copy reads: decoded as a tack line in the tack region, else copied. -/
def rankLineCopied (c f ptr : Nat) (found : Ecc) (s : State) : State :=
  let s0 := takeStep c (s.channel c).ranks (takeStep c f s)
  if tackBase s ≤ 64 * ptr then tackRead c (ptr - tackBase s / 64) found s0 else copiedLine c (64 * ptr) found s0

/-- The first line of rank `f` after `ptr`. -/
def nextRankLine (ranks f ptr : Nat) : Option Nat :=
  ((List.range (ranks * 64)).map (· + ptr + 1)).find? (fun l => decide ((locOf ranks (64 * l)).rank = f))

/-- A rank copy moves on to the rank's next line, or ends where the channel has none. -/
theorem execRankCopyStep_copies {c : ChanId} {f ptr n : Nat} {s : State} (powered : s.pwr.pwrfail = false)
    (may : stepMay s c.val false = true) (copies : (s.channel c.val).migration = some (.rank f ptr))
    (follows : nextRankLine (s.channel c.val).ranks f ptr = some n) (found : Ecc) :
    let total := chanCap s / 64
    let s1 := rankLineCopied c.val f ptr found s
    execRankCopyStep c found s =
      if n < total then .next (mapChan c.val (fun x => { x with migration := some (.rank f n), progress := 100 * n / total }) s1)
      else .next (endRepair 0x02 0x07 (rankRes c.val f) {} (changeChan c.val (spareServes f) s1)) := by
  have steps : ¬(s.pwr.pwrfail = true ∨ (!stepMay s c.val false) = true) := by simp [powered, may]
  rw [nextRankLine] at follows
  simp only [execRankCopyStep, copies, if_neg steps, follows]
  rfl

/-- A channel copy moves on to the next sector, or ends where normal memory has none. -/
theorem execChannelCopyStep_copies {c : ChanId} {ptr : Nat} {s : State} (powered : s.pwr.pwrfail = false)
    (may : stepMay s c.val false = true) (copies : (s.channel c.val).migration = some (.channel ptr)) (found : SectorRead) :
    let total := chanNormal s / 256
    let s1 := forwardSector c.val ptr (sendCopy c.val ptr (copiedSector c.val ptr found s))
    let s2 := changeChan c.val (fun x => { x with migration := none, state := 3, progress := 100, moved := 0, poweredOff := true }) s1
    execChannelCopyStep c found s =
      if ptr + 1 < total then
        .next (mapChan c.val (fun x => { x with migration := some (.channel (ptr + 1)), progress := 100 * (ptr + 1) / total }) s1)
      else .next (endRepair 0x02 0x08 (resource 3 c.val) {} { s2 with mc := { s2.mc with retired := some c.val } }) := by
  have steps : ¬(s.pwr.pwrfail = true ∨ (!stepMay s c.val false) = true) := by simp [powered, may]
  simp only [execChannelCopyStep, copies, if_neg steps]

/-! ## The obligation -/

/-- Settles O23: each request, slot and event, by the lemma above for the state that its clause names. That the flags of a regulator go to the
channel of their DIMM, the first two to the even one, is the model's choice (log entries 37 and 163). -/
theorem memoryChannelsComplete : Obligations.MemoryChannelsComplete := by
  refine ⟨?request, ?slot, ?fixed, ?read, ?bank, ?slots, ?due, ?deadline, ?sensors, ?regulators, ?patrol, ?soft, ?rankCopy, ?channelCopy⟩
  case request =>
    intro c k pa n pri src tie s place m here
    refine ⟨_, execMcRequest_here here k n pri ⟨src, tie⟩, ?_⟩
    obtain ⟨queue, cycle, draining, lists, others, mem⟩ := queueReq_joins c.val tie
      { kind := k, pa := pa.toNat, ca := place.2, stall := n.val, pri := pri.toNat, src := src.toNat }
      (requestMet c (pa.toNat / 256) (!mcWrites k) s)
    obtain ⟨waiting, arrivals⟩ := requestMet_queue c (pa.toNat / 256) (!mcWrites k) s c.val
    rw [arrivals] at queue cycle
    rw [waiting] at queue
    refine ⟨queue, cycle, draining, fun j other => ?_, ?_, mem.trans (requestMet_mem c _ _ s)⟩
    · obtain ⟨kept, -⟩ := requestMet_queue c (pa.toNat / 256) (!mcWrites k) s j
      rw [others j other, kept]
    · rw [lists]
      exact requestMet_patrolList c _ _ s
  case slot =>
    intro c aged s unfixed runs ch
    have slot := execDramCommandSlot_runs unfixed runs aged
    exact ⟨fun k forced => slot.trans (congrArg _ (mcSlot_forced forced)),
      fun i unforced picked => slot.trans (congrArg _ (mcSlot_picked unforced picked)),
      fun k unforced unpicked waits => slot.trans (congrArg _ (mcSlot_waiting unforced unpicked waits)),
      fun unforced unpicked nothing => slot.trans (congrArg _ (mcSlot_idle unforced unpicked nothing))⟩
  case fixed =>
    intro c slot aged s fixed runs ch s0 refresh free done
    have taken : s0.channel c.val = { ch with slotFree := false } := slotTaken_channel c.val s
    refine ⟨fun n owned => ?owned, fun unowned => ?unowned⟩
    case owned =>
      have ends : exec (.fixedSlot c slot aged) s = .next (done (ownedSlot c.val n s0)) := execFixedSlot_owned fixed runs owned aged
      refine ⟨fun nothing => ?_, fun i r oldest held => ?_⟩
      · rw [ends, ownedSlot_idle (by rwa [taken])]
      · have issues := ownedSlot_oldest (s := s0) (by rwa [taken]) (by rwa [taken])
        have same : mcEligible (s0.channel c.val) r = mcEligible ch r := by rw [taken]; rfl
        rw [ends, issues, same]
        exact ⟨fun eligible => by rw [if_pos eligible], fun waits => by rw [if_neg (by simp [waits])]⟩
    case unowned =>
      have ends : exec (.fixedSlot c slot aged) s = .next (done (openSlot c.val slot.val aged s0)) :=
        execFixedSlot_unowned fixed runs unowned aged
      have given : givenToRefresh (s0.channel c.val) slot.val = refresh := by rw [taken]; rfl
      have waiting : refreshWaiting (s0.channel c.val) = refreshWaiting ch := by rw [taken]; rfl
      have choice : mcPick (s0.channel c.val) aged (openAdmits s0 (s0.channel c.val)) = mcPick ch aged free := mcPick_slotTaken c.val aged s
      refine ⟨fun k due waits => ?_, fun i unrefreshed picked => ?_, fun unrefreshed unpicked => ?_⟩
      · rw [ends, openSlot_refresh (given.trans due) (waiting.trans waits)]
      · rw [ends, openSlot_picked (by rwa [given, waiting]) (choice.trans picked)]
      · rw [ends, openSlot_idle (by rwa [given, waiting]) (choice.trans unpicked)]
  case read =>
    intro c data tags seals r rest s oldest k s1 s2
    have returns := execDramReadDone_oldest oldest data tags seals
    exact ⟨fun sealed => returns.trans (congrArg Host.Outcome.next (if_pos sealed)),
      fun unsealed => returns.trans (congrArg Host.Outcome.next (if_neg (by simp [unsealed])))⟩
  case bank =>
    intro c b s unheld
    refine ⟨_, execBankCloseTimeout_unheld unheld, ?_⟩
    dsimp only
    rw [State.setChannel_channel, if_pos rfl]
    exact ⟨fun x listed => of_decide_eq_true (List.mem_filter.mp listed).2, rfl, rfl, rfl⟩
  case slots =>
    exact fun n s waits drained => execMemSlotsApply_drained waits drained
  case due =>
    intro c rank s runs n held
    refine ⟨fun unheld few => ⟨_, execRefreshDue_postponed runs unheld few, ?_, rfl⟩,
      fun due => ⟨_, execRefreshDue_issued runs due, rfl, rfl⟩⟩
    rw [State.setChannel_channel, if_pos rfl, Tbl.get_set, if_pos rfl]
  case deadline =>
    exact fun c rank s runs outstanding => execDlRefreshExpiry_outstanding runs outstanding
  case sensors =>
    intro k dimm x r s c bit
    refine ⟨_, execDimmSensorRead_cons k dimm x r s, ?_⟩
    have rate : ((s.setChannel c { s.channel c with
        fastRefresh := refreshRate (dimmMask dimm.val) (s.channel c).fastRefresh (x :: r) }).channel c).fastRefresh =
        refreshRate (dimmMask dimm.val) (s.channel c).fastRefresh (x :: r) := by simp
    exact ⟨(Tbl.get_set _ _ _ _ _).trans (if_pos rfl), fun hot => (congrArg (BitVec.getLsbD · bit) rate).trans (refreshRate_hot hot _ _),
      fun cool => (congrArg (BitVec.getLsbD · bit) rate).trans (refreshRate_cool cool _ _)⟩
  case regulators =>
    exact fun k s => ⟨⟨_, rfl, (Tbl.get_set _ _ _ _ _).trans (if_pos rfl), rfl⟩, fun f => rfl⟩
  case patrol =>
    exact fun c found s runs may => ⟨fun k i rest pass => execPatrolStep_pass runs may found pass,
      fun unpassed more => execPatrolStep_next runs may found unpassed more,
      fun unpassed last => execPatrolStep_wraps runs may found unpassed last⟩
  case soft =>
    exact fun c p s repairs may => execSpprComplete_repairing repairs may
  case rankCopy =>
    intro c found f ptr n s ch lines s0 s1 powered may copies follows
    have step := execRankCopyStep_copies powered may copies follows found
    exact ⟨fun more => step.trans (if_pos more), fun last => step.trans (if_neg (Nat.not_lt.mpr last))⟩
  case channelCopy =>
    intro c found ptr s sectors s1 powered may copies
    have step := execChannelCopyStep_copies powered may copies found
    exact ⟨fun more => step.trans (if_pos more), fun last => step.trans (if_neg (Nat.not_lt.mpr last))⟩

end Sys2Proof.Proofs
end

section
/-! SUPPORT. Invalidations of translations (R333, R334): what the body of each kind yields, what the last acknowledge comes to, and the settling
of the obligation. -/

namespace Sys2Proof.Proofs

open Sys2Proof Sys2Proof.Machine

/-! ## The bodies (R333) -/

section
variable {loc : Bool} {m o : Opd} {e : Env} {npc : BitVec 47} {s s1 s2 : State} {va : Nat} {v : Word}

/-- TLBI.VA names the stall and the ASID of its core as they are once its address is formed. -/
theorem tlbiVaBody_yields (formed : Yields (formAddr e 0 m) s va s1)
    (performed : Yields (performInval e loc (invalVa (s1.core e.c).stall ((s1.core e.c).arch.ttbr.truncate 12) va)) s1 npc s2) :
    Yields (tlbiVaBody loc m e) s npc s2 :=
  yields_bind formed (yields_bind (yields_get s1) performed)

/-- TLBI.ASID names the stall of its core and the ASID that its source holds. -/
theorem tlbiAsidBody_yields (sourced : Yields (tlbiSrc e 0 o) s v s1)
    (performed : Yields (performInval e loc (invalAsid (s1.core e.c).stall (v.truncate 12))) s1 npc s2) :
    Yields (tlbiAsidBody loc o e) s npc s2 :=
  yields_bind sourced (yields_bind (yields_get s1) performed)

/-- TLBI.STALLN names the stall that its source holds. -/
theorem tlbiStallnBody_yields (sourced : Yields (tlbiSrc e 0 o) s v s1)
    (performed : Yields (performInval e loc (invalStall (natField v.toNat 0 9))) s1 npc s2) : Yields (tlbiStallnBody loc o e) s npc s2 :=
  yields_bind sourced performed

/-- TLBI.STALL names the stall of its core. -/
theorem tlbiStallBody_yields (performed : Yields (performInval e loc (invalStall (s.core e.c).stall)) s npc s1) :
    Yields (tlbiStallBody loc e) s npc s1 :=
  yields_bind (yields_get s) performed

/-- IOTLBI at PL0, or for its core's own stall, drains the store buffer, invalidates at the IOMMUs and leaves its core waiting. -/
theorem iotlbiBody_yields {page : Option Nat} {anyOk : Bool} :
    let n := natField v.toNat 0 9
    let t := ioInvalidate n page (anyOk && decide (n = 0x1FF)) s1
    (e.pl ≠ 0 → n = (s.core e.c).stall) → Yields (fenceAll e) s () s1 →
    Yields (iotlbiBody page v anyOk e) s e.npc (t.setCore e.c { t.core e.c with tlbiWait := true }) := by
  intro n t own drained
  have permitted : ¬(e.pl ≠ 0 ∧ n ≠ (s.core e.c).stall) := fun ⟨above, foreign⟩ => foreign (own above)
  exact yields_bind (yields_get s) (yields_skip permitted (yields_bind drained (yields_bind (yields_change _ s1) (yields_pure _ _))))

end

/-! ## The acknowledge (R334) -/

/-- Once what the cores have translated is performed, the waiting core goes on. -/
theorem execTlbiComplete_performed {c : CoreId} {s t : State} (waits : (s.core c.val).tlbiWait = true) (performed : performTranslated s = some t) :
    execTlbiComplete c s = .next (t.setCore c.val { t.core c.val with tlbiWait := false }) := by
  simp only [execTlbiComplete, waits, performed, if_true]

/-! ## The obligation -/

/-- Settles O11: each row is the body of its kind of invalidation with what it names. -/
theorem invalidationsComplete : Obligations.InvalidationsComplete := by
  refine ⟨?va, ?source, ?stall, ?iommu, ?iommuPage, ?complete⟩
  case va =>
    intro p row a m s s0 s1 s2 va len e starts formed performed
    have body : Yields (tlbiVaBody p.2 m e) s0 e.npc s2 := tlbiVaBody_yields formed performed
    simp only [List.mem_cons, List.not_mem_nil, or_false] at row
    rcases row with rfl | rfl <;> exact runInstr_ends starts body
  case source =>
    intro p row a o s s0 s1 s2 v len e starts sourced performed
    simp only [List.mem_cons, List.not_mem_nil, or_false] at row
    rcases row with rfl | rfl | rfl | rfl
    · exact runInstr_ends starts (tlbiAsidBody_yields sourced performed)
    · exact runInstr_ends starts (tlbiAsidBody_yields sourced performed)
    · exact runInstr_ends starts (tlbiStallnBody_yields sourced performed)
    · exact runInstr_ends starts (tlbiStallnBody_yields sourced performed)
  case stall =>
    intro p row a s s0 s1 len e starts performed
    simp only [List.mem_cons, List.not_mem_nil, or_false] at row
    rcases row with rfl | rfl | rfl | rfl
    · exact runInstr_ends starts (tlbiStallBody_yields performed)
    · exact runInstr_ends starts (tlbiStallBody_yields performed)
    · exact runInstr_ends (body := fun e => performInval e false invalAll) starts performed
    · exact runInstr_ends (body := fun e => performInval e true invalAll) starts performed
  case iommu =>
    intro a o s s0 s1 s2 v len e n t starts sourced own drained
    show execIotlbi a o s = _
    exact runInstr_ends starts (yields_bind sourced (iotlbiBody_yields own drained))
  case iommuPage =>
    intro a m o s s0 s1 s2 s3 va v len e n t starts formed sourced own drained
    show execIotlbiVa a m o s = _
    exact runInstr_ends starts (yields_bind formed (yields_bind sourced (iotlbiBody_yields own drained)))
  case complete => exact fun c s t waits performed => execTlbiComplete_performed waits performed

end Sys2Proof.Proofs
end

section
/-! SUPPORT. The host's memory accesses, MSI-X, windows and ATS (R339, R340, R370, R380–R384, R404): what a request that reaches its function comes
to, what each access does there, and the settling of the obligation. -/

namespace Sys2Proof.Proofs

open Sys2Proof Sys2Proof.Machine

/-! ## Requests and accesses to a BAR (R370, R392, R418) -/

/-- A request that reaches its function takes effect in the state of its arrival. -/
theorem arrive_reaches {l : Nat} {s : State} (reaches : Reaches l s) (held : HostTlp) (act : State → State) :
    arrive l held act s = act (arrived l s) := by
  obtain ⟨trained, up⟩ := reaches
  unfold arrived at up
  simp only [arrive, trained, Bool.not_true, Bool.false_eq_true, if_false, up, if_true, arrived]

theorem barAccess_ok {acc : BarAcc} (allowed : barOk acc = true) (p fn : Nat) (bad f : State → State) (s : State) :
    barAccess p fn acc bad f s = f s := if_pos allowed

/-- An access of another size or alignment than the ones allowed ends badly where its function answers. -/
theorem barAccess_bad {p fn : Nat} {acc : BarAcc} {s : State} (disallowed : barOk acc = false)
    (trained : linkTrained (s.ctl (fnLink s p fn)).link = true) (answers : fnAnswers s p fn = true) (bad f : State → State) :
    barAccess p fn acc bad f s = bad s := by
  simp only [barAccess, disallowed, trained, answers, Bool.not_true, Bool.false_eq_true, if_false]

/-! ## Accesses through a window (R381–R384) -/

section
variable {p : Nat} {off : Word} {w : Window} {x : Xlat} {s s2 : State}

/-- An access that its kind allows and that a window holds goes through the window once the device is READY. -/
theorem inbound_matched {len most : Nat} (fits : len ≤ most) (page : off.toNat % 4096 + len ≤ 4096) (ready : s.boot.ready = true)
    (answers : fnAnswers s p 0 = true) (act : Window → State → State) : inbound p (some w) false off len most act s = act w s := by
  have wellFormed : ¬(most < len ∨ 4096 < off.toNat % 4096 + len) := by omega
  simp only [inbound, if_neg wellFormed, ready, answers, Bool.not_true, Bool.or_false, Bool.false_eq_true, if_false]

/-- An unpoisoned inbound write stores its bytes where the IOMMU places them, with the tag of its window. -/
theorem inboundWrite_permitted {data : List Byte} (fits : data.length ≤ 512) (page : off.toNat % 4096 + data.length ≤ 4096)
    (ready : s.boot.ready = true) (answers : fnAnswers s p 0 = true)
    (permitted : ioLookup p w.stall.toNat (windowTarget w off) true s = (some x, s2)) :
    inboundWrite p (some w) false off data false s =
      dmaWrite (hostAttr w.stall.toNat x) x.pa data (if w.wtag then .int else .bytes) 9 s2 := by
  simp only [inboundWrite, inbound_matched fits page ready answers, permitted, Bool.false_eq_true, if_false]

/-- An inbound read answers with what memory holds where the IOMMU places it. -/
theorem inboundRead_permitted {len : Nat} (fits : len ≤ 4096) (page : off.toNat % 4096 + len ≤ 4096) (ready : s.boot.ready = true)
    (answers : fnAnswers s p 0 = true) (permitted : ioLookup p w.stall.toNat (windowTarget w off) false s = (some x, s2)) :
    let u := dmaRead (hostAttr w.stall.toNat x) x.pa len s2
    inboundRead p (some w) false off len s =
      emitTlp (2 * p) (.completion p (dmaReadBytes u x.pa len).1 (dmaReadBytes u x.pa len).2) u := by
  simp only [inboundRead, inbound_matched fits page ready answers, permitted]

end

/-! ## Acknowledges and MSI-X tables (R380, R404) -/

/-- An acknowledge takes the winning source of its vector, and the vector is signalled again while another source wins it. -/
theorem ackVector_winner {p v n : Nat} {s : State} (answers : fnAnswers s p 0 = true) (wins : vectorWinner s p v = some n) :
    let w : Word := BitVec.ofNat 64 (n + (s.source n).count * 2 ^ 16 + srcLevel (srcCfg s n) * 2 ^ 24)
    let s1 := emitTlp (2 * p) (.completion p (wordBytes w) false) (clearSource n s)
    ackVector p v s = if (vectorWinner s1 p v).isSome then sendMsix p 0 v s1 else s1 := by
  simp only [ackVector, answers, wins, Bool.not_true, Bool.false_eq_true, if_false]

/-- A write within a function's MSI-X table sets its entry, and what was pending for it is sent. -/
theorem writeMsix_within {p fn entry : Nat} {s : State} (answers : fnAnswers s p fn = true) (within : entry < msixEntries fn) (addr : Word)
    (data : BitVec 32) (mask : Bool) :
    writeMsix p fn entry addr data mask s = sendPending p fn
      (s.setFn p fn { s.fn p fn with msix := (s.fn p fn).msix.set entry { addr := addr, data := data, mask := mask } }) := by
  simp only [writeMsix, answers, Bool.not_true, Bool.false_eq_true, if_false, if_neg (Nat.not_le.mpr within)]

/-! ## Windows (R382) -/

/-- A commit that no other of its port precedes and that is not DENIED waits for its commit point. -/
theorem execWindowCommit_accepted {path : Path} {p : HPort} {s : State} (permits : Permits path (0x8030 + p.val) 0x21 1 s)
    (idle : s.host.commitPending.any (fun x => decide (x.1 = p.val)) = false) (allowed : commitDenied s p.val = false) :
    execWindowCommit path p s = .next (setAnswer path .ok (windowResult path p.val resOk
      { s with host := { s.host with commitPending := s.host.commitPending.set p.val path } })) :=
  permittedWrite_answersOk permits (by simp only [idle, allowed, Bool.false_eq_true, if_false])

/-! ## ATS (R339, R340) -/

/-- Counting a host link's event leaves the host endpoint and the translation units as they were. -/
theorem countLink_host_vm (l event n : Nat) (s : State) : (countLink l event n s).host = s.host ∧ (countLink l event n s).vm = s.vm := by
  rw [onlyCounted_countLink l event n s]
  exact ⟨rfl, rfl⟩

/-- Clearing what an endpoint holds changes nothing where it holds nothing. -/
theorem clearHeldOut_nothing {s : State} (nothing : s.host.heldOut = []) :
    ({ s with host := { s.host with heldOut := [] } } : State) = s := by
  rw [← nothing]

theorem releaseOrdered_nothing {s : State} (nothing : s.host.heldOut = []) (k : Nat) : releaseOrdered k s = s := by
  simp only [releaseOrdered, nothing, List.foldl_nil]
  exact clearHeldOut_nothing nothing

/-- A completion of one page fills the ATC; where nothing is held, nothing is sent. -/
theorem atsComplete_page {p fn page trans : Nat} {r w : Bool} {s : State} (grants : (r || w) = true) (nothing : s.host.heldOut = []) :
    let e : AtcEntry := { fn := fn, page := page, host := trans, r := r, w := w }
    atsComplete p fn page 1 trans r w s = atcInsert p e s := by
  intro e
  have unheld : (atcInsert p e s).host.heldOut = [] := nothing
  have filled : (if r || w then (List.range (min 1 1024)).foldl (fun t i =>
      atcInsert p { fn := fn, page := page + i, host := trans + i, r := r, w := w } t) s else s) = atcInsert p e s := if_pos grants
  calc atsComplete p fn page 1 trans r w s
      = releaseOrdered (fnKey p fn) { atcInsert p e s with host := { (atcInsert p e s).host with heldOut := [] } } := by
        simp only [atsComplete, filled, unheld, List.filter_nil, List.foldl_nil]
    _ = releaseOrdered (fnKey p fn) (atcInsert p e s) := by rw [clearHeldOut_nothing unheld]
    _ = atcInsert p e s := releaseOrdered_nothing unheld _

/-- After a drop no entry of the function meets its condition. -/
theorem dropAtc_removes {p fn : Nat} {c : AtcEntry → Bool} {s : State} {e : AtcEntry}
    (kept : e ∈ Tbl.get (dropAtc p fn c s).vm.atc p []) (own : e.fn = fn) : c e = false := by
  rw [show Tbl.get (dropAtc p fn c s).vm.atc p [] = _ from (Tbl.get_set _ _ _ _ _).trans (if_pos rfl)] at kept
  have unmet := (List.mem_filter.mp kept).2
  simpa only [own, decide_true, Bool.true_and, Bool.not_eq_true'] using unmet

/-- The oldest invalidation completes once the reads that it waits for are over. -/
theorem execInvalidationCompletion_oldest {p : HPort} {v : AtsInval} {rest : List AtsInval} {s : State}
    (oldest : Tbl.get s.vm.invalidations p.val [] = v :: rest) (finished : v.reads.any (readOpen s) = false) :
    execInvalidationCompletion p s = .next (emitTlp (2 * p.val) (.invalidateDone p.val v.itag)
      { s with vm := { s.vm with invalidations := s.vm.invalidations.set p.val rest } }) := by
  simp only [execInvalidationCompletion, oldest, finished, Bool.false_eq_true, if_false]

/-! ## The obligation -/

/-- Settles O28: each request takes effect in the state of its arrival. -/
theorem hostMemoryCompletes : Obligations.HostMemoryCompletes := by
  refine ⟨?write, ?read, ?acknowledge, ?misplaced, ?table, ?commit, ?commitPoint, ?fill, ?invalidate, ?invalidated⟩
  case write =>
    intro p off data w x s s2 s1 reaches fits page ready answers holds permitted
    show execInboundWriteTlp p false off data false s = _
    simp only [execInboundWriteTlp, holds]
    rw [arrive_reaches reaches, inboundWrite_permitted fits page ready answers permitted]
  case read =>
    intro p off len w x s s2 s1 reaches fits page ready answers holds permitted
    show execInboundReadTlp p false off len s = _
    simp only [execInboundReadTlp, holds]
    rw [arrive_reaches reaches, inboundRead_permitted fits page ready answers permitted]
  case acknowledge =>
    intro p acc v n s s1 w s2 allowed reaches answers wins
    show execMsixAckRead p ⟨acc, v⟩ s = _
    simp only [execMsixAckRead]
    rw [barAccess_ok allowed, arrive_reaches reaches, ackVector_winner answers wins]
  case misplaced =>
    intro p fn acc v i addr data mask s disallowed
    exact ⟨fun trained answers => congrArg Host.Outcome.next (barAccess_bad disallowed trained answers _ _),
      fun trained answers => congrArg Host.Outcome.next (barAccess_bad disallowed trained answers _ _)⟩
  case table =>
    intro p fn acc i addr data mask s s1 f allowed reaches answers within
    show execMsixTableWrite p fn ⟨acc, i⟩ addr data mask s = _
    simp only [execMsixTableWrite, barWrite]
    rw [barAccess_ok allowed, arrive_reaches reaches, writeMsix_within answers within]
  case commit => exact fun path p s permits idle allowed => execWindowCommit_accepted permits idle allowed
  case commitPoint => exact fun p s waits => if_pos waits
  case fill =>
    intro p fn page trans r w s grants nothing
    obtain ⟨host, -⟩ := countLink_host_vm (fnLink s p.val fn.val) 1 1 s
    show execAtsTranslationCompletion p fn page 1 trans r w s = _
    simp only [execAtsTranslationCompletion]
    rw [atsComplete_page grants (by rw [host]; exact nothing), ← host]
    rfl
  case invalidate =>
    intro p fn page pages itag s
    obtain ⟨-, vm⟩ := countLink_host_vm (fnLink s p.val fn.val) 1 1 s
    refine ⟨_, rfl, fun e kept own => ?_, ?_⟩
    · have outside := dropAtc_removes kept own
      simp only [Bool.and_eq_false_iff, decide_eq_false_iff_not] at outside
      omega
    · rw [← vm]
      exact (Tbl.get_set _ _ _ _ _).trans (if_pos rfl)
  case invalidated => exact fun p v rest s oldest finished => execInvalidationCompletion_oldest oldest finished

end Sys2Proof.Proofs
end

section
/-! SUPPORT. The queue and the machine as a whole (spec/opcode_table.json; R436, R493, R520, R532): every command answers a next state, keeps
the queue and keeps the invariant, one arm for each command of the table; and the settling of the obligations on a step. -/

namespace Sys2Proof.Proofs

open Sys2Proof Sys2Proof.Machine

/-- Every command answers a next state that keeps the queue and the invariant: each arm is the law of its own meaning. -/
theorem exec_goes {s0 s : State} (hk : Keeps s0 s) (i : Instr) : Goes s0 (exec i s) :=
  match i with
  | .sqTailDoorbell p fn q v => keeps_execSqTailDoorbell p fn q v hk
  | .cqHeadDoorbell p fn q v => keeps_execCqHeadDoorbell p fn q v hk
  | .commandFetch l => keeps_execCommandFetch l hk
  | .commandReadCompletion l cmds => keeps_execCommandReadCompletion l cmds hk
  | .replyPoll p => keeps_execReplyPoll p hk
  | .cqCoalesceTimeout p fn q => keeps_execCqCoalesceTimeout p fn q hk
  | .mailboxRead p fn idx sub irq => keeps_execMailboxRead p fn idx sub irq hk
  | .mailboxWrite p fn idx sub len irq data => keeps_execMailboxWrite p fn idx sub len irq data hk
  | .serializerSlot => keeps_execSerializerSlot hk
  | .dictWrite path idx sub data => keeps_execDictWrite path idx sub data hk
  | .qpCreate path record => keeps_execQpCreate path record hk
  | .qpDelete path record => keeps_execQpDelete path record hk
  | .qpModify path record => keeps_execQpModify path record hk
  | .qpDeleted p fn q => keeps_execQpDeleted p fn q hk
  | .windowCommit path p => keeps_execWindowCommit path p hk
  | .windowCommitPoint p => keeps_execWindowCommitPoint p hk
  | .inboundWriteTlp p translated off data ep => keeps_execInboundWriteTlp p translated off data ep hk
  | .inboundReadTlp p translated off len => keeps_execInboundReadTlp p translated off len hk
  | .msixAckRead p v => keeps_execMsixAckRead p v hk
  | .msixTableWrite p fn entry addr data mask => keeps_execMsixTableWrite p fn entry addr data mask hk
  | .configRequest l fn r => keeps_execConfigRequest l fn r hk
  | .flr l fn => keeps_execFlr l fn hk
  | .vfDisable l => keeps_execVfDisable l hk
  | .d3hotEntry l fn => keeps_execD3hotEntry l fn hk
  | .d0Return l fn => keeps_execD0Return l fn hk
  | .drainEnd l fn => keeps_execDrainEnd l fn hk
  | .dlFlrExpiry l fn => keeps_execDlFlrExpiry l fn hk
  | .atsTranslationCompletion p fn page pages hostPage r w => keeps_execAtsTranslationCompletion p fn page pages hostPage r w hk
  | .atsInvalidateRequest p fn page pages itag => keeps_execAtsInvalidateRequest p fn page pages itag hk
  | .invalidationCompletion p => keeps_execInvalidationCompletion p hk
  | .hostReadCompletion e tag answer => keeps_execHostReadCompletion e tag answer hk
  | .perstAssert p => keeps_execPerstAssert p hk
  | .perstDeassert p => keeps_execPerstDeassert p hk
  | .hostLinkTrainingStart l => keeps_execHostLinkTrainingStart l hk
  | .hostLinkL0 l rate width => keeps_execHostLinkL0 l rate width hk
  | .aspmL1Idle l => keeps_execAspmL1Idle l hk
  | .hostL1Exit l => keeps_execHostL1Exit l hk
  | .hostLaneErrorWindow l errs => keeps_execHostLaneErrorWindow l errs hk
  | .pcieCompletionTimeout l r => keeps_execPcieCompletionTimeout l r hk
  | .engineNop e st => keeps_execEngineNop e st hk
  | .put e st => keeps_execPut e st hk
  | .get e st => keeps_execGet e st hk
  | .stage e st => keeps_execStage e st hk
  | .scrub e st => keeps_execScrub e st hk
  | .rebuild e st => keeps_execRebuild e st hk
  | .reencode e st => keeps_execReencode e st hk
  | .sealSpans e st => keeps_execSealSpans e st hk
  | .verify e st => keeps_execVerify e st hk
  | .release e st => keeps_execRelease e st hk
  | .engineFence e st => keeps_execEngineFence e st hk
  | .descriptorStart e => keeps_execDescriptorStart e hk
  | .stripeStart e => keeps_execStripeStart e hk
  | .stripeCheckDone e slot bad => keeps_execStripeCheckDone e slot bad hk
  | .stagingPoolSpace e => keeps_execStagingPoolSpace e hk
  | .stagingTokenRefill e => keeps_execStagingTokenRefill e hk
  | .interlockEntryFree bank e => keeps_execInterlockEntryFree bank e hk
  | .releaseReadbackDone e slot bad => keeps_execReleaseReadbackDone e slot bad hk
  | .contextLoadDone e c => keeps_execContextLoadDone e c hk
  | .ctxCreate path stall cls sealsReq forceBuf => keeps_execCtxCreate path stall cls sealsReq forceBuf hk
  | .ctxFree path => keeps_execCtxFree path hk
  | .ctxUnfenceFree path => keeps_execCtxUnfenceFree path hk
  | .engineNoProgress e => keeps_execEngineNoProgress e hk
  | .contextSramUe e c => keeps_execContextSramUe e c hk
  | .stagingSramUe e slot span => keeps_execStagingSramUe e slot span hk
  | .engineSramCe e => keeps_execEngineSramCe e hk
  | .contextRecordLanded c => keeps_execContextRecordLanded c hk
  | .signalDetect l => keeps_execSignalDetect l hk
  | .trainingFrame l lane ctl sts => keeps_execTrainingFrame l lane ctl sts hk
  | .trainingTimeout l culprit => keeps_execTrainingTimeout l culprit hk
  | .markerFlit l f => keeps_execMarkerFlit l f hk
  | .flitSlot l => keeps_execFlitSlot l hk
  | .payloadFlit l f => keeps_execPayloadFlit l f hk
  | .nullFlit l f => keeps_execNullFlit l f hk
  | .nakFlit l f => keeps_execNakFlit l f hk
  | .nakRepeatTimeout l => keeps_execNakRepeatTimeout l hk
  | .replayTimeout l => keeps_execReplayTimeout l hk
  | .linkHoldExpiry l => keeps_execLinkHoldExpiry l hk
  | .param l hdr b => keeps_execParam l hdr b hk
  | .paramAck l hdr => keeps_execParamAck l hdr hk
  | .spareReady l hdr lane link spare => keeps_execSpareReady l hdr lane link spare hk
  | .spareSwitchSuperframe l => keeps_execSpareSwitchSuperframe l hk
  | .spareReadyTimeout l => keeps_execSpareReadyTimeout l hk
  | .quietAck l hdr => keeps_execQuietAck l hdr hk
  | .failoverAck l hdr failed => keeps_execFailoverAck l hdr failed hk
  | .retrainReq l hdr => keeps_execRetrainReq l hdr hk
  | .failbackAck l hdr failed => keeps_execFailbackAck l hdr failed hk
  | .linkCtlRepeat l => keeps_execLinkCtlRepeat l hk
  | .serWindow l corrected ucw => keeps_execSerWindow l corrected ucw hk
  | .acceptIdentity path l => keeps_execAcceptIdentity path l hk
  | .linkFailback path l => keeps_execLinkFailback path l hk
  | .failbackSend l => keeps_execFailbackSend l hk
  | .forceRetrain path l => keeps_execForceRetrain path l hk
  | .linkReenable path l => keeps_execLinkReenable path l hk
  | .linkDisable l => keeps_execLinkDisable l hk
  | .portCommandIssue p => keeps_execPortCommandIssue p hk
  | .dlDriveExpiry p tag => keeps_execDlDriveExpiry p tag hk
  | .abortTimeout p tag => keeps_execAbortTimeout p tag hk
  | .statusMsg l p tag code blk span => keeps_execStatusMsg l p tag code blk span hk
  | .sealMsg l p tag blk poison block seals => keeps_execSealMsg l p tag blk poison block seals hk
  | .dataMsg l p tag blk data => keeps_execDataMsg l p tag blk data hk
  | .identData l p tag present serial cap => keeps_execIdentData l p tag present serial cap hk
  | .powerDone l req ok failed => keeps_execPowerDone l req ok failed hk
  | .portChange l p present => keeps_execPortChange l p present hk
  | .bridgeAlert l code value => keeps_execBridgeAlert l code value hk
  | .unknownMessage l ty len => keeps_execUnknownMessage l ty len hk
  | .acceptDrive path p => keeps_execAcceptDrive path p hk
  | .retirePort path p => keeps_execRetirePort path p hk
  | .reenablePort path p => keeps_execReenablePort path p hk
  | .portShelfWrite path p h => keeps_execPortShelfWrite path p h hk
  | .portShelfMove p => keeps_execPortShelfMove p hk
  | .shelfWakeRequest path h => keeps_execShelfWakeRequest path h hk
  | .shelfSleepRequest path h => keeps_execShelfSleepRequest path h hk
  | .shelfWakeAdmit => keeps_execShelfWakeAdmit hk
  | .wakeLimitExpiry h p => keeps_execWakeLimitExpiry h p hk
  | .windowGuardReached h => keeps_execWindowGuardReached h hk
  | .dlWindowExpiry h => keeps_execDlWindowExpiry h hk
  | .powerDoneTimeout h => keeps_execPowerDoneTimeout h hk
  | .windowLenWrite path h v elapsed => keeps_execWindowLenWrite path h v elapsed hk
  | .ringArbitration seg cycle inj => keeps_execRingArbitration seg cycle inj hk
  | .priorityAging seg k => keeps_execPriorityAging seg k hk
  | .headPromotion seg k => keeps_execHeadPromotion seg k hk
  | .flitUeRetry seg => keeps_execFlitUeRetry seg hk
  | .detourInstalled seg => keeps_execDetourInstalled seg hk
  | .ringGroupsApply n => keeps_execRingGroupsApply n hk
  | .ringGroupsWrite path n v => keeps_execRingGroupsWrite path n v hk
  | .segmentFailTest path code => keeps_execSegmentFailTest path code hk
  | .packetToRetiredStop k => keeps_execPacketToRetiredStop k hk
  | .interruptTake c => keeps_execInterruptTake c hk
  | .storeBufferWrite c => keeps_execStoreBufferWrite c hk
  | .prefetchIssue c pa l2 => keeps_execPrefetchIssue c pa l2 hk
  | .coreModeApply c => keeps_execCoreModeApply c hk
  | .coreModeWrite path n v => keeps_execCoreModeWrite path n v hk
  | .walkEnter c => keeps_execWalkEnter c hk
  | .walkExit c => keeps_execWalkExit c hk
  | .nop a => keeps_execNop a hk
  | .wfi a => keeps_execWfi a hk
  | .brk a => keeps_execBrk a hk
  | .svc a v => keeps_execSvc a v hk
  | .eret a => keeps_execEret a hk
  | .fence a => keeps_execFence a hk
  | .fenceSe a => keeps_execFenceSe a hk
  | .isync a => keeps_execIsync a hk
  | .mov a sz d src => keeps_execMov a sz d src hk
  | .sxt a sz d src => keeps_execSxt a sz d src hk
  | .xchg a d src => keeps_execXchg a d src hk
  | .add a sz d src => keeps_execAdd a sz d src hk
  | .sub a sz d src => keeps_execSub a sz d src hk
  | .and a sz d src => keeps_execAnd a sz d src hk
  | .or a sz d src => keeps_execOr a sz d src hk
  | .xor a sz d src => keeps_execXor a sz d src hk
  | .cmp a sz d src => keeps_execCmp a sz d src hk
  | .tst a sz d src => keeps_execTst a sz d src hk
  | .adc a sz d src => keeps_execAdc a sz d src hk
  | .shl a sz d src => keeps_execShl a sz d src hk
  | .shr a sz d src => keeps_execShr a sz d src hk
  | .sar a sz d src => keeps_execSar a sz d src hk
  | .rol a sz d src => keeps_execRol a sz d src hk
  | .mul a sz d src => keeps_execMul a sz d src hk
  | .mulh a sz d src => keeps_execMulh a sz d src hk
  | .div a sz d src => keeps_execDiv a sz d src hk
  | .divu a sz d src => keeps_execDivu a sz d src hk
  | .neg a sz d => keeps_execNeg a sz d hk
  | .not a sz d => keeps_execNot a sz d hk
  | .sbb a sz d src => keeps_execSbb a sz d src hk
  | .lea a d src => keeps_execLea a d src hk
  | .leac a d src => keeps_execLeac a d src hk
  | .push a src => keeps_execPush a src hk
  | .pop a d => keeps_execPop a d hk
  | .bcc a cond hint disp => keeps_execBcc a cond hint disp hk
  | .br a disp => keeps_execBr a disp hk
  | .call a disp => keeps_execCall a disp hk
  | .calli a src => keeps_execCalli a src hk
  | .bri a src => keeps_execBri a src hk
  | .ret a => keeps_execRet a hk
  | .enter a n => keeps_execEnter a n hk
  | .leave a n => keeps_execLeave a n hk
  | .tagr a d src => keeps_execTagr a d src hk
  | .ttest a src t => keeps_execTtest a src t hk
  | .ptrint a d src => keeps_execPtrint a d src hk
  | .mkptr a d src => keeps_execMkptr a d src hk
  | .mkcode a d src => keeps_execMkcode a d src hk
  | .tagset a d t => keeps_execTagset a d t hk
  | .kill a d => keeps_execKill a d hk
  | .mfcr a d n => keeps_execMfcr a d n hk
  | .mtcr a n src => keeps_execMtcr a n src hk
  | .imovf a d src => keeps_execImovf a d src hk
  | .fmovi a d src => keeps_execFmovi a d src hk
  | .mfsw a d => keeps_execMfsw a d hk
  | .mtsw a src => keeps_execMtsw a src hk
  | .fadd a sz d src => keeps_execFadd a sz d src hk
  | .fsub a sz d src => keeps_execFsub a sz d src hk
  | .fmul a sz d src => keeps_execFmul a sz d src hk
  | .fdiv a sz d src => keeps_execFdiv a sz d src hk
  | .fsqrt a sz d src => keeps_execFsqrt a sz d src hk
  | .fma a sz d src t => keeps_execFma a sz d src t hk
  | .fcmp a sz d src => keeps_execFcmp a sz d src hk
  | .fmov a sz d src => keeps_execFmov a sz d src hk
  | .cvtif a d src => keeps_execCvtif a d src hk
  | .cvtfi a d src => keeps_execCvtfi a d src hk
  | .cvtsd a d src => keeps_execCvtsd a d src hk
  | .cvtds a d src => keeps_execCvtds a d src hk
  | .cclean a m => keeps_execCclean a m hk
  | .cclinv a m => keeps_execCclinv a m hk
  | .cdiscard a m => keeps_execCdiscard a m hk
  | .czero a m => keeps_execCzero a m hk
  | .cclear a m => keeps_execCclear a m hk
  | .crangeClean a => keeps_execCrangeClean a hk
  | .crangeCleanInvalidate a => keeps_execCrangeCleanInvalidate a hk
  | .crangeDiscard a => keeps_execCrangeDiscard a hk
  | .tlbiVa a m => keeps_execTlbiVa a m hk
  | .tlbiVaLocal a m => keeps_execTlbiVaLocal a m hk
  | .tlbiAsid a src => keeps_execTlbiAsid a src hk
  | .tlbiAsidLocal a src => keeps_execTlbiAsidLocal a src hk
  | .tlbiStall a => keeps_execTlbiStall a hk
  | .tlbiStallLocal a => keeps_execTlbiStallLocal a hk
  | .tlbiAll a => keeps_execTlbiAll a hk
  | .tlbiAllLocal a => keeps_execTlbiAllLocal a hk
  | .tlbiStalln a src => keeps_execTlbiStalln a src hk
  | .tlbiStallnLocal a src => keeps_execTlbiStallnLocal a src hk
  | .iotlbi a src => keeps_execIotlbi a src hk
  | .iotlbiVa a m src => keeps_execIotlbiVa a m src hk
  | .tlbiComplete c => keeps_execTlbiComplete c hk
  | .bcopy a ctl => keeps_execBcopy a ctl hk
  | .bfill a ctl => keeps_execBfill a ctl hk
  | .bcmp a ctl => keeps_execBcmp a ctl hk
  | .bfind a ctl => keeps_execBfind a ctl hk
  | .vld a d m => keeps_execVld a d m hk
  | .vst a m src => keeps_execVst a m src hk
  | .vgather a d b ix scale => keeps_execVgather a d b ix scale hk
  | .vgatherFf a d b ix scale => keeps_execVgatherFf a d b ix scale hk
  | .vscatter a b ix src scale => keeps_execVscatter a b ix src scale hk
  | .vadd a d src => keeps_execVadd a d src hk
  | .vsub a d src => keeps_execVsub a d src hk
  | .vand a d src => keeps_execVand a d src hk
  | .vor a d src => keeps_execVor a d src hk
  | .vxor a d src => keeps_execVxor a d src hk
  | .vmul a d src => keeps_execVmul a d src hk
  | .vshl a d src => keeps_execVshl a d src hk
  | .vshr a d src => keeps_execVshr a d src hk
  | .vcmpeq a v src k => keeps_execVcmpeq a v src k hk
  | .vcmplt a v src k => keeps_execVcmplt a v src k hk
  | .vcmpltu a v src k => keeps_execVcmpltu a v src k hk
  | .vfadd a d src => keeps_execVfadd a d src hk
  | .vfsub a d src => keeps_execVfsub a d src hk
  | .vfmul a d src => keeps_execVfmul a d src hk
  | .vfma a d v src => keeps_execVfma a d v src hk
  | .vfcmplt a v src k => keeps_execVfcmplt a v src k hk
  | .vgfmul a d src => keeps_execVgfmul a d src hk
  | .vgfmac a d v c => keeps_execVgfmac a d v c hk
  | .vgfinv a d v => keeps_execVgfinv a d v hk
  | .vperm a d v ix => keeps_execVperm a d v ix hk
  | .vbcast a d src => keeps_execVbcast a d src hk
  | .vsetvl a d src => keeps_execVsetvl a d src hk
  | .mtk a k src => keeps_execMtk a k src hk
  | .mfk a d k => keeps_execMfk a d k hk
  | .mtvs a n src => keeps_execMtvs a n src hk
  | .mfvs a d n => keeps_execMfvs a d n hk
  | .xadd a dbl m src => keeps_execXadd a dbl m src hk
  | .xchga a dbl m src => keeps_execXchga a dbl m src hk
  | .cas a dbl m src => keeps_execCas a dbl m src hk
  | .aadd a dbl m src => keeps_execAadd a dbl m src hk
  | .aand a dbl m src => keeps_execAand a dbl m src hk
  | .aor a dbl m src => keeps_execAor a dbl m src hk
  | .axor a dbl m src => keeps_execAxor a dbl m src hk
  | .icAck a d => keeps_execIcAck a d hk
  | .icEoi a src => keeps_execIcEoi a src hk
  | .icSetpend a src => keeps_execIcSetpend a src hk
  | .icModeWrite a src => keeps_execIcModeWrite a src hk
  | .ttbrWrite a src => keeps_execTtbrWrite a src hk
  | .tcrWrite a src => keeps_execTcrWrite a src hk
  | .gaitReqWrite a src => keeps_execGaitReqWrite a src hk
  | .pmstatusWrite a src => keeps_execPmstatusWrite a src hk
  | .sampleInfoWrite a src => keeps_execSampleInfoWrite a src hk
  | .pmfreezeWrite a src => keeps_execPmfreezeWrite a src hk
  | .reinNop r => keeps_execReinNop r hk
  | .reinGeta r => keeps_execReinGeta r hk
  | .reinGetx r => keeps_execReinGetx r hk
  | .reinGety r => keeps_execReinGety r hk
  | .reinPuta r => keeps_execReinPuta r hk
  | .reinPutx r => keeps_execReinPutx r hk
  | .reinPuty r => keeps_execReinPuty r hk
  | .reinGetb r => keeps_execReinGetb r hk
  | .reinPutb r => keeps_execReinPutb r hk
  | .reinGetw r => keeps_execReinGetw r hk
  | .reinPutw r => keeps_execReinPutw r hk
  | .reinAdd r => keeps_execReinAdd r hk
  | .reinSub r => keeps_execReinSub r hk
  | .reinAnd r => keeps_execReinAnd r hk
  | .reinOr r => keeps_execReinOr r hk
  | .reinXor r => keeps_execReinXor r hk
  | .reinCmp r => keeps_execReinCmp r hk
  | .reinShl r => keeps_execReinShl r hk
  | .reinShr r => keeps_execReinShr r hk
  | .reinStepx r => keeps_execReinStepx r hk
  | .reinStepy r => keeps_execReinStepy r hk
  | .reinStepsp r => keeps_execReinStepsp r hk
  | .reinCopy r => keeps_execReinCopy r hk
  | .reinBcc r => keeps_execReinBcc r hk
  | .reinCalld r => keeps_execReinCalld r hk
  | .reinJumpa r => keeps_execReinJumpa r hk
  | .reinRetd r => keeps_execReinRetd r hk
  | .reinMfcr r => keeps_execReinMfcr r hk
  | .reinMtcr r => keeps_execReinMtcr r hk
  | .reinSvc r => keeps_execReinSvc r hk
  | .reinEret r => keeps_execReinEret r hk
  | .reinWfi r => keeps_execReinWfi r hk
  | .reinFence r => keeps_execReinFence r hk
  | .reinBrk r => keeps_execReinBrk r hk
  | .homeLookup sl => keeps_execHomeLookup sl hk
  | .rdShr r => keeps_execRdShr r hk
  | .rdOwn r => keeps_execRdOwn r hk
  | .upgrade r => keeps_execUpgrade r hk
  | .rdNi r => keeps_execRdNi r hk
  | .rdUc r => keeps_execRdUc r hk
  | .wrUc r k mask data tags => keeps_execWrUc r k mask data tags hk
  | .evict r dirty => keeps_execEvict r dirty hk
  | .dmaRd r subs => keeps_execDmaRd r subs hk
  | .dmaWr r k mask data tags => keeps_execDmaWr r k mask data tags hk
  | .spanWr r data tags sealW => keeps_execSpanWr r data tags sealW hk
  | .zero r => keeps_execZero r hk
  | .clear r => keeps_execClear r hk
  | .mClean r => keeps_execMClean r hk
  | .mCleaninv r => keeps_execMCleaninv r hk
  | .mDiscard r => keeps_execMDiscard r hk
  | .atomic r op dbl v cmp => keeps_execAtomic r op dbl v cmp hk
  | .atomicAny r op dbl v cmp => keeps_execAtomicAny r op dbl v cmp hk
  | .snpShr tile pa => keeps_execSnpShr tile pa hk
  | .snpInv tile pa => keeps_execSnpInv tile pa hk
  | .snpClean tile pa => keeps_execSnpClean tile pa hk
  | .gnt stop pa => keeps_execGnt stop pa hk
  | .retry tile pa => keeps_execRetry tile pa hk
  | .wbPull tile pa => keeps_execWbPull tile pa hk
  | .evictAck tile pa => keeps_execEvictAck tile pa hk
  | .done stop pa => keeps_execDone stop pa hk
  | .ack tile pa => keeps_execAck tile pa hk
  | .gone tile pa => keeps_execGone tile pa hk
  | .wbData tile pa => keeps_execWbData tile pa hk
  | .protocolError sl op => keeps_execProtocolError sl op hk
  | .llcWaysWrite path n v => keeps_execLlcWaysWrite path n v hk
  | .wayLockWrite path w v => keeps_execWayLockWrite path w v hk
  | .mcRequest c k pa stall pri src => keeps_execMcRequest c k pa stall pri src hk
  | .dramCommandSlot c aged => keeps_execDramCommandSlot c aged hk
  | .fixedSlot c slot aged => keeps_execFixedSlot c slot aged hk
  | .dramReadDone c data tags seals => keeps_execDramReadDone c data tags seals hk
  | .spprComplete c => keeps_execSpprComplete c hk
  | .bankCloseTimeout c bank => keeps_execBankCloseTimeout c bank hk
  | .refreshDue c rank => keeps_execRefreshDue c rank hk
  | .dlRefreshExpiry c rank => keeps_execDlRefreshExpiry c rank hk
  | .patrolStep c found => keeps_execPatrolStep c found hk
  | .dimmSensorRead k dimm temps => keeps_execDimmSensorRead k dimm temps hk
  | .pmicStatusRead k faults => keeps_execPmicStatusRead k faults hk
  | .rankCopyStep c found => keeps_execRankCopyStep c found hk
  | .channelCopyStep c found => keeps_execChannelCopyStep c found hk
  | .retireChannel path c => keeps_execRetireChannel path c hk
  | .spareRankRequest path c rank => keeps_execSpareRankRequest path c rank hk
  | .memSlotsWrite path n v => keeps_execMemSlotsWrite path n v hk
  | .memSlotsApply n => keeps_execMemSlotsApply n hk
  | .grantWrite path n k v => keeps_execGrantWrite path n k v hk
  | .ioRootWrite path n v => keeps_execIoRootWrite path n v hk
  | .grantWriteComplete n => keeps_execGrantWriteComplete n hk
  | .stallCreate path n => keeps_execStallCreate path n hk
  | .stallTeardown path n => keeps_execStallTeardown path n hk
  | .stallLive n => keeps_execStallLive n hk
  | .teardownProgress n => keeps_execTeardownProgress n hk
  | .coresWrite path n mask => keeps_execCoresWrite path n mask hk
  | .sharedCoresWrite path n mask => keeps_execSharedCoresWrite path n mask hk
  | .vfBindWrite path n v => keeps_execVfBindWrite path n v hk
  | .strictWrite path n b => keeps_execStrictWrite path n b hk
  | .coreRemovalTimeout c => keeps_execCoreRemovalTimeout c hk
  | .sliceEnd c => keeps_execSliceEnd c hk
  | .strictWayCleanDone n => keeps_execStrictWayCleanDone n hk
  | .sourceCoalesceTimeout src => keeps_execSourceCoalesceTimeout src hk
  | .dlCoalesceExpiry src => keeps_execDlCoalesceExpiry src hk
  | .sourceConfigWrite path w => keeps_execSourceConfigWrite path w hk
  | .idleEntryTimeout => keeps_execIdleEntryTimeout hk
  | .sleepEntryTimeout => keeps_execSleepEntryTimeout hk
  | .deepEntryTimeout => keeps_execDeepEntryTimeout hk
  | .quietAckTimeout l => keeps_execQuietAckTimeout l hk
  | .powerRequestWake path => keeps_execPowerRequestWake path hk
  | .powerRequestOff path => keeps_execPowerRequestOff path hk
  | .wakeNFall => keeps_execWakeNFall hk
  | .wakeTimerExpiry => keeps_execWakeTimerExpiry hk
  | .halterAddressMatch addr cmd => keeps_execHalterAddressMatch addr cmd hk
  | .halterHoldTimeout => keeps_execHalterHoldTimeout hk
  | .domainWakeDone d => keeps_execDomainWakeDone d hk
  | .deepExitDone => keeps_execDeepExitDone hk
  | .dlWakeExpiry d => keeps_execDlWakeExpiry d hk
  | .gaitGrantEval => keeps_execGaitGrantEval hk
  | .gaitVoltageRamped c => keeps_execGaitVoltageRamped c hk
  | .powerThermalSample watts temps => keeps_execPowerThermalSample watts temps hk
  | .demotionLift d => keeps_execDemotionLift d hk
  | .droopLevel1 die => keeps_execDroopLevel1 die hk
  | .clockStretchEnd die => keeps_execClockStretchEnd die hk
  | .droopLevel3 => keeps_execDroopLevel3 hk
  | .pwrfailAssert => keeps_execPwrfailAssert hk
  | .flushSetWritten => keeps_execFlushSetWritten hk
  | .dlFlushExpiry => keeps_execDlFlushExpiry hk
  | .pwrfailDeassertStable => keeps_execPwrfailDeassertStable hk
  | .brownOut => keeps_execBrownOut hk
  | .phaseFault r => keeps_execPhaseFault r hk
  | .railOutOfTolerance r => keeps_execRailOutOfTolerance r hk
  | .faultReport r => keeps_execFaultReport r hk
  | .logSave => keeps_execLogSave hk
  | .substituteRequest path k => keeps_execSubstituteRequest path k hk
  | .substitutionStepDone st => keeps_execSubstitutionStepDone st hk
  | .dlSubstExpiry => keeps_execDlSubstExpiry hk
  | .rehomeEntryDone unreadable => keeps_execRehomeEntryDone unreadable hk
  | .repairQueueAdvance action => keeps_execRepairQueueAdvance action hk
  | .groomMiscompare g => keeps_execGroomMiscompare g hk
  | .dlGroomExpiry => keeps_execDlGroomExpiry hk
  | .stbWdogWrite => keeps_execStbWdogWrite hk
  | .groomRetest g pass => keeps_execGroomRetest g pass hk
  | .standbySelftest pass => keeps_execStandbySelftest pass hk
  | .walkRecoveryStart path => keeps_execWalkRecoveryStart path hk
  | .walkRecoveryEnd path => keeps_execWalkRecoveryEnd path hk
  | .walkRecoveryTimeout => keeps_execWalkRecoveryTimeout hk
  | .canSegment id data brs => keeps_execCanSegment id data brs hk
  | .segmentTimeout src tid => keeps_execSegmentTimeout src tid hk
  | .canBusOff => keeps_execCanBusOff hk
  | .wealarRead h idx sub => keeps_execWealarRead h idx sub hk
  | .wealarWrite h idx sub data => keeps_execWealarWrite h idx sub data hk
  | .wealarIdentify h => keeps_execWealarIdentify h hk
  | .wealarWake h => keeps_execWealarWake h hk
  | .wealarAbort h tid => keeps_execWealarAbort h tid hk
  | .heartbeat => keeps_execHeartbeat hk
  | .halterBlockWrite svc tid body pecOk => keeps_execHalterBlockWrite svc tid body pecOk hk
  | .halterBlockRead => keeps_execHalterBlockRead hk
  | .halterReadByte => keeps_execHalterReadByte hk
  | .saddlebagStore => keeps_execSaddlebagStore hk
  | .restoreCancel path => keeps_execRestoreCancel path hk
  | .restoreConfig path => keeps_execRestoreConfig path hk
  | .restoreAll path => keeps_execRestoreAll path hk
  | .stbResetEnd patchOff sbDefault mfg => keeps_execStbResetEnd patchOff sbDefault mfg hk
  | .romSelftestPass g => keeps_execRomSelftestPass g hk
  | .loadDone patch => keeps_execLoadDone patch hk
  | .railsStable => keeps_execRailsStable hk
  | .railsTimeout => keeps_execRailsTimeout hk
  | .calibrationDone failed => keeps_execCalibrationDone failed hk
  | .mapsDone failedTiles => keeps_execMapsDone failedTiles hk
  | .coldSoakAdjust temps => keeps_execColdSoakAdjust temps hk
  | .soakLimitExpiry => keeps_execSoakLimitExpiry hk
  | .dramTrainingDone spd failed failedRanks => keeps_execDramTrainingDone spd failed failedRanks hk
  | .tackZeroDone => keeps_execTackZeroDone hk
  | .unitsReady ms => keeps_execUnitsReady ms hk
  | .counterOverflow block counter pc => keeps_execCounterOverflow block counter pc hk
  | .freezeWrite path b => keeps_execFreezeWrite path b hk
  | .counterStatusWrite path block mask => keeps_execCounterStatusWrite path block mask hk
  | .tapOpenWrite path b => keeps_execTapOpenWrite path b hk
  | .idcode => keeps_execIdcode hk
  | .samplePreload shift => keeps_execSamplePreload shift hk
  | .extest shift => keeps_execExtest shift hk
  | .clamp => keeps_execClamp hk
  | .highz => keeps_execHighz hk
  | .dbgStatus => keeps_execDbgStatus hk
  | .dbgOd d => keeps_execDbgOd d hk
  | .dbgCoreHalt k => keeps_execDbgCoreHalt k hk
  | .dbgCoreSingleStep k => keeps_execDbgCoreSingleStep k hk
  | .dbgCoreResume k => keeps_execDbgCoreResume k hk
  | .dbgCoreReadRegister k r => keeps_execDbgCoreReadRegister k r hk
  | .dbgCoreWriteRegister k r v => keeps_execDbgCoreWriteRegister k r v hk
  | .bypass => keeps_execBypass hk
  | .testHoldEnd => keeps_execTestHoldEnd hk
  | .receiveLockLoss l => keeps_execReceiveLockLoss l hk
  | .hostLinkDown l => keeps_execHostLinkDown l hk
  | .romSelftestFail g => keeps_execRomSelftestFail g hk
  | .fatalStateReset => keeps_execFatalStateReset hk
  | .memoryFill pa => keeps_execMemoryFill pa hk
/-! ## A step -/

theorem step_cons (c : Instr) (s : State) (rest : List Instr) : step { s with pending := c :: rest } = exec c { s with pending := rest } := rfl

theorem step_idle {s : State} (idle : s.pending = []) : step s = .next s := by
  simp only [step, idle]

theorem step_front {c : Instr} {s : State} {rest : List Instr} (front : s.pending = c :: rest) :
    step s = exec c { s with pending := rest } := by
  simp only [step, front]

/-- The invariant does not speak of the queue. -/
theorem sound_pending (s : State) (q : List Instr) : Sound { s with pending := q } ↔ Sound s := Iff.rfl

/-- Settles O44: both clauses are the equations of a step. -/
theorem stepRunsTheFrontCommand : Obligations.StepRunsTheFrontCommand := ⟨step_cons, fun _ idle => step_idle idle⟩

/-- Settles O45: every command's meaning answers a next state with the same queue. -/
theorem everyCommandCompletes : Obligations.EveryCommandCompletes := by
  intro c s
  obtain ⟨t, answers, queue, -⟩ := exec_goes (keeps_refl s) c
  exact ⟨t, answers, queue⟩

/-- Settles O46: an idle step changes nothing, and the front command keeps the invariant whatever the queue's rest is. -/
theorem stepsKeepTheInvariant : Obligations.StepsKeepTheInvariant := by
  intro s t sound stepped
  cases front : s.pending with
  | nil =>
    rw [step_idle front] at stepped
    cases stepped
    exact sound
  | cons c rest =>
    rw [step_front front] at stepped
    obtain ⟨u, answers, -, keeps⟩ := exec_goes (keeps_refl { s with pending := rest }) c
    rw [answers] at stepped
    cases stepped
    exact keeps ((sound_pending s rest).2 sound)

end Sys2Proof.Proofs
end

section
/-! SUPPORT. The object dictionary (R465–R467, R480–R487, R494): what a write answers when one of its checks fails, what a path holds for itself,
and the settling of the obligations on both. -/

namespace Sys2Proof.Proofs

open Sys2Proof Sys2Proof.Machine

/-! ## A write through a path (R466) -/

section
variable {p : Path} {i sub : Nat} {data : List Byte} {s : State}

/-- A write that a check refuses changes nothing but its answer. -/
theorem odWrite_refused {r : Res} (behave : State → State) (serves : groomServes s = true) (refused : checkWrite s p i sub data = r)
    (bad : r ≠ .ok) : odWrite p i sub data behave s = setAnswer p r s := by
  cases r with
  | ok => exact absurd rfl bad
  | _ => simp only [odWrite, serves, refused, Bool.not_true, Bool.false_eq_true, if_false]

/-- A write that passes its checks once the device is READY has its entry's behaviour. -/
theorem odWrite_accepted (behave : State → State) (serves : groomServes s = true) (accepted : checkWrite s p i sub data = .ok)
    (ready : s.boot.ready = true) : odWrite p i sub data behave s = setAnswer p .ok (behave s) := by
  simp only [odWrite, serves, accepted, ready, Bool.not_true, Bool.false_and, Bool.false_eq_true, if_false]

end

theorem execDictWrite_refused {p : Path} {idx : BitVec 16} {sub : BitVec 8} {data : List Byte} {s : State} {r : Res}
    (serves : groomServes s = true) (refused : checkWrite s p idx.toNat sub.toNat data = r) (bad : r ≠ .ok) :
    exec (.dictWrite p idx sub data) s = .next (setAnswer p r s) := congrArg Host.Outcome.next (odWrite_refused _ serves refused bad)

/-- Only a VF's path is of class T. -/
theorem pathClass_t {p : Path} (tenant : pathClass p = .t) : ∃ h fn, p = .vf h fn := by
  cases p with
  | vf h fn => exact ⟨h, fn, rfl⟩
  | _ => cases tenant

/-- A path has a stall where it needs one: only a VF without a stall has not. -/
def PathStands (s : State) (p : Path) : Prop := pathClass p = .t → pathStall s p ≠ none

section
variable {p : Path} {i sub : Nat} {data : List Byte} {e : OdEntry} {s : State}

theorem checkWrite_noStall (tenant : pathClass p = .t) (unbound : pathStall s p = none) : checkWrite s p i sub data = .noAccess := by
  obtain ⟨h, fn, rfl⟩ := pathClass_t tenant
  simp only [checkWrite, unbound]

/-- The checks of R466 that follow the entry's, in their order. -/
def entryCheck (s : State) (p : Path) (i sub : Nat) (data : List Byte) (e : OdEntry) : Res :=
  let v := natOfBytes data
  if !hasRight s p true i sub e || selectionDenied s p i sub v || fencedPath s p || tapDenied s i sub v then .noAccess
  else if !s.boot.ready && !earlyWrite i sub && !e.bag then .noAccess
  else if !lengthOk e data.length then .badLength
  else if !inRange e v || badField p i sub v then .badValue
  else if pathClass p = .s ∧ (guardStalls s p i sub v).any (liveDataPath s) then .livePath
  else .ok

theorem checkWrite_entry (stands : PathStands s p) (entry : odLookup i sub = some e) :
    checkWrite s p i sub data = entryCheck s p i sub data e := by
  cases p with
  | vf h fn =>
    obtain ⟨n, bound⟩ := Option.ne_none_iff_exists'.mp (stands rfl)
    simp only [checkWrite, bound, entry]
    rfl
  | _ =>
    simp only [checkWrite, entry]
    rfl

theorem checkWrite_noEntry (stands : PathStands s p) (missing : odLookup i sub = none) : checkWrite s p i sub data = .noEntry := by
  cases p with
  | vf h fn =>
    obtain ⟨n, bound⟩ := Option.ne_none_iff_exists'.mp (stands rfl)
    simp only [checkWrite, bound, missing]
  | _ => simp only [checkWrite, missing]

theorem entryCheck_noRight (barred : hasRight s p true i sub e = false) : entryCheck s p i sub data e = .noAccess := by
  simp only [entryCheck, barred, Bool.not_false, Bool.true_or, if_true]

section
variable (permitted : hasRight s p true i sub e = true) (selects : selectionDenied s p i sub (natOfBytes data) = false)
  (unfenced : fencedPath s p = false) (tap : tapDenied s i sub (natOfBytes data) = false) (ready : s.boot.ready = true)
include permitted selects unfenced tap ready

theorem entryCheck_badLength (length : lengthOk e data.length = false) : entryCheck s p i sub data e = .badLength := by
  simp [entryCheck, permitted, selects, unfenced, tap, ready, length]

theorem entryCheck_badValue (length : lengthOk e data.length = true) (outside : inRange e (natOfBytes data) = false) :
    entryCheck s p i sub data e = .badValue := by
  simp [entryCheck, permitted, selects, unfenced, tap, ready, length, outside]

end
end

/-- Settles O59: each failed check gives the answer of its place in the order, and a refused write changes nothing else. -/
theorem accessChecksInOrder : Obligations.AccessChecksInOrder := by
  intro p idx sub data s serves fails
  refine ⟨fun tenant unbound => execDictWrite_refused serves (checkWrite_noStall tenant unbound) nofun,
    fun stands => ⟨fun missing => execDictWrite_refused serves (checkWrite_noEntry stands missing) nofun, fun e entry => ?_⟩⟩
  have refuses : ∀ {r : Res}, entryCheck s p idx.toNat sub.toNat data e = r → r ≠ .ok → fails r :=
    fun refused => execDictWrite_refused serves ((checkWrite_entry stands entry).trans refused)
  exact ⟨fun barred => refuses (entryCheck_noRight barred) nofun, fun permitted selects unfenced tap ready =>
    ⟨fun length => refuses (entryCheck_badLength permitted selects unfenced tap ready length) nofun,
      fun length outside => refuses (entryCheck_badValue permitted selects unfenced tap ready length outside) nofun⟩⟩

/-! ## Tenants (R481) -/

/-- Class T reaches no entry of another stall. -/
theorem tenantReach_otherStall {n m : Nat} (other : m ≠ n) (inside : m ≤ 256) (p : Path) (sub : Nat) (s : State) :
    tenantReach s n p (0x4100 + m) sub = false := by
  have ports : ¬(0x6400 ≤ 0x4100 + m ∧ 0x4100 + m ≤ 0x67FF) := by omega
  have apart : ∀ k, k < 0x4100 ∨ 0x4200 < k → ¬0x4100 + m = k := by omega
  simp [tenantReach, other, ports, apart]

theorem hasRight_otherStall {h : HPort} {fn : FnId} {n m : Nat} {s : State} (bound : vfStall s h.val fn.val = some n) (other : m ≠ n)
    (inside : m ≤ 256) (sub : Nat) (e : OdEntry) : hasRight s (.vf h fn) true (0x4100 + m) sub e = false := by
  unfold hasRight
  split
  · rfl
  · simp only [pathStall, bound, tenantReach_otherStall other inside, Bool.and_false]

/-- Settles O58: an entry of another stall is none, or lies beyond the reach of class T. -/
theorem tenantsCannotWriteOtherStalls : Obligations.TenantsCannotWriteOtherStalls := by
  intro h fn n m sub data s bound other inside serves
  have stands : PathStands s (.vf h fn) := fun _ unbound => nomatch bound.symm.trans unbound
  have idx : (BitVec.ofNat 16 (0x4100 + m)).toNat = 0x4100 + m := Nat.mod_eq_of_lt (by omega)
  cases entry : odLookup (0x4100 + m) sub.toNat with
  | none =>
    exact ⟨.noEntry, by simp, execDictWrite_refused serves (by rw [idx]; exact checkWrite_noEntry stands entry) nofun⟩
  | some e =>
    have barred := entryCheck_noRight (data := data) (hasRight_otherStall bound other inside sub.toNat e)
    exact ⟨.noAccess, by simp, execDictWrite_refused serves (by rw [idx]; exact (checkWrite_entry stands entry).trans barred) nofun⟩

/-! ## Writes, slots, the saddlebag and RESTORE (R465–R467, R494) -/

/-- Settles O39: an accepted write has its entry's behaviour, and a slot performs what `serializerSlot` takes. -/
theorem dictionaryCompletes : Obligations.DictionaryCompletes := by
  refine ⟨?write, ?slot, ?saddlebag, ?restore⟩
  case write =>
    exact fun path idx sub data s serves accepted ready => congrArg Host.Outcome.next (odWrite_accepted _ serves accepted ready)
  case slot => exact fun s serves => congrArg Host.Outcome.next (if_pos serves)
  case saddlebag => exact fun s => ⟨storeBag s, rfl, rfl, rfl, rfl⟩
  case restore =>
    simp only [List.forall_mem_cons]
    exact ⟨fun path s permits => permittedWrite_answersOk permits rfl, fun path s permits => permittedWrite_answersOk permits rfl,
      fun path s permits => permittedWrite_answersOk permits rfl, List.forall_mem_nil _⟩

/-! ## Selections and results of a path (R487) -/

theorem pathNum_injective {p q : Path} (same : pathNum p = pathNum q) : p = q := by
  cases p <;> cases q <;> simp only [pathNum, Path.pf.injEq, Path.vf.injEq, Fin.ext_iff] at same ⊢ <;> omega

theorem pathKey_inj {p q : Path} {i j m n : Nat} (hi : i < 65536) (hm : m < 65536) (hj : j < 256) (hn : n < 256) :
    pathKey p i j = pathKey q m n ↔ p = q ∧ i = m ∧ j = n := by
  constructor
  · intro same
    unfold pathKey odKey at same
    exact ⟨pathNum_injective (by omega), by omega, by omega⟩
  · rintro ⟨rfl, rfl, rfl⟩
    rfl

/-- A path's own entry reads what that path last wrote; every other entry and every other path's reads as before. -/
theorem pathGet_written {p q : Path} {i j m n : Nat} (hi : i < 65536) (hm : m < 65536) (hj : j < 256) (hn : n < 256) (v : Nat) (s : State) :
    pathGet (pathSet p i j v s) q m n = if p = q ∧ i = m ∧ j = n then v else pathGet s q m n := by
  rw [pathGet_pathSet]
  simp only [eq_comm (a := pathKey q m n), pathKey_inj hi hm hj hn]

/-! ### The end of a VF's drain (R386) -/

@[simp] theorem besideSignals_cfgBit (k off i : Nat) (b : Bool) (s : State) : besideSignals (cfgBit k off i b s) = besideSignals s := rfl

@[simp] theorem besideSignals_mapFnAt (k : Nat) (f : HFn → HFn) (s : State) : besideSignals (mapFnAt k f s) = besideSignals s := rfl

@[simp] theorem besideSignals_applyLatched (l fn : Nat) (x : Latched) (s : State) :
    besideSignals (applyLatched l fn x s) = besideSignals s := by
  simp [applyLatched, apply_ite besideSignals]

@[simp] theorem besideSignals_applyVfEnable (l : Nat) (s : State) : besideSignals (applyVfEnable l s) = besideSignals s := by
  simp [applyVfEnable, apply_ite besideSignals]

@[simp] theorem besideSignals_resendSources (p fn : Nat) (s : State) : besideSignals (resendSources p fn s) = besideSignals s := by
  refine besideSignals_foldl (fun t n => ?_) _ s
  cases srcHost t n with
  | none => rfl
  | some x => simp [apply_ite besideSignals]

theorem pathGet_of_besideSignals {s t : State} (same : besideSignals t = besideSignals s) (p : Path) (i j : Nat) :
    pathGet t p i j = pathGet s p i j := by
  have tables : (besideSignals t).perPath = (besideSignals s).perPath := congrArg State.perPath same
  exact congrArg (fun table => Tbl.get table (pathKey p i j) 0) tables

/-- What a drain's end does once the selections are cleared: what was latched, signalled and held back takes effect. -/
theorem besideSignals_afterClear (l fn k : Nat) (x : Latched) (later : Bool) (g : HFn → HFn) (u : State) :
    let t := resendSources (l / 2) fn (applyLatched l fn x u)
    besideSignals (applyVfEnable l (if later then mapFnAt k g t else t)) = besideSignals u := by
  simp [apply_ite besideSignals]

/-- At a drain's end every path's entries are what the clearing of the selections leaves. -/
theorem pathGet_endDrain {l fn : Nat} {s : State} (drains : (s.fnAt (linkFnKey l fn)).drain.isSome = true) (p : Path) (i j : Nat) :
    ∃ u, pathGet (endDrain l fn s) p i j = pathGet (clearSelections (l / 2) fn u) p i j := by
  obtain ⟨kind, draining⟩ := Option.isSome_iff_exists.mp drains
  unfold endDrain
  simp only [draining]
  exact ⟨_, pathGet_of_besideSignals (besideSignals_afterClear l fn _ _ _ _ _) p i j⟩

/-- A VF's selections are 0 once they are cleared. -/
theorem pathGet_clearSelections {p : HPort} {fn : FnId} (vf : fn.val ≠ 0) {i j : Nat} (selection : isSelection i j = true) (s : State) :
    pathGet (clearSelections p.val fn.val s) (.vf p fn) i j = 0 := by
  have inside : p.val < 2 ∧ fn.val < 257 ∧ fn.val ≠ 0 := ⟨p.isLt, fn.isLt, vf⟩
  simp only [isSelection, Bool.or_eq_true, decide_eq_true_eq] at selection
  unfold clearSelections
  rw [dif_pos inside]
  obtain ((⟨rfl, rfl⟩ | ⟨rfl, rfl⟩) | ⟨rfl, rfl⟩) | ⟨rfl, rfl⟩ := selection <;> simp [pathGet_written]

/-- Settles O57: keys of different paths and entries differ, bring-up starts with an empty table, and a drain's end clears the selections. -/
theorem entriesOfAPath : Obligations.EntriesOfAPath := by
  refine ⟨?law, ?bringUp, ?drain⟩
  case law => exact fun p q i j m n v s hi hm hj hn => pathGet_written hi hm hj hn v s
  case bringUp => exact fun flags i j p s => ⟨rfl, rfl⟩
  case drain =>
    intro p fn l i j s _ port vf drains selection
    obtain ⟨u, cleared⟩ := pathGet_endDrain drains (.vf p fn) i j
    rw [cleared, port]
    exact pathGet_clearSelections vf selection u

end Sys2Proof.Proofs
end

section
/-! SUPPORT. Power and supply (R410–R412, R424–R428, R538): the load that DEEP puts on the stable regulator and what it refuses; gaits,
demotions, droops and supply failures; and the settling of the obligations on both. -/

namespace Sys2Proof.Proofs

open Sys2Proof Sys2Proof.Machine

/-! ## The stable regulator in DEEP (R412, R415) -/

/-- Adding to a counter leaves every other entry. -/
theorem odGet_odBump_ne {i sub m n : Nat} (apart : odKey m n ≠ odKey i sub) (s : State) : odGet (odBump i sub s) m n = odGet s m n := by
  rw [odBump, odGet_odSet, if_neg apart]

theorem deepLoad_odBump {i sub : Nat} (apart : odKey 0x2000 0x0A ≠ odKey i sub) (s : State) : deepLoad (odBump i sub s) = deepLoad s := by
  simp only [deepLoad, odGet_odBump_ne apart]

/-- An entry is refused where one of its checks fails. -/
theorem refuser_isSome {s : State} {x : PowerState} {c : Nat × Bool} (listed : c ∈ entryChecks s x) (fails : c.2 = false) :
    (refuser s x).isSome = true := by
  simp only [refuser, Option.isSome_map, List.find?_isSome]
  exact ⟨c, listed, by simp [fails]⟩

/-- More than 22.0 mA fails the eighth check of DEEP. -/
theorem refuser_deepLoad {s : State} (exceeds : 220 < deepLoad s) : (refuser s .deep).isSome = true :=
  refuser_isSome (c := (8, decide (deepLoad s ≤ 220))) (by simp [entryChecks]) (decide_eq_false (Nat.not_le.mpr exceeds))

/-- A refused attempt leaves power and memory as they were. -/
theorem attemptEntry_refused {x : PowerState} {s : State} (refused : (refuser (odBump (0x2010 + x.code) 0x01 s) x).isSome = true)
    (enter : State → State) : (attemptEntry x enter s).pwr = s.pwr ∧ (attemptEntry x enter s).mem = s.mem := by
  obtain ⟨c, refuses⟩ := Option.isSome_iff_exists.mp refused
  simp only [attemptEntry, refuses]
  exact ⟨rfl, rfl⟩

/-! ## Gaits and demotions (R424–R427) -/

/-- A demotion other than the power cap's is lifted from all its cores, once it is the newest whose cause is absent. -/
theorem liftDemotion_newest {d : Demotion} {s : State} (newest : s.pwr.demotions.find? (fun x => !causePresent s x) = some d)
    (other : d ≠ .powerCap) : liftDemotion d s =
      gaitEval { s with pwr := { s.pwr with demotions := s.pwr.demotions.filter (fun x => decide (x ≠ d)) } } := by
  cases d with
  | powerCap => exact absurd rfl other
  | _ => simp [liftDemotion, newest]

/-- Up to twenty droops in a millisecond are counted and stretch the die's clocks. -/
theorem execDroopLevel1_within {die : Fin 2} {s : State} :
    let n := Tbl.get s.pwr.droopCount die.val 0 + 1
    n ≤ 20 → execDroopLevel1 die s = .next (odBump 0x2000 0x13 { s with pwr := { s.pwr with
      stretch := s.pwr.stretch ||| ((1 : BitVec 2) <<< die.val), droopCount := s.pwr.droopCount.set die.val n } }) :=
  fun within => congrArg Host.Outcome.next (if_neg (Nat.not_lt.mpr within))

/-! ## The supply (R410, R411, R428, R538) -/

/-- PWRFAIL_N is acted on unless the device is off, or in DEEP and not on its way out. -/
theorem execPwrfailAssert_on {s : State} (on : s.pwr.state ≠ .off) (awake : ¬(s.pwr.state = .deep ∧ s.pwr.deepExit = none)) :
    execPwrfailAssert s = .next (powerFails (odBump 0x2000 0x15 s)) :=
  if_neg (not_or.mpr ⟨on, by simpa only [Option.isNone_iff_eq_none] using awake⟩)

/-- A regulator's first lost phase is shed, with a record. -/
theorem shedPhase_first {r : Regulator} {s : State} (first : s.pwr.lost.contains r = false) :
    shedPhase r s = shedEffect r false (repairNow { kind := 0x09, cls := 0, resource := regResource r, action := 0x0D }
      { s with pwr := { s.pwr with lost := r :: s.pwr.lost } }) := by
  simp only [shedPhase, first, Bool.false_eq_true, if_false]

/-- A rail other than VCC_IN that leaves its tolerance outside DEEP and OFF is recorded and handled as a power failure. -/
theorem execRailOutOfTolerance_on {r : Rail} {s : State} (other : r ≠ .vccIn) (on : s.pwr.state ∉ [PowerState.deep, .off]) :
    execRailOutOfTolerance r s = .next (powerFails (record { kind := 0x0D, cls := 0 } s)) := by
  simp only [List.mem_cons, List.not_mem_nil, or_false, not_or] at on
  exact if_neg (not_or.mpr ⟨other, not_or.mpr on⟩)

/-! ## The obligations -/

/-- Settles O35: each evaluation, demotion, droop and failure, by the lemma above for the conditions that its clause states. -/
theorem supplyAndGaitsComplete : Obligations.SupplyAndGaitsComplete := by
  refine ⟨?evaluation, ?ramp, ?sample, ?lift, ?droop, ?failure, ?flush, ?restored, ?phase, ?rail⟩
  case evaluation => exact fun s => rfl
  case ramp => exact fun c s rises => congrArg Host.Outcome.next (if_pos rises)
  case sample => exact fun w temps s measured => congrArg Host.Outcome.next (if_pos measured)
  case lift => exact fun d s newest other => congrArg Host.Outcome.next (liftDemotion_newest newest other)
  case droop => exact fun die s => ⟨execDroopLevel1_within, rfl⟩
  case failure => exact fun s => ⟨rfl, fun on awake => execPwrfailAssert_on on awake, rfl⟩
  case flush => exact fun s flushing => ⟨if_pos flushing, if_pos flushing⟩
  case restored => exact fun s failed => if_pos failed
  case phase => exact fun r s first => congrArg Host.Outcome.next (shedPhase_first first)
  case rail => exact fun r s other on => execRailOutOfTolerance_on other on

/-- Settles O56: DEEP_STB_LOAD chooses the loads, OD 0x2000.0B reports the sum, and a sum above 22.0 mA refuses the attempt. -/
theorem stableBudget : Obligations.StableBudget := by
  refine ⟨fun s => rfl, fun p s => rfl, fun s sleeps exceeds => ?_⟩
  obtain ⟨pwr, mem⟩ := attemptEntry_refused (x := .deep) (s := s)
    (refuser_deepLoad (by rw [deepLoad_odBump (by decide)]; exact exceeds)) finishDeep
  by_cases attempts : s.pwr.state = .sleep ∧ entryPermitted s .deep = true
  · exact ⟨attemptEntry .deep finishDeep s, if_pos attempts, by rw [pwr, sleeps], mem⟩
  · exact ⟨s, if_neg attempts, sleeps, rfl⟩

end Sys2Proof.Proofs
end

section
/-! SUPPORT. The life of a stall (R347–R354): creation, start, teardown, cores and slices, and the settling of the obligation on it. -/

namespace Sys2Proof.Proofs

open Sys2Proof Sys2Proof.Machine

/-! ## Creation and teardown (R347, R348, R351) -/

section
variable {n : Nat} {s : State}

/-- A FREE tenant whose entries pass the checks of R348 is created. -/
theorem createStall_free (path : Path) (tenant : n ≠ 0) (free : (s.stall n).state = .free) (allowed : createStallDenied s n = false) :
    createStall path n s = stallResult path n resOk (beginStall n s) := by
  simp only [createStall, if_neg tenant, free, allowed, Bool.false_eq_true, if_false]

/-- A tenant that is LIVE or FENCED is torn down. -/
theorem teardownStall_begins (path : Path) (tenant : n ≠ 0) (ends : (s.stall n).state = .live ∨ (s.stall n).state = .fenced) :
    teardownStall path n s = stallResult path n resOk (beginTeardown n s) := by
  obtain live | fenced := ends
  · simp only [teardownStall, if_neg tenant, live]
  · simp only [teardownStall, if_neg tenant, fenced]

section
variable (ending : (s.stall n).state = .teardown) (unbound : stallVf s n = none)
include ending unbound

/-- Step 1 of a teardown ends with the last context, and without a VF nothing has to drain. -/
theorem teardownStep_contexts (first : (s.stall n).step = 1) (freed : stallCtxs s n = []) :
    teardownStep n s = s.setStall n { s.stall n with step := 2 } := by
  simp only [teardownStep, ending, first, freed, unbound, not_true, List.isEmpty_nil, Bool.not_true, Bool.false_eq_true, if_false, ne_eq]

/-- Step 2 ends once every access already translated has been performed. -/
theorem teardownStep_performed {t : State} (second : (s.stall n).step = 2) (performed : performTranslated s = some t) :
    teardownStep n s = endTeardown n t := by
  simp only [teardownStep, ending, second, unbound, performed, Option.elim, not_true, if_false, ne_eq]

end
end

/-! ## Cores and slices (R350, R354, R445) -/

/-- The cores of a FREE tenant, none of them offline, are stored. -/
theorem writeCores_free {path : Path} {n v : Nat} {s : State} (shared : Bool) (tenant : n ≠ 0) (free : (s.stall n).state = .free)
    (online : v &&& s.far.offline.toNat = 0) :
    writeCores path n shared v s = storeStall path n (if shared then 0x07 else 0x06) v s := by
  simp only [writeCores, unlessEnding_free free, online, free, tenant, ne_eq, not_true_eq_false, not_false_eq_true, and_self, if_true, if_false]

/-- A core that has not executed WFI in time leaves the stall that gave it up, with a record. -/
theorem execCoreRemovalTimeout_leaving {c : CoreId} {n : Nat} {s : State} (gone : (s.stalls.map (·.1)).find?
      (fun n => (s.stall n).leaving.getLsbD c.val || (s.stall n).leavingShared.getLsbD c.val) = some n) :
    execCoreRemovalTimeout c s =
      .next (record { kind := 0x03, cls := 0, resource := resource 13 c.val, stall := n, detail := c.val } (leaveCore n c.val s)) := by
  simp only [execCoreRemovalTimeout, gone]

/-- A shared core goes to the next stall of its rotation once its retired stores are written. -/
theorem sliceEnd_next {k n : Nat} {s t : State} (runs : (s.core k).halted = false) (online : s.far.offline.getLsbD k = false)
    (next : (rotation s k).find? (fun m => decide ((s.core k).stall < m)) = some n) (drained : drainStores k s = some t) :
    sliceEnd k s = evalStalls (switchStall k n t) := by
  have later : (s.core k).stall < n := of_decide_eq_true (List.find?_some (p := fun m => decide ((s.core k).stall < m)) next)
  have moves : ¬(n = (s.core k).stall ∧ (s.core k).started = true) := fun same => by omega
  simp only [sliceEnd, runs, online, next, drained, if_neg moves, Option.elim, Bool.false_eq_true, or_self, if_false]

/-! ## The obligation -/

/-- Settles O37: each request, step and switch, by the lemma above for the conditions of its clause. -/
theorem stallLifeCompletes : Obligations.StallLifeCompletes := by
  refine ⟨?requests, ?live, ?teardown, ?cores, ?removal, ?slice⟩
  case requests =>
    exact fun path n s tenant =>
      ⟨fun permits free allowed => permittedWrite_answersOk permits (createStall_free path tenant free allowed),
        fun permits ends => permittedWrite_answersOk permits (teardownStall_begins path tenant ends)⟩
  case live => exact fun n s tenant creating dispatched => if_pos ⟨tenant, creating, dispatched⟩
  case teardown =>
    exact fun n s ending =>
      ⟨fun first freed unbound => congrArg Host.Outcome.next (teardownStep_contexts ending unbound first freed),
        fun t second unbound performed => congrArg Host.Outcome.next (teardownStep_performed ending unbound second performed)⟩
  case cores =>
    exact fun path n mask s tenant free online =>
      ⟨fun permits => permittedWrite_answersOk permits (writeCores_free false tenant free online),
        fun permits => permittedWrite_answersOk permits (writeCores_free true tenant free online)⟩
  case removal => exact fun c n s gone => execCoreRemovalTimeout_leaving gone
  case slice =>
    exact fun c n s s1 own online drained runs next =>
      (if_neg (not_not_intro own)).trans (congrArg Host.Outcome.next (sliceEnd_next runs online next drained))

end Sys2Proof.Proofs
end

section
/-! SUPPORT. Queue pairs, doorbells, fetching and mailboxes (R370–R377, R391): what each command comes to under the conditions of its clause, and
the settling of the obligation on them. -/

namespace Sys2Proof.Proofs

open Sys2Proof Sys2Proof.Machine

/-! ## Doorbells (R370, R374) -/

/-- The doorbell of an open queue pair is counted, and acts. -/
theorem doorbell_open {p fn q : Nat} {s : State} (opened : QpOpen p fn q s) (act : Nat → State → State) :
    doorbell p fn q act s = act (qpKey p fn q) (countLink (fnLink s p fn) 3 1 s) := by
  obtain ⟨answers, ready, unfenced, enabled, stays⟩ := opened
  simp only [doorbell, answers, ready, unfenced, enabled, stays, Bool.not_true, Bool.or_false, Bool.false_eq_true, if_false]

/-- An allowed access to BAR0 that reaches its function takes effect in the state of its arrival. -/
theorem barWrite_reaches {acc : BarAcc} {l : Nat} {s : State} (allowed : barOk acc = true) (reaches : Reaches l s) (p fn : Nat) (held : HostTlp)
    (act : State → State) : barWrite p fn acc (arrive l held act) s = act (arrived l s) :=
  (barAccess_ok allowed _ _ _ _ _).trans (arrive_reaches reaches held act)

section
variable {k : Nat} {s : State}

theorem setSqTail_inRange {v : BitVec 32} (inside : natField v.toNat 0 16 < 2 ^ (s.qp k).sqLog2.toNat) :
    setSqTail v k s = s.setQp k { s.qp k with sqTail := v.truncate 16 } := if_neg (Nat.not_le.mpr inside)

/-- A CQ head within the depth that does not pass CQ_TAIL frees the slots up to it. -/
theorem setCqHead_inRange {v : BitVec 32} :
    let depth := 2 ^ (s.qp k).cqLog2.toNat
    let h := natField v.toNat 0 16
    let used := (h + depth - (s.qp k).cqHead.toNat) % depth
    h < depth → used ≤ (s.qp k).held →
      setCqHead v k s = s.setQp k { s.qp k with cqHead := BitVec.ofNat 16 h, held := (s.qp k).held - used } :=
  fun inside consumed => if_neg (not_or.mpr ⟨Nat.not_le.mpr inside, Nat.not_lt.mpr consumed⟩)

end

/-- The state in which the doorbell of an open queue pair takes effect. -/
def doorbellState (p : HPort) (fn : FnId) (s : State) : State :=
  let s1 := arrived (fnLink s p.val fn.val) s
  countLink (fnLink s1 p.val fn.val) 3 1 s1

section
variable {p : HPort} {fn : FnId} {q : QueueId} {acc : BarAcc} {s : State} (v w : BitVec 32) (allowed : barOk acc = true)
  (reaches : Reaches (fnLink s p.val fn.val) s) (opened : QpOpen p.val fn.val q.val (arrived (fnLink s p.val fn.val) s))
include allowed reaches opened

theorem execSqTailDoorbell_four (four : acc.size = 4) :
    execSqTailDoorbell p fn q ⟨acc, v, w⟩ s = .next (setSqTail v (qpKey p.val fn.val q.val) (doorbellState p fn s)) := by
  have short : ¬acc.size = 8 := by omega
  refine congrArg Host.Outcome.next ((barAccess_ok allowed _ _ _ _ _).trans ((if_neg short).trans ?_))
  rw [arrive_reaches reaches]
  exact doorbell_open opened _

theorem execSqTailDoorbell_eight (eight : acc.size = 8) :
    execSqTailDoorbell p fn q ⟨acc, v, w⟩ s =
      .next (setCqHead w (qpKey p.val fn.val q.val) (setSqTail v (qpKey p.val fn.val q.val) (doorbellState p fn s))) := by
  refine congrArg Host.Outcome.next ((barAccess_ok allowed _ _ _ _ _).trans ((if_pos eight).trans ?_))
  rw [arrive_reaches reaches]
  exact doorbell_open opened _

theorem execCqHeadDoorbell_open :
    execCqHeadDoorbell p fn q ⟨acc, v, w⟩ s = .next (setCqHead v (qpKey p.val fn.val q.val) (doorbellState p fn s)) :=
  congrArg Host.Outcome.next ((barWrite_reaches allowed reaches _ _ _ _).trans (doorbell_open opened _))

end

/-! ## Fetching and replies (R375–R377, R379) -/

/-- The answer to a controller's oldest read brings the commands of its queue pair, while that still runs. -/
theorem commandsArrive_running {l k n : Nat} {rest : List (Nat × Nat)} {s : State} (cmds : List (BitVec 512))
    (oldest : (s.ctl l).reads = (k, n) :: rest) (reading : (s.qp k).reading ≠ 0) (enabled : (s.qp k).enable = true)
    (stays : (s.qp k).deleting = false) (sound : (s.qp k).error = false) (undrained : (s.fn (qpPort k) (qpFn k)).drain = none)
    (whole : s.host.fatal = false) :
    commandsArrive l cmds s = takeCommands l k (cmds.take n)
      (pump 7 ((s.setCtl l { s.ctl l with reads := rest }).setQp k { s.qp k with reading := 0 })) := by
  simp [commandsArrive, oldest, reading, enabled, stays, sound, undrained, whole]

theorem execCommandFetch_winner {l : CtlId} {k : Nat} {s : State} (wins : fetchWinner s l.val = some k) :
    let n := fetchCount (s.qp k)
    execCommandFetch l s = .next (hostRead (qpPort k) (qpFn k) ((s.qp k).sqBase.toNat + 64 * (s.qp k).sqHead.toNat) (64 * n) l.val
      ((s.setQp k { s.qp k with reading := n }).setCtl l.val
        { s.ctl l.val with lastWinner := k, reads := (s.ctl l.val).reads ++ [(k, n)] })) := by
  simp only [execCommandFetch, fetchCommands, wins]

/-- A port with one outstanding entry polls that one. -/
theorem execReplyPoll_single {p : HPort} {x : Nat × Nat} {s : State}
    (single : s.host.inbox.filter (fun y => decide (qpPort y.1 = p.val)) = [x]) : execReplyPoll p s = .next (pollEntry x s) := by
  simp only [execReplyPoll, single, List.take_succ_cons, List.take_nil, List.foldl_cons, List.foldl_nil]

/-- Completions that were not signalled are signalled when COAL_TIME has passed. -/
theorem execCqCoalesceTimeout_unsignalled {p : HPort} {fn : FnId} {q : QueueId} {s : State} :
    let k := qpKey p.val fn.val q.val
    let x := s.qp k
    x.enable = true → x.irqEn = true → x.unsignalled = true →
      execCqCoalesceTimeout p fn q s =
        .next (sendMsix p.val fn.val x.vector.toNat (s.setQp k { x with sinceMsg := 0, unsignalled := false })) :=
  fun enabled interrupts waits => if_pos (by rw [enabled, interrupts, waits]; rfl)

/-! ## Records of queue pairs (R373, R391) -/

section
variable {path : Path} {w : BitVec 512} {k : Nat} {s : State} (selected : selectedQp s path = some k) (stays : (s.qp k).deleting = false)
include selected stays

theorem writeRecord_creates (disabled : (s.qp k).enable = false) (enables : w.getLsbD 0 = true) (allowed : createDenied s k w = false) :
    writeRecord path w s = qpResult path resOk (s.setQp k (createdQp w)) := by
  simp only [writeRecord, selected, stays, disabled, enables, allowed, Bool.not_true, Bool.not_false, Bool.false_eq_true, if_true, if_false]

section
variable (enabled : (s.qp k).enable = true)
include enabled

theorem writeRecord_deletes (disables : w.getLsbD 0 = false) :
    writeRecord path w s = qpResult path resBusy (s.setQp k { s.qp k with deleting := true, delPath := path }) := by
  simp only [writeRecord, selected, stays, enabled, disables, Bool.not_true, Bool.not_false, Bool.false_eq_true, if_true, if_false]

theorem writeRecord_modifies (enables : w.getLsbD 0 = true) (someVector : 1 ≤ recField w 16 7) (vector : recField w 16 7 ≤ 64)
    (time : recField w 32 16 ≤ 10000) : writeRecord path w s = qpResult path resOk (s.setQp k (modifiedQp (s.qp k) w)) := by
  have inRange : ¬(recField w 16 7 < 1 ∨ 64 < recField w 16 7 ∨ 10000 < recField w 32 16) := by omega
  simp only [writeRecord, selected, stays, enabled, enables, if_neg inRange, Bool.not_true, Bool.false_eq_true, if_false]

end
end

/-! ## Mailboxes (R371, R372) -/

/-- A GO write of a free mailbox makes it busy and queues its access. -/
theorem mailboxGo_free {p : HPort} {fn : FnId} (write : Bool) (idx : BitVec 16) (sub : BitVec 8) (len : BitVec 9) (irq : Bool) (data : List Byte)
    {s : State} (answers : fnAnswers s p.val fn.val = true) (free : (s.fn p.val fn.val).mbox.busy = false) :
    let f := s.fn p.val fn.val
    let m : Mailbox := { index := idx, sub := sub, op := write, length := len, irq := irq, busy := true, result := f.mbox.result,
                         rlength := f.mbox.rlength, data := if write then takePad 256 0 data else f.mbox.data }
    let a : Access := { path := if fn.val = 0 then .pf p else .vf p fn, write := write, idx := idx.toNat, sub := sub.toNat,
                        data := if write then takePad len.toNat 0 data else [] }
    mailboxGo p fn write idx sub len irq data s =
      raise 0x545 { (s.setFn p.val fn.val { f with mbox := m }) with serial := s.serial ++ [a] } := by
  simp only [mailboxGo, answers, free, Bool.not_true, Bool.false_eq_true, if_false]

/-! ## The obligation -/

/-- Settles O27: each doorbell, fetch, reply, record and mailbox write, by the lemma above for the conditions of its clause. -/
theorem queuePairsAndMailboxesComplete : Obligations.QueuePairsAndMailboxesComplete := by
  refine ⟨?doorbells, ?misplaced, ?fetch, ?commands, ?reply, ?coalesce, ?record, ?deleted, ?mailbox⟩
  case doorbells =>
    intro p fn q acc v w s l k s1 s2 x allowed reaches opened
    refine ⟨fun four inside => ?_, fun eight => execSqTailDoorbell_eight v w allowed reaches opened eight, fun inside consumed => ?_⟩
    · exact (execSqTailDoorbell_four v w allowed reaches opened four).trans (congrArg _ (setSqTail_inRange inside))
    · exact (execCqHeadDoorbell_open v w allowed reaches opened).trans (congrArg _ (setCqHead_inRange inside consumed))
  case misplaced =>
    intro p fn q acc v w idx sub len irq data s disallowed trained answers
    have discards : ∀ f, barWrite p.val fn.val acc f s = discardWrite p.val fn.val s := fun f =>
      barAccess_bad disallowed trained answers _ f
    simp only [List.forall_mem_cons]
    exact ⟨congrArg _ (discards _), congrArg _ (discards _), congrArg _ (discards _), congrArg _ (discards _), List.forall_mem_nil _⟩
  case fetch => exact fun l k s wins => execCommandFetch_winner wins
  case commands =>
    exact fun l k n rest cmds s0 oldest reading enabled stays sound undrained whole =>
      congrArg Host.Outcome.next (commandsArrive_running cmds oldest reading enabled stays sound undrained whole)
  case reply => exact fun p x s single => execReplyPoll_single single
  case coalesce => exact fun p fn q s => execCqCoalesceTimeout_unsignalled
  case record =>
    exact fun path w k s permits selected stays =>
      ⟨fun disabled enables allowed => permittedWrite_answersOk permits (writeRecord_creates selected stays disabled enables allowed),
        fun enabled disables => permittedWrite_answersOk permits (writeRecord_deletes selected stays enabled disables),
        fun enabled enables someVector vector time =>
          permittedWrite_answersOk permits (writeRecord_modifies selected stays enabled enables someVector vector time)⟩
  case deleted => exact fun p fn q s deleting posted => if_pos ⟨deleting, posted⟩
  case mailbox =>
    intro p fn acc idx sub irq s l s1 f path allowed reaches answers free
    exact ⟨congrArg _ ((barWrite_reaches allowed reaches _ _ _ _).trans (mailboxGo_free false idx sub 0 irq [] answers free)),
      fun len data => congrArg _ ((barWrite_reaches allowed reaches _ _ _ _).trans (mailboxGo_free true idx sub len irq data answers free))⟩

end Sys2Proof.Proofs
end

section
/-! SUPPORT. Functions and links of the host endpoint (R364–R368, R386–R390, R505): drains, configuration requests, PERST and link states, and the
settling of the obligation on them. -/

namespace Sys2Proof.Proofs

open Sys2Proof Sys2Proof.Machine

/-! ## What signals leave of the host endpoint -/

/-- Of the host endpoint, what raising a source leaves: messages change its functions and what it holds back alone. -/
def endpoint (s : State) : HostEp := { s.host with fns := [], heldOut := [] }

theorem endpoint_foldl {α : Type} {f : State → α → State} (keeps : ∀ t x, endpoint (f t x) = endpoint t) (l : List α) (s : State) :
    endpoint (l.foldl f s) = endpoint s :=
  List.foldlRecOn l f (motive := fun t => endpoint t = endpoint s) rfl fun t same x _ => (keeps t x).trans same

@[simp] theorem endpoint_odBump (i j : Nat) (s : State) : endpoint (odBump i j s) = endpoint s := rfl
@[simp] theorem endpoint_setSource (s : State) (n : Nat) (x : Source) : endpoint (s.setSource n x) = endpoint s := rfl
@[simp] theorem endpoint_setFn (s : State) (p fn : Nat) (x : HFn) : endpoint (s.setFn p fn x) = endpoint s := rfl
@[simp] theorem endpoint_setDom (d : Domain) (v : DomState) (s : State) : endpoint (setDom d v s) = endpoint s := rfl
@[simp] theorem endpoint_clearSource (n : Nat) (s : State) : endpoint (clearSource n s) = endpoint s := rfl
@[simp] theorem endpoint_canOut (id : BitVec 29) (data : List Byte) (s : State) : endpoint (canOut id data s) = endpoint s := rfl
@[simp] theorem endpoint_eventOut (body : List Byte) (s : State) : endpoint (eventOut body s) = endpoint s := rfl

@[simp] theorem endpoint_emitTlp (l : Nat) (o : Out) (s : State) : endpoint (emitTlp l o s) = endpoint s := by rw [emitTlp_eq]; rfl

@[simp] theorem endpoint_sendMsix (p fn v : Nat) (s : State) : endpoint (sendMsix p fn v s) = endpoint s := by
  have held : ∀ x : List (Nat × Nat × Out), endpoint { s with host := { s.host with heldOut := x } } = endpoint s := fun _ => rfl
  simp [sendMsix, emitOrdered, apply_ite endpoint, held]

@[simp] theorem endpoint_wakeCore (k : Nat) (s : State) : endpoint (wakeCore k s) = endpoint s := by
  unfold wakeCore wakeDom
  split <;> simp [apply_ite endpoint]

@[simp] theorem endpoint_wakeTarget (n : Nat) (s : State) : endpoint (wakeTarget n s) = endpoint s := by
  unfold wakeTarget
  split
  · exact endpoint_foldl (fun t k => endpoint_wakeCore k t) _ s
  · split <;> simp

@[simp] theorem endpoint_signalQuiet (n : Nat) (s : State) : endpoint (signalQuiet n s) = endpoint s := by
  unfold signalQuiet
  dsimp only
  split
  · rfl
  · split <;> simp [apply_ite endpoint]

@[simp] theorem endpoint_pumpCan (s : State) : endpoint (pumpCan s) = endpoint s := by
  unfold pumpCan
  split
  · exact (endpoint_foldl (fun t b => endpoint_eventOut b t) _ _).trans
      (endpoint_foldl (fun t (x : BitVec 29 × List Byte) => endpoint_canOut x.1 x.2 t) _ _)
  · rfl

theorem endpoint_raiseBy {sig : Nat → State → State} (keeps : ∀ n t, endpoint (sig n t) = endpoint t) (n : Nat) (corrected : Bool)
    (info : List Byte) (s : State) : endpoint (raiseBy sig n corrected info s) = endpoint s := by
  have counted : ∀ t, endpoint (countSource n t) = endpoint t := fun t => by simp [countSource, apply_ite endpoint]
  have event : ∀ t, endpoint (eventOf n corrected info t) = endpoint t := fun t => by
    unfold eventOf
    split
    · rfl
    · exact endpoint_pumpCan _
  simp [raiseBy, counted, event, keeps, apply_ite endpoint]

@[simp] theorem endpoint_wakeDevice (cause : Nat) (s : State) : endpoint (wakeDevice cause s) = endpoint s := by
  unfold wakeDevice
  split
  · rfl
  · split
    · exact endpoint_raiseBy endpoint_signalQuiet _ _ _ _
    · split <;> rfl
    · rfl

theorem endpoint_signalSource (n : Nat) (s : State) : endpoint (signalSource n s) = endpoint s := by
  simp [signalSource, apply_ite endpoint]

@[simp] theorem endpoint_raise (n : Nat) (s : State) : endpoint (raise n s) = endpoint s := endpoint_raiseBy endpoint_signalSource n false [] s

theorem perst_of_endpoint {s t : State} (same : endpoint t = endpoint s) : t.host.perst = s.host.perst := by
  have held : (endpoint t).perst = (endpoint s).perst := congrArg HostEp.perst same
  exact held

/-! ## Drains and power states of functions (R386, R387, R392) -/

/-- FLR of PF0 clears VF Enable as well. -/
theorem startFlr_eq (l fn : Nat) (s : State) : startFlr l fn s = startDrain .flr l fn (if fn = 0 then disableVfs l s else s) := by
  unfold startFlr
  split
  next pf => rw [pf]
  next vf => rfl

/-- D3hot drains PF0, unless that is there already. -/
theorem enterD3_pf {l fn : Nat} {s : State} (pf : fn = 0) (awake : (s.fnAt (linkFnKey l fn)).d3hot = false) :
    enterD3 l fn s = startDrain .d3hot l fn s :=
  if_neg (not_or.mpr ⟨not_not_intro pf, by simp [awake]⟩)

section
variable {l fn : Nat} {s : State}

/-- A return to D0 is latched while the function drains. -/
theorem returnD0_draining (drains : (s.fnAt (linkFnKey l fn)).drain.isSome = true) :
    let k := linkFnKey l fn
    returnD0 l fn s = s.setFnAt k { s.fnAt k with latched := { (s.fnAt k).latched with d0 := true } } := if_pos drains

/-- A return to D0 resets a function in D3hot. -/
theorem returnD0_asleep (undrained : (s.fnAt (linkFnKey l fn)).drain = none) (asleep : (s.fnAt (linkFnKey l fn)).d3hot = true) :
    let k := linkFnKey l fn
    returnD0 l fn s = s.setFnAt k { ({} : HFn) with fenced := (s.fnAt k).fenced } :=
  (if_neg (by simp [undrained])).trans (if_pos asleep)

end

section
variable {l : CtlId} {fn : FnId} {s : State} (whole : s.host.fatal = false)
include whole

/-- A drain ends when the function's reads are over. -/
theorem execDrainEnd_over (finished : (ownsQueues l.val fn.val && fnReads s (l.val / 2) fn.val) = false) :
    execDrainEnd l fn s = .next (endDrain l.val fn.val s) := if_neg (by simp [whole, finished])

/-- At its deadline the drain ends, with a count and a record. -/
theorem execDlFlrExpiry_draining (drains : (s.fnAt (linkFnKey l.val fn.val)).drain.isSome = true) :
    execDlFlrExpiry l fn s = .next (endDrain l.val fn.val (recordDeadline 9 0xF000 (odBump (0x8010 + l.val) 0x0C s))) :=
  if_neg (by simp [whole, Option.isSome_iff_ne_none.mp drains])

end

/-! ## Configuration requests (R368, R387, R388) -/

section
variable {l fn : Nat} {s : State} (trained : linkTrained (s.ctl l).link = true) (shown : presented s l fn = true)
  (undrained : (s.fnAt (linkFnKey l fn)).drain = none)
include trained shown undrained

theorem configRequest_read (off : BitVec 12) :
    configRequest l fn (.read off) s =
      emitTlp l (.completion (l / 2) (bytesOfNat 4 (cfgRead s l fn (off.toNat / 4 * 4)).toNat) false) s := by
  simp [configRequest, trained, shown, undrained]

theorem configRequest_write (off : BitVec 12) (v : BitVec 32) (whole : s.host.fatal = false) :
    configRequest l fn (.write off v) s = emitTlp l (.completion (l / 2) [] false) (cfgWrite l fn (off.toNat / 4 * 4) v s) := by
  simp [configRequest, trained, shown, undrained, whole]

end

/-! ## PERST and links (R364, R365, R390, R505, R532) -/

/-- A change of a link's state leaves memory, the cores and PERST as they were. -/
theorem setHostLink_keeps (l : Nat) (k : HostLink) (s : State) :
    (setHostLink l k s).host.perst = s.host.perst ∧ (setHostLink l k s).mem = s.mem ∧ (setHostLink l k s).cores = s.cores := by
  unfold setHostLink
  split
  · exact ⟨rfl, rfl, rfl⟩
  · let s1 := s.setCtl l { s.ctl l with link := k }
    obtain ⟨mem, -, -, -, -, -, -, cores⟩ := units_of_besideSignals (besideSignals_raise (0x528 + l) s1)
    have perst : (raise (0x528 + l) s1).host.perst = s1.host.perst := perst_of_endpoint (endpoint_raise _ _)
    exact ⟨perst, mem, cores⟩

/-- What PERST does to one link: one that is on goes down. -/
def linkReset (t : State) (l : Nat) : State := if (t.ctl l).link = .off then t else setHostLink l .down t

theorem linkReset_keeps (t : State) (l : Nat) :
    (linkReset t l).host.perst = t.host.perst ∧ (linkReset t l).mem = t.mem ∧ (linkReset t l).cores = t.cores := by
  unfold linkReset
  split
  · exact ⟨rfl, rfl, rfl⟩
  · exact setHostLink_keeps l .down t

/-- PERST is noted and resets its port's links; nothing of memory or the cores changes. -/
theorem execPerstAssert_keeps {p : HPort} {s : State} (awake : s.pwr.state ≠ .deep) (on : s.pwr.state ≠ .off) :
    ∃ t, execPerstAssert p s = .next t ∧ t.host.perst.getLsbD p.val = true ∧ t.mem = s.mem ∧ t.cores = s.cores := by
  let s1 := { s with host := { s.host with perst := s.host.perst ||| ((1 : BitVec 2) <<< p.val) } }
  have resets : execPerstAssert p s = .next (linkReset (linkReset s1 (2 * p.val)) (2 * p.val + 1)) := if_neg (not_or.mpr ⟨awake, on⟩)
  obtain ⟨perst0, mem0, cores0⟩ := linkReset_keeps s1 (2 * p.val)
  obtain ⟨perst1, mem1, cores1⟩ := linkReset_keeps (linkReset s1 (2 * p.val)) (2 * p.val + 1)
  refine ⟨_, resets, ?_, mem1.trans mem0, cores1.trans cores0⟩
  rw [perst1, perst0]
  simp [s1, p.isLt]

/-- Without lanes that wait for their spare, training ends in L0. -/
theorem execHostLinkL0_training {l : CtlId} {rate width : BitVec 8} {s : State} (training : (s.ctl l.val).link = .training)
    (unspared : (s.ctl l.val).spareWaiting = []) :
    execHostLinkL0 l rate width s = .next (setHostLink l.val .l0 (odSet (0x8010 + l.val) 0x02 rate.toNat
      (odSet (0x8010 + l.val) 0x03 width.toNat (s.setCtl l.val { s.ctl l.val with rate := rate, width := width, spareWaiting := [] })))) := by
  simp only [execHostLinkL0, training, unspared, true_or, if_true, List.foldl_nil]

/-- A link in L1 wakes the domains on its way and goes to L0, through Recovery where lanes wait for their spare. -/
theorem exitL1_inL1 {l : Nat} {s : State} (low : inL1 (s.ctl l).link = true) :
    let s1 := wakeDevice 1 ((hostDomains l).foldl (fun t d => wakeDom d t) s)
    exitL1 l s = if (s1.ctl l).spareWaiting = [] then setHostLink l .l0 s1
      else odBump (0x8010 + l) 0x08 (setHostLink l .recovery s1) := if_neg (by simp [low])

/-- A controller's oldest SQ read is given up, and its commands stay where they are. -/
theorem execPcieCompletionTimeout_sqRead {l : CtlId} {k n : Nat} {rest : List (Nat × Nat)} {s : State}
    (oldest : (s.ctl l.val).reads = (k, n) :: rest) :
    execPcieCompletionTimeout l .sqRead s = .next (noteTimeout (qpPort k) (qpFn k)
      ((s.setCtl l.val { s.ctl l.val with reads := rest }).setQp k { s.qp k with reading := 0 })) := by
  simp only [execPcieCompletionTimeout, oldest]

/-! ## The obligation -/

/-- Settles O29: each drain, request and change of a link, by the lemma above for the conditions of its clause. -/
theorem hostLinksComplete : Obligations.HostLinksComplete := by
  refine ⟨?flr, ?vfDisable, ?d3hot, ?d0, ?drainEnd, ?config, ?perst, ?training, ?l0, ?idle, ?exit, ?lanes, ?down, ?timeout⟩
  case flr => exact fun l fn s shown => (if_pos shown).trans (congrArg _ (startFlr_eq _ _ s))
  case vfDisable => exact fun l s => rfl
  case d3hot => exact fun l fn s pf awake => congrArg Host.Outcome.next (enterD3_pf pf awake)
  case d0 =>
    exact fun l fn s => ⟨fun drains => congrArg _ (returnD0_draining drains),
      fun undrained asleep => congrArg _ (returnD0_asleep undrained asleep)⟩
  case drainEnd => exact fun l fn s whole => ⟨execDrainEnd_over whole, execDlFlrExpiry_draining whole⟩
  case config =>
    exact fun l fn off v s trained shown undrained => ⟨congrArg _ (configRequest_read trained shown undrained off),
      fun whole => congrArg _ (configRequest_write trained shown undrained off v whole)⟩
  case perst => exact fun p s => ⟨fun awake on => execPerstAssert_keeps awake on, _, rfl, by simp, rfl, rfl⟩
  case training =>
    exact fun l s released unheld used down awake on untested => if_pos ⟨released, unheld, used, down, awake, on, untested⟩
  case l0 => exact fun l rate width s training unspared => execHostLinkL0_training training unspared
  case idle => exact fun l s active enabled idle => if_pos ⟨active, enabled, idle⟩
  case exit => exact fun l s low => congrArg Host.Outcome.next (exitL1_inL1 low)
  case lanes => exact fun l errs s => rfl
  case down => exact fun l s trained => if_pos trained
  case timeout => exact fun l k n rest s oldest => execPcieCompletionTimeout_sqRead oldest

end Sys2Proof.Proofs
end

section
/-! SUPPORT. The Farrier's records, repairs and Groom pairs (R434–R450, R459, R460): what each command comes to under the conditions of its clause,
and the settling of the obligation on them. -/

namespace Sys2Proof.Proofs

open Sys2Proof Sys2Proof.Machine

/-! ## Context records (R84, R434) -/

section
variable {e : EngineId} {c : CtxId} {s : State} (own : ctxEngine s c.toNat = e.val) (resident : (s.ctx c.toNat).spilled = false)
include own resident

/-- The loss of a FREE context's record retires its engine alone. -/
theorem execContextSramUe_free (free : (s.ctx c.toNat).state = .free) :
    execContextSramUe e c s = .next (retireEngine e.val 1 0 0 (s.setCtx c.toNat { engine := (s.ctx c.toNat).engine })) := by
  simp [execContextSramUe, own, resident, free]

/-- The loss of another's fences the context and its stall as well. -/
theorem execContextSramUe_used (used : (s.ctx c.toNat).state ≠ .free) :
    execContextSramUe e c s = .next (containedAt (nextIncident s) (s.ctx c.toNat).stall.toNat none (takeIncident (nextIncident s)
      (retireEngine e.val 1 2 (s.ctx c.toNat).stall.toNat (fenceCtx c.toNat 0x13 s)))) := by
  simp [execContextSramUe, own, resident, used]

end

/-! ## The log (R441) -/

/-- The second's copy is counted, and the sixtieth begins a new minute (log entry 90). -/
def secondCopied (u : State) : State :=
  let n := u.far.saves + 1
  { u with far := { u.far with saves := n % 60, minute := if n % 60 = 0 then [] else u.far.minute } }

theorem execLogSave_eq (s : State) : execLogSave s = .next (secondCopied (saveLog s)) := rfl

theorem secondCopied_far (u : State) :
    (secondCopied u).far.saves = (u.far.saves + 1) % 60 ∧ (secondCopied u).far.log = u.far.log ∧
      (secondCopied u).far.minute = if (u.far.saves + 1) % 60 = 0 then [] else u.far.minute := ⟨rfl, rfl, rfl⟩

/-! ## Substitution, rehoming and queued repairs (R444–R446, R450) -/

section
variable {x : Subst} {s : State} (running : s.far.subst = some x)
include running

theorem execSubstitutionStepDone_running (st : SubstStep) : execSubstitutionStepDone st s = .next (substStep st x s) := by
  simp only [execSubstitutionStepDone, running]

/-- At its deadline a substitution is recorded and aborted. -/
theorem execDlSubstExpiry_running :
    execDlSubstExpiry s = .next (abortSubst (recordIn x.incident
      { kind := 0x0A, cls := 2, resource := resource 0 x.source, detail := 4 } (odBump 0x3000 0x14 (odBump 0x3000 0x11 s)))) := by
  simp only [execDlSubstExpiry, running]

end

/-- The next entry of a rehoming moves to the slice with the fewest; after the last one the slice retires. -/
theorem execRehomeEntryDone_moves {x : Rehome} {i j : Nat} {rest : List Nat} {s : State} (un : List (BitVec 52))
    (running : s.far.rehome = some x) (next : x.entries = i :: rest) (quiet : entryBusy s x.slice i = false)
    (target : fewestSlice s x.slice = some j) :
    let s1 := moveEntry x.slice i j (un.map (fun (a : BitVec 52) => a.toNat / 256)) x.incident s
    let s2 : State := { s1 with far := { s1.far with rehome := some { x with entries := rest } } }
    execRehomeEntryDone un s = .next (if rest.isEmpty then retireSlice x.slice s2 else s2) := by
  simp only [execRehomeEntryDone, running, next, quiet, target, Bool.false_eq_true, if_false]

/-- The oldest queued repair of an action starts where none of it runs. -/
theorem execRepairQueueAdvance_oldest {a : BitVec 8} {r : Repair} {s : State} (free : mustWait s a = false)
    (oldest : s.far.queued.find? (fun q => decide (q.action = a)) = some r) :
    execRepairQueueAdvance a s =
      .next (startSteps r (decideAgain a { s with far := { s.far with running := s.far.running ++ [r], queued := s.far.queued.erase r } })) := by
  simp only [execRepairQueueAdvance, free, oldest, Bool.false_eq_true, if_false]

/-! ## Groom pairs (R448, R459, R460) -/

/-- The pair that serves fails when its watchdog expires outside DEEP. -/
theorem execDlGroomExpiry_serving {g : Nat} {s : State} (serves : servingPair s = some g) (runs : s.side.wdogRunning = true)
    (awake : s.pwr.state ≠ .deep) :
    execDlGroomExpiry s = .next (failPair g (nextIncident s) (recordIn (nextIncident s)
      { kind := 0x0A, cls := 0, resource := resource 9 g, detail := 7 } (allocIncident (odBump 0x3000 0x12 s)))) := by
  simp only [execDlGroomExpiry, serves]
  exact if_pos ⟨runs, awake⟩

/-- Whichever pair stands by, a self-test that passes changes nothing but the hour. -/
theorem execStandbySelftest_pass (s : State) : execStandbySelftest true s = .next (hourPasses s) := by
  unfold execStandbySelftest
  dsimp only
  split <;> rfl

theorem execStandbySelftest_fail0 {s : State} (standby : s.far.pair0 = .standby) :
    execStandbySelftest false s = .next (failPair 0 (nextIncident (hourPasses s)) (hourPasses s)) := by
  simp only [execStandbySelftest, standby, if_true, Bool.false_eq_true, if_false]

theorem execStandbySelftest_fail1 {s : State} (other : s.far.pair0 ≠ .standby) (standby : s.far.pair1 = .standby) :
    execStandbySelftest false s = .next (failPair 1 (nextIncident (hourPasses s)) (hourPasses s)) := by
  simp only [execStandbySelftest, if_neg other, standby, if_true, Bool.false_eq_true, if_false]

/-! ## The obligation -/

/-- Settles O26: each report, repair step and Groom event, by the lemma above for the conditions of its clause. -/
theorem farrierCompletes : Obligations.FarrierCompletes := by
  refine ⟨?report, ?context, ?log, ?substitute, ?substStep, ?substExpiry, ?rehome, ?queue, ?miscompare, ?watchdog, ?restart, ?retest, ?selftest,
    ?walk, ?walkTimeout⟩
  case report => exact fun r s whole => if_neg (by simp [whole])
  case context => exact fun e c s own resident => ⟨execContextSramUe_free own resident, execContextSramUe_used own resident⟩
  case log => exact fun s => ⟨_, execLogSave_eq s, secondCopied_far _⟩
  case substitute => exact fun p k s permits => permittedWrite_answersOk permits rfl
  case substStep => exact fun st x s running => execSubstitutionStepDone_running running st
  case substExpiry => exact fun x s running => execDlSubstExpiry_running running
  case rehome => exact fun un x i j rest s running next quiet target => execRehomeEntryDone_moves un running next quiet target
  case queue => exact fun a r s free oldest => execRepairQueueAdvance_oldest free oldest
  case miscompare => exact fun g s => rfl
  case watchdog => exact fun g s serves runs awake => execDlGroomExpiry_serving serves runs awake
  case restart => exact fun s => rfl
  case retest => exact fun g pass s => rfl
  case selftest => exact fun s => ⟨execStandbySelftest_pass s, execStandbySelftest_fail0, execStandbySelftest_fail1⟩
  case walk => exact fun p s => ⟨fun permits => permittedWrite_answersOk permits rfl, fun permits => permittedWrite_answersOk permits rfl⟩
  case walkTimeout => exact fun s recovers => congrArg Host.Outcome.next (if_pos recovers)

end Sys2Proof.Proofs
end

section
/-! SUPPORT. The side-band paths (R468–R477): Wealar over CAN FD and the halter port, and the settling of the obligation on them. -/

namespace Sys2Proof.Proofs

open Sys2Proof Sys2Proof.Machine

/-! ## Wealar over CAN FD (R468–R474) -/

/-- The state in which a request that a served frame carries takes effect: the frame is counted, and the device wakes. -/
def frameMet (s : State) : State := wakeDevice 3 (pumpCan (frameReceived { s with side := { s.side with busOff := false } }))

section
variable {s : State} (serves : canServes s = true)
include serves

theorem oneFrame_served (act : State → State) : oneFrame act s = act (frameMet s) := if_pos serves

/-- A frame for this node that meets a serving pair outside DEEP and OFF is taken. -/
theorem canSegment_taken {id : BitVec 29} {data : List Byte} {brs : Bool} (request : idResp id = false) (own : idDst id = nodeId s)
    (whole : s.far.fatal = false) (running : s.boot.mfg = false) (on : s.pwr.state ≠ .off) (awake : s.pwr.state ≠ .deep) :
    canSegment id data brs s = takeFrame (frameMet s) (id, data) := by
  have heard : ¬(idResp id = true ∨ (idDst id ≠ 0 ∧ idDst id ≠ nodeId s) ∨ s.pwr.state = .off ∨ s.far.fatal = true ∨
      s.boot.mfg = true) := by
    simp [request, own, whole, running, on]
  have served : ¬(!canServes s) = true := by simp [serves]
  exact (if_neg heard).trans ((if_neg awake).trans ((if_neg served).trans (oneFrame_served serves _)))

/-- A wake in a power state other than DEEP is answered with the state that it leads to. -/
theorem execWealarWake_awake (h : WealarHdr) (awake : s.pwr.state ≠ .deep) (woken : (wakeDevice 3 (frameMet s)).pwr.state ≠ .deep) :
    execWealarWake h s = .next (wealarRespond (nodeId (wakeDevice 3 (frameMet s))) h 4
      [0, BitVec.ofNat 8 (wakeDevice 3 (frameMet s)).pwr.state.code] (wakeDevice 3 (frameMet s))) := by
  have heard : ¬(decide (s.pwr.state = .deep) && natBit (odGet s 0x2000 0x0A) 3) = true := by simp [awake]
  exact congrArg Host.Outcome.next ((if_neg heard).trans ((oneFrame_served serves _).trans (if_neg woken)))

end

/-- A dictionary request waits for the serializer while fewer than eight do. -/
theorem canAccess_queued {s : State} (room : canWaits s < 8) (h : WealarHdr) (write : Bool) (idx sub : Nat) (data : List Byte) :
    let svc : BitVec 8 := BitVec.ofNat 8 (if write then svcWrite else svcRead)
    canAccess h write idx sub data s =
      queueAccess { path := .can, write := write, idx := idx, sub := sub, data := data, can := some (h, svc) } s :=
  if_neg (Nat.not_le.mpr room)

/-- A transfer whose next segment does not follow ends with SEGMENT_ERROR. -/
theorem endTransfer_open {src : BitVec 7} {tid : BitVec 6} {x : Transfer} {s : State}
    (opened : s.side.transfers.find? (fun t => decide (t.src = src) && decide (t.tid = tid)) = some x) :
    endTransfer src tid s =
      segmentError x.hdr x.service.toNat { s with side := { s.side with transfers := s.side.transfers.erase x } } := by
  simp only [endTransfer, opened]

/-! ## The halter port (R475, R476) -/

section
variable {s : State} (serves : halterServes s = true) (accepted : s.side.halterNack = false)
include serves accepted

/-- A request with a good PEC is served while none waits. -/
theorem execHalterBlockWrite_idle (svc tid : BitVec 8) (body : List Byte) (idle : s.side.halterPending = false) :
    let s1 := releaseScl s
    execHalterBlockWrite svc tid body true s = .next (halterService svc.toNat tid body
      { s1 with side := { s1.side with halterPending := true, halterReq := [svc, tid], halterReply := none } }) := by
  simp only [execHalterBlockWrite, serves, accepted, idle, Bool.not_true, Bool.false_eq_true, if_false]

/-- A waiting reply is read, and is then gone. -/
theorem execHalterBlockRead_reply {b : List Byte} (waits : s.side.halterReply = some b) :
    let s1 := releaseScl s
    execHalterBlockRead s = .next (emit (.smbus b) { s1 with side := { s1.side with halterReply := none } }) := by
  have kept : (releaseScl s).side.halterReply = some b := waits
  simp only [execHalterBlockRead, serves, accepted, kept, Bool.not_true, Bool.false_eq_true, if_false]

/-- Without a reply a read answers NOT_READY. -/
theorem execHalterBlockRead_none (noReply : s.side.halterReply = none) :
    let s1 := releaseScl s
    execHalterBlockRead s = .next (emit (.smbus (takePad 2 0 s1.side.halterReq ++ [9])) s1) := by
  have kept : (releaseScl s).side.halterReply = none := noReply
  simp only [execHalterBlockRead, serves, accepted, kept, Bool.not_true, Bool.false_eq_true, if_false]

theorem execHalterReadByte_served : execHalterReadByte s = .next (emit (.smbus [halterStatus s]) (releaseScl s)) := by
  simp only [execHalterReadByte, serves, accepted, Bool.true_or, Bool.false_eq_true, if_true, if_false]

end

/-! ## The obligation -/

/-- Settles O40: each frame, request and transaction, by the lemma above for the conditions of its clause. -/
theorem sideBandCompletes : Obligations.SideBandCompletes := by
  refine ⟨?segment, ?timeout, ?busOff, ?requests, ?heartbeat, ?halter⟩
  case segment =>
    exact fun id data brs s request own serves whole running on awake =>
      congrArg Host.Outcome.next (canSegment_taken serves request own whole running on awake)
  case timeout => exact fun src tid x s opened => congrArg Host.Outcome.next (endTransfer_open opened)
  case busOff => exact fun s => rfl
  case requests =>
    intro h s serves u
    have served : ∀ act : State → State, (Host.Outcome.next (oneFrame act s) : Answer) = .next (act u) := fun act =>
      congrArg _ (oneFrame_served serves act)
    refine ⟨fun idx sub data room => ⟨?_, ?_⟩, served _, fun awake woken => execWealarWake_awake serves h awake woken, fun tid => served _⟩
    · exact (served _).trans (congrArg _ (canAccess_queued room h false _ _ _))
    · exact (served _).trans (congrArg _ (canAccess_queued room h true _ _ _))
  case heartbeat => exact fun s serves periodic => if_pos ⟨serves, periodic⟩
  case halter =>
    exact fun s serves accepted => ⟨fun svc tid body idle => execHalterBlockWrite_idle serves accepted svc tid body idle,
      fun b waits => execHalterBlockRead_reply serves accepted waits, execHalterBlockRead_none serves accepted,
      execHalterReadByte_served serves accepted⟩

end Sys2Proof.Proofs
end

section
/-! SUPPORT. The phases of bring-up (R436, R448, R496–R507): what each acts on and the phase that follows, and the settling of the obligation on
them. -/

namespace Sys2Proof.Proofs

open Sys2Proof Sys2Proof.Machine

/-! ## Rails and calibration (R496, R500, R507) -/

@[simp] theorem toPhase_boot (x : BootPhase) (s : State) : (toPhase x s).boot.phase = x := rfl

/-- READY is 0 in every phase before the last. -/
theorem toPhase_unready {x : BootPhase} (early : x ≠ .ready) (s : State) : (toPhase x s).boot.ready = false := by
  show (decide (x = .ready) && !s.tap.hold) = false
  simp [early]

/-- A phase's row acts in its phase. -/
theorem inPhase_acts {x : BootPhase} {s : State} (now : inPhase x s = true) (f : State → State) :
    (Host.Outcome.next (if inPhase x s then f s else s) : Answer) = .next (f s) := congrArg Host.Outcome.next (if_pos now)

/-- A boot fault that bring-up meets while it waits is recorded once. -/
theorem inPhase_faultOnce {x : BootPhase} {bit : Nat} {s t : State} (now : inPhase x s = true)
    (first : natBit (odGet s 0xB000 0x03) bit = false) :
    (Host.Outcome.next (if inPhase x s && !natBit (odGet s 0xB000 0x03) bit then t else s) : Answer) = .next t :=
  congrArg Host.Outcome.next (if_pos (by simp [now, first]))

/-- Without a failed unit calibration leads to MAPS, where no fault holds bring-up. -/
theorem calibrated_good {s : State} (unheld : s.boot.hold = false) : calibrated [] s = toPhase .maps s := by
  simp [calibrated, unheld]

/-! ## Maps and the cold soak (R501, R502) -/

/-- After HOST_LINK a cold DIMM is soaked first. -/
theorem mapsDone_phase (bad : List SliceId) (s : State) :
    (mapsDone bad s).boot.phase = .coldSoak ∨ (mapsDone bad s).boot.phase = .dram := by
  unfold mapsDone
  dsimp only
  rw [toPhase_boot]
  split
  · exact Or.inl rfl
  · exact Or.inr rfl

/-- The coldest of temperatures that are all at 0 °C or more is. -/
theorem foldl_min_nonneg {r : List Int} {t : Int} (warm : ∀ u ∈ t :: r, 0 ≤ u) : 0 ≤ r.foldl min t :=
  List.foldlRecOn r min (motive := fun m => 0 ≤ m) (warm t List.mem_cons_self) fun _ least u listed =>
    le_min least (warm u (List.mem_cons_of_mem t listed))

/-- Once every sensor is at 0 °C or more the soak is over and nothing heats. -/
theorem soakStep_warm {t : Int} {r : List Int} (warm : ∀ u ∈ t :: r, 0 ≤ u) (s : State) :
    (soakStep (t :: r) s).boot.phase = .dram ∧ (soakStep (t :: r) s).boot.heating = 0 := by
  simp only [soakStep, if_pos (foldl_min_nonneg warm)]
  exact ⟨rfl, rfl⟩

/-! ## DRAM (R503) -/

/-- What the SPDs say changes no part of bring-up's own state. -/
theorem readSpd_boot (spd : List DimmSpd) (s : State) : (readSpd spd s).boot = s.boot :=
  List.foldlRecOn (motive := fun t : State => t.boot = s.boot) _ _ rfl fun _ same _ _ => same

/-- A supported population that trains without a fault leads to TACK. -/
theorem dramTrained_good {spd : List DimmSpd} {s : State} (supported : populationOk spd = true) (unheld : s.boot.hold = false) :
    dramTrained spd [] [] s = toPhase .tack (readSpd spd s) := by
  have stillUnheld : (readSpd spd s).boot.hold = false := by rw [readSpd_boot, unheld]
  simp [dramTrained, supported, stillUnheld]

/-- A population that is not supported holds bring-up. -/
theorem dramTrained_unsupported {spd : List DimmSpd} {s : State} (unsupported : populationOk spd = false) (bad : List ChanId)
    (ranks : List (ChanId × Fin 8)) : dramTrained spd bad ranks s = bootHold 8 0x02 0xF000 s := if_pos (by simp [unsupported])

/-! ## The obligation -/

/-- Settles O41: each phase's row, by the lemma above for the conditions of its clause. -/
theorem bringUpCompletes : Obligations.BringUpCompletes := by
  refine ⟨?reset, ?selftest, ?load, ?power, ?calibrate, ?calibrated, ?maps, ?soak, ?dram, ?tack, ?units, ?fatal⟩
  case reset => exact fun a b m s now => inPhase_acts now _
  case selftest => exact fun g s runs => ⟨congrArg Host.Outcome.next (if_pos runs), congrArg Host.Outcome.next (if_pos runs)⟩
  case load => exact fun p s now => inPhase_acts now _
  case power =>
    exact fun s now => ⟨⟨toPhase .calibrate s, inPhase_acts now _, rfl, toPhase_unready (by decide) s, rfl, rfl⟩, inPhase_faultOnce now⟩
  case calibrate =>
    exact fun s now unheld => ⟨toPhase .maps s, (inPhase_acts now _).trans (congrArg _ (calibrated_good unheld)), rfl,
      toPhase_unready (by decide) s⟩
  case calibrated => exact fun bad s now => inPhase_acts now _
  case maps => exact fun bad s now => ⟨_, inPhase_acts now _, mapsDone_phase bad s⟩
  case soak =>
    exact fun s now => ⟨fun t r warm => ⟨_, inPhase_acts now _, soakStep_warm warm s⟩, inPhase_faultOnce now⟩
  case dram =>
    exact fun s now unheld => ⟨fun spd supported => (inPhase_acts now _).trans (congrArg _ (dramTrained_good supported unheld)),
      fun spd bad ranks unsupported => (inPhase_acts now _).trans (congrArg _ (dramTrained_unsupported unsupported bad ranks))⟩
  case tack => exact fun s now => ⟨toPhase .units (zeroTack s), inPhase_acts now (fun u => toPhase .units (zeroTack u)), rfl, rfl, rfl, rfl⟩
  case units => exact fun ms s now => inPhase_acts now _
  case fatal => exact fun s fatal => congrArg Host.Outcome.next (if_pos fatal)

end Sys2Proof.Proofs
end
